-- ==== Sys2Proof/Word.lean ====
section
/-! DEFINITION. The word of the register space and the plainest things said of it (00_scope.md R12). -/

namespace Sys2Proof

/-- A register of the ZM1152: 32 bits (00_scope.md R12). -/
abbrev Word := BitVec 32

/-- Ticks per nanosecond: a tick is 1/297 ns, so that nanoseconds, rows and fabric cycles are all whole. -/
abbrev tickNs : Nat := 297

/-- Ticks per microsecond. -/
abbrev tickUs : Nat := 297_000

/-- Ticks per millisecond. -/
abbrev tickMs : Nat := 297_000_000

/-- Ticks per second: 297,000,000 rows of 1,000 ticks (01_compiled_plan.md R67). -/
abbrev tickSec : Nat := 297_000_000_000

/-- Ticks per row (02_word_fabric_and_takes.md R74). -/
abbrev tickRow : Nat := 1_000

/-- Ticks per fabric cycle (02_word_fabric_and_takes.md R74). -/
abbrev tickCycle : Nat := 250

/-- Ticks per epoch: 5,940 rows, 20 µs (01_compiled_plan.md R67). -/
abbrev tickEpoch : Nat := 5_940_000

end Sys2Proof
end

