-- ==== Sys2Proof/Syntax.lean ====
section
/-! DEFINITION. The commands of the ZM1152: one constructor of `Instr` per row of spec/opcode_table.json, with the operands the row's rules name.

Every constructor takes `dt` first: the time, in ticks of 1/297 ns, from the command before it to this one (log 2).
A host opcode's row takes the packet header `Hdr` and the fields of its body; every other row takes what the outside world,
or the part of the ZM1152 that the manual does not publish, brings to that instant. -/

namespace Sys2Proof

/-! ## Command packets (16_command_packets.md) -/

/-- The command descriptor's header (R603); the opcode is the constructor's. -/
structure Hdr where
  /-- VERSION; 1 in this manual. -/
  version : Nat
  /-- FLAGS: bit 0 INLINE. -/
  flags : Nat
  /-- TAG, host-chosen. -/
  tag : Nat
  /-- LENGTH of the body in bytes. -/
  length : Nat
  /-- TARGET: 0 this unit, 1 the partner. -/
  target : Nat
  /-- SEQ (R605). -/
  seq : Nat
  /-- APPLY_AT: a house frame, or 0. -/
  applyAt : Nat
  /-- RESULT_LEN: bytes available at RESULT_ADDR, with INLINE 0. -/
  resultLen : Nat
  /-- Every field of R603 that must be zero is zero. -/
  zeroOk : Bool
  /-- The body is read without PCIe error (R606 order 10). -/
  bodyOk : Bool
  /-- Every byte and bit of the body that its layout gives as zero is zero (R817). -/
  bodyZeroOk : Bool
  /-- A write of the result body to RESULT_ADDR succeeds (R604). -/
  resultOk : Bool
  deriving DecidableEq, Repr

/-- A record of `PLAN_PATCH` (01_compiled_plan.md R60): TYPE, COUNT (the length of `entries`), FIRST and the entries, each as one little-endian number. -/
structure PatchRec where
  type : Nat
  count : Nat
  first : Nat
  entries : List Nat
  deriving DecidableEq, Repr

/-- A reference configuration entry (12_reference_selection.md R496 when it stands for entry 0, R497 otherwise). -/
structure RefEntry where
  /-- R496 FLAGS; R497 ENABLE byte. -/
  flags : Nat
  /-- R496 HOLDOFF; R497 PRIO. -/
  holdoff : Nat
  /-- R496 DRIFT; R497 QL_CFG. -/
  drift : Nat
  /-- R496 DRIFT_TIME; R497 FMT. -/
  driftTime : Nat
  /-- R496 SLEW; R497 ACQ_BW. -/
  slew : Nat
  /-- R496 REALIGN; R497 TRK_BW. -/
  realign : Nat
  /-- R496 HO_QL; R497 CHANNEL. -/
  hoQl : Nat
  /-- R496 XO_QL. -/
  xoQl : Nat
  /-- R496 HO_LIMIT. -/
  hoLimit : Nat
  /-- R497 DELAY_COMP, signed nanoseconds. -/
  delayComp : Int
  /-- The entry's zero bytes and bits are zero. -/
  zeroOk : Bool
  deriving DecidableEq, Repr

/-- A colour set (03_port_pipelines.md R147; its FLAGS extended by 09_ibex_engines.md R387). -/
structure ColourEntry where
  /-- Nine coefficients in row order, S3.14. -/
  coef : List Int
  ofsIn : List Int
  ofsOut : List Int
  /-- Bit 0 ENABLE, bit 1 LEGAL, bit 2 PRE_ON, bit 3 POST_ON. -/
  flags : Nat
  zeroOk : Bool
  deriving DecidableEq, Repr

/-- A layer geometry entry (10_composition.md R398). -/
structure LayerEntry where
  head : Nat
  layer : Nat
  /-- Bit 0 ENABLE, bit 1 STATIC, bit 2 OVER, bit 3 FILL_CLEAR. -/
  flags : Nat
  send : Nat
  alpha : Nat
  cropX : Nat
  cropY : Nat
  cropW : Nat
  cropH : Nat
  outX : Nat
  outY : Nat
  outW : Nat
  outH : Nat
  fill : Nat
  tset : Nat
  zeroOk : Bool
  deriving DecidableEq, Repr

/-- An `AUD_TAKE` entry (11_audio_plane.md R431). -/
structure AudEntry where
  dest : Nat
  source : Nat
  flags : Nat
  zeroOk : Bool
  deriving DecidableEq, Repr

/-- The body of a command packet, one constructor per opcode of R628, and one for an opcode the table does not assign. -/
inductive Body where
  | statusQuery
  | tagQuery (tag : Nat)
  | modeSet (mode : Nat)
  | tagRetire (tag flags : Nat)
  | echo
  | fwLoad (length : Nat)
  | fwActivate (window : Nat)
  | fwConfirm
  | fwQuery
  | fwRestart
  | planLoad (length : Nat)
  | planCommit (flags mode : Nat)
  | planDiscard
  | planQuery
  | planPatch (records : List PatchRec) (structOk : Bool)
  | planRead (type mode first count : Nat)
  | fsControl (source lossMode holdFrames : Nat)
  | delaySet (output delay : Nat)
  | slateLoad (index width height scan length : Nat)
  | memQuery (stack : Nat)
  | take (entry flags : Nat)
  | salvo (id part flags count : Nat) (entries : List Nat)
  | routeQuery (first count : Nat)
  | takeCancel (tag : Nat)
  | refSet (entry : Nat) (value : RefEntry)
  | refQuery
  | refSnap
  | refForce (cand : Nat)
  | timeSet (sec ns : Nat)
  | timeConf (utcOfs localOfs : Int) (flags jam : Nat)
  | ptpSet (cand domain flags dscp vlan ownIp : Nat)
  | capSet (channel edge : Nat) (ofs : Int)
  | timeQuery
  | trkQuery (trunk : Nat)
  | trkRestart (trunk : Nat)
  | trkMbxSend (trunk len : Nat) (bytes : List Nat)
  | flowQuery (first count : Nat)
  | flowStats (flow clear : Nat)
  | ethHostSet (channel classes ownMac : Nat)
  | ibxTaskQuery (task count : Nat)
  | ibxTableSet (task table : Nat) (entries : List Nat)
  | ibxColourSet (task flags : Nat) (entry : ColourEntry)
  | ibxPatternSet (task pattern slate : Nat)
  | ibxProbeSet (probe blackLevel blackFrames freezeMad freezeFrames : Nat) (stLimit tpLimit : Int)
  | ibxProbeRead (probe : Nat)
  | ibxLoudReset (probe : Nat)
  | compLayerSet (count : Nat) (entries : List LayerEntry)
  | compInputFormat (send format scan rateNum rateDen : Nat)
  | compSurfaceLoad (head layer fmt x y w h stride : Nat)
  | compTableSet (head set table flags : Nat) (entries : List Nat)
  | compQuery (head : Nat)
  | audTake (count : Nat) (entries : List AudEntry)
  | audRouteQuery (first count : Nat)
  | audPortSet (port dir ctrl rxMask txMask : Nat)
  | audPortQuery (port : Nat)
  | pairSet (rolePrio flags pinSerial : Nat)
  | pairQuery
  | pairResync
  | pairLink (action : Nat)
  | pairDigests (first count : Nat)
  | modQuery (module : Nat)
  | modProfileSet (eol ea : Nat)
  | modLedgerRead (first count : Nat)
  | modControl (module action : Nat)
  | modAllowSet (index flags oui part : Nat)
  | telSensors
  | telCounters (block index clear : Nat)
  | telWearRead
  | idCertRead
  | idInfo
  | idAttest (nonce : Nat)
  | idOwnerKey (slot hash : Nat) (otpOk : Bool)
  | idPolicySet (policy : Nat) (otpOk : Bool)
  | svcEnter
  | svcLeave
  | svcTest (test unit param : Nat)
  | svcRepair (stack : Nat)
  | unassigned (opcode : Nat)
  deriving DecidableEq, Repr

/-- A command descriptor with its body, as the dispatcher reads it. -/
structure Packet where
  hdr : Hdr
  body : Body
  deriving DecidableEq, Repr

/-- An entry of the command ring as the dispatcher reads it: a descriptor, or a read that fails (R816). -/
inductive RingEntry where
  | packet (p : Packet)
  | readError
  deriving DecidableEq, Repr

/-- A host transmit frame (16_command_packets.md R625). -/
structure HtxDesc where
  channel : Nat
  tsInsert : Bool
  len : Nat
  /-- T0 of R536, 48 bits. -/
  t0 : Nat
  /-- Of a PTP event message: IPv6, UDP checksum, the two octets after the message, and correctionField (14_timebase_and_ptp.md R537). -/
  v6 : Bool
  udpSum : Nat
  pad : Nat
  correction : Int
  deriving DecidableEq, Repr

/-! ## Plan bundles (01_compiled_plan.md) -/

/-- The format of a port, send or return (03_port_pipelines.md R125). -/
structure PortFmt where
  /-- Format Id of R124. -/
  id : Nat
  /-- Line structure: 1125 or 750 total lines. -/
  lines : Nat
  /-- 0 progressive, 1 interlaced, 2 PsF. -/
  scan : Nat
  rateNum : Nat
  rateDen : Nat
  /-- Active width and height in pixels and lines. -/
  width : Nat
  height : Nat
  /-- ST 352 payload ID, byte 1 in [7:0]. -/
  vpid : Nat
  deriving DecidableEq, Repr

/-- A DID, SDID and SDID mask (03_port_pipelines.md R138, R142). -/
structure AncRule where
  did : Nat
  sdid : Nat
  mask : Nat
  deriving DecidableEq, Repr

/-- A used input of a mode. -/
structure InCfg where
  port : Nat
  fmt : PortFmt
  requireVpid : Bool
  filter : List AncRule
  /-- The input is fed by a receive flow and not by a trunk. -/
  fromFlow : Bool
  deriving DecidableEq, Repr

/-- A used output of a mode. -/
structure OutCfg where
  port : Nat
  fmt : PortFmt
  /-- Embed mask: bit g - 1 for audio group g (R144). -/
  embed : Nat
  deletes : List AncRule
  /-- A timecode task serves the output (09_ibex_engines.md R372). -/
  timecode : Bool
  deriving DecidableEq, Repr

/-- A used process send of a mode. -/
structure SendCfg where
  send : Nat
  fmt : PortFmt
  /-- Marked routable (02_word_fabric_and_takes.md R101). -/
  routable : Bool
  /-- The head that reads it as a layer input, and the layer (10_composition.md R402). -/
  layerInput : Bool
  deriving DecidableEq, Repr

/-- A used process return of a mode. -/
structure ReturnCfg where
  ret : Nat
  fmt : PortFmt
  deriving DecidableEq, Repr

/-- An alignment group of a mode (03_port_pipelines.md R152). -/
structure GroupCfg where
  input : Bool
  lead : Nat
  /-- Format Id 7, 8 or 9. -/
  shape : Nat
  deriving DecidableEq, Repr

/-- A rule of an ANC processing task (09_ibex_engines.md R373): it deletes the packets that match, or inserts a packet of at most 255 user data words on a line and data space. -/
inductive AncEdit where
  | delete (r : AncRule)
  | insert (line space did sdid : Nat) (data : List Nat)
  deriving DecidableEq, Repr

/-- An engine task of a mode (09_ibex_engines.md R365, R367). -/
structure TaskCfg where
  task : Nat
  /-- Kind in the order of the table of R367: 1 video packetiser, 2 video depacketiser, 3 audio, 4 ANC, 5 colour, 6 generator, 7 ANC processing, 8 timecode, 9 black and freeze probe, 10 loudness probe. -/
  kind : Nat
  /-- Engine number 0 to 127; 255 for a task split by member of an alignment group, whose engines follow (R368). -/
  engine : Nat
  split : List Nat
  /-- Process send, or 0xFFFF. -/
  send : Nat
  /-- Process return, or 0xFFFF. -/
  ret : Nat
  /-- Port served, or 0xFFFF. -/
  port : Nat
  /-- Probe number, or 0xFFFF. -/
  probe : Nat
  /-- Flow served, or 0xFFFF. -/
  flow : Nat
  /-- Audio plane channels of a loudness probe with their roles (R377): 0 L, R or C, 1 surround, 2 LFE. -/
  channels : List (Nat × Nat)
  /-- What the schedule gives the task before any command: PATTERN and SLATE of a generator (R371), the matrix entry of a colour task (R370). -/
  pattern : Nat × Nat
  matrix : Option ColourEntry
  /-- The rules of an ANC processing task (R373). -/
  edits : List AncEdit
  deriving DecidableEq, Repr

/-- A composition head of a mode (10_composition.md R392). -/
structure HeadCfg where
  head : Nat
  uhd : Bool
  ret : Nat
  fmt : PortFmt
  /-- LB_ALLOC of the video layers 0 to 15 (R400). -/
  lbAlloc : List Nat
  /-- Layer store area allocated, in pixels, of the video layers (R399). -/
  storeArea : List Nat
  deriving DecidableEq, Repr

/-- An Ethernet port of a mode (07_ethernet_ports.md R300). -/
structure EthCfg where
  port : Nat
  breakout : Bool
  deriving DecidableEq, Repr

/-- What the opaque sections lay down for one mode, base plan with that mode's overlay (R19), as far as this manual says what they hold. -/
structure ModeCfg where
  mode : Nat
  inputs : List InCfg
  outputs : List OutCfg
  sends : List SendCfg
  returns : List ReturnCfg
  groups : List GroupCfg
  tasks : List TaskCfg
  heads : List HeadCfg
  eths : List EthCfg
  /-- Plane rate of the audio map: 48000 or 96000; 0 with no audio map (11_audio_plane.md R427). -/
  audioRate : Nat
  /-- Audio plane channels above 37,119 that the plan assigns (R822). -/
  audioUsed : List Nat
  /-- Routes of the channels that are no embedded channel of an output: destination, source (R820). -/
  audioRoutes : List (Nat × Nat)
  /-- Scheduled traffic of the ANC send flows per global Ethernet channel, in kb/s (08_media_flows.md R358): its amount is the plan's. -/
  ancRate : List (Nat × Nat)
  deriving DecidableEq, Repr

/-- A memory allocation entry (04_frame_stores.md R194). -/
structure MemEntry where
  kind : Nat
  owner : Nat
  stack : Nat
  frames : Nat
  eq8 : Nat
  base : Nat
  length : Nat
  userKind : Nat
  flags : Nat
  userIndex : Nat
  deriving DecidableEq, Repr

/-- A leg block of a flow entry (08_media_flows.md R327). -/
structure FlowLeg where
  dstIp : Nat
  srcIp : Nat
  dstMac : Nat
  srcMac : Nat
  dstPort : Nat
  srcPort : Nat
  vlan : Nat
  dscp : Nat
  channel : Nat
  hops : Nat
  zeroOk : Bool
  deriving DecidableEq, Repr

/-- A flow entry (08_media_flows.md R326). -/
structure FlowEntry where
  flags : Nat
  essence : Nat
  cls : Nat
  port : Nat
  pt : Nat
  audFirst : Nat
  audCount : Nat
  dly : Nat
  maxDiff : Nat
  transit : Nat
  ssrc : Nat
  payload : Nat
  ptime : Nat
  audBase : Nat
  red : FlowLeg
  blue : FlowLeg
  zeroOk : Bool
  deriving DecidableEq, Repr

/-- A trunk map entry (06_trunk_framing.md R277): KIND 1 stream or KIND 2 trunk. -/
structure TrunkEntry where
  kind : Nat
  dir : Nat
  lane : Nat
  trunk : Nat
  /-- STREAM k, or REQ_STEP. -/
  b2 : Nat
  /-- Zero, or PARTNER. -/
  b3 : Nat
  /-- PORT, or ROLE in [0] and SKEW_ALLOW in [15:8]. -/
  w4 : Nat
  /-- UNITS, or FLAGS: bit 0 TIE, bit 1 REF. -/
  w6 : Nat
  deriving DecidableEq, Repr

/-- A continuity record (R31): head fields and the outputs whose bit is set. -/
structure ContRec where
  fromMode : Nat
  toMode : Nat
  zeroOk : Bool
  outputs : List Nat
  deriving DecidableEq, Repr

/-- A shed list entry (21_supplies_and_thermal.md R744). -/
structure ShedEntry where
  kind : Nat
  index : Nat
  power : Nat
  zeroOk : Bool
  deriving DecidableEq, Repr

/-- The content of a section: the entries of the sections whose format the manual gives (R25), and what this manual says that the opaque ones lay down (log 181). -/
inductive Content where
  /-- Type 2, and any section whose content is not of its type. -/
  | patterns
  /-- Type 1. -/
  | slots (sends : List SendCfg) (returns : List ReturnCfg)
  /-- Type 3. -/
  | ports (inputs : List InCfg) (outputs : List OutCfg) (groups : List GroupCfg)
  /-- Type 4. -/
  | packets (eths : List EthCfg) (ancRate : List (Nat × Nat))
  /-- Type 6. -/
  | tasks (es : List TaskCfg)
  /-- Type 7. -/
  | buffers (es : List HeadCfg)
  /-- Type 8. -/
  | audio (rate : Nat) (used : List Nat) (routes : List (Nat × Nat))
  | flows (es : List FlowEntry)
  | memory (es : List MemEntry)
  | routes (es : List Nat)
  | safe (es : List Nat)
  | colour (es : List ColourEntry)
  | geometry (es : List LayerEntry)
  | air (es : List Nat)
  | refs (es : List RefEntry)
  | trunks (es : List TrunkEntry)
  | continuity (es : List ContRec)
  | shed (es : List ShedEntry)
  | power (awake : Nat)
  deriving DecidableEq, Repr

/-- A section table entry (R23), its content, and the bytes of it that its content does not stand for: all of an opaque section, elsewhere reserved fields and what follows the last entry. -/
structure Section where
  type : Nat
  mode : Nat
  access : Nat
  offset : Nat
  length : Nat
  entries : Nat
  digest : Nat
  content : Content
  extra : Nat
  deriving DecidableEq, Repr

/-- A signature block (R29): slot, r and s of the signature, and the 97 bytes of the public key. -/
structure PlanSig where
  slot : Nat
  r : Nat
  s : Nat
  key : Nat
  zeroOk : Bool
  deriving DecidableEq, Repr

/-- A plan bundle as it stands in the load slot (R22): header fields, sections, the bytes below SIG_OFS that none of them hold (each at its place in the bundle: the header's reserved bytes, and what stands between the sections), and the signature. -/
structure Bundle where
  magic : Nat
  fmtMajor : Nat
  fmtMinor : Nat
  hdrLen : Nat
  bundleLen : Nat
  planId : Nat
  generation : Nat
  compilerVer : Nat
  variant : Nat
  flags : Nat
  minFw : Nat
  rateNum : Nat
  rateDen : Nat
  sectionCount : Nat
  modeMask : Nat
  defaultMode : Nat
  predDigest : Nat
  sectTableOfs : Nat
  sigOfs : Nat
  sigLen : Nat
  sections : List Section
  extra : Nat
  sig : Option PlanSig
  deriving DecidableEq, Repr

/-- A firmware section (18_start_and_update.md R661): its table entry with the two fields given as zero, and the section's bytes as one number. -/
structure FwSection where
  type : Nat
  zeroA : Nat
  offset : Nat
  length : Nat
  zeroB : Nat
  digest : Nat
  bytes : Nat
  deriving DecidableEq, Repr

/-- A firmware bundle as it stands in the staging area (18_start_and_update.md R660 to R662): header fields, sections, the bytes below SIG_OFS that neither holds, the signature block, and what its sections of unpublished layout mean (log 215). -/
structure FwImage where
  magic : Nat
  fmtMajor : Nat
  fmtMinor : Nat
  hdrLen : Nat
  bundleLen : Nat
  version : Nat
  floor : Nat
  variant : Nat
  sectionCount : Nat
  sectTableOfs : Nat
  sigOfs : Nat
  sigLen : Nat
  sections : List FwSection
  extra : Nat
  /-- KEY_ID, the 12 bytes given as zero, and r and s of the signature. -/
  keyId : Nat
  sigZero : Nat
  sigR : Nat
  sigS : Nat
  /-- Version rules: partner versions accepted at join step 3. -/
  accepts : List Nat
  /-- Version rules: settings FORMAT values the version reads. -/
  formats : List Nat
  /-- Settings FORMAT the version writes. -/
  format : Nat
  /-- Calibration: PTP_RX_OFS in ps, of Ethernet channel g at 2g for 400G and at 2g + 1 for 100G (14_timebase_and_ptp.md R540). -/
  rxOfs : List Nat
  deriving DecidableEq, Repr

/-- What a host write through BAR2 leaves (22_supervisor_interconnect.md R770): a bundle in the load slot or the staging area, a picture in the upload area as its 32-bit words from the start of the area, or the region past them. -/
inductive Bar2Content where
  | loadSlot (b : Bundle)
  | staging (i : FwImage)
  | upload (words : List Nat)
  | beyond
  deriving DecidableEq, Repr

/-! ## What arrives from outside -/

/-- Why a cold start begins (R656, R688). -/
inductive StartCause where
  | powerUp
  | resetN
  deriving DecidableEq, Repr

/-- A co-sited group of active-picture samples in 10-bit codes (03_port_pipelines.md R146): Y', Cb and Cr, or G, B and R; and the luma sample that follows it where the format has half as many chroma samples, none with 4:4:4 sampling. -/
structure PicGroup where
  c0 : Nat
  c1 : Nat
  c2 : Nat
  y1 : Option Nat
  deriving DecidableEq, Repr

/-- An ANC packet (R138, R139): identifiers, data space (0 HANC of Y, 1 HANC of C, 2 VANC of Y, 3 VANC of C), user data words, whole length in bytes, whether the parity bits hold, and the 9 bits of the checksum word. -/
structure AncPkt where
  did : Nat
  sdid : Nat
  space : Nat
  data : List Nat
  bytes : Nat
  parity : Bool
  sum : Nat
  deriving DecidableEq, Repr

/-- An embedded audio sample (R135): the 24-bit sample as an unsigned number, Z, V, U and C, and whether its parity holds. -/
structure AudSample where
  value : Nat
  z : Bool
  v : Bool
  u : Bool
  c : Bool
  parityOk : Bool
  deriving DecidableEq, Repr

/-- An audio packet on a line (R134): a control packet declares a rate and asynchronous audio, a data packet carries one sample of each channel of its group, in order. -/
structure AudPkt where
  did : Nat
  rate : Nat
  async : Bool
  samples : List AudSample
  deriving DecidableEq, Repr

/-- One line arriving at an input (R129, R818), at the instant of its EAV. -/
structure LineInfo where
  number : Nat
  /-- A CRC is defined for the line and fails. -/
  crcFail : Bool
  /-- A word of the line arrives marked invalid (R83, R154). -/
  invalid : Bool
  /-- A payload ID on the line. -/
  vpid : Option Nat
  /-- Active-picture samples. -/
  pic : List PicGroup
  anc : List AncPkt
  audio : List AudPkt
  deriving DecidableEq, Repr

/-- One complete input frame (R130, R137), as stage 1 measures it. -/
structure FrameInfo where
  /-- Format Id found; 0 when none; and the line structure and frame rate found. -/
  format : Nat
  lines : Nat
  scan : Nat
  rateNum : Nat
  rateDen : Nat
  /-- TRS and consecutive numbers on every line. -/
  whole : Bool
  /-- OFFSET in rows (R127). -/
  offset : Int
  /-- Frame period against the house period, in units of 0.1 ppm (04_frame_stores.md R172). -/
  periodPpm10 : Int
  deriving DecidableEq, Repr

/-- A rail's word at an egress (15_the_pair.md R590, R591): the word that its output pipeline emitted, and the bits changed since in it and its egress code. -/
structure RailWord where
  word : BitVec 40
  flips : BitVec 48
  deriving DecidableEq, Repr

/-- A rectangle of a graphic surface (10_composition.md R410, R411): format, its left and top, and its rows of 32-bit words, one for a pixel of format 0, two for a pair of format 1. -/
structure SurfPart where
  fmt : Nat
  x : Nat
  y : Nat
  rows : List (List Nat)
  deriving DecidableEq, Repr

/-- A line that an output pipeline has held for one line period (R145): its number, the line of the image that it carries (none in blanking), what its video words carry, and the bytes that the line has left in each data space after the regenerated payload ID and audio packets (R143). -/
structure OutLine where
  number : Nat
  row : Option Nat
  pic : List PicGroup
  anc : List AncPkt
  room : List Nat
  /-- Where a composition head is the source (10_composition.md R397): what its scalers hold of the row, by video layer, as Y', Cb and Cr of each pixel from the left of the layer's rectangle. -/
  layers : List (Nat × List (List Nat))
  deriving DecidableEq, Repr

/-- What an HBM read meets (04_frame_stores.md R189): the bits of the 64-bit word and its 8-bit code that have changed since they were written, and the address that the word in fact comes from. -/
structure HbmRead where
  flips : BitVec 72
  from_ : Nat
  /-- What the word is read for, where its region does not say (R191): the output that shows a slate, or the position of a packet in a de-jitter buffer. -/
  reader : Nat
  deriving DecidableEq, Repr

/-- A 66-bit block as it travels on a lane (06_trunk_framing.md R254 to R256): the sync header, its first bit in bit 0 (2 a data block, 1 a header block), and the scrambled payload, its first bit in bit 0. -/
structure Blk where
  sync : Nat
  payload : BitVec 64
  deriving DecidableEq, Repr

/-- What a lane has received since the last header: the 254 data blocks of a frame, then blocks 0 and 1 of the next (06_trunk_framing.md R257). -/
abbrev LaneFrame := List Blk

/-- The claim's destination (06_trunk_framing.md R265). -/
inductive ClaimLink where
  | trunk (n : Nat)
  | mirror
  deriving DecidableEq, Repr

/-- A row segment of an ST 2110-20 packet (08_media_flows.md R332, R339): row of the image or field, second field, offset in pixels, payload bytes. -/
structure RowSeg where
  row : Nat
  field : Bool
  offset : Nat
  bytes : List Nat
  deriving DecidableEq, Repr

/-- The payload of a media packet by essence (08_media_flows.md R321): rows with the extended sequence field; samples of every channel, sample by sample (24 bits, or 32 bits of AES3); ANC packets with their line numbers; bytes of an SDI data stream with the frame count; or none of these. -/
inductive RtpBody where
  | video (ext : Nat) (segs : List RowSeg)
  | audio (samples : List (List Nat))
  | anc (pkts : List (Nat × AncPkt))
  | whole (frame : Nat) (bytes : List Nat)
  | other
  deriving DecidableEq, Repr

/-- An RTP packet in a UDP payload of `udpLen` bytes (07_ethernet_ports.md R306; 08_media_flows.md R333, R338). -/
structure RtpPkt where
  version : Nat
  headerLen : Nat
  udpLen : Nat
  pt : Nat
  marker : Bool
  seq : Nat
  timestamp : Nat
  ssrc : Nat
  body : RtpBody
  deriving DecidableEq, Repr

/-- IP and UDP fields of a received frame (07_ethernet_ports.md R306). `space` is what the frame holds from the IP header on; `ipLen` the IP total length, with the header; `udpLen` the UDP length with its header, `udpIpLen` what the IP length leaves for UDP; `sumOk` and `udpSumOk` say that the checksums are right. -/
structure IpHead where
  v6 : Bool
  version : Nat
  ihl : Nat
  sumOk : Bool
  fragment : Bool
  otherExt : Bool
  ipLen : Nat
  space : Nat
  udp : Bool
  udpLen : Nat
  udpIpLen : Nat
  udpSum : Nat
  udpSumOk : Bool
  deriving DecidableEq, Repr

/-- The host class a frame belongs to (16_command_packets.md R627): bit number, or none. -/
abbrev HostClass := Option Nat

/-- A received Ethernet frame (07_ethernet_ports.md R305, R306). -/
structure EthFrame where
  len : Nat
  fcsOk : Bool
  fecOk : Bool
  etherType : Nat
  /-- MAC control opcode and quanta. -/
  opcode : Nat
  quanta : Nat
  /-- IPv4 or IPv6 header, none for a frame that is not IP. -/
  ip : Option IpHead
  vlanTags : Nat
  vlan : Nat
  dstIp : Nat
  srcIp : Nat
  udpPort : Nat
  rtp : RtpPkt
  hostClass : HostClass
  dstMac : Nat
  /-- messageType and domainNumber of a PTP message (14_timebase_and_ptp.md R532). -/
  ptp : Option (Nat × Nat)
  deriving DecidableEq, Repr

/-- A media packet as sent (08_media_flows.md R327, R333): the leg's addresses, and the RTP packet. -/
structure MediaOut where
  v6 : Bool
  leg : FlowLeg
  rtp : RtpPkt
  deriving DecidableEq, Repr

/-- A frame on its way to the balls (07_ethernet_ports.md R310, R311). -/
structure SendFrame where
  len : Nat
  /-- Drop class 0 to 2, or 3 for a host frame. -/
  cls : Nat
  /-- Send flow, and leg: false red, true blue; none for a host frame. -/
  leg : Option (Nat × Bool)
  /-- TS_INSERT and T0 (14_timebase_and_ptp.md R536). -/
  tsInsert : Bool
  t0 : Nat
  /-- Of a PTP event message: IPv6, UDP checksum, the two octets after the message, and correctionField (14_timebase_and_ptp.md R536, R537). -/
  v6 : Bool
  udpSum : Nat
  pad : Nat
  correction : Int
  /-- Of a media packet: addresses and RTP packet. -/
  media : Option MediaOut
  deriving DecidableEq, Repr

/-- What falls due for sending (07_ethernet_ports.md R310): packet `index` of its frame in the compiled schedule of a send flow's leg, with the bytes of the SDI data stream that an ST 2022-6 packet takes; or a frame of the host or the supervisor. -/
inductive SendDue where
  | packet (flow : Nat) (blue : Bool) (index : Nat) (stream : List Nat)
  | host (frame : SendFrame)
  deriving DecidableEq, Repr

/-- An Announce message (14_timebase_and_ptp.md R533). -/
structure AnnounceMsg where
  domain : Nat
  /-- clockIdentity of the sender. -/
  identity : Nat
  /-- Data set of IEEE 1588-2019: grandmaster with its priorities, class, accuracy and variance, and steps removed. -/
  grandmaster : Nat
  priority1 : Nat
  clockClass : Nat
  clockAccuracy : Nat
  variance : Nat
  priority2 : Nat
  steps : Nat
  /-- logAnnounceInterval. -/
  interval : Int
  ptpTimescale : Bool
  utcOffset : Int
  utcValid : Bool
  leap : Bool
  deriving DecidableEq, Repr

/-- A loudness block's results (09_ibex_engines.md R377), in 0.01 units. -/
structure LoudInfo where
  momentary : Int
  shortTerm : Int
  integrated : Int
  truePeak : Int
  deriving DecidableEq, Repr

/-- A direction of an audio port. -/
inductive AudDir where
  | rx
  | tx
  deriving DecidableEq, Repr

/-- A word of a port by its nominal house position (15_the_pair.md R572): frame of the format, row of the frame in which it leaves the fabric destination bus under house timing, bits [39:0], and for an input whether it is marked invalid. -/
structure HouseWord where
  frame : Nat
  row : Nat
  word : BitVec 40
  invalid : Bool
  deriving DecidableEq, Repr

/-- The words that the ports have handled since the last epoch boundary, by output and by input (15_the_pair.md R571). -/
structure EpochWords where
  outputs : List (Nat × List HouseWord)
  inputs : List (Nat × List HouseWord)
  deriving DecidableEq, Repr

/-- A block with an event of R554 (15_the_pair.md R574): an output with what stands at its pipeline, a source, or an ibex engine. -/
inductive PathBlock where
  | output (n : Nat)
  | source (n : Nat)
  | engine (e : Nat)
  deriving DecidableEq, Repr

/-- Digests of one epoch (15_the_pair.md R571): output number and CRC, input number and CRC, state CRC; and the blocks with an event of R554 in it (R574; log 213). -/
structure Digests where
  outputs : List (Nat × Nat)
  inputs : List (Nat × Nat)
  state : Nat
  hits : List PathBlock
  deriving DecidableEq, Repr

/-- Table sets of a head or a colour task in a snapshot, by table number: in force and in shadow, with a colour task's matrices. -/
structure SnapTables where
  number : Nat
  live : List (Nat × List Nat)
  shadow : List (Nat × List Nat)
  matrix : Option ColourEntry
  shadowMatrix : Option ColourEntry
  deriving DecidableEq, Repr

/-- A synchroniser in a snapshot. -/
structure SnapSync where
  source : Nat
  sel : Option Nat
  left : Nat
  lossMode : Nat
  hold : Nat
  deriving DecidableEq, Repr

/-- An audio port in a snapshot. -/
structure SnapPort where
  port : Nat
  ctrl : Nat
  rxMask : Nat
  txMask : Nat
  ratio : Nat
  deriving DecidableEq, Repr

/-- A state snapshot (15_the_pair.md R570). -/
structure Snapshot where
  /-- Level sources: destination, level, source. -/
  routes : List (Nat × Nat × Nat)
  /-- Pending takes: entry, flags, resolved commit frame, tag; pending salvos: entries, salvo frame, tag. -/
  takes : List (Nat × Nat × Nat × Nat)
  salvos : List (List Nat × Nat × Nat)
  /-- Audio routes: destination, source; and fades in progress, newest first: destination, and of each fade the old source and the commit sample. -/
  audio : List (Nat × Nat)
  fades : List (Nat × List (Option Nat × Nat))
  /-- Synchroniser selections, hold counts and settings. -/
  sync : List SnapSync
  /-- Delays: output, frames. -/
  delays : List (Nat × Nat)
  /-- Commands and patches accepted and not yet in force, with their frames. -/
  commands : List (Body × Nat)
  patches : List (List PatchRec × Nat)
  patchGen : Nat
  /-- The patchable sections as in force. -/
  flows : List FlowEntry
  safe : List Nat
  colour : List ColourEntry
  air : List Nat
  /-- Audio port settings and ratios. -/
  audPorts : List SnapPort
  /-- Layer geometry that commands have changed, in the base section and in the overlay; formats of layer input sends. -/
  layers : List LayerEntry
  overlays : List LayerEntry
  fmts : List (Nat × PortFmt)
  /-- Table sets of heads, by 6 × set + table, and those of colour tasks. -/
  headTables : List SnapTables
  colourTasks : List SnapTables
  /-- Generator tasks: task, pattern, slate. -/
  generators : List (Nat × Nat × Nat)
  /-- Probes: the settings in the order of `IBX_PROBE_SET`. -/
  probes : List (Nat × List Int)
  deriving DecidableEq, Repr

/-- A mirror message (15_the_pair.md R564). -/
inductive MirMsg where
  /-- A forwarded take: entry, NO_SLIP flag word, resolved commit house frame, tag (R113). -/
  | take (entry flags frame tag : Nat)
  /-- A forwarded salvo: entries, flags, salvo frame, tag. -/
  | salvo (entries : List Nat) (flags frame tag : Nat)
  /-- A forwarded cancel of a tag. -/
  | cancel (tag : Nat)
  /-- An acknowledgement of a forwarded take's tag; late at the partner (R115). -/
  | ack (tag : Nat) (late : Bool)
  /-- A forwarded command with its resolved apply frame (R196). -/
  | command (body : Body) (frame : Nat)
  /-- A forwarded `REF_SNAP` with its apply frame and the step O in ns (12_reference_selection.md R493). -/
  | snap (frame : Nat) (ofs : Int)
  /-- The partner is armed for its pending commit (R42). -/
  | armed
  /-- A synchroniser decision: source, ring frame number (R177). -/
  | syncDecision (source frame : Nat)
  /-- An applied receive ratio of an audio port (R454). -/
  | ratio (port value : Nat)
  /-- A colour-sending change agreed for a house frame (R353). -/
  | colour (frame : Nat)
  /-- Digests of an epoch. -/
  | digests (epoch : Nat) (d : Digests)
  /-- The claim and PAIR_FLAGS the partner wrote in the epoch (R568), and the run-time state where it has changed in it (R564). -/
  | delta (claim flags : Nat) (changed : Option Snapshot)
  /-- A snapshot. -/
  | snapshot (snap : Snapshot)
  /-- A resync is requested. -/
  | resyncRequest
  /-- A plan bundle copied to the load slot (R35), and the partner's status for one sent to it. -/
  | plan (b : Bundle)
  | planStatus (status : Nat)
  /-- A slate copied to the partner: index, width, height, scan, length. -/
  | slate (index width height scan length frame : Nat) (words : List Nat)
  /-- A surface rectangle copied to the partner, with its apply frame. -/
  | surface (head layer frame : Nat) (part : SurfPart)
  /-- A command relayed with TARGET 1 (R622). -/
  | relay (p : Packet)
  /-- Pairing (R566): device certificate and nonce; ephemeral public key with its signature. -/
  | hello (cert : List Nat) (nonce : Nat)
  | exchange (pub r s : Nat)
  deriving DecidableEq, Repr

/-- The identity a module reports on page 00h (20_optical_modules.md R714, R719). -/
structure ModIdent where
  oui : Nat
  part : Nat
  serial : Nat
  vendor : Nat
  hours : Option Nat
  deriving DecidableEq, Repr

/-- What a service test finds (24_service_mode.md R809), beside what State shows of it: failing addresses of a memory; islands with failing scan chains; signatures of an engine's epochs and its uncorrectable memory errors; errors at the 64 positions of an eye; per channel, frames received good and FEC uncorrectable. -/
inductive TestData where
  | plain
  | memory (failing : List Nat)
  | logic (islands : Nat)
  | engine (signatures : List Nat) (uncorrectable : Nat)
  | eye (errors : List Nat)
  | eth (channels : List (Nat × Nat))
  deriving DecidableEq, Repr

/-- Result of a service test (24_service_mode.md R808): `pass` counts for the tests of which the manual publishes no criterion (log 220). -/
structure TestResult where
  pass : Bool
  data : TestData
  deriving DecidableEq, Repr

/-- Masters of the supervisor matrix (22_supervisor_interconnect.md R759, R775). -/
inductive Master where
  | supervisor
  | pcie
  | mirrorDma
  | securityDma
  | debug
  deriving DecidableEq, Repr

/-- A burst or an outstanding ID of a master that is reset (22_supervisor_interconnect.md R768, R769): its supervisor address and size, its direction, and, of a read, whether it has been issued. -/
structure SicBurst where
  addr : Nat
  size : Nat
  write : Bool
  issued : Bool
  deriving DecidableEq, Repr

/-- JTAG instructions (23_package_and_balls.md R799). -/
inductive JtagInstr where
  | bypass
  | samplePreload
  | extest
  | extestPulse
  | extestTrain
  deriving DecidableEq, Repr

/-- A relayed reply (R622): the status, completion frame, DETAIL and result body the partner gave for a tag. -/
structure RelayReply where
  tag : Nat
  status : Nat
  frame : Nat
  detail : Nat
  result : List (Nat × Nat)
  deriving DecidableEq, Repr

/-- What a step of pairing brings (15_the_pair.md R566): the partner's certificate and nonce, the unit's own check of them, the partner's ephemeral public key with its signature, and the derivation of the link's keys. -/
inductive PairMsg where
  | hello (cert : List Nat) (nonce : Nat)
  | check
  | key (pub r s : Nat)
  | derive
  deriving DecidableEq, Repr

/-- What a completing join step has found (15_the_pair.md R569). -/
inductive JoinResult where
  /-- The step's action has succeeded. -/
  | ok
  /-- Both units report the same slot (R560). -/
  | incompatible
  /-- The partner's Mutia version, and its verdict on this unit's (step 3). -/
  | version (v : Nat) (accepts : Bool)
  /-- The standby refused the plan with this status. -/
  | planRefused (status : Nat)
  /-- The partner's plan digest and mode are equal to this unit's. -/
  | planMatch
  deriving DecidableEq, Repr

/-! ## The commands -/

/-- The commands, in the order of spec/opcode_table.json. -/
inductive Instr where
  /-- COLD_START (R656): PWR_GOOD rises or RESET_N is deasserted while PWR_GOOD is high; the logic side is cleared and the boot ROM runs its start steps, choosing between normal start and RESCUE. -/
  | coldStart (dt : Nat) (cause : StartCause) (pairSel : Bool) (rescueN : Bool) (puf : Nat)
  /-- PWR_GOOD_FALL (R734): PWR_GOOD falls; the logic side is isolated within 1 µs and the event controller state is saved to the line side. -/
  | pwrGoodFall (dt : Nat)
  /-- VDD_LINE_FALL (R656): VDD_LINE falls and the line side, FW_BOOT and the THM registers lose their state. -/
  | vddLineFall (dt : Nat)
  /-- PCIE_LINK_DOWN (R624): The PCIe link goes down; the rings and the result table are kept and completions wait. -/
  | pcieLinkDown (dt : Nat)
  /-- PCIE_LINK_UP (R624): The PCIe link comes up; waiting replies are written once the host writes its ring pointers again. -/
  | pcieLinkUp (dt : Nat)
  /-- STATUS_QUERY (R628): Returns the plan, pair, take, command and reference status registers and the current house frame. -/
  | statusQuery (dt : Nat) (hdr : Hdr)
  /-- TAG_QUERY (R614): Returns PENDING, the held reply descriptor, or TAG_UNKNOWN for the tag named. -/
  | tagQuery (dt : Nat) (hdr : Hdr) (tag : Nat)
  /-- MODE_SET (R56): Changes mode within the committed plan by swapping overlays at an apply frame at least 2 ms after acceptance. -/
  | modeSet (dt : Nat) (hdr : Hdr) (mode : Nat)
  /-- TAG_RETIRE (R616): Frees the result-table entry of a completed tag, or of every completed tag with ALL set. -/
  | tagRetire (dt : Nat) (hdr : Hdr) (tag : Nat) (flags : Nat)
  /-- ECHO (R628): Returns the arrival time of the command. -/
  | echo (dt : Nat) (hdr : Hdr)
  /-- FW_LOAD (R663): Verifies the staged firmware bundle's format, variant, digests, signature and anti-rollback floor, and marks it verified. -/
  | fwLoad (dt : Nat) (hdr : Hdr) (length : Nat)
  /-- FW_ACTIVATE (R667): Sets the confirmation window and starts a warm restart into the bank that is not running. -/
  | fwActivate (dt : Nat) (hdr : Hdr) (window : Nat)
  /-- FW_CONFIRM (R675): Writes the confirmation record, raises the OTP floor, sets CONFIRMED and erases the other settings slot. -/
  | fwConfirm (dt : Nat) (hdr : Hdr)
  /-- FW_QUERY (R628): Returns the running, ROM and staged versions, the floor, the bank, the confirmation state and the window time left. -/
  | fwQuery (dt : Nat) (hdr : Hdr)
  /-- FW_RESTART (R669): Starts a warm restart into the running bank without a copy. -/
  | fwRestart (dt : Nat) (hdr : Hdr)
  /-- START_OK (R670): The started firmware serves commands and sets START_OK; settings are chosen, confirmation at start is decided, and partner version rules are checked. -/
  | startOk (dt : Nat) (partnerAccepts : Bool)
  /-- START_OK_TIMEOUT (R670): The firmware has not set START_OK within 10 s of its remap; START_FAILS increments and the ROM falls back. -/
  | startOkTimeout (dt : Nat)
  /-- CONFIRM_WINDOW_EXPIRY (R673): The confirmation window expires; the unit restarts into the old bank, or the ROM serves alone, and START_FAILS increments. -/
  | confirmWindowExpiry (dt : Nat)
  /-- SUPERVISOR_LOCKSTEP_FAIL (R676): The lockstep comparison of the supervisor cores fails; the SUPERVISOR penalty applies and the running bank is warm-restarted. -/
  | supervisorLockstepFail (dt : Nat)
  /-- FW_COMMAND_TAKE (R618): The firmware takes the next command from its queue, which is the command's acceptance. -/
  | fwCommandTake (dt : Nat)
  /-- PLAN_LOAD (R33): Validates the bundle in the load slot in the fixed order of checks, copies it to the partner and validates it there. -/
  | planLoad (dt : Nat) (hdr : Hdr) (length : Nat)
  /-- PLAN_LOAD_COMPLETE (R35): Both units have finished validating; the reply is written with the plan digest and the local and partner status. -/
  | planLoadComplete (dt : Nat)
  /-- PLAN_COMMIT (R40): Checks the load slot, the overlay, that nothing is pending and the line buffers, then accepts a commit for an apply frame and forwards it to the partner. -/
  | planCommit (dt : Nat) (hdr : Hdr) (flags : Nat) (mode : Nat)
  /-- PLAN_ARM (R41): The firmware loads the new tables into the shadow copies of every block and sets PLAN_STATE.ARMED. -/
  | planArm (dt : Nat)
  /-- COMMIT_HOLD_RELEASE (R49): A held first commit is released when the timebase enters LOCKED or WAITING or no enabled candidate is in HOLDOFF, and its earliest frame is counted from then. -/
  | commitHoldRelease (dt : Nat)
  /-- DESTINATION_CHANGEOVER (R43): At its first switch point at or after the apply frame, a destination changes to the new plan or overlay, with routes under R46 and safe content or hitless under continuity. -/
  | destinationChangeover (dt : Nat) (dest : Nat)
  /-- PLAN_DISCARD (R52): Cancels a pending commit if still early enough, or empties the load slot when no commit is pending. -/
  | planDiscard (dt : Nat) (hdr : Hdr)
  /-- PLAN_QUERY (R628): Returns the plan state, the last status, the generations, the patch generation and the digests. -/
  | planQuery (dt : Nat) (hdr : Hdr)
  /-- PLAN_PATCH (R62): Checks the patch records of patchable sections and schedules them for one house frame. -/
  | planPatch (dt : Nat) (hdr : Hdr) (records : List PatchRec) (structOk : Bool)
  /-- PATCH_APPLY (R60): All records of an accepted patch take effect together at the start of their house frame, and PLAN_PATCH_GEN increments. -/
  | patchApply (dt : Nat)
  /-- PLAN_READ (R628): Returns the entries of a readable or patchable section as in force, patches included. -/
  | planRead (dt : Nat) (hdr : Hdr) (type : Nat) (mode : Nat) (first : Nat) (count : Nat)
  /-- FS_CONTROL (R179): Sets LOSS_MODE and HOLD_FRAMES of a frame synchroniser from an apply frame. -/
  | fsControl (dt : Nat) (hdr : Hdr) (source : Nat) (lossMode : Nat) (holdFrames : Nat)
  /-- DELAY_SET (R184): Changes the DELAY of an output delay line at the first output frame boundary at or after the apply frame. -/
  | delaySet (dt : Nat) (hdr : Hdr) (output : Nat) (delay : Nat)
  /-- SLATE_LOAD (R187): Copies a slate from the upload area into all four slate store copies and to the partner, taking effect at the apply frame. -/
  | slateLoad (dt : Nat) (hdr : Hdr) (index : Nat) (width : Nat) (height : Nat) (scan : Nat) (length : Nat)
  /-- MEM_QUERY (R196): Returns the pages used and free per region kind of a stack. -/
  | memQuery (dt : Nat) (hdr : Hdr) (stack : Nat)
  /-- TAKE (R95): Validates a take, schedules it for its destination's switch point and forwards it to the partner. -/
  | take (dt : Nat) (hdr : Hdr) (entry : Nat) (flags : Nat)
  /-- SALVO (R107): Validates and stores salvo parts, and on the final part resolves the salvo frame, schedules every entry atomically and forwards it. -/
  | salvo (dt : Nat) (hdr : Hdr) (id : Nat) (part : Nat) (flags : Nat) (count : Nat) (entries : List Nat)
  /-- SALVO_OPEN_TIMEOUT (R106): An open salvo whose final part has not arrived within 1 s is discarded, and its parts' tags complete with TAKE_ABORTED. -/
  | salvoOpenTimeout (dt : Nat) (id : Nat)
  /-- TAKE_COMMIT (R97): At a destination's switch point, every level of a pending take or salvo entry changes to the new source, and the reply is written within 10 µs. -/
  | takeCommit (dt : Nat) (dest : Nat)
  /-- ROUTE_QUERY (R110): Returns the level sources, pending and group flags and last commit frame of a range of destinations. -/
  | routeQuery (dt : Nat) (hdr : Hdr) (first : Nat) (count : Nat)
  /-- TAKE_CANCEL (R111): Cancels a pending take or salvo at least 150 µs before its first switch point, otherwise completes with TAKE_LATE. -/
  | takeCancel (dt : Nat) (hdr : Hdr) (tag : Nat)
  /-- REF_SET (R499): Writes one entry of the reference configuration, taking effect on acceptance. -/
  | refSet (dt : Nat) (hdr : Hdr) (entry : Nat) (value : RefEntry)
  /-- REF_QUERY (R499): Returns the timebase and candidate status registers. -/
  | refQuery (dt : Nat) (hdr : Hdr)
  /-- REF_SNAP (R485): Accepted in WAITING; schedules a time step by O at an apply frame. -/
  | refSnap (dt : Nat) (hdr : Hdr)
  /-- REF_SNAP_STEP (R486): At the apply frame the timebase steps its time by O and enters LOCKED with O = 0, with the hit effects of a SNAP. -/
  | refSnapStep (dt : Nat)
  /-- REF_FORCE (R476): Forces a candidate to be selected whenever it is usable, or releases the force. -/
  | refForce (dt : Nat) (hdr : Hdr) (cand : Nat)
  /-- TIME_SET (R528): Sets the time at once in Id 0 when no full-time candidate is selected, keeping the frame phase of a selected REF input. -/
  | timeSet (dt : Nat) (hdr : Hdr) (sec : Nat) (ns : Nat)
  /-- TIME_CONF (R529): Sets UTC_OFS, LOCAL_OFS, DST, JAM and USE_PTP_UTC from the start of its apply frame. -/
  | timeConf (dt : Nat) (hdr : Hdr) (utcOfs : Int) (localOfs : Int) (flags : Nat) (jam : Nat)
  /-- PTP_SET (R546): Configures a PTP port and restarts it in LISTENING. -/
  | ptpSet (dt : Nat) (hdr : Hdr) (cand : Nat) (domain : Nat) (flags : Nat) (dscp : Nat) (vlan : Nat) (ownIp : Nat)
  /-- CAP_SET (R546): Configures the edge selection and offset of a capture channel. -/
  | capSet (dt : Nat) (hdr : Hdr) (channel : Nat) (edge : Nat) (ofs : Int)
  /-- TIME_QUERY (R546): Returns the time, the UTC and status registers and the PTP port status. -/
  | timeQuery (dt : Nat) (hdr : Hdr)
  /-- TRK_QUERY (R628): Returns the link, message, header, group and transmit header registers of a trunk. -/
  | trkQuery (dt : Nat) (hdr : Hdr) (trunk : Nat)
  /-- TRK_RESTART (R628): Restarts the ladder of a link pair from step 0, as RESTART does. -/
  | trkRestart (dt : Nat) (hdr : Hdr) (trunk : Nat)
  /-- TRK_MBX_SEND (R628): Queues a mailbox message on a link pair in RUN and completes when its END byte has been sent. -/
  | trkMbxSend (dt : Nat) (hdr : Hdr) (trunk : Nat) (len : Nat) (bytes : List Nat)
  /-- FLOW_QUERY (R360): Returns the status, DIFF and slack of a range of flows. -/
  | flowQuery (dt : Nat) (hdr : Hdr) (first : Nat) (count : Nat)
  /-- FLOW_STATS (R360): Returns the nine counters of a flow, optionally clearing them. -/
  | flowStats (dt : Nat) (hdr : Hdr) (flow : Nat) (clear : Nat)
  /-- ETH_HOST_SET (R627): Sets the host frame classes and OWN_MAC of an Ethernet channel. -/
  | ethHostSet (dt : Nat) (hdr : Hdr) (channel : Nat) (classes : Nat) (ownMac : Nat)
  /-- IBX_TASK_QUERY (R387): Returns the kind, engine, cost, send, return and state of a range of tasks. -/
  | ibxTaskQuery (dt : Nat) (hdr : Hdr) (task : Nat) (count : Nat)
  /-- IBX_TABLE_SET (R370): Writes one pre or post table of a colour task into its shadow. -/
  | ibxTableSet (dt : Nat) (hdr : Hdr) (task : Nat) (table : Nat) (entries : List Nat)
  /-- IBX_COLOUR_SET (R370): Sets a colour task's matrix and, with COMMIT, makes the shadow tables and matrix take effect together at a frame boundary. -/
  | ibxColourSet (dt : Nat) (hdr : Hdr) (task : Nat) (flags : Nat) (entry : ColourEntry)
  /-- IBX_PATTERN_SET (R371): Sets the pattern or slate of a generator task from an apply frame. -/
  | ibxPatternSet (dt : Nat) (hdr : Hdr) (task : Nat) (pattern : Nat) (slate : Nat)
  /-- IBX_PROBE_SET (R387): Sets the thresholds and limits of a probe. -/
  | ibxProbeSet (dt : Nat) (hdr : Hdr) (probe : Nat) (blackLevel : Nat) (blackFrames : Nat) (freezeMad : Nat) (freezeFrames : Nat) (stLimit : Int) (tpLimit : Int)
  /-- IBX_PROBE_READ (R387): Returns the status, loudness and integrated values of a probe. -/
  | ibxProbeRead (dt : Nat) (hdr : Hdr) (probe : Nat)
  /-- IBX_LOUD_RESET (R387): Resets the integrated loudness and held true peak of a loudness probe at an apply frame. -/
  | ibxLoudReset (dt : Nat) (hdr : Hdr) (probe : Nat)
  /-- COMP_LAYER_SET (R417): Checks and schedules layer geometry entries of one quadrant, changing the scaler and then the compositor from the apply frame. -/
  | compLayerSet (dt : Nat) (hdr : Hdr) (count : Nat) (entries : List LayerEntry)
  /-- COMP_INPUT_FORMAT (R404): Changes the declared format of a layer input send and rescales the crops of the layers that read it. -/
  | compInputFormat (dt : Nat) (hdr : Hdr) (send : Nat) (format : Nat) (scan : Nat) (rateNum : Nat) (rateDen : Nat)
  /-- COMP_SURFACE_LOAD (R411): Copies a rectangle into a graphic layer's back surface and to the partner, and swaps front and back at the apply frame. -/
  | compSurfaceLoad (dt : Nat) (hdr : Hdr) (head : Nat) (layer : Nat) (fmt : Nat) (x : Nat) (y : Nat) (w : Nat) (h : Nat) (stride : Nat)
  /-- COMP_TABLE_SET (R416): Writes a head table into its shadow, and with COMMIT makes all the head's shadow tables take effect at a frame boundary. -/
  | compTableSet (dt : Nat) (hdr : Hdr) (head : Nat) (set : Nat) (table : Nat) (flags : Nat) (entries : List Nat)
  /-- COMP_QUERY (R422): Returns the head status and the status of layers 0–20. -/
  | compQuery (dt : Nat) (hdr : Hdr) (head : Nat)
  /-- AUD_TAKE (R431): Atomically schedules channel route changes of the audio plane for their commit samples. -/
  | audTake (dt : Nat) (hdr : Hdr) (count : Nat) (entries : List AudEntry)
  /-- AUDIO_CHANNEL_COMMIT (R432): At its commit sample a destination channel starts a 128-sample crossfade to its new source, and the reply is written after the last commit sample. -/
  | audioChannelCommit (dt : Nat) (dest : Nat)
  /-- CROSSFADE_END (R433): After 128 plane samples the new source of a destination channel stands alone. -/
  | crossfadeEnd (dt : Nat) (dest : Nat)
  /-- AUD_ROUTE_QUERY (R457): Returns the actual source and pending and fading flags of a range of audio destination channels. -/
  | audRouteQuery (dt : Nat) (hdr : Hdr) (first : Nat) (count : Nat)
  /-- AUD_PORT_SET (R447): Writes audio port settings and masks into both units and commits them at the first frame boundary of each direction after the apply frame. -/
  | audPortSet (dt : Nat) (hdr : Hdr) (port : Nat) (dir : Nat) (ctrl : Nat) (rxMask : Nat) (txMask : Nat)
  /-- AUD_PORT_QUERY (R457): Returns the status, ratios and active masks of an audio port. -/
  | audPortQuery (dt : Nat) (hdr : Hdr) (port : Nat)
  /-- PAIR_SET (R594): Sets ROLE_PRIO, STICKY, PIN and the pinned serial number, taking effect at the next claim sample. -/
  | pairSet (dt : Nat) (hdr : Hdr) (rolePrio : Nat) (flags : Nat) (pinSerial : Nat)
  /-- PAIR_QUERY (R594): Returns the pair status, claims, health, offset and the partner serial number. -/
  | pairQuery (dt : Nat) (hdr : Hdr)
  /-- PAIR_RESYNC (R594): Clears DIVERGED and resynchronises the standby, completing when the resync completes. -/
  | pairResync (dt : Nat) (hdr : Hdr)
  /-- PAIR_LINK (R594): Holds the unit unpaired or allows joining. -/
  | pairLink (dt : Nat) (hdr : Hdr) (action : Nat)
  /-- PAIR_DIGESTS (R594): Returns the last compared epoch and the own and partner digests of a range of outputs. -/
  | pairDigests (dt : Nat) (hdr : Hdr) (first : Nat) (count : Nat)
  /-- MOD_QUERY (R725): Returns the cage state, identity, life, bias rise, temperature and flags of a module. -/
  | modQuery (dt : Nat) (hdr : Hdr) (module : Nat)
  /-- MOD_PROFILE_SET (R723): Sets EOL and EA of the module wear model and forwards them to the partner. -/
  | modProfileSet (dt : Nat) (hdr : Hdr) (eol : Nat) (ea : Nat)
  /-- MOD_LEDGER_READ (R725): Returns a range of life ledger entries. -/
  | modLedgerRead (dt : Nat) (hdr : Hdr) (first : Nat) (count : Nat)
  /-- MOD_CONTROL (R724): Gives a cage a reset pulse, or puts its module into or out of low-power mode. -/
  | modControl (dt : Nat) (hdr : Hdr) (module : Nat) (action : Nat)
  /-- MOD_ALLOW_SET (R701): Writes one entry of the module allowlist and forwards it to the partner. -/
  | modAllowSet (dt : Nat) (hdr : Hdr) (index : Nat) (flags : Nat) (oui : Nat) (part : Nat)
  /-- TEL_SENSORS (R628): Returns the 64 junction temperatures, the peak, the shed step and the estimated power. -/
  | telSensors (dt : Nat) (hdr : Hdr)
  /-- TEL_COUNTERS (R814): Returns every RC counter of a block instance, optionally clearing them. -/
  | telCounters (dt : Nat) (hdr : Hdr) (block : Nat) (index : Nat) (clear : Nat)
  /-- TEL_WEAR_READ (R753): Returns the wear hours, hot hours, cold starts and trips. -/
  | telWearRead (dt : Nat) (hdr : Hdr)
  /-- ID_CERT_READ (R692): Returns the device certificate. -/
  | idCertRead (dt : Nat) (hdr : Hdr)
  /-- ID_INFO (R628): Returns the serial number, variant, floor, owner slots and policy. -/
  | idInfo (dt : Nat) (hdr : Hdr)
  /-- ID_ATTEST (R703): Samples the statement fields and signs them with the device key over the host's nonce. -/
  | idAttest (dt : Nat) (hdr : Hdr) (nonce : Nat)
  /-- ID_OWNER_KEY (R695): Programs an owner-key hash into an OTP slot, or revokes the slot. -/
  | idOwnerKey (dt : Nat) (hdr : Hdr) (slot : Nat) (hash : Nat) (otpOk : Bool)
  /-- ID_POLICY_SET (R697): Sets the OTP owner-plans-only bit, and sets or clears the module allowlist bit. -/
  | idPolicySet (dt : Nat) (hdr : Hdr) (policy : Nat) (otpOk : Bool)
  /-- SVC_ENTER (R801): Forces role priority 0 at the next claim sample and changes the unit into SERVICE at the apply frame. -/
  | svcEnter (dt : Nat) (hdr : Hdr)
  /-- SVC_LEAVE (R805): Stops every test and returns the unit at the apply frame to its prior mode and routes as a first commit, then starts a resync. -/
  | svcLeave (dt : Nat) (hdr : Hdr)
  /-- SVC_TEST (R809): Runs one service test on a unit and returns its verdict and result. -/
  | svcTest (dt : Nat) (hdr : Hdr) (test : Nat) (unit : Nat) (param : Nat)
  /-- SVC_REPAIR (R812): Replaces the stuck addresses of a stack with spare rows. -/
  | svcRepair (dt : Nat) (hdr : Hdr) (stack : Nat)
  /-- DESCRIPTOR_READ_ERROR (R816): A read of a command ring entry fails with a PCIe error; the entry is skipped and completed with CMD_DMA. -/
  | descriptorReadError (dt : Nat)
  /-- RELAYED_REPLY (R622): The partner's reply to a TARGET 1 command arrives and is written with RELAYED set, or the command completes with PAIR_NO_PARTNER if the link leaves RUN. -/
  | relayedReply (dt : Nat) (reply : Option RelayReply)
  /-- REPLY_WRITE (R611): A waiting completion is written into a free reply ring entry under the phase rule. -/
  | replyWrite (dt : Nat)
  /-- CMD_TAIL_WRITE (R601): The host doorbell announces new command descriptors, which the dispatcher then reads in ring order. -/
  | cmdTailWrite (dt : Nat) (tail : Nat) (ring : List RingEntry)
  /-- REPLY_HEAD_WRITE (R611): The host frees reply entries, and waiting replies are written into them. -/
  | replyHeadWrite (dt : Nat) (head : Nat)
  /-- HTX_TAIL_WRITE (R626): The host announces host frames, which enter their channels' transmit paths in ring order as class 3. -/
  | htxTailWrite (dt : Nat) (tail : Nat) (frames : List HtxDesc)
  /-- HRX_TAIL_WRITE (R627): The host posts receive buffers, which waiting host-queue frames then fill. -/
  | hrxTailWrite (dt : Nat) (tail : Nat)
  /-- CMD_EN_WRITE (R600): Enables or disables the command and reply rings; waiting completions are written once CMD_EN is 1. -/
  | cmdEnWrite (dt : Nat) (cmdEn : Bool) (hfrEn : Bool)
  /-- CMD_RING_CONFIG_WRITE (R600): A write to a ring base or size takes effect only for a disabled ring pair, otherwise it is ignored and REFUSED is set. -/
  | cmdRingConfigWrite (dt : Nat) (offset : Nat) (value : Word)
  /-- CMD_CTRL_RESET (R631): With both enables at 0, clears the ring heads, tails, pass counts and SEQ expectation. -/
  | cmdCtrlReset (dt : Nat) (cmdEn : Bool) (hfrEn : Bool)
  /-- EVQ_HEAD_WRITE (R643): Completes event records up to the new head, re-samples the level sources and may send MSI-X. -/
  | evqHeadWrite (dt : Nat) (head : Nat)
  /-- EVQ_EN_WRITE (R645): Enables or disables the host event ring; waiting sources are committed once EN is set. -/
  | evqEnWrite (dt : Nat) (en : Bool) (pinEn : Bool)
  /-- EVQ_CTRL_RESET (R649): With EN at 0, clears the head, tail, pass count and SEQ, and completes the outstanding records. -/
  | evqCtrlReset (dt : Nat) (en : Bool) (pinEn : Bool)
  /-- EVQ_RING_CONFIG_WRITE (R649): A write to the event ring base or size is accepted only while EN is 0. -/
  | evqRingConfigWrite (dt : Nat) (offset : Nat) (value : Word)
  /-- EVQ_MASK_WRITE (R641): Sets or clears host mask bits; an unmasked held source is committed once with HELD set. -/
  | evqMaskWrite (dt : Nat) (word : Nat) (value : Word)
  /-- EVENT_COMMIT (R640): A pending unmasked source is committed as a record into a free ring entry, in stamp order. -/
  | eventCommit (dt : Nat) (writeOk : Bool)
  /-- EVENT_RECORD_RETRY (R642): A record write that failed with a PCIe error is written again into the same entry. -/
  | eventRecordRetry (dt : Nat) (writeOk : Bool)
  /-- RC_FIELD_READ (R17): A read of an RC field returns its value and clears it, losing no count. -/
  | rcFieldRead (dt : Nat) (addr : Nat)
  /-- LATCHED_PAIR_READ (R14): A read of the low word of a 64-bit value latches the high half for the next read. -/
  | latchedPairRead (dt : Nat) (addr : Nat)
  /-- STAT_COUNTER_LO_READ (R317): A read of a statistics LO register returns bits [31:0], latches the high half and clears the counter. -/
  | statCounterLoRead (dt : Nat) (addr : Nat)
  /-- TMB_NOW_NS_READ (R526): A read of TMB_NOW_NS returns the nanoseconds and latches the seconds and fraction of that instant. -/
  | tmbNowNsRead (dt : Nat)
  /-- CAP_NS_READ (R549): A read of CAP_NS returns the nanoseconds of the last recorded edge and latches its seconds and fraction. -/
  | capNsRead (dt : Nat) (channel : Nat)
  /-- TRK_MBX_DATA_WRITE (R297): Appends a byte to the trunk mailbox transmit queue, or sets TX_OVF when it is full. -/
  | trkMbxDataWrite (dt : Nat) (trunk : Nat) (value : Word)
  /-- TRK_MBX_DATA_READ (R297): Removes and returns the oldest received mailbox byte. -/
  | trkMbxDataRead (dt : Nat) (trunk : Nat)
  /-- TRK_LINK_ENABLE (R246): Enabling a link pair starts its ladder at step 0; disabling makes both directions electrically idle. -/
  | trkLinkEnable (dt : Nat) (trunk : Nat) (enable : Bool)
  /-- TRK_LINK_RESTART (R246): Writing RESTART starts the ladder of the link pair again from step 0. -/
  | trkLinkRestart (dt : Nat) (trunk : Nat)
  /-- TRK_ROLE_WRITE (R221): A write to ROLE sets leader or follower and starts the ladder again. -/
  | trkRoleWrite (dt : Nat) (trunk : Nat) (follower : Bool)
  /-- TRK_MANUAL_WRITE (R245): Sets MANUAL on a link pair in SERVICE or not used by the committed mode, otherwise it is ignored and REFUSED is set. -/
  | trkManualWrite (dt : Nat) (trunk : Nat) (manual : Bool)
  /-- TRK_LANE_SLIP (R226): Writing SLIP delays the received bit stream of a lane by one bit. -/
  | trkLaneSlip (dt : Nat) (lane : Nat)
  /-- EDGE_START (R223): Writing EDGE_START starts an edge-count window of 2^16 UI on a lane. -/
  | edgeStart (dt : Nat) (lane : Nat)
  /-- EDGE_WINDOW_DONE (R223): The edge-count window closes; EDGE_DONE is set and the count is held. -/
  | edgeWindowDone (dt : Nat) (lane : Nat) (count : Nat)
  /-- TRK_ERR_INJECT (R252): Writing ERR_INJECT inverts one bit of a lane's PRBS transmit stream. -/
  | trkErrInject (dt : Nat) (lane : Nat)
  /-- IBX_CTRL_RESET (R390): In SERVICE, resets and reloads an engine; otherwise it is ignored and REFUSED is set. -/
  | ibxCtrlReset (dt : Nat) (engine : Nat)
  /-- IBX_CTRL_INJECT (R390): In SERVICE, forces a self-test mismatch at the engine's next self-test. -/
  | ibxCtrlInject (dt : Nat) (engine : Nat)
  /-- PLL_RELOCK (R521): In SERVICE, forces a loss of lock and a new attempt on a PLL. -/
  | pllRelock (dt : Nat) (pll : Nat)
  /-- AUD_PORT_COMMIT (R446): Writing COMMIT arms both shadow masks of an audio port. -/
  | audPortCommit (dt : Nat) (port : Nat)
  /-- AUD_PORT_CONFIG_WRITE (R444): A write of mode or clock fields of an audio port takes effect only with both directions disabled, otherwise REFUSED is set. -/
  | audPortConfigWrite (dt : Nat) (port : Nat) (value : Word)
  /-- AUD_MASK_COMMIT (R446): At the next frame boundary of an armed direction, the shadow mask is copied into the active mask. -/
  | audMaskCommit (dt : Nat) (port : Nat) (dir : AudDir) (frame : List (BitVec 32))
  /-- ETH_LOOPBACK_WRITE (R318): Sets the near-end loop of every lane of a port in SERVICE, otherwise REFUSED is set. -/
  | ethLoopbackWrite (dt : Nat) (port : Nat) (loopback : Bool)
  /-- SIC_MAP_WRITE (R766): The supervisor sets REMAP and BANK while REMAP is 0; other writes are ignored and REFUSED is set. -/
  | sicMapWrite (dt : Nat) (master : Master) (value : Word)
  /-- BAR2_WRITE (R772): A host write to HBM through BAR2 is stored, or discarded as BUSY, and may invalidate the load slot. -/
  | bar2Write (dt : Nat) (content : Bar2Content)
  /-- REGISTER_WRITE (R16): A write to a register with no row of its own sets its RW fields and clears its RW1C bits under their access codes. -/
  | registerWrite (dt : Nat) (addr : Nat) (value : Word)
  /-- REFUSED_ACCESS (R769): An unmapped, not permitted, misaligned, sleeping, busy or reset-discarded access is refused, logged and reported with a TYPE 5 record. -/
  | refusedAccess (dt : Nat) (master : Master) (addr : Nat) (size : Nat) (write : Bool)
  /-- MASTER_RESET (R768): A matrix master is reset; its bursts are completed or drained and its outstanding IDs cleared. -/
  | masterReset (dt : Nat) (master : Master) (bursts : List SicBurst)
  /-- EPOCH_BOUNDARY (R67): An epoch boundary passes; engines restart their schedules, heartbeats and digests are produced and epoch-based counts advance. -/
  | epochBoundary (dt : Nat) (words : EpochWords)
  /-- HOUSE_FRAME_START (R527): A house frame starts; commands due at it take effect and synchroniser selections for the next frame are decided. -/
  | houseFrameStart (dt : Nat)
  /-- FABRIC_WORD_VERIFY (R85): A used destination slot reads its word and verifies the check code, passing it, marking it invalid or counting a check failure. -/
  | fabricWordVerify (dt : Nat) (dest : Nat) (content : BitVec 40) (flips : BitVec 48)
  /-- EGRESS_WORD_SELECT (R591): In MIRROR, each egress selects the home or twin rail word, or marks the word invalid. -/
  | egressWordSelect (dt : Nat) (output : Nat) (home : RailWord) (twin : RailWord)
  /-- INPUT_LINE_ARRIVAL (R818): A line arrives at an input pipeline, is checked for sequence and CRC, and is de-embedded and presented. -/
  | inputLineArrival (dt : Nat) (port : Nat) (line : LineInfo)
  /-- INPUT_FRAME_COMPLETE (R130): A complete input frame has arrived; format, payload ID and OFFSET are compared and the input state is set. -/
  | inputFrameComplete (dt : Nat) (port : Nat) (frame : FrameInfo)
  /-- INPUT_EAV_MISSING (R130): The fourth consecutive expected EAV is missing and the input enters NO_SIGNAL. -/
  | inputEavMissing (dt : Nat) (port : Nat)
  /-- OUTPUT_LINE_EMIT (R145): An output line held for one line period is emitted, replaced as a whole if any word was invalid. -/
  | outputLineEmit (dt : Nat) (output : Nat) (line : OutLine)
  /-- FS_RING_FRAME_COMPLETE (R173): The last word of a LOCKED input frame is written and the ring frame becomes complete. -/
  | fsRingFrameComplete (dt : Nat) (source : Nat)
  /-- FS_READ (R174): A synchroniser reads a house frame from its ring, counting repeats, drops and late fallbacks. -/
  | fsRead (dt : Nat) (source : Nat)
  /-- FS_HOLD_EXPIRY (R179): HOLD_FRAMES held frames have passed and the synchroniser presents words marked invalid. -/
  | fsHoldExpiry (dt : Nat) (source : Nat)
  /-- HBM_WORD_READ (R189): A 64-bit HBM word is read and checked by its ECC code. -/
  | hbmWordRead (dt : Nat) (stack : Nat) (addr : Nat) (read : HbmRead)
  /-- SCRUB_PASS (R192): The scrubber completes a pass over its stack and MEM_SCRUB_PASSES increments. -/
  | scrubPass (dt : Nat) (stack : Nat)
  /-- CK_MONITOR_WINDOW (R209): A 100 µs CK measurement window closes and CK_OK is set or cleared. -/
  | ckMonitorWindow (dt : Nat) (trunk : Nat) (freq : Nat)
  /-- TRUNK_FRAME_RECEIVED (R262): A trunk frame arrives on a lane; its headers are checked and its message, claim and QL bytes are taken. -/
  | trunkFrameReceived (dt : Nat) (lane : Nat) (frame : LaneFrame)
  /-- RX_BRINGUP_PHASE_DONE (R222): A receive bring-up phase completes or fails and the next phase or fallback starts. -/
  | rxBringupPhaseDone (dt : Nat) (trunk : Nat) (edges : List (List Nat))
  /-- TX_STEP_CHANGE (R230): At a boundary of its own frames with a zero low counter byte, an end changes its transmitter to the new step. -/
  | txStepChange (dt : Nat) (trunk : Nat)
  /-- LADDER_RUN_ENTRY (R231): An end that has accepted and sent DONE s enters RUN and carries its streams. -/
  | ladderRunEntry (dt : Nat) (trunk : Nat)
  /-- LADDER_FOLLOWER_TIMEOUT (R221): After 100 ms with two followers, CONFLICT is set and an event record is raised. -/
  | ladderFollowerTimeout (dt : Nat) (trunk : Nat)
  /-- STEP_READY_TIMEOUT (R232): An end not READY at s + 1 within 100 ms returns to step s, sends NAK and ends the ladder short. -/
  | stepReadyTimeout (dt : Nat) (trunk : Nat)
  /-- LADDER_RESTART_TIMEOUT (R233): An end not READY within 500 ms sends RESTART and returns to step 0. -/
  | ladderRestartTimeout (dt : Nat) (trunk : Nat)
  /-- LINK_FAILED_RETRY (R229): A link pair in FAILED retries from step 0 every 10 s. -/
  | linkFailedRetry (dt : Nat) (trunk : Nat)
  /-- LANE_ALIGNMENT_LOSS (R235): A lane loses alignment on header error counts; its slots become invalid and re-search starts. -/
  | laneAlignmentLoss (dt : Nat) (lane : Nat)
  /-- LANE_REJOIN (R236): A realigned lane that passed 16 consecutive frames rejoins at the next trunk frame boundary. -/
  | laneRejoin (dt : Nat) (lane : Nat)
  /-- PRBS_CHECKER_LOCK (R244): A PRBS checker locks after 64 error-free bits or loses lock on 32 errors in 128 bits. -/
  | prbsCheckerLock (dt : Nat) (lane : Nat) (bits : List Bool)
  /-- CLAIM_SAMPLE (R265): One block period before block 0 of each frame, the claim is sampled for that trunk or the mirror link. -/
  | claimSample (dt : Nat) (link : ClaimLink)
  /-- TRUNK_FRAME_START (R264): An output trunk starts frame n at its TAI-aligned time, carrying the sampled claim and the words of the previous frame. -/
  | trunkFrameStart (dt : Nat) (trunk : Nat) (words : List (Nat × List (BitVec 40)))
  /-- GROUP_FRAME_RELEASE (R284): At the release time of frame n, each lane of a protection group takes the preferred good member's frame or none. -/
  | groupFrameRelease (dt : Nat) (trunk : Nat)
  /-- ETH_FRAME_RECEIVED (R305): A received Ethernet frame is classified and dropped, processed as PAUSE, delivered to a flow or queued for the host. -/
  | ethFrameReceived (dt : Nat) (channel : Nat) (frame : EthFrame)
  /-- PAUSE_TIMER_EXPIRY (R308): The pause timer expires and the channel starts draining its pause buffer. -/
  | pauseTimerExpiry (dt : Nat) (channel : Nat)
  /-- PAUSE_BUFFER_EMPTY (R312): Draining ends and frames leave at their scheduled times again. -/
  | pauseBufferEmpty (dt : Nat) (channel : Nat)
  /-- SEND_FRAME_DUE (R310): A scheduled or host frame falls due and is sent, buffered under pause, or discarded. -/
  | sendFrameDue (dt : Nat) (channel : Nat) (due : SendDue)
  /-- ETH_LINK_UP (R303): A channel gains alignment and codeword lock and LINK_UP is set. -/
  | ethLinkUp (dt : Nat) (channel : Nat)
  /-- ETH_LINK_DOWN (R314): A channel goes down; its pause buffer and host frames are discarded and frames due are discarded. -/
  | ethLinkDown (dt : Nat) (channel : Nat)
  /-- FLOW_LINE_DEADLINE (R343): A packet deadline passes; missing lines are presented invalid and positions lost on both legs are counted. -/
  | flowLineDeadline (dt : Nat) (flow : Nat)
  /-- FLOW_LEG_STATE_EVAL (R348): At the deadline of a frame's last packet, each leg's state and DIFF are decided. -/
  | flowLegStateEval (dt : Nat) (flow : Nat)
  /-- COLOUR_SEND_CHANGE (R352): A unit starts or stops sending the other colour at each flow's next boundary after the condition changes. -/
  | colourSendChange (dt : Nat) (flow : Nat)
  /-- COLOUR_HANDBACK (R353): At the agreed apply frame, the returning unit starts and the other unit stops sending a colour. -/
  | colourHandback (dt : Nat) (flow : Nat)
  /-- PTP_SFD_EVENT (R539): A frame to UDP port 319 raises an SFD event and is timestamped by the fast interrupt, or marked TS_LATE. -/
  | ptpSfdEvent (dt : Nat) (port : Nat)
  /-- PTP_ANNOUNCE (R533): An Announce is received, masters are qualified and chosen, and the QL is mapped. -/
  | ptpAnnounce (dt : Nat) (port : Nat) (msg : AnnounceMsg)
  /-- PTP_SYNC (R535): A Sync (with Follow_Up) is received and the offset is computed and applied. -/
  | ptpSync (dt : Nat) (port : Nat) (t1 : Int) (correction : Int) (twoStep : Bool)
  /-- PTP_DELAY_RESP (R535): A Delay_Resp is received and the mean path delay is updated. -/
  | ptpDelayResp (dt : Nat) (port : Nat) (seq : Nat) (t4 : Int) (correction : Int)
  /-- PTP_DELAY_REQ_SEND (R532): The random Delay_Req interval expires and a Delay_Req is sent. -/
  | ptpDelayReqSend (dt : Nat) (port : Nat)
  /-- PTP_ANNOUNCE_TIMEOUT (R464): announceReceiptTimeout expires and the PTP candidate is lost. -/
  | ptpAnnounceTimeout (dt : Nat) (port : Nat)
  /-- UTC_OFFSET_CHANGE (R529): An announced change of currentUtcOffset takes effect at the start of a house frame. -/
  | utcOffsetChange (dt : Nat)
  /-- CAPTURE_EDGE (R545): A selected edge is time-captured; the first of each epoch is recorded with an event record and the others are counted as missed. -/
  | captureEdge (dt : Nat) (channel : Nat) (falling : Bool)
  /-- REF_CANDIDATE_PRESENT (R464): A candidate becomes present and enters HOLDOFF. -/
  | refCandidatePresent (dt : Nat) (cand : Nat)
  /-- REF_CANDIDATE_LOST (R464): A candidate is lost; the timebase selects again within 1 ms or enters holdover or freerun. -/
  | refCandidateLost (dt : Nat) (cand : Nat) (phases : List Int)
  /-- HOLDOFF_EXPIRY (R469): A candidate completes its hold-off and becomes QUALIFIED, possibly causing a new selection. -/
  | holdoffExpiry (dt : Nat) (cand : Nat) (phases : List Int)
  /-- DRIFT_EVALUATION (R470): Once per second the 10 s drift averages are evaluated and candidates are disqualified or requalified. -/
  | driftEvaluation (dt : Nat) (againstSel : List Int) (againstXo : List Int) (loopFreq : Int) (phases : List Int)
  /-- REF_JUMP (R473): A candidate's phase moves by more than 100 ns unexplained and it is sent to HOLDOFF. -/
  | refJump (dt : Nat) (cand : Nat) (phases : List Int)
  /-- LOOP_BW_STEP (R489): After its hold time the loop halves its bandwidth, or takes TRK_BW. -/
  | loopBwStep (dt : Nat) (phaseErr : Int)
  /-- SLEW_COMPLETE (R481): The phase offset O reaches zero and SLEWING clears. -/
  | slewComplete (dt : Nat)
  /-- HOLDOVER_LIMIT_EXPIRY (R492): After HO_LIMIT seconds of holdover the output QL becomes XO_QL. -/
  | holdoverLimitExpiry (dt : Nat)
  /-- FRAME_SYNC_EDGE (R512): A FRAME_SYNC edge is checked against the house-frame start and FS_VALID is updated. -/
  | frameSyncEdge (dt : Nat)
  /-- PLL_LOCK_ATTEMPT (R505): A PLL waits for its reference, searches its bands and closes the loop. -/
  | pllLockAttempt (dt : Nat) (pll : Nat) (edges : List Nat) (slow : List Bool)
  /-- PLL_LOCK (R505): LOCK_N consecutive cycles within ±W pass and lock is declared. -/
  | pllLock (dt : Nat) (pll : Nat) (errors : List Int)
  /-- PLL_ATTEMPT_FAIL (R507): Lock is not declared within 200 µs; the PLL retries, and after three failures sets FAIL. -/
  | pllAttemptFail (dt : Nat) (pll : Nat)
  /-- PLL_LOSS_OF_LOCK (R508): A locked PLL loses lock, its islands switch to keep-alive and a new attempt starts. -/
  | pllLossOfLock (dt : Nat) (pll : Nat) (errors : List (Option Int))
  /-- PLL_DIVIDER_SYNC (R510): At a sync edge, output dividers are loaded or checked against their expected phase. -/
  | pllDividerSync (dt : Nat) (pll : Nat) (shifted : Bool)
  /-- XO_FAIL (R515): XO_27 is absent for 8 periods; HUB.LINE switches to keep-alive and XO_FAIL is set. -/
  | xoFail (dt : Nat)
  /-- ISLAND_CLOCK_RETURN (R518): An island returns to its own clock at the first suitable epoch boundary after relock. -/
  | islandClockReturn (dt : Nat) (island : Nat)
  /-- ENGINE_SELF_TEST (R380): At the end of the self-test window each engine compares its signature, and a mismatch faults it. -/
  | engineSelfTest (dt : Nat) (engine : Nat) (signature : Nat)
  /-- ENGINE_RELOAD_DONE (R384): The firmware completes the reset and reload of a faulted engine. -/
  | engineReloadDone (dt : Nat) (engine : Nat)
  /-- ENGINE_RETURN (R384): After 4 passing self-tests the engine returns and its tasks restart at their boundaries. -/
  | engineReturn (dt : Nat) (engine : Nat)
  /-- PROBE_FRAME_EVAL (R374): A probe evaluates a frame for black and freeze and sets or clears BLACK and FROZEN. -/
  | probeFrameEval (dt : Nat) (probe : Nat) (luma : List (List Nat))
  /-- LOUDNESS_BLOCK (R377): Every 100 ms a loudness probe updates its measures and alarms. -/
  | loudnessBlock (dt : Nat) (probe : Nat) (info : LoudInfo)
  /-- LAYER_FRAME_COMPLETE (R405): A scaled layer frame is written whole from valid words and becomes complete. -/
  | layerFrameComplete (dt : Nat) (head : Nat) (layer : Nat)
  /-- HEAD_FRAME_BOUNDARY (R406): At a head frame boundary the compositor takes layer frames, counts repeats and shows fill where needed. -/
  | headFrameBoundary (dt : Nat) (head : Nat)
  /-- AUDIO_SLOT_VERIFY (R430): An audio plane slot is verified at its destination and replaced by zero if it fails. -/
  | audioSlotVerify (dt : Nat) (dest : Nat) (flips : List (BitVec 40))
  /-- SRC_RATIO_WINDOW (R448): A window of 128 port samples closes; the ratio is updated and RATE_ERR checked. -/
  | srcRatioWindow (dt : Nat) (port : Nat) (dir : AudDir) (ratio : Nat) (ppm : Int)
  /-- AUDIO_CLOCK_FOUND (R450): 4 consecutive valid frames or word clocks arrive and the direction enters ACQUIRING. -/
  | audioClockFound (dt : Nat) (port : Nat) (dir : AudDir)
  /-- SRC_ACQUIRE_DONE (R450): After 50 ms of acquisition the converter enters RAMPING. -/
  | srcAcquireDone (dt : Nat) (port : Nat) (dir : AudDir)
  /-- SRC_RAMP_DONE (R450): After 128 ramp samples the converter enters RUNNING. -/
  | srcRampDone (dt : Nat) (port : Nat) (dir : AudDir)
  /-- SRC_XRUN (R451): A converter buffer empties or fills; samples are replaced by zeros and the buffer is reset. -/
  | srcXrun (dt : Nat) (port : Nat) (dir : AudDir) (frames : Nat)
  /-- AUDIO_NO_CLOCK (R452): 4 expected frames or word clocks are missing and the direction enters NO_CLOCK. -/
  | audioNoClock (dt : Nat) (port : Nat) (dir : AudDir)
  /-- MIRROR_FRAME_RECEIVED (R558): A mirror trunk frame arrives; the partner claim and flags are taken and the role is re-evaluated. -/
  | mirrorFrameReceived (dt : Nat)
  /-- HEARTBEAT_LOSS (R563): The partner heartbeat is lost; the unit becomes SOLO and forwarding, comparison and resync stop. -/
  | heartbeatLoss (dt : Nat)
  /-- MIRROR_MESSAGE_RECEIVED (R564): A mirror message is received, authenticated and acted on (forwarded takes and commands, decisions, digests, deltas, bulk). -/
  | mirrorMessageReceived (dt : Nat) (seq : Nat) (authentic : Bool) (msg : MirMsg)
  /-- MIRROR_RETRANSMIT (R565): An unacknowledged mirror message is sent again within 4 mirror frames. -/
  | mirrorRetransmit (dt : Nat) (seq : Nat)
  /-- MIRROR_LADDER_RETRY (R561): A mirror link whose ladder ended below step 3 restarts from step 0 every 10 s. -/
  | mirrorLadderRetry (dt : Nat)
  /-- PAIRING_STEP (R566): A pairing step of certificate exchange, verification or key exchange completes. -/
  | pairingStep (dt : Nat) (msg : PairMsg)
  /-- PAIRING_RETRY (R566): After a pairing failure, pairing restarts after 1 s. -/
  | pairingRetry (dt : Nat)
  /-- KEY_RENEWAL (R567): Every 24 h the mirror link keys are renewed by a new key exchange. -/
  | keyRenewal (dt : Nat)
  /-- JOIN_STEP_ADVANCE (R569): A join step completes and the next begins, ending in PAIRED at an epoch boundary. -/
  | joinStepAdvance (dt : Nat) (result : JoinResult)
  /-- RESYNC_REQUEST (R570): The standby requests a state snapshot and the active unit sends it at the next epoch boundary. -/
  | resyncRequest (dt : Nat)
  /-- RESYNC_COMPLETE (R570): The standby replaces its state with the snapshot, replays the deltas and completes the resync. -/
  | resyncComplete (dt : Nat)
  /-- DIGEST_COMPARISON (R573): The partner digests of an epoch are compared and mismatches are attributed OWN, INPUT or STATE. -/
  | digestComparison (dt : Nat) (epoch : Nat)
  /-- DIGEST_SKIP (R573): Partner digests not arrived within 2 epochs; the epoch is skipped and counted. -/
  | digestSkip (dt : Nat) (epoch : Nat)
  /-- PENALTY_REMOVAL (R555): A penalty is removed after 64 consecutive epochs without its class of event. -/
  | penaltyRemoval (dt : Nat) (cls : Nat)
  /-- QUADRANT_SLEEP_ENTRY (R737): A quadrant enters retention sleep after the change-over, saving its event state. -/
  | quadrantSleepEntry (dt : Nat) (quad : Nat)
  /-- QUADRANT_WAKE (R738): A quadrant's rails, PLLs, stack, event state and engines are restored in order before the apply frame. -/
  | quadrantWake (dt : Nat) (quad : Nat)
  /-- WAKE_LATE (R739): A quadrant not ready within 10 ms plus one house frame sets WAKE_LATE_SEEN. -/
  | wakeLate (dt : Nat) (quad : Nat)
  /-- THERMAL_SAMPLE (R741): Every 1 ms the sensors are sampled, T_J is formed and threshold actions are taken. -/
  | thermalSample (dt : Nat) (readings : List (Nat × Option Int))
  /-- SHED_LIST_APPLY (R745): At the first epoch boundary after T_J reaches 105 °C, every entry of the shed list is shed. -/
  | shedListApply (dt : Nat)
  /-- SHED_LIST_LIFT (R747): After 60 s below 100 °C, all shed items resume at an epoch boundary. -/
  | shedListLift (dt : Nat)
  /-- WEAR_ACCRUAL (R752): Once per second the line side accrues wear from T_J. -/
  | wearAccrual (dt : Nat)
  /-- WEAR_LEDGER_COPY (R753): The wear ledger is copied to flash every hour, at cold start and after a trip. -/
  | wearLedgerCopy (dt : Nat) (writeOk : Bool)
  /-- MODULE_PRESENT (R709): PRESENT_N has stayed low for 100 ms; the cage enters IDENT with RESET_N held low. -/
  | modulePresent (dt : Nat) (module : Nat)
  /-- MODULE_RESET_RELEASE (R710): After 10 ms RESET_N is released and the identity is read. -/
  | moduleResetRelease (dt : Nat) (module : Nat)
  /-- MODULE_IDENTIFIED (R710): The module identity is read, the ledger entry found or made, and the cage enters FAWN, SERVICE, HELD or IDLE. -/
  | moduleIdentified (dt : Nat) (module : Nat) (ident : ModIdent)
  /-- MODULE_READY_TIMEOUT (R711): ModuleLowPwr within 2 s or ModuleReady within 60 s is not reported and the cage enters FAILED. -/
  | moduleReadyTimeout (dt : Nat) (module : Nat)
  /-- MODULE_INTERRUPT (R709): INT_N is asserted; the firmware reads and clears the CMIS flags, and a fault sends the cage to FAILED. -/
  | moduleInterrupt (dt : Nat) (module : Nat) (moduleFault txFault : Bool)
  /-- MODULE_REMOVED (R712): The module is removed; its channels go down, its ledger entry is written and the cage becomes EMPTY. -/
  | moduleRemoved (dt : Nat) (module : Nat)
  /-- MODULE_LIFE_SAMPLE (R718): Every 60 s the firmware adds accelerated life units and checks wear flags and bias rise. -/
  | moduleLifeSample (dt : Nat) (module : Nat) (nacks : Nat) (temp : Option Int) (bias : List Nat)
  /-- BIAS_BASELINE_COMPLETE (R721): After 10 minutes of laser-on time in FAWN the baseline is set and the cage enters SERVICE. -/
  | biasBaselineComplete (dt : Nat) (module : Nat)
  /-- LIFE_LEDGER_COPY (R716): A whole copy of the life ledger is written to the next flash slot. -/
  | lifeLedgerCopy (dt : Nat) (writeOk : Bool)
  /-- RESET_N_ASSERTED (R792): RESET_N is held low for at least 10 µs and the logic side is put into reset until the deassertion that starts a cold start. -/
  | resetNAsserted (dt : Nat)
  /-- VDD_LINE_RISE (R733): VDD_LINE comes into tolerance and the line side starts from its reset values, running the thermal monitor, cage lines and other line-side functions while the logic side may still be off. -/
  | vddLineRise (dt : Nat) (flashMib : Nat)
  /-- XO_27_RETURN (R520): XO_27 is present again, HUB.LINE leaves its keep-alive clock and the timebase PLL can start relocking, followed by the other PLLs in the order of R509. -/
  | xo27Return (dt : Nat)
  /-- ENGINE_MEMORY_ECC_ERROR (R381): A read of an ibex engine's data or microcode memory, by a task or by the once-per-second scrubber, finds an error; a corrected one is written back and counted in IBX_ECC, an uncorrectable one faults the engine. -/
  | engineMemoryEccError (dt : Nat) (engine : Nat) (flips : BitVec 72)
  /-- MSIX_VECTOR_UNMASK (R647): The host clears the MSI-X vector mask and, if the pending bit is set, exactly one message is sent. -/
  | msixVectorUnmask (dt : Nat)
  /-- SVC_TEST_COMPLETE (R810): A running service test ends, writes its result with VERDICT, and the next queued test of the unit starts. -/
  | svcTestComplete (dt : Nat) (test : Nat) (unit : Nat) (result : TestResult)
  /-- JTAG_INSTRUCTION (R799): An instruction is loaded into the TAP and executed, or BYPASS executed instead outside SERVICE, RESCUE and manufacturing test. -/
  | jtagInstruction (dt : Nat) (instr : JtagInstr)
  deriving DecidableEq, Repr

end Sys2Proof
end

