-- ==== Sys2Proof/Machine/Flags.lean ====
section
/-! DEFINITION. Bit fields of registers, saturating counts, two's complement fields and the status codes (00_scope.md R16, R17; 16_command_packets.md R629). -/

namespace Sys2Proof.Machine

/-! ## Fields -/

/-- Field of `n` bits at bit `lo` of a word. -/
def fld (w : Word) (lo n : Nat) : Nat := w.toNat / 2 ^ lo % 2 ^ n

/-- Bit `b` of a word. -/
def bit (w : Word) (b : Nat) : Bool := fld w b 1 == 1

/-- The word with the field of `n` bits at bit `lo` set to `v`, cut to `n` bits. -/
def setFld (w : Word) (lo n v : Nat) : Word :=
  BitVec.ofNat 32 (w.toNat - fld w lo n * 2 ^ lo + v % 2 ^ n * 2 ^ lo)

/-- The word with bit `b` set or cleared. -/
def setBit (w : Word) (b : Nat) (v : Bool) : Word := setFld w b 1 (if v then 1 else 0)

/-- 1 for true. -/
def b2n (b : Bool) : Nat := if b then 1 else 0

/-- Bit `b` of a number. -/
def nbit (n b : Nat) : Bool := n / 2 ^ b % 2 == 1

/-- Field of a number: `n` bits from bit `lo`. -/
def nfld (v lo n : Nat) : Nat := v / 2 ^ lo % 2 ^ n

/-- The number with bit `b` set or cleared. -/
def nset (n b : Nat) (v : Bool) : Nat := n - n / 2 ^ b % 2 * 2 ^ b + b2n v * 2 ^ b

/-- A number of `n` bits as two's complement. -/
def twos (n : Nat) (i : Int) : Nat := (i % (2 ^ n : Int)).toNat

/-- A two's complement field of `n` bits read as an integer. -/
def untwos (n v : Nat) : Int := if v % 2 ^ n < 2 ^ (n - 1) then ((v % 2 ^ n : Nat) : Int) else ((v % 2 ^ n : Nat) : Int) - (2 ^ n : Nat)

/-- An integer held within a two's complement field of `n` bits, saturating. -/
def satTwos (n : Nat) (i : Int) : Nat := twos n (max (-(2 ^ (n - 1) : Int)) (min (2 ^ (n - 1) - 1) i))

/-- A count of `n` bits increased by `k`, saturating. -/
def satAdd (n v k : Nat) : Nat := min (2 ^ n - 1) (v + k)

/-- The word with the count of `n` bits at bit `lo` increased by `k`, saturating. -/
def bumpFld (w : Word) (lo n k : Nat) : Word := setFld w lo n (satAdd n (fld w lo n) k)

/-! ## Status codes (R629) -/

abbrev St.ok : Nat := 0x0000
abbrev St.cmdFormat : Nat := 0x0001
abbrev St.pending : Nat := 0x0002
abbrev St.cmdOpcode : Nat := 0x0003
abbrev St.cmdTarget : Nat := 0x0004
abbrev St.cmdMode : Nat := 0x0005
abbrev St.roleStandby : Nat := 0x0006
abbrev St.tagBusy : Nat := 0x0007
abbrev St.tagUnknown : Nat := 0x0008
abbrev St.cmdFull : Nat := 0x0009
abbrev St.fwBusy : Nat := 0x000A
abbrev St.fwAborted : Nat := 0x000B
abbrev St.cmdDma : Nat := 0x000C
abbrev St.cmdSeq : Nat := 0x000D
abbrev St.cmdRange : Nat := 0x000E
abbrev St.fwFormat : Nat := 0x0101
abbrev St.fwVariant : Nat := 0x0102
abbrev St.fwSignature : Nat := 0x0103
abbrev St.fwRollback : Nat := 0x0104
abbrev St.fwNone : Nat := 0x0105
abbrev St.fwNotPending : Nat := 0x0106
abbrev St.planFormat : Nat := 0x0201
abbrev St.planVariant : Nat := 0x0202
abbrev St.planFirmware : Nat := 0x0203
abbrev St.planDigest : Nat := 0x0204
abbrev St.planSignature : Nat := 0x0205
abbrev St.planUnsigned : Nat := 0x0206
abbrev St.planCapacity : Nat := 0x0207
abbrev St.planMemory : Nat := 0x0208
abbrev St.planPartner : Nat := 0x0209
abbrev St.planBusy : Nat := 0x020A
abbrev St.planLate : Nat := 0x020B
abbrev St.planNone : Nat := 0x020C
abbrev St.planNoOverlay : Nat := 0x020D
abbrev St.planLinebuf : Nat := 0x020E
abbrev St.planChanged : Nat := 0x020F
abbrev St.planAborted : Nat := 0x0210
abbrev St.planLocked : Nat := 0x0211
abbrev St.memNoStore : Nat := 0x0220
abbrev St.memRange : Nat := 0x0221
abbrev St.slateFormat : Nat := 0x0222
abbrev St.slateSpace : Nat := 0x0223
abbrev St.takeSlipped : Nat := 0x0301
abbrev St.takeLate : Nat := 0x0302
abbrev St.takeRange : Nat := 0x0303
abbrev St.takeLevel : Nat := 0x0304
abbrev St.takeGroup : Nat := 0x0305
abbrev St.takeFormat : Nat := 0x0306
abbrev St.takeFixed : Nat := 0x0307
abbrev St.takeFull : Nat := 0x0308
abbrev St.takeSuperseded : Nat := 0x0309
abbrev St.takeAborted : Nat := 0x030A
abbrev St.takeCancelled : Nat := 0x030B
abbrev St.refRange : Nat := 0x0401
abbrev St.refInvalid : Nat := 0x0402
abbrev St.refNoSnap : Nat := 0x0403
abbrev St.timeState : Nat := 0x0410
abbrev St.timeRange : Nat := 0x0411
abbrev St.trkRange : Nat := 0x0501
abbrev St.trkNotRun : Nat := 0x0502
abbrev St.trkMbxFull : Nat := 0x0503
abbrev St.flowRange : Nat := 0x0601
abbrev St.ethRange : Nat := 0x0602
abbrev St.ibxRange : Nat := 0x0701
abbrev St.ibxKind : Nat := 0x0702
abbrev St.compRange : Nat := 0x0801
abbrev St.compGeometry : Nat := 0x0802
abbrev St.compBusy : Nat := 0x0803
abbrev St.linebufShort : Nat := 0x0804
abbrev St.audRange : Nat := 0x0901
abbrev St.audConfig : Nat := 0x0902
abbrev St.pairRange : Nat := 0x0A01
abbrev St.pairNoPartner : Nat := 0x0A02
abbrev St.modRange : Nat := 0x0B01
abbrev St.modAbsent : Nat := 0x0B02
abbrev St.modBusy : Nat := 0x0B03
abbrev St.telRange : Nat := 0x0C01
abbrev St.idRange : Nat := 0x0D01
abbrev St.idSlotUsed : Nat := 0x0D02
abbrev St.idOtpFail : Nat := 0x0D03
abbrev St.svcRange : Nat := 0x0E01
abbrev St.svcState : Nat := 0x0E02
abbrev St.svcFail : Nat := 0x0E03

end Sys2Proof.Machine
end

