-- ==== Sys2Proof/Machine/Crc.lean ====
section
/-! DEFINITION. Cyclic checks, bit by bit, most significant bit of the register first (02_word_fabric_and_takes.md R82; 06_trunk_framing.md R260). -/

namespace Sys2Proof.Machine

/-- One bit through a CRC-8 register with polynomial 0x2F. -/
def crc8Step (c : Nat) (b : Bool) : Nat :=
  if nbit c 7 != b then (c * 2 % 256) ^^^ 0x2F else c * 2 % 256

/-- CRC-8 over a list of bits in order of transmission. -/
def crc8 (init : Nat) (bits : List Bool) : Nat := bits.foldl crc8Step init

/-- The `n` low bits of a number, most significant first. -/
def bitsMsb (v : Nat) : Nat → List Bool
  | 0 => []
  | n + 1 => nbit v n :: bitsMsb v n

/-- The `n` low bits of a number, least significant first. -/
def bitsLsb (v : Nat) : Nat → List Bool
  | 0 => []
  | n + 1 => nbit v 0 :: bitsLsb (v / 2) n

/-- The check code of a fabric word (R82): source number, row count modulo 16, word, most significant bit first. -/
def checkCode (source row word : Nat) : Nat :=
  crc8 0xFF (bitsMsb source 11 ++ bitsMsb (row % 16) 4 ++ bitsMsb word 40)

/-- HCRC of a header (R260): bits 0 to 55 of block 0, then bits 0 to 63 of block 1. -/
def hcrc (b0 b1 : BitVec 64) : Nat :=
  crc8 0xFF (bitsLsb b0.toNat 56 ++ bitsLsb b1.toNat 64)

/-- The `n` low bytes of a number, least significant first. -/
def bytesLe (v : Nat) (n : Nat) : List Nat := (List.range n).map fun i => v / 256 ^ i % 256

/-- One bit through the CRC-32 of IEEE 802.3, reflected (15_the_pair.md R571). -/
def crc32Step (c : Nat) (b : Bool) : Nat :=
  if nbit c 0 != b then (c / 2) ^^^ 0xEDB88320 else c / 2

/-- The CRC-32 of IEEE 802.3 over bytes (15_the_pair.md R571): polynomial 0x04C11DB7 reflected, initial value and final XOR of ones. -/
def crc32 (bytes : List Nat) : Nat := ((bytes.flatMap fun b => bitsLsb b 8).foldl crc32Step 0xFFFFFFFF) ^^^ 0xFFFFFFFF

end Sys2Proof.Machine
end

