-- ==== Sys2Proof/Machine/Tab.lean ====
section
/-! DEFINITION. Sparse tables and the list operations the machine is written with. -/

namespace Sys2Proof.Machine

/-- A sparse table: entries by number. Tables written with `tabSet` hold no two entries of one number and, with a default, no entry equal to it. -/
abbrev Tab (α : Type) := List (Nat × α)

/-- The entry of number `k`, if one is listed. -/
def tabFind {α : Type} (k : Nat) : Tab α → Option α
  | [] => none
  | (a, v) :: r => if a = k then some v else tabFind k r

/-- The entry of number `k`, or `d` where none is listed. -/
def tabGet {α : Type} (d : α) (k : Nat) (t : Tab α) : α := (tabFind k t).getD d

/-- The table without its entries of number `k`. -/
def tabErase {α : Type} (k : Nat) : Tab α → Tab α
  | [] => []
  | (a, v) :: r => if a = k then tabErase k r else (a, v) :: tabErase k r

/-- An entry put before the first entry of a higher number. -/
def tabIns {α : Type} (k : Nat) (v : α) : Tab α → Tab α
  | [] => [(k, v)]
  | (a, w) :: r => if k < a then (k, v) :: (a, w) :: r else (a, w) :: tabIns k v r

/-- The table with `v` as its entry of number `k`. -/
def tabPut {α : Type} (k : Nat) (v : α) (t : Tab α) : Tab α := tabIns k v (tabErase k t)

/-- The table with value `v` at `k`, in the form in which an entry equal to the default is not listed. -/
def tabSet {α : Type} [DecidableEq α] (d : α) (k : Nat) (v : α) (t : Tab α) : Tab α :=
  if v = d then tabErase k t else tabPut k v t

/-- The numbers of the listed entries. -/
def tabKeys {α : Type} (t : Tab α) : List Nat := t.map Prod.fst

/-- The table with `f` applied to every listed entry. -/
def tabMap {α : Type} (f : Nat → α → α) (t : Tab α) : Tab α := t.map fun p => (p.1, f p.1 p.2)

/-- Insertion of a number into a list without repeats. -/
def setIns (k : Nat) (l : List Nat) : List Nat := if k ∈ l then l else l ++ [k]

/-- A list without repeats. -/
def distinct (l : List Nat) : List Nat := l.foldl (fun r x => setIns x r) []

/-- Removal of a number from a list. -/
def setDel (k : Nat) (l : List Nat) : List Nat := l.filter fun x => decide (x ≠ k)

/-- Insertion or removal. -/
def setPut (k : Nat) (b : Bool) (l : List Nat) : List Nat := if b then setIns k l else setDel k l

/-- The numbers `a, a + 1, …` up to `n` of them. -/
def upto (a : Nat) : Nat → List Nat
  | 0 => []
  | n + 1 => a :: upto (a + 1) n

/-- The index of the first element that meets `p`. -/
def findIdx? {α : Type} (p : α → Bool) : List α → Option Nat
  | [] => none
  | x :: xs => if p x then some 0 else (findIdx? p xs).map (· + 1)

/-- The element at an index. -/
def nth? {α : Type} : List α → Nat → Option α
  | [], _ => none
  | x :: _, 0 => some x
  | _ :: xs, n + 1 => nth? xs n

/-- The list with the element at an index replaced. -/
def setNth {α : Type} (v : α) : List α → Nat → List α
  | [], _ => []
  | _ :: xs, 0 => v :: xs
  | x :: xs, n + 1 => x :: setNth v xs n

/-- Sum of a list of numbers. -/
def sumL (l : List Nat) : Nat := l.foldl (· + ·) 0

end Sys2Proof.Machine
end

