-- ==== Sys2Proof/Machine/Sha.lean ====
section
/-! DEFINITION. SHA-384 (01_compiled_plan.md R23, R28, R29; 18_start_and_update.md R661, R662; 19_identity.md R693): FIPS 180-4, over numbers whose bits [8i + 7:8i] are byte i (log 180). -/

namespace Sys2Proof.Machine

/-- The 64-bit words of the round constants of FIPS 180-4. -/
def shaK0 : List Nat := [
  0x428A2F98D728AE22, 0x7137449123EF65CD, 0xB5C0FBCFEC4D3B2F, 0xE9B5DBA58189DBBC, 0x3956C25BF348B538, 0x59F111F1B605D019,
  0x923F82A4AF194F9B, 0xAB1C5ED5DA6D8118, 0xD807AA98A3030242, 0x12835B0145706FBE, 0x243185BE4EE4B28C, 0x550C7DC3D5FFB4E2,
  0x72BE5D74F27B896F, 0x80DEB1FE3B1696B1, 0x9BDC06A725C71235, 0xC19BF174CF692694, 0xE49B69C19EF14AD2, 0xEFBE4786384F25E3,
  0x0FC19DC68B8CD5B5, 0x240CA1CC77AC9C65]
def shaK1 : List Nat := [
  0x2DE92C6F592B0275, 0x4A7484AA6EA6E483, 0x5CB0A9DCBD41FBD4, 0x76F988DA831153B5, 0x983E5152EE66DFAB, 0xA831C66D2DB43210,
  0xB00327C898FB213F, 0xBF597FC7BEEF0EE4, 0xC6E00BF33DA88FC2, 0xD5A79147930AA725, 0x06CA6351E003826F, 0x142929670A0E6E70,
  0x27B70A8546D22FFC, 0x2E1B21385C26C926, 0x4D2C6DFC5AC42AED, 0x53380D139D95B3DF, 0x650A73548BAF63DE, 0x766A0ABB3C77B2A8,
  0x81C2C92E47EDAEE6, 0x92722C851482353B]
def shaK2 : List Nat := [
  0xA2BFE8A14CF10364, 0xA81A664BBC423001, 0xC24B8B70D0F89791, 0xC76C51A30654BE30, 0xD192E819D6EF5218, 0xD69906245565A910,
  0xF40E35855771202A, 0x106AA07032BBD1B8, 0x19A4C116B8D2D0C8, 0x1E376C085141AB53, 0x2748774CDF8EEB99, 0x34B0BCB5E19B48A8,
  0x391C0CB3C5C95A63, 0x4ED8AA4AE3418ACB, 0x5B9CCA4F7763E373, 0x682E6FF3D6B2B8A3, 0x748F82EE5DEFB2FC, 0x78A5636F43172F60,
  0x84C87814A1F0AB72, 0x8CC702081A6439EC]
def shaK3 : List Nat := [
  0x90BEFFFA23631E28, 0xA4506CEBDE82BDE9, 0xBEF9A3F7B2C67915, 0xC67178F2E372532B, 0xCA273ECEEA26619C, 0xD186B8C721C0C207,
  0xEADA7DD6CDE0EB1E, 0xF57D4F7FEE6ED178, 0x06F067AA72176FBA, 0x0A637DC5A2C898A6, 0x113F9804BEF90DAE, 0x1B710B35131C471B,
  0x28DB77F523047D84, 0x32CAAB7B40C72493, 0x3C9EBE0A15C9BEBC, 0x431D67C49C100D4C, 0x4CC5D4BECB3E42B6, 0x597F299CFC657E2A,
  0x5FCB6FAB3AD6FAEC, 0x6C44198C4A475817]
def shaK : List Nat := shaK0 ++ shaK1 ++ shaK2 ++ shaK3

/-- The initial hash value of SHA-384. -/
def shaIv : List Nat := [
  0xCBBB9D5DC1059ED8, 0x629A292A367CD507, 0x9159015A3070DD17, 0x152FECD8F70E5939, 0x67332667FFC00B31, 0x8EB44A8768581511,
  0xDB0C2E0D64F98FA7, 0x47B5481DBEFA4FA4]

/-- A rotation to the right by `n` of a 64-bit word. -/
def ror64 (x n : Nat) : Nat := x / 2 ^ n + x % 2 ^ n * 2 ^ (64 - n)

/-- The sum of words modulo 2⁶⁴. -/
def add64 (l : List Nat) : Nat := sumL l % 2 ^ 64

/-- Byte order of a field of `n` bytes reversed. -/
def revBytes : Nat → Nat → Nat
  | 0, _ => 0
  | n + 1, v => v % 256 * 256 ^ n + revBytes n (v / 256)

/-- The next word of the message schedule, whose words stand newest first. -/
def shaNext (w : List Nat) : Nat :=
  let at' := fun k => (nth? w k).getD 0
  let x := at' 14
  let y := at' 1
  add64 [at' 15, ror64 x 1 ^^^ ror64 x 8 ^^^ x / 2 ^ 7, at' 6, ror64 y 19 ^^^ ror64 y 61 ^^^ y / 2 ^ 6]

/-- The working variables a to h of the compression function. -/
structure ShaVars where
  a : Nat
  b : Nat
  c : Nat
  d : Nat
  e : Nat
  f : Nat
  g : Nat
  h : Nat
  deriving DecidableEq, Repr

/-- One round with constant `k` and schedule word `w`. -/
def shaRound (v : ShaVars) (k w : Nat) : ShaVars :=
  let t1 := add64 [v.h, ror64 v.e 14 ^^^ ror64 v.e 18 ^^^ ror64 v.e 41, (v.e &&& v.f) ^^^ ((2 ^ 64 - 1 - v.e) &&& v.g), k, w]
  let t2 := add64 [ror64 v.a 28 ^^^ ror64 v.a 34 ^^^ ror64 v.a 39, (v.a &&& v.b) ^^^ (v.a &&& v.c) ^^^ (v.b &&& v.c)]
  { a := add64 [t1, t2], b := v.a, c := v.b, d := v.c, e := add64 [v.d, t1], f := v.e, g := v.f, h := v.g }

/-- The rounds: the last sixteen schedule words, newest first, and the words still to be used before the schedule continues. -/
def shaRounds : List Nat → List Nat → List Nat → ShaVars → ShaVars
  | [], _, _, v => v
  | k :: ks, x :: xs, w, v => shaRounds ks xs (x :: w) (shaRound v k x)
  | k :: ks, [], w, v => shaRounds ks [] ((shaNext w :: w).take 16) (shaRound v k (shaNext w))

/-- The compression of one block of sixteen words. -/
def shaBlock (h ws : List Nat) : List Nat :=
  let at' := fun k => (nth? h k).getD 0
  let v := shaRounds shaK ws [] { a := at' 0, b := at' 1, c := at' 2, d := at' 3, e := at' 4, f := at' 5, g := at' 6, h := at' 7 }
  [add64 [at' 0, v.a], add64 [at' 1, v.b], add64 [at' 2, v.c], add64 [at' 3, v.d], add64 [at' 4, v.e], add64 [at' 5, v.f],
    add64 [at' 6, v.g], add64 [at' 7, v.h]]

/-- The blocks of a padded message, from its lowest byte. -/
def shaBlocks : Nat → Nat → List Nat → List Nat
  | 0, _, h => h
  | n + 1, m, h => shaBlocks n (m / 2 ^ 1024) (shaBlock h ((upto 0 16).map fun j => revBytes 8 (nfld m (64 * j) 64)))

/-- SHA-384 of the `len` bytes of `m`. -/
def sha384 (len m : Nat) : Nat :=
  let blocks := (len + 17 + 127) / 128
  let padded := m % 256 ^ len + 0x80 * 256 ^ len + revBytes 16 (8 * len) * 256 ^ (128 * blocks - 16)
  let h := shaBlocks blocks padded shaIv
  ((upto 0 6).zip h).foldl (fun d x => d + revBytes 8 x.2 * 2 ^ (64 * x.1)) 0

end Sys2Proof.Machine
end

