-- ==== Sys2Proof/Machine/Ecdsa.lean ====
section
/-! DEFINITION. Verification of an ECDSA signature over the curve P-384 (01_compiled_plan.md R29; 18_start_and_update.md R662), and the public keys that go with it (log 180). -/

namespace Sys2Proof.Machine

/-- The prime of the field, the order of the base point and the constant of the curve y² = x³ − 3x + b. -/
def ecP : Nat := 2 ^ 384 - 2 ^ 128 - 2 ^ 96 + 2 ^ 32 - 1
def ecN : Nat := 0xFFFFFFFFFFFFFFFFFFFFFFFFFFFFFFFFFFFFFFFFFFFFFFFFC7634D81F4372DDF581A0DB248B0A77AECEC196ACCC52973
def ecB : Nat := 0xB3312FA7E23EE7E4988E056BE3F82D19181D9C6EFE8141120314088F5013875AC656398D8A2ED19D2A85C8EDD3EC2AEF

/-- A point in Jacobian coordinates: (x / z², y / z³), and the point at infinity where z is 0. -/
structure EcPoint where
  x : Nat
  y : Nat
  z : Nat
  deriving DecidableEq, Repr

def ecInfinity : EcPoint := { x := 1, y := 1, z := 0 }

/-- The base point. -/
def ecBase : EcPoint :=
  { x := 0xAA87CA22BE8B05378EB1C71EF320AD746E1D3B628BA79B9859F741E082542A385502F25DBF55296C3A545E3872760AB7
    y := 0x3617DE4A96262C6F5D9E98BF9292DC29F8F41DBD289A147CE9DA3113B5F0B8C00A60B1CE1D7E819D7A431D7C90EA0E5F
    z := 1 }

/-- Product and difference modulo the prime of the field. -/
def ecMul (a b : Nat) : Nat := a * b % ecP
def ecSub (a b : Nat) : Nat := (a + (ecP - b % ecP)) % ecP

/-- The point doubled. -/
def ecDouble (u : EcPoint) : EcPoint :=
  let zz := ecMul u.z u.z
  let yy := ecMul u.y u.y
  let s := ecMul 4 (ecMul u.x yy)
  let m := ecMul 3 (ecMul (ecSub u.x zz) (u.x + zz))
  let x := ecSub (ecMul m m) (2 * s)
  { x := x, y := ecSub (ecMul m (ecSub s x)) (ecMul 8 (ecMul yy yy)), z := ecMul 2 (ecMul u.y u.z) }

/-- The sum of two points. -/
def ecAdd (u v : EcPoint) : EcPoint :=
  if u.z = 0 then v
  else if v.z = 0 then u
  else
    let uu := ecMul u.z u.z
    let vv := ecMul v.z v.z
    let a := ecMul u.x vv
    let h := ecSub (ecMul v.x uu) a
    let c := ecMul u.y (ecMul vv v.z)
    let r := ecSub (ecMul v.y (ecMul uu u.z)) c
    if h = 0 then (if r = 0 then ecDouble u else ecInfinity)
    else
      let hh := ecMul h h
      let hhh := ecMul hh h
      let w := ecMul a hh
      let x := ecSub (ecMul r r) (hhh + 2 * w)
      { x := x, y := ecSub (ecMul r (ecSub w x)) (ecMul c hhh), z := ecMul (ecMul u.z v.z) h }

/-- a·U + b·V over the lowest `k` bits of a and b, from the highest of them. -/
def ecCombine (a b : Nat) (u v : EcPoint) : Nat → EcPoint → EcPoint
  | 0, acc => acc
  | k + 1, acc =>
    let acc := ecDouble acc
    let acc := if nbit a k then ecAdd acc u else acc
    ecCombine a b u v k (if nbit b k then ecAdd acc v else acc)

/-- The lowest `k` bits of an exponent applied to a base, modulo `m`. -/
def powMod (m b e : Nat) : Nat → Nat → Nat
  | 0, acc => acc
  | k + 1, acc => powMod m b e k (if nbit e k then acc * acc % m * b % m else acc * acc % m)

/-- The inverse modulo a prime of at most 384 bits. -/
def invMod (m a : Nat) : Nat := powMod m a (m - 2) 384 1

/-- An affine point other than infinity that lies on the curve. -/
def ecOnCurve (x y : Nat) : Bool :=
  decide (x < ecP) && decide (y < ecP) && decide (ecMul y y = (ecMul x (ecMul x x) + ecMul (ecP - 3) x + ecB) % ecP)

/-- The signature (r, s) over a digest, read as an integer from its highest byte, verifies under the public key (x, y). -/
def ecdsaVerify (x y r s e : Nat) : Bool :=
  if ecOnCurve x y = false ∨ r = 0 ∨ s = 0 ∨ ecN ≤ r ∨ ecN ≤ s then false
  else
    let w := invMod ecN s
    let u := ecCombine (e * w % ecN) (r * w % ecN) ecBase { x := x, y := y, z := 1 } 384 ecInfinity
    if u.z = 0 then false
    else decide (ecMul u.x (invMod ecP (ecMul u.z u.z)) % ecN = r)

/-- An uncompressed public key of 97 bytes: 0x04, X and Y from their highest bytes (SEC 1), as a number whose bits [8i + 7:8i] are byte i. -/
def ecKeyBytes (x y : Nat) : Nat := 4 + revBytes 48 x * 256 + revBytes 48 y * 256 ^ 49

/-- The signature (r, s) verifies over a digest (of 48 bytes, byte 0 lowest) under a public key of 97 bytes. -/
def ecdsaOver (key r s digest : Nat) : Bool :=
  decide (key % 256 = 4) && decide (key < 256 ^ 97)
    && ecdsaVerify (revBytes 48 (nfld key 8 384)) (revBytes 48 (nfld key 392 384)) r s (revBytes 48 digest)

/-- The affine coordinates of a point other than infinity. -/
def ecAffine (u : EcPoint) : Nat × Nat :=
  let zi := invMod ecP u.z
  let zz := ecMul zi zi
  (ecMul u.x zz, ecMul u.y (ecMul zz zi))

/-- The public key of a private key, as its 97 bytes. -/
def ecPublic (d : Nat) : Nat :=
  let u := ecAffine (ecCombine (d % ecN) 0 ecBase ecBase 384 ecInfinity)
  ecKeyBytes u.1 u.2

/-- The signature (r, s) of a digest under private key `d` with the number `k` that the signer takes at random. -/
def ecdsaSign (d k digest : Nat) : Nat × Nat :=
  let k := k % (ecN - 1) + 1
  let r := (ecAffine (ecCombine k 0 ecBase ecBase 384 ecInfinity)).1 % ecN
  (r, invMod ecN k * (revBytes 48 digest + r * (d % ecN)) % ecN)

end Sys2Proof.Machine
end

