-- ==== Sys2Proof/Config.lean ====
section
/-! DEFINITION. What the manual leaves open and the model does not choose: constants without a body, of which nothing can be proved (log 3). -/

namespace Sys2Proof

/-- House frame rate, numerator and denominator, while no plan is committed (01_compiled_plan.md R38, R50 and 14_timebase_and_ptp.md R527 give none; log 4). -/
opaque Config.idleRate : Nat × Nat

/-- The row boundary taken within the slot opportunity period that holds the nominal switch point, for a destination in a phase of its justification pattern (01_compiled_plan.md R69; 02_word_fabric_and_takes.md R92: the justification patterns are not published; log 5). -/
opaque Config.switchRow : Nat → Nat → Nat

/-- The slot opportunity that the justification pattern of a rate leaves out of every 1001, by the rows of its period (01_compiled_plan.md R68; 02_word_fabric_and_takes.md R77, R123: not published; log 5). -/
opaque Config.patternSkip : Nat → Nat

/-- What a read with three or more changed bits is taken for, by those bits: clean, corrected or uncorrectable (04_frame_stores.md R189 promises nothing for them; log 184). -/
opaque Config.eccMany : BitVec 72 → Fin 3

/-- The signature that the task library holds for an engine's self-test (09_ibex_engines.md R380: not published). -/
opaque Config.engineSignature : Nat

/-- An entry of a colour task's table that no command has written, by task, table and index (09_ibex_engines.md R370 gives none; log 201). -/
opaque Config.colourTable : Nat → Nat → Nat → Nat

/-- A sample that the converter of a port delivers, by its applied ratio and the samples that it has been given, newest first: to the plane, and to the port (11_audio_plane.md R448, R453: the filter is not published; log 207). -/
opaque Config.srcReceive : Nat → List Int → Int
opaque Config.srcSend : Nat → List Int → Int

/-- The 10-bit code by which an 8-bit component of a surface enters a colour conversion (10_composition.md R414, R416 give none; log 204). -/
opaque Config.surfaceCode : Nat → Nat

/-- Whether three or more changed bits of a word of an engine memory are taken for a corrected error (09_ibex_engines.md R363 promises nothing for them; log 184). -/
opaque Config.engineEcc : BitVec 72 → Bool

/-- The scrambler of a lane as its transmitter starts, by lane (06_trunk_framing.md R256 gives no starting state; log 190). -/
opaque Config.scramblerStart : Nat → BitVec 58

/-- The pattern generator of a lane as it is enabled, by lane (05_trunk_lanes.md R243 gives no starting state; log 190). -/
opaque Config.prbsStart : Nat → Nat

/-- The next value that the manual leaves open, by the state's counter of free values (log 3). -/
opaque Config.freeValue : Nat → Nat

/-- The bytes over which the state digest of a snapshot's content is taken (15_the_pair.md R571 gives no layout; log 212). -/
opaque Config.snapshotBytes : Snapshot → List (BitVec 8)

/-- A payload of a mirror link data block, by the state's counter of free values and the block's place (15_the_pair.md R564 gives the messages no layout, R567 encrypts them; log 214). -/
opaque Config.mirrorData : Nat → Nat → BitVec 64

/-- The bias rise of a lane whose baseline is zero, in 0.1 %, by its bias (20_optical_modules.md R722 divides by the baseline; log 218). -/
opaque Config.riseOverZero : Nat → Int

/-- Spare rows of an HBM stack as supplied (24_service_mode.md R812 gives no number; log 62). -/
opaque Config.spareRows : Nat → Nat

/-- Serial number in OTP (19_identity.md R693). -/
opaque Config.serial : Nat

/-- Version of the boot ROM (18_start_and_update.md R686). -/
opaque Config.romVersion : Nat

/-- Anti-rollback floor in OTP as supplied (19_identity.md R693). -/
opaque Config.otpFloor : Nat

/-- The device certificate's bytes, as OTP holds them (19_identity.md R692, R693). -/
opaque Config.certificate : List Nat

/-- The public keys in ROM, as their 97 bytes (19_identity.md R692; 18_start_and_update.md R662): of the Nalhus device root, and the four firmware keys. -/
opaque Config.rootKey : Nat
opaque Config.fwKeys : Fin 4 → Nat

end Sys2Proof
end

