-- ==== Sys2Proof/Machine/State.lean ====
section
/-! DEFINITION. The state of the ZM1152, as plain data: the register file, and beside it what the chapters of the manual say the package holds that no register shows whole. -/

namespace Sys2Proof.Machine

/-! ## Pins and links (23_package_and_balls.md R787, R789; 21_supplies_and_thermal.md) -/

/-- Levels at the pins that the manual's rules read or drive, and the supply state. -/
structure Pins where
  /-- The line side is powered (R729, R734). -/
  vddLine : Bool
  /-- PWR_GOOD; while false the logic side is isolated (R730). -/
  pwrGood : Bool
  /-- RESET_N is high. -/
  resetN : Bool
  /-- The unit's strap PAIR_SEL. -/
  pairSel : Bool
  /-- RESCUE_N is high. -/
  rescueN : Bool
  /-- TEST_MODE is high; a board ties it low outside manufacturing test (R799). -/
  testMode : Bool
  /-- XO_27 runs (13_plls_and_clock_islands.md R519). -/
  xoOk : Bool
  /-- THERM_ALERT_N is low (21_supplies_and_thermal.md R742, R749). -/
  thermAlert : Bool
  /-- The PCIe link is up (16_command_packets.md R624). -/
  pcieUp : Bool
  deriving DecidableEq, Repr

/-! ## Commands (16_command_packets.md) -/

/-- Who waits for a command's completion: the host through this unit's rings, the partner (R622), or nobody (R623). -/
inductive Origin where
  | host
  | relay
  | forward
  deriving DecidableEq, Repr

/-- An accepted command that has not completed. -/
structure Cmd where
  pkt : Packet
  origin : Origin
  deriving DecidableEq, Repr

/-- A reply descriptor (R607) without its PHASE, which belongs to the ring entry. A result body is a list of fields in order, each as its size in bytes and its value. -/
structure Reply where
  opcode : Nat
  tag : Nat
  status : Nat
  resultLen : Nat
  seq : Nat
  frame : Nat
  detail : Nat
  inline : Bool
  trunc : Bool
  relayed : Bool
  result : List (Nat × Nat)
  deriving DecidableEq, Repr

/-- An entry of the result table (R613): the tag, its reply once it has completed, the PHASE of the ring entry that the reply takes (R614), and how many tags had been accepted when it was. -/
structure ResEntry where
  tag : Nat
  reply : Option Reply
  phase : Bool
  at_ : Nat
  deriving DecidableEq, Repr

/-- A filled HRX entry (R625, R627). -/
structure HrxEntry where
  channel : Nat
  phase : Bool
  tsValid : Bool
  tsLate : Bool
  len : Nat
  cls : Nat
  stamp : Nat
  deriving DecidableEq, Repr

/-- The dispatcher, its rings and its result table. -/
structure CmdState where
  /-- Expected SEQ; none after a ring reset (R605). -/
  expSeq : Option Nat
  /-- Result table (R613). -/
  results : List ResEntry
  /-- Tags accepted since the cold start. -/
  accCount : Nat
  /-- Firmware queue, oldest first, at most 256 (R617). -/
  fwq : List Cmd
  /-- Completions waiting for reply space, oldest first (R611). -/
  waiting : List Reply
  /-- Reply ring entries with their PHASE, as the unit last wrote them (R608). -/
  ring : Tab (Reply × Bool)
  /-- Pass count of the reply ring, from 1. -/
  replyPass : Nat
  /-- Commands relayed to the partner and not answered (R622). -/
  relayed : List Cmd
  /-- Command ring entries announced and not read yet (R601). -/
  unread : List RingEntry
  /-- The host has written `REPLY_HEAD` since link-up (R624). -/
  headFresh : Bool
  /-- HTX entries from `HTX_HEAD` to `HTX_TAIL`, each with whether its STATUS has been written (R626). -/
  htx : List (Nat × Bool)
  /-- STATUS written into HTX entries (R625). -/
  htxStatus : Tab Nat
  /-- HRX entries filled (R627), and the pass count of that ring. -/
  hrx : Tab HrxEntry
  hrxPass : Nat
  deriving DecidableEq, Repr

/-! ## Events (17_event_queue.md) -/

/-- The latch of a pending source (R635, R636). -/
structure Pend where
  src : Nat
  inst : Nat
  type : Nat
  stamp : Nat
  d0 : Word
  d1 : Word
  d2 : Word
  coalesced : Nat
  held : Bool
  deriving DecidableEq, Repr

/-- An event record (R637), with PHASE. -/
structure Record where
  src : Nat
  type : Nat
  level : Bool
  state : Bool
  held : Bool
  phase : Bool
  seq : Nat
  stamp : Nat
  coalesced : Nat
  inst : Nat
  d0 : Word
  d1 : Word
  d2 : Word
  deriving DecidableEq, Repr

/-- A delivery channel (R639): its latches, its outstanding level records with their ring entries, and its ring. -/
structure Chan where
  pend : List Pend
  outst : List (Nat × Nat)
  ring : Tab Record
  head : Nat
  tail : Nat
  seq : Nat
  pass : Nat
  deriving DecidableEq, Repr

/-- The event queue controller. -/
structure EvqState where
  host : Chan
  sup : Chan
  /-- Level sources whose condition is asserted (R636). -/
  level : List Nat
  /-- A record whose write has failed and is not yet repeated (R642): its entry, the record, and whether the ring was empty before it. -/
  failed : Option (Nat × Record × Bool)
  /-- The MSI-X vector is masked; its pending bit; messages sent (R647). -/
  msixMask : Bool
  msixPend : Bool
  msixSent : Nat
  /-- Latches saved from sleeping quadrants (R652): those of the host channel under the quadrant's number, those of the supervisor's under 4 more. -/
  saved : List (Nat × List Pend)
  /-- Masks and latches have been saved in the line side since the logic side lost power (R653). -/
  lineSaved : Bool
  deriving DecidableEq, Repr


/-! ## The plan (01_compiled_plan.md) -/

/-- What changes the configuration at an apply frame: a base plan, an overlay, and the two moves of SERVICE (R38, R56, R801, R805). -/
inductive ChangeKind where
  | base
  | modeSet
  | svcEnter
  | svcLeave
  deriving DecidableEq, Repr

/-- A commit or mode change that has been accepted and not completed (R38 to R59). -/
structure Change where
  cmd : Cmd
  kind : ChangeKind
  mode : Nat
  /-- The apply frame, and the time at which it starts, in ticks of the timebase. -/
  frame : Nat
  start : Nat
  /-- APPLY_AT as asked, kept for a held first commit (R49). -/
  asked : Nat
  routesFromPlan : Bool
  /-- Held under R49. -/
  held : Bool
  armed : Bool
  /-- The partner has reported that it is armed (R42). -/
  partnerArmed : Bool
  /-- The apply frame has started: the new tables are in force for every destination that has changed over. -/
  applied : Bool
  /-- A first commit (R48). -/
  first : Bool
  /-- Quadrants that are woken for it (R59). -/
  wake : List Nat
  /-- Destinations that have not changed over (R43). -/
  remaining : List Nat
  /-- Outputs that are hitless across the change (R47, R57). -/
  hitless : List Nat
  deriving DecidableEq, Repr

/-- A `PLAN_LOAD` between its validation here and its reply (R35). -/
structure Loading where
  cmd : Cmd
  status : Nat
  sect : Nat
  /-- The partner's status; none while the copy to a paired partner is under way. -/
  partner : Option Nat
  deriving DecidableEq, Repr

/-- An accepted patch (R60). -/
structure Patch where
  cmd : Cmd
  records : List PatchRec
  frame : Nat
  start : Nat
  deriving DecidableEq, Repr

/-- The tables of the base plan that commands and patches change, as in force. -/
structure Tables where
  flows : List FlowEntry
  safe : List Nat
  colour : List ColourEntry
  air : List Nat
  deriving DecidableEq, Repr

/-- The plan: load slot, committed plan, what is pending. -/
structure PlanState where
  /-- The bundle in the load slot, as the host wrote it (R770). -/
  slot : Option Bundle
  /-- A `PLAN_LOAD` under way (R33, R35). -/
  loading : Option Loading
  committed : Option Bundle
  /-- The configuration in force: base with the overlay of the mode (R19). -/
  cfg : ModeCfg
  /-- The configuration that destinations which have not changed over still run (R43). -/
  oldCfg : ModeCfg
  /-- Memory allocation of that configuration. -/
  oldMem : List MemEntry
  /-- Tables of the base plan that those destinations still run (R43). -/
  oldTables : Tables
  pending : Option Change
  patches : List Patch
  tables : Tables
  /-- Time at which safe content after a change-over ends, per output (R47, R57): the output shows safe content until then. -/
  safeUntil : Tab Nat
  deriving DecidableEq, Repr

/-- The configuration of a unit with no plan. -/
def emptyCfg : ModeCfg :=
  { mode := 0, inputs := [], outputs := [], sends := [], returns := [], groups := [], tasks := [], heads := [], eths := [],
    audioRate := 0, audioUsed := [], audioRoutes := [], ancRate := [] }

/-! ## Takes (02_word_fabric_and_takes.md) -/

/-- A destination awaiting its switch point (R103): the job it belongs to, which entry of the job, and the switch point in ticks of the timebase. -/
structure TakePend where
  job : Nat
  entry : Nat
  dest : Nat
  source : Nat
  levels : Nat
  sp : Nat
  deriving DecidableEq, Repr

/-- What became of one entry of a job at one destination (R104, R109): the commit house frame, the format frame, the switch point, the levels that took effect, the video source before, and 0 applied, 1 superseded, 2 PLAN_CHANGED. -/
structure TakeRes where
  entry : Nat
  dest : Nat
  frame : Nat
  fmtFrame : Nat
  sp : Nat
  applied : Nat
  prior : Nat
  code : Nat
  deriving DecidableEq, Repr

/-- An accepted take or salvo with destinations that have not committed (R103, R107). -/
structure TakeJob where
  id : Nat
  cmd : Cmd
  /-- SALVO_ID and salvo frame; none for a take. -/
  salvo : Option (Nat × Nat)
  /-- Entries as sent. -/
  entries : List Nat
  /-- Pending entries made of them. -/
  expanded : Nat
  noSlip : Bool
  slipped : Bool
  /-- Forwarded to the partner; acknowledged; late there (R113 to R115). -/
  forwarded : Bool
  acked : Bool
  latePartner : Bool
  /-- House frame sent to the partner. -/
  frame : Nat
  /-- Earliest switch point of the job (R111). -/
  firstSp : Nat
  results : List TakeRes
  deriving DecidableEq, Repr

/-- An open salvo (R106). -/
structure OpenSalvo where
  id : Nat
  cmd : Cmd
  entries : List Nat
  /-- Elapsed time at which its first part arrived. -/
  opened : Nat
  deriving DecidableEq, Repr

/-- The take engine. -/
structure TakeState where
  pend : List TakePend
  jobs : List TakeJob
  nextJob : Nat
  salvos : List OpenSalvo
  /-- House frame of the last commit, per destination (R110). -/
  lastFrame : Tab Nat
  /-- Epoch of the last check-failure record, per destination (R86). -/
  chkEpoch : Tab Nat
  /-- Interchange buffer (R79): the row that it holds, and the words of sources in that row. -/
  xRow : Nat
  xWords : Tab (BitVec 48)
  /-- Time after that of the last word marked invalid that a process send has received (R85). -/
  sendBad : Tab Nat
  deriving DecidableEq, Repr

/-! ## Port pipelines (03_port_pipelines.md) -/

/-- A line as an input pipeline presents it to the fabric (R129 stage 8): whether its words are valid, whether it is substituted (R154), and its samples. -/
structure Shown where
  number : Nat
  valid : Bool
  subst : Bool
  pic : List PicGroup
  deriving DecidableEq, Repr

/-- What an input pipeline carries from line to line and frame to frame. -/
structure InTrack where
  /-- Consecutive expected EAVs missing; consecutive lines out of sequence; consecutive mismatching payload IDs (R130, R818). -/
  miss : Nat
  oos : Nat
  vpidBad : Nat
  /-- The words of the next line are presented valid: LOCKED, from line 1 of the frame after it was entered (R130). -/
  live : Bool
  /-- A payload ID has been read in the present frame. -/
  vpidNow : Bool
  /-- Epoch after that of the last CRC record; 0 for none (R131). -/
  crcEpoch : Nat
  /-- ANC packets kept of the present and of the last frame, with their line numbers (R139). -/
  ancNow : List (Nat × AncPkt)
  ancLast : List (Nat × AncPkt)
  /-- Audio groups found, and declared asynchronous, in the present frame. -/
  audNow : Nat
  audAsync : Nat
  /-- Rate and asynchronous flag that the control packets of the present and of the last frame declare, by group (R136). -/
  ctlNow : Tab (Nat × Bool)
  ctlLast : Tab (Nat × Bool)
  /-- Samples of each channel of a group delivered in the present frame, and the number of that frame of the format (R137). -/
  audCount : Tab Nat
  frameNo : Nat
  /-- Time up to which the lines that pass without a signal have been counted. -/
  linesAt : Nat
  /-- Time of the last EAV, and the number of the last line (R818). -/
  eavAt : Nat
  lastLine : Option Nat
  /-- The last good copy of each line of a group member in the group's ring (R154, R180). -/
  copies : Tab (List PicGroup)
  /-- The member's lines are being replaced from that ring (R163). -/
  fromStore : Bool
  /-- The line last presented to the fabric. -/
  shown : Option Shown
  deriving DecidableEq, Repr

/-- Tables 0 to 5 and the matrix of a colour task, where commands have set them (R370). -/
structure ColourSet where
  tables : Tab (List Nat)
  matrix : Option ColourEntry
  deriving DecidableEq, Repr

def colourSet0 : ColourSet := { tables := [], matrix := none }

/-- What a line leaving an output shows: the words that came, or what has replaced them (R145, R148; 24_service_mode.md R803). -/
inductive LineKind where
  | words
  | black
  | slate (index : Nat)
  | freeze
  | pattern (param : Nat)
  deriving DecidableEq, Repr

/-- A line that leaves an output pipeline (R140): samples, ANC packets, payload ID where the line carries one, and the slots of the embedded groups. -/
structure SentLine where
  number : Nat
  kind : LineKind
  pic : List PicGroup
  anc : List AncPkt
  vpid : Option Nat
  audio : List (Nat × List Word)
  /-- Its words are marked invalid because an uncorrectable word fed them (04_frame_stores.md R191). -/
  invalid : Bool
  /-- The line was replaced because of an internal fault (15_the_pair.md R580). -/
  internal : Bool
  deriving DecidableEq, Repr

/-- A slate in the slate store (04_frame_stores.md R186, R187), with its 32-bit words. -/
structure Slate where
  width : Nat
  height : Nat
  scan : Nat
  length : Nat
  words : List Nat
  /-- Stacks whose copy a MEM_BIST has zeroed (24_service_mode.md R809). -/
  zeroed : List Nat
  deriving DecidableEq, Repr

/-- What an output pipeline carries. -/
structure OutTrack where
  /-- A line of the present frame has been replaced (R145, R150). -/
  replNow : Bool
  /-- PARAM of the PATTERN test whose pattern the output carries in SERVICE (24_service_mode.md R803, R809). -/
  pattern : Option Nat
  /-- Colour set that the running frame uses (R147). -/
  colour : Option ColourEntry
  /-- A word of the line held has arrived marked invalid (02_word_fabric_and_takes.md R85), and because of an internal fault (15_the_pair.md R579). -/
  invalid : Bool
  internal : Bool
  /-- Slate that the running frame shows (04_frame_stores.md R187). -/
  slate : Option Slate
  /-- The output's lines are being replaced from its store (R156, R163). -/
  fromStore : Bool
  /-- Samples per channel that the running frame embeds (R144). -/
  samples : Nat
  /-- Lines of the present frame after stage 8, newest first; the good frame of the output frame store (R150); the frames of the delay line, newest first (04_frame_stores.md R183). -/
  cur : List SentLine
  good : Option (List SentLine)
  past : List (List SentLine)
  /-- The line last emitted, and the latest lines emitted with their frames of the format, newest first, for the send flows (08_media_flows.md R331). -/
  sent : Option SentLine
  recent : List (Nat × SentLine)
  /-- Number of the running frame of the format and of the last whole one, the ANC packets emitted in the one so far and in the other, with their lines (08_media_flows.md R335). -/
  frameNo : Nat
  ancFrame : Nat
  ancNow : List (Nat × AncPkt)
  ancLast : List (Nat × AncPkt)
  /-- Tables and matrix that a colour task in front of the output uses in the running frame (09_ibex_engines.md R370). -/
  conv : ColourSet
  /-- A word that the next line is read from was uncorrectable: in a delay line or store, and in a slate (04_frame_stores.md R191). -/
  spoilt : Bool
  dark : Bool
  deriving DecidableEq, Repr

/-- The port pipelines, by input and output number. -/
structure PortState where
  ins : Tab InTrack
  outs : Tab OutTrack
  deriving DecidableEq, Repr

def inTrack0 : InTrack :=
  { miss := 0, oos := 0, vpidBad := 0, live := false, vpidNow := false, crcEpoch := 0, ancNow := [], ancLast := [],
    audNow := 0, audAsync := 0, ctlNow := [], ctlLast := [], audCount := [], frameNo := 0, linesAt := 0, eavAt := 0, lastLine := none,
    copies := [], fromStore := false, shown := none }

def outTrack0 : OutTrack :=
  { replNow := false, pattern := none, colour := none, invalid := false, internal := false, slate := none, fromStore := false, samples := 0,
    cur := [], good := none, past := [], sent := none, recent := [], frameNo := 0, ancFrame := 0, ancNow := [], ancLast := [], conv := colourSet0, spoilt := false, dark := false }

/-! ## Frame stores and memory (04_frame_stores.md) -/

/-- A complete frame of a ring (R173): its number in writing order, the buffer that holds it, the time of its completion, and, for an input outside a group, its lines in order. -/
structure RingFrame where
  num : Nat
  buf : Nat
  doneAt : Nat
  lines : List LineInfo
  deriving DecidableEq, Repr

/-- A frame synchroniser (R171 to R182), by the number of the source it serves. -/
structure FsTrack where
  /-- Complete frames, newest first; the ring has three buffers (R166, R173). -/
  frames : List RingFrame
  nextNum : Nat
  /-- Buffer that the writer uses, and the lines written into it, newest first. -/
  buf : Nat
  writing : List LineInfo
  /-- The input is LOCKED, and the elapsed time at which it became so (R173). -/
  whole : Bool
  lockedAt : Nat
  /-- Selections for this house frame and for the next one, decided here or by the active unit (R177). -/
  sel : Option Nat
  selNext : Option Nat
  /-- Ring frame of the last read, and its buffer. -/
  last : Option Nat
  lastBuf : Nat
  /-- The input has left LOCKED (R179). -/
  lost : Bool
  /-- Elapsed times of the last 65 completions, newest first: T_in is averaged over them (R173). -/
  times : List Nat
  /-- Elapsed time at which the crossfade of the input's channels at the last join ends (R176). -/
  fadeUntil : Nat
  /-- HOLD_FRAMES (R179); LOSS_MODE is in `FS_STATUS`. -/
  hold : Nat
  /-- An uncorrectable word has spoilt the words that the source presents next (R191). -/
  spoilt : Bool
  deriving DecidableEq, Repr

/-- A correction (R190), kept to find stuck addresses (R193). -/
structure Corrected where
  stack : Nat
  addr : Nat
  at_ : Nat
  deriving DecidableEq, Repr

/-- HBM, as far as commands and errors reach it. -/
structure MemState where
  fs : Tab FsTrack
  slates : Tab Slate
  /-- Words in the slate upload area (R166; 22_supervisor_interconnect.md R770). -/
  upload : List Nat
  /-- Slates that wait for their apply frame: index, frame, words (R187). -/
  staged : List (Nat × Nat × List Nat)
  /-- LOSS_MODE and HOLD_FRAMES by source, and DELAY by output, as commands have set them since the base commit (R197). -/
  fsConf : Tab (Nat × Nat)
  delays : Tab Nat
  /-- Elapsed time at which the last scrub pass of a stack ended (R192). -/
  scrubAt : Tab Nat
  corrected : List Corrected
  /-- Addresses found stuck (R193), as stack and address, and those repaired (24_service_mode.md R812). -/
  stuck : List (Nat × Nat)
  repaired : List (Nat × Nat)
  /-- Epoch after that of the last uncorrectable record, per stack (R191). -/
  ueEpoch : Tab Nat
  deriving DecidableEq, Repr

def fsTrack0 : FsTrack :=
  { frames := [], nextNum := 0, buf := 0, writing := [], whole := false, lockedAt := 0, fadeUntil := 0, sel := none, selNext := none, last := none,
    lastBuf := 0, lost := false, times := [], hold := 0, spoilt := false }

/-! ## Commands that wait for an apply frame (16_command_packets.md R609, R821; 04_frame_stores.md R196) -/

/-- An accepted command that takes effect at the start of a house frame, with the result body its reply carries. -/
structure Sched where
  cmd : Cmd
  frame : Nat
  start : Nat
  result : List (Nat × Nat)
  deriving DecidableEq, Repr

/-! ## Trunks (05_trunk_lanes.md, 06_trunk_framing.md) -/

/-- A link pair on its ladder, and its message channel. Link pairs 0 to 71 are those of the trunks; number 72 stands for the mirror link (15_the_pair.md R561). -/
structure LinkTrack where
  /-- Elapsed time at which the end entered the present step (R232, R233). -/
  since : Nat
  /-- Step to which the transmitter changes at the next boundary of R230. -/
  txTo : Option Nat
  /-- Consecutive failures at step 0, and elapsed time at which FAILED was entered (R229). -/
  fails0 : Nat
  failedAt : Nat
  /-- Elapsed time since which both ends are READY with no REQ, DONE or NAK accepted (R221). -/
  bothReady : Option Nat
  /-- DONE has been accepted; NAK of the next step has been accepted (R231). -/
  doneAcc : Bool
  nakAcc : Bool
  /-- Frames in which the present ladder byte has been sent (R218, R230, R231). -/
  sent : Nat
  /-- Elapsed time at which CK_OK cleared in RUN (R238). -/
  ckLost : Option Nat
  /-- The lanes have lost alignment or restarted while the firmware is away (R239): the work waits. -/
  waitFw : Bool
  /-- Claim sampled for the next frame (R265). -/
  claim : Nat
  /-- Consecutive valid headers with STATE TRAIN in RUN (R270). -/
  trainRun : Nat
  /-- QL of the last headers and for how many frames it has stood (R291); the value passed on. -/
  qlSeen : Nat
  qlRun : Nat
  ql : Nat
  /-- Transmit and receive mailbox queues, a byte with its END flag (R297); the message being received is discarded (R269). -/
  txq : List (Nat × Bool)
  rxq : List (Nat × Bool)
  rxDrop : Bool
  /-- D2 byte of the present frame awaiting its D6 byte (R269). -/
  d2 : Option Nat
  /-- `TRK_MBX_SEND` commands whose END byte has not been sent, with the bytes of the queue up to it. -/
  sends : List (Cmd × Nat)
  /-- Epochs after those of the last CURRENT, LATE and MISMATCH records (R286). -/
  grpEpochs : List Nat
  /-- Phase of CK against the fabric (05_trunk_lanes.md R207): the sum of its windows' differences from the nominal frequency, in Hz. -/
  wander : Int
  /-- Number of the last frame sent (R264). -/
  txCnt : Option Nat
  /-- Group frame timer (R281), in the track of member A or of an ungrouped trunk: elapsed time and number of the frame that gave it its phase; the frame released last. -/
  grp : Option (Nat × Nat)
  released : Option Nat
  deriving DecidableEq, Repr

/-- A header received on a lane (06_trunk_framing.md R259, R262): its counter, one more than that before it where the header is not valid, the fields of R283, whether its blocks had no sync-header error, and the elapsed time of its block 0. -/
structure RxHdr where
  cnt : Nat
  claim : Nat
  ql : Nat
  state : Nat
  valid : Bool
  clean : Bool
  since : Nat
  deriving DecidableEq, Repr

/-- A frame received on a lane (R282, R283): its header, the descrambled data payloads, no sync-header error in them, its check in the next header matches, the next header is valid. -/
structure RxFrame where
  hdr : RxHdr
  data : List (BitVec 64)
  clean : Bool
  dcrc : Bool
  next : Bool
  deriving DecidableEq, Repr

/-- A pattern checker (05_trunk_lanes.md R244): the last bits, how many it has, consecutive error-free bits, lock, bits counted, and the numbers of the bits of the latest errors. -/
structure PrbsRx where
  hist : Nat
  got : Nat
  run : Nat
  locked : Bool
  pos : Nat
  errAt : List Nat
  deriving DecidableEq, Repr

def prbsRx0 : PrbsRx := { hist := 0, got := 0, run := 0, locked := false, pos := 0, errAt := [] }

/-- A data lane, by its number 8n + l over all link pairs. -/
structure LaneTrack where
  /-- Last message byte and the consecutive valid frames in which it has stood (R218). -/
  byte : Nat
  run : Nat
  /-- Consecutive invalid headers; blocks received, and the numbers of the blocks of the latest sync-header errors (R235); the lane has met R235. -/
  badHdr : Nat
  blocks : Nat
  errAt : List Nat
  lossDue : Bool
  /-- Consecutive frames passed under R228; restarts of the count in QUALIFY. -/
  passed : Nat
  restarts : Nat
  /-- Consecutive frames with valid sync headers and header blocks in their place (R226). -/
  okRun : Nat
  /-- Re-search under R236 is under way, and its SWEEP has been repeated; elapsed times of its failures (R237). -/
  searching : Bool
  swept : Bool
  failTimes : List Nat
  /-- Slips since the bring-up or re-search began, and frames since the last (R226). -/
  slips : Nat
  slipWait : Nat
  /-- Descrambler (06_trunk_framing.md R256); the header received last; the latest frames received, newest first. -/
  descr : BitVec 58
  pend : Option RxHdr
  frames : List RxFrame
  /-- Block of the trunk's local timer at which the last header's block 0 arrived, and WSLIP in force (R227). -/
  arrived : Nat
  wslip : Nat
  /-- Transmitter: scrambler (none before its start), check of the data of the last frame sent, the data blocks of the frame before it and the frame sent last. -/
  scr : Option (BitVec 58)
  txCrc : Option Nat
  txPrev : List Blk
  tx : List Blk
  /-- Taps that act until `tapsAt`, from when the register's do (R211). -/
  taps : Nat × Nat
  tapsAt : Nat
  /-- Elastic buffer of the far-end loop (R241, R242): its drift, in the measure of `wander`, and the blocks that the next frame discards (positive) or repeats. -/
  elastic : Int
  skip : Int
  /-- Pattern generator (none while it has not run), checker, and bits inverted by ERR_INJECT (R243, R244, R252). -/
  gen : Option Nat
  prbs : PrbsRx
  injected : Nat
  deriving DecidableEq, Repr

/-- The receive buffer of a stream, by its port (06_trunk_framing.md R276): the frame of its first words, the words since, the words released last, whether that release had words for it, and whether it has left the range. -/
structure StreamBuf where
  start : Nat
  cnt : Int
  words : List (BitVec 40)
  valid : Bool
  bad : Bool
  deriving DecidableEq, Repr

structure TrkState where
  links : Tab LinkTrack
  lanes : Tab LaneTrack
  streams : Tab StreamBuf
  deriving DecidableEq, Repr

def linkTrack0 : LinkTrack :=
  { since := 0, txTo := none, fails0 := 0, failedAt := 0, bothReady := none, doneAcc := false, nakAcc := false, sent := 0,
    ckLost := none, waitFw := false, claim := 0, trainRun := 0, qlSeen := 0, qlRun := 0, ql := 0, txq := [], rxq := [],
    rxDrop := false, d2 := none, sends := [], grpEpochs := [], wander := 0, txCnt := none, grp := none, released := none }

def laneTrack0 : LaneTrack :=
  { byte := 0, run := 0, badHdr := 0, blocks := 0, errAt := [], lossDue := false, passed := 0, restarts := 0, okRun := 0, searching := false,
    swept := false, failTimes := [], slips := 0, slipWait := 0, descr := 0, pend := none, frames := [], arrived := 0, wslip := 0, scr := none,
    txCrc := none, txPrev := [], tx := [], taps := (4, 12), tapsAt := 0, elastic := 0, skip := 0, gen := none, prbs := prbsRx0, injected := 0 }

/-! ## Ethernet (07_ethernet_ports.md) -/

/-- A frame on its way to the balls: the frame, and the HTX entry it came from (16_command_packets.md R626). -/
structure QFrame where
  frame : SendFrame
  htx : Option Nat
  deriving DecidableEq, Repr

/-- A channel, by its global number (16_command_packets.md R625). -/
structure EthTrack where
  /-- Elapsed time, in hundredths of a tick, at which the running pause timer expires (R308). -/
  pauseEnd : Option Nat
  /-- Elapsed time, in hundredths of a tick, at which the next frame of the pause buffer can start while draining (R312). -/
  drainAt : Nat
  /-- Pause buffer, in the order of falling due (R310). -/
  pbuf : List QFrame
  /-- Host queue (R307): frame, class and timestamp; class 16 stands for the supervisor. -/
  hostq : List (EthFrame × Nat × Option (Option Nat))
  /-- Host classes and OWN_MAC (16_command_packets.md R627). -/
  classes : Nat
  ownMac : Nat
  /-- Timestamp of the SFD event whose frame is still to be classified: none inside for TS_LATE (14_timebase_and_ptp.md R539, R541). -/
  sfd : Option (Option Nat)
  /-- The frame that last crossed the transmit balls, with its correctionField as sent (14_timebase_and_ptp.md R536). -/
  sent : Option SendFrame
  /-- Epochs after those of the last PAUSE_SEEN and PBUF_DROP_SEEN records (R320). -/
  pauseEpoch : Nat
  dropEpoch : Nat
  deriving DecidableEq, Repr

structure EthState where
  ch : Tab EthTrack
  deriving DecidableEq, Repr

def ethTrack0 : EthTrack :=
  { pauseEnd := none, drainAt := 0, pbuf := [], hostq := [], classes := 0, ownMac := 0, sfd := none, sent := none, pauseEpoch := 0, dropEpoch := 0 }

/-! ## Media flows (08_media_flows.md) -/

/-- A packet position of a receive flow (R347): its number, the frame of the port's format to which it belongs (its timestamp where the flow is FREE), its deadline and the arrival of the copy on each leg, in ticks of the timebase. -/
structure FlowPos where
  pos : Nat
  frame : Nat
  deadline : Int
  red : Option Nat
  blue : Option Nat
  deriving DecidableEq, Repr

/-- What the de-jitter buffer of a flow holds of a frame (R339, R342, R346): a row segment, an ANC packet with its line, or a datagram of an SDI data stream by its index; with the position of the packet that brought it. -/
inductive FlowPart where
  | row (seg : RowSeg)
  | anc (line : Nat) (pkt : AncPkt)
  | whole (index : Nat) (bytes : List Nat)
  deriving DecidableEq, Repr

/-- A media part that a de-jitter buffer holds: the position of the packet that brought it, and the format frame it belongs to (R340, R342). -/
structure FlowHeld where
  pos : Nat
  frame : Nat
  part : FlowPart
  deriving DecidableEq, Repr

/-- A flow, by its index in the flow address table. -/
structure FlowTrack where
  /-- Positions of which a copy has arrived in time, until their frame is evaluated (R347 to R350). -/
  got : List FlowPos
  /-- De-jitter buffer (R342). -/
  held : List FlowHeld
  /-- Highest position that has been counted, lost or not (R350). -/
  counted : Option Nat
  /-- ESSENCE 5: frame count and sequence number of the first datagram of a frame (R339). -/
  first : Option (Nat × Nat)
  /-- FREE: the timestamp of the last frame whose last packet has arrived (R344). -/
  whole : Option Nat
  /-- A packet of the leg arrived late, or too early to keep, since the last evaluation (R341, R348). -/
  redLate : Bool
  blueLate : Bool
  redOther : Bool
  blueOther : Bool
  /-- Epoch after that of the last leg-state record (R348). -/
  legEpoch : Nat
  /-- The entry that a patch has replaced, and the time of the flow's own boundary up to which it stays in force (R330). -/
  prev : Option (FlowEntry × Nat)
  deriving DecidableEq, Repr

structure FlowState where
  f : Tab FlowTrack
  deriving DecidableEq, Repr

def flowTrack0 : FlowTrack :=
  { got := [], held := [], counted := none, first := none, whole := none, redLate := false, blueLate := false, redOther := false, blueOther := false, legEpoch := 0, prev := none }


/-! ## Ibex engines (09_ibex_engines.md) -/

/-- An engine beside its registers: consecutive self-tests passed since its reload, whether it has been reloaded since its fault, elapsed times of its faults within the last hour, an injected mismatch, and the time of its return to service (R384, R385, R390). -/
structure EngTrack where
  passes : Nat
  reloaded : Bool
  faults : List Nat
  inject : Bool
  back : Option Nat
  deriving DecidableEq, Repr

/-- A colour task: what is in force, the shadow, and sets that are to take effect at a time, in order of acceptance (R370). -/
structure ColourTask where
  live : ColourSet
  shadow : ColourSet
  armed : List (ColourSet × Nat)
  deriving DecidableEq, Repr

/-- Settings of a probe (R374, R375, R378). -/
structure ProbeConf where
  blackLevel : Nat
  blackFrames : Nat
  freezeMad : Nat
  freezeFrames : Nat
  stLimit : Int
  tpLimit : Int
  deriving DecidableEq, Repr

/-- A probe: settings, consecutive black and frozen frames, what the frozen test took of the frame before (R375), and elapsed times of the last record of each alarm. -/
structure ProbeTrack where
  conf : ProbeConf
  black : Nat
  frozen : Nat
  last : List Nat
  stAt : Option Nat
  tpAt : Option Nat
  deriving DecidableEq, Repr

structure IbxState where
  eng : Tab EngTrack
  colour : Tab ColourTask
  /-- PATTERN and SLATE of generator tasks, where a command has set them (R371). -/
  gen : Tab (Nat × Nat)
  probes : Tab ProbeTrack
  deriving DecidableEq, Repr

def engTrack0 : EngTrack := { passes := 0, reloaded := false, faults := [], inject := false, back := none }

def colourTask0 : ColourTask := { live := colourSet0, shadow := colourSet0, armed := [] }

def probeConf0 : ProbeConf := { blackLevel := 80, blackFrames := 60, freezeMad := 4, freezeFrames := 120, stLimit := -2100, tpLimit := -100 }

def probeTrack0 : ProbeTrack := { conf := probeConf0, black := 0, frozen := 0, last := [], stAt := none, tpAt := none }

def ibx0 : IbxState := { eng := [], colour := [], gen := [], probes := [] }

/-! ## Composition heads (10_composition.md) -/

/-- A change of a layer's entry that waits for a head frame boundary (R404, R417): after the time `at_` (strictly, where a scaler changes first), a new entry, or a rescaling of the crop from one raster to another (old width and height, new width and height). -/
structure LayerStep where
  at_ : Nat
  strict : Bool
  entry : Option LayerEntry
  raster : Nat × Nat × Nat × Nat
  deriving DecidableEq, Repr

/-- A layer at the compositor. -/
structure LayerTrack where
  entry : LayerEntry
  steps : List LayerStep
  /-- Layer frames whose writing ends after this time have the present geometry (R408). -/
  since : Nat
  /-- Number and end of the newest complete layer frame (R405), and the next number. -/
  newest : Option (Nat × Nat)
  num : Nat
  /-- A source frame has ended since the previous boundary, and the last one is not complete (R407). -/
  bad : Bool
  /-- Number of the layer frame shown. -/
  shown : Option Nat
  /-- Time at which the last source frame ended. -/
  doneAt : Nat
  deriving DecidableEq, Repr

/-- A graphic surface (R410, R411): its format, how often it has been swapped, and its rows of words; what no load has written is zero. -/
structure Surface where
  fmt : Nat
  swaps : Nat
  lines : Tab (List Nat)
  deriving DecidableEq, Repr

/-- A static layer as a rebuild of the backdrop takes it (R412): its entry, surface, colour entry and tables. -/
structure DropLayer where
  entry : LayerEntry
  surf : Surface
  colour : Option ColourEntry
  tables : Tab (List Nat)
  deriving DecidableEq, Repr

/-- A head: a rebuild of its backdrop is due (R413), it is to be shed (R421), the layers of the running frame from the bottom up (R396), and its table sets by number 6 × set + table: in force, shadow, and committed ones with the start of their apply frame (R416); the colour entries of its layers and output in the running frame (R414); and its backdrop, background colour and static layers, as shown and as the rebuild under way makes it (R412, R413). -/
structure HeadTrack where
  dirty : Bool
  shed : Bool
  order : List Nat
  tables : Tab (List Nat)
  shadow : Tab (List Nat)
  armed : List (Tab (List Nat) × Nat)
  colour : List ColourEntry
  drop : Option (Nat × List DropLayer)
  dropNext : Option (Nat × List DropLayer)
  deriving DecidableEq, Repr

structure CompState where
  /-- Layers by number 21 × head + layer. -/
  layers : Tab LayerTrack
  heads : Tab HeadTrack
  /-- Formats of layer input sends set by `COMP_INPUT_FORMAT` and in force (R402), and accepted changes with the start of their apply frame. -/
  fmts : Tab PortFmt
  fmtNext : List (Nat × PortFmt × Nat)
  /-- Entries of the base section and of the overlay in force that commands have changed (R419). -/
  baseCmd : Tab LayerEntry
  overCmd : Tab LayerEntry
  /-- Front surfaces of the graphic layers, and loaded rectangles that wait for their apply frame, by layer number and frame (R411). -/
  surfaces : Tab Surface
  surfNext : List (Nat × Nat × SurfPart)
  /-- Elapsed time at which the copies from the upload area end (R411). -/
  uploadEnd : Nat
  deriving DecidableEq, Repr

def layerEntry0 : LayerEntry :=
  { head := 0, layer := 0, flags := 0, send := 0xFFFF, alpha := 0, cropX := 0, cropY := 0, cropW := 0, cropH := 0, outX := 0, outY := 0,
    outW := 0, outH := 0, fill := 0, tset := 0xFF, zeroOk := true }

def layerTrack0 : LayerTrack :=
  { entry := layerEntry0, steps := [], since := 0, newest := none, num := 0, bad := false, shown := none, doneAt := 0 }

def headTrack0 : HeadTrack := { dirty := false, shed := false, order := [], tables := [], shadow := [], armed := [], colour := [], drop := none, dropNext := none }

def surface0 : Surface := { fmt := 0, swaps := 0, lines := [] }

def comp0 : CompState :=
  { layers := [], heads := [], fmts := [], fmtNext := [], baseCmd := [], overCmd := [], surfaces := [], surfNext := [], uploadEnd := 0 }

/-! ## Audio (11_audio_plane.md) -/

/-- A route change of an audio destination channel that awaits its commit sample (R432): the `AUD_TAKE` job it belongs to (none for a take's audio level), destination, source, sample, the instant of that sample, and its place in the order of acceptance (R435). -/
structure AudPend where
  job : Option Nat
  dest : Nat
  source : Option Nat
  sample : Nat
  at_ : Nat
  order : Nat
  deriving DecidableEq, Repr

/-- An accepted `AUD_TAKE` with entries that have not committed: apply frame, and the first and last of the commit samples (R437). -/
structure AudJob where
  id : Nat
  cmd : Cmd
  frame : Nat
  first : Nat
  last : Nat
  /-- An entry has had no effect because its channels are not used any more (R820). -/
  changed : Bool
  deriving DecidableEq, Repr

/-- A crossfade (R433): the old source, and the commit sample. -/
structure Fade where
  old : Option Nat
  start : Nat
  deriving DecidableEq, Repr

/-- What the directions of an audio port hold beside their registers: elapsed times at which ACQUIRING and RAMPING were entered, RATE_ERR by direction (R449, R450), the received frames, newest first, as slots by channel (R441, R442, R445), the plane sample up to which a direction delivers zeros after its buffer has run off (R451), and the frame last sent: a 32-bit word by channel, none where it is high-impedance. -/
structure AudPort where
  rxSince : Nat
  txSince : Nat
  rxErr : Bool
  txErr : Bool
  rx : List (List Word)
  rxZero : Nat
  txZero : Nat
  sent : List (Option Word)
  deriving DecidableEq, Repr

/-- A source channel of the plane (R428, R430): samples that wait, oldest first; samples of a receive flow, by the plane sample at which each is presented (08_media_flows.md R345); the plane sample for which one was last taken, plus 1; and the slot it presents for that sample. -/
structure AudSrc where
  queue : List Word
  timed : Tab Word
  at_ : Nat
  slot : Word
  deriving DecidableEq, Repr

structure AudState where
  /-- Source channels that hold samples. -/
  srcs : Tab AudSrc
  /-- Source of each destination channel; none listed is no source (R428). -/
  routes : Tab Nat
  /-- Running crossfades of a destination, newest first (R434). -/
  fades : Tab (List Fade)
  pend : List AudPend
  jobs : List AudJob
  /-- The slot that last left each destination (R430, R433). -/
  out : Tab Word
  /-- Slots that have left a destination, newest first, with the plane sample of the newest: as many as a packet time of 1 ms holds (08_media_flows.md R334). -/
  past : Tab (Nat × List Word)
  /-- Epoch after that of the last check-failure record (R430). -/
  chkEpoch : Nat
  ports : Tab AudPort
  deriving DecidableEq, Repr

def audPort0 : AudPort := { rxSince := 0, txSince := 0, rxErr := false, txErr := false, rx := [], rxZero := 0, txZero := 0, sent := [] }

def audSrc0 : AudSrc := { queue := [], timed := [], at_ := 0, slot := 0 }

def aud0 : AudState := { srcs := [], routes := [], fades := [], pend := [], jobs := [], out := [], past := [], chkEpoch := 0, ports := [] }
/-! ## Reference selection (12_reference_selection.md) -/

/-- What the timebase loop and the candidates hold beside their registers. -/
structure RefState where
  /-- Reference configuration in force, by entry number, where an entry differs from its default (R495 to R497). -/
  conf : Tab RefEntry
  /-- Candidate forced by `REF_FORCE` (R476). -/
  force : Option Nat
  /-- Candidates present (R464). -/
  present : List Nat
  /-- Selected candidate, in LOCKED and WAITING (R475). -/
  sel : Option Nat
  /-- The timebase has left FREERUN since the last cold start (R469), and has made a selection since then (R487). -/
  leftFree : Bool
  everSel : Bool
  /-- Phase offset O (R481) at the elapsed time `ofsAt`, in units of 0.1 ns divided by the ticks of a second, so that SLEW is a whole number of units a tick. -/
  ofs : Int
  ofsAt : Nat
  /-- Elapsed time at which each running hold-off ends (R469). -/
  holdEnd : Tab Nat
  /-- Loop frequency while LOCKED, one sample a second in 10⁻¹², newest first, at most 400: 100 s and the longest DRIFT_TIME (R491). -/
  freqs : List Int
  /-- Elapsed time of the entry into HOLDOVER, and the last QL in use before it (R492). -/
  hoAt : Nat
  lastQl : Nat
  /-- Elapsed time since which the phase error has stayed within its window at the present bandwidth (R489). -/
  bwAt : Nat
  /-- ACQ_BW from which the loop started, and how often it has halved (R489). -/
  bw : Nat × Nat
  deriving DecidableEq, Repr

def ref0 : RefState :=
  { conf := [], force := none, present := [], sel := none, leftFree := false, everSel := false, ofs := 0, ofsAt := 0,
    holdEnd := [], freqs := [], hoAt := 0, lastQl := 0, bwAt := 0, bw := (0, 0) }

/-! ## PLLs and islands (13_plls_and_clock_islands.md) -/

/-- A PLL's lock attempt. -/
structure PllTrack where
  /-- Elapsed time at which the running attempt started, and at which its band search ended. -/
  since : Nat
  closedAt : Option Nat
  /-- LOCK_N, and W in units of 4 ps, of the running attempt (R506). -/
  lockN : Nat
  win : Nat
  /-- Consecutive failed attempts, and elapsed time of the last one (R507). -/
  fails : Nat
  failAt : Nat
  /-- Elapsed time at which LOCKED and SYNCED were both set (R518). -/
  readyAt : Option Nat
  deriving DecidableEq, Repr

structure PllState where
  pll : Tab PllTrack
  /-- Consecutive FRAME_SYNC edges within ±500 ns (R512). -/
  fsGood : Nat
  deriving DecidableEq, Repr

def pllTrack0 : PllTrack := { since := 0, closedAt := none, lockN := 256, win := 12, fails := 0, failAt := 0, readyAt := none }

/-! ## Timebase and PTP (14_timebase_and_ptp.md) -/

/-- A foreign master that a PTP port hears (R533): its last Announce. -/
structure Foreign where
  msg : AnnounceMsg
  /-- Arrival of that message, and of the one before it. -/
  at_ : Nat
  prev : Option Nat
  deriving DecidableEq, Repr

/-- A PTP slave port (R532 to R535). -/
structure PtpPort where
  /-- Configuration by `PTP_SET` (R546). -/
  domain : Nat
  flags : Nat
  dscp : Nat
  vlan : Nat
  ownIp : Nat
  /-- Foreign masters heard, by clockIdentity (R533). -/
  masters : List Foreign
  chosen : Option Nat
  /-- clockClass, clockAccuracy and ptpTimescale of the last Announce of the chosen master (R465). -/
  lastAnn : Option (Nat × Nat × Bool)
  /-- t1 and t2 of the last Sync used, with its correction, in ns (R535). -/
  sync : Option (Int × Int × Int)
  /-- The last 16 path delays in ns, newest first (R535). -/
  paths : List Int
  /-- Delay_Req messages sent and not answered: sequence number and t3 in ns; and the next number. -/
  reqs : List (Nat × Int)
  seq : Nat
  /-- Receive timestamp of the last SFD event, in ticks: none within where it is TS_LATE; none once a Sync has used it (R535, R541). -/
  stamp : Option (Option Nat)
  /-- currentUtcOffset of the chosen master, where its last Announce marks it valid (R529). -/
  utc : Option Int
  deriving DecidableEq, Repr

/-- The last recorded edge of a capture channel: time in ticks less CAP_OFS in units of 2⁻¹⁶ ns, and its epoch plus one; edges missed in that epoch (R545). -/
structure CapTrack where
  time : Nat
  epoch : Nat
  missed : Nat
  deriving DecidableEq, Repr

/-- Time configuration (R529 to R531). -/
structure TimeConf where
  utcOfs : Int
  localOfs : Int
  flags : Nat
  jam : Nat
  deriving DecidableEq, Repr

structure TimeState where
  conf : TimeConf
  ptp : Tab PtpPort
  /-- UTC_OFS in force from PTP, and a change announced for a time (R529). -/
  ptpUtc : Option Int
  utcNext : Option (Int × Nat)
  /-- End of the UTC day in which leap61 or leap59 was last announced, without the leap second, in ticks of TAI. -/
  leapEnd : Option Nat
  cap : Tab CapTrack
  /-- Elapsed time up to which the fast interrupt handles an SFD event (R541). -/
  sfdBusy : Nat
  deriving DecidableEq, Repr

def ptpPort0 : PtpPort :=
  { domain := 127, flags := 0, dscp := 0, vlan := 0, ownIp := 0, masters := [], chosen := none, lastAnn := none, sync := none,
    paths := [], reqs := [], seq := 0, stamp := none, utc := none }

def capTrack0 : CapTrack := { time := 0, epoch := 0, missed := 0 }

def timeConf0 : TimeConf := { utcOfs := 37, localOfs := 0, flags := 2, jam := 0 }

/-! ## The pair (15_the_pair.md) -/

/-- What a pairing under way holds (R566): the partner's certificate, nonce and ephemeral public key, and this unit's nonce and ephemeral private key. -/
structure Pairing where
  cert : List Nat
  nonce : Nat
  key : Nat
  ownNonce : Nat
  ownKey : Nat
  deriving DecidableEq, Repr

def pairing0 : Pairing := { cert := [], nonce := 0, key := 0, ownNonce := 0, ownKey := 0 }

/-- What the pair protocol holds beside its registers. -/
structure PairState where
  /-- Messages given to the mirror link with their sequence numbers, oldest first (R564, R565), and the next number. -/
  outbox : List (Nat × MirMsg)
  txSeq : Nat
  /-- Sequence numbers received and acted on (R565). -/
  rxGot : List Nat
  /-- Replies to commands relayed from the partner (16_command_packets.md R622). -/
  relayOut : List RelayReply
  /-- Epoch of the last event of each penalty class in force (R555). -/
  penEpoch : Tab Nat
  /-- Epoch of the last event of R554 in each quadrant (R591), and the epoch at which the exclusion of a rail ends (R592), by quadrant of the rail. -/
  railAt : Tab Nat
  railEx : Tab Nat
  /-- Epoch after that of the last DISAGREE record, per home quadrant (R591). -/
  railRec : Tab Nat
  /-- TIE has been moved past the partner's (R551). -/
  tieMoved : Bool
  /-- Role priority forced to 0 (00_scope.md R8; 24_service_mode.md R801). -/
  prioZero : Bool
  /-- Claim sampled for the next mirror header (06_trunk_framing.md R265). -/
  claim : Nat
  /-- House frame agreed with the partner for changes of the colours sent (08_media_flows.md R353). -/
  colourAt : Option Nat
  /-- PAIR_FLAGS last accepted from the partner (R562). -/
  peerFlags : Nat
  /-- Pairing has derived the link's keys, and how often they have been renewed (R566, R567). -/
  keyed : Bool
  renewals : Nat
  /-- Mirror frames left in which forwarded takes are still accepted after becoming active (R559). -/
  grace : Nat
  /-- `PAIR_RESYNC` commands that complete with the resync (R594). -/
  resyncCmds : List Cmd
  /-- A snapshot has been asked of this unit and is sent at the next epoch boundary (R570). -/
  snapDue : Bool
  /-- Epoch in which the last resync completed, and one in which a resync was asked for (R577). -/
  resyncDone : Option Nat
  /-- Digests of this unit and of the partner, newest first, as epoch and digests (R571, R573); words of outputs and of inputs that lie in later epochs (R572); blocks with an event of R554, with its epoch (R574). -/
  own : List (Nat × Digests)
  peer : List (Nat × Digests)
  ahead : EpochWords
  hits : List (Nat × PathBlock)
  /-- The snapshot received, with the epoch in which it came, as later deltas have changed it; the run-time state at the last epoch boundary (R570). -/
  snap : Option (Nat × Snapshot)
  sent : Option Snapshot
  /-- Bytes accepted on the mirror lanes in RUN (R562), and the instant of the last mirror header taken (R558). -/
  msg : Tab Nat
  hdrAt : Option Nat
  /-- The word that the egresses last took for a logical output, none where it is marked invalid (R591). -/
  egress : Tab (Option (BitVec 40))
  /-- The epoch last compared, with own and partner's digests (R594), and the inputs that differed in it (R574). -/
  lastCmp : Option (Nat × Digests × Digests)
  badInputs : Nat × List Nat
  /-- After a return from SERVICE nothing is compared or forwarded until the resync completes (24_service_mode.md R805). -/
  svcSync : Bool
  /-- The partner holds the same plan (01_compiled_plan.md R71). -/
  planSame : Bool
  /-- The join holds at step 5 (R569). -/
  held : Bool
  /-- Step of R566 in force, 0 outside pairing; elapsed time of a failure, and that of the last key exchange (R567). -/
  pairStep : Nat
  exch : Pairing
  /-- The partner's Mutia version, learnt at join step 3 (R569; 18_start_and_update.md R677). -/
  peerVersion : Option Nat
  authAt : Option Nat
  keyAt : Nat
  /-- Elapsed time of the last valid mirror header; the partner's heartbeat byte, and when it last advanced (R563). -/
  hbAt : Nat
  hbByte : Nat
  hbAdv : Nat
  /-- Claim and PAIR_FLAGS of the mirror headers since the last DELTA (R568). -/
  hdrs : List (Nat × Nat)
  /-- Epochs in which a penalty has been in force: from the first, and the first after them (R555, R556). -/
  penFrom : Nat
  penTo : Nat
  /-- First epoch that counts for the return of CAP, and clean epochs counted (R556); a plan has been committed since the cold start. -/
  capFrom : Nat
  capClean : Nat
  everCommitted : Bool
  deriving DecidableEq, Repr

def pair0 : PairState :=
  { outbox := [], txSeq := 0, rxGot := [], relayOut := [], penEpoch := [], railAt := [], railEx := [], railRec := [], tieMoved := false, prioZero := false,
    claim := 0, colourAt := none, peerFlags := 0, keyed := false, renewals := 0, grace := 0, resyncCmds := [], snapDue := false,
    resyncDone := none, own := [], peer := [], ahead := { outputs := [], inputs := [] }, hits := [], snap := none, sent := none, msg := [], hdrAt := none, egress := [], lastCmp := none, badInputs := (0, []), svcSync := false,
    planSame := false, held := false, pairStep := 0, exch := pairing0, peerVersion := none, authAt := none, keyAt := 0, hbAt := 0, hbByte := 0, hbAdv := 0, hdrs := [],
    penFrom := 0, penTo := 0, capFrom := 0, capClean := 0, everCommitted := false }

/-! ## Start, firmware and settings (18_start_and_update.md) -/

/-- What Mutia keeps in a settings slot, as far as this manual names it (12_reference_selection.md R495; 14_timebase_and_ptp.md R531; 15_the_pair.md R594; 19_identity.md R701; 20_optical_modules.md R723). -/
structure Settings where
  refs : Option (Tab RefEntry)
  time : Option TimeConf
  /-- ROLE_PRIO, STICKY and PIN in the layout of `PAIR_CTRL`, and the pinned serial number. -/
  pairCtrl : Nat
  pinSn : Nat
  /-- Policy bit 1, and the allowlist: OUI and part number of each valid entry. -/
  allowOn : Bool
  allow : Tab (Nat × Nat)
  /-- EOL and EA of the wear model. -/
  eol : Nat
  ea : Nat
  deriving DecidableEq, Repr

/-- A valid settings slot (R679, R680): CONF_DIGEST where it holds a complete confirmation record. -/
structure SetSlot where
  /-- MAGIC and CRC check (R679). -/
  valid : Bool
  format : Nat
  gen : Nat
  writerVer : Nat
  writerDigest : Nat
  conf : Option Nat
  body : Settings
  deriving DecidableEq, Repr

/-- A completion that the firmware which runs next writes (16_command_packets.md R619; 24_service_mode.md R815): with the frame, where it is not that of the writing. -/
structure Owed where
  cmd : Cmd
  status : Nat
  frame : Option Nat
  result : List (Nat × Nat)
  deriving DecidableEq, Repr

/-- An accepted `FW_ACTIVATE` whose firmware has not set START_OK (R667, R671): the window in seconds, the target bank and its image, and whether it follows a cold start or RESCUE. -/
structure Activation where
  cmd : Cmd
  window : Nat
  bank : Nat
  image : FwImage
  cold : Bool
  deriving DecidableEq, Repr

structure FwState where
  /-- Bundle in the staging area; the same, once verified (R664). -/
  staging : Option FwImage
  staged : Option FwImage
  /-- Bundles whose images the execution banks hold, and the bundle whose task library is in force (R672). -/
  bankA : Option FwImage
  bankB : Option FwImage
  library : Option FwImage
  act : Option Activation
  /-- `FW_RESTART` whose reply waits for the firmware's return. -/
  restart : Option Cmd
  /-- The running firmware was activated from another running one (R673); that one was confirmed; the firmware was started from RESCUE (R686). -/
  warm : Bool
  oldConf : Bool
  rescue : Bool
  /-- The bank that the restart under way ends in is B. -/
  target : Bool
  /-- Elapsed time at which the confirmation window ends (R673). -/
  windowEnd : Option Nat
  /-- Completions that the firmware which runs next writes (16_command_packets.md R619). -/
  owed : List Owed
  /-- Settings in force. -/
  settings : Settings
  deriving DecidableEq, Repr

/-- An entry of the life ledger (20_optical_modules.md R715); LIFE in units of 10⁻¹² life units. -/
structure LedgerEntry where
  oui : Nat
  part : Nat
  serial : Nat
  vendor : Nat
  flags : Nat
  life : Nat
  laserSec : Nat
  reported : Nat
  base : List Nat
  tempMax : Int
  biasPeak : Nat
  cage : Nat
  lastSeen : Nat
  deriving DecidableEq, Repr

/-- Wear counters (21_supplies_and_thermal.md R752, R753): WEAR in 10⁻¹² h, seconds above 95 °C and 105 °C, cold starts, trips, highest T_J in 0.1 °C. -/
structure Wear where
  wear : Nat
  hot95 : Nat
  hot105 : Nat
  starts : Nat
  trips : Nat
  peak : Int
  deriving DecidableEq, Repr

/-- A write or erase of a settings slot under way (R683): slot B, its beginning and end in elapsed time, and what the slot holds before it begins and until it has ended. -/
structure FlashOp where
  slotB : Bool
  start : Nat
  stop : Nat
  before : Option SetSlot
  during : Option SetSlot
  deriving DecidableEq, Repr

/-- A copy of the life ledger in a slot: GEN, the entries, and whether all of it was written, so that its CRC-32 holds (20_optical_modules.md R716). -/
structure LifeCopy where
  gen : Nat
  entries : Tab LedgerEntry
  whole : Bool
  deriving DecidableEq, Repr

/-- A copy of the wear ledger in a slot (21_supplies_and_thermal.md R753). -/
structure WearCopy where
  gen : Nat
  wear : Wear
  whole : Bool
  deriving DecidableEq, Repr

/-- The settings flash (R678): its size in MiB, 0 where none is found; the two settings slots as they stand once the writes under way have ended, and those writes; and the newest valid copies of the ledgers, with their GEN, whose writes end within the command that makes them (log 30). -/
structure FlashState where
  mib : Nat
  slotA : Option SetSlot
  slotB : Option SetSlot
  ops : List FlashOp
  /-- Copies of the life ledger in its 16 slots, and of the wear ledger in its 4 (20_optical_modules.md R716; 21_supplies_and_thermal.md R753). -/
  life : Tab LifeCopy
  wear : Tab WearCopy
  /-- Trunk equalisation cache (R678; 05_trunk_lanes.md R225): position and CTLE by 1,024 × step + lane. -/
  eq : Tab (Nat × Nat)
  deriving DecidableEq, Repr

def settings0 : Settings :=
  { refs := none, time := none, pairCtrl := 8, pinSn := 0, allowOn := false, allow := [], eol := 60000, ea := 700 }

def fw0 : FwState :=
  { staging := none, staged := none, bankA := none, bankB := none, library := none, act := none, restart := none, warm := false, oldConf := false, rescue := false, target := false,
    windowEnd := none, owed := [], settings := settings0 }

/-! ## Identity (19_identity.md) -/

/-- An owner-key slot of OTP (R693, R694): the hash bits programmed, VALID and REVOKED. -/
structure OwnerSlot where
  hash : Nat
  valid : Bool
  revoked : Bool
  deriving DecidableEq, Repr

/-- One-time-programmable memory (R693): serial number, the device certificate's bytes, anti-rollback floor, the four owner-key slots, and the policy bit. -/
structure OtpState where
  serial : Nat
  cert : List Nat
  floor : Nat
  /-- Writes that raise the floor: the end of each, and the floor that it leaves (18_start_and_update.md R675, R683). -/
  rising : List (Nat × Nat)
  slots : List OwnerSlot
  ownerOnly : Bool
  deriving DecidableEq, Repr

/-- The boot ROM's version and public keys (18_start_and_update.md R662; R692), and the device private key that the security engine holds since the cold start, 0 before one (R690). -/
structure SecState where
  romVersion : Nat
  fwKeys : List Nat
  root : Nat
  key : Nat
  deriving DecidableEq, Repr

def ownerSlot0 : OwnerSlot := { hash := 0, valid := false, revoked := false }

/-! ## Optical modules (20_optical_modules.md) -/

/-- A cage beside its registers. -/
structure Cage where
  /-- Index of the fitted module's ledger entry, once identified. -/
  entry : Option Nat
  /-- Transmitters are enabled; `MOD_CONTROL` keeps the module in low-power mode (R724). -/
  tx : Bool
  forced : Bool
  /-- Elapsed time up to which LASER_SEC has been counted, in ticks, and ticks of a second begun (R717). -/
  laserAt : Nat
  laserPart : Nat
  /-- LASER_SEC at the last sample (R718); the last good temperature of the fitted module. -/
  sampled : Nat
  temp : Option Int
  /-- Flags of the module that the firmware has still to read: ModuleFault or a transmitter fault (R709, R710). -/
  fault : Bool
  /-- Samples with access errors, and samples with a rise above 50 %, in a row (R710, R722). -/
  errRun : Nat
  wornRun : Nat
  /-- Elapsed time at which RESET_N last went low or was released, or the cage left IDENT (R710, R711). -/
  since : Nat
  /-- LASER_SEC at the entry into FAWN, and the sum of each lane's bias over the samples since then, with their number (R721). -/
  fawnAt : Nat
  biasSum : List Nat
  biasN : Nat
  deriving DecidableEq, Repr

structure ModState where
  cages : Tab Cage
  ledger : Tab LedgerEntry
  deriving DecidableEq, Repr

def cage0 : Cage :=
  { entry := none, tx := false, forced := false, laserAt := 0, laserPart := 0, sampled := 0, temp := none, fault := false, errRun := 0, wornRun := 0, since := 0, fawnAt := 0, biasSum := [], biasN := 0 }

/-! ## Supplies, sleep and heat (21_supplies_and_thermal.md) -/

structure ThermState where
  /-- T_J in 0.1 °C at the last sample. -/
  tj : Int
  /-- T_J has reached 105 °C and the shed list waits for an epoch boundary (R745). -/
  shedDue : Bool
  /-- Elapsed time since which T_J has stayed below 100 °C while the list is in force (R747). -/
  below : Option Nat
  /-- Entries shed. -/
  items : List ShedEntry
  /-- A hard trip has occurred since the last cold start (R749). -/
  trip : Bool
  wear : Wear
  /-- The wear counters have been seeded from flash since VDD_LINE rose (R753). -/
  seeded : Bool
  /-- Elapsed time of the start of wake of each waking quadrant (R739). -/
  wakeAt : Tab Nat
  deriving DecidableEq, Repr

def wear0 : Wear := { wear := 0, hot95 := 0, hot105 := 0, starts := 0, trips := 0, peak := 0 }

def therm0 : ThermState :=
  { tj := 0, shedDue := false, below := none, items := [], trip := false, wear := wear0, seeded := false, wakeAt := [] }

/-! ## Service (24_service_mode.md) -/

/-- An accepted `SVC_TEST` (R809, R810): the first of its unit runs. -/
structure SvcJob where
  cmd : Cmd
  test : Nat
  unit : Nat
  param : Nat
  /-- Elapsed time at which it began to run (R808). -/
  start : Nat
  deriving DecidableEq, Repr

structure SvcState where
  /-- The configuration in force at the entry into SERVICE, and the mode (R805). -/
  prior : ModeCfg
  mode : Nat
  tests : List SvcJob
  /-- Quadrants whose logic has been tested (R806). -/
  tested : List Nat
  deriving DecidableEq, Repr

def svc0 : SvcState := { prior := emptyCfg, mode := 0, tests := [], tested := [] }


/-! ## Stops -/

/-- Reasons of a fault. No command of this block ends in one: every effect the manual gives is taken, and an event that cannot happen in a state changes nothing but the time (log 6). -/
inductive Fault where
  /-- Raised by nobody; kept so that the type has a value. Safe. -/
  | none
  deriving DecidableEq, Repr

/-- Reasons of a refusal. -/
inductive Refusal where
  /-- A command that has no meaning yet, by its mnemonic. Raised by `exec` alone. Safe. -/
  | notModelled (mnemonic : String)
  deriving DecidableEq, Repr

/-! ## The whole -/

/-- The state of one ZM1152. -/
structure State where
  /-- Time of the timebase: ticks of TAI since the 1970 epoch (14_timebase_and_ptp.md R524). -/
  now : Nat
  /-- Elapsed time in ticks since the first cold start, for the manual's intervals: no step of the timebase moves it. -/
  mono : Nat
  pins : Pins
  /-- Registers by BAR0 byte address, where they differ from their reset value. -/
  regs : Tab Word
  /-- High halves held by R14, R317, R526 and R549 for the next read, by the address of the register that returns them. -/
  latch : Tab Word
  /-- The word that the last register read returned (00_scope.md R16). -/
  readData : Word
  cmd : CmdState
  evq : EvqState
  plan : PlanState
  take : TakeState
  port : PortState
  mem : MemState
  sched : List Sched
  trk : TrkState
  eth : EthState
  flow : FlowState
  ibx : IbxState
  comp : CompState
  aud : AudState
  ref : RefState
  plls : PllState
  time : TimeState
  pair : PairState
  fw : FwState
  flash : FlashState
  otp : OtpState
  sec : SecState
  mods : ModState
  therm : ThermState
  svc : SvcState
  /-- The instruction that the test access port executes (23_package_and_balls.md R799). -/
  jtag : JtagInstr
  /-- Counter of the values the manual leaves open: the next is `Config.freeValue free`. The model's own. -/
  free : Nat
  /-- Commands that wait to be taken, first in, first out. The model's own. -/
  pending : List Instr
  deriving DecidableEq, Repr

/-! ## After reset -/

def chan0 : Chan := { pend := [], outst := [], ring := [], head := 0, tail := 0, seq := 0, pass := 1 }

def evq0 : EvqState :=
  { host := chan0, sup := chan0, level := [], failed := none, msixMask := true, msixPend := false, msixSent := 0, saved := [], lineSaved := false }

def cmd0 : CmdState :=
  { expSeq := none, results := [], accCount := 0, fwq := [], waiting := [], ring := [], replyPass := 1, relayed := [], unread := [],
    headFresh := true, htx := [], htxStatus := [], hrx := [], hrxPass := 1 }

def tables0 : Tables := { flows := [], safe := [], colour := [], air := [] }

def plan0 : PlanState :=
  { slot := none, loading := none, committed := none, cfg := emptyCfg, oldCfg := emptyCfg, oldMem := [], oldTables := tables0, pending := none, patches := [], tables := tables0,
    safeUntil := [] }

def take0 : TakeState := { pend := [], jobs := [], nextJob := 0, salvos := [], lastFrame := [], chkEpoch := [], xRow := 0, xWords := [], sendBad := [] }

def mem0 : MemState := { fs := [], slates := [], upload := [], staged := [], fsConf := [], delays := [], scrubAt := [], corrected := [], stuck := [], repaired := [], ueEpoch := [] }

def time0 : TimeState := { conf := timeConf0, ptp := [], ptpUtc := none, utcNext := none, leapEnd := none, cap := [], sfdBusy := 0 }

/-- OTP as supplied (19_identity.md R693): an open serial number and floor, no owner key, no policy. -/
def otp0 : OtpState :=
  { serial := Config.serial, cert := Config.certificate, floor := Config.otpFloor, rising := [], slots := [ownerSlot0, ownerSlot0, ownerSlot0, ownerSlot0], ownerOnly := false }

/-- The ROM, and a security engine before the first cold start. -/
def sec0 : SecState := { romVersion := Config.romVersion, fwKeys := [Config.fwKeys 0, Config.fwKeys 1, Config.fwKeys 2, Config.fwKeys 3], root := Config.rootKey, key := 0 }

/-- An erased settings flash of the smallest size R678 allows (log 31). -/
def flash0 : FlashState := { mib := 32, slotA := none, slotB := none, ops := [], life := [], wear := [], eq := [] }

/-- Supplies good, RESET_N and RESCUE_N high, XO_27 running, slot 0, and the PCIe link not up yet (log 31). -/
def pins0 : Pins :=
  { vddLine := true, pwrGood := true, resetN := true, pairSel := false, rescueN := true, testMode := false, xoOk := true, thermAlert := false, pcieUp := false }

/-- The unit right after reset: every register at the reset value of its chapter, the plan, the banks and HBM empty (18_start_and_update.md R656), the time 0 (14_timebase_and_ptp.md R528; log 31). -/
def State.reset : State :=
  { now := 0, mono := 0, pins := pins0, regs := [], latch := [], readData := 0, cmd := cmd0, evq := evq0,
    plan := plan0, take := take0, port := { ins := [], outs := [] }, mem := mem0, sched := [],
    trk := { links := [], lanes := [], streams := [] }, eth := { ch := [] }, flow := { f := [] }, ibx := ibx0, comp := comp0, aud := aud0, ref := ref0,
    plls := { pll := [], fsGood := 0 }, time := time0, pair := pair0, fw := fw0, flash := flash0, otp := otp0, sec := sec0,
    mods := { cages := [], ledger := [] }, therm := therm0, svc := svc0, jtag := .bypass, free := 0, pending := [] }

end Sys2Proof.Machine
end

