-- ==== Sys2Proof/Machine/Bundle.lean ====
section
/-! DEFINITION. Plan bundles as bytes and as what they lay down for a mode: the entry formats of the published sections, the bundle's image and digest, and the configuration of a mode (01_compiled_plan.md R19 to R29). Opaque sections hold what log 181 says of each type. -/

namespace Sys2Proof.Machine

/-! ## Bytes -/

/-- Fields packed little-endian: each with its size in bytes. -/
def packLe : List (Nat × Nat) → Nat
  | [] => 0
  | (n, v) :: r => v % 2 ^ (8 * n) + packLe r * 2 ^ (8 * n)

/-- `n` bytes from byte `o` of an entry. -/
def byteFld (e o n : Nat) : Nat := nfld e (8 * o) (8 * n)

/-! ## Entries of the published sections -/

def encodeLeg (l : FlowLeg) : Nat :=
  packLe [(16, l.dstIp), (16, l.srcIp), (6, l.dstMac), (6, l.srcMac), (2, l.dstPort), (2, l.srcPort), (2, l.vlan), (1, l.dscp), (1, l.channel), (1, l.hops), (11, 0)]

def decodeLeg (e : Nat) : FlowLeg :=
  { dstIp := byteFld e 0 16, srcIp := byteFld e 16 16, dstMac := byteFld e 32 6, srcMac := byteFld e 38 6, dstPort := byteFld e 44 2,
    srcPort := byteFld e 46 2, vlan := byteFld e 48 2, dscp := byteFld e 50 1, channel := byteFld e 51 1, hops := byteFld e 52 1,
    zeroOk := decide (byteFld e 53 11 = 0) && decide (byteFld e 51 1 < 64) }

/-- A flow entry (08_media_flows.md R326, R327). -/
def encodeFlow (e : FlowEntry) : Nat :=
  packLe [(2, e.flags), (1, e.essence), (1, e.cls), (2, e.port), (1, e.pt), (1, e.audFirst), (1, e.audCount), (1, e.dly), (1, e.maxDiff), (1, e.transit),
    (4, e.ssrc), (2, e.payload), (2, e.ptime), (4, e.audBase), (8, 0), (64, encodeLeg e.red), (64, encodeLeg e.blue)]

def decodeFlow (e : Nat) : FlowEntry :=
  { flags := byteFld e 0 2, essence := byteFld e 2 1, cls := byteFld e 3 1, port := byteFld e 4 2, pt := byteFld e 6 1, audFirst := byteFld e 7 1,
    audCount := byteFld e 8 1, dly := byteFld e 9 1, maxDiff := byteFld e 10 1, transit := byteFld e 11 1, ssrc := byteFld e 12 4,
    payload := byteFld e 16 2, ptime := byteFld e 18 2, audBase := byteFld e 20 4, red := decodeLeg (byteFld e 32 64), blue := decodeLeg (byteFld e 96 64),
    zeroOk := decide (byteFld e 24 8 = 0) && decide (byteFld e 0 2 < 16) }

/-- A colour entry (03_port_pipelines.md R147). -/
def encodeColour (e : ColourEntry) : Nat :=
  packLe ((e.coef.map fun v => (4, twos 32 v)) ++ (e.ofsIn.map fun v => (2, twos 16 v)) ++ (e.ofsOut.map fun v => (2, twos 16 v)) ++ [(4, e.flags), (12, 0)])

def decodeColour (e : Nat) : ColourEntry :=
  { coef := (upto 0 9).map fun i => untwos 32 (byteFld e (4 * i) 4), ofsIn := (upto 0 3).map fun i => untwos 16 (byteFld e (36 + 2 * i) 2),
    ofsOut := (upto 0 3).map fun i => untwos 16 (byteFld e (42 + 2 * i) 2), flags := byteFld e 48 4, zeroOk := decide (byteFld e 52 12 = 0) }

/-- A memory allocation entry (04_frame_stores.md R194). -/
def encodeMem (e : MemEntry) : Nat :=
  packLe [(2, e.kind), (2, e.owner), (1, e.stack), (1, e.frames), (2, e.eq8), (8, e.base), (8, e.length), (1, e.userKind), (1, e.flags), (2, e.userIndex), (4, 0)]

/-- A trunk map entry (06_trunk_framing.md R277). -/
def encodeTrunk (e : TrunkEntry) : Nat := packLe [(1, e.kind + e.dir * 16 + e.lane * 32), (1, e.trunk), (1, e.b2), (1, e.b3), (2, e.w4), (2, e.w6)]

/-- A continuity record (R31): the head, and bit n of the bitmap for OUT_n. -/
def encodeCont (r : ContRec) : Nat := packLe [(1, r.fromMode), (1, r.toMode), (2, 0), (144, sumL ((distinct r.outputs).map fun n => 2 ^ n))]

/-- A shed list entry (21_supplies_and_thermal.md R744). -/
def encodeShed (e : ShedEntry) : Nat := packLe [(1, e.kind), (1, 0), (2, e.index), (2, e.power), (2, 0)]

/-- A layer geometry entry (10_composition.md R398). -/
def encodeLayer (e : LayerEntry) : Nat :=
  packLe [(2, e.head), (1, e.layer), (1, e.flags), (2, e.send), (2, e.alpha), (2, e.cropX), (2, e.cropY), (2, e.cropW), (2, e.cropH),
    (2, e.outX), (2, e.outY), (2, e.outW), (2, e.outH), (4, e.fill), (1, e.tset), (3, 0)]

/-- An entry of the reference configuration: entry 0 is that of 12_reference_selection.md R496, the others that of R497. -/
def encodeRef (k : Nat) (e : RefEntry) : Nat :=
  if k = 0 then
    packLe [(2, e.flags), (2, e.holdoff), (2, e.drift), (2, e.driftTime), (4, e.slew), (4, e.realign), (1, e.hoQl), (1, e.xoQl), (2, e.hoLimit), (12, 0)]
  else
    packLe [(1, e.flags), (1, e.holdoff), (1, e.drift), (1, e.driftTime), (4, e.slew), (4, e.realign), (4, twos 32 e.delayComp), (1, e.hoQl), (15, 0)]

/-- Bytes of an entry of each section type (R25 and the chapters it names). -/
def entryBytes (type : Nat) : Nat :=
  match type with
  | 5 => 160
  | 9 => 32
  | 12 => 64
  | 13 => 32
  | 15 => 32
  | 16 => 8
  | 17 => 148
  | 18 => 8
  | _ => 4

/-- Entries of `n` bytes one after the other. -/
def packEntries (n : Nat) (es : List Nat) : Nat := packLe (es.map fun e => (n, e))

/-- The bytes that a section's content stands for; none in an opaque section, whose bytes are not published. -/
def contentBytes (x : Content) : Nat :=
  match x with
  | .flows es => packEntries 160 (es.map encodeFlow)
  | .memory es => packEntries 32 (es.map encodeMem)
  | .routes es => packEntries 4 es
  | .safe es => packEntries 4 es
  | .colour es => packEntries 64 (es.map encodeColour)
  | .geometry es => packEntries 32 (es.map encodeLayer)
  | .air es => packEntries 4 es
  | .refs es => packEntries 32 (((upto 0 es.length).zip es).map fun p => encodeRef p.1 p.2)
  | .trunks es => packEntries 8 (es.map encodeTrunk)
  | .continuity es => packEntries 148 (es.map encodeCont)
  | .shed es => packEntries 8 (es.map encodeShed)
  | .power v => packEntries 4 [v]
  | .patterns | .slots .. | .ports .. | .packets .. | .tasks _ | .buffers _ | .audio .. => 0

end Sys2Proof.Machine

namespace Sys2Proof
open Machine

/-! ## Sections and the image of a bundle -/

/-- The LENGTH bytes of a section: its entries, with the bytes that they do not stand for. -/
def Section.bytes (x : Section) : Nat := (contentBytes x.content ||| x.extra) % 2 ^ (8 * x.length)

/-- The SHA-384 that a section's bytes have (R23). -/
def Section.actual (x : Section) : Nat := sha384 x.length x.bytes

/-- A section table entry (R23). -/
def encodeSection (x : Section) : Nat :=
  packLe [(2, x.type), (1, x.mode), (1, x.access), (4, x.offset), (4, x.length), (4, x.entries), (48, x.digest)]

/-- The plan bundle header (R22) without its reserved bytes. -/
def encodeHeader (b : Bundle) : Nat :=
  packLe [(4, b.magic), (2, b.fmtMajor), (2, b.fmtMinor), (4, b.hdrLen), (4, b.bundleLen), (8, b.planId), (4, b.generation), (4, b.compilerVer),
    (2, b.variant), (2, b.flags), (4, b.minFw), (2, b.rateNum), (2, b.rateDen), (2, b.sectionCount), (1, b.modeMask), (1, b.defaultMode),
    (48, b.predDigest), (4, b.sectTableOfs), (4, b.sigOfs), (4, b.sigLen)]

/-- The bytes of the bundle below the signature block: header, section table, sections, and what stands between them. -/
def Bundle.image (b : Bundle) : Nat :=
  let table := packEntries 64 (b.sections.map encodeSection) * 2 ^ (8 * b.sectTableOfs)
  b.sections.foldl (fun r x => r ||| x.bytes * 2 ^ (8 * x.offset)) (encodeHeader b ||| table ||| b.extra)

/-- The plan digest (R28): the SHA-384 of the bytes 0 up to SIG_OFS. -/
def Bundle.digest (b : Bundle) : Nat := sha384 b.sigOfs (b.image % 2 ^ (8 * b.sigOfs))

/-- The reserved bytes of the header are zero (R22). -/
def Bundle.reservedZero (b : Bundle) : Bool := decide (byteFld b.extra 0x6C 148 = 0)

def Bundle.signed (b : Bundle) : Bool := nbit b.flags 0

/-- Modes whose bits MODE_MASK sets, in ascending order (R22). -/
def Bundle.modeIds (b : Bundle) : List Nat := (upto 1 4).filter fun m => nbit b.modeMask m

def Bundle.section? (b : Bundle) (type mode : Nat) : Option Section :=
  b.sections.find? fun x => decide (x.type = type) && decide (x.mode = mode)

/-- The section of a type in force in a mode (R19): that of the mode's overlay, otherwise that of the base plan. -/
def Bundle.inForce (b : Bundle) (type mode : Nat) : Option Section := (b.section? type mode).or (b.section? type 0)

def Bundle.content? (b : Bundle) (type mode : Nat) : Option Content := (b.inForce type mode).map Section.content

/-- Modes in which a section is in force (R19): an overlay's own mode; for a base section those whose overlay does not replace it. -/
def Bundle.modesOf (b : Bundle) (x : Section) : List Nat :=
  if x.mode ≠ 0 then [x.mode] else b.modeIds.filter fun m => (b.section? x.type m).isNone

/-- Entries of the base sections. -/
def Bundle.flowTable (b : Bundle) : List FlowEntry := match b.content? 5 0 with | some (.flows es) => es | _ => []
def Bundle.safeTable (b : Bundle) : List Nat := match b.content? 11 0 with | some (.safe es) => es | _ => []
def Bundle.colourTable (b : Bundle) : List ColourEntry := match b.content? 12 0 with | some (.colour es) => es | _ => []
def Bundle.airTable (b : Bundle) : List Nat := match b.content? 14 0 with | some (.air es) => es | _ => []
def Bundle.routes (b : Bundle) : List Nat := match b.content? 10 0 with | some (.routes es) => es | _ => []
def Bundle.contRecs (b : Bundle) : List ContRec := match b.content? 17 0 with | some (.continuity es) => es | _ => []
def Bundle.refs? (b : Bundle) : Option (List RefEntry) := match b.content? 15 0 with | some (.refs es) => some es | _ => none


/-! ## Firmware bundles as bytes (18_start_and_update.md R660 to R662) -/

/-- A section's LENGTH bytes, and their SHA-384 (R661). -/
def FwSection.data (x : FwSection) : Nat := x.bytes % 2 ^ (8 * x.length)

def FwSection.actual (x : FwSection) : Nat := sha384 x.length x.data

/-- A section table entry (R661). -/
def encodeFwSection (x : FwSection) : Nat :=
  packLe [(2, x.type), (2, x.zeroA), (4, x.offset), (4, x.length), (4, x.zeroB), (48, x.digest)]

/-- The bundle header (R660) without its reserved bytes. -/
def encodeFwHeader (i : FwImage) : Nat :=
  packLe [(4, i.magic), (2, i.fmtMajor), (2, i.fmtMinor), (4, i.hdrLen), (4, i.bundleLen), (4, i.version), (4, i.floor), (2, i.variant),
    (2, i.sectionCount), (4, i.sectTableOfs), (4, i.sigOfs), (4, i.sigLen)]

/-- The bytes of the bundle below the signature block. -/
def FwImage.image (i : FwImage) : Nat :=
  let table := packEntries 64 (i.sections.map encodeFwSection) * 2 ^ (8 * i.sectTableOfs)
  i.sections.foldl (fun r x => r ||| x.data * 2 ^ (8 * x.offset)) (encodeFwHeader i ||| table ||| i.extra)

/-- The bundle digest (R662): the SHA-384 of the bytes 0 up to SIG_OFS. -/
def FwImage.digest (i : FwImage) : Nat := sha384 i.sigOfs (i.image % 2 ^ (8 * i.sigOfs))

/-- The reserved bytes of the header and of the signature block are zero (R660, R662). -/
def FwImage.reservedZero (i : FwImage) : Bool := decide (byteFld i.extra 0x28 216 = 0) && decide (i.sigZero = 0)

/-- The signature verifies under the ROM key that KEY_ID names (R662). -/
def fwSigOk (keys : List Nat) (i : FwImage) : Bool := ((nth? keys i.keyId).map fun k => ecdsaOver k i.sigR i.sigS i.digest).getD false

end Sys2Proof

namespace Sys2Proof.Machine

/-! ## What a bundle lays down for a mode (R19) -/

/-- A configuration with what one opaque section holds. -/
def cfgWith (c : ModeCfg) : Option Content → ModeCfg
  | some (.slots sends returns) => { c with sends := sends, returns := returns }
  | some (.ports inputs outputs groups) => { c with inputs := inputs, outputs := outputs, groups := groups }
  | some (.packets eths rates) => { c with eths := eths, ancRate := rates }
  | some (.tasks es) => { c with tasks := es }
  | some (.buffers es) => { c with heads := es }
  | some (.audio rate used routes) => { c with audioRate := rate, audioUsed := used, audioRoutes := routes }
  | _ => c

/-- The running configuration of mode `mode`, as far as the opaque sections lay it down. -/
def modeCfgOf (b : Option Bundle) (mode : Nat) : ModeCfg :=
  match b with
  | none => emptyCfg
  | some b => ([1, 3, 4, 6, 7, 8].map fun t => b.content? t mode).foldl cfgWith { emptyCfg with mode := mode }

/-- The memory allocation of a mode (04_frame_stores.md R194). -/
def memEntries (b : Option Bundle) (mode : Nat) : List MemEntry :=
  match b.bind fun b => b.content? 9 mode with
  | some (.memory es) => es
  | _ => []

/-- The trunk map of a mode (06_trunk_framing.md R277). -/
def trunkEntries (b : Option Bundle) (mode : Nat) : List TrunkEntry :=
  match b.bind fun b => b.content? 16 mode with
  | some (.trunks es) => es
  | _ => []

/-- The shed list of a mode (21_supplies_and_thermal.md R744). -/
def shedList (b : Option Bundle) (mode : Nat) : List ShedEntry :=
  match b.bind fun b => b.content? 18 mode with
  | some (.shed es) => es
  | _ => []

/-- AWAKE of a mode's quadrant power map; without one all four are awake (21_supplies_and_thermal.md R736). -/
def awakeMap (b : Option Bundle) (mode : Nat) : Nat :=
  match b.bind fun b => b.content? 19 mode with
  | some (.power v) => v % 16
  | _ => 15

/-- The layer geometry section of exactly this mode's overlay, or of the base plan for mode 0 (10_composition.md R398). -/
def geoOf (b : Option Bundle) (mode : Nat) : Option (List LayerEntry) :=
  match b.bind fun b => b.section? 13 mode with
  | some x => (match x.content with | .geometry es => some es | _ => some [])
  | none => none

end Sys2Proof.Machine
end

