-- ==== Sys2Proof/Machine/RegMap.lean ====
section
/-! DEFINITION. The register maps: the BAR0 address of every named register (22_supervisor_interconnect.md R763, R764) and one row per register of every chapter's map with its reset value and the bits of each access code (00_scope.md R15, R16). -/

namespace Sys2Proof.Machine

/-! ## Addresses (BAR0 byte offsets) -/

/-- `fabStatus`, R121. -/
def Reg.fabStatus (q : Nat) : Nat := 0x100000 * q + 0
/-- `fabChkTotal`, R118. -/
def Reg.fabChkTotal (q : Nat) : Nat := 0x100000 * q + 4
/-- `fabInvalidTotal`, R118. -/
def Reg.fabInvalidTotal (q : Nat) : Nat := 0x100000 * q + 8
/-- `fabLastFail`, R122. -/
def Reg.fabLastFail (q : Nat) : Nat := 0x100000 * q + 0xC
/-- `fabPassChk`, R118. -/
def Reg.fabPassChk (q i : Nat) : Nat := 0x100000 * q + 0x10 + 4 * i
/-- `fabDestCnt`, R123. -/
def Reg.fabDestCnt (q i : Nat) : Nat := 0x100000 * q + 0x400 + 4 * i
/-- `pinStatus`, R157. -/
def Reg.pinStatus (n : Nat) : Nat := 0x100000 * (n / 288) + 0x10000 + 0x20 * (n % 288)
/-- `pinVpid`, R158. -/
def Reg.pinVpid (n : Nat) : Nat := 0x100000 * (n / 288) + 0x10004 + 0x20 * (n % 288)
/-- `pinTiming`, R159. -/
def Reg.pinTiming (n : Nat) : Nat := 0x100000 * (n / 288) + 0x10008 + 0x20 * (n % 288)
/-- `pinAudStatus`, R160. -/
def Reg.pinAudStatus (n : Nat) : Nat := 0x100000 * (n / 288) + 0x1000C + 0x20 * (n % 288)
/-- `pinCrcErr`, R161. -/
def Reg.pinCrcErr (n : Nat) : Nat := 0x100000 * (n / 288) + 0x10010 + 0x20 * (n % 288)
/-- `pinLinesInvalid`, R161. -/
def Reg.pinLinesInvalid (n : Nat) : Nat := 0x100000 * (n / 288) + 0x10014 + 0x20 * (n % 288)
/-- `pinAncCnt`, R161. -/
def Reg.pinAncCnt (n : Nat) : Nat := 0x100000 * (n / 288) + 0x10018 + 0x20 * (n % 288)
/-- `poutStatus`, R162. -/
def Reg.poutStatus (n : Nat) : Nat := 0x100000 * (n / 288) + 0x14000 + 0x20 * (n % 288)
/-- `poutVpid`, R162. -/
def Reg.poutVpid (n : Nat) : Nat := 0x100000 * (n / 288) + 0x14004 + 0x20 * (n % 288)
/-- `poutSafe`, R149. -/
def Reg.poutSafe (n : Nat) : Nat := 0x100000 * (n / 288) + 0x14008 + 0x20 * (n % 288)
/-- `poutLinesRepl`, R161. -/
def Reg.poutLinesRepl (n : Nat) : Nat := 0x100000 * (n / 288) + 0x14010 + 0x20 * (n % 288)
/-- `poutAncCnt`, R161. -/
def Reg.poutAncCnt (n : Nat) : Nat := 0x100000 * (n / 288) + 0x14014 + 0x20 * (n % 288)
/-- `pgrpInStatus`, R163. -/
def Reg.pgrpInStatus (n : Nat) : Nat := 0x100000 * (n / 72) + 0x18000 + 4 * (n % 72)
/-- `pgrpOutStatus`, R163. -/
def Reg.pgrpOutStatus (n : Nat) : Nat := 0x100000 * (n / 72) + 0x18200 + 4 * (n % 72)
/-- `memStatus`, R198. -/
def Reg.memStatus (q : Nat) : Nat := 0x100000 * q + 0x20000
/-- `memScrubCtrl`, R199. -/
def Reg.memScrubCtrl (q : Nat) : Nat := 0x100000 * q + 0x20004
/-- `memScrubPasses`, R197. -/
def Reg.memScrubPasses (q : Nat) : Nat := 0x100000 * q + 0x20008
/-- `memCeCnt`, R197. -/
def Reg.memCeCnt (q : Nat) : Nat := 0x100000 * q + 0x2000C
/-- `memUeCnt`, R197. -/
def Reg.memUeCnt (q : Nat) : Nat := 0x100000 * q + 0x20010
/-- `memUsed`, R197. -/
def Reg.memUsed (q : Nat) : Nat := 0x100000 * q + 0x20014
/-- `memLastErrLo`, R197. -/
def Reg.memLastErrLo (q : Nat) : Nat := 0x100000 * q + 0x20018
/-- `memLastErrHi`, R199. -/
def Reg.memLastErrHi (q : Nat) : Nat := 0x100000 * q + 0x2001C
/-- `memBwAlloc`, R197. -/
def Reg.memBwAlloc (q : Nat) : Nat := 0x100000 * q + 0x20020
/-- `fsStatus`, R200. -/
def Reg.fsStatus (q i : Nat) : Nat := 0x100000 * q + 0x20400 + 0x10 * i
/-- `fsRepeat`, R197. -/
def Reg.fsRepeat (q i : Nat) : Nat := 0x100000 * q + 0x20404 + 0x10 * i
/-- `fsDrop`, R197. -/
def Reg.fsDrop (q i : Nat) : Nat := 0x100000 * q + 0x20408 + 0x10 * i
/-- `fsLatency`, R197. -/
def Reg.fsLatency (q i : Nat) : Nat := 0x100000 * q + 0x2040C + 0x10 * i
/-- `dlyStatus`, R201. -/
def Reg.dlyStatus (n : Nat) : Nat := 0x100000 * (n / 288) + 0x22000 + 4 * (n % 288)
/-- `trkLinkCtrl`, R246. -/
def Reg.trkLinkCtrl (n : Nat) : Nat := 0x100000 * (n / 18) + 0x30000 + 0x20 * (n % 18)
/-- `trkLinkStatus`, R247. -/
def Reg.trkLinkStatus (n : Nat) : Nat := 0x100000 * (n / 18) + 0x30004 + 0x20 * (n % 18)
/-- `trkLinkMsg`, R248. -/
def Reg.trkLinkMsg (n : Nat) : Nat := 0x100000 * (n / 18) + 0x30008 + 0x20 * (n % 18)
/-- `trkLinkLimits`, R249. -/
def Reg.trkLinkLimits (n : Nat) : Nat := 0x100000 * (n / 18) + 0x3000C + 0x20 * (n % 18)
/-- `trkLinkCnt`, R249. -/
def Reg.trkLinkCnt (n : Nat) : Nat := 0x100000 * (n / 18) + 0x30010 + 0x20 * (n % 18)
/-- `trkLaneCtrl`, R250. -/
def Reg.trkLaneCtrl (n : Nat) : Nat := 0x100000 * (n / 144) + 0x31000 + 0x40 * (n % 144)
/-- `trkLaneStatus`, R251. -/
def Reg.trkLaneStatus (n : Nat) : Nat := 0x100000 * (n / 144) + 0x31004 + 0x40 * (n % 144)
/-- `trkLaneEdge`, R251. -/
def Reg.trkLaneEdge (n : Nat) : Nat := 0x100000 * (n / 144) + 0x31008 + 0x40 * (n % 144)
/-- `trkLaneSherr`, R245. -/
def Reg.trkLaneSherr (n : Nat) : Nat := 0x100000 * (n / 144) + 0x3100C + 0x40 * (n % 144)
/-- `trkLaneSkew`, R251. -/
def Reg.trkLaneSkew (n : Nat) : Nat := 0x100000 * (n / 144) + 0x31010 + 0x40 * (n % 144)
/-- `trkPrbsRx`, R252. -/
def Reg.trkPrbsRx (n : Nat) : Nat := 0x100000 * (n / 144) + 0x31014 + 0x40 * (n % 144)
/-- `trkPrbsErrLo`, R245. -/
def Reg.trkPrbsErrLo (n : Nat) : Nat := 0x100000 * (n / 144) + 0x31018 + 0x40 * (n % 144)
/-- `trkPrbsErrHi`, R245. -/
def Reg.trkPrbsErrHi (n : Nat) : Nat := 0x100000 * (n / 144) + 0x3101C + 0x40 * (n % 144)
/-- `trkPrbsBitsLo`, R245. -/
def Reg.trkPrbsBitsLo (n : Nat) : Nat := 0x100000 * (n / 144) + 0x31020 + 0x40 * (n % 144)
/-- `trkPrbsBitsHi`, R245. -/
def Reg.trkPrbsBitsHi (n : Nat) : Nat := 0x100000 * (n / 144) + 0x31024 + 0x40 * (n % 144)
/-- `trkTxFfe`, R253. -/
def Reg.trkTxFfe (n : Nat) : Nat := 0x100000 * (n / 144) + 0x34000 + 0x10 * (n % 144)
/-- `trkTxCtrl`, R252. -/
def Reg.trkTxCtrl (n : Nat) : Nat := 0x100000 * (n / 144) + 0x34004 + 0x10 * (n % 144)
/-- `trkTxCk`, R212. -/
def Reg.trkTxCk (n : Nat) : Nat := 0x100000 * (n / 18) + 0x35000 + 4 * (n % 18)
/-- `trkRxHdr`, R293. -/
def Reg.trkRxHdr (n : Nat) : Nat := 0x100000 * (n / 18) + 0x36000 + 0x20 * (n % 18)
/-- `trkRxFcntLo`, R292. -/
def Reg.trkRxFcntLo (n : Nat) : Nat := 0x100000 * (n / 18) + 0x36004 + 0x20 * (n % 18)
/-- `trkRxFcntHi`, R292. -/
def Reg.trkRxFcntHi (n : Nat) : Nat := 0x100000 * (n / 18) + 0x36008 + 0x20 * (n % 18)
/-- `trkGrpStatus`, R294. -/
def Reg.trkGrpStatus (n : Nat) : Nat := 0x100000 * (n / 18) + 0x3600C + 0x20 * (n % 18)
/-- `trkGrpCnt`, R286. -/
def Reg.trkGrpCnt (n : Nat) : Nat := 0x100000 * (n / 18) + 0x36010 + 0x20 * (n % 18)
/-- `trkTxHdr`, R295. -/
def Reg.trkTxHdr (n : Nat) : Nat := 0x100000 * (n / 18) + 0x36014 + 0x20 * (n % 18)
/-- `trkMbxStatus`, R296. -/
def Reg.trkMbxStatus (n : Nat) : Nat := 0x100000 * (n / 18) + 0x36018 + 0x20 * (n % 18)
/-- `trkMbxData`, R297. -/
def Reg.trkMbxData (n : Nat) : Nat := 0x100000 * (n / 18) + 0x3601C + 0x20 * (n % 18)
/-- `trkLaneFrm`, R292. -/
def Reg.trkLaneFrm (n : Nat) : Nat := 0x100000 * (n / 144) + 0x37000 + 0x10 * (n % 144)
/-- `trkLaneMaperr`, R292. -/
def Reg.trkLaneMaperr (n : Nat) : Nat := 0x100000 * (n / 144) + 0x37004 + 0x10 * (n % 144)
/-- `ethPortCtrl`, R318. -/
def Reg.ethPortCtrl (n : Nat) : Nat := 0x100000 * (n / 4) + 0x40000 + 0x10 * (n % 4)
/-- `ethPortStatus`, R319. -/
def Reg.ethPortStatus (n : Nat) : Nat := 0x100000 * (n / 4) + 0x40004 + 0x10 * (n % 4)
/-- `ethStatLo`, R317. -/
def Reg.ethStatLo (n k : Nat) : Nat := 0x100000 * (n / 16) + 0x41000 + 0x100 * (n % 16) + 8 * k
/-- `ethStatHi`, R317. -/
def Reg.ethStatHi (n k : Nat) : Nat := 0x100000 * (n / 16) + 0x41004 + 0x100 * (n % 16) + 8 * k
/-- `ethChStatus`, R320. -/
def Reg.ethChStatus (n : Nat) : Nat := 0x100000 * (n / 16) + 0x410C0 + 0x100 * (n % 16)
/-- `ethPbufLevel`, R317. -/
def Reg.ethPbufLevel (n : Nat) : Nat := 0x100000 * (n / 16) + 0x410C4 + 0x100 * (n % 16)
/-- `ethPbufHigh`, R317. -/
def Reg.ethPbufHigh (n : Nat) : Nat := 0x100000 * (n / 16) + 0x410C8 + 0x100 * (n % 16)
/-- `ethPauseLeft`, R317. -/
def Reg.ethPauseLeft (n : Nat) : Nat := 0x100000 * (n / 16) + 0x410CC + 0x100 * (n % 16)
/-- `ibxSummary`, R387. -/
def Reg.ibxSummary (q : Nat) : Nat := 0x100000 * q + 0x50000
/-- `ibxStFails`, R387. -/
def Reg.ibxStFails (q : Nat) : Nat := 0x100000 * q + 0x50004
/-- `ibxStatus`, R388. -/
def Reg.ibxStatus (n : Nat) : Nat := 0x100000 * (n / 32) + 0x50100 + 0x10 * (n % 32)
/-- `ibxLoad`, R389. -/
def Reg.ibxLoad (n : Nat) : Nat := 0x100000 * (n / 32) + 0x50104 + 0x10 * (n % 32)
/-- `ibxEcc`, R387. -/
def Reg.ibxEcc (n : Nat) : Nat := 0x100000 * (n / 32) + 0x50108 + 0x10 * (n % 32)
/-- `ibxCtrl`, R390. -/
def Reg.ibxCtrl (n : Nat) : Nat := 0x100000 * (n / 32) + 0x5010C + 0x10 * (n % 32)
/-- `compStatus`, R422. -/
def Reg.compStatus (q : Nat) : Nat := 0x100000 * q + 0x60000
/-- `compRebuilds`, R422. -/
def Reg.compRebuilds (q : Nat) : Nat := 0x100000 * q + 0x60004
/-- `compHeadStatus`, R423. -/
def Reg.compHeadStatus (n : Nat) : Nat := 0x100000 * (n / 24) + 0x60100 + 0x10 * (n % 24)
/-- `compHeadLb`, R422. -/
def Reg.compHeadLb (n : Nat) : Nat := 0x100000 * (n / 24) + 0x60104 + 0x10 * (n % 24)
/-- `compLayerStatus`, R424. -/
def Reg.compLayerStatus (n k : Nat) : Nat := 0x100000 * (n / 24) + 0x61000 + 0x100 * (n % 24) + 8 * k
/-- `compLayerCnt`, R422. -/
def Reg.compLayerCnt (n k : Nat) : Nat := 0x100000 * (n / 24) + 0x61004 + 0x100 * (n % 24) + 8 * k
/-- `cmdCtrl`, R631. -/
def Reg.cmdCtrl : Nat := 0x400000
/-- `cmdStatus`, R632. -/
def Reg.cmdStatus : Nat := 0x400004
/-- `cmdRingBaseLo`, R630. -/
def Reg.cmdRingBaseLo : Nat := 0x400008
/-- `cmdRingBaseHi`, R630. -/
def Reg.cmdRingBaseHi : Nat := 0x40000C
/-- `replyRingBaseLo`, R630. -/
def Reg.replyRingBaseLo : Nat := 0x400010
/-- `replyRingBaseHi`, R630. -/
def Reg.replyRingBaseHi : Nat := 0x400014
/-- `htxRingBaseLo`, R630. -/
def Reg.htxRingBaseLo : Nat := 0x400018
/-- `htxRingBaseHi`, R630. -/
def Reg.htxRingBaseHi : Nat := 0x40001C
/-- `hrxRingBaseLo`, R630. -/
def Reg.hrxRingBaseLo : Nat := 0x400020
/-- `hrxRingBaseHi`, R630. -/
def Reg.hrxRingBaseHi : Nat := 0x400024
/-- `cmdRingSize`, R633. -/
def Reg.cmdRingSize : Nat := 0x400028
/-- `cmdTail`, R601. -/
def Reg.cmdTail : Nat := 0x400030
/-- `cmdHead`, R601. -/
def Reg.cmdHead : Nat := 0x400034
/-- `replyHead`, R611. -/
def Reg.replyHead : Nat := 0x400038
/-- `replyTail`, R608. -/
def Reg.replyTail : Nat := 0x40003C
/-- `htxTail`, R626. -/
def Reg.htxTail : Nat := 0x400040
/-- `htxHead`, R626. -/
def Reg.htxHead : Nat := 0x400044
/-- `hrxTail`, R627. -/
def Reg.hrxTail : Nat := 0x400048
/-- `hrxHead`, R627. -/
def Reg.hrxHead : Nat := 0x40004C
/-- `cmdAccepted`, R630. -/
def Reg.cmdAccepted : Nat := 0x400050
/-- `cmdRefused`, R630. -/
def Reg.cmdRefused : Nat := 0x400054
/-- `cmdWaiting`, R630. -/
def Reg.cmdWaiting : Nat := 0x400058
/-- `cmdPendingTags`, R630. -/
def Reg.cmdPendingTags : Nat := 0x40005C
/-- `evqCtrl`, R654. -/
def Reg.evqCtrl : Nat := 0x401000
/-- `evqStatus`, R655. -/
def Reg.evqStatus : Nat := 0x401004
/-- `evqRingBaseLo`, R649. -/
def Reg.evqRingBaseLo : Nat := 0x401008
/-- `evqRingBaseHi`, R649. -/
def Reg.evqRingBaseHi : Nat := 0x40100C
/-- `evqRingSize`, R639. -/
def Reg.evqRingSize : Nat := 0x401010
/-- `evqHead`, R643. -/
def Reg.evqHead : Nat := 0x401014
/-- `evqTail`, R653. -/
def Reg.evqTail : Nat := 0x401018
/-- `evqSeq`, R640. -/
def Reg.evqSeq : Nat := 0x40101C
/-- `evqPendingCnt`, R653. -/
def Reg.evqPendingCnt : Nat := 0x401020
/-- `evqCommitted`, R653. -/
def Reg.evqCommitted : Nat := 0x401024
/-- `evqMask`, R641. -/
def Reg.evqMask (n : Nat) : Nat := 0x401100 + 4 * n
/-- `evqPend`, R653. -/
def Reg.evqPend (n : Nat) : Nat := 0x401200 + 4 * n
/-- `evqLevel`, R653. -/
def Reg.evqLevel (n : Nat) : Nat := 0x401300 + 4 * n
/-- `evqOutst`, R653. -/
def Reg.evqOutst (n : Nat) : Nat := 0x401400 + 4 * n
/-- `planState`, R71. -/
def Reg.planState : Nat := 0x402000
/-- `planLastStatus`, R70. -/
def Reg.planLastStatus : Nat := 0x402004
/-- `planGenCommitted`, R70. -/
def Reg.planGenCommitted : Nat := 0x402008
/-- `planGenLoaded`, R70. -/
def Reg.planGenLoaded : Nat := 0x40200C
/-- `planApplyFrameLo`, R70. -/
def Reg.planApplyFrameLo : Nat := 0x402010
/-- `planApplyFrameHi`, R70. -/
def Reg.planApplyFrameHi : Nat := 0x402014
/-- `planCommitFrameLo`, R70. -/
def Reg.planCommitFrameLo : Nat := 0x402018
/-- `planCommitFrameHi`, R70. -/
def Reg.planCommitFrameHi : Nat := 0x40201C
/-- `planHouseRate`, R70. -/
def Reg.planHouseRate : Nat := 0x402020
/-- `planPatchGen`, R70. -/
def Reg.planPatchGen : Nat := 0x402024
/-- `planRejects`, R70. -/
def Reg.planRejects : Nat := 0x402028
/-- `planEpochLo`, R67. -/
def Reg.planEpochLo : Nat := 0x402030
/-- `planEpochHi`, R67. -/
def Reg.planEpochHi : Nat := 0x402034
/-- `planDigestCommitted`, R70. -/
def Reg.planDigestCommitted (n : Nat) : Nat := 0x402040 + 4 * n
/-- `planDigestLoaded`, R70. -/
def Reg.planDigestLoaded (n : Nat) : Nat := 0x402070 + 4 * n
/-- `fwStatus`, R687. -/
def Reg.fwStatus : Nat := 0x403000
/-- `fwVerRun`, R686. -/
def Reg.fwVerRun : Nat := 0x403004
/-- `fwVerStaged`, R686. -/
def Reg.fwVerStaged : Nat := 0x403008
/-- `fwVerRom`, R686. -/
def Reg.fwVerRom : Nat := 0x40300C
/-- `fwFloor`, R686. -/
def Reg.fwFloor : Nat := 0x403010
/-- `fwWindowLeft`, R686. -/
def Reg.fwWindowLeft : Nat := 0x403014
/-- `fwBoot`, R688. -/
def Reg.fwBoot : Nat := 0x403018
/-- `setStatus`, R689. -/
def Reg.setStatus : Nat := 0x40301C
/-- `fwDigestRun`, R686. -/
def Reg.fwDigestRun (n : Nat) : Nat := 0x403040 + 4 * n
/-- `fwDigestStaged`, R686. -/
def Reg.fwDigestStaged (n : Nat) : Nat := 0x403070 + 4 * n
/-- `idStatus`, R705. -/
def Reg.idStatus : Nat := 0x404000
/-- `idSerialLo`, R704. -/
def Reg.idSerialLo : Nat := 0x404004
/-- `idSerialHi`, R704. -/
def Reg.idSerialHi : Nat := 0x404008
/-- `idOtp`, R706. -/
def Reg.idOtp : Nat := 0x40400C
/-- `idAttests`, R704. -/
def Reg.idAttests : Nat := 0x404010
/-- `idKeyDigest`, R704. -/
def Reg.idKeyDigest (n : Nat) : Nat := 0x404040 + 4 * n
/-- `refStatus`, R500. -/
def Reg.refStatus : Nat := 0x405000
/-- `refSlewLeft`, R499. -/
def Reg.refSlewLeft : Nat := 0x405004
/-- `refPhaseErr`, R499. -/
def Reg.refPhaseErr : Nat := 0x405008
/-- `refHoFreq`, R499. -/
def Reg.refHoFreq : Nat := 0x40500C
/-- `refBw`, R499. -/
def Reg.refBw : Nat := 0x405010
/-- `refSwitches`, R499. -/
def Reg.refSwitches : Nat := 0x405014
/-- `refCandStatus`, R501. -/
def Reg.refCandStatus (n : Nat) : Nat := 0x405100 + 0x10 * n
/-- `refCandOfs`, R499. -/
def Reg.refCandOfs (n : Nat) : Nat := 0x405104 + 0x10 * n
/-- `refCandXo`, R499. -/
def Reg.refCandXo (n : Nat) : Nat := 0x405108 + 0x10 * n
/-- `refCandTimer`, R499. -/
def Reg.refCandTimer (n : Nat) : Nat := 0x40510C + 0x10 * n
/-- `tmbNowNs`, R526. -/
def Reg.tmbNowNs : Nat := 0x406000
/-- `tmbNowSecLo`, R526. -/
def Reg.tmbNowSecLo : Nat := 0x406004
/-- `tmbNowSecHi`, R526. -/
def Reg.tmbNowSecHi : Nat := 0x406008
/-- `tmbNowFrac`, R526. -/
def Reg.tmbNowFrac : Nat := 0x40600C
/-- `tmbUtc`, R546. -/
def Reg.tmbUtc : Nat := 0x406010
/-- `tmbStatus`, R547. -/
def Reg.tmbStatus : Nat := 0x406014
/-- `ptpStatus`, R548. -/
def Reg.ptpStatus (n : Nat) : Nat := 0x406100 + 0x20 * n
/-- `ptpOffset`, R546. -/
def Reg.ptpOffset (n : Nat) : Nat := 0x406104 + 0x20 * n
/-- `ptpPath`, R546. -/
def Reg.ptpPath (n : Nat) : Nat := 0x406108 + 0x20 * n
/-- `ptpGmLo`, R546. -/
def Reg.ptpGmLo (n : Nat) : Nat := 0x40610C + 0x20 * n
/-- `ptpGmHi`, R546. -/
def Reg.ptpGmHi (n : Nat) : Nat := 0x406110 + 0x20 * n
/-- `ptpCnt`, R546. -/
def Reg.ptpCnt (n : Nat) : Nat := 0x406114 + 0x20 * n
/-- `ptpDiscard`, R532. -/
def Reg.ptpDiscard (n : Nat) : Nat := 0x406118 + 0x20 * n
/-- `ptpRxOfs`, R539. -/
def Reg.ptpRxOfs (n : Nat) : Nat := 0x40611C + 0x20 * n
/-- `capCtrl`, R549. -/
def Reg.capCtrl (n : Nat) : Nat := 0x406400 + 0x10 * n
/-- `capNs`, R549. -/
def Reg.capNs (n : Nat) : Nat := 0x406404 + 0x10 * n
/-- `capSec`, R549. -/
def Reg.capSec (n : Nat) : Nat := 0x406408 + 0x10 * n
/-- `capFrac`, R549. -/
def Reg.capFrac (n : Nat) : Nat := 0x40640C + 0x10 * n
/-- `pllCtrl`, R521. -/
def Reg.pllCtrl (n : Nat) : Nat := 0x407000 + 0x10 * n
/-- `pllStatus`, R522. -/
def Reg.pllStatus (n : Nat) : Nat := 0x407004 + 0x10 * n
/-- `pllCnt`, R520. -/
def Reg.pllCnt (n : Nat) : Nat := 0x407008 + 0x10 * n
/-- `pllLockTime`, R520. -/
def Reg.pllLockTime (n : Nat) : Nat := 0x40700C + 0x10 * n
/-- `islKeepalive`, R520. -/
def Reg.islKeepalive (n : Nat) : Nat := 0x407200 + 4 * n
/-- `islSeen`, R520. -/
def Reg.islSeen (n : Nat) : Nat := 0x407210 + 4 * n
/-- `pllSyncStatus`, R523. -/
def Reg.pllSyncStatus : Nat := 0x407220
/-- `pairCtrl`, R595. -/
def Reg.pairCtrl : Nat := 0x408000
/-- `pairStatus`, R596. -/
def Reg.pairStatus : Nat := 0x408004
/-- `pairClaim`, R594. -/
def Reg.pairClaim : Nat := 0x408008
/-- `pairHealth`, R597. -/
def Reg.pairHealth : Nat := 0x40800C
/-- `pairOffset`, R594. -/
def Reg.pairOffset : Nat := 0x408010
/-- `pairSwitches`, R594. -/
def Reg.pairSwitches : Nat := 0x408014
/-- `pairCmpCnt`, R594. -/
def Reg.pairCmpCnt : Nat := 0x408018
/-- `pairCmpOwn`, R594. -/
def Reg.pairCmpOwn : Nat := 0x40801C
/-- `pairLastMis`, R594. -/
def Reg.pairLastMis : Nat := 0x408020
/-- `pairPartnerSnLo`, R594. -/
def Reg.pairPartnerSnLo : Nat := 0x408024
/-- `pairPartnerSnHi`, R594. -/
def Reg.pairPartnerSnHi : Nat := 0x408028
/-- `pairMirAuth`, R594. -/
def Reg.pairMirAuth : Nat := 0x40802C
/-- `pairPinSnLo`, R594. -/
def Reg.pairPinSnLo : Nat := 0x408030
/-- `pairPinSnHi`, R594. -/
def Reg.pairPinSnHi : Nat := 0x408034
/-- `mirRailCnt`, R594. -/
def Reg.mirRailCnt (n : Nat) : Nat := 0x408040 + 8 * n
/-- `mirRailState`, R594. -/
def Reg.mirRailState (n : Nat) : Nat := 0x408044 + 8 * n
/-- `mirLinkStatus`, R247. -/
def Reg.mirLinkStatus : Nat := 0x408100
/-- `mirLinkMsg`, R248. -/
def Reg.mirLinkMsg : Nat := 0x408104
/-- `mirLaneFrm`, R594. -/
def Reg.mirLaneFrm (n : Nat) : Nat := 0x408110 + 4 * n
/-- `audPlaneStatus`, R458. -/
def Reg.audPlaneStatus : Nat := 0x409000
/-- `audChkTotal`, R457. -/
def Reg.audChkTotal : Nat := 0x409004
/-- `audChkLast`, R457. -/
def Reg.audChkLast : Nat := 0x409008
/-- `audXfades`, R457. -/
def Reg.audXfades : Nat := 0x40900C
/-- `audSampleLo`, R457. -/
def Reg.audSampleLo : Nat := 0x409010
/-- `audSampleHi`, R457. -/
def Reg.audSampleHi : Nat := 0x409014
/-- `audPortCtrl`, R459. -/
def Reg.audPortCtrl (n : Nat) : Nat := 0x409100 + 0x40 * n
/-- `audPortStatus`, R460. -/
def Reg.audPortStatus (n : Nat) : Nat := 0x409104 + 0x40 * n
/-- `audRxMaskLo`, R457. -/
def Reg.audRxMaskLo (n : Nat) : Nat := 0x409108 + 0x40 * n
/-- `audRxMaskHi`, R457. -/
def Reg.audRxMaskHi (n : Nat) : Nat := 0x40910C + 0x40 * n
/-- `audTxMaskLo`, R457. -/
def Reg.audTxMaskLo (n : Nat) : Nat := 0x409110 + 0x40 * n
/-- `audTxMaskHi`, R457. -/
def Reg.audTxMaskHi (n : Nat) : Nat := 0x409114 + 0x40 * n
/-- `audRxActLo`, R457. -/
def Reg.audRxActLo (n : Nat) : Nat := 0x409118 + 0x40 * n
/-- `audRxActHi`, R457. -/
def Reg.audRxActHi (n : Nat) : Nat := 0x40911C + 0x40 * n
/-- `audTxActLo`, R457. -/
def Reg.audTxActLo (n : Nat) : Nat := 0x409120 + 0x40 * n
/-- `audTxActHi`, R457. -/
def Reg.audTxActHi (n : Nat) : Nat := 0x409124 + 0x40 * n
/-- `audRxRatio`, R457. -/
def Reg.audRxRatio (n : Nat) : Nat := 0x409128 + 0x40 * n
/-- `audTxRatio`, R457. -/
def Reg.audTxRatio (n : Nat) : Nat := 0x40912C + 0x40 * n
/-- `audRxXrun`, R457. -/
def Reg.audRxXrun (n : Nat) : Nat := 0x409130 + 0x40 * n
/-- `audTxXrun`, R457. -/
def Reg.audTxXrun (n : Nat) : Nat := 0x409134 + 0x40 * n
/-- `sicMap`, R774. -/
def Reg.sicMap : Nat := 0x40A000
/-- `sicStatus`, R775. -/
def Reg.sicStatus : Nat := 0x40A004
/-- `sicErrAddrLo`, R773. -/
def Reg.sicErrAddrLo : Nat := 0x40A008
/-- `sicErrAddrHi`, R773. -/
def Reg.sicErrAddrHi : Nat := 0x40A00C
/-- `sicErrInfo`, R775. -/
def Reg.sicErrInfo : Nat := 0x40A010
/-- `sicErrCnt`, R773. -/
def Reg.sicErrCnt : Nat := 0x40A014
/-- `sicResetCnt`, R773. -/
def Reg.sicResetCnt : Nat := 0x40A018
/-- `prbStatus`, R391. -/
def Reg.prbStatus (n : Nat) : Nat := 0x40C000 + 0x10 * n
/-- `prbLoud`, R387. -/
def Reg.prbLoud (n : Nat) : Nat := 0x40C004 + 0x10 * n
/-- `prbInteg`, R387. -/
def Reg.prbInteg (n : Nat) : Nat := 0x40C008 + 0x10 * n
/-- `takeStatus`, R119. -/
def Reg.takeStatus : Nat := 0x440000
/-- `takeAccepted`, R118. -/
def Reg.takeAccepted : Nat := 0x440004
/-- `takeCommitted`, R118. -/
def Reg.takeCommitted : Nat := 0x440008
/-- `takeSlipped`, R118. -/
def Reg.takeSlipped : Nat := 0x44000C
/-- `takeRefused`, R118. -/
def Reg.takeRefused : Nat := 0x440010
/-- `takeSuperseded`, R118. -/
def Reg.takeSuperseded : Nat := 0x440014
/-- `takeFwdLate`, R118. -/
def Reg.takeFwdLate : Nat := 0x440018
/-- `takeLastFrameLo`, R118. -/
def Reg.takeLastFrameLo : Nat := 0x440020
/-- `takeLastFrameHi`, R118. -/
def Reg.takeLastFrameHi : Nat := 0x440024
/-- `takeLastDest`, R118. -/
def Reg.takeLastDest : Nat := 0x440028
/-- `takeRoute`, R120. -/
def Reg.takeRoute (n k : Nat) : Nat := 0x450000 + 0x40 * n + 4 * k
/-- `flowSummary`, R360. -/
def Reg.flowSummary : Nat := 0x480000
/-- `flowStatus`, R361. -/
def Reg.flowStatus (n : Nat) : Nat := 0x490000 + 0x40 * n
/-- `flowDiff`, R349. -/
def Reg.flowDiff (n : Nat) : Nat := 0x490004 + 0x40 * n
/-- `flowSlack`, R360. -/
def Reg.flowSlack (n : Nat) : Nat := 0x490008 + 0x40 * n
/-- `flowStatLo`, R317. -/
def Reg.flowStatLo (n k : Nat) : Nat := 0x490010 + 0x40 * n + 8 * k
/-- `flowStatHi`, R317. -/
def Reg.flowStatHi (n k : Nat) : Nat := 0x490014 + 0x40 * n + 8 * k
/-- `flowLate`, R360. -/
def Reg.flowLate (n : Nat) : Nat := 0x490028 + 0x40 * n
/-- `flowLost`, R360. -/
def Reg.flowLost (n : Nat) : Nat := 0x49002C + 0x40 * n
/-- `flowEarly`, R360. -/
def Reg.flowEarly (n : Nat) : Nat := 0x490030 + 0x40 * n
/-- `flowReject`, R360. -/
def Reg.flowReject (n : Nat) : Nat := 0x490034 + 0x40 * n
/-- `flowTxHeld`, R351. -/
def Reg.flowTxHeld (n : Nat) : Nat := 0x490038 + 0x40 * n
/-- `modCageStatus`, R727. -/
def Reg.modCageStatus (n : Nat) : Nat := 0x800000 + 0x10 * n
/-- `modLife`, R726. -/
def Reg.modLife (n : Nat) : Nat := 0x800004 + 0x10 * n
/-- `modMon`, R726. -/
def Reg.modMon (n : Nat) : Nat := 0x800008 + 0x10 * n
/-- `modLaserSec`, R717. -/
def Reg.modLaserSec (n : Nat) : Nat := 0x80000C + 0x10 * n
/-- `modEol`, R723. -/
def Reg.modEol : Nat := 0x800100
/-- `modEa`, R723. -/
def Reg.modEa : Nat := 0x800104
/-- `modLedgerStatus`, R728. -/
def Reg.modLedgerStatus : Nat := 0x800108
/-- `thmStatus`, R755. -/
def Reg.thmStatus : Nat := 0x801000
/-- `thmMax`, R754. -/
def Reg.thmMax : Nat := 0x801004
/-- `thmShed`, R756. -/
def Reg.thmShed : Nat := 0x801008
/-- `thmPower`, R754. -/
def Reg.thmPower : Nat := 0x80100C
/-- `pwrQuad`, R757. -/
def Reg.pwrQuad : Nat := 0x801010
/-- `wearLo`, R752. -/
def Reg.wearLo : Nat := 0x801020
/-- `wearHi`, R752. -/
def Reg.wearHi : Nat := 0x801024
/-- `wearHot`, R752. -/
def Reg.wearHot : Nat := 0x801028
/-- `wearEvents`, R752. -/
def Reg.wearEvents : Nat := 0x80102C
/-- `thmSensor`, R758. -/
def Reg.thmSensor (n : Nat) : Nat := 0x801100 + 4 * n

/-! ## Rows -/

/-- A row of a register map: offset within its window, two nested instance strides and counts, reset value, RW, RW1C and RC bits; `pair` marks the low word of a value that R14 latches, `stat` a statistics LO register (07_ethernet_ports.md R317). -/
structure RegDef where
  off : Nat
  s1 : Nat
  c1 : Nat
  s2 : Nat
  c2 : Nat
  reset : Word
  rw : Word
  w1c : Word
  rc : Word
  pair : Bool
  stat : Bool
  deriving DecidableEq, Repr

/-- The row describes the register at offset `o` of its window. -/
def RegDef.hit (d : RegDef) (o : Nat) : Bool :=
  decide (d.off ≤ o) && decide ((o - d.off) / d.s1 < d.c1) && decide ((o - d.off) % d.s1 / d.s2 < d.c2)
    && decide ((o - d.off) % d.s1 % d.s2 = 0)

/-- The FAB block. -/
def regsFab : List RegDef := [
  ⟨0, 4, 1, 4, 1, 0, 0, 0x300, 0, false, false⟩,
  ⟨4, 4, 1, 4, 1, 0, 0, 0, 0xFFFFFFFF, false, false⟩,
  ⟨8, 4, 1, 4, 1, 0, 0, 0, 0xFFFFFFFF, false, false⟩,
  ⟨0xC, 4, 1, 4, 1, 0, 0, 0, 0, false, false⟩,
  ⟨0x10, 4, 4, 4, 1, 0, 0, 0, 0xFFFFFFFF, false, false⟩,
  ⟨0x400, 4, 352, 4, 1, 0, 0, 0, 0xFFFFFFFF, false, false⟩]

/-- The PORT block. -/
def regsPort : List RegDef := [
  ⟨0x10000, 0x20, 288, 4, 1, 0, 0, 0xC00, 0, false, false⟩,
  ⟨0x10004, 0x20, 288, 4, 1, 0, 0, 0, 0, false, false⟩,
  ⟨0x10008, 0x20, 288, 4, 1, 0, 0, 0, 0, false, false⟩,
  ⟨0x1000C, 0x20, 288, 4, 1, 0, 0, 0x70000, 0, false, false⟩,
  ⟨0x10010, 0x20, 288, 4, 1, 0, 0, 0, 0xFFFFFFFF, false, false⟩,
  ⟨0x10014, 0x20, 288, 4, 1, 0, 0, 0, 0xFFFFFFFF, false, false⟩,
  ⟨0x10018, 0x20, 288, 4, 1, 0, 0, 0, 0xFFFFFFFF, false, false⟩,
  ⟨0x1001C, 0x20, 288, 4, 1, 0, 0, 0, 0, false, false⟩,
  ⟨0x14000, 0x20, 288, 4, 1, 0, 0, 0xC0, 0, false, false⟩,
  ⟨0x14004, 0x20, 288, 4, 1, 0, 0, 0, 0, false, false⟩,
  ⟨0x14008, 0x20, 288, 4, 1, 0, 0, 0, 0, false, false⟩,
  ⟨0x1400C, 0x20, 288, 4, 1, 0, 0, 0, 0, false, false⟩,
  ⟨0x14010, 0x20, 288, 4, 1, 0, 0, 0, 0xFFFFFFFF, false, false⟩,
  ⟨0x14014, 0x20, 288, 4, 1, 0, 0, 0, 0xFFFFFFFF, false, false⟩,
  ⟨0x14018, 0x20, 288, 4, 2, 0, 0, 0, 0, false, false⟩,
  ⟨0x18000, 4, 72, 4, 1, 0, 0, 0x200, 0, false, false⟩,
  ⟨0x18200, 4, 72, 4, 1, 0, 0, 0x200, 0, false, false⟩]

/-- The MEM block. -/
def regsMem : List RegDef := [
  ⟨0x20000, 4, 1, 4, 1, 0, 0, 0x1C, 0, false, false⟩,
  ⟨0x20004, 4, 1, 4, 1, 0x401, 0xFF01, 0, 0, false, false⟩,
  ⟨0x20008, 4, 1, 4, 1, 0, 0, 0, 0, false, false⟩,
  ⟨0x2000C, 4, 1, 4, 1, 0, 0, 0, 0xFFFFFFFF, false, false⟩,
  ⟨0x20010, 4, 1, 4, 1, 0, 0, 0, 0xFFFFFFFF, false, false⟩,
  ⟨0x20014, 4, 1, 4, 1, 0, 0, 0, 0, false, false⟩,
  ⟨0x20018, 4, 1, 4, 1, 0, 0, 0, 0, true, false⟩,
  ⟨0x2001C, 4, 1, 4, 1, 0, 0, 0, 0, false, false⟩,
  ⟨0x20020, 4, 1, 4, 1, 0, 0, 0, 0, false, false⟩,
  ⟨0x20400, 0x10, 352, 4, 1, 0, 0, 0x20, 0, false, false⟩,
  ⟨0x20404, 0x10, 352, 4, 1, 0, 0, 0, 0xFFFFFFFF, false, false⟩,
  ⟨0x20408, 0x10, 352, 4, 1, 0, 0, 0, 0xFFFFFFFF, false, false⟩,
  ⟨0x2040C, 0x10, 352, 4, 1, 0, 0, 0, 0xFF000000, false, false⟩,
  ⟨0x22000, 4, 288, 4, 1, 0, 0, 0, 0, false, false⟩]

/-- The TRK block. -/
def regsTrk : List RegDef := [
  ⟨0x30000, 0x20, 18, 4, 1, 0x30, 0x73, 0, 0, false, false⟩,
  ⟨0x30004, 0x20, 18, 4, 1, 0, 0, 0x6C00, 0, false, false⟩,
  ⟨0x30008, 0x20, 18, 4, 1, 0, 0, 0, 0, false, false⟩,
  ⟨0x3000C, 0x20, 18, 4, 1, 0xC0010, 0x3FFFFF, 0, 0, false, false⟩,
  ⟨0x30010, 0x20, 18, 4, 1, 0, 0, 0, 0xFFFFFFFF, false, false⟩,
  ⟨0x30014, 0x20, 18, 4, 3, 0, 0, 0, 0, false, false⟩,
  ⟨0x31000, 0x40, 144, 4, 1, 0x20, 0x373F, 0, 0, false, false⟩,
  ⟨0x31004, 0x40, 144, 4, 1, 0, 0, 0xC, 0, false, false⟩,
  ⟨0x31008, 0x40, 144, 4, 1, 0, 0, 0, 0, false, false⟩,
  ⟨0x3100C, 0x40, 144, 4, 1, 0, 0, 0, 0xFFFFFFFF, false, false⟩,
  ⟨0x31010, 0x40, 144, 4, 1, 0, 0x3F0000, 0, 0, false, false⟩,
  ⟨0x31014, 0x40, 144, 4, 1, 0, 7, 0, 0, false, false⟩,
  ⟨0x31018, 0x40, 144, 4, 1, 0, 0, 0, 0xFFFFFFFF, true, false⟩,
  ⟨0x3101C, 0x40, 144, 4, 1, 0, 0, 0, 0xFFFF, false, false⟩,
  ⟨0x31020, 0x40, 144, 4, 1, 0, 0, 0, 0xFFFFFFFF, true, false⟩,
  ⟨0x31024, 0x40, 144, 4, 1, 0, 0, 0, 0xFFFF, false, false⟩,
  ⟨0x31028, 0x40, 144, 4, 6, 0, 0, 0, 0, false, false⟩,
  ⟨0x34000, 0x10, 144, 4, 1, 0x8300C04, 0x1F001F1F, 0, 0, false, false⟩,
  ⟨0x34004, 0x10, 144, 4, 1, 0, 7, 0, 0, false, false⟩,
  ⟨0x34008, 0x10, 144, 4, 2, 0, 0, 0, 0, false, false⟩,
  ⟨0x35000, 4, 18, 4, 1, 8, 0x1F, 0, 0, false, false⟩,
  ⟨0x36000, 0x20, 18, 4, 1, 0, 0, 0, 0, false, false⟩,
  ⟨0x36004, 0x20, 18, 4, 1, 0, 0, 0, 0, true, false⟩,
  ⟨0x36008, 0x20, 18, 4, 1, 0, 0, 0, 0, false, false⟩,
  ⟨0x3600C, 0x20, 18, 4, 1, 0, 0, 0x3000000, 0, false, false⟩,
  ⟨0x36010, 0x20, 18, 4, 1, 0, 0, 0, 0xFFFFFFFF, false, false⟩,
  ⟨0x36014, 0x20, 18, 4, 1, 0, 0, 0, 0, false, false⟩,
  ⟨0x36018, 0x20, 18, 4, 1, 0x1000000, 0, 0x600, 0, false, false⟩,
  ⟨0x3601C, 0x20, 18, 4, 1, 0, 0, 0, 0, false, false⟩,
  ⟨0x37000, 0x10, 144, 4, 1, 0, 0, 0, 0xFFFFFFFF, false, false⟩,
  ⟨0x37004, 0x10, 144, 4, 1, 0, 0, 0, 0xFFFFFFFF, false, false⟩,
  ⟨0x37008, 0x10, 144, 4, 2, 0, 0, 0, 0, false, false⟩]

/-- The ETH block. -/
def regsEth : List RegDef := [
  ⟨0x40000, 0x10, 4, 4, 1, 1, 3, 0, 0, false, false⟩,
  ⟨0x40004, 0x10, 4, 4, 1, 0, 0, 8, 0, false, false⟩,
  ⟨0x40008, 0x10, 4, 4, 2, 0, 0, 0, 0, false, false⟩,
  ⟨0x41000, 0x100, 16, 8, 17, 0, 0, 0, 0xFFFFFFFF, false, true⟩,
  ⟨0x41004, 0x100, 16, 8, 17, 0, 0, 0, 0xFFFFFFFF, false, false⟩,
  ⟨0x410C0, 0x100, 16, 4, 1, 0, 0, 0x1C, 0, false, false⟩,
  ⟨0x410C4, 0x100, 16, 4, 1, 0, 0, 0, 0, false, false⟩,
  ⟨0x410C8, 0x100, 16, 4, 1, 0, 0, 0, 0x3FFFFF, false, false⟩,
  ⟨0x410CC, 0x100, 16, 4, 1, 0, 0, 0, 0, false, false⟩]

/-- The IBX block. -/
def regsIbx : List RegDef := [
  ⟨0x50000, 4, 1, 4, 1, 0, 0, 0, 0, false, false⟩,
  ⟨0x50004, 4, 1, 4, 1, 0, 0, 0, 0xFFFFFFFF, false, false⟩,
  ⟨0x50100, 0x10, 32, 4, 1, 0, 0, 0x70, 0, false, false⟩,
  ⟨0x50104, 0x10, 32, 4, 1, 0, 0, 0, 0, false, false⟩,
  ⟨0x50108, 0x10, 32, 4, 1, 0, 0, 0, 0xFFFFFFFF, false, false⟩,
  ⟨0x5010C, 0x10, 32, 4, 1, 0, 0, 0, 0, false, false⟩]

/-- The COMP block. -/
def regsComp : List RegDef := [
  ⟨0x60000, 4, 1, 4, 1, 0, 0, 0, 0, false, false⟩,
  ⟨0x60004, 4, 1, 4, 1, 0, 0, 0, 0xFFFFFFFF, false, false⟩,
  ⟨0x60100, 0x10, 24, 4, 1, 0, 0, 0x40, 0, false, false⟩,
  ⟨0x60104, 0x10, 24, 4, 1, 0, 0, 0, 0, false, false⟩,
  ⟨0x60108, 0x10, 24, 4, 2, 0, 0, 0, 0, false, false⟩,
  ⟨0x61000, 0x100, 24, 8, 21, 0, 0, 0x60, 0, false, false⟩,
  ⟨0x61004, 0x100, 24, 8, 21, 0, 0, 0, 0xFFFFFFFF, false, false⟩]

/-- The CMD block. -/
def regsCmd : List RegDef := [
  ⟨0, 4, 1, 4, 1, 0, 3, 0, 0, false, false⟩,
  ⟨4, 4, 1, 4, 1, 0, 0, 0xF8, 0, false, false⟩,
  ⟨8, 4, 1, 4, 1, 0, 0xFFFFFFFF, 0, 0, false, false⟩,
  ⟨0xC, 4, 1, 4, 1, 0, 0xFFFFFFFF, 0, 0, false, false⟩,
  ⟨0x10, 4, 1, 4, 1, 0, 0xFFFFFFFF, 0, 0, false, false⟩,
  ⟨0x14, 4, 1, 4, 1, 0, 0xFFFFFFFF, 0, 0, false, false⟩,
  ⟨0x18, 4, 1, 4, 1, 0, 0xFFFFFFFF, 0, 0, false, false⟩,
  ⟨0x1C, 4, 1, 4, 1, 0, 0xFFFFFFFF, 0, 0, false, false⟩,
  ⟨0x20, 4, 1, 4, 1, 0, 0xFFFFFFFF, 0, 0, false, false⟩,
  ⟨0x24, 4, 1, 4, 1, 0, 0xFFFFFFFF, 0, 0, false, false⟩,
  ⟨0x28, 4, 1, 4, 1, 0xCCCC, 0xFFFF, 0, 0, false, false⟩,
  ⟨0x30, 4, 1, 4, 1, 0, 0xFFF, 0, 0, false, false⟩,
  ⟨0x34, 4, 1, 4, 1, 0, 0, 0, 0, false, false⟩,
  ⟨0x38, 4, 1, 4, 1, 0, 0xFFF, 0, 0, false, false⟩,
  ⟨0x3C, 4, 1, 4, 1, 0, 0, 0, 0, false, false⟩,
  ⟨0x40, 4, 1, 4, 1, 0, 0xFFF, 0, 0, false, false⟩,
  ⟨0x44, 4, 1, 4, 1, 0, 0, 0, 0, false, false⟩,
  ⟨0x48, 4, 1, 4, 1, 0, 0xFFF, 0, 0, false, false⟩,
  ⟨0x4C, 4, 1, 4, 1, 0, 0, 0, 0, false, false⟩,
  ⟨0x50, 4, 1, 4, 1, 0, 0, 0, 0xFFFFFFFF, false, false⟩,
  ⟨0x54, 4, 1, 4, 1, 0, 0, 0, 0xFFFFFFFF, false, false⟩,
  ⟨0x58, 4, 1, 4, 1, 0, 0, 0, 0, false, false⟩,
  ⟨0x5C, 4, 1, 4, 1, 0, 0, 0, 0, false, false⟩]

/-- The EVQ block. -/
def regsEvq : List RegDef := [
  ⟨0x1000, 4, 1, 4, 1, 0, 3, 0, 0, false, false⟩,
  ⟨0x1004, 4, 1, 4, 1, 0, 0, 0x3C, 0, false, false⟩,
  ⟨0x1008, 4, 1, 4, 1, 0, 0xFFFFFFFF, 0, 0, false, false⟩,
  ⟨0x100C, 4, 1, 4, 1, 0, 0xFFFFFFFF, 0, 0, false, false⟩,
  ⟨0x1010, 4, 1, 4, 1, 0xC, 0xF, 0, 0, false, false⟩,
  ⟨0x1014, 4, 1, 4, 1, 0, 0xFFF, 0, 0, false, false⟩,
  ⟨0x1018, 4, 1, 4, 1, 0, 0, 0, 0, false, false⟩,
  ⟨0x101C, 4, 1, 4, 1, 0, 0, 0, 0, false, false⟩,
  ⟨0x1020, 4, 1, 4, 1, 0, 0, 0, 0, false, false⟩,
  ⟨0x1024, 4, 1, 4, 1, 0, 0, 0, 0xFFFFFFFF, false, false⟩,
  ⟨0x1100, 4, 64, 4, 1, 0xFFFFFFFF, 0xFFFFFFFF, 0, 0, false, false⟩,
  ⟨0x1200, 4, 64, 4, 1, 0, 0, 0, 0, false, false⟩,
  ⟨0x1300, 4, 64, 4, 1, 0, 0, 0, 0, false, false⟩,
  ⟨0x1400, 4, 64, 4, 1, 0, 0, 0, 0, false, false⟩]

/-- The PLAN block. -/
def regsPlan : List RegDef := [
  ⟨0x2000, 4, 1, 4, 1, 0, 0, 0, 0, false, false⟩,
  ⟨0x2004, 4, 1, 4, 1, 0xFF0000, 0, 0, 0, false, false⟩,
  ⟨0x2008, 4, 1, 4, 1, 0, 0, 0, 0, false, false⟩,
  ⟨0x200C, 4, 1, 4, 1, 0, 0, 0, 0, false, false⟩,
  ⟨0x2010, 4, 1, 4, 1, 0, 0, 0, 0, true, false⟩,
  ⟨0x2014, 4, 1, 4, 1, 0, 0, 0, 0, false, false⟩,
  ⟨0x2018, 4, 1, 4, 1, 0, 0, 0, 0, true, false⟩,
  ⟨0x201C, 4, 1, 4, 1, 0, 0, 0, 0, false, false⟩,
  ⟨0x2020, 4, 1, 4, 1, 0, 0, 0, 0, false, false⟩,
  ⟨0x2024, 4, 1, 4, 1, 0, 0, 0, 0, false, false⟩,
  ⟨0x2028, 4, 1, 4, 1, 0, 0, 0, 0xFFFFFFFF, false, false⟩,
  ⟨0x202C, 4, 1, 4, 1, 0, 0, 0, 0, false, false⟩,
  ⟨0x2030, 4, 1, 4, 1, 0, 0, 0, 0, true, false⟩,
  ⟨0x2034, 4, 1, 4, 1, 0, 0, 0, 0, false, false⟩,
  ⟨0x2040, 4, 12, 4, 1, 0, 0, 0, 0, false, false⟩,
  ⟨0x2070, 4, 12, 4, 1, 0, 0, 0, 0, false, false⟩]

/-- The FW block. -/
def regsFw : List RegDef := [
  ⟨0x3000, 4, 1, 4, 1, 0, 0, 0x100, 0, false, false⟩,
  ⟨0x3004, 4, 1, 4, 1, 0, 0, 0, 0, false, false⟩,
  ⟨0x3008, 4, 1, 4, 1, 0, 0, 0, 0, false, false⟩,
  ⟨0x300C, 4, 1, 4, 1, 0, 0, 0, 0, false, false⟩,
  ⟨0x3010, 4, 1, 4, 1, 0, 0, 0, 0, false, false⟩,
  ⟨0x3014, 4, 1, 4, 1, 0, 0, 0, 0, false, false⟩,
  ⟨0x3018, 4, 1, 4, 1, 0, 0, 0, 0, false, false⟩,
  ⟨0x301C, 4, 1, 4, 1, 0, 0, 0x10, 0, false, false⟩,
  ⟨0x3040, 4, 12, 4, 1, 0, 0, 0, 0, false, false⟩,
  ⟨0x3070, 4, 12, 4, 1, 0, 0, 0, 0, false, false⟩]

/-- The ID block. -/
def regsId : List RegDef := [
  ⟨0x4000, 4, 1, 4, 1, 0, 0, 8, 0, false, false⟩,
  ⟨0x4004, 4, 1, 4, 1, 0, 0, 0, 0, true, false⟩,
  ⟨0x4008, 4, 1, 4, 1, 0, 0, 0, 0, false, false⟩,
  ⟨0x400C, 4, 1, 4, 1, 0, 0, 0, 0, false, false⟩,
  ⟨0x4010, 4, 1, 4, 1, 0, 0, 0, 0xFFFFFFFF, false, false⟩,
  ⟨0x4040, 4, 12, 4, 1, 0, 0, 0, 0, false, false⟩]

/-- The REF block. -/
def regsRef : List RegDef := [
  ⟨0x5000, 4, 1, 4, 1, 0, 0, 0x30000, 0, false, false⟩,
  ⟨0x5004, 4, 1, 4, 1, 0, 0, 0, 0, false, false⟩,
  ⟨0x5008, 4, 1, 4, 1, 0, 0, 0, 0, false, false⟩,
  ⟨0x500C, 4, 1, 4, 1, 0, 0, 0, 0, false, false⟩,
  ⟨0x5010, 4, 1, 4, 1, 0, 0, 0, 0, false, false⟩,
  ⟨0x5014, 4, 1, 4, 1, 0, 0, 0, 0xFFFFFFFF, false, false⟩,
  ⟨0x5018, 4, 2, 4, 1, 0, 0, 0, 0, false, false⟩,
  ⟨0x5100, 0x10, 8, 4, 1, 0, 0, 0x70000, 0, false, false⟩,
  ⟨0x5104, 0x10, 8, 4, 1, 0, 0, 0, 0, false, false⟩,
  ⟨0x5108, 0x10, 8, 4, 1, 0, 0, 0, 0, false, false⟩,
  ⟨0x510C, 0x10, 8, 4, 1, 0, 0, 0, 0, false, false⟩]

/-- The TMB block. -/
def regsTmb : List RegDef := [
  ⟨0x6000, 4, 1, 4, 1, 0, 0, 0, 0, false, false⟩,
  ⟨0x6004, 4, 1, 4, 1, 0, 0, 0, 0, false, false⟩,
  ⟨0x6008, 4, 1, 4, 1, 0, 0, 0, 0, false, false⟩,
  ⟨0x600C, 4, 1, 4, 1, 0, 0, 0, 0, false, false⟩,
  ⟨0x6010, 4, 1, 4, 1, 0x25, 0, 0, 0, false, false⟩,
  ⟨0x6014, 4, 1, 4, 1, 0, 0, 8, 0, false, false⟩,
  ⟨0x6100, 0x20, 2, 4, 1, 0, 0, 0x1000000, 0, false, false⟩,
  ⟨0x6104, 0x20, 2, 4, 1, 0, 0, 0, 0, false, false⟩,
  ⟨0x6108, 0x20, 2, 4, 1, 0, 0, 0, 0, false, false⟩,
  ⟨0x610C, 0x20, 2, 4, 1, 0, 0, 0, 0, true, false⟩,
  ⟨0x6110, 0x20, 2, 4, 1, 0, 0, 0, 0, false, false⟩,
  ⟨0x6114, 0x20, 2, 4, 1, 0, 0, 0, 0xFFFFFFFF, false, false⟩,
  ⟨0x6118, 0x20, 2, 4, 1, 0, 0, 0, 0xFFFFFFFF, false, false⟩,
  ⟨0x611C, 0x20, 2, 4, 1, 0, 0xFFFFF, 0, 0, false, false⟩,
  ⟨0x6400, 0x10, 16, 4, 1, 0, 0xFFFF0003, 0, 0, false, false⟩,
  ⟨0x6404, 0x10, 16, 4, 1, 0, 0, 0, 0, false, false⟩,
  ⟨0x6408, 0x10, 16, 4, 1, 0, 0, 0, 0, false, false⟩,
  ⟨0x640C, 0x10, 16, 4, 1, 0, 0, 0, 0xFFFF0000, false, false⟩]

/-- The PLL block. -/
def regsPll : List RegDef := [
  ⟨0x7000, 0x10, 20, 4, 1, 0xC0100, 0x37F1FFF, 0, 0, false, false⟩,
  ⟨0x7004, 0x10, 20, 4, 1, 0, 0, 0x70, 0, false, false⟩,
  ⟨0x7008, 0x10, 20, 4, 1, 0, 0, 0, 0xFFFFFFFF, false, false⟩,
  ⟨0x700C, 0x10, 20, 4, 1, 0, 0, 0, 0, false, false⟩,
  ⟨0x7200, 4, 4, 4, 1, 0, 0, 0, 0, false, false⟩,
  ⟨0x7210, 4, 4, 4, 1, 0, 0, 0xFFFFFFFF, 0, false, false⟩,
  ⟨0x7220, 4, 1, 4, 1, 0, 0, 4, 0, false, false⟩]

/-- The PAIR block. -/
def regsPair : List RegDef := [
  ⟨0x8000, 4, 1, 4, 1, 8, 0x7F, 0, 0, false, false⟩,
  ⟨0x8004, 4, 1, 4, 1, 0, 0, 0x1800, 0, false, false⟩,
  ⟨0x8008, 4, 1, 4, 1, 0, 0, 0, 0, false, false⟩,
  ⟨0x800C, 4, 1, 4, 1, 0, 0, 0, 0, false, false⟩,
  ⟨0x8010, 4, 1, 4, 1, 0, 0, 0, 0, false, false⟩,
  ⟨0x8014, 4, 1, 4, 1, 0, 0, 0, 0xFFFFFFFF, false, false⟩,
  ⟨0x8018, 4, 1, 4, 1, 0, 0, 0, 0xFFFFFFFF, false, false⟩,
  ⟨0x801C, 4, 1, 4, 1, 0, 0, 0, 0xFFFFFFFF, false, false⟩,
  ⟨0x8020, 4, 1, 4, 1, 0, 0, 0, 0, false, false⟩,
  ⟨0x8024, 4, 1, 4, 1, 0, 0, 0, 0, true, false⟩,
  ⟨0x8028, 4, 1, 4, 1, 0, 0, 0, 0, false, false⟩,
  ⟨0x802C, 4, 1, 4, 1, 0, 0, 0, 0xFFFFFFFF, false, false⟩,
  ⟨0x8030, 4, 1, 4, 1, 0, 0xFFFFFFFF, 0, 0, true, false⟩,
  ⟨0x8034, 4, 1, 4, 1, 0, 0xFFFFFFFF, 0, 0, false, false⟩,
  ⟨0x8040, 8, 2, 4, 1, 0, 0, 0, 0xFFFFFFFF, false, false⟩,
  ⟨0x8044, 8, 2, 4, 1, 0, 0, 0, 0xFFFF, false, false⟩,
  ⟨0x8100, 4, 1, 4, 1, 0, 0, 0x6C00, 0, false, false⟩,
  ⟨0x8104, 4, 1, 4, 1, 0, 0, 0, 0, false, false⟩,
  ⟨0x8110, 4, 4, 4, 1, 0, 0, 0, 0xFFFFFFFF, false, false⟩]

/-- The AUD block. -/
def regsAud : List RegDef := [
  ⟨0x9000, 4, 1, 4, 1, 0, 0, 4, 0, false, false⟩,
  ⟨0x9004, 4, 1, 4, 1, 0, 0, 0, 0xFFFFFFFF, false, false⟩,
  ⟨0x9008, 4, 1, 4, 1, 0, 0, 0, 0, false, false⟩,
  ⟨0x900C, 4, 1, 4, 1, 0, 0, 0, 0xFFFFFFFF, false, false⟩,
  ⟨0x9010, 4, 1, 4, 1, 0, 0, 0, 0, true, false⟩,
  ⟨0x9014, 4, 1, 4, 1, 0, 0, 0, 0, false, false⟩,
  ⟨0x9100, 0x40, 4, 4, 1, 0x100, 0xFFF, 0, 0, false, false⟩,
  ⟨0x9104, 0x40, 4, 4, 1, 0, 0, 0x1300, 0, false, false⟩,
  ⟨0x9108, 0x40, 4, 4, 1, 0, 0xFFFFFFFF, 0, 0, true, false⟩,
  ⟨0x910C, 0x40, 4, 4, 1, 0, 0xFFFFFFFF, 0, 0, false, false⟩,
  ⟨0x9110, 0x40, 4, 4, 1, 0, 0xFFFFFFFF, 0, 0, true, false⟩,
  ⟨0x9114, 0x40, 4, 4, 1, 0, 0xFFFFFFFF, 0, 0, false, false⟩,
  ⟨0x9118, 0x40, 4, 4, 1, 0, 0, 0, 0, true, false⟩,
  ⟨0x911C, 0x40, 4, 4, 1, 0, 0, 0, 0, false, false⟩,
  ⟨0x9120, 0x40, 4, 4, 1, 0, 0, 0, 0, true, false⟩,
  ⟨0x9124, 0x40, 4, 4, 1, 0, 0, 0, 0, false, false⟩,
  ⟨0x9128, 0x40, 4, 4, 1, 0, 0, 0, 0, false, false⟩,
  ⟨0x912C, 0x40, 4, 4, 1, 0, 0, 0, 0, false, false⟩,
  ⟨0x9130, 0x40, 4, 4, 1, 0, 0, 0, 0xFFFFFFFF, false, false⟩,
  ⟨0x9134, 0x40, 4, 4, 1, 0, 0, 0, 0xFFFFFFFF, false, false⟩,
  ⟨0x9138, 0x40, 4, 4, 2, 0, 0, 0, 0, false, false⟩]

/-- The SIC block. -/
def regsSic : List RegDef := [
  ⟨0xA000, 4, 1, 4, 1, 0, 0, 0, 0, false, false⟩,
  ⟨0xA004, 4, 1, 4, 1, 0, 0, 7, 0, false, false⟩,
  ⟨0xA008, 4, 1, 4, 1, 0, 0, 0, 0, true, false⟩,
  ⟨0xA00C, 4, 1, 4, 1, 0, 0, 0, 0, false, false⟩,
  ⟨0xA010, 4, 1, 4, 1, 0, 0, 0, 0, false, false⟩,
  ⟨0xA014, 4, 1, 4, 1, 0, 0, 0, 0xFFFFFFFF, false, false⟩,
  ⟨0xA018, 4, 1, 4, 1, 0, 0, 0, 0xFFFFFFFF, false, false⟩]

/-- The PRB block. -/
def regsPrb : List RegDef := [
  ⟨0xC000, 0x10, 512, 4, 1, 0, 0, 0x40, 0, false, false⟩,
  ⟨0xC004, 0x10, 512, 4, 1, 0, 0, 0, 0, false, false⟩,
  ⟨0xC008, 0x10, 512, 4, 1, 0, 0, 0, 0, false, false⟩,
  ⟨0xC00C, 0x10, 512, 4, 1, 0, 0, 0, 0, false, false⟩]

/-- The TAKE block. -/
def regsTake : List RegDef := [
  ⟨0x40000, 4, 1, 4, 1, 0, 0, 0x100000, 0, false, false⟩,
  ⟨0x40004, 4, 1, 4, 1, 0, 0, 0, 0xFFFFFFFF, false, false⟩,
  ⟨0x40008, 4, 1, 4, 1, 0, 0, 0, 0xFFFFFFFF, false, false⟩,
  ⟨0x4000C, 4, 1, 4, 1, 0, 0, 0, 0xFFFFFFFF, false, false⟩,
  ⟨0x40010, 4, 1, 4, 1, 0, 0, 0, 0xFFFFFFFF, false, false⟩,
  ⟨0x40014, 4, 1, 4, 1, 0, 0, 0, 0xFFFFFFFF, false, false⟩,
  ⟨0x40018, 4, 1, 4, 1, 0, 0, 0, 0xFFFFFFFF, false, false⟩,
  ⟨0x4001C, 4, 1, 4, 1, 0, 0, 0, 0, false, false⟩,
  ⟨0x40020, 4, 1, 4, 1, 0, 0, 0, 0, true, false⟩,
  ⟨0x40024, 4, 1, 4, 1, 0, 0, 0, 0, false, false⟩,
  ⟨0x40028, 4, 1, 4, 1, 0, 0, 0, 0, false, false⟩,
  ⟨0x4002C, 4, 1, 4, 1, 0, 0, 0, 0, false, false⟩,
  ⟨0x50000, 0x40, 1408, 4, 10, 0x7FF, 0, 0, 0, false, false⟩,
  ⟨0x50028, 0x40, 1408, 4, 6, 0, 0, 0, 0, false, false⟩]

/-- The FLOW block. -/
def regsFlow : List RegDef := [
  ⟨0x80000, 4, 1, 4, 1, 0, 0, 0, 0, false, false⟩,
  ⟨0x90000, 0x40, 4608, 4, 1, 0, 0, 0x1C000, 0, false, false⟩,
  ⟨0x90004, 0x40, 4608, 4, 1, 0, 0, 0, 0, false, false⟩,
  ⟨0x90008, 0x40, 4608, 4, 1, 0, 0, 0, 0, false, false⟩,
  ⟨0x9000C, 0x40, 4608, 4, 1, 0, 0, 0, 0, false, false⟩,
  ⟨0x90010, 0x40, 4608, 8, 3, 0, 0, 0, 0xFFFFFFFF, false, true⟩,
  ⟨0x90014, 0x40, 4608, 8, 3, 0, 0, 0, 0xFFFFFFFF, false, false⟩,
  ⟨0x90028, 0x40, 4608, 4, 1, 0, 0, 0, 0xFFFFFFFF, false, false⟩,
  ⟨0x9002C, 0x40, 4608, 4, 1, 0, 0, 0, 0xFFFFFFFF, false, false⟩,
  ⟨0x90030, 0x40, 4608, 4, 1, 0, 0, 0, 0xFFFFFFFF, false, false⟩,
  ⟨0x90034, 0x40, 4608, 4, 1, 0, 0, 0, 0xFFFFFFFF, false, false⟩,
  ⟨0x90038, 0x40, 4608, 4, 1, 0, 0, 0, 0xFFFFFFFF, false, false⟩,
  ⟨0x9003C, 0x40, 4608, 4, 1, 0, 0, 0, 0, false, false⟩]

/-- The MOD block. -/
def regsMod : List RegDef := [
  ⟨0, 0x10, 16, 4, 1, 0, 0, 0x3000, 0, false, false⟩,
  ⟨4, 0x10, 16, 4, 1, 0, 0, 0, 0, false, false⟩,
  ⟨8, 0x10, 16, 4, 1, 0, 0, 0, 0, false, false⟩,
  ⟨0xC, 0x10, 16, 4, 1, 0, 0, 0, 0, false, false⟩,
  ⟨0x100, 4, 1, 4, 1, 0xEA60, 0, 0, 0, false, false⟩,
  ⟨0x104, 4, 1, 4, 1, 0x2BC, 0, 0, 0, false, false⟩,
  ⟨0x108, 4, 1, 4, 1, 0, 0, 0x30000, 0, false, false⟩]

/-- The THM block. -/
def regsThm : List RegDef := [
  ⟨0x1000, 4, 1, 4, 1, 0, 0, 0x18, 0, false, false⟩,
  ⟨0x1004, 4, 1, 4, 1, 0, 0, 0, 0x3FFFFF, false, false⟩,
  ⟨0x1008, 4, 1, 4, 1, 0, 0, 0, 0, false, false⟩,
  ⟨0x100C, 4, 1, 4, 1, 0, 0, 0, 0, false, false⟩,
  ⟨0x1010, 4, 1, 4, 1, 0xF, 0, 0x1000, 0, false, false⟩,
  ⟨0x1020, 4, 1, 4, 1, 0, 0, 0, 0, true, false⟩,
  ⟨0x1024, 4, 1, 4, 1, 0, 0, 0, 0, false, false⟩,
  ⟨0x1028, 4, 1, 4, 1, 0, 0, 0, 0, false, false⟩,
  ⟨0x102C, 4, 1, 4, 1, 0, 0, 0, 0, false, false⟩,
  ⟨0x1100, 4, 64, 4, 1, 0, 0, 0, 0, false, false⟩]

/-- The rows of the block that holds offset `o` of a quadrant window (R764). -/
def quadBlock (o : Nat) : List RegDef :=
  match o / 0x10000 with
  | 0 => regsFab
  | 1 => regsPort
  | 2 => regsMem
  | 3 => regsTrk
  | 4 => regsEth
  | 5 => regsIbx
  | 6 => regsComp
  | _ => []

/-- The rows of the block that holds offset `o` of the hub window (R764). -/
def hubBlock (o : Nat) : List RegDef :=
  if 0x80000 ≤ o then regsFlow
  else if 0x40000 ≤ o then regsTake
  else match o / 0x1000 with
  | 0 => regsCmd
  | 1 => regsEvq
  | 2 => regsPlan
  | 3 => regsFw
  | 4 => regsId
  | 5 => regsRef
  | 6 => regsTmb
  | 7 => regsPll
  | 8 => regsPair
  | 9 => regsAud
  | 10 => regsSic
  | 12 => regsPrb
  | 13 => regsPrb
  | _ => []

/-- The rows of the block that holds offset `o` of the line-side window (R764). -/
def lineBlock (o : Nat) : List RegDef :=
  if o < 0x1000 then regsMod else if o < 0x2000 then regsThm else []

/-- The first row of a list that describes offset `o`. -/
def findRow (o : Nat) : List RegDef → Option RegDef
  | [] => none
  | d :: ds => if d.hit o then some d else findRow o ds

/-- The row of the register at BAR0 address `a`; none where no map lists it (R763). -/
def regRow (a : Nat) : Option RegDef :=
  if a < 0x400000 then findRow (a % 0x100000) (quadBlock (a % 0x100000))
  else if a < 0x800000 then findRow (a - 0x400000) (hubBlock (a - 0x400000))
  else if a < 0x900000 then findRow (a - 0x800000) (lineBlock (a - 0x800000))
  else none

/-- The quadrant whose register bus serves address `a`, if one does. -/
def regQuad (a : Nat) : Option Nat :=
  if a < 0x400000 then some (a / 0x100000) else none

/-- The address lies in the line side, whose registers a cold start leaves (R15). `FW_BOOT` is held there too (18_start_and_update.md R656). -/
def regLineSide (a : Nat) : Bool :=
  decide (0x800000 ≤ a) || decide (a = Reg.fwBoot)

/-- SYNC_SRC of PLL j is 1 after reset (13_plls_and_clock_islands.md R502). -/
def pllSynced (j : Nat) : Bool :=
  if j < 16 then decide (j % 4 ≠ 2) else decide (j = 16) || decide (j = 19)

/-- The value of a register after reset (R15): the Reset column of its map; the own pass-link bit of `FAB_STATUS` (R121) and SYNC_SRC 1 of the PLLs that R502 names are written out; 0 where nothing is mapped. -/
def regReset (a : Nat) : Word :=
  if a = Reg.fabStatus 0 then 1
  else if a = Reg.fabStatus 1 then 2
  else if a = Reg.fabStatus 2 then 4
  else if a = Reg.fabStatus 3 then 8
  else if decide (Reg.pllCtrl 0 ≤ a) && decide (a ≤ Reg.pllCtrl 19) && decide (a % 16 = 0) && pllSynced ((a - Reg.pllCtrl 0) / 16) then 0x010C0100
  else match regRow a with
  | some d => d.reset
  | none => 0

end Sys2Proof.Machine
end

