-- ==== Sys2Proof/Machine/Ops.lean ====
section
/-! DEFINITION. The operations that every chapter's commands share: registers, time and house frames, event latches and delivery channels, refused accesses, command completion and forwarding. -/

namespace Sys2Proof.Machine

/-! ## Registers (00_scope.md R12 to R16) -/

/-- The word held at register address `a`. -/
def rd (s : State) (a : Nat) : Word := tabGet (regReset a) a s.regs

/-- The word at register address `a` set. -/
def wr (a : Nat) (v : Word) (s : State) : State := { s with regs := tabSet (regReset a) a v s.regs }

def getF (s : State) (a lo n : Nat) : Nat := fld (rd s a) lo n

def putF (a lo n v : Nat) (s : State) : State := wr a (setFld (rd s a) lo n v) s

def getB (s : State) (a b : Nat) : Bool := bit (rd s a) b

def putB (a b : Nat) (v : Bool) (s : State) : State := wr a (setBit (rd s a) b v) s

/-- A saturating count of `n` bits at bit `lo` increased by `k` (R16, R17). -/
def bump (a lo n k : Nat) (s : State) : State := wr a (bumpFld (rd s a) lo n k) s

/-- A 32-bit saturating count increased by one. -/
def count (a : Nat) (s : State) : State := bump a 0 32 1 s

/-- A 64-bit value written to a low register and the high register that follows it. -/
def put64 (a v : Nat) (s : State) : State := wr (a + 4) (BitVec.ofNat 32 (v / 2 ^ 32)) (wr a (BitVec.ofNat 32 v) s)

def get64 (s : State) (a : Nat) : Nat := (rd s a).toNat + (rd s (a + 4)).toNat * 2 ^ 32

/-- A 64-bit saturating statistics counter increased by `k` (07_ethernet_ports.md R317). -/
def bump64 (a k : Nat) (s : State) : State := put64 a (satAdd 64 (get64 s a) k) s

/-- The twelve words of a digest, word 0 holding bytes 0 to 3. -/
def putDigest (a v : Nat) (s : State) : State :=
  (upto 0 12).foldl (fun s i => wr (a + 4 * i) (BitVec.ofNat 32 (v / 2 ^ (32 * i))) s) s

/-! ## Time (14_timebase_and_ptp.md R524, R527; 01_compiled_plan.md R67) -/

/-- `dt` ticks pass. -/
def tick (dt : Nat) (s : State) : State := { s with now := s.now + dt, mono := s.mono + dt }

/-- The logic side works: its rails are good, RESET_N is high, and no hard trip holds it (21_supplies_and_thermal.md R730, R749; 23_package_and_balls.md R792). -/
def powered (s : State) : Bool := s.pins.vddLine && s.pins.pwrGood && s.pins.resetN && !s.therm.trip

/-- An effect of the logic side that exists only where `b` holds: an event named for a part that the package does not have, or for a logic side that is off, changes only the time (log 6). -/
def only (b : Bool) (f : State → State) (s : State) : State := if b && powered s then f s else s

/-- An effect of the line side (21_supplies_and_thermal.md R729). -/
def lineOnly (b : Bool) (f : State → State) (s : State) : State := if b && s.pins.vddLine then f s else s

/-- Division rounded up. -/
def ceilDiv (a b : Nat) : Nat := (a + b - 1) / b

/-- The house frame rate in force, numerator and denominator: `PLAN_HOUSE_RATE` (R73), and an open value while it is zero (log 4). -/
def houseRate (s : State) : Nat × Nat :=
  let num := getF s Reg.planHouseRate 0 16
  let den := getF s Reg.planHouseRate 16 16
  if num = 0 ∨ den = 0 then (max 1 Config.idleRate.1, max 1 Config.idleRate.2) else (num, den)

/-- The frame of a rate in force at time `t` (R527). -/
def rateFrame (r : Nat × Nat) (t : Nat) : Nat := t * r.1 / (r.2 * tickSec)

/-- The start of frame `n` of a rate (R527), the first tick at or after it. -/
def rateStart (r : Nat × Nat) (n : Nat) : Nat := ceilDiv (n * r.2 * tickSec) r.1

/-- The first frame of a rate that starts at or after time `t`. -/
def rateFirst (r : Nat × Nat) (t : Nat) : Nat := ceilDiv (t * r.1) (r.2 * tickSec)

/-- The present house frame. -/
def houseFrame (s : State) : Nat := rateFrame (houseRate s) s.now

/-- The start of house frame `n`. -/
def frameStart (s : State) (n : Nat) : Nat := rateStart (houseRate s) n

/-- The first house frame whose start lies at least `lead` ticks ahead (R38, R60). -/
def earliestFrame (s : State) (lead : Nat) : Nat := rateFirst (houseRate s) (s.now + lead)

/-- The epoch count (R67). -/
def epochNow (s : State) : Nat := s.now / tickEpoch

/-! ## Sleep -/

/-- Quadrant `q` is awake (21_supplies_and_thermal.md R757). -/
def awake (s : State) (q : Nat) : Bool := getB s Reg.pwrQuad q

/-- Island `x` runs on its keep-alive clock (13_plls_and_clock_islands.md R513, R515). -/
def keepAlive (s : State) (x : Nat) : Bool := getB s (Reg.islKeepalive (x / 32)) (x % 32)

/-- The shed list in force holds an item (21_supplies_and_thermal.md R745). -/
def isShed (s : State) (kind index : Nat) : Bool := s.therm.items.any fun e => decide (e.kind = kind) && decide (e.index = index)

/-! ## Events (17_event_queue.md) -/

/-- Source numbers (R634). -/
def Src.input (n : Nat) : Nat := n
def Src.quad (q b : Nat) : Nat := 0x480 + 32 * q + b
def Src.link (n : Nat) : Nat := 0x500 + n
def Src.eth (g : Nat) : Nat := 0x548 + g
def Src.ibx (e : Nat) : Nat := 0x588 + e
def Src.head (h : Nat) : Nat := 0x608 + h
def Src.audPort (p : Nat) : Nat := 0x668 + p
def Src.audPlane : Nat := 0x66C
def Src.capture (c : Nat) : Nat := 0x670 + c
def Src.pll (j : Nat) : Nat := 0x680 + j
def Src.frameSync : Nat := 0x694
def Src.cand (k : Nat) : Nat := 0x6A0 + k
def Src.timebase : Nat := 0x6A8
def Src.ptp (k : Nat) : Nat := 0x6A9 + k
def Src.timeOfDay : Nat := 0x6AB
def Src.role : Nat := 0x6B0
def Src.health : Nat := 0x6B1
def Src.compare : Nat := 0x6B2
def Src.diverged : Nat := 0x6B3
def Src.joining : Nat := 0x6B4
def Src.mirror : Nat := 0x6B5
def Src.probe (p : Nat) : Nat := 0x6C0 + p / 16
def Src.module (e : Nat) : Nat := 0x6E0 + e
def Src.replyRing : Nat := 0x6F0
def Src.plan : Nat := 0x6F1
def Src.firmware : Nat := 0x6F2
def Src.settings : Nat := 0x6F3
def Src.hubAccess : Nat := 0x6F4
def Src.hot : Nat := 0x6F5
def Src.shed : Nat := 0x6F6
def Src.identity : Nat := 0x6F7
def Src.flow (f : Nat) : Nat := 0x700 + f / 18

/-- INSTANCE of a source with one instance (R637). -/
def noInst : Nat := 0xFFFF

/-- The quadrant whose source it is, if it is one's; refused accesses to a quadrant, and a wake that is late, are reported while it sleeps too (21_supplies_and_thermal.md R739; 22_supervisor_interconnect.md R762, R769). -/
def srcQuad (src : Nat) : Option Nat :=
  if src < 0x480 then some (src / 288)
  else if src < 0x500 then (if (src - 0x480) % 32 = 7 ∨ (src - 0x480) % 32 = 8 then none else some ((src - 0x480) / 32))
  else if src < 0x548 then some ((src - 0x500) / 18)
  else if src < 0x588 then some ((src - 0x548) / 16)
  else if src < 0x608 then some ((src - 0x588) / 32)
  else if src < 0x668 then some ((src - 0x608) / 24)
  else none

/-- Level sources (R634). -/
def isLevel (src : Nat) : Bool := decide (src ∈ [Src.diverged, Src.replyRing, Src.hot, Src.shed])

/-- Sources that keep latching from the line side while the logic side is off (R653). -/
def lineSource (src : Nat) : Bool :=
  decide (src = 0x6A0) || decide (src = 0x6A1) || (decide (0x6E0 ≤ src) && decide (src ≤ 0x6EF)) || decide (src = 0x6F5)

/-- The host mask bit of a source (R641, R650). -/
def evqMasked (s : State) (src : Nat) : Bool := getB s (Reg.evqMask (src / 32)) (src % 32)

/-- A source can latch: its quadrant is awake (R652) and the logic side is powered or the source is the line side's (R653). -/
def canLatch (s : State) (src : Nat) : Bool :=
  (match srcQuad src with
   | some q => awake s q
   | none => true) && (powered s || lineSource src)

/-- A cause latched into a list of latches (R635): a further cause while pending only counts. -/
def latchIn (p : Pend) : List Pend → List Pend
  | [] => [p]
  | x :: xs => if x.src = p.src then { x with coalesced := satAdd 16 x.coalesced 1 } :: xs else x :: latchIn p xs

/-- A cause on edge source `src` (R635), latched for both delivery channels (R639). -/
def raise (src inst type : Nat) (d0 d1 d2 : Word) (s : State) : State :=
  if canLatch s src then
    let p : Pend := { src := src, inst := inst, type := type, stamp := s.now, d0 := d0, d1 := d1, d2 := d2,
                      coalesced := 0, held := evqMasked s src }
    { s with evq := { s.evq with
        host := { s.evq.host with pend := latchIn p s.evq.host.pend }
        sup := { s.evq.sup with pend := latchIn { p with held := false } s.evq.sup.pend } } }
  else s

/-- A record of TYPE 1 (R638): the status register at `a` after and before a change of state. -/
def raiseState (src inst a : Nat) (before : Word) (s : State) : State := raise src inst 1 (rd s a) before 0 s

/-- A record of TYPE 2 (R638): the status register at `a` and the bit number of the flag or counter. -/
def raiseFlag (src inst a b : Nat) (s : State) : State := raise src inst 2 (rd s a) (BitVec.ofNat 32 b) 0 s

/-- A sticky flag set, with its record. -/
def flagEvent (src inst a b : Nat) (s : State) : State := raiseFlag src inst a b (putB a b true s)

/-- The register field at `a` set to a state value, with a TYPE 1 record when the register changes. -/
def stateEvent (src inst a lo n v : Nat) (s : State) : State :=
  if rd (putF a lo n v s) a = rd s a then s else raiseState src inst a (rd s a) (putF a lo n v s)

/-- The latch of a level source found asserted (R636), with the status register its chapter names. -/
def levelPend (src : Nat) (d : Word) (s : State) (held : Bool) : Pend :=
  { src := src, inst := noInst, type := 3, stamp := s.now, d0 := d, d1 := 0, d2 := 0, coalesced := 0, held := held }

/-- A level source becomes pending on a channel unless it is pending or has an outstanding record (R636). -/
def chanAssert (p : Pend) (c : Chan) : Chan :=
  if (c.pend.any fun x => decide (x.src = p.src)) || (c.outst.any fun o => decide (o.1 = p.src)) then c
  else { c with pend := c.pend ++ [p] }

/-- A level source's condition clears: its latch goes unless it is held (R636, R641). -/
def chanClear (src : Nat) (c : Chan) : Chan :=
  { c with pend := c.pend.filter fun x => decide (x.src ≠ src) || x.held }

/-- The condition of level source `src` set to `on`; `a` is the status register of its chapter. -/
def setLevel (src a : Nat) (on : Bool) (s : State) : State :=
  if on then
    if src ∈ s.evq.level then s
    else if canLatch s src then
      { s with evq := { s.evq with
          level := s.evq.level ++ [src]
          host := chanAssert (levelPend src (rd s a) s (evqMasked s src)) s.evq.host
          sup := chanAssert (levelPend src (rd s a) s false) s.evq.sup } }
    else { s with evq := { s.evq with level := s.evq.level ++ [src] } }
  else
    { s with evq := { s.evq with
        level := setDel src s.evq.level
        host := chanClear src s.evq.host
        sup := chanClear src s.evq.sup } }

/-! ## Refused accesses (22_supervisor_interconnect.md R769, R775) -/

/-- MASTER of `SIC_ERR_INFO` (R775). -/
def masterCode : Master → Nat
  | .supervisor => 0
  | .pcie => 1
  | .mirrorDma => 2
  | .securityDma => 3
  | .debug => 4

/-- An access logged (R769): address and cause, the count, and a TYPE 5 record on the source of the window; an unmapped address has the hub's (log 33). Register windows start at supervisor address 0x00_1000_0000 (R763). -/
def logAccess (m : Master) (addr size cause : Nat) (write : Bool) (s : State) : State :=
  let info := masterCode m + b2n write * 8 + cause * 16
  let s := wr Reg.sicErrInfo (BitVec.ofNat 32 info) s
  let s := wr Reg.sicErrAddrLo (BitVec.ofNat 32 addr) s
  let s := wr Reg.sicErrAddrHi (BitVec.ofNat 32 (addr / 2 ^ 32 % 2 ^ 8)) s
  let s := count Reg.sicErrCnt s
  let s := putB Reg.sicStatus 2 true s
  let off := addr - 0x10000000
  let inQuad := decide (0x10000000 ≤ addr) && decide (addr < 0x10400000) && decide (cause ≠ 1)
  let src := if inQuad then Src.quad (off / 0x100000) 8 else Src.hubAccess
  let ofs := if 0x10000000 ≤ addr ∧ addr < 0x10400000 then off % 0x100000 else if 0x10400000 ≤ addr ∧ addr < 0x10800000 then off - 0x400000
    else if 0x10800000 ≤ addr ∧ addr < 0x10900000 then off - 0x800000 else addr
  raise src noInst 5 (BitVec.ofNat 32 ofs) (BitVec.ofNat 32 (size % 16 + b2n write * 16)) 0 s

/-! ## Free values (log 3) -/

/-- The state after one open value has been taken; the value is `Config.freeValue s.free`. -/
def useFree (s : State) : State := { s with free := s.free + 1 }

/-- The next open value. -/
def freeValue (s : State) : Nat := Config.freeValue s.free

/-! ## Plan state (01_compiled_plan.md R70 to R72) -/

/-- A change of `PLAN_STATE`, with a record of source 0x6F1 where LOAD or MODE differ after it (log 34). -/
def planEv (f : State → State) (s : State) : State :=
  let a := Reg.planState
  let t := f s
  if getF t a 0 3 = getF s a 0 3 ∧ getF t a 8 2 = getF s a 8 2 then t else raiseState Src.plan noInst a (rd s a) t

/-- LOAD set. -/
def setLoad (v : Nat) (s : State) : State := planEv (fun s => putF Reg.planState 8 2 v s) s

/-- The status of a plan command noted in `PLAN_LAST_STATUS` (R34, R72), and a refusal or failure counted. -/
def planNote (status sect : Nat) (s : State) : State :=
  let s := wr Reg.planLastStatus (BitVec.ofNat 32 (status + sect * 65536)) s
  if status = 0 then s else count Reg.planRejects s

/-- Nothing is pending any more (R71); `PLAN_APPLY_FRAME` keeps its last value (log 169). -/
def planIdle (s : State) : State :=
  putF Reg.planState 4 3 0 (putF Reg.planState 10 2 0 { s with plan := { s.plan with pending := none } })

/-! ## Server, mode, role -/

/-- SERVER of `CMD_STATUS` (16_command_packets.md R632): 0 boot ROM, 1 firmware, 2 firmware away. -/
def server (s : State) : Nat := getF s Reg.cmdStatus 0 2

/-- The mode Id in force (01_compiled_plan.md R71). -/
def modeNow (s : State) : Nat := getF s Reg.planState 0 3

/-- The unit is paired (15_the_pair.md R596). -/
def paired (s : State) : Bool := getB s Reg.pairStatus 0

/-- JOIN_STEP (R596). -/
def joinStep (s : State) : Nat := getF s Reg.pairStatus 20 3

/-- The unit is standby (R558): at join step 4 or beyond, or paired, and not active. -/
def isStandby (s : State) : Bool :=
  (paired s || decide (4 ≤ joinStep s)) && !getB s Reg.pairStatus 1

/-- The unit forwards to its partner: paired and active (R113, R196; during join steps 4 to 6 nothing is forwarded, R558), the partner not in SERVICE, and no resync due after SERVICE (24_service_mode.md R802, R805). -/
def forwards (s : State) : Bool :=
  paired s && getB s Reg.pairStatus 1 && !getB s Reg.pairStatus 2 && decide (getF s Reg.pairStatus 16 3 ≠ 5) && !s.pair.svcSync

/-- A message handed to the mirror link. -/
def send (m : MirMsg) (s : State) : State :=
  { s with pair := { s.pair with outbox := s.pair.outbox ++ [(s.pair.txSeq, m)], txSeq := s.pair.txSeq + 1 } }

/-- A message handed to the mirror link when the unit forwards. -/
def forward (m : MirMsg) (s : State) : State := if forwards s then send m s else s

/-! ## Completion (16_command_packets.md R604, R607 to R616) -/

/-- Opcode of a body (R628). -/
def opcodeOf : Body → Nat
  | .statusQuery => 0x0001
  | .tagQuery .. => 0x0002
  | .modeSet .. => 0x0003
  | .tagRetire .. => 0x0004
  | .echo => 0x0005
  | .fwLoad .. => 0x0101
  | .fwActivate .. => 0x0102
  | .fwConfirm => 0x0103
  | .fwQuery => 0x0104
  | .fwRestart => 0x0105
  | .planLoad .. => 0x0201
  | .planCommit .. => 0x0202
  | .planDiscard => 0x0203
  | .planQuery => 0x0204
  | .planPatch .. => 0x0205
  | .planRead .. => 0x0206
  | .fsControl .. => 0x0210
  | .delaySet .. => 0x0211
  | .slateLoad .. => 0x0212
  | .memQuery .. => 0x0213
  | .take .. => 0x0301
  | .salvo .. => 0x0302
  | .routeQuery .. => 0x0303
  | .takeCancel .. => 0x0304
  | .refSet .. => 0x0401
  | .refQuery => 0x0402
  | .refSnap => 0x0403
  | .refForce .. => 0x0404
  | .timeSet .. => 0x0405
  | .timeConf .. => 0x0406
  | .ptpSet .. => 0x0407
  | .capSet .. => 0x0408
  | .timeQuery => 0x0409
  | .trkQuery .. => 0x0501
  | .trkRestart .. => 0x0502
  | .trkMbxSend .. => 0x0503
  | .flowQuery .. => 0x0601
  | .flowStats .. => 0x0602
  | .ethHostSet .. => 0x0603
  | .ibxTaskQuery .. => 0x0701
  | .ibxTableSet .. => 0x0702
  | .ibxColourSet .. => 0x0703
  | .ibxPatternSet .. => 0x0704
  | .ibxProbeSet .. => 0x0705
  | .ibxProbeRead .. => 0x0706
  | .ibxLoudReset .. => 0x0707
  | .compLayerSet .. => 0x0801
  | .compInputFormat .. => 0x0802
  | .compSurfaceLoad .. => 0x0803
  | .compTableSet .. => 0x0804
  | .compQuery .. => 0x0805
  | .audTake .. => 0x0901
  | .audRouteQuery .. => 0x0902
  | .audPortSet .. => 0x0903
  | .audPortQuery .. => 0x0904
  | .pairSet .. => 0x0A01
  | .pairQuery => 0x0A02
  | .pairResync => 0x0A03
  | .pairLink .. => 0x0A04
  | .pairDigests .. => 0x0A05
  | .modQuery .. => 0x0B01
  | .modProfileSet .. => 0x0B02
  | .modLedgerRead .. => 0x0B03
  | .modControl .. => 0x0B04
  | .modAllowSet .. => 0x0B05
  | .telSensors => 0x0C01
  | .telCounters .. => 0x0C02
  | .telWearRead => 0x0C03
  | .idCertRead => 0x0D01
  | .idInfo => 0x0D02
  | .idAttest .. => 0x0D03
  | .idOwnerKey .. => 0x0D04
  | .idPolicySet .. => 0x0D05
  | .svcEnter => 0x0E01
  | .svcLeave => 0x0E02
  | .svcTest .. => 0x0E03
  | .svcRepair .. => 0x0E04
  | .unassigned o => o

/-- Bytes of a result body. -/
def bodyLen (r : List (Nat × Nat)) : Nat := sumL (r.map Prod.fst)

/-- A result body cut to `n` bytes (R604). -/
def cutBody (n : Nat) : List (Nat × Nat) → List (Nat × Nat)
  | [] => []
  | (sz, v) :: r => if sz ≤ n then (sz, v) :: cutBody (n - sz) r else if n = 0 then [] else [(n, v % 2 ^ (8 * n))]

/-- The reply descriptor of a command, with the cut and the INLINE and TRUNC flags of R604. -/
def mkReply (c : Packet) (status detail frame : Nat) (result : List (Nat × Nat)) (relayed : Bool) : Reply :=
  let len := bodyLen result
  let inl := c.hdr.flags % 2 == 1
  let room := if inl then 32 else c.hdr.resultLen
  let short := decide (len ≤ 32)
  { opcode := opcodeOf c.body, tag := c.hdr.tag, status := status, resultLen := len, seq := c.hdr.seq, frame := frame,
    detail := detail, inline := short || inl, trunc := !short && decide (room < len), relayed := relayed,
    result := if short then result else cutBody room result }

/-- The held entry of a tag (R613). -/
def tagHeld (tag : Nat) (s : State) : Option ResEntry := s.cmd.results.find? fun e => decide (e.tag = tag)

/-- Completed entries older than 65,536 accepted tags go (R613). -/
def resultsPrune (acc : Nat) (l : List ResEntry) : List ResEntry :=
  l.filter fun e => e.reply.isNone || decide (acc ≤ e.at_ + 65536)

/-- A tag becomes pending (R613). -/
def tagPending (tag : Nat) (s : State) : State :=
  { s with cmd := { s.cmd with
      accCount := s.cmd.accCount + 1
      results := resultsPrune (s.cmd.accCount + 1) s.cmd.results
        ++ [{ tag := tag, reply := none, phase := false, at_ := s.cmd.accCount + 1 }] } }

/-- The reply of a tag put into the result table: in place of its pending entry, or as a new entry. -/
def resultPut (r : Reply) (phase : Bool) (acc : Nat) (l : List ResEntry) : List ResEntry :=
  if l.any fun e => decide (e.tag = r.tag) then l.map fun e => if e.tag = r.tag then { e with reply := some r, phase := phase } else e
  else l ++ [{ tag := r.tag, reply := some r, phase := phase, at_ := acc }]

/-- Entries of the ring whose size stands at bit `lo` of `CMD_RING_SIZE` (R599, R633): 2ⁿ, with n held to 4 to 12. -/
def ringSize (s : State) (lo : Nat) : Nat := 2 ^ max 4 (min 12 (getF s Reg.cmdRingSize lo 4))

/-- PHASE of an entry written on pass `p`, counted from 1 (R608). -/
def phaseOf (p : Nat) : Bool := decide (p % 2 = 1)

/-- PHASE of the ring entry that the next completion will take: replies enter the ring in order of completion (R608, R610). -/
def replyPhase (s : State) : Bool := phaseOf (s.cmd.replyPass + (getF s Reg.replyTail 0 12 + s.cmd.waiting.length) / ringSize s 4)

/-- A reply queued for the reply ring (R611): REPLY_STALL while 8,192 wait, and REPLY_FULL_SEEN from the first stall. -/
def queueReply (r : Reply) (s : State) : State :=
  let s := { s with cmd := { s.cmd with waiting := s.cmd.waiting ++ [r] } }
  if 8192 ≤ s.cmd.waiting.length then putB Reg.cmdStatus 3 true (putB Reg.cmdStatus 2 true s) else s

/-- A result body that does not reach RESULT_ADDR (R604). -/
def resultError (c : Packet) (result : List (Nat × Nat)) (s : State) : State :=
  if 32 < bodyLen result ∧ c.hdr.flags % 2 = 0 ∧ c.hdr.resultOk = false then putB Reg.cmdStatus 4 true s else s

/-- The completion of a command (R607, R609, R610), with the house frame `frame`: to the host through the result table and the reply ring, to the partner for a relayed command (R622), to nobody for a forwarded one (R623). -/
def completeAt (c : Cmd) (status detail frame : Nat) (result : List (Nat × Nat)) (s : State) : State :=
  match c.origin with
  | .forward => s
  | .relay => { s with pair := { s.pair with relayOut := s.pair.relayOut ++
      [{ tag := c.pkt.hdr.tag, status := status, frame := frame, detail := detail, result := result }] } }
  | .host =>
    let r := mkReply c.pkt status detail frame result false
    let s := resultError c.pkt result s
    queueReply r { s with cmd := { s.cmd with results := resultPut r (replyPhase s) s.cmd.accCount s.cmd.results } }

/-- The completion of a command that is executed or refused now. -/
def complete (c : Cmd) (status detail : Nat) (result : List (Nat × Nat)) (s : State) : State :=
  completeAt c status detail (houseFrame s) result s

/-- A command completed OK with no result body. -/
def done (c : Cmd) (s : State) : State := complete c St.ok 0 [] s

/-- A command refused with a status. -/
def refuse (c : Cmd) (status : Nat) (s : State) : State := complete c status 0 [] s

/-- A completion of a firmware command that an effect in hardware brings: while the firmware is away the firmware that runs next writes it (R619; log 32). -/
def finishAt (c : Cmd) (status frame : Nat) (result : List (Nat × Nat)) (s : State) : State :=
  if server s = 2 ∧ c.origin ≠ .forward then
    { s with fw := { s.fw with owed := s.fw.owed ++ [{ cmd := c, status := status, frame := some frame, result := result }] } }
  else completeAt c status 0 frame result s

/-! ## Commands at an apply frame (R609, R821; 04_frame_stores.md R196) -/

/-- The apply frame of a command whose earliest allowed frame lies `lead` ticks ahead: none where APPLY_AT is non-zero and earlier (R821). -/
def applyFrame (s : State) (lead applyAt : Nat) : Option Nat :=
  let e := earliestFrame s lead
  if applyAt = 0 then some e else if applyAt < e then none else some applyAt

/-- A command put on the schedule for house frame `f`. -/
def schedule (c : Cmd) (f : Nat) (result : List (Nat × Nat)) (s : State) : State :=
  { s with sched := s.sched ++ [{ cmd := c, frame := f, start := frameStart s f, result := result }] }

/-- A command under R196: refused with PLAN_LATE (R821), or scheduled for its apply frame and forwarded with it. -/
def scheduleCmd (c : Cmd) (result : Nat → List (Nat × Nat)) (s : State) : State :=
  match applyFrame s tickMs c.pkt.hdr.applyAt with
  | none => refuse c St.planLate s
  | some f => forward (.command c.pkt.body f) (schedule c f (result f) s)

end Sys2Proof.Machine
end

