-- ==== Sys2Proof/Machine/Picture.lean ====
section
/-! DEFINITION. Formats, cadences, samples and colour arithmetic, as far as they depend on no state (01_compiled_plan.md R68, R69; 03_port_pipelines.md R124 to R147; 04_frame_stores.md R165, R186). -/

namespace Sys2Proof.Machine

/-! ## Formats -/

/-- Rows in a slot opportunity period of a format (02_word_fabric_and_takes.md R77): 1 at 12G, 2 at 6G, 4 at 3G, 8 at 1.5G. -/
def fmtRows (f : PortFmt) : Nat :=
  match f.id with
  | 6 => 1
  | 9 => 1
  | 5 => 2
  | 1 => 8
  | 7 => 8
  | _ => 4

/-- The format belongs to the 1/1.001 family. -/
def fmtFractional (f : PortFmt) : Bool := decide (f.rateDen % 1001 = 0)

def fmtRate (f : PortFmt) : Nat × Nat := (max 1 f.rateNum, max 1 f.rateDen)

/-- Ticks of a frame and of a line of a format (02_word_fabric_and_takes.md R92). -/
def fmtFrameTicks (f : PortFmt) : Nat := f.rateDen * tickSec / max 1 f.rateNum

def fmtLineTicks (f : PortFmt) : Nat := fmtFrameTicks f / max 1 f.lines

/-- L in rows, rounded down (03_port_pipelines.md R127). -/
def fmtLineRows (f : PortFmt) : Nat := fmtLineTicks f / tickRow

/-- The number of the frame of a format that is nearest to begin at time `t`. -/
def fmtFrameNear (f : PortFmt) (t : Nat) : Nat := rateFrame (fmtRate f) (t + fmtFrameTicks f / 2)

/-- The number of the line that follows line `n` (03_port_pipelines.md R818). -/
def nextLine (f : PortFmt) (n : Nat) : Nat := if f.lines ≤ n then 1 else n + 1

/-- The lines that ST 352 assigns to the payload ID (03_port_pipelines.md R132): line 10, and line 572 of interlaced and PsF formats of the 1125-line structure. -/
def vpidLine (f : PortFmt) (n : Nat) : Bool := decide (n = 10) || (decide (n = 572) && decide (f.lines = 1125) && decide (f.scan ≠ 0))

/-! ## Rows of the image and lines (08_media_flows.md R339; log 195) -/

/-- Rows of the image that one line carries: more than one where the image has more rows than the line structure has active lines. -/
def rowsPerLine (f : PortFmt) : Nat := max 1 (f.height / if f.lines = 750 then 720 else 1080)

/-- The line that carries row `r` of the image: line 42 carries the first row of a 1125-line progressive format, lines 21 and 584 those of the fields of an interlaced or PsF one, line 26 that of a 750-line format. -/
def lineOfRow (f : PortFmt) (r : Nat) : Nat :=
  let k := r / rowsPerLine f
  if f.lines = 750 then 26 + k else if f.scan = 0 then 42 + k else if k % 2 = 0 then 21 + k / 2 else 584 + k / 2

/-- The rows of the image that line `n` carries. -/
def rowsOfLine (f : PortFmt) (n : Nat) : List Nat :=
  let k := if f.lines = 750 then (if 26 ≤ n ∧ n < 746 then some (n - 26) else none)
    else if f.scan = 0 then (if 42 ≤ n ∧ n < 1122 then some (n - 42) else none)
    else if 21 ≤ n ∧ n < 561 then some (2 * (n - 21)) else if 584 ≤ n ∧ n < 1124 then some (2 * (n - 584) + 1) else none
  k.elim [] fun k => upto (k * rowsPerLine f) (rowsPerLine f)

/-- Bytes of a pixel group of ST 2110-20 at 10 bits, and its pixels: 5 bytes of 2 pixels at 4:2:2, 15 of 4 at 4:4:4, told apart by the sampling nibble of the payload ID's third byte (log 52). -/
def pgroupOf (f : PortFmt) : Nat := if nfld f.vpid 16 4 ∈ [1, 2, 5, 6] then 15 else 5

def pgroupPixels (f : PortFmt) : Nat := if pgroupOf f = 15 then 4 else 2

/-- Bytes of a row of the image. -/
def rowBytes (f : PortFmt) : Nat := f.width / pgroupPixels f * pgroupOf f

/-- 10-bit values from bytes, most significant bit first, and bytes from 10-bit values. -/
def tenBits (bytes : List Nat) : List Nat :=
  let n := bytes.length * 8 / 10
  let v := bytes.foldl (fun v b => v * 256 + b % 256) 0
  (upto 0 n).map fun i => v / 2 ^ (bytes.length * 8 - 10 * (i + 1)) % 1024

def tenBytes (vals : List Nat) : List Nat :=
  let n := vals.length * 10 / 8
  let v := vals.foldl (fun v x => v * 1024 + x % 1024) 0
  (upto 0 n).map fun i => v / 2 ^ (vals.length * 10 - 8 * (i + 1)) % 256

/-- The pixel groups of a row in order, each cut out of the bytes. -/
def chunks (n : Nat) : Nat → List Nat → List (List Nat)
  | 0, _ => []
  | k + 1, l => if l.isEmpty then [] else l.take n :: chunks n k (l.drop n)

/-- The picture samples of a row's bytes (R321): at 4:2:2 Cb, Y', Cr, Y'; at 4:4:4 Cb, Y', Cr, or R', G', B' (log 195). -/
def rowPic (f : PortFmt) (bytes : List Nat) : List PicGroup :=
  (chunks (pgroupOf f) bytes.length bytes).flatMap fun g =>
    match tenBits g with
    | [cb, y0, cr, y1] => if pgroupOf f = 5 then [{ c0 := y0, c1 := cb, c2 := cr, y1 := some y1 }] else []
    | vs => (chunks 3 4 vs).filterMap fun x =>
        match x with
        | [a, b, c] => some (if nfld f.vpid 16 4 = 2 ∨ nfld f.vpid 16 4 = 6 then { c0 := a, c1 := b, c2 := c, y1 := none } else { c0 := b, c1 := a, c2 := c, y1 := none })
        | _ => none

/-- The bytes of a row's picture samples. -/
def picBytes (f : PortFmt) (l : List PicGroup) : List Nat :=
  let v := l.flatMap fun g =>
    if pgroupOf f = 5 then [g.c1, g.c0, g.c2, g.y1.getD g.c0]
    else if nfld f.vpid 16 4 = 2 ∨ nfld f.vpid 16 4 = 6 then [g.c0, g.c1, g.c2] else [g.c1, g.c0, g.c2]
  (chunks (pgroupOf f * 8 / 10) v.length v).flatMap tenBytes

/-- Groups of picture samples of a row. -/
def rowGroups (f : PortFmt) : Nat := if pgroupOf f = 5 then f.width / 2 else f.width

/-! ## Media clocks (08_media_flows.md R333) -/

/-- A media clock at time `t`, in full. -/
def mediaClock (hz t : Nat) : Nat := t * hz / tickSec

/-- The full value of a 32-bit timestamp that lies nearest to the clock at time `t`. -/
def clockNear (hz ts t : Nat) : Nat :=
  let m := mediaClock hz t
  ((m : Int) + untwos 32 ((ts + 2 ^ 32 - m % 2 ^ 32) % 2 ^ 32)).toNat

/-- The frame of a format whose alignment point a 90 kHz timestamp marks, nearest to time `t` (R339, R340). -/
def stampFrame (f : PortFmt) (ts t : Nat) : Nat := fmtFrameNear f (clockNear 90000 ts t * tickSec / 90000)

/-- The nominal arrival of the EAV of line `k` of frame `n` of a format (03_port_pipelines.md R126; log 196), in ticks of the timebase. -/
def eavNominal (f : PortFmt) (n k : Nat) : Int :=
  (rateStart (fmtRate f) n : Int) + ((k : Int) - 2) * fmtLineTicks f - (16 * tickRow : Nat)

/-- The frame of a format to which line `k` belongs that arrives at time `t`. -/
def lineFrame (f : PortFmt) (k t : Nat) : Nat := fmtFrameNear f (t + 16 * tickRow + 2 * fmtLineTicks f - k * fmtLineTicks f)

/-! ## Cadence (01_compiled_plan.md R68, R69) -/

/-- Rows in the period of a format's justification pattern (R68): 1001 slot opportunities in the 1/1.001 family; in the integer family every opportunity is used. -/
def patternRows (f : PortFmt) : Nat := fmtRows f * if fmtFractional f then 1001 else 1

/-- Frames in the cadence of a video stream (R68): the fewest whose rows are a whole number of pattern periods. -/
def videoCadence (f : PortFmt) : Nat :=
  if fmtFractional f then (fmtRate f).1 * patternRows f / Nat.gcd (297000000 * (fmtRate f).2) ((fmtRate f).1 * patternRows f) else 1

/-- Frames in the cadence of an audio stream at a sampling rate (R68): the fewest that hold a whole number of samples. -/
def audioCadence (f : PortFmt) (rate : Nat) : Nat := (fmtRate f).1 / Nat.gcd (rate * (fmtRate f).2) (fmtRate f).1

/-- The cadence phase of a stream in frame `n` of its format (R69). -/
def cadencePhase (cadence n : Nat) : Nat := n % max 1 cadence

/-- Samples of a channel up to the end of frame `k` - 1 of a cadence, to the nearest (log 182). -/
def cadenceSum (f : PortFmt) (rate k : Nat) : Nat := (2 * k * rate * (fmtRate f).2 + (fmtRate f).1) / (2 * (fmtRate f).1)

/-- Samples of a channel that frame `n` of a format carries at a sampling rate (R68, R69). -/
def audioSamples (f : PortFmt) (rate n : Nat) : Nat :=
  let p := cadencePhase (audioCadence f rate) n
  cadenceSum f rate (p + 1) - cadenceSum f rate p

/-- Slots that a stream uses in a frame (R68): of the opportunities in its cadence, 1000 in every 1001 in the 1/1.001 family and otherwise all, one frame's share rounded up. -/
def frameSlots (f : PortFmt) : Nat :=
  let opp := 297000000 * (fmtRate f).2 * (if fmtFractional f then 1000 else 1001)
  ceilDiv opp ((fmtRate f).1 * fmtRows f * 1001)

/-- The slot opportunity at time `t` on the fabric carries a word of a stream of this format (02_word_fabric_and_takes.md R77): opportunities are counted from the first frame of the cadence (R69), and the 1/1.001 family leaves out one in 1001, which one the manual does not publish (log 5). -/
def slotUsed (f : PortFmt) (t : Nat) : Bool :=
  let n := rateFrame (fmtRate f) t
  let r := (t - rateStart (fmtRate f) (n - cadencePhase (videoCadence f) n)) / tickRow
  decide (r % fmtRows f = 0) && !(fmtFractional f && decide (r / fmtRows f % 1001 = Config.patternSkip (fmtRows f) % 1001))

/-! ## SDI data streams in packets (R336) -/

/-- Media bytes of an ST 2022-6 datagram, and datagrams of a frame: 5 bytes of each word of the stream (log 197). -/
abbrev wholeBytes : Nat := 1376

def wholeFrame (f : PortFmt) : Nat := 5 * frameSlots f

def wholePackets (f : PortFmt) : Nat := ceilDiv (wholeFrame f) wholeBytes

/-- The datagrams that hold line `k` of a frame. -/
def wholeOfLine (f : PortFmt) (k : Nat) : List Nat :=
  let a := (k - 1) * wholeFrame f / max 1 f.lines
  let b := k * wholeFrame f / max 1 f.lines
  upto (a / wholeBytes) (ceilDiv b wholeBytes - a / wholeBytes)

/-! ## Stored frames (04_frame_stores.md R165) -/

def mib : Nat := 1048576

def pageBytes : Nat := 2 * mib

/-- Bytes of one stored frame of a stream: 5 for each used slot, in whole pages. -/
def storedFrame (f : PortFmt) : Nat := ceilDiv (5 * frameSlots f) pageBytes * pageBytes

/-- The bits of a fabric word that a store keeps, and what leaves it: the check code is generated again with the number of the source that the store serves. -/
def storedWord (w : BitVec 48) : BitVec 40 := w.setWidth 40

def wordAt (source row : Nat) (valid : Bool) (c : BitVec 40) : BitVec 48 :=
  let k := checkCode source row c.toNat
  BitVec.ofNat 48 (c.toNat + (if valid then k else 255 - k) * 2 ^ 40)

def restoredWord (source row : Nat) (w : BitVec 48) : BitVec 48 := wordAt source row true (storedWord w)

/-! ## Slates (04_frame_stores.md R186) -/

/-- 32-bit words of a slate line, padded to 128 bytes: three samples to a word, two samples a pixel. -/
def slateStride (w : Nat) : Nat := ceilDiv (4 * ceilDiv (2 * w) 3) 128 * 32

/-- Bytes of a slate of a picture format. -/
def slateBytes (w h : Nat) : Nat := slateStride w * 4 * h

/-- Samples in the order Cb, Y', Cr, Y' as co-sited groups. -/
def cositedGroups : List Nat → List PicGroup
  | cb :: y0 :: cr :: y1 :: r => { c0 := y0, c1 := cb, c2 := cr, y1 := some y1 } :: cositedGroups r
  | _ => []

/-- Line `row` of a slate's image. -/
def slateLine (x : Slate) (row : Nat) : List PicGroup :=
  let ws := (x.words.drop (row * slateStride x.width)).take (ceilDiv (2 * x.width) 3)
  cositedGroups ((ws.flatMap fun w => [nfld w 0 10, nfld w 10 10, nfld w 20 10]).take (2 * x.width))

/-- A slate has the picture format of an output (R150, R186). -/
def slateFits (x : Slate) (f : PortFmt) : Bool := decide (x.width = f.width) && decide (x.height = f.height) && decide (x.scan = f.scan)

/-! ## Colour arithmetic (03_port_pipelines.md R146) -/

/-- A value held between two limits. -/
def clipInt (lo hi v : Int) : Int := max lo (min hi v)

/-- Clip limits of component `c` (0 luma) of a colour set. -/
def colourLimits (flags c : Nat) : Int × Int := if nbit flags 1 then (64, if c = 0 then 940 else 960) else (4, 1019)

/-- One row of a matrix: coefficients, inputs and input offsets. -/
def matrixRow (coef ofs v : List Int) : Int :=
  ((coef.zip (v.zip ofs)).map fun x => x.1 * (x.2.1 + x.2.2)).foldl (· + ·) 0

/-- Component `c` of a sample through an output's colour set. -/
def outputColour (e : ColourEntry) (v : List Int) (c : Nat) : Int :=
  let l := colourLimits e.flags c
  clipInt l.1 l.2 ((matrixRow ((e.coef.drop (3 * c)).take 3) e.ofsIn v + 0x2000) / 16384 + (nth? e.ofsOut c).getD 0)

/-- A co-sited group through an output's colour set: all three components, and for the luma sample that follows only the luma row, with the chroma of the group. -/
def groupColour (e : ColourEntry) (g : PicGroup) : PicGroup :=
  let v : List Int := [(g.c0 : Int), (g.c1 : Int), (g.c2 : Int)]
  { c0 := (outputColour e v 0).toNat, c1 := (outputColour e v 1).toNat, c2 := (outputColour e v 2).toNat,
    y1 := g.y1.map fun y => (outputColour e [(y : Int), (g.c1 : Int), (g.c2 : Int)] 0).toNat }

/-! ## Embedded audio (03_port_pipelines.md R134, R135) -/

/-- The audio group of a data packet, or of a control packet, by its DID. -/
def audDataGroup (did : Nat) : Option Nat :=
  if 0xE4 ≤ did ∧ did ≤ 0xE7 then some (0xE8 - did) else if 0xA4 ≤ did ∧ did ≤ 0xA7 then some (0xAC - did) else none

def audCtlGroup (did : Nat) : Option Nat :=
  if 0xE0 ≤ did ∧ did ≤ 0xE3 then some (0xE4 - did) else if 0xA0 ≤ did ∧ did ≤ 0xA3 then some (0xA8 - did) else none

/-- The 32-bit slot of a sample: the sample in [31:8], Z, V, U and C in [7:4]. -/
def audSlotOf (x : AudSample) : Word :=
  BitVec.ofNat 32 (x.value % 2 ^ 24 * 256 + b2n x.z * 128 + b2n x.v * 64 + b2n x.u * 32 + b2n x.c * 16)

/-- The 24-bit sample of a slot, signed. -/
def slotSample (w : Word) : Int := untwos 24 (fld w 8 24)

/-- Sample `j` of a crossfade of `n` samples (11_audio_plane.md R433, where `n` is 128; 04_frame_stores.md R176, where it is 64): from `j = n - 1` on the new sample stands alone. -/
def mixOf (n : Nat) (old new : Int) (j : Nat) : Int :=
  (old * (n - 1 - (min j (n - 1) : Nat) : Int) + new * ((min j (n - 1) : Nat) + 1 : Int) + (n / 2 : Nat)) / (n : Int)

/-- A slot with its sample crossfaded from an old slot; Z, V, U and C are the new slot's. -/
def mixSlot (n : Nat) (old new : Word) (j : Nat) : Word := setFld new 8 24 (twos 24 (mixOf n (slotSample old) (slotSample new) j))

/-! ## ANC packets (03_port_pipelines.md R138, R142, R143) -/

/-- A DID and SDID match an entry of a filter (R138). -/
def ancMatch (p : AncPkt) (r : AncRule) : Bool :=
  decide (p.did = r.did) && decide (p.sdid &&& r.mask = r.sdid &&& r.mask)

/-- Some of the first 16 entries of a filter or delete list matches (R138, R142). -/
def ancListed (rs : List AncRule) (p : AncPkt) : Bool := (rs.take 16).any (ancMatch p)

/-- Packets that are never extracted and always regenerated (R138, R142): audio data and control packets of R134, and the payload ID. -/
def ancNever (p : AncPkt) : Bool :=
  (decide (0xE0 ≤ p.did) && decide (p.did ≤ 0xE7)) || (decide (0xA0 ≤ p.did) && decide (p.did ≤ 0xA7))
    || (decide (p.did = 0x41) && decide (p.sdid = 0x01))

/-- An 8-bit word with its parity bits, as far as a checksum counts it: 9 bits. -/
def ancWord (v : Nat) : Nat := v % 256 + (sumL ((upto 0 8).map fun i => b2n (nbit v i))) % 2 * 256

/-- The checksum of a packet (R138; 09_ibex_engines.md R373): the sum of DID, SDID, data count and user data words over 9 bits (log 200). -/
def ancSum (did sdid : Nat) (data : List Nat) : Nat :=
  (ancWord did + ancWord sdid + ancWord data.length + sumL (data.map fun v => v % 512)) % 512

/-- Parity and checksum of a packet hold. -/
def ancGood (p : AncPkt) : Bool := p.parity && decide (p.sum = ancSum p.did p.sdid p.data)

/-- A packet of user data words: flag, identifiers, data count, words and checksum of 10 bits each. -/
def ancMake (did sdid space : Nat) (data : List Nat) : AncPkt :=
  { did := did, sdid := sdid, space := space, data := data, bytes := ceilDiv ((data.length + 7) * 10) 8, parity := true, sum := ancSum did sdid data }

/-- The packets of a line after one rule of an ANC processing task (09_ibex_engines.md R373). -/
def ancEdit (line : Nat) (l : List AncPkt) : AncEdit → List AncPkt
  | .delete r => l.filter fun p => !ancMatch p r
  | .insert k space did sdid data => if k = line then l ++ [ancMake did sdid space (data.take 255)] else l

/-- The packets of a line after the rules of an ANC processing task, of which there are at most 16. -/
def ancEdits (line : Nat) (es : List AncEdit) (l : List AncPkt) : List AncPkt := (es.take 16).foldl (ancEdit line) l

/-- Bytes of packets. -/
def ancBytes (l : List (Nat × AncPkt)) : Nat := sumL (l.map fun p => p.2.bytes)

/-- The packets that fit in the bytes left in each data space of a line, in order, and those that do not (R143). -/
def ancFit : List Nat → List AncPkt → List AncPkt × List AncPkt
  | _, [] => ([], [])
  | room, p :: ps =>
    let left := (nth? room p.space).getD 0
    if p.bytes ≤ left then
      let r := ancFit (room.set p.space (left - p.bytes)) ps
      (p :: r.1, r.2)
    else
      let r := ancFit room ps
      (r.1, p :: r.2)

end Sys2Proof.Machine
end

