-- ==== Sys2Proof/Machine/Process.lean ====
section
/-! DEFINITION. The tasks of the ibex engines as far as the ports see them: the task library, when a task runs, and what colour, generator and ANC processing tasks do to words (09_ibex_engines.md R362 to R373, R383, R384). -/

namespace Sys2Proof.Machine

/-! ## Formats of a configuration -/

/-- Format of a destination of a configuration: of the output, or of the process send. -/
def destFmtIn (c : ModeCfg) (d : Nat) : Option PortFmt :=
  if d < 1152 then (c.outputs.find? fun o => decide (o.port = d)).map OutCfg.fmt
  else (c.sends.find? fun x => decide (x.send = d)).map SendCfg.fmt

/-- Format of a source of a configuration: of the input, or of the process return (R819). -/
def srcFmtIn (c : ModeCfg) (n : Nat) : Option PortFmt :=
  if n < 1152 then (c.inputs.find? fun i => decide (i.port = n)).map InCfg.fmt
  else (c.returns.find? fun x => decide (x.ret = n)).map ReturnCfg.fmt

/-- Plane rate (11_audio_plane.md R427): 48 kHz with no audio map. -/
def planeRate (s : State) : Nat := if s.plan.cfg.audioRate = 0 then 48000 else s.plan.cfg.audioRate

/-! ## The task library (R367, R368) -/

/-- 12G-eq of a format in eighths (00_scope.md R10). -/
def fmtEq8 (f : PortFmt) : Nat := 8 / fmtRows f

/-- A task that receives: a depacketiser. -/
def taskReceives (t : TaskCfg) : Bool := decide (t.kind = 2) || (decide (t.flow ≠ 0xFFFF) && decide (2304 ≤ t.flow))

/-- The format of a task: of the return that it writes, else of the send that it reads, else of the port that it serves. -/
def taskFmt (c : ModeCfg) (t : TaskCfg) : Option PortFmt :=
  if t.ret ≠ 0xFFFF then srcFmtIn c t.ret
  else if t.send ≠ 0xFFFF then destFmtIn c t.send
  else if t.port ≠ 0xFFFF then (if taskReceives t then srcFmtIn c t.port else destFmtIn c t.port)
  else none

/-- Members of the alignment group whose lead a task serves, or one. -/
def taskMembers (c : ModeCfg) (t : TaskCfg) : Nat :=
  match c.groups.find? fun g => decide (g.input = taskReceives t) && decide (g.lead = t.port) with
  | some g => if g.shape = 7 then 2 else 4
  | none => 1

/-- 12G-eq of a task in eighths. -/
def taskEq8 (c : ModeCfg) (t : TaskCfg) : Nat := ((taskFmt c t).elim 0 fmtEq8) * taskMembers c t

/-- Channels and packet time of the flow of a task. -/
def taskFlow (fs : List FlowEntry) (t : TaskCfg) : Nat × Nat := ((nth? fs t.flow).map fun e => (e.audCount, e.ptime)).getD (0, 0)

/-- The cost of a task in 1/1024 share (R367). -/
def taskCost (c : ModeCfg) (fs : List FlowEntry) (t : TaskCfg) : Nat :=
  match t.kind with
  | 1 => 32 * taskEq8 c t
  | 2 => 32 * taskEq8 c t
  | 3 => ((if (taskFlow fs t).2 = 125 then 8 else 4) + ceilDiv (taskFlow fs t).1 8) * if c.audioRate = 96000 then 2 else 1
  | 4 => 8
  | 5 => 16 * taskEq8 c t
  | 6 => 8 * taskEq8 c t
  | 7 => 4 * taskEq8 c t
  | 8 => 4
  | 9 => 4 * taskEq8 c t
  | 10 => 2 * t.channels.length
  | _ => 0

/-- The data memory of a task in KiB (R367). -/
def taskDmem (c : ModeCfg) (t : TaskCfg) : Nat :=
  match t.kind with
  | 1 => 6 * taskEq8 c t
  | 2 => 6 * taskEq8 c t
  | 3 => 4
  | 4 => 8
  | 5 => 28
  | 6 => 8
  | 7 => 16
  | 8 => 1
  | 9 => 8
  | 10 => 2 * t.channels.length
  | _ => 0

/-- The microcode of a task kind in KiB (R367). -/
def kindUcode (k : Nat) : Nat := (nth? [0, 20, 24, 8, 6, 10, 6, 6, 4, 6, 8] k).getD 0

/-- The engines that a task runs on: one, or those over which it is split (R368). -/
def taskEngines (t : TaskCfg) : List Nat := if t.engine = 255 then t.split else [t.engine]

/-- The tasks of one engine. -/
def engineTasks (ts : List TaskCfg) (e : Nat) : List TaskCfg := ts.filter fun t => decide (e ∈ taskEngines t)

/-- COST, DMEM and UCODE of an engine with its tasks (R368, R389): a split task is shared out evenly, each share rounded up (log 202). -/
def engineCost (c : ModeCfg) (fs : List FlowEntry) (ts : List TaskCfg) : Nat := sumL (ts.map fun t => ceilDiv (taskCost c fs t) (max 1 (taskEngines t).length))

def engineDmem (c : ModeCfg) (ts : List TaskCfg) : Nat := sumL (ts.map fun t => ceilDiv (taskDmem c t) (max 1 (taskEngines t).length))

/-- Microcode of the distinct task kinds in a list (R368). -/
def ucodeOf (l : List TaskCfg) : Nat := sumL ((distinct (l.map TaskCfg.kind)).map kindUcode)

/-! ## Routes through processing (01_compiled_plan.md R66) -/

/-- The layer is on. -/
def entryOn (e : LayerEntry) : Bool := nbit e.flags 0 && decide (e.layer < 20)

/-- Processing as pairs of a return and a send that it reads: the tasks of R366. -/
def taskLinks (c : ModeCfg) : List (Nat × Nat) := (c.tasks.filter fun t => decide (t.ret ≠ 0xFFFF) && decide (t.send ≠ 0xFFFF)).map fun t => (t.ret, t.send)

/-- The sources on the way to those of a list, through at most `k` stages of processing, by the source of each send. -/
def upstream (route : Nat → Nat) (links : List (Nat × Nat)) : Nat → List Nat → List Nat
  | 0, l => l
  | k + 1, l => upstream route links k ((links.filter fun x => decide (x.1 ∈ l)).foldl (fun r x => setIns (route x.2) r) l)

/-! ## When a task runs (R383, R384) -/

/-- STATE of `IBX_STATUS[e]` (R388). -/
def engState (s : State) (e : Nat) : Nat := getF s (Reg.ibxStatus e) 0 2

/-- The engine is FAULT or FAILED (R388). -/
def engineDown (s : State) (e : Nat) : Bool := decide (2 ≤ engState s e)

/-- The first boundary of a task at or after time `x`: of a frame of its format, or for audio of a packet time (R370, R384). -/
def taskNext (s : State) (t : TaskCfg) (x : Nat) : Nat :=
  if t.kind = 3 then
    let p := max 1 ((taskFlow s.plan.tables.flows t).2 * tickUs)
    ceilDiv x p * p
  else match taskFmt s.plan.cfg t with
    | some f => rateStart (fmtRate f) (rateFirst (fmtRate f) x)
    | none => x

/-- When a task whose engine returned at `x` has its effect again (R384): from its boundary; a task of R366 presents valid words one frame later. -/
def taskFrom (s : State) (t : TaskCfg) (x : Nat) : Nat :=
  taskNext s t x + if t.send ≠ 0xFFFF ∧ t.ret ≠ 0xFFFF then (taskFmt s.plan.cfg t).elim 0 fmtFrameTicks else 0

/-- A task does not run on engine `e`: it is down, its island runs on keep-alive (13_plls_and_clock_islands.md R517; log 208), or it has returned and the task's boundary has not come. -/
def taskOff (s : State) (t : TaskCfg) (e : Nat) : Bool :=
  engineDown s e || keepAlive s (23 * (e / 32) + 22) || (tabGet engTrack0 e s.ibx.eng).back.elim false fun x => decide (s.now < taskFrom s t x)

/-- A task does not run on its rail's engines: `k` is 0, or 64 for the twins of MIRROR (R379). -/
def railOff (s : State) (t : TaskCfg) (k : Nat) : Bool := (taskEngines t).any fun e => taskOff s t (e + k)

/-- A task has no effect: it does not run, in MIRROR on neither rail (R379, R383). -/
def taskDown (s : State) (t : TaskCfg) : Bool := railOff s t 0 && (decide (modeNow s ≠ 2) || railOff s t 64)

/-- Packets of flow `f` are discarded because the engine of its task is faulted (R383). -/
def flowEngineDown (s : State) (f : Nat) : Bool := s.plan.cfg.tasks.any fun t => decide (t.flow = f) && taskDown s t

/-! ## Colour (R369, R370) -/

def colourTask (s : State) (n : Nat) : ColourTask := tabGet colourTask0 n s.ibx.colour

/-- What of a colour task is in force at time `x`: the last set whose frame boundary has come (R370). -/
def colourAt (s : State) (n x : Nat) : ColourSet :=
  let t := colourTask s n
  (t.armed.filter fun y => decide (y.2 ≤ x)).foldl (fun _ y => y.1) t.live

/-- Component `c` of a sample through colour task `n` (R369): pre tables or a shift into 16 bits, the matrix, post tables or rounding back, and the limits. -/
def taskColour (n : Nat) (t : Tab (List Nat)) (e : ColourEntry) (v : List Nat) (c : Nat) : Int :=
  let entry := fun (k i : Nat) => ((tabFind k t).bind fun l => nth? l i).getD (Config.colourTable n k i)
  let p : List Int := ((upto 0 3).zip v).map fun x => if nbit e.flags 2 then ((entry x.1 x.2 : Nat) : Int) else ((x.2 * 64 : Nat) : Int)
  let m := clipInt 0 65535 ((matrixRow ((e.coef.drop (3 * c)).take 3) e.ofsIn p + 0x2000) / 16384 + (nth? e.ofsOut c).getD 0)
  let l := colourLimits e.flags c
  let i := m.toNat / 64
  let f := m.toNat % 64
  let a : Int := ((entry (3 + c) i : Nat) : Int)
  let b : Int := ((entry (3 + c) (min (i + 1) 1023) : Nat) : Int)
  clipInt l.1 l.2 (if nbit e.flags 3 then a + ((b - a) * (f : Int) + 32) / 64 else min 1023 ((m + 32) / 64))

/-- A co-sited group through a colour task (R146, R369): all three components, and for the luma sample that follows only luma, with the chroma of the group. A task that is not enabled leaves it. -/
def taskGroup (n : Nat) (x : ColourSet) (g : PicGroup) : PicGroup :=
  match x.matrix with
  | none => g
  | some e =>
    if nbit e.flags 0 = false then g
    else
      let v := [g.c0, g.c1, g.c2]
      { c0 := (taskColour n x.tables e v 0).toNat, c1 := (taskColour n x.tables e v 1).toNat, c2 := (taskColour n x.tables e v 2).toNat,
        y1 := g.y1.map fun y => (taskColour n x.tables e [y, g.c1, g.c2] 0).toNat }

/-! ## Generators (R371) -/

/-- What generator task `t` presents in a format: its pattern; format-correct black for pattern 0, and for a slate that is not loaded or has another format (03_port_pipelines.md R150). -/
def genKind (s : State) (t : TaskCfg) (f : PortFmt) : LineKind :=
  let g := (tabFind t.task s.ibx.gen).getD t.pattern
  if g.1 = 6 then (match tabFind g.2 s.mem.slates with
    | some x => if slateFits x f then .slate g.2 else .black
    | none => .black)
  else if g.1 = 0 then .black else .pattern g.1

end Sys2Proof.Machine
end

