-- ==== Sys2Proof/Machine/Timecode.lean ====
section
/-! DEFINITION. Local time, the time addresses of the timecode task and its ATC packets (14_timebase_and_ptp.md R529, R530; 09_ibex_engines.md R372). -/

namespace Sys2Proof.Machine

/-! ## Local time (14_timebase_and_ptp.md R529) -/

def ptpPort (s : State) (k : Nat) : PtpPort := tabGet ptpPort0 k s.time.ptp

/-- The PTP port of the selected candidate. -/
def ptpSelected (s : State) : Option Nat := if s.ref.sel = some 2 then some 0 else if s.ref.sel = some 3 then some 1 else none

/-- The offset that PTP gives, while it is to be used (R529). -/
def utcPtp (s : State) : Option Int := if nbit s.time.conf.flags 1 then (ptpSelected s).bind fun k => (ptpPort s k).utc else none

/-- UTC_OFS in force (R529). -/
def utcOfs (s : State) : Int := if (utcPtp s).isSome then s.time.ptpUtc.getD s.time.conf.utcOfs else s.time.conf.utcOfs

/-- Local offset in minutes, DST included. -/
def localOfs (s : State) : Int := s.time.conf.localOfs + 60 * (s.time.conf.flags % 2 : Nat)

/-- Local time of the instant `t`, in ticks (R529). -/
def localAt (s : State) (t : Nat) : Int := (t : Int) + (60 * localOfs s - utcOfs s) * (tickSec : Int)

/-- Local time in seconds (R529). -/
def localSec (s : State) : Int := localAt s s.now / (tickSec : Int)

/-! ## Time addresses (14_timebase_and_ptp.md R530) -/

/-- Ticks of a day. -/
abbrev tickDay : Nat := 86400 * tickSec

/-- Local time of day of an instant, and the time since the last jam instant, in ticks. -/
def dayTicks (s : State) (t : Nat) : Nat := (localAt s t % (tickDay : Int)).toNat

def sinceJam (s : State) (t : Nat) : Nat := ((localAt s t - (s.time.conf.jam * tickSec : Nat)) % (tickDay : Int)).toNat

/-- Frames per second that addresses count: the nominal rate, halved above 30 Hz, where two frames share an address (log 188). -/
def tcBase (f : PortFmt) : Nat :=
  let n := ((fmtRate f).1 + (fmtRate f).2 - 1) / (fmtRate f).2
  if 30 < n then n / 2 else n

def tcPair (f : PortFmt) : Nat := if 30 * (fmtRate f).2 < (fmtRate f).1 then 2 else 1

/-- Formats at 29.97 and 59.94 Hz count in drop-frame (09_ibex_engines.md R372). -/
def tcDrop (f : PortFmt) : Bool := fmtFractional f && decide (tcBase f = 30)

/-- Frames of a day in drop-frame counting: two in each minute but every tenth are left out. -/
abbrev dropDay : Nat := 2589408

/-- Hours, minutes, seconds and frames of frame `k` of a day that counts `b` frames a second. -/
def hmsf (b k : Nat) : List Nat := [k / (3600 * b) % 24, k / (60 * b) % 60, k / b % 60, k % b]

/-- The address of frame `k` of a drop-frame day at 30 frames a second: the frames left out so far are put back. -/
def dropAddress (k : Nat) : List Nat :=
  let d := k % dropDay
  let t := d / 17982
  let r := d % 17982
  hmsf 30 (d + 18 * t + if r < 2 then 0 else 2 * ((r - 2) / 1798))

/-- The frame of a drop-frame day whose address is second `x` of the day, frame 0. -/
def dropFrame (x : Nat) : Nat := 30 * x - 2 * (x / 60 - x / 600)

/-- The time address of the frame of a format whose alignment point is at `t`: hours, minutes, seconds, frames, whether it counts in drop-frame, and which of the frames that share the address it is. The integer family takes local time; the 1/1.001 family counts frames from the last jam instant, where the address equals local time. -/
def timeAddress (s : State) (f : PortFmt) (t : Nat) : List Nat :=
  if fmtFractional f then
    let k := rateFrame (fmtRate f) (sinceJam s t)
    let n := k / tcPair f
    (if tcDrop f then dropAddress (dropFrame s.time.conf.jam + n) else hmsf (tcBase f) (tcBase f * s.time.conf.jam + n))
      ++ [b2n (tcDrop f), k % tcPair f]
  else
    let k := rateFrame (fmtRate f) (dayTicks s t)
    hmsf (tcBase f) (k / tcPair f) ++ [0, k % tcPair f]

/-! ## The packet (09_ibex_engines.md R372) -/

/-- The timecode task of an output runs (09_ibex_engines.md R383, R384). -/
def tcRuns (s : State) (cfg : ModeCfg) (n : Nat) : Bool :=
  cfg.tasks.any fun t => decide (t.kind = 8) && decide (t.port = n) && !taskDown s t

/-- DID and SDID of an ATC packet. -/
def isAtc (p : AncPkt) : Bool := decide (p.did = 0x60) && decide (p.sdid = 0x60)

/-- The ATC packet of a frame that starts at `t`: its user data stand for the address, in the horizontal ancillary space of luma, and it takes 29 bytes (log 188). -/
def atcPacket (s : State) (f : PortFmt) (t : Nat) : AncPkt :=
  { did := 0x60, sdid := 0x60, space := 0, data := timeAddress s f t, bytes := 29, parity := true, sum := ancSum 0x60 0x60 (timeAddress s f t) }

/-- The line that carries the ATC packet (log 188). -/
abbrev atcLine : Nat := 10

end Sys2Proof.Machine
end

