-- ==== Sys2Proof/Machine/Depacket.lean ====
section
/-! DEFINITION. The flow address table and the depacketisers: what a receive flow's de-jitter buffer holds, and the lines, ANC packets and samples that it gives the input it feeds (08_media_flows.md R321 to R346). -/

namespace Sys2Proof.Machine

/-! ## The table (R326, R330) -/

def flowTrack (s : State) (f : Nat) : FlowTrack := tabGet flowTrack0 f s.flow.f

def putFlow (f : Nat) (t : FlowTrack) (s : State) : State := { s with flow := { s.flow with f := tabSet flowTrack0 f t s.flow.f } }

def flowUsed (e : FlowEntry) : Bool := nbit e.flags 0
def flowRedEn (e : FlowEntry) : Bool := nbit e.flags 2
def flowBlueEn (e : FlowEntry) : Bool := nbit e.flags 3

/-- Entries 2,304 and above are receive flows. -/
def flowReceives (f : Nat) : Bool := decide (2304 ≤ f)

/-- TIMING FREE (R344). -/
def flowFree (f : Nat) (e : FlowEntry) : Bool := flowReceives f && decide (e.cls = 1)

/-- The used entry of flow `f` in force (R330): the one a patch has replaced, until the flow's own boundary. -/
def flowEntry? (s : State) (f : Nat) : Option FlowEntry :=
  match (flowTrack s f).prev with
  | some (e, t) => if s.now < t then some e else (nth? s.plan.tables.flows f).filter flowUsed
  | none => (nth? s.plan.tables.flows f).filter flowUsed

/-- The port that the depacketiser feeds: in MIRROR the merged words feed both rails (R356). -/
def flowHome (s : State) (n : Nat) : Nat := if modeNow s = 2 ∧ 576 ≤ n then n - 576 else n

/-- The receive flow of these essences bound to an input, with its entry. -/
def flowOf (s : State) (n : Nat) (ess : List Nat) : Option (Nat × FlowEntry) :=
  (upto 2304 (s.plan.tables.flows.length - 2304)).findSome? fun f =>
    match flowEntry? s f with
    | some e => if e.port = flowHome s n ∧ e.essence ∈ ess then some (f, e) else none
    | none => none

/-! ## Frames presented (R340, R344) -/

/-- The frame that a flow presents with line `k` of the format at the present: DLY frames back, or of a FREE flow the last whole one. -/
def flowShown (s : State) (f : Nat) (e : FlowEntry) (x : PortFmt) (k : Nat) : Option Nat :=
  if flowFree f e then (flowTrack s f).whole
  else let n := lineFrame x k s.now; if e.dly ≤ n then some (n - e.dly) else none

/-- What the buffer of a flow holds of a frame. -/
def flowHeld (s : State) (f frame : Nat) : List FlowPart :=
  ((flowTrack s f).held.filter fun h => decide (h.frame = frame)).map FlowHeld.part

/-- Row and field of a row of the image, as ST 2110-20 numbers them: by field in an interlaced or PsF format. -/
def rowNumber (x : PortFmt) (r : Nat) : Nat × Bool := if x.scan = 0 then (r, false) else (r / 2, decide (r % 2 = 1))

/-- The bytes of a row from the segments that hold it, in order of offset; none where some are missing (R343). -/
def rowBuild (x : PortFmt) (segs : List RowSeg) : Nat → Nat → Option (List Nat)
  | 0, _ => none
  | n + 1, at_ =>
    if rowBytes x ≤ at_ then some []
    else match segs.find? fun g => decide (g.offset / pgroupPixels x * pgroupOf x = at_) && !g.bytes.isEmpty with
      | none => none
      | some g => (rowBuild x segs n (at_ + g.bytes.length)).map fun r => g.bytes ++ r

def rowFind (x : PortFmt) (parts : List FlowPart) (r : Nat) : Option (List Nat) :=
  let segs := parts.filterMap fun p => match p with
    | .row g => if (g.row, g.field) = rowNumber x r then some g else none
    | _ => none
  rowBuild x segs (segs.length + 1) 0

/-- A line as the depacketiser builds it for an input (R339, R340, R343): its samples, its words marked invalid where packets are missing, TRS, number, CRC and payload ID of the expected format; nothing, where no packet of the frame has come. A task whose engine is faulted presents words marked invalid (09_ibex_engines.md R383). -/
def flowLine (s : State) (n : Nat) (x : PortFmt) (l : LineInfo) : Option LineInfo :=
  match flowOf s n [1, 5] with
  | none => some l
  | some (f, e) =>
    let parts := (flowShown s f e x l.number).elim [] (flowHeld s f)
    if flowEngineDown s f then some { l with invalid := true, vpid := none, pic := [], anc := [], audio := [] }
    else if parts.isEmpty then none
    else if e.essence = 1 then
      let rows := (rowsOfLine x l.number).map (rowFind x parts)
      some { number := l.number, crcFail := false, invalid := rows.any Option.isNone, vpid := if vpidLine x l.number then some x.vpid else none,
             pic := rows.flatMap fun r => r.elim [] (rowPic x), anc := [], audio := [] }
    else
      let have_ := parts.filterMap fun p => match p with
        | .whole i _ => some i
        | _ => none
      some { l with invalid := l.invalid || !((wholeOfLine x l.number).all fun i => decide (i ∈ have_)) }

/-- The ANC packets that a bound ANC flow brings to the frame that starts with line 1 (R346), with their lines. -/
def flowAnc (s : State) (n : Nat) (x : PortFmt) : List (Nat × AncPkt) :=
  match flowOf s n [4] with
  | none => []
  | some (f, e) => ((flowShown s f e x 1).elim [] (flowHeld s f)).filterMap fun p => match p with
    | .anc k a => some (k, a)
    | _ => none

/-- The input is fed by LOCKED flows: its frames lie at their nominal arrival (R340). -/
def flowLocked (s : State) (n : Nat) : Bool := (flowOf s n [1, 5]).elim false fun x => !flowFree x.1 x.2

/-! ## Packets (R338, R339, R341) -/

/-- A payload is well formed for the flow (R338): 1 to 3 row segments of whole pixel groups within the image (R339); samples of AUD_COUNT channels for a packet time; ANC packets; 1,376 bytes. -/
def bodyOk (rate : Nat) (x : Option PortFmt) (e : FlowEntry) : RtpBody → Bool
  | .video _ segs =>
    match x with
    | some x => decide (e.essence = 1) && decide (1 ≤ segs.length) && decide (segs.length ≤ 3)
        && segs.all fun g => decide (g.row < x.height) && decide (g.offset % pgroupPixels x = 0) && decide (g.bytes.length % pgroupOf x = 0)
          && decide (g.offset / pgroupPixels x * pgroupOf x + g.bytes.length ≤ rowBytes x)
    | none => false
  | .audio ss => decide (e.essence = 2 ∨ e.essence = 3) && decide (ss.length * 1000000 = rate * e.ptime)
      && ss.all fun c => decide (c.length = e.audCount) && c.all fun v => decide (v < if e.essence = 2 then 2 ^ 24 else 2 ^ 32)
  | .anc _ => decide (e.essence = 4)
  | .whole _ bytes => decide (e.essence = 5) && decide (bytes.length = wholeBytes)
  | .other => false

/-- Position of a packet in its flow (R347): the extended sequence number of ESSENCE 1, otherwise the sequence number. -/
def rtpPos (r : RtpPkt) : Nat :=
  match r.body with
  | .video ext _ => ext % 65536 * 65536 + r.seq % 65536
  | _ => r.seq % 65536

/-- The number of positions of a flow. -/
def posSpace (e : FlowEntry) : Nat := if e.essence = 1 then 2 ^ 32 else 65536

/-- The frame of an ESSENCE 5 datagram, from its frame count, nearest to time `t`; and its index in that frame, from the first datagram of a frame known (R339). -/
def wholePlace (x : PortFmt) (first : Option (Nat × Nat)) (fc seq t : Nat) : Option (Nat × Nat) :=
  let n := fmtFrameNear x t
  let d := (fc + 256 - n % 256) % 256
  let frame := if d < 128 then n + d else n + d - 256
  first.map fun a => (frame, (seq + 65536 * 256 - (a.2 + (fc + 256 - a.1) % 256 * wholePackets x)) % 65536)

/-- Ticks from the RTP time of a sample, or the alignment point of a frame, to its presentation (R340, R345). -/
def flowDelay (x : Option PortFmt) (e : FlowEntry) : Nat := e.dly * x.elim tickMs fmtFrameTicks

/-- The plane sample at which the first sample of an audio packet is presented (R345). -/
def audPresent (rate : Nat) (x : Option PortFmt) (e : FlowEntry) (ts t : Nat) : Nat := clockNear rate ts t + (flowDelay x e * rate + tickSec / 2) / tickSec

/-- The frame to which a packet of a LOCKED flow belongs, and its deadline (R341; log 198): 2 µs before the nominal arrival of the line of its first word, of line 1 for ESSENCE 4 and 5, or, for samples, before they are presented. -/
def rtpDue (rate : Nat) (x : Option PortFmt) (e : FlowEntry) (first : Option (Nat × Nat)) (r : RtpPkt) (t : Nat) : Nat × Int :=
  let line := fun (f : PortFmt) (n k : Nat) => eavNominal f (n + e.dly) k - (2 * tickUs : Nat)
  match x, r.body with
  | some f, .video _ segs =>
    let n := stampFrame f r.timestamp t
    (n, line f n ((segs.head?.map fun g => lineOfRow f (if f.scan = 0 then g.row else 2 * g.row + b2n g.field)).getD 1))
  | some f, .anc _ => let n := stampFrame f r.timestamp t; (n, line f n 1)
  | some f, .whole fc _ => let n := ((wholePlace f first fc r.seq t).map Prod.fst).getD (fmtFrameNear f t); (n, line f n 1)
  | _, _ => let k := audPresent rate x e r.timestamp t; (k, (k * (tickSec / rate) : Nat) - (2 * tickUs : Nat))

/-- What a packet leaves in the de-jitter buffer, for its frame. -/
def rtpHeld (x : Option PortFmt) (first : Option (Nat × Nat)) (frame t : Nat) (r : RtpPkt) : List FlowHeld :=
  let put := fun (p : FlowPart) => FlowHeld.mk (rtpPos r) frame p
  match r.body with
  | .video _ segs => segs.map fun g => put (.row g)
  | .anc l => l.map fun a => put (.anc a.1 a.2)
  | .whole fc bytes => ((x.bind fun f => wholePlace f first fc r.seq t).map fun p => put (.whole p.2 bytes)).toList
  | _ => []

/-- The slot of a received sample (R345): 24 bits with Z, V, U and C at zero, or the AES3 bits received. -/
def rtpSlot (e : FlowEntry) (v : Nat) : Word := if e.essence = 2 then BitVec.ofNat 32 (v * 256) else BitVec.ofNat 32 v

/-- The source channel of channel `c` of a receive audio flow. -/
def audInto (e : FlowEntry) (c : Nat) : Nat := if e.port = 0xFFFF then e.audBase + c else 32 * e.port + e.audFirst - 1 + c

/-- The samples of an audio packet wait for their presentation (R345); in MIRROR on both rails (R356). -/
def audArrive (e : FlowEntry) (k : Nat) (ss : List (List Nat)) (s : State) : State :=
  let put := fun (s : State) (ch j v : Nat) =>
    let a := tabGet audSrc0 ch s.aud.srcs
    { s with aud := { s.aud with srcs := tabPut ch { a with timed := tabPut j (rtpSlot e v) a.timed } s.aud.srcs } }
  ((upto 0 ss.length).zip ss).foldl (fun s x => ((upto 0 x.2.length).zip x.2).foldl (fun s y =>
    let ch := audInto e y.1
    let s := put s ch (k + x.1) y.2
    if modeNow s = 2 ∧ e.port ≠ 0xFFFF then put s (ch + 18432) (k + x.1) y.2 else s) s) s

end Sys2Proof.Machine
end

