-- ==== Sys2Proof/Machine/Compose.lean ====
section
/-! DEFINITION. What the composition heads compose: blending, surfaces, colour, the backdrop and the rows of a head's raster (10_composition.md R396, R397, R410 to R416). -/

namespace Sys2Proof.Machine

/-! ## Blending (R397, R415) -/

/-- The per-pixel alpha of a format 0 pixel in 10 bits. -/
def alphaOf8 (a : Nat) : Nat := 4 * a + a / 64

/-- The effective weight of a pixel. -/
def blendWeight (alpha a : Nat) : Nat := (alpha * a + 511) / 1023

/-- One component of a layer blended onto what lies below. -/
def blend (w layer below : Nat) : Nat := (w * layer + (1023 - w) * below + 511) / 1023

/-! ## Heads of the mode (R392, R393) -/

/-- The head of the plan that physical head `h` runs: in MIRROR the heads of Q2 and Q3 are the twins of those of Q0 and Q1 (R393). -/
def homeHead (s : State) (h : Nat) : Nat := if modeNow s = 2 ∧ 48 ≤ h then h - 48 else h

def headCfg? (s : State) (h : Nat) : Option HeadCfg :=
  s.plan.cfg.heads.find? fun c => decide (c.head = homeHead s h)

/-- The physical heads that run a head of the plan. -/
def headsOf (s : State) (h : Nat) : List Nat := if modeNow s = 2 then [h, h + 48] else [h]

/-! ## Layers -/

def entryStatic (e : LayerEntry) : Bool := nbit e.flags 1 && decide (16 ≤ e.layer)

def layerTrack (s : State) (h l : Nat) : LayerTrack := tabGet layerTrack0 (21 * h + l) s.comp.layers

def headTrack (s : State) (h : Nat) : HeadTrack := tabGet headTrack0 h s.comp.heads

/-! ## Surfaces (R410, R411) -/

/-- Words of a row at place `x`, laid over those that stand there. -/
def rowPut (x : Nat) (ws row : List Nat) : List Nat := (row ++ List.replicate (x - row.length) 0).take x ++ ws ++ row.drop (x + ws.length)

/-- A surface with a rectangle copied into it (R411): the rest is what the front surface held. -/
def surfPut (p : SurfPart) (u : Surface) : Surface :=
  { fmt := p.fmt, swaps := u.swaps + 1,
    lines := ((upto p.y p.rows.length).zip p.rows).foldl (fun t r => tabPut r.1 (rowPut p.x r.2 (tabGet [] r.1 t)) t) u.lines }

/-- A pixel of a surface (R410): three components, R', G', B' of 8 bits or Y', Cb, Cr of 10, and its alpha in 10 bits (R397). -/
def surfPixel (u : Surface) (x y : Nat) : List Nat × Nat :=
  let w := fun i => (nth? (tabGet [] y u.lines) i).getD 0
  if u.fmt = 0 then ([nfld (w x) 16 8, nfld (w x) 8 8, nfld (w x) 0 8], alphaOf8 (nfld (w x) 24 8))
  else
    let v := w (x - x % 2) % 2 ^ 32 + w (x - x % 2 + 1) * 2 ^ 32
    if x % 2 = 0 then ([nfld v 10 10, nfld v 0 10, nfld v 20 10], nfld v 40 10) else ([nfld v 30 10, nfld v 0 10, nfld v 20 10], nfld v 50 10)

/-- A 32-bit word of the upload area at any byte. -/
def uploadWord (ws : List Nat) (b : Nat) : Nat :=
  let w := fun i => (nth? ws i).getD 0 % 2 ^ 32
  nfld (w (b / 4) + w (b / 4 + 1) * 2 ^ 32) (8 * (b % 4)) 32

/-- The rows of a rectangle in the upload area (R411). -/
def uploadRows (ws : List Nat) (w h stride : Nat) : List (List Nat) := (upto 0 h).map fun k => (upto 0 w).map fun i => uploadWord ws (k * stride + 4 * i)

/-! ## Colour (R414 to R416) -/

/-- A quotient to the nearest integer. -/
def roundDiv (a b : Int) : Int := (2 * a + b) / (2 * b)

/-- Full-range 8-bit R'G'B' to narrow-range 10-bit Y', Cb, Cr with the matrix of ITU-R BT.709 (R415; log 205). -/
def bt709 (r g b : Nat) : List Nat :=
  let y : Int := 2126 * (r : Int) + 7152 * (g : Int) + 722 * (b : Int)
  [(64 + roundDiv (876 * y) 2550000).toNat, (512 + roundDiv (896 * (10000 * (b : Int) - y)) (255 * 18556)).toNat,
   (512 + roundDiv (896 * (10000 * (r : Int) - y)) (255 * 15748)).toNat]

/-- The tables of set `n` of a head, by number 0 to 5 (R416). -/
def setTables (t : Tab (List Nat)) (n : Nat) : Tab (List Nat) := (t.filter fun x => decide (x.1 / 6 = n)).map fun x => (x.1 % 6, x.2)

/-- A pixel through a colour entry (R414 to R416): with a table set the steps of R369 with its tables; otherwise the matrix of R146. A format 0 pixel whose entry is not enabled takes the matrix of BT.709. -/
def pixColour (head : Nat) (argb : Bool) (e : Option ColourEntry) (tset : Nat) (t : Tab (List Nat)) (p : List Nat) : List Nat :=
  match e.filter fun e => nbit e.flags 0 with
  | none => match argb, p with
    | true, [r, g, b] => bt709 r g b
    | _, _ => p
  | some e =>
    let v := match argb, p with
      | true, [r, g, b] => [g, b, r].map Config.surfaceCode
      | _, _ => p
    (upto 0 3).map fun c =>
      (if tset < 8 then taskColour (8192 + 8 * head + tset) (setTables t tset) { e with flags := e.flags ||| 12 } v c
       else outputColour e (v.map fun (x : Nat) => (x : Int)) c).toNat

/-! ## Composition (R396, R397, R408, R412) -/

/-- A pixel of a layer with ALPHA `alpha` and its own alpha `a` onto what lies below. -/
def blendPix (alpha a : Nat) (top below : List Nat) : List Nat := (top.zip below).map fun x => blend (blendWeight alpha a) x.1 x.2

/-- The components of a FILL colour (R398). -/
def fillPix (f : Nat) : List Nat := [nfld f 0 10, nfld f 10 10, nfld f 20 10]

/-- The pixel lies in the output rectangle of a layer. -/
def inLayer (e : LayerEntry) (x y : Nat) : Bool := decide (e.outX ≤ x) && decide (x < e.outX + e.outW) && decide (e.outY ≤ y) && decide (y < e.outY + e.outH)

/-- A graphic layer's pixel onto what lies below. -/
def graphicOver (head : Nat) (d : DropLayer) (x y : Nat) (below : List Nat) : List Nat :=
  let e := d.entry
  if inLayer e x y then
    let p := surfPixel d.surf (e.cropX + x - e.outX) (e.cropY + y - e.outY)
    blendPix e.alpha p.2 (pixColour head (decide (d.surf.fmt = 0)) d.colour e.tset d.tables p.1) below
  else below

/-- A graphic layer as it stands, with the colour entry of the running frame. -/
def dropLayer (s : State) (h l : Nat) : DropLayer :=
  { entry := (layerTrack s h l).entry, surf := tabGet surface0 (21 * homeHead s h + l) s.comp.surfaces, colour := nth? (headTrack s h).colour l,
    tables := (headTrack s h).tables }

/-- The backdrop that a rebuild makes (R412): the background colour and every enabled static graphic layer. -/
def dropOf (s : State) (h : Nat) : Nat × List DropLayer :=
  ((layerTrack s h 20).entry.fill, ((upto 16 4).map (dropLayer s h)).filter fun d => entryOn d.entry && entryStatic d.entry)

/-- A video layer's pixel onto what lies below: its picture, or in STATE 3 its fill. -/
def videoOver (s : State) (h l : Nat) (row : List (List Nat)) (x y : Nat) (below : List Nat) : List Nat :=
  let e := (layerTrack s h l).entry
  if inLayer e x y = false then below
  else if getF s (Reg.compLayerStatus h l) 0 2 = 3 then (if nbit e.flags 3 then below else blendPix e.alpha 1023 (fillPix e.fill) below)
  else match nth? row (x - e.outX) with
    | some p => blendPix e.alpha 1023 (pixColour h false (nth? (headTrack s h).colour l) e.tset (headTrack s h).tables p) below
    | none => below

/-- A pixel of head `h`'s raster before its output entry (R396): backdrop, then the layers of the running frame from the bottom up. -/
def headPixel (s : State) (h : Nat) (rows : List (Nat × List (List Nat))) (y x : Nat) : List Nat :=
  let t := headTrack s h
  let d := t.drop.getD ((layerTrack s h 20).entry.fill, [])
  let base := d.2.foldl (fun p l => graphicOver h l x y p) (fillPix d.1)
  t.order.foldl (fun p l => if l < 16 then videoOver s h l (tabGet [] l rows) x y p else graphicOver h (dropLayer s h l) x y p) base

/-- A row of head `h`'s raster as co-sited groups (R397, R414): chroma is that of the co-sited pixel. -/
def headRow (s : State) (h width : Nat) (rows : List (Nat × List (List Nat))) (y : Nat) : List PicGroup :=
  let t := headTrack s h
  let px := fun x => pixColour h false (nth? t.colour 20) (layerTrack s h 20).entry.tset t.tables (headPixel s h rows y x)
  (upto 0 (width / 2)).filterMap fun k => match px (2 * k), px (2 * k + 1) with
    | [y0, cb, cr], [y1, _, _] => some { c0 := y0, c1 := cb, c2 := cr, y1 := some y1 }
    | _, _ => none

end Sys2Proof.Machine
end

