-- ==== Sys2Proof/Machine/Health.lean ====
section
/-! DEFINITION. Health and its penalties (15_the_pair.md R552 to R556). -/

namespace Sys2Proof.Machine

/-- Penalty of a class (R554). -/
def penaltyOf (cls : Nat) : Nat :=
  match cls with
  | 0 => 64
  | 1 => 64
  | 2 => 32
  | 3 => 192
  | _ => 0

/-- Sum of the penalties in force, from the bits of `PAIR_HEALTH`.PENALTIES. -/
def penaltySum (bits : Nat) : Nat :=
  sumL ((upto 0 4).map fun c => if nbit bits c then penaltyOf c else 0)

/-- CAP in force: 255 unless R556 has set another value. -/
def capNow (s : State) : Nat :=
  let c := getF s Reg.pairHealth 8 8
  if c = 0 then 255 else c

/-- HEALTH under R553. -/
def healthOf (s : State) : Nat :=
  min (capNow s) (max 1 (255 - penaltySum (getF s Reg.pairHealth 16 4)))

/-- HEALTH written anew, with a record of source 0x6B1 when the register changes, and MEDIA_HOLD, which stands while an AIR_PATH, STORE or THERMAL penalty is in force (R581). -/
def refreshHealth (before : Word) (s : State) : State :=
  let s := putB Reg.pairStatus 8 (decide (getF s Reg.pairHealth 16 2 ≠ 0) || getB s Reg.pairHealth 19) s
  let s' := putF Reg.pairHealth 0 8 (healthOf s) s
  if rd s' Reg.pairHealth = before then s' else raiseState Src.health noInst Reg.pairHealth before s'

/-- An event of a penalty class (R555): the penalty is in force and its removal counts from this epoch. -/
def penalty (cls : Nat) (s : State) : State :=
  let before := rd s Reg.pairHealth
  let from_ := if s.pair.penTo ≤ epochNow s then epochNow s else s.pair.penFrom
  let s := { s with pair := { s.pair with penEpoch := tabPut cls (epochNow s) s.pair.penEpoch, penFrom := from_, penTo := epochNow s + 65 } }
  refreshHealth before (putB Reg.pairHealth (16 + cls) true s)

/-- An event of R554 in quadrant `q` flags the quadrant's rail in MIRROR (R591): HOME_FLAG in Q0 and Q1, TWIN_FLAG in Q2 and Q3. -/
def railEvent (q : Nat) (s : State) : State :=
  let s := { s with pair := { s.pair with railAt := tabPut q (epochNow s) s.pair.railAt } }
  if modeNow s = 2 then putB (Reg.mirRailState (q % 2)) (16 + q / 2) true s else s

/-- Blocks with an event of R554 in the present epoch (R574). -/
def pathHit (bs : List PathBlock) (s : State) : State :=
  { s with pair := { s.pair with hits := bs.map (fun b => (epochNow s, b)) ++ s.pair.hits.filter fun h => decide (epochNow s ≤ h.1 + 4) } }

/-- An event of a penalty class in quadrant `q`, on the blocks `bs`. -/
def penaltyAt (q cls : Nat) (bs : List PathBlock) (s : State) : State := railEvent q (pathHit bs (penalty cls s))

/-- A penalty removed at the end of the 64th consecutive epoch without an event of its class (R555). -/
def penaltyRemove (cls : Nat) (s : State) : State :=
  match tabFind cls s.pair.penEpoch with
  | none => s
  | some e =>
    if e + 65 ≤ epochNow s then
      let before := rd s Reg.pairHealth
      let s := { s with pair := { s.pair with penEpoch := tabErase cls s.pair.penEpoch } }
      refreshHealth before (putB Reg.pairHealth (16 + cls) false s)
    else s

/-- CAP set (R556). -/
def setCap (v : Nat) (s : State) : State :=
  let before := rd s Reg.pairHealth
  refreshHealth before (putF Reg.pairHealth 8 8 v s)

end Sys2Proof.Machine
end

