-- ==== Sys2Proof/Machine/Ports.lean ====
section
/-! DEFINITION. The port pipelines (03_port_pipelines.md). -/

namespace Sys2Proof.Machine

/-! ## What the committed mode says of a port -/

def inCfg? (s : State) (n : Nat) : Option InCfg := s.plan.cfg.inputs.find? fun c => decide (c.port = n)

/-- The configuration that destination `d` runs (01_compiled_plan.md R43): from the start of an apply frame until its change-over, that before the change. -/
def cfgOf (s : State) (d : Nat) : ModeCfg :=
  match s.plan.pending with
  | some p => if p.applied ∧ d ∈ p.remaining then s.plan.oldCfg else s.plan.cfg
  | none => s.plan.cfg

/-- Destination `d` has not changed over to the base plan whose apply frame has started (01_compiled_plan.md R43). -/
def onOldPlan (s : State) (d : Nat) : Bool :=
  match s.plan.pending with
  | some p => decide (p.kind = .base) && p.applied && decide (d ∈ p.remaining)
  | none => false

/-- The tables of the base plan that an output runs (01_compiled_plan.md R43). -/
def tablesOf (s : State) (d : Nat) : Tables := if onOldPlan s d then s.plan.oldTables else s.plan.tables

def outCfg? (s : State) (n : Nat) : Option OutCfg := (cfgOf s n).outputs.find? fun c => decide (c.port = n)

/-- A member of the group of a port: shape, lead, number of members (R152). -/
def groupOf (gs : List GroupCfg) (input : Bool) (n : Nat) : Option GroupCfg :=
  gs.find? fun g => decide (g.input = input) && decide (g.lead ≤ n) && decide (n < g.lead + if g.shape = 7 then 2 else 4)

def groupSize (g : GroupCfg) : Nat := if g.shape = 7 then 2 else 4

/-- Members of the output group that a destination leads, or the destination alone (R99). -/
def groupMembers (gs : List GroupCfg) (input : Bool) (n : Nat) : List Nat :=
  match groupOf gs input n with
  | some g => upto g.lead (groupSize g)
  | none => [n]

/-- The air mark of an input and of an output (01_compiled_plan.md R65). -/
def airIn (s : State) (n : Nat) : Bool := nbit ((nth? s.plan.tables.air n).getD 0) 0

def airOut (s : State) (n : Nat) : Bool := nbit ((nth? (tablesOf s n).air (1152 + n)).getD 0) 0

/-- The entry of the committed memory allocation of a kind and owner (04_frame_stores.md R194). In MIRROR the second rail's copy, marked MIRROR_TWIN, stands beside it (R167). -/
def memEntry? (s : State) (kind owner : Nat) : Option MemEntry :=
  (memEntries s.plan.committed s.plan.cfg.mode).find? fun e => decide (e.kind = kind) && decide (e.owner = owner) && !nbit e.flags 0

/-- The same for what serves an output, which keeps that of the plan it runs until its change-over (01_compiled_plan.md R43). -/
def destMem? (s : State) (kind d : Nat) : Option MemEntry :=
  let es := match s.plan.pending with
    | some p => if p.applied ∧ d ∈ p.remaining then s.plan.oldMem else memEntries s.plan.committed s.plan.cfg.mode
    | none => memEntries s.plan.committed s.plan.cfg.mode
  es.find? fun e => decide (e.kind = kind) && decide (e.owner = d) && !nbit e.flags 0

/-- The number of the first rail that a port or process number of the second rail doubles in MIRROR (02_word_fabric_and_takes.md R81). -/
def railHome (mode n : Nat) : Option Nat :=
  if mode ≠ 2 then none else if 576 ≤ n ∧ n < 1152 then some (n - 576) else if 1280 ≤ n ∧ n < 1408 then some (n - 128) else none

/-- The ring that serves source `n`: its own entry, or in MIRROR the second rail's copy of its logical source's (04_frame_stores.md R167, R194; log 185). -/
def ringEntry (es : List MemEntry) (mode n : Nat) : Option MemEntry :=
  match railHome mode n with
  | none => es.find? fun e => decide (e.kind = 1) && decide (e.owner = n) && !nbit e.flags 0
  | some m => es.find? fun e => decide (e.kind = 1) && nbit e.flags 0 && (decide (e.owner = m) || decide (e.owner = n))

def ringEntry? (s : State) (n : Nat) : Option MemEntry := ringEntry (memEntries s.plan.committed s.plan.cfg.mode) s.plan.cfg.mode n

/-- The lead of an input's alignment group, or the input itself. -/
def inLead (s : State) (n : Nat) : Nat := match groupOf s.plan.cfg.groups true n with | some g => g.lead | none => n

/-- The input has a frame synchroniser: a ring serves it or the lead of its group (04_frame_stores.md R171). -/
def inSync (s : State) (n : Nat) : Bool := (ringEntry? s (inLead s n)).isSome

/-- The input's lines go into its ring, and stages 5 to 8 work on the frames read out of it (04_frame_stores.md R171): an input with a synchroniser, outside a group (log 186). -/
def inRing (s : State) (n : Nat) : Bool := inSync s n && (groupOf s.plan.cfg.groups true n).isNone

/-- A receive flow of ST 2110-20 feeds the input (R125): its lines bring no audio and no ANC packets of their own. -/
def videoFed (s : State) (c : InCfg) : Bool :=
  c.fromFlow && (s.plan.tables.flows.drop 2304).any fun e => nbit e.flags 0 && decide (e.essence = 1) && decide (e.port = c.port)

/-- A sample enters the audio plane on source channel `ch`. -/
def audPush (ch : Nat) (w : Word) (s : State) : State :=
  let x := tabGet audSrc0 ch s.aud.srcs
  { s with aud := { s.aud with srcs := tabPut ch { x with queue := x.queue ++ [w] } s.aud.srcs } }

/-! ## Inputs -/

def inTrack (s : State) (n : Nat) : InTrack := tabGet inTrack0 n s.port.ins

def putIn (n : Nat) (t : InTrack) (s : State) : State :=
  { s with port := { s.port with ins := tabSet inTrack0 n t s.port.ins } }

/-- STATE of `PIN_STATUS[i]` (R130). -/
def inState (s : State) (n : Nat) : Nat := getF s (Reg.pinStatus n) 0 3

/-- The synchroniser of a source hears that its input has left LOCKED (04_frame_stores.md R173, R179): the frame under way is discarded, and selections no longer stand. -/
def fsLeft (n : Nat) (s : State) : State :=
  match tabFind n s.mem.fs with
  | none => s
  | some t => { s with mem := { s.mem with fs := tabPut n { t with whole := false, lost := true, writing := [], sel := none, selNext := none } s.mem.fs } }

/-- The synchroniser of a source hears that its input has become LOCKED: frames that begin from now on may become complete (04_frame_stores.md R173). -/
def fsLocked (n : Nat) (s : State) : State :=
  match tabFind n s.mem.fs with
  | none => s
  | some t => { s with mem := { s.mem with fs := tabPut n { t with whole := true, lockedAt := s.mono } s.mem.fs } }

/-- Some member of the input's group, or the input itself, is LOCKED. -/
def anyLocked (s : State) (n : Nat) : Bool := (groupMembers s.plan.cfg.groups true n).any fun m => decide (inState s m = 3)

/-- The trunk stream of an input has no valid words: its last release had none, or it has left its receive buffer's range (06_trunk_framing.md R276, R284). -/
def streamInvalid (s : State) (n : Nat) : Bool := ((tabFind n s.trk.streams).map fun b => b.bad || !b.valid).getD false

/-- A stream that left its receive buffer's range is measured anew once its input is LOCKED again (06_trunk_framing.md R276). -/
def streamLocked (n : Nat) (s : State) : State :=
  match tabFind n s.trk.streams with
  | some b => if b.bad then { s with trk := { s.trk with streams := tabErase n s.trk.streams } } else s
  | none => s

/-- An input changes state (R130), with its record; leaving LOCKED its words are no longer valid. The synchroniser of a group loses its input with the last member that is LOCKED. -/
def setInState (n v : Nat) (s : State) : State :=
  let before := anyLocked s n
  let s := if inState s n ≠ 3 ∧ v = 3 then streamLocked n s else s
  let s := stateEvent (Src.input n) noInst (Reg.pinStatus n) 0 3 v s
  let t := inTrack s n
  let s := putIn n { t with live := t.live && decide (v = 3), oos := 0, vpidBad := 0, linesAt := s.now } s
  if before && !anyLocked s n then fsLeft (inLead s n) s else if !before && anyLocked s n then fsLocked (inLead s n) s else s

/-- Lines that have passed without a signal are counted as presented invalid (R161). -/
def settleLines (n : Nat) (s : State) : State :=
  match inCfg? s n with
  | none => s
  | some c =>
    if inState s n = 1 ∧ inRing s n = false then
      let t := inTrack s n
      let l := max 1 (fmtLineTicks c.fmt)
      let k := (s.now - t.linesAt) / l
      bump (Reg.pinLinesInvalid n) 0 32 k (putIn n { t with linesAt := t.linesAt + k * l } s)
    else s

def outTrack (s : State) (n : Nat) : OutTrack := tabGet outTrack0 n s.port.outs

def putOut (n : Nat) (t : OutTrack) (s : State) : State :=
  { s with port := { s.port with outs := tabSet outTrack0 n t s.port.outs } }

/-- A member of an alignment group is being replaced from a store. -/
def memberStore (s : State) (input : Bool) (n : Nat) : Bool := if input then (inTrack s n).fromStore else (outTrack s n).fromStore

/-- The group register of a member that is replaced, from a store or not, or no longer replaced (R154, R156, R163): MISSING; FROM_STORE while some member of the group is replaced from a store; SUBST_SEEN. -/
def setMissing (input : Bool) (n : Nat) (missing store : Bool) (s : State) : State :=
  match groupOf s.plan.cfg.groups input n with
  | none => s
  | some _ =>
    let a := if input then Reg.pgrpInStatus (n / 4) else Reg.pgrpOutStatus (n / 4)
    let src := Src.quad (n / 288) (if input then 2 else 3)
    let before := rd s a
    let s := if input then putIn n { inTrack s n with fromStore := store && missing } s else putOut n { outTrack s n with fromStore := store && missing } s
    let s := putB a (4 + n % 4) missing s
    let s := putB a 8 ((upto 0 4).any fun k => getB s a (4 + k) && memberStore s input (n / 4 * 4 + k)) s
    let s := if missing then putB a 9 true s else s
    if rd s a = before then s else raiseState src (n / 4 % 72) a before s

/-- SHAPE of the groups on ports 4g to 4g + 3 (R152, R163). -/
def groupShape (gs : List GroupCfg) (input : Bool) (g : Nat) : Nat :=
  let has := fun (lead shape : Nat) => gs.any fun x => decide (x.input = input) && decide (x.lead = lead) && decide (x.shape = shape)
  if has (4 * g) 8 then 4 else if has (4 * g) 9 then 5 else b2n (has (4 * g) 7) + 2 * b2n (has (4 * g + 2) 7)

/-- The group registers of ports 4g to 4g + 3 from the configuration in force: SHAPE, and nothing missing where no group stands (R163). -/
def setupGroup (input : Bool) (g : Nat) (s : State) : State :=
  let gs := s.plan.cfg.groups
  let a := if input then Reg.pgrpInStatus g else Reg.pgrpOutStatus g
  let s := putF a 0 3 (groupShape gs input g) s
  let s := (upto 0 4).foldl (fun s k => if (groupOf gs input (4 * g + k)).isNone then putB a (4 + k) false s else s) s
  if getF s a 4 4 = 0 then putB a 8 false s else s

/-- A CRC failure (R131): counted; at most one record per epoch. -/
def inCrc (n : Nat) (s : State) : State :=
  let s := putB (Reg.pinStatus n) 10 true (count (Reg.pinCrcErr n) s)
  let t := inTrack s n
  if t.crcEpoch = epochNow s + 1 then s
  else raiseFlag (Src.input n) noInst (Reg.pinStatus n) 10 (putIn n { t with crcEpoch := epochNow s + 1 } s)

/-- A payload ID read on a line that ST 352 assigns to the format (R132); in LOCKED the second consecutive frame with a mismatch ends LOCKED (R130). -/
def inVpid (n : Nat) (c : InCfg) (v : Nat) (s : State) : State :=
  let ok := decide (v % 65536 = c.fmt.vpid % 65536)
  let s := putB (Reg.pinStatus n) 9 ok (wr (Reg.pinVpid n) (BitVec.ofNat 32 v) s)
  let t := inTrack s n
  let bad := if ok then 0 else if t.vpidNow then t.vpidBad else t.vpidBad + 1
  let s := putIn n { t with vpidNow := true, vpidBad := bad } s
  if inState s n = 3 ∧ 2 ≤ bad then setInState n 4 s else s

/-- An audio flag of `PIN_AUD_STATUS[i]` set, with a record when it was clear. -/
def audFlag (n b : Nat) (s : State) : State :=
  if getB s (Reg.pinAudStatus n) b then s else flagEvent (Src.input n) noInst (Reg.pinAudStatus n) b s

/-- The rate that a group declares (R136): in the present frame or the last one; 48 kHz with no control packet. -/
def audDeclared (t : InTrack) (g : Nat) : Nat :=
  match tabFind g t.ctlNow with
  | some x => x.1
  | none => ((tabFind g t.ctlLast).map Prod.fst).getD 48000

/-- Samples per channel of the frame that an input is in (R137). -/
def audNeed (s : State) (c : InCfg) (t : InTrack) : Nat := audioSamples c.fmt (planeRate s) t.frameNo

/-- A sample of each channel of audio group `g` of input `n` enters the plane (R134). -/
def audGroupPush (n g : Nat) (ws : List Word) (s : State) : State :=
  ((upto 0 4).zip ws).foldl (fun s x => audPush (32 * n + 4 * (g - 1) + x.1) x.2 s) s

/-- One audio packet of a line (R134 to R137): a control packet's declaration; of a data packet the parity, and its samples, which are zero where the group's rate is not the plane's or the line is missing, and dropped beyond the cadence. -/
def inAudio (n : Nat) (c : InCfg) (silent : Bool) (s : State) (p : AudPkt) : State :=
  match audCtlGroup p.did, audDataGroup p.did with
  | some g, _ =>
    let t := inTrack s n
    let s := putIn n { t with audNow := nset t.audNow (g - 1) true, ctlNow := tabPut g (p.rate, p.async) t.ctlNow,
                              audAsync := if p.async then nset t.audAsync (g - 1) true else t.audAsync } s
    if p.rate = planeRate s then s else audFlag n 16 s
  | none, some g =>
    let s := if p.samples.any fun x => !x.parityOk then audFlag n 18 s else s
    let t := inTrack s n
    let k := tabGet 0 g t.audCount
    let zero := silent || decide (audDeclared t g ≠ planeRate s)
    let s := if audDeclared t g = planeRate s then s else audFlag n 16 s
    let s := putIn n { t with audNow := nset t.audNow (g - 1) true, audCount := tabPut g (k + 1) t.audCount } s
    if audNeed s c t ≤ k then audFlag n 17 s
    else audGroupPush n g (p.samples.map fun x => if zero then 0 else audSlotOf x) s
  | none, none => s

/-- The end of a frame at the de-embedder (R137): groups found with fewer samples than the cadence are filled with zero samples. -/
def audFill (n : Nat) (c : InCfg) (s : State) : State :=
  let t := inTrack s n
  (upto 1 8).foldl (fun s g =>
    let k := tabGet 0 g t.audCount
    if nbit t.audNow (g - 1) ∧ k < audNeed s c t then
      (upto k (audNeed s c t - k)).foldl (fun s _ => audGroupPush n g [0, 0, 0, 0] s) (audFlag n 17 s)
    else s) s

/-- A packet is dropped (R138, R139). -/
def ancDrop (n : Nat) (s : State) : State :=
  let s := bump (Reg.pinAncCnt n) 16 16 1 s
  if getB s (Reg.pinStatus n) 11 then s else flagEvent (Src.input n) noInst (Reg.pinStatus n) 11 s

/-- An extracted packet goes into the frame's buffer of 8 KiB, or is dropped (R139). -/
def ancKeep (n number : Nat) (p : AncPkt) (s : State) : State :=
  let t := inTrack s n
  if 8192 < ancBytes t.ancNow + p.bytes then ancDrop n s
  else bump (Reg.pinAncCnt n) 0 16 1 (putIn n { t with ancNow := t.ancNow ++ [(number, p)] } s)

/-- One ANC packet of a line (R138). -/
def inAnc (n : Nat) (c : InCfg) (number : Nat) (s : State) (p : AncPkt) : State :=
  if ancGood p = false then ancDrop n s
  else if ancNever p ∨ ancListed c.filter p = false then s
  else ancKeep n number p s

/-- Stages 7 and 8 (R129, R154): a line is presented. A missing line of a group member is replaced by the last good copy of it in the group's ring, or by black, and enters the fabric valid. -/
def inShow (n number : Nat) (valid : Bool) (pic : List PicGroup) (s : State) : State :=
  let t := inTrack s n
  let s := if valid then s else count (Reg.pinLinesInvalid n) s
  match groupOf s.plan.cfg.groups true n with
  | none => putIn n { t with shown := some { number := number, valid := valid, subst := false, pic := pic } } s
  | some _ =>
    let copy := if inSync s n then tabFind number t.copies else none
    let s := if valid then
        putIn n { t with shown := some { number := number, valid := true, subst := false, pic := pic },
                         copies := if inSync s n then tabPut number pic t.copies else t.copies } s
      else putIn n { t with shown := some { number := number, valid := true, subst := true, pic := copy.getD [] } } s
    setMissing true n (!valid) copy.isSome s

/-- Stages 5 to 8 of R129 on one line. -/
def inPresent (n : Nat) (c : InCfg) (l : LineInfo) (valid : Bool) (s : State) : State :=
  let silent := !valid && (groupOf s.plan.cfg.groups true n).isSome
  let s := if videoFed s c then (if l.number = 1 then (flowAnc s n c.fmt).foldl (fun s p => inAnc n c p.1 s p.2) s else s)
    else l.anc.foldl (inAnc n c l.number) (l.audio.foldl (inAudio n c silent) s)
  inShow n l.number valid l.pic s

/-- The end of a frame at stages 5 and 6 (R137, R139, R160): what was found of audio is shown, and the two ANC buffers change places. -/
def inTurn (n : Nat) (c : InCfg) (s : State) : State :=
  let s := audFill n c s
  let t := inTrack s n
  let s := putF (Reg.pinAudStatus n) 0 8 t.audNow s
  let s := putF (Reg.pinAudStatus n) 8 8 t.audAsync s
  putIn n { t with ancLast := t.ancNow, ancNow := [], audNow := 0, audAsync := 0, ctlLast := t.ctlNow, ctlNow := [], audCount := [] } s

/-- The line's EAV and number follow the line before (R818): the EAV lies where the line period of the expected format puts it, to within half of what tells two frame-rate families apart (log 187). -/
def lineFollows (f : PortFmt) (t : InTrack) (number now : Nat) : Bool :=
  match t.lastLine with
  | none => true
  | some p =>
    let l := fmtLineTicks f
    let d := now - t.eavAt
    decide (number = nextLine f p) && decide (2000 * d ≤ 2001 * l) && decide (1999 * l ≤ 2000 * d)

/-- Lines whose EAV did not come before this one, at most three (R130, R161). -/
def lineGap (f : PortFmt) (t : InTrack) (now : Nat) : Nat :=
  if t.lastLine.isNone then 0 else min 3 ((now - t.eavAt + fmtLineTicks f / 2) / max 1 (fmtLineTicks f) - 1)

/-- A line of a locked input is written into the ring of its synchroniser (04_frame_stores.md R171, R173). -/
def fsWrite (n : Nat) (l : LineInfo) (s : State) : State :=
  match tabFind n s.mem.fs with
  | none => s
  | some t =>
    if t.whole then { s with mem := { s.mem with fs := tabPut n { t with writing := if l.number = 1 then [l] else l :: t.writing } s.mem.fs } } else s

/-- A line that stage 1 has found (R129, R130, R818): sequence, CRC and payload ID, then the ring, or stages 5 to 8. -/
def inTaken (n : Nat) (c : InCfg) (l : LineInfo) (s : State) : State :=
  let s := settleLines n s
  let s := if inState s n = 1 then setInState n 2 s else s
  let t := inTrack s n
  let follows := lineFollows c.fmt t l.number s.now
  let oos := if follows then 0 else t.oos + 1
  let s := if inRing s n then s else bump (Reg.pinLinesInvalid n) 0 32 (lineGap c.fmt t s.now) s
  let s := putIn n { t with miss := 0, oos := oos, live := t.live || (decide (inState s n = 3) && decide (l.number = 1)),
                            eavAt := s.now, lastLine := some l.number,
                            frameNo := if l.number = 1 ∧ inRing s n = false then fmtFrameNear c.fmt s.now else t.frameNo } s
  let s := if inState s n = 3 ∧ 2 ≤ oos then setInState n 2 s else s
  let s := if l.crcFail then inCrc n s else s
  let valid := (inTrack s n).live && follows && !l.invalid
  let s := match l.vpid with
    | some v => if vpidLine c.fmt l.number then inVpid n c v s else s
    | none => s
  if inRing s n then fsWrite n { l with invalid := !(follows && !l.invalid) } s else inPresent n c l valid s

/-- The line that reaches stage 1 (R129; 08_media_flows.md R322): the trunk's, its words invalid where the stream's are; or the one that the depacketiser of a receive flow presents, if it presents one. -/
def inFed (s : State) (n : Nat) (c : InCfg) (l : LineInfo) : Option LineInfo :=
  if c.fromFlow then flowLine s n c.fmt l else some (if streamInvalid s n then { l with invalid := true } else l)

/-- A line arrives at an input (R129). -/
def inLine (n : Nat) (l : LineInfo) (s : State) : State :=
  match inCfg? s n with
  | none => s
  | some c => (inFed s n c l).elim s fun l => inTaken n c l s

/-- OFFSET lies in the window of R127; with a synchroniser the frame period lies within 100 ppm (04_frame_stores.md R172). -/
def inWindow (s : State) (n : Nat) (c : InCfg) (f : FrameInfo) : Bool :=
  if inSync s n then decide (f.periodPpm10.natAbs ≤ 1000)
  else decide (24 - (fmtLineRows c.fmt : Int) ≤ f.offset) && decide (f.offset ≤ (fmtLineRows c.fmt : Int) - 24)

/-- Structure, rate and frame rate of the frame equal those of the expected format (R129 stage 4). -/
def frameMatches (c : InCfg) (f : FrameInfo) : Bool :=
  decide (f.format = c.fmt.id) && decide (f.lines = c.fmt.lines) && decide (f.scan = c.fmt.scan)
    && decide (f.rateNum * c.fmt.rateDen = c.fmt.rateNum * f.rateDen)

/-- The state that a complete frame leads to (R130): `alike` says that it matches the expected format. -/
def frameState (st : Nat) (f : FrameInfo) (alike vpidOk inTime : Bool) : Nat :=
  if st = 0 ∨ st = 1 then st
  else if f.whole ∧ alike ∧ vpidOk ∧ inTime then 3
  else if st = 2 then
    if f.whole then (if alike ∧ vpidOk then 5 else 4) else 2
  else if st = 3 then
    if f.whole ∧ alike = false then 4 else if inTime = false then 5 else 3
  else st

/-- A complete frame has arrived (R130, R132, R137, R139). -/
def inFrame (n : Nat) (f : FrameInfo) (s : State) : State :=
  match inCfg? s n with
  | none => s
  | some c =>
    let a := Reg.pinStatus n
    let f := if c.fromFlow && flowLocked s n then { f with offset := 0 } else f
    let s := if inRing s n then s else inTurn n c s
    let t := inTrack s n
    let inTime := inWindow s n c f
    let s := putF a 4 4 f.format s
    let s := putB a 8 t.vpidNow s
    let s := putF (Reg.pinTiming n) 0 16 (twos 16 f.offset) s
    let s := putB (Reg.pinTiming n) 16 (inTime || inSync s n) s
    let absentBad := !t.vpidNow && c.requireVpid
    let bad := if t.vpidNow then t.vpidBad else if c.requireVpid then t.vpidBad + 1 else 0
    let vpidOk := if t.vpidNow then getB s a 9 else !c.requireVpid
    let st := inState s n
    let st' := if st = 3 ∧ absentBad ∧ 2 ≤ bad then 4
      else if st = 3 then frameState st f (frameMatches c f) true inTime else frameState st f (frameMatches c f) vpidOk inTime
    let s := putIn n { t with vpidNow := false, vpidBad := bad } s
    if st' = st then s else setInState n st' s

/-- The fourth consecutive expected EAV is missing (R130): NO_SIGNAL; the four lines were presented invalid, or replaced. -/
def inEavMissing (n : Nat) (s : State) : State :=
  match inCfg? s n with
  | none => s
  | some c =>
    if inState s n = 1 then s
    else
      let t := inTrack s n
      let ls := match t.lastLine with
        | none => [1, 2, 3, 4]
        | some k => [nextLine c.fmt k, nextLine c.fmt (k + 1), nextLine c.fmt (k + 2), nextLine c.fmt (k + 3)]
      let s := putIn n { t with miss := 4, live := false, lastLine := none } s
      let s := if inRing s n then s else ls.foldl (fun s k => inShow n k false [] s) s
      let s := setInState n 1 s
      putIn n { inTrack s n with linesAt := s.now + fmtLineTicks c.fmt } s

/-- An input taken into use or out of use at a change of configuration (R125, R130, R154, R157, R172): UNUSED; or NO_SIGNAL on commit of a plan that uses the port, and where a mode uses it otherwise than the mode before. -/
def setupInput (old : List InCfg) (base : Bool) (n : Nat) (s : State) : State :=
  let a := Reg.pinStatus n
  let g := groupOf s.plan.cfg.groups true n
  let same := (old.find? fun c => decide (c.port = n)) == inCfg? s n
  let s := putB a 12 g.isSome s
  let s := putB a 13 ((g.map fun g => decide (g.lead = n)).getD false) s
  let s := putB a 14 (inSync s n) s
  let s := putB a 15 (airIn s n) s
  match inCfg? s n with
  | none => if inState s n = 0 then s else setInState n 0 (putIn n inTrack0 s)
  | some _ =>
    if inState s n ≠ 0 ∧ same ∧ base = false then s
    else
      let s := setInState n 1 (putIn n inTrack0 s)
      let s := if inSync s n then putB (Reg.pinTiming n) 16 true s else s
      setMissing true n true false s

/-! ## Outputs -/

/-- The source in force of level `l` at destination `d`; 0x7FF for none (02_word_fabric_and_takes.md R120). -/
def routeOf (s : State) (d l : Nat) : Nat := getF s (Reg.takeRoute d l) 0 11

/-- Returns and the sends that they are made from, as they stand: tasks of R366, and the layers of heads that are on. -/
def procLinks (s : State) : List (Nat × Nat) :=
  taskLinks s.plan.cfg ++ s.plan.cfg.heads.flatMap fun h =>
    (((upto 0 21).map fun l => (tabGet layerTrack0 (21 * h.head + l) s.comp.layers).entry).filter entryOn).map fun e => (h.ret, e.send)

/-- The sources on the routes to the outputs marked on air (01_compiled_plan.md R66). -/
def airRoute (s : State) : List Nat :=
  upstream (fun d => routeOf s d 0) (procLinks s) (procLinks s).length (distinct (((upto 0 1152).filter (airOut s)).map fun d => routeOf s d 0))

/-- The output shows safe content over the whole frame (R151). -/
def outSafe (s : State) (n : Nat) : Bool :=
  decide (s.now < tabGet 0 n s.plan.safeUntil) || decide (routeOf s n 0 = 0x7FF)
    || (match s.plan.pending with
        | some p => p.first && decide (n ∈ p.remaining)
        | none => false)
    || (decide (modeNow s = 5) && (outTrack s n).pattern.isNone)

/-- The safe content entry of an output (R149). -/
def safeEntry (s : State) (n : Nat) : Nat := (nth? (tablesOf s n).safe n).getD 0

/-- The output has an output frame store (R150). -/
def outStore (s : State) (n : Nat) : Bool := (destMem? s 3 n).isSome

/-- The colour set that serves an output: that of the lead of its group (R147). -/
def outColour (s : State) (n : Nat) : Option ColourEntry :=
  nth? (tablesOf s n).colour (match groupOf (cfgOf s n).groups false n with | some g => g.lead | none => n)

/-- ANC at an output is cross-routed: the ANC level has a source other than the video source (R142). -/
def ancCross (s : State) (n : Nat) : Bool :=
  decide (routeOf s n 9 ≠ routeOf s n 0) && decide (routeOf s n 9 ≠ 0x7FF)

/-- Silence in every embedded group of an output (R151), or the slots that its destination channels carry (R144). -/
def outAudio (s : State) (n : Nat) (c : OutCfg) (silent : Bool) : List (Nat × List Word) :=
  ((upto 1 8).filter fun g => nbit c.embed (g - 1)).map fun g =>
    (g, (upto 0 4).map fun i => if silent then 0 else tabGet 0 (32 * n + 4 * (g - 1) + i) s.aud.out)

/-- The safe content of an output as it stands (R148, R150): black in place of a slate that does not fit and of a freeze with no good frame. A member of an output group replaced line by line shows its store or black (R156). -/
def safeKind (s : State) (n : Nat) (line : Bool) : LineKind :=
  let e := safeEntry s n
  let member := line && (groupOf (cfgOf s n).groups false n).isSome
  if e % 4 = 1 then (if member = false ∧ (outTrack s n).slate.isSome then .slate (e / 16 % 4096) else .black)
  else if e % 4 = 2 then (if (outTrack s n).good.isSome then .freeze else .black)
  else .black


/-- The engine task behind the video source of an output: the one that writes the process return (09_ibex_engines.md R365). -/
def srcTask (s : State) (n : Nat) : Option TaskCfg :=
  let r := routeOf s n 0
  (cfgOf s n).tasks.find? fun t => decide (t.ret = (railHome (modeNow s) r).getD r) && decide (t.kind ∈ [5, 6, 7])

/-- The samples that reach an output: those that left the process send one frame before, through a colour task where one stands in front of it (09_ibex_engines.md R366, R369); otherwise the source's. -/
def taskPic (s : State) (n : Nat) (l : List PicGroup) : List PicGroup :=
  match srcTask s n with
  | some t => if t.kind = 5 then l.map (taskGroup t.task (outTrack s n).conv) else l
  | none => l

/-- The physical head behind the video source of an output, with the width of its raster. -/
def srcHead (s : State) (n : Nat) : Option (Nat × Nat) :=
  let r := routeOf s n 0
  ((cfgOf s n).heads.find? fun c => decide (c.ret = (railHome (modeNow s) r).getD r)).map fun c =>
    (if (railHome (modeNow s) r).isSome then c.head + 48 else c.head, c.fmt.width)

/-- The samples of a line's words: what a head composes on the row, or what a task makes of them. -/
def srcPic (s : State) (n : Nat) (l : OutLine) : List PicGroup :=
  match srcHead s n, l.row with
  | some h, some y => headRow s h.1 h.2 l.layers y
  | some _, none => []
  | none, _ => taskPic s n l.pic

/-- The ANC packets that reach an output on a line: carried through unchanged, or through the rules of an ANC processing task (09_ibex_engines.md R366, R373); a generator and a head bring none (10_composition.md R394). -/
def taskAnc (s : State) (n line : Nat) (l : List AncPkt) : List AncPkt :=
  match srcTask s n with
  | some t => if t.kind = 7 then ancEdits line t.edits l else if t.kind = 6 then [] else l
  | none => if (srcHead s n).isSome then [] else l

/-- A slate as the copy of a quadrant's stack holds it. -/
def slateIn (q : Nat) (x : Slate) : Slate := if q ∈ x.zeroed then { x with words := x.words.map fun _ => 0 } else x

/-- The samples of a line: those that came, through the colour set when it is enabled (R146), the slate's, or the good frame's. Black and patterns are named by their kind. -/
def linePic (s : State) (n : Nat) (l : OutLine) : LineKind → List PicGroup
  | .words => match (outTrack s n).colour with
    | some e => if nbit e.flags 0 then (srcPic s n l).map (groupColour e) else srcPic s n l
    | none => srcPic s n l
  | .slate k => match (if safeEntry s n / 16 % 4096 = k then (outTrack s n).slate else none).or (tabFind k s.mem.slates), l.row with
    | some x, some r => slateLine (slateIn (n / 288) x) r
    | _, _ => []
  | .freeze => (((outTrack s n).good.getD []).find? fun x => decide (x.number = l.number)).elim [] SentLine.pic
  | _ => []

/-- What a line of an output shows (R145, R151; 24_service_mode.md R803): safe content, or the words of its source, which a generator task forms by its pattern (09_ibex_engines.md R371). -/
def lineKind (s : State) (n : Nat) (safe replaced : Bool) : LineKind :=
  match (if modeNow s = 5 then (outTrack s n).pattern else none) with
  | some p => .pattern p
  | none =>
    if safe then safeKind s n false
    else if replaced then safeKind s n true
    else match srcTask s n, destFmtIn (cfgOf s n) n with
      | some t, some f => if t.kind = 6 then genKind s t f else .words
      | _, _ => .words

/-- The packets of a line that stay in place (R142): none of a replaced line, of a cross-routed or absent ANC level, of audio, payload ID and the delete list, and no ATC packet where a timecode task serves the output (09_ibex_engines.md R372). -/
def ancStay (s : State) (n : Nat) (c : OutCfg) (l : OutLine) (kind : LineKind) : List AncPkt :=
  if kind = .words ∧ routeOf s n 9 = routeOf s n 0 then
    (taskAnc s n l.number l.anc).filter fun p => !ancNever p && !ancListed c.deletes p && !(c.timecode && isAtc p)
  else []

/-- The timecode task's packet on its line, with the time address of the frame's alignment point (09_ibex_engines.md R372). -/
def ancTime (s : State) (n : Nat) (c : OutCfg) (l : OutLine) : List AncPkt :=
  if c.timecode ∧ l.number = atcLine ∧ tcRuns s (cfgOf s n) n then
    [atcPacket s c.fmt (rateStart (fmtRate c.fmt) (rateFrame (fmtRate c.fmt) s.now))]
  else []

/-- The packets that a cross-routed ANC level brings to a line: those that its source extracted from that line of the frame before (R142). -/
def ancDue (s : State) (n : Nat) (l : OutLine) : List AncPkt :=
  if ancCross s n then ((inTrack s (routeOf s n 9)).ancLast.filter fun p => decide (p.1 = l.number)).map Prod.snd else []

/-- The frames that the output's delay line holds at most, and DELAY in force (04_frame_stores.md R183, R201). -/
def delayDepth (s : State) (n : Nat) : Nat := getF s (Reg.dlyStatus n) 0 5

def delayNow (s : State) (n : Nat) : Nat := getF s (Reg.dlyStatus n) 8 5

/-- The line that leaves after the delay line (04_frame_stores.md R183, R184): that of the frame DELAY frames before, and black with silence for a frame not stored. -/
def delayed (s : State) (n : Nat) (x : SentLine) : SentLine :=
  if delayNow s n = 0 then x
  else match (nth? (outTrack s n).past (delayNow s n - 1)).bind fun f => f.find? fun y => decide (y.number = x.number) with
    | some y => y
    | none => { x with kind := .black, internal := false, pic := [], anc := [], audio := x.audio.map fun g => (g.1, g.2.map fun _ => 0) }

/-- A line leaves: kept for the output's store and delay line, and emitted after the delay line. The marks of its words are spent. -/
def outEmit (n : Nat) (x : SentLine) (s : State) : State :=
  let t := outTrack s n
  let keep := outStore s n || decide (0 < delayDepth s n)
  let y := delayed s n x
  let y := { y with invalid := y.invalid || t.spoilt }
  putOut n { t with cur := if keep then x :: t.cur else [], sent := some y, recent := ((t.frameNo, y) :: t.recent).take 8,
                    ancNow := t.ancNow ++ (y.anc.filter fun p => !ancNever p).map fun p => (y.number, p),
                    spoilt := false, dark := false, invalid := false, internal := false } s

/-- A delay line takes in a frame, and a `DELAY_SET` that is due takes effect at this frame boundary (04_frame_stores.md R184, R197, R201). -/
def delayFrame (n : Nat) (frame : List SentLine) (s : State) : State :=
  let a := Reg.dlyStatus n
  let d := delayDepth s n
  let s := putF a 16 5 (min d (getF s a 16 5 + 1)) s
  let s := if d = 0 then s else putOut n { outTrack s n with past := (frame :: (outTrack s n).past).take d } s
  let mine := fun (x : Sched) => match x.cmd.pkt.body with
    | .delaySet o _ => decide (o = n) && decide (x.start ≤ s.now)
    | _ => false
  match s.sched.find? mine with
  | none => s
  | some x =>
    let d' := match x.cmd.pkt.body with
      | .delaySet _ d' => d'
      | _ => 0
    let s := { s with sched := s.sched.erase x, mem := { s.mem with delays := tabSet 0 n d' s.mem.delays } }
    let s := putB a 13 (s.sched.any fun y => match y.cmd.pkt.body with | .delaySet o _ => decide (o = n) | _ => false) s
    completeAt x.cmd St.ok 0 x.frame x.result (putF a 8 5 d' s)

/-- The end of an output frame (R150, R162; 04_frame_stores.md R185): the frame becomes the good frame when no line of it was replaced. -/
def outFrameEnd (n : Nat) (s : State) : State :=
  let a := Reg.poutStatus n
  let t := outTrack s n
  let safe := outSafe s n
  let frame := t.cur.reverse
  let s := stateEvent (Src.quad (n / 288) 1) (n % 288) a 0 2 (if safe then 3 else if t.replNow then 2 else 1) s
  let good := outStore s n && !t.replNow && !safe
  let s := if good then putB a 4 true s else s
  delayFrame n frame (putOut n { t with replNow := false, cur := [], good := if good then some frame else t.good, ancFrame := t.frameNo, ancLast := t.ancNow, ancNow := [] } s)

/-- Tables and matrix of the colour task in front of an output that its next frame is converted with (09_ibex_engines.md R370), from the schedule where no command has set a matrix. -/
def taskSet (s : State) (n : Nat) : ColourSet :=
  match srcTask s n with
  | some t => let x := colourAt s t.task s.now; { x with matrix := x.matrix.or t.matrix }
  | none => colourSet0

/-- Line 1 of an output frame (R144, R147; 04_frame_stores.md R187): the colour set, the slate and the samples per channel of the frame. -/
def outStart (n : Nat) (c : OutCfg) (s : State) : State :=
  let e := outColour s n
  let x := (tabFind (safeEntry s n / 16 % 4096) s.mem.slates).filter fun x => slateFits x c.fmt
  putB (Reg.poutStatus n) 5 ((e.map fun e => nbit e.flags 0).getD false)
    (putOut n { outTrack s n with colour := e, slate := x, samples := audioSamples c.fmt (planeRate s) (fmtFrameNear c.fmt s.now),
                                  frameNo := fmtFrameNear c.fmt s.now, ancNow := [], conv := taskSet s n } s)

/-- A line in which a word has arrived marked invalid is replaced (R145): counted and flagged; on an output on air, a penalty where the fault is an internal one (15_the_pair.md R554, R579). -/
def outReplaced (n : Nat) (s : State) : State :=
  let a := Reg.poutStatus n
  let t := outTrack s n
  let s := putOut n { t with replNow := true } (count (Reg.poutLinesRepl n) s)
  let s := if getB s a 6 then s else flagEvent (Src.quad (n / 288) 1) (n % 288) a 6 s
  if t.internal ∧ airOut s n then penaltyAt (n / 288) 0 [.output n] s else s

/-- Cross-routed packets inserted and dropped are counted (R143). -/
def outAncCount (n inserted dropped : Nat) (s : State) : State :=
  let s := bump (Reg.poutAncCnt n) 0 16 inserted s
  if dropped = 0 then s
  else
    let s := bump (Reg.poutAncCnt n) 16 16 dropped s
    if getB s (Reg.poutStatus n) 7 then s else flagEvent (Src.quad (n / 288) 1) (n % 288) (Reg.poutStatus n) 7 s

/-- A line leaves an output pipeline (R140 to R146, R151, R156). -/
def outLine (n : Nat) (l : OutLine) (s : State) : State :=
  match outCfg? s n with
  | none => s
  | some c =>
    let s0 := s
    let s := if l.number = 1 then outStart n c s else s
    let safe := outSafe s n
    let replaced := (outTrack s n).invalid && !safe
    let s := if replaced then outReplaced n s else s
    let kind := if (outTrack s n).dark ∧ (safe || replaced) then .black else lineKind s n safe replaced
    let s := setMissing false n replaced (decide (kind = .freeze)) s
    let own := ancTime s n c l
    let fit := ancFit l.room (own ++ ancDue s n l)
    let s := outAncCount n (fit.1.filter fun p => decide (p ∉ own)).length fit.2.length s
    let s := outEmit n { number := l.number, kind := kind, pic := linePic s n l kind, anc := ancStay s n c l kind ++ fit.1,
                         vpid := if vpidLine c.fmt l.number then some c.fmt.vpid else none, audio := outAudio s n c safe, invalid := false,
                         internal := replaced && (outTrack s0 n).internal } s
    if c.fmt.lines ≤ l.number then outFrameEnd n s else s

/-- Registers of an output from the configuration in force (R141, R149, R162); `keepStore` says that its store's allocation and format are unchanged (R150). -/
def setupOutput (keepStore : Bool) (n : Nat) (s : State) : State :=
  let a := Reg.poutStatus n
  let g := groupOf s.plan.cfg.groups false n
  let s := putB a 8 g.isSome s
  let s := putB a 9 ((g.map fun g => decide (g.lead = n)).getD false) s
  let s := putB a 10 (airOut s n) s
  let s := if keepStore then s else putB a 4 false (putOut n { outTrack s n with good := none, cur := [] } s)
  let s := wr (Reg.poutSafe n) (BitVec.ofNat 32 (safeEntry s n)) s
  let s := putF a 2 2 (safeEntry s n % 4) s
  match outCfg? s n with
  | none => putOut n outTrack0 (wr (Reg.poutVpid n) 0 (stateEvent (Src.quad (n / 288) 1) (n % 288) a 0 2 0 s))
  | some c =>
    let s := wr (Reg.poutVpid n) (BitVec.ofNat 32 c.fmt.vpid) s
    stateEvent (Src.quad (n / 288) 1) (n % 288) a 0 2 (if outSafe s n then 3 else 1) s

/-! ## Commands -/

/-- INPUT_LINE_ARRIVAL (R818). -/
def execInputLineArrival (dt port : Nat) (line : LineInfo) (s : State) : Host.Outcome State Fault Refusal :=
  .next (only (decide (port < 1152)) (fun s => inLine port line s) (tick dt s))

/-- INPUT_FRAME_COMPLETE (R130). -/
def execInputFrameComplete (dt port : Nat) (frame : FrameInfo) (s : State) : Host.Outcome State Fault Refusal :=
  .next (only (decide (port < 1152)) (fun s => inFrame port frame s) (tick dt s))

/-- INPUT_EAV_MISSING (R130). -/
def execInputEavMissing (dt port : Nat) (s : State) : Host.Outcome State Fault Refusal :=
  .next (only (decide (port < 1152)) (fun s => inEavMissing port s) (tick dt s))

/-- OUTPUT_LINE_EMIT (R145). -/
def execOutputLineEmit (dt output : Nat) (line : OutLine) (s : State) : Host.Outcome State Fault Refusal :=
  .next (only (decide (output < 1152)) (fun s => outLine output line s) (tick dt s))

end Sys2Proof.Machine
end

