-- ==== Sys2Proof/Machine/Switch.lean ====
section
/-! DEFINITION. Sources and destinations of the word fabric, and the switch points of destinations (02_word_fabric_and_takes.md R75, R90 to R92, R99 to R102, R819). -/

namespace Sys2Proof.Machine

/-! ## What the mode uses -/

/-- SOURCE or a level source that stands for none (R87). -/
abbrev noSource : Nat := 0x7FF

/-- The number lies in the range that takes name: the logical ports and process numbers in MIRROR (R81), all 1,408 otherwise. -/
def nameable (mode n : Nat) : Bool :=
  if mode = 2 then decide (n < 576) || (decide (1152 ≤ n) && decide (n < 1280)) else decide (n < 1408)

/-- The lead member of a destination's alignment group, or the destination itself (R99). -/
def leadOf (c : ModeCfg) (d : Nat) : Nat :=
  match groupOf c.groups false d with
  | some g => g.lead
  | none => d

/-- Every member of a destination's group, or the destination alone. -/
def membersOf (c : ModeCfg) (d : Nat) : List Nat := if d < 1152 then groupMembers c.groups false d else [d]

/-- Levels a destination has (R88): an output all ten; a process send no audio, since only video, blanking and ANC pass through it (09_ibex_engines.md R366; log 24). -/
def levelsOf (d : Nat) : Nat := if d < 1152 then 0x3FF else 0x201

/-! ## Switch points -/

/-- Nominal switch point in format frame `n` (R92): 6 line periods and 128 word periods after the frame's start. At 1.5G and 3G of the 1/1.001 family 128 word periods are a whole number of ticks; at 6G and 12G too. -/
def spNominal (f : PortFmt) (n : Nat) : Nat :=
  rateStart (fmtRate f) n + 6 * fmtLineTicks f + 128 * (fmtRows f * 250) * (if fmtFractional f then 1001 else 1000) / 1000

/-- The switch point of destination `d` in format frame `n` (R90, R92): in an integer family the nominal position, which is a row boundary; in the 1/1.001 family a row boundary that lies less than one opportunity period from it, which one depends on the phase of the pattern (R69) in a way that the manual leaves open (log 5). -/
def spAt (d : Nat) (f : PortFmt) (n : Nat) : Nat :=
  let x := spNominal f n
  if fmtFractional f then
    let p := fmtRows f * tickRow
    let r0 := (x - p) / tickRow + 1
    let r1 := ceilDiv (x + p) tickRow - 1
    (r0 + Config.switchRow d (cadencePhase (videoCadence f) n) % max 1 (r1 + 1 - r0)) * tickRow
  else x

/-- The format frame and the switch point that is the first at or after time `t`. -/
def firstSpOf (d : Nat) (f : PortFmt) (t : Nat) : Nat × Nat :=
  let n := rateFrame (fmtRate f) t
  if t ≤ spAt d f n then (n, spAt d f n) else (n + 1, spAt d f (n + 1))

/-- The first switch point of destination `d` at or after `t` under a configuration, with its format frame; its group's lead decides (R99). A destination with no format switches at `t`. -/
def firstSpIn (c : ModeCfg) (d t : Nat) : Nat × Nat :=
  let l := if d < 1152 then leadOf c d else d
  match destFmtIn c l with
  | some f => firstSpOf l f t
  | none => (0, t)

/-- Changes of the format of a layer input send that are accepted and not yet in force, as the start of their house frame and the format (10_composition.md R402). -/
def fmtSteps (s : State) (d : Nat) : List (Nat × PortFmt) :=
  (s.comp.fmtNext.filter fun x => decide (x.1 = d)).map fun x => (x.2.2, x.2.1)

/-- The configuration with the formats that its layer input sends have at time `t` (10_composition.md R402). -/
def cfgSendsAt (s : State) (c : ModeCfg) (t : Nat) : ModeCfg :=
  { c with sends := c.sends.map fun x =>
      { x with fmt := ((fmtSteps s x.send).filter fun y => decide (y.1 ≤ t)).foldl (fun _ y => y.2) x.fmt } }

/-- The first switch point of destination `d` at or after `t`, under the configuration it runs and the format it has in the switch point's house frame. -/
def firstSp (s : State) (d t : Nat) : Nat :=
  (fmtSteps s d).foldl (fun sp x => if x.1 ≤ sp then (firstSpOf d x.2 (max t x.1)).2 else sp) (firstSpIn (cfgOf s d) d t).2

/-! ## Rules of R99 to R101 -/

/-- Two formats have the same data rate, line structure and frame rate (R100). The links of a dual- or quad-link format count with its data rate. -/
def sameTiming (a b : PortFmt) : Bool :=
  let links := fun (f : PortFmt) => if f.id = 7 then 2 else if f.id = 8 ∨ f.id = 9 then 4 else 1
  decide (fmtRows a = fmtRows b) && decide (links a = links b) && decide (a.lines = b.lines)
    && decide (a.rateNum * b.rateDen = b.rateNum * a.rateDen)

/-- The status that the rules R99 to R101 give a route from `src` to `d` under a configuration, in the order of R102. An ungrouped destination takes no lead of a group either (log 170). -/
def routeStatus (c : ModeCfg) (d src : Nat) : Nat :=
  let gd := if d < 1152 then groupOf c.groups false d else none
  let gs := if src < 1152 then groupOf c.groups true src else none
  let groupBad := match gd, gs with
    | some x, some y => decide (x.lead ≠ d) || decide (y.lead ≠ src) || decide (x.shape ≠ y.shape)
    | some x, none => decide (x.lead ≠ d) || decide (src ≠ noSource)
    | none, some _ => true
    | none, none => false
  let fmtBad := match destFmtIn c d, srcFmtIn c src with
    | some a, some b => !sameTiming a b
    | _, _ => true
  if groupBad then St.takeGroup
  else if src ≠ noSource ∧ fmtBad then St.takeFormat
  else if 1152 ≤ d ∧ ((c.sends.find? fun x => decide (x.send = d)).map SendCfg.routable).getD false = false then St.takeFixed
  else St.ok

/-- A destination exists in a configuration of a mode. -/
def destUsed (c : ModeCfg) (mode d : Nat) : Bool := nameable mode d && (destFmtIn c d).isSome

def srcUsed (c : ModeCfg) (mode n : Nat) : Bool := nameable mode n && (srcFmtIn c n).isSome

/-- The status of one take entry under R102, orders 3 to 7. -/
def entryStatus (c : ModeCfg) (mode d src levels : Nat) : Nat :=
  if destUsed c mode d = false ∨ (src ≠ noSource ∧ srcUsed c mode src = false) then St.takeRange
  else if levels = 0 ∨ levels &&& (0x3FF ^^^ levelsOf d) ≠ 0 then St.takeLevel
  else routeStatus c d src

/-- Fields of a take entry (R87). -/
def entDest (e : Nat) : Nat := nfld e 0 11
def entSrc (e : Nat) : Nat := nfld e 11 11
def entLevels (e : Nat) : Nat := nfld e 22 10

/-- A take entry made into one destination and source per group member (R99). -/
def expandEntry (c : ModeCfg) (d src : Nat) : List (Nat × Nat) :=
  (upto 0 (membersOf c d).length).map fun k => (d + k, if src = noSource then noSource else src + k)

/-- Modes 1 to 4: a plan is committed and the unit is neither in SERVICE nor in RESCUE (R102 order 2). -/
def inMode (s : State) : Bool := decide (1 ≤ modeNow s) && decide (modeNow s ≤ 4)

/-- The number of the other rail's port or process number in MIRROR (R81). -/
def twinOf (n : Nat) : Nat := if n < 1152 then n + 576 else n + 128

end Sys2Proof.Machine
end

