-- ==== Sys2Proof/Machine/Audio.lean ====
section
/-! DEFINITION. The audio plane and the audio ports (11_audio_plane.md). -/

namespace Sys2Proof.Machine

/-! ## Samples (R427) -/

/-- Ticks of a plane sample. -/
def sampleTicks (s : State) : Nat := tickSec / planeRate s

/-- The plane sample in force at the present. -/
def sampleNow (s : State) : Nat := s.now / sampleTicks s

/-- The first plane sample at or after time `t`. -/
def sampleFrom (s : State) (t : Nat) : Nat := ceilDiv t (sampleTicks s)

/-! ## Channels (R426, R439, R822) -/

/-- The channel is used by the mode, as a source or as a destination. -/
def audChanUsed (s : State) (source : Bool) (ch : Nat) : Bool :=
  inMode s &&
  (if ch < 36864 then
     (if source then (s.plan.cfg.inputs.any fun c => decide (c.port = ch / 32)) else s.plan.cfg.outputs.any fun c => decide (c.port = ch / 32))
   else if ch < 37120 then true
   else decide (ch < 65536) && decide (ch ∈ s.plan.cfg.audioUsed))

/-- The channel on the other rail in MIRROR (R439), where it has one. -/
def audTwin (s : State) (ch : Nat) : Option Nat := if modeNow s = 2 ∧ ch < 18432 then some (ch + 18432) else none

/-- The source of the other rail's channel: the twin source where the source has one. -/
def audTwinSource (src : Option Nat) : Option Nat := src.map fun x => if x < 18432 then x + 18432 else x

/-- The audio-only send flow that a destination channel belongs to (08_media_flows.md R326, R334). -/
def audSendFlow (s : State) (ch : Nat) : Option FlowEntry :=
  (s.plan.tables.flows.take 2304).find? fun e =>
    nbit e.flags 0 && (decide (e.essence = 2) || decide (e.essence = 3)) && decide (e.port = 0xFFFF)
      && decide (e.audBase ≤ ch) && decide (ch < e.audBase + e.audCount)

/-- The commit sample of a destination channel for apply frame `f` (R432). -/
def audSample (s : State) (ch f : Nat) : Nat :=
  let t := frameStart s f
  if ch < 36864 then
    let n := ch / 32
    sampleFrom s (firstSp s (if modeNow s = 2 then n % 576 else n) t)
  else match (if 37120 ≤ ch then audSendFlow s ch else none) with
    | some e =>
      let k := max 1 (e.ptime * planeRate s / 1000000)
      ceilDiv (sampleFrom s t) k * k
    | none => sampleFrom s t

/-! ## Routes and crossfades (R428, R432 to R435) -/

/-- The source of a destination channel (R428). -/
def audRoute (s : State) (ch : Nat) : Option Nat := tabFind ch s.aud.routes

/-- The running crossfades of a destination, newest first. -/
def audFades (s : State) (ch : Nat) : List Fade := tabGet [] ch s.aud.fades

/-- A crossfade of destination `ch` to `src` starts at sample `k` (R433, R434): the running one carries on underneath. -/
def audStart (ch : Nat) (src : Option Nat) (k : Nat) (s : State) : State :=
  let f : Fade := { old := audRoute s ch, start := k }
  let live := (audFades s ch).filter fun x => decide (k < x.start + 128)
  let r := match src with
    | some x => tabPut ch x s.aud.routes
    | none => tabErase ch s.aud.routes
  count Reg.audXfades { s with aud := { s.aud with routes := r, fades := tabPut ch (f :: live) s.aud.fades } }

/-- Crossfades of destination `ch` that have had their 128 samples end (R433). -/
def audEnd (ch : Nat) (s : State) : State :=
  let live := (audFades s ch).filter fun x => decide (sampleNow s < x.start + 128)
  { s with aud := { s.aud with fades := if live.isEmpty then tabErase ch s.aud.fades else tabPut ch live s.aud.fades } }

/-- Fade sample `j` of R433; from `j = 127` on the new source stands alone. -/
def fadeMix (old new : Int) (j : Nat) : Int := mixOf 128 old new j

/-- What a destination carries at sample `k`: the slot of its source under its running crossfades, the slots of whose old sources follow in `olds` (R433, R434). Z, V, U and C are the new source's. -/
def fadeSlot (k : Nat) (w : Word) : List Fade → List Word → Word
  | f :: fs, o :: os =>
    setFld w 8 24 (twos 24 (fadeMix (slotSample (fadeSlot k o fs os)) (slotSample w) (k - f.start)))
  | _, _ => w

/-- The check code of a slot (R430): source channel, sample index modulo 16, slot. -/
def audCode (source k : Nat) (w : Word) : Nat := crc8 0xFF (bitsMsb source 16 ++ bitsMsb (k % 16) 4 ++ bitsMsb w.toNat 32)

/-- The output a channel belongs to is marked on air (R430). -/
def audAir (s : State) (ch : Nat) : Bool :=
  decide (ch < 36864) && airOut s (if modeNow s = 2 then ch / 32 % 576 else ch / 32)

/-- A slot that fails its check (R430). -/
def audFail (ch source : Nat) (s : State) : State :=
  let s := count Reg.audChkTotal (wr Reg.audChkLast (BitVec.ofNat 32 (ch % 65536 + source % 65536 * 65536)) s)
  let s := putB Reg.audPlaneStatus 2 true s
  let s := if audAir s ch then pathHit [.output (ch / 32)] (penalty 0 s) else s
  if s.aud.chkEpoch = epochNow s + 1 then s
  else raiseFlag Src.audPlane noInst Reg.audPlaneStatus 2 { s with aud := { s.aud with chkEpoch := epochNow s + 1 } }

/-! ## What the audio ports carry (R440 to R453) -/

def audPort (s : State) (p : Nat) : AudPort := tabGet audPort0 p s.aud.ports

def putAudPort (p : Nat) (t : AudPort) (s : State) : State := { s with aud := { s.aud with ports := tabSet audPort0 p t s.aud.ports } }

def audDirNow (s : State) (p : Nat) (d : AudDir) : Nat := getF s (Reg.audPortStatus p) (match d with | .rx => 0 | .tx => 3) 3

/-- The gain of ramp sample `j` (R450), in 1/128. -/
def rampGain (j : Nat) : Nat := min 128 (j + 1)

/-- Channels of a port by its settings (R440): slots on its data lines, or those of the AES10 frame. -/
def audChannels (v : Nat) : Nat :=
  if nbit v 2 then (if nbit v 10 then 56 else 64) / (if 2 ≤ nfld v 8 2 then 2 else 1)
  else 2 * 2 ^ nfld v 4 2 * (nfld v 6 2 + 1)

/-- The channel-active bit of an AES10 subframe (R442; log 206). -/
def aesActive (x : BitVec 32) : Bool := nbit x.toNat 1

/-- The slot of a received channel (R441, R442, R445): zero where its mask bit is clear or its AES10 channel is not active; of TDM the sample alone; of AES10 the sample with V, U and C, and Z at the start of an AES3 block. -/
def audReceived (aes on : Bool) (x : BitVec 32) : Word :=
  let v := x.toNat
  if on = false then 0
  else if aes = false then BitVec.ofNat 32 (nfld v 8 24 * 256)
  else if aesActive x = false then 0
  else audSlotOf { value := nfld v 4 24, z := nbit v 3, v := nbit v 28, u := nbit v 29, c := nbit v 30, parityOk := true }

/-- Ones among the bits 4 to 30 of a subframe, which its parity bit makes even. -/
def aesParity (v : Nat) : Nat := (bitsLsb (v / 16) 27).count true % 2

/-- The word that a channel sends (R441, R442, R445): in TDM the sample alone, zero or high-impedance where its mask bit is clear; in AES10 a subframe, whose channel-active bit is clear there. `start` is the first subframe of a frame. -/
def audSend (aes hiz on start : Bool) (b : Nat) (w : Word) : Option Word :=
  let v := w.toNat
  if aes = false then (if on then some (BitVec.ofNat 32 (v / 256 * 256)) else if hiz then none else some 0)
  else
    let u := b2n start + b2n on * 2 + b * 4 + nfld v 7 1 * 8 + (if on then nfld v 8 24 * 16 + nfld v 6 1 * 2 ^ 28 + nfld v 5 1 * 2 ^ 29 + nfld v 4 1 * 2 ^ 30 else 0)
    some (BitVec.ofNat 32 (u + aesParity u * 2 ^ 31))

/-- A sample scaled by the ramp (R450). -/
def rampSample (j : Nat) (v : Int) : Int := v * (rampGain j : Int) / 128

/-- The slot that receive channel `ch` of the audio ports presents to the plane for sample `k` (R442, R445, R449 to R453): the converter's sample while the direction is RAMPING or RUNNING, with Z, V, U and C as last received; otherwise zero. -/
def audPortSlot (s : State) (ch k : Nat) : Word :=
  let p := (ch - 36864) / 64
  let c := (ch - 36864) % 64
  let t := audPort s p
  let st := audDirNow s p .rx
  if st < 3 ∨ t.rxErr ∨ k < t.rxZero then 0
  else
    let ws := t.rx.map fun f => (nth? f c).getD 0
    let v := Config.srcReceive (rd s (Reg.audRxRatio p)).toNat (ws.map slotSample)
    setFld (ws.headD 0) 8 24 (twos 24 (if st = 3 then rampSample ((s.mono - t.rxSince) / sampleTicks s) v else v))

/-- The slot of a transmit channel at the port (R448, R453): through the converter, or with it bypassed, on the timebase at the plane rate, that of two plane samples before. -/
def audPortSent (s : State) (p c : Nat) : Word :=
  let ctrl := (rd s (Reg.audPortCtrl p)).toNat
  let t := audPort s p
  let h := tabGet (0, []) (36864 + 64 * p + c) s.aud.past
  let st := audDirNow s p .tx
  if st = 0 ∨ st = 2 ∨ t.txErr ∨ sampleNow s < t.txZero then 0
  else if !nbit ctrl 3 && decide ((nth? [44100, 48000, 88200, 96000] (nfld ctrl 8 2)).getD 0 = planeRate s) then
    (if sampleNow s ≤ h.1 + 2 then (nth? h.2 (h.1 + 2 - sampleNow s)).getD 0 else 0)
  else
    let v := Config.srcSend (rd s (Reg.audTxRatio p)).toNat (h.2.map slotSample)
    setFld (h.2.headD 0) 8 24 (twos 24 (if st = 3 then rampSample ((s.mono - t.txSince) / sampleTicks s) v else v))

/-- The slot that source channel `ch` presents for plane sample `k` (R426, R428): of an audio port what its receiver delivers; otherwise the next of its samples the first time the sample is read, zero where none waits. -/
def audSource (ch k : Nat) (s : State) : State × Word :=
  let x := tabGet audSrc0 ch s.aud.srcs
  if 36864 ≤ ch ∧ ch < 37120 then (s, audPortSlot s ch k)
  else if x.at_ = k + 1 then (s, x.slot)
  else
    let timed := x.timed.filter fun p => decide (k ≤ p.1)
    let w := (tabFind k timed).getD (x.queue.headD 0)
    ({ s with aud := { s.aud with srcs := tabPut ch { queue := x.queue.tail, timed := timed, at_ := k + 1, slot := w } s.aud.srcs } }, w)

/-- One slot verified at destination `ch`: formed where it enters the plane, with its check code, and changed in the bits of `flip` on the way; passed, or counted and replaced by zero; a source that is absent gives zero (R428, R430). -/
def audVerify (ch k : Nat) (s : State) (src : Option Nat) (flip : BitVec 40) : State × Word :=
  match src with
  | none => (s, 0)
  | some n =>
    let r := audSource n k s
    let w := r.2 ^^^ flip.setWidth 32
    if audCode n k w = audCode n k r.2 ^^^ flip.toNat / 2 ^ 32 then (r.1, w) else (audFail ch n r.1, 0)

/-- The slots of a destination verified in turn; `flips` are the changed bits of each, none where the list ends. -/
def audVerifyAll (ch k : Nat) : State → List (Option Nat) → List (BitVec 40) → State × List Word
  | s, [], _ => (s, [])
  | s, src :: r, xs =>
    let a := audVerify ch k s src (xs.headD 0)
    let b := audVerifyAll ch k a.1 r xs.tail
    (b.1, a.2 :: b.2)

/-- Slots of sample `k` reach destination `ch`: that of its source, and those of the old sources of its running crossfades, newest first. What leaves the destination is kept. -/
def audSlot (ch k : Nat) (flips : List (BitVec 40)) (s : State) : State :=
  let fs := audFades s ch
  let r := audVerifyAll ch k s (audRoute s ch :: fs.map Fade.old) flips
  let w := match r.2 with
    | [] => 0
    | w :: os => fadeSlot k w fs os
  let p := tabGet (0, []) ch r.1.aud.past
  let past := (w :: if p.1 + 1 = k then p.2 else []).take 96
  { r.1 with aud := { r.1.aud with out := tabSet 0 ch w r.1.aud.out, past := tabPut ch (k, past) r.1.aud.past } }

/-! ## Commits (R432, R435, R437, R438) -/

/-- TAKE_PEND of `AUD_PLANE_STATUS` (R458): a job has entries that have not committed. -/
def audPending (s : State) : State := putB Reg.audPlaneStatus 3 (!s.aud.jobs.isEmpty) s

/-- The reply body of R437. -/
def audBody (j : AudJob) : List (Nat × Nat) := [(8, j.frame), (8, j.first), (8, j.last)]

/-- A job with no entry left completes (R437, R820). -/
def audJobEnd (id : Nat) (s : State) : State :=
  if s.aud.pend.any fun p => decide (p.job = some id) then s
  else match s.aud.jobs.find? fun j => decide (j.id = id) with
    | none => s
    | some j =>
      let s := audPending { s with aud := { s.aud with jobs := s.aud.jobs.filter fun x => decide (x.id ≠ id) } }
      if j.changed then completeAt j.cmd St.planChanged 0 j.frame [] s else completeAt j.cmd St.ok 0 j.frame (audBody j) s

/-- A job notes that an entry of its has had no effect (R820). -/
def audJobChanged (id : Nat) (s : State) : State :=
  { s with aud := { s.aud with jobs := s.aud.jobs.map fun j => if j.id = id then { j with changed := true } else j } }

/-- The changes of destination `ch` that are due, at the earliest of their samples; of several the one accepted last wins (R435). -/
def audDue (s : State) (ch : Nat) : List AudPend :=
  let due := s.aud.pend.filter fun p => decide (p.dest = ch) && decide (p.at_ ≤ s.now)
  let k := due.foldl (fun m p => min m p.sample) ((due.map AudPend.sample).headD 0)
  due.filter fun p => decide (p.sample = k)

/-- The one accepted last. -/
def audWinner : List AudPend → Option AudPend
  | [] => none
  | p :: r =>
    match audWinner r with
    | none => some p
    | some q => if q.order < p.order then some p else some q

/-- Destination `ch` at its commit sample (R432 to R435). An entry of `AUD_TAKE` whose channels the mode no longer uses has no effect (R820). -/
def audCommit (ch : Nat) (s : State) : State :=
  let due := audDue s ch
  let live := fun (p : AudPend) => p.job.isNone || (audChanUsed s false p.dest &&
    (match p.source with | some x => audChanUsed s true x | none => true))
  let s := { s with aud := { s.aud with pend := s.aud.pend.filter fun p => decide (p ∉ due) } }
  let s := (due.filter fun p => !live p).foldl (fun s p => match p.job with | some j => audJobChanged j s | none => s) s
  let s := match audWinner (due.filter live) with
    | some p => audStart ch p.source p.sample s
    | none => s
  (due.filterMap AudPend.job).foldl (fun s j => audJobEnd j s) s

/-- A change scheduled. -/
def audSchedule (p : AudPend) (s : State) : State := { s with aud := { s.aud with pend := s.aud.pend ++ [p] } }

/-- Source channel of an embedded channel from a source number of the fabric (R88): the same channel of an input, and none for any other source. -/
def embSource (src c : Nat) : Option Nat := if src < 1152 then some (32 * src + c) else none

/-- An `AUD_TAKE` accepted later than `order` changes channel `ch` on sample `k` (R435). -/
def audBeaten (s : State) (ch k order : Nat) : Bool :=
  s.aud.pend.any fun p => decide (p.dest = ch) && decide (p.sample = k) && decide (order < p.order) && p.job.isSome

/-- Audio group `g` (1 to 8) of destination output `d` changes to source `src` at switch point `sp`, by a take of place `order` (R88, R432, R435, R439): the new state, and whether the level is applied. -/
def audLevel (d g src sp order : Nat) (s : State) : State × Bool :=
  let k := sampleFrom s sp
  let cs := (upto (4 * (g - 1)) 4).map fun c => (32 * d + c, embSource src c)
  let cs := cs ++ cs.filterMap fun x => (audTwin s x.1).map fun t => (t, audTwinSource x.2)
  let won := cs.filter fun x => !audBeaten s x.1 k order
  (won.foldl (fun s x => audSchedule { job := none, dest := x.1, source := x.2, sample := k, at_ := k * sampleTicks s, order := order } s) s,
   !won.isEmpty)

/-! ## `AUD_TAKE` (R431, R432, R437) -/

/-- The entries of an `AUD_TAKE`, with the twins of MIRROR (R439); of several entries for one destination the last wins. -/
def audTargets (s : State) (es : List AudEntry) : List (Nat × Option Nat) :=
  let one := fun (e : AudEntry) => (e.dest, if nbit e.flags 0 then none else some e.source)
  let put := fun (l : List (Nat × Option Nat)) (x : Nat × Option Nat) => (l.filter fun y => decide (y.1 ≠ x.1)) ++ [x]
  (es.map one).foldl (fun l x =>
    let l := put l x
    match audTwin s x.1 with
    | some t => put l (t, audTwinSource x.2)
    | none => l) []

/-- An `AUD_TAKE` armed for apply frame `f`. -/
def audArm (c : Cmd) (f : Nat) (es : List AudEntry) (s : State) : State :=
  let ts := audTargets s es
  let id := s.take.nextJob
  let ks := ts.map fun x => audSample s x.1 f
  let first := ks.foldl min (ks.headD 0)
  let last := ks.foldl max 0
  let s := { s with take := { s.take with nextJob := id + 1 }
                    aud := { s.aud with jobs := s.aud.jobs ++ [{ id := id, cmd := c, frame := f, first := first, last := last, changed := false }] } }
  audPending ((ts.zip ks).foldl (fun s x =>
    audSchedule { job := some id, dest := x.1.1, source := x.1.2, sample := x.2, at_ := x.2 * sampleTicks s, order := id } s) s)

/-- Index of the first entry that names a channel the mode does not use (R431). -/
def audBadEntry (s : State) (es : List AudEntry) : Option Nat :=
  findIdx? (fun (e : AudEntry) => !(audChanUsed s false e.dest && (nbit e.flags 0 || audChanUsed s true e.source))) es

/-- `AUD_TAKE` accepted by the firmware. -/
def fxAudTake (c : Cmd) (es : List AudEntry) (s : State) : State :=
  if inMode s = false then refuse c St.planNone s
  else match audBadEntry s es with
    | some i => complete c St.audRange i [] s
    | none => match applyFrame s tickMs c.pkt.hdr.applyAt with
      | none => refuse c St.planLate s
      | some f => forward (.command c.pkt.body f) (audArm c f es s)

/-- Channel changes that have not committed lose their effect, and their commands complete with PLAN_CHANGED (R820; 24_service_mode.md R802). -/
def audAbort (s : State) : State :=
  let ids := s.aud.jobs.map AudJob.id
  let s := { s with aud := { s.aud with pend := s.aud.pend.filter fun p => p.job.isNone } }
  ids.foldl (fun s i => audJobEnd i (audJobChanged i s)) s

/-- The embedded channels of output `d` take the sources of its audio-group levels at its change-over under a base-plan commit, on the first plane sample at or after it (R820). A channel whose source changes crossfades. -/
def audChangeover (d : Nat) (s : State) : State :=
  let k := sampleFrom s s.now
  let step := fun (s : State) (x : Nat × Option Nat) => if audRoute s x.1 = x.2 then s else audStart x.1 x.2 k s
  (upto 0 32).foldl (fun s c =>
    let src := embSource (routeOf s d (1 + c / 4)) c
    let s := step s (32 * d + c, src)
    match audTwin s (32 * d + c) with
    | some t => step s (t, audTwinSource src)
    | none => s) s

/-- Every channel that is no embedded channel of an output takes its route from the new plan (R820), at the start of the apply frame. -/
def audPlanRoutes (s : State) : State :=
  let k := sampleFrom s s.now
  let want := s.plan.cfg.audioRoutes
  let all := (tabKeys s.aud.routes ++ want.map Prod.fst).foldl (fun l x => setIns x l) []
  (all.filter fun ch => decide (36864 ≤ ch)).foldl (fun s ch =>
    let src := (want.find? fun x => decide (x.1 = ch)).map Prod.snd
    if audRoute s ch = src then s else audStart ch src k s) s

/-- RATE and MAP from the configuration in force (R427, R458). -/
def setupAudio (s : State) : State :=
  putB Reg.audPlaneStatus 1 (decide (s.plan.cfg.audioRate ≠ 0)) (putB Reg.audPlaneStatus 0 (decide (planeRate s = 96000)) s)

/-- `AUD_ROUTE_QUERY` (R457). -/
def fxAudRouteQuery (c : Cmd) (first cnt : Nat) (s : State) : State :=
  if 65536 < first + cnt then refuse c St.audRange s
  else complete c St.ok 0 ((upto first cnt).flatMap fun ch =>
    let r := audRoute s ch
    let p := s.aud.pend.any fun x => decide (x.dest = ch)
    [(2, r.getD 0xFFFF), (2, b2n r.isNone + b2n p * 2 + b2n (!(audFades s ch).isEmpty) * 4)]) s

/-! ## Ports (R440 to R452) -/

/-- Port settings (R459) that R440 and R441 allow: in TDM at 88.2 or 96 kHz at most 8 slots to a line, which keeps both the channel count and the bit clock in bounds. -/
def audCtrlOk (v : Nat) : Bool := !(nfld v 2 1 == 0 && decide (2 ≤ nfld v 8 2) && decide (nfld v 4 2 = 3))

/-- STATE of a direction set, with its record (R452). -/
def audDirState (p : Nat) (d : AudDir) (v : Nat) (s : State) : State :=
  stateEvent (Src.audPort p) noInst (Reg.audPortStatus p) (match d with | .rx => 0 | .tx => 3) 3 v s

/-- RATE_ERR from both directions (R449). -/
def audRateErr (p : Nat) (d : AudDir) (e : Bool) (s : State) : State :=
  let t := audPort s p
  let t := match d with | .rx => { t with rxErr := e } | .tx => { t with txErr := e }
  putB (Reg.audPortStatus p) 10 (t.rxErr || t.txErr) (putAudPort p t s)

/-- A direction enabled or disabled: OFF; NO_CLOCK until its clock is found (R450); a transmitter on the timebase needs no clock to be found and is RUNNING at once (log 25). In SERVICE the ports are disabled (24_service_mode.md R802). -/
def audDirSet (p : Nat) (d : AudDir) (on : Bool) (s : State) : State :=
  if on ∧ modeNow s ≠ 5 then
    match d with
    | .rx => audDirState p d 1 s
    | .tx => audDirState p d (if getB s (Reg.audPortCtrl p) 3 then 1 else 4) s
  else audRateErr p d false (audDirState p d 0 s)

/-- The fields of `AUD_PORT_CTRL[p]` that take effect only while both directions are disabled (R444). -/
def audCfgMask : Nat := 0xFFC

/-- A write of `AUD_PORT_CTRL[p]` (R444, R446, R459): the settings change only while both directions are disabled and only to what R440 and R441 allow; a write that would change them otherwise sets REFUSED and leaves them. The enables take effect, and COMMIT arms both masks. -/
def audCtrlWrite (p v : Nat) (s : State) : State :=
  let a := Reg.audPortCtrl p
  let was := (rd s a).toNat
  let differs := decide (nfld v 2 10 ≠ nfld was 2 10)
  let ok := decide (nfld was 0 2 = 0) && audCtrlOk v
  let s := if differs && !ok then putB (Reg.audPortStatus p) 12 true s
    else putF a 2 10 (nfld v 2 10) s
  let s := putF a 0 2 (nfld v 0 2) s
  let s := if nbit v 0 = nbit was 0 then s else audDirSet p .rx (nbit v 0) s
  let s := if nbit v 1 = nbit was 1 then s else audDirSet p .tx (nbit v 1) s
  if nbit v 16 then putF (Reg.audPortStatus p) 6 2 3 s else s

/-- The shadow masks of both directions armed (R446). -/
def audArmMasks (p : Nat) (s : State) : State := putF (Reg.audPortStatus p) 6 2 3 s

/-- An armed mask is copied whole (R446). -/
def audMask (p : Nat) (d : AudDir) (s : State) : State :=
  let st := Reg.audPortStatus p
  match d with
  | .rx => if getB s st 6 then putB st 6 false (put64 (Reg.audRxActLo p) (get64 s (Reg.audRxMaskLo p)) s) else s
  | .tx => if getB s st 7 then putB st 7 false (put64 (Reg.audTxActLo p) (get64 s (Reg.audTxMaskLo p)) s) else s

/-- A frame of a receiver (R441, R442, R445, R460): its channels by the mask in force; in AES10 the active channels are counted. -/
def audRxFrame (p : Nat) (frame : List (BitVec 32)) (s : State) : State :=
  let ctrl := (rd s (Reg.audPortCtrl p)).toNat
  let aes := nbit ctrl 2
  let mask := get64 s (Reg.audRxActLo p)
  let ws := frame.take (audChannels ctrl)
  let slots := ((upto 0 ws.length).zip ws).map fun x => audReceived aes (nbit mask x.1) x.2
  let s := if aes then putF (Reg.audPortStatus p) 16 7 (ws.countP aesActive) s else s
  putAudPort p { audPort s p with rx := (slots :: (audPort s p).rx).take 64 } s

/-- A frame of a transmitter (R441, R442, R445). -/
def audTxFrame (p : Nat) (s : State) : State :=
  let ctrl := (rd s (Reg.audPortCtrl p)).toNat
  let mask := get64 s (Reg.audTxActLo p)
  let out := (upto 0 (audChannels ctrl)).map fun c => audSend (nbit ctrl 2) (nbit ctrl 11) (nbit mask c) (decide (c = 0)) (c % 2) (audPortSent s p c)
  putAudPort p { audPort s p with sent := out } s

/-- A frame boundary of a direction (R446): an armed mask is copied, and of an enabled direction the next frame is received or sent under the mask then in force. -/
def audBoundary (p : Nat) (d : AudDir) (frame : List (BitVec 32)) (s : State) : State :=
  let s := audMask p d s
  if audDirNow s p d = 0 then s
  else match d with
    | .rx => audRxFrame p frame s
    | .tx => audTxFrame p s

/-- Four valid frames or word clocks in a row (R450). -/
def audClock (p : Nat) (d : AudDir) (s : State) : State :=
  let wclk := match d with | .rx => true | .tx => getB s (Reg.audPortCtrl p) 3
  if decide (audDirNow s p d = 1) && wclk then
    let t := audPort s p
    match d with
    | .rx => audDirState p d 2 (putAudPort p { t with rxSince := s.mono } s)
    | .tx => audDirState p d 2 (putB (Reg.audPortStatus p) 11 true (putAudPort p { t with txSince := s.mono } s))
  else s

def audSince (s : State) (p : Nat) (d : AudDir) : Nat := match d with | .rx => (audPort s p).rxSince | .tx => (audPort s p).txSince

/-- 50 ms of ACQUIRING have passed (R450). -/
def audAcquired (p : Nat) (d : AudDir) (s : State) : State :=
  if audDirNow s p d = 2 ∧ audSince s p d + 50 * tickMs ≤ s.mono then
    let t := audPort s p
    audDirState p d 3 (putAudPort p (match d with | .rx => { t with rxSince := s.mono } | .tx => { t with txSince := s.mono }) s)
  else s

/-- 128 ramp samples have passed (R450). -/
def audRamped (p : Nat) (d : AudDir) (s : State) : State :=
  if audDirNow s p d = 3 ∧ audSince s p d + 127 * sampleTicks s ≤ s.mono then audDirState p d 4 s else s

/-- Four expected frames or word clocks are missing (R452). -/
def audLost (p : Nat) (d : AudDir) (s : State) : State :=
  match d with
  | .rx => if 2 ≤ audDirNow s p d then audDirState p d 1 s else s
  | .tx => if getB s (Reg.audPortCtrl p) 3 then
      let s := putB (Reg.audPortStatus p) 11 false s
      if 2 ≤ audDirNow s p d then audDirState p d 1 s else s
    else s

/-- A window of the ratio tracker closes (R448, R449, R454): the applied ratio, unless the partner's is in force, and RATE_ERR. -/
def audRatio (p : Nat) (d : AudDir) (ratio : Nat) (ppm : Int) (s : State) : State :=
  if 2 ≤ audDirNow s p d then
    let s := audRateErr p d (decide (1000 < ppm.natAbs)) s
    match d with
    | .rx => if getB s (Reg.audPortStatus p) 13 then s else wr (Reg.audRxRatio p) (BitVec.ofNat 32 ratio) s
    | .tx => wr (Reg.audTxRatio p) (BitVec.ofNat 32 ratio) s
  else s

/-- A converter's buffer empties or fills (R451): the sample frames replaced, zeros in every channel of the port, are counted. -/
def audXrun (p : Nat) (d : AudDir) (k : Nat) (s : State) : State :=
  let b := match d with | .rx => 8 | .tx => 9
  let s := bump (match d with | .rx => Reg.audRxXrun p | .tx => Reg.audTxXrun p) 0 32 k s
  let t := audPort s p
  let s := putAudPort p (match d with | .rx => { t with rxZero := sampleNow s + k } | .tx => { t with txZero := sampleNow s + k }) s
  if getB s (Reg.audPortStatus p) b then s else flagEvent (Src.audPort p) noInst (Reg.audPortStatus p) b s

/-- The active unit's receive ratio of a port (R454), applied by the standby. -/
def audForwarded (p ratio : Nat) (s : State) : State :=
  if p < 4 ∧ isStandby s then putB (Reg.audPortStatus p) 13 true (wr (Reg.audRxRatio p) (BitVec.ofNat 32 ratio) s) else s

/-- Once per epoch the active unit forwards the receive ratio of every port (R454); a unit that is not standby applies its own. -/
def audEpoch (s : State) : State :=
  (upto 0 4).foldl (fun s p =>
    let s := if isStandby s then s else putB (Reg.audPortStatus p) 13 false s
    if 2 ≤ audDirNow s p .rx then forward (.ratio p (rd s (Reg.audRxRatio p)).toNat) s else s) s

/-- `AUD_PORT_SET` accepted by the firmware (R447, R457). -/
def fxAudPortSet (c : Cmd) (ctrl : Nat) (s : State) : State :=
  if audCtrlOk ctrl then scheduleCmd c (fun f => [(8, f)]) s else refuse c St.audConfig s

/-- `AUD_PORT_SET` at its apply frame (R447): settings and masks of the directions that DIR selects; the masks commit at each direction's next frame boundary. -/
def applyAudPortSet (p dir ctrl rxMask txMask : Nat) (s : State) : State :=
  let was := (rd s (Reg.audPortCtrl p)).toNat
  let en := fun b => if nbit dir b then nfld ctrl b 1 else nfld was b 1
  let cfg := if nbit dir 0 || nbit dir 1 then nfld ctrl 2 10 else nfld was 2 10
  let s := audCtrlWrite p (en 0 + en 1 * 2 + cfg * 4) s
  let s := if nbit dir 0 then putB (Reg.audPortStatus p) 6 true (put64 (Reg.audRxMaskLo p) rxMask s) else s
  if nbit dir 1 then putB (Reg.audPortStatus p) 7 true (put64 (Reg.audTxMaskLo p) txMask s) else s

/-- `AUD_PORT_QUERY` (R457). -/
def fxAudPortQuery (c : Cmd) (p : Nat) (s : State) : State :=
  complete c St.ok 0 [(4, (rd s (Reg.audPortStatus p)).toNat), (4, (rd s (Reg.audRxRatio p)).toNat), (4, (rd s (Reg.audTxRatio p)).toNat),
    (8, get64 s (Reg.audRxActLo p)), (8, get64 s (Reg.audTxActLo p))] s

/-! ## Commands -/

/-- AUDIO_CHANNEL_COMMIT (R432). -/
def execAudioChannelCommit (dt dest : Nat) (s : State) : Host.Outcome State Fault Refusal :=
  .next (only (decide (dest < 65536)) (audCommit dest) (tick dt s))

/-- CROSSFADE_END (R433). -/
def execCrossfadeEnd (dt dest : Nat) (s : State) : Host.Outcome State Fault Refusal :=
  .next (only (decide (dest < 65536)) (audEnd dest) (tick dt s))

/-- AUDIO_SLOT_VERIFY (R430). -/
def execAudioSlotVerify (dt dest : Nat) (flips : List (BitVec 40)) (s : State) : Host.Outcome State Fault Refusal :=
  .next (only (decide (dest < 65536)) (fun s => audSlot dest (sampleNow s) flips s) (tick dt s))

/-- SRC_RATIO_WINDOW (R448). -/
def execSrcRatioWindow (dt port : Nat) (dir : AudDir) (ratio : Nat) (ppm : Int) (s : State) : Host.Outcome State Fault Refusal :=
  .next (only (decide (port < 4)) (audRatio port dir ratio ppm) (tick dt s))

/-- AUDIO_CLOCK_FOUND (R450). -/
def execAudioClockFound (dt port : Nat) (dir : AudDir) (s : State) : Host.Outcome State Fault Refusal :=
  .next (only (decide (port < 4)) (audClock port dir) (tick dt s))

/-- SRC_ACQUIRE_DONE (R450). -/
def execSrcAcquireDone (dt port : Nat) (dir : AudDir) (s : State) : Host.Outcome State Fault Refusal :=
  .next (only (decide (port < 4)) (audAcquired port dir) (tick dt s))

/-- SRC_RAMP_DONE (R450). -/
def execSrcRampDone (dt port : Nat) (dir : AudDir) (s : State) : Host.Outcome State Fault Refusal :=
  .next (only (decide (port < 4)) (audRamped port dir) (tick dt s))

/-- SRC_XRUN (R451). -/
def execSrcXrun (dt port : Nat) (dir : AudDir) (frames : Nat) (s : State) : Host.Outcome State Fault Refusal :=
  .next (only (decide (port < 4)) (audXrun port dir frames) (tick dt s))

/-- AUDIO_NO_CLOCK (R452). -/
def execAudioNoClock (dt port : Nat) (dir : AudDir) (s : State) : Host.Outcome State Fault Refusal :=
  .next (only (decide (port < 4)) (audLost port dir) (tick dt s))

/-- AUD_PORT_COMMIT (R446). -/
def execAudPortCommit (dt port : Nat) (s : State) : Host.Outcome State Fault Refusal :=
  .next (only (decide (port < 4)) (audArmMasks port) (tick dt s))

/-- AUD_PORT_CONFIG_WRITE (R444). -/
def execAudPortConfigWrite (dt port : Nat) (value : Word) (s : State) : Host.Outcome State Fault Refusal :=
  .next (only (decide (port < 4)) (audCtrlWrite port value.toNat) (tick dt s))

/-- AUD_MASK_COMMIT (R446). -/
def execAudMaskCommit (dt port : Nat) (dir : AudDir) (frame : List (BitVec 32)) (s : State) : Host.Outcome State Fault Refusal :=
  .next (only (decide (port < 4)) (audBoundary port dir frame) (tick dt s))

end Sys2Proof.Machine
end

