-- ==== Sys2Proof/Machine/Operands.lean ====
section
/-! DEFINITION. The opcode table (16_command_packets.md R628) by opcode: path, server and standby columns, body layout (R817), zero fields and stated ranges. -/

namespace Sys2Proof.Machine

/-! ## Columns of the table (R617, R620, R621) -/

/-- Path FP: the dispatcher executes it. -/
def fastPath (b : Body) : Bool :=
  decide (opcodeOf b ∈ [0x0001, 0x0002, 0x0004, 0x0005, 0x0301, 0x0302, 0x0303])

/-- Marked ROM: served before the first firmware start and in RESCUE. -/
def romServes (b : Body) : Bool :=
  decide (opcodeOf b ∈ [0x0001, 0x0002, 0x0004, 0x0005, 0x0101, 0x0102, 0x0104, 0x0D01, 0x0D02])

/-- Standby column Q: answered by a standby unit, and may be relayed. -/
def standbyQ (b : Body) : Bool :=
  decide (opcodeOf b ∈ [0x0001, 0x0002, 0x0005, 0x0104, 0x0204, 0x0206, 0x0213, 0x0303, 0x0402, 0x0409, 0x0501, 0x0601, 0x0602, 0x0701, 0x0706,
    0x0805, 0x0902, 0x0904, 0x0A02, 0x0A05, 0x0B01, 0x0B03, 0x0C01, 0x0C02, 0x0C03, 0x0D01, 0x0D02, 0x0D03])

/-- Standby column S: accepted and executed by a standby unit. -/
def standbyS (b : Body) : Bool :=
  decide (opcodeOf b ∈ [0x0004, 0x0101, 0x0102, 0x0103, 0x0105, 0x0407, 0x0408, 0x0603, 0x0A01, 0x0A03, 0x0A04, 0x0B04, 0x0D04, 0x0D05,
    0x0E01, 0x0E02, 0x0E03, 0x0E04])

/-- The opcode is assigned. -/
def assigned (b : Body) : Bool :=
  match b with
  | .unassigned _ => false
  | _ => true

/-! ## LENGTH (R817, 1) -/

/-- LENGTH agrees with the opcode's layout, and COUNT with the entries that stand in the body. -/
def lengthOk (n : Nat) (b : Body) : Bool :=
  match b with
  | .planPatch .. => true
  | .planRead .. => decide (n = 16)
  | .slateLoad .. => decide (n = 12)
  | .salvo _ _ _ cnt es => decide (n = 16 + 4 * cnt) && decide (es.length = cnt)
  | .refSet .. => decide (n = 40)
  | .timeSet .. => decide (n = 16)
  | .timeConf .. => decide (n = 12)
  | .ptpSet .. => decide (n = 24)
  | .trkMbxSend _ len bs => decide (n = 8 + len) && decide (bs.length = len)
  | .ethHostSet .. => decide (n = 16)
  | .ibxTableSet _ _ es => decide (n = 2056) && decide (es.length = 1024)
  | .ibxColourSet .. => decide (n = 72)
  | .ibxProbeSet .. => decide (n = 16)
  | .compLayerSet cnt es => decide (n = 8 + 32 * cnt) && decide (es.length = cnt)
  | .compInputFormat .. => decide (n = 16)
  | .compSurfaceLoad .. => decide (n = 20)
  | .compTableSet _ _ _ _ es => decide (n = 2056) && decide (es.length = 1024)
  | .audTake cnt es => decide (n = 8 + 8 * cnt) && decide (es.length = cnt)
  | .audPortSet .. => decide (n = 24)
  | .pairSet .. => decide (n = 16)
  | .modAllowSet .. => decide (n = 24)
  | .idAttest .. => decide (n = 32)
  | .idOwnerKey .. => decide (n = 56)
  | _ => decide (n = 8)

/-! ## Zero fields (R817, 2) -/

/-- The index of the first entry whose zero fields are not zero; 0 stands for the head, or for a body without entries. None where all are zero. -/
def zeroBad (headOk : Bool) (b : Body) : Option Nat :=
  if headOk = false then some 0
  else match b with
  | .take _ flags => if flags < 2 then none else some 0
  | .salvo _ _ flags _ _ => if flags < 4 then none else some 0
  | .refSet _ v => if v.zeroOk then none else some 0
  | .ibxTableSet _ table es => if 3 ≤ table then findIdx? (fun e => decide (1024 ≤ e)) es else none
  | .ibxColourSet _ _ e => if e.zeroOk then none else some 0
  | .compLayerSet _ es => findIdx? (fun e => !e.zeroOk || decide (16 ≤ e.flags)) es
  | .compTableSet _ _ table _ es => if 3 ≤ table then findIdx? (fun e => decide (1024 ≤ e)) es else none
  | .audTake _ es => findIdx? (fun e => !e.zeroOk) es
  | _ => none

/-! ## Stated ranges (R817, 3) -/

def within (lo hi v : Nat) : Bool := decide (lo ≤ v) && decide (v ≤ hi)

/-- A coefficient or offset of a colour set lies in its field (03_port_pipelines.md R147). -/
def colourEntryIn (e : ColourEntry) : Bool :=
  e.coef.all (fun c => decide (-131072 ≤ c) && decide (c ≤ 131071)) && decide (e.coef.length = 9) && decide (e.flags < 16)

/-- The fields with a stated range lie in it; the index of the first entry that does not, 0 without entries. FLAGS bits that a layout does not declare are out of range (log 70). -/
def rangeBad (b : Body) : Option Nat :=
  let no := fun (ok : Bool) => if ok then none else some 0
  match b with
  | .modeSet m => no (within 1 4 m)
  | .tagRetire _ flags => no (decide (flags < 2))
  | .fwActivate w => no (decide (w = 0) || within 10 3600 w)
  | .planCommit flags m => no (decide (flags < 2) && decide (m ≤ 4))
  | .fsControl source loss hold => no (decide (source < 1408) && decide (loss < 2) && decide (hold < 65536))
  | .delaySet output _ => no (decide (output < 1152))
  | .slateLoad index _ _ scan _ => no (decide (index < 4096) && decide (scan ≤ 2))
  | .memQuery n => no (decide (n < 4))
  | .salvo _ _ _ cnt _ => no (within 1 1020 cnt)
  | .routeQuery first cnt => no (within 1 128 cnt && decide (first + cnt ≤ 1408))
  | .refSet n _ => no (decide (n ≤ 8))
  | .refForce k => no (decide (k ≤ 6) || decide (k = 0xFF))
  | .timeSet _ ns => no (decide (ns < 1000000000))
  | .timeConf _ loc flags jam => no (decide (-840 ≤ loc) && decide (loc ≤ 840) && decide (flags < 4) && decide (jam ≤ 86399))
  | .ptpSet k domain flags dscp _ _ => no (within 2 3 k && decide (domain ≤ 127) && decide (flags < 4) && decide (dscp < 64))
  | .capSet ch edge _ => no (decide (ch < 16) && decide (edge ≤ 3))
  | .trkQuery n => no (decide (n < 72))
  | .trkRestart n => no (decide (n < 72))
  | .trkMbxSend n len _ => no (decide (n < 72) && within 1 256 len)
  | .flowQuery _ cnt => no (within 1 64 cnt)
  | .flowStats _ clear => no (decide (clear < 2))
  | .ethHostSet ch classes _ => no (decide (ch < 64) && decide (classes < 128))
  | .ibxTaskQuery _ cnt => no (within 1 64 cnt)
  | .ibxTableSet _ table _ => no (decide (table ≤ 5))
  | .ibxColourSet _ flags e => no (decide (flags < 2) && colourEntryIn e)
  | .ibxPatternSet _ pattern slate => no (decide (pattern ≤ 6) && decide (slate < 4096))
  | .ibxProbeSet p _ bf mad ff _ _ => no (decide (p < 512) && within 1 4095 bf && decide (mad ≤ 255) && within 1 4095 ff)
  | .ibxProbeRead p => no (decide (p < 512))
  | .ibxLoudReset p => no (decide (p < 512))
  | .compLayerSet cnt es =>
    if within 1 42 cnt = false then some 0
    else findIdx? (fun e => decide (1023 < e.alpha) || decide (95 < e.head) || decide (20 < e.layer) || (decide (7 < e.tset) && decide (e.tset ≠ 0xFF))) es
  | .compSurfaceLoad _ layer fmt _ _ _ _ _ => no (within 16 19 layer && decide (fmt ≤ 1))
  | .compTableSet _ set table flags _ => no (decide (set ≤ 7) && decide (table ≤ 5) && decide (flags < 2))
  | .audTake cnt es => if within 1 508 cnt = false then some 0 else findIdx? (fun e => decide (2 ≤ e.flags)) es
  | .audRouteQuery first cnt => no (within 1 1000 cnt && decide (first + cnt ≤ 65536))
  | .audPortSet p dir _ _ _ => no (decide (p < 4) && decide (dir < 4))
  | .audPortQuery p => no (decide (p < 4))
  | .pairSet prio flags _ => no (within 1 15 prio && decide (flags < 4))
  | .pairLink action => no (decide (action ≤ 1))
  | .pairDigests _ cnt => no (within 1 256 cnt)
  | .modQuery m => no (decide (m < 16))
  | .modLedgerRead first cnt => no (decide (first ≤ 511) && within 1 32 cnt)
  | .modControl m action => no (decide (m < 16) && decide (action ≤ 2))
  | .modAllowSet index flags _ _ => no (decide (index ≤ 63) && decide (flags < 2))
  | .telCounters _ _ clear => no (decide (clear < 2))
  | .idOwnerKey slot _ _ => no (decide (slot < 4))
  | .idPolicySet policy _ => no (decide (policy < 4))
  | .svcRepair n => no (decide (n < 4))
  | _ => none

/-- The status of a field out of range (the table of R817). -/
def rangeStatus (b : Body) : Nat :=
  let o := opcodeOf b
  if o = 0x0213 ∨ o = 0x0210 ∨ o = 0x0211 ∨ o = 0x0212 then St.memRange
  else match o / 0x100 with
    | 3 => St.takeRange
    | 4 => if o ≤ 0x0404 then St.refRange else St.timeRange
    | 5 => St.trkRange
    | 6 => if o = 0x0603 then St.ethRange else St.flowRange
    | 7 => St.ibxRange
    | 8 => St.compRange
    | 9 => St.audRange
    | 10 => St.pairRange
    | 11 => St.modRange
    | 12 => St.telRange
    | 13 => St.idRange
    | 14 => St.svcRange
    | _ => St.cmdRange

/-- The check of R817: status and DETAIL of the first failure. -/
def bodyBad (p : Packet) : Option (Nat × Nat) :=
  if lengthOk p.hdr.length p.body = false then some (St.cmdFormat, 0)
  else match zeroBad p.hdr.bodyZeroOk p.body with
    | some i => some (St.cmdFormat, i)
    | none => (rangeBad p.body).map fun i => (rangeStatus p.body, i)

end Sys2Proof.Machine
end

