-- ==== Sys2Proof/Machine/Events.lean ====
section
/-! DEFINITION. The event queue controller (17_event_queue.md): records committed to the host's ring and to the supervisor's, their completion, masks and MSI-X. What latches a cause is `raise` and `setLevel`. -/

namespace Sys2Proof.Machine

/-! ## Delivery channels (R639 to R645) -/

/-- Entries of the host event ring (R639): 2ⁿ, with n held to 4 to 12. -/
def evqSize (s : State) : Nat := 2 ^ max 4 (min 12 (getF s Reg.evqRingSize 0 4))

/-- Entries of the supervisor ring (R639). -/
def supSize : Nat := 4096

/-- A channel's ring is non-empty (R647). -/
def Chan.nonempty (c : Chan) : Bool := decide (c.tail ≠ c.head)

/-- A channel's ring of `n` entries has no free entry: one stays free, so that a full ring is not taken for an empty one (log 22). -/
def Chan.full (c : Chan) (n : Nat) : Bool := decide ((c.tail + 1) % n = c.head % n)

/-- The latch that comes first in commit order (R640): by stamp, then by source number. -/
def firstPend : List Pend → Option Pend
  | [] => none
  | p :: r =>
    match firstPend r with
    | none => some p
    | some q => if p.stamp < q.stamp ∨ (p.stamp = q.stamp ∧ p.src ≤ q.src) then some p else some q

/-- The record of a latch (R637); `on` is the condition of its level source at commit. -/
def recordOf (p : Pend) (on phase : Bool) (seq : Nat) : Record :=
  { src := p.src, type := p.type, level := isLevel p.src, state := isLevel p.src && on, held := p.held, phase := phase, seq := seq,
    stamp := p.stamp, coalesced := p.coalesced, inst := p.inst, d0 := p.d0, d1 := p.d1, d2 := p.d2 }

/-- A latch committed into the next entry of a channel's ring of `n` entries (R640): the record, and the channel after it. The record is not yet written. -/
def Chan.commit (c : Chan) (n : Nat) (p : Pend) (on : Bool) : Record × Chan :=
  let t := (c.tail + 1) % n
  (recordOf p on (decide (c.pass % 2 = 1)) c.seq,
   { c with pend := c.pend.filter fun x => decide (x.src ≠ p.src)
            outst := if isLevel p.src then c.outst ++ [(p.src, c.tail)] else c.outst
            tail := t
            seq := (c.seq + 1) % 2 ^ 32
            pass := if t = 0 then c.pass + 1 else c.pass })

/-- A record written into its entry. -/
def Chan.write (c : Chan) (i : Nat) (r : Record) : Chan := { c with ring := tabPut i r c.ring }

/-- The status register of a level source's chapter (R638). -/
def levelReg (src : Nat) : Nat :=
  if src = Src.diverged then Reg.pairStatus else if src = Src.replyRing then Reg.cmdStatus else Reg.thmStatus

/-- The completion of a level source's record: the source is re-sampled (R643); `held` says that the channel's mask holds it. -/
def resample (s : State) (held : Nat → Bool) (c : Chan) (src : Nat) : Chan :=
  let c := { c with outst := c.outst.filter fun o => decide (o.1 ≠ src) }
  if src ∈ s.evq.level then chanAssert (levelPend src (rd s (levelReg src)) s (held src)) c else c

/-- The level sources with a record in the `k` entries from `i` on of a ring of `n`, in ring order. -/
def levelsFrom (c : Chan) (n i : Nat) (k : Nat) : List Nat :=
  (upto 0 k).flatMap fun j => (c.outst.filter fun o => decide (o.2 = (i + j) % n)).map Prod.fst

/-- The head of a channel moved on by `k` entries (R643). -/
def Chan.complete (s : State) (held : Nat → Bool) (n k : Nat) (c : Chan) : Chan :=
  { (levelsFrom c n c.head k).foldl (resample s held) c with head := (c.head + k) % n }

/-! ## Signalling (R647, R648) -/

/-- The MSI-X message sent, or its pending bit set while the vector is masked. -/
def msix (s : State) : State :=
  if s.evq.msixMask then { s with evq := { s.evq with msixPend := true } }
  else { s with evq := { s.evq with msixSent := s.evq.msixSent + 1 } }

/-- EVT_N is high (R648). -/
def evtN (s : State) : Bool := !(s.evq.host.nonempty && getB s Reg.evqCtrl 1)

/-! ## Commit -/

/-- A record written into the host ring, with the message of R647 where the ring was empty before it; a failed write is to be repeated (R642). -/
def hostRecord (i : Nat) (r : Record) (wasEmpty ok : Bool) (s : State) : State :=
  if ok then
    let s := { s with evq := { s.evq with host := s.evq.host.write i r, failed := none } }
    if wasEmpty then msix s else s
  else putB Reg.evqStatus 5 true { s with evq := { s.evq with failed := some (i, r, wasEmpty) } }

/-- The host's next latch committed (R640, R645): with EN set, no failed write to repeat, and a free entry. -/
def hostCommit (ok : Bool) (s : State) : State :=
  match firstPend (s.evq.host.pend.filter fun p => !evqMasked s p.src) with
  | none => s
  | some p =>
    if getB s Reg.evqCtrl 0 = false ∨ s.evq.failed.isSome then s
    else if s.evq.host.full (evqSize s) then putB Reg.evqStatus 2 true s
    else
      let c := s.evq.host
      let x := c.commit (evqSize s) p (decide (p.src ∈ s.evq.level))
      hostRecord c.tail x.1 (!c.nonempty) ok (count Reg.evqCommitted { s with evq := { s.evq with host := x.2 } })

/-- The supervisor ring consumed by the firmware, while it serves (R639, R651). -/
def supConsume (s : State) : State :=
  if server s = 1 then
    let c := s.evq.sup
    { s with evq := { s.evq with sup := c.complete s (fun _ => false) supSize ((c.tail + supSize - c.head) % supSize) } }
  else s

/-- The supervisor's next latch committed. The manual does not publish the firmware's masks: none is set (log 23). -/
def supCommit (s : State) : State :=
  match firstPend s.evq.sup.pend with
  | none => supConsume s
  | some p =>
    if s.evq.sup.full supSize then supConsume s
    else
      let c := s.evq.sup
      let x := c.commit supSize p (decide (p.src ∈ s.evq.level))
      supConsume { s with evq := { s.evq with sup := x.2.write c.tail x.1 } }

/-- Completion of host records up to a new head (R643, R646, R647). -/
def evqHeadTo (head : Nat) (s : State) : State :=
  let n := evqSize s
  let c := s.evq.host
  let k := (head + n - c.head) % n
  if n ≤ head ∨ (c.tail + n - c.head) % n < k then putB Reg.evqStatus 3 true s
  else
    let s := { s with evq := { s.evq with host := c.complete s (evqMasked s) n k } }
    if s.evq.host.nonempty then msix s else s

/-- RESET of the event ring (R649). -/
def evqReset (s : State) : State :=
  let c := s.evq.host
  let c := (c.outst.map Prod.fst).foldl (resample s (evqMasked s)) c
  { s with evq := { s.evq with host := { c with head := 0, tail := 0, seq := 0, pass := 1 }, failed := none } }

/-- A mask word written (R641): pending sources whose bit is set are held. -/
def evqMaskTo (w : Nat) (v : Word) (s : State) : State :=
  let s := wr (Reg.evqMask w) v s
  let hold := fun (p : Pend) => if p.src / 32 = w ∧ bit v (p.src % 32) then { p with held := true } else p
  { s with evq := { s.evq with host := { s.evq.host with pend := s.evq.host.pend.map hold } } }

/-- A write of the ring's base or size at offset `o` of the block (R649). A base that is not aligned to 4 KiB reads back as written (log 161). -/
def evqConfig (o : Nat) (v : Word) (s : State) : State :=
  if o = 0x8 ∨ o = 0xC ∨ o = 0x10 then
    if getB s Reg.evqCtrl 0 then putB Reg.evqStatus 3 true s
    else wr (Reg.evqCtrl + o) (if o = 0x10 then v &&& 0xF else v) s
  else s

/-- EN and PIN_EN written. -/
def evqEnable (en pinEn : Bool) (s : State) : State := putB Reg.evqCtrl 1 pinEn (putB Reg.evqCtrl 0 en s)

/-- A write of `EVQ_CTRL` with RESET 1 (R649). -/
def evqCtrlReset (en pinEn : Bool) (s : State) : State :=
  let s := if getB s Reg.evqCtrl 0 = false ∧ en = false then evqReset s else putB Reg.evqStatus 3 true s
  evqEnable en pinEn s

/-! ## Commands -/

/-- A failed record is written again into its entry (R642). -/
def hostRetry (ok : Bool) (s : State) : State :=
  match s.evq.failed with
  | none => s
  | some (i, r, e) => hostRecord i r e ok s

/-- The host clears the vector's mask (R647). -/
def msixUnmask (s : State) : State :=
  let s := { s with evq := { s.evq with msixMask := false } }
  if s.evq.msixPend then { s with evq := { s.evq with msixPend := false, msixSent := s.evq.msixSent + 1 } } else s

/-- EVENT_COMMIT (R640). -/
def execEventCommit (dt : Nat) (writeOk : Bool) (s : State) : Host.Outcome State Fault Refusal :=
  .next (only true (fun s => supCommit (hostCommit writeOk s)) (tick dt s))

/-- EVENT_RECORD_RETRY (R642). -/
def execEventRecordRetry (dt : Nat) (writeOk : Bool) (s : State) : Host.Outcome State Fault Refusal :=
  .next (only true (hostRetry writeOk) (tick dt s))

/-- EVQ_HEAD_WRITE (R643, R646). -/
def execEvqHeadWrite (dt head : Nat) (s : State) : Host.Outcome State Fault Refusal := .next (only true (fun s => evqHeadTo (head % 4096) s) (tick dt s))

/-- EVQ_EN_WRITE (R645, R654). -/
def execEvqEnWrite (dt : Nat) (en pinEn : Bool) (s : State) : Host.Outcome State Fault Refusal := .next (only true (fun s => evqEnable en pinEn s) (tick dt s))

/-- EVQ_CTRL_RESET (R649). -/
def execEvqCtrlReset (dt : Nat) (en pinEn : Bool) (s : State) : Host.Outcome State Fault Refusal := .next (only true (fun s => evqCtrlReset en pinEn s) (tick dt s))

/-- EVQ_RING_CONFIG_WRITE (R649). -/
def execEvqRingConfigWrite (dt offset : Nat) (value : Word) (s : State) : Host.Outcome State Fault Refusal :=
  .next (only true (fun s => evqConfig offset value s) (tick dt s))

/-- EVQ_MASK_WRITE (R641). -/
def execEvqMaskWrite (dt word : Nat) (value : Word) (s : State) : Host.Outcome State Fault Refusal :=
  .next (only (decide (word < 64)) (evqMaskTo word value) (tick dt s))

/-- MSIX_VECTOR_UNMASK (R647). -/
def execMsixVectorUnmask (dt : Nat) (s : State) : Host.Outcome State Fault Refusal :=
  .next (only true msixUnmask (tick dt s))

end Sys2Proof.Machine
end

