-- ==== Sys2Proof/Machine/Blocks.lean ====
section
/-! DEFINITION. Blocks, scrambler, checks and word positions of a trunk frame, the eye of a lane and its patterns, as far as they depend on no state (05_trunk_lanes.md R204, R223 to R227, R243, R244; 06_trunk_framing.md R254 to R262, R271 to R274). -/

namespace Sys2Proof.Machine

/-! ## Rates (R204) -/

/-- Block period and trunk frame period at a step: 66 bits, and 256 blocks, at 3.3203125 × 2^step Gb/s, as a number of ticks over the denominator below (log 191). -/
def blockNum : Nat := 2509056

def frameNum : Nat := 256 * blockNum

def rateDenom (step : Nat) : Nat := 425 * 2 ^ step

/-- CK frequency of a step, in Hz: a quarter of the lane rate (R205). -/
def ckHz (step : Nat) : Nat := 830078125 * 2 ^ step

/-- The number of the block, or of the frame, of a step that is in course at time `t`. -/
def blockAt (step t : Nat) : Nat := t * rateDenom step / blockNum

def frameAt (step t : Nat) : Nat := t * rateDenom step / frameNum

/-- A frame of a step starts at time `t` (06_trunk_framing.md R264): `t` is the first tick at or after a multiple of the frame period. -/
def frameStarts (step t : Nat) : Bool := decide (t * rateDenom step % frameNum < rateDenom step)

/-! ## Scrambler (R256) -/

/-- One step of the scrambler over the `k` low bits of `v`, `k` at most 39: what is sent, and the last 58 bits sent, the latest in bit 57. -/
def scrambleBits (h : Nat) (v k : Nat) : Nat × Nat :=
  let out := (v ^^^ (h / 2 ^ 19) ^^^ h) % 2 ^ k
  (out, (h + out * 2 ^ 58) / 2 ^ k)

/-- A payload through the scrambler 1 + x^39 + x^58. -/
def scramble (h : BitVec 58) (v : BitVec 64) : BitVec 64 × BitVec 58 :=
  let a := scrambleBits h.toNat (v.toNat % 2 ^ 39) 39
  let b := scrambleBits a.2 (v.toNat / 2 ^ 39) 25
  (BitVec.ofNat 64 (a.1 + b.1 * 2 ^ 39), BitVec.ofNat 58 b.2)

/-- A payload through the descrambler: each bit with those 39 and 58 before it. -/
def descramble (h : BitVec 58) (v : BitVec 64) : BitVec 64 × BitVec 58 :=
  let x := h.toNat + v.toNat * 2 ^ 58
  (BitVec.ofNat 64 (v.toNat ^^^ (x / 2 ^ 19) ^^^ x), BitVec.ofNat 58 (x / 2 ^ 64))

def scrambleAll : BitVec 58 → List (BitVec 64) → List (BitVec 64) × BitVec 58
  | h, [] => ([], h)
  | h, v :: r =>
    let a := scramble h v
    let b := scrambleAll a.2 r
    (a.1 :: b.1, b.2)

def descrambleAll : BitVec 58 → List (BitVec 64) → List (BitVec 64) × BitVec 58
  | h, [] => ([], h)
  | h, v :: r =>
    let a := descramble h v
    let b := descrambleAll a.2 r
    (a.1 :: b.1, b.2)

/-- Sync headers (R255). -/
def dataSync : Nat := 2

def headSync : Nat := 1

def syncBad (b : Blk) : Bool := decide (b.sync ≠ dataSync) && decide (b.sync ≠ headSync)

/-! ## Checks (R260, R261) -/

/-- One bit through a CRC-16 register with polynomial 0x1021. -/
def crc16Step (c : Nat) (b : Bool) : Nat :=
  if nbit c 15 != b then (c * 2 % 65536) ^^^ 0x1021 else c * 2 % 65536

/-- One payload through it, bit 0 first. -/
def crc16Block (c : Nat) (v : BitVec 64) : Nat := (bitsLsb v.toNat 64).foldl crc16Step c

/-- DCRC of the data of a frame. -/
def dcrc (data : List (BitVec 64)) : Nat := data.foldl crc16Block 0xFFFF

/-- Payloads of blocks 0 and 1 (R259), with HCRC. -/
def headBlocks (cnt claim ql lane step state msg check : Nat) : BitVec 64 × BitVec 64 :=
  let b1 := BitVec.ofNat 64 (0x47 + claim % 65536 * 2 ^ 8 + ql % 16 * 2 ^ 24 + lane % 8 * 2 ^ 28 + step % 4 * 2 ^ 32 + state % 8 * 2 ^ 34 + msg % 256 * 2 ^ 40 + check % 65536 * 2 ^ 48)
  let b0 := BitVec.ofNat 64 (0xB8 + cnt % 2 ^ 48 * 2 ^ 8)
  (BitVec.ofNat 64 (b0.toNat + hcrc b0 b1 * 2 ^ 56), b1)

/-- A header is valid on a lane (R262). -/
def headOk (lane step : Nat) (sync : Bool) (b0 b1 : BitVec 64) : Bool :=
  sync && decide (nfld b0.toNat 0 8 = 0xB8) && decide (nfld b1.toNat 0 8 = 0x47) && decide (nfld b0.toNat 56 8 = hcrc b0 b1)
    && decide (nfld b1.toNat 28 3 = lane) && decide (nfld b1.toNat 32 2 = step)

/-! ## Words in a frame (R271 to R274) -/

/-- Units of a stream of a trunk entry. -/
def unitBits (w : Nat) : List Nat := (upto 0 16).filter (nbit w)

/-- A payload of a frame's data, by its place among them: block 2 is 0. -/
def dataAt (data : List (BitVec 64)) (i : Nat) : Nat := ((nth? data i).map BitVec.toNat).getD 0

/-- The word at position `p` (R271): 40 bits of the 320-bit field of cell p / 8. -/
def positionWord (data : List (BitVec 64)) (p : Nat) : BitVec 40 :=
  let field := sumL ((upto 0 5).map fun i => dataAt data (5 * (p / 8) + i) * 2 ^ (64 * i))
  BitVec.ofNat 40 (nfld field (40 * (p % 8)) 40)

/-- The positions of a stream that owns these units, in ascending order. -/
def unitPositions (units : List Nat) : List Nat := (upto 0 400).filter fun p => decide (p % 16 ∈ units)

/-- UNIT_MAP of a lane (R273): for each unit the index of the stream that owns it, 0xF for none. -/
def unitMap (units : List (List Nat)) : Nat :=
  sumL ((upto 0 16).map fun u => ((findIdx? (fun l => decide (u ∈ l)) units).getD 15) * 16 ^ u)

/-- COUNTS of a frame's data as one field, and N_k (R273). -/
def countsField (data : List (BitVec 64)) : Nat := dataAt data 251 + dataAt data 252 * 2 ^ 64 + dataAt data 253 * 2 ^ 128

def countOf (data : List (BitVec 64)) (k : Nat) : Nat := nfld (countsField data) (12 * k) 12

/-- The word counts lie within R274; an absent stream has none (R273). -/
def countsOk (units : List (List Nat)) (data : List (BitVec 64)) : Bool :=
  (upto 0 16).all fun k => decide (countOf data k ≤ 25 * ((nth? units k).getD []).length)

/-- The words of stream `k` in a frame's data (R274). -/
def streamWords (data : List (BitVec 64)) (units : List (List Nat)) (k : Nat) : List (BitVec 40) :=
  ((unitPositions ((nth? units k).getD [])).take (countOf data k)).map (positionWord data)

/-- The word that a lane's frame carries at position `p`, of streams with these units and words (R274): zero where the stream of the position has no more. -/
def placedWord (units : List (List Nat)) (words : List (List (BitVec 40))) (p : Nat) : Nat :=
  match findIdx? (fun l => decide (p % 16 ∈ l)) units with
  | none => 0
  | some k =>
    let us := (nth? units k).getD []
    let rank := p / 16 * us.length + (us.filter fun u => decide (u < p % 16)).length
    ((nth? ((nth? words k).getD []) rank).map BitVec.toNat).getD 0

/-- The data of a frame of a lane (R258): 50 cells, UNIT_MAP and COUNTS. -/
def carryData (units : List (List Nat)) (words : List (List (BitVec 40))) : List (BitVec 64) :=
  let words := (units.zip words).map fun x => x.2.take (25 * x.1.length)
  let cells := (upto 0 50).flatMap fun c =>
    let field := sumL ((upto 0 8).map fun j => placedWord units words (8 * c + j) * 2 ^ (40 * j))
    (upto 0 5).map fun i => BitVec.ofNat 64 (field / 2 ^ (64 * i))
  let counts := sumL ((upto 0 words.length).map fun k => ((nth? words k).getD []).length * 2 ^ (12 * k))
  cells ++ [BitVec.ofNat 64 (unitMap units)] ++ (upto 0 3).map fun i => BitVec.ofNat 64 (counts / 2 ^ (64 * i))

/-- The data of a frame with trunk state IDLE or TRAIN (R258). -/
def idleData : List (BitVec 64) := List.replicate 254 0

/-! ## The eye of a lane (05_trunk_lanes.md R223 to R225) -/

/-- Positions from `p` on, around the circle of 64, whose edge count is at most the limit, one after the other. -/
def runFrom (cnt : List Nat) (limit p : Nat) : Nat → Nat
  | 0 => 0
  | n + 1 => if (nth? cnt (p % 64)).getD (limit + 1) ≤ limit then 1 + runFrom cnt limit (p + 1) n else 0

/-- The longest circular run of good positions at a setting, as start and length; of two equal ones that which starts lower (log 192). -/
def eyeRun (cnt : List Nat) (limit : Nat) : Nat × Nat :=
  (upto 0 64).foldl (fun best p => if best.2 < runFrom cnt limit p 64 then (p, runFrom cnt limit p 64) else best) (0, 0)

/-- The middle of a run: its start plus half its length. -/
def eyeCentre (r : Nat × Nat) : Nat := (r.1 + r.2 / 2) % 64

/-- Counts of a setting among the 512 of a sweep. -/
def eyeCounts (sweep : List Nat) (ctle : Nat) : List Nat := (sweep.drop (64 * ctle)).take 64

/-- The best setting of a sweep (R224): the largest eye, the lower setting of two equal ones; none below W_MIN. -/
def eyeSweep (sweep : List Nat) (limit wMin : Nat) : Option (Nat × Nat) :=
  let best := (upto 0 8).foldl (fun b c => if (eyeRun (eyeCounts sweep b) limit).2 < (eyeRun (eyeCounts sweep c) limit).2 then c else b) 0
  let r := eyeRun (eyeCounts sweep best) limit
  if r.2 < wMin then none else some (eyeCentre r, best)

/-- The run of good positions that holds position `p`. -/
def runAround (cnt : List Nat) (limit p : Nat) : Option (Nat × Nat) :=
  ((upto 0 64).map fun q => (q, runFrom cnt limit q 64)).foldl (fun best r =>
    if (p + 64 - r.1) % 64 < r.2 ∧ (best.map Prod.snd).getD 0 < r.2 then some r else best) none

/-- A cached position and setting tried first (R225). -/
def eyeCached (sweep : List Nat) (limit wMin : Nat) (c : Nat × Nat) : Option (Nat × Nat) :=
  match runAround (eyeCounts sweep c.2) limit c.1 with
  | some r => if wMin ≤ r.2 then some (eyeCentre r, c.2) else none
  | none => none

/-! ## Patterns (05_trunk_lanes.md R243, R244) -/

/-- Order of a pattern, and the other tap of its polynomial. -/
def prbsTaps (pattern : Nat) : Nat × Nat :=
  match pattern with
  | 0 => (7, 6)
  | 1 => (15, 14)
  | 2 => (23, 18)
  | _ => (31, 28)

/-- The next bit of a pattern after a history, whose latest bit is bit 0. -/
def prbsNext (pattern h : Nat) : Bool := nbit h ((prbsTaps pattern).1 - 1) != nbit h ((prbsTaps pattern).2 - 1)

def prbsPush (pattern h : Nat) (b : Bool) : Nat := (2 * h + b2n b) % 2 ^ (prbsTaps pattern).1

/-- Bits of a running generator, and its history after them. -/
def prbsBits (pattern : Nat) : Nat → Nat → List Bool × Nat
  | h, 0 => ([], h)
  | h, n + 1 =>
    let b := prbsNext pattern h
    let r := prbsBits pattern (prbsPush pattern h b) n
    (b :: r.1, r.2)

/-- One bit at the checker: its state, with the bits and errors counted. Until it locks it foretells each bit from those received; locked, from its own (log 193). -/
def prbsCheck (pattern : Nat) (x : PrbsRx × Nat × Nat) (b : Bool) : PrbsRx × Nat × Nat :=
  let t := x.1
  let want := prbsNext pattern t.hist
  let n := (prbsTaps pattern).1
  if t.locked then
    let errAt := if b = want then t.errAt else (t.pos :: t.errAt).take 32
    let lost := decide (errAt.length = 32) && decide (b ≠ want) && decide (t.pos < (errAt.getLast?).getD 0 + 128)
    if lost then (prbsRx0, x.2.1 + 1, x.2.2 + 1)
    else ({ t with hist := prbsPush pattern t.hist want, pos := t.pos + 1, errAt := errAt }, x.2.1 + 1, x.2.2 + b2n (b != want))
  else
    let run := if n ≤ t.got ∧ b = want then t.run + 1 else 0
    ({ t with hist := prbsPush pattern t.hist b, got := min n (t.got + 1), run := run, locked := decide (64 ≤ run), pos := 0, errAt := [] }, x.2)

end Sys2Proof.Machine
end

