-- ==== Sys2Proof/Machine/Stores.lean ====
section
/-! DEFINITION. Frame stores and memory (04_frame_stores.md). -/

namespace Sys2Proof.Machine

/-! ## Frame synchronisers -/

/-- Quadrant and local index of a source or destination (02_word_fabric_and_takes.md R75, R76). -/
def quadOf (n : Nat) : Nat := if n < 1152 then n / 288 else (n - 1152) / 64 % 4

def localOf (n : Nat) : Nat := if n < 1152 then n % 288 else 288 + (n - 1152) % 64

/-- `FS_STATUS[i]` of the synchroniser that serves source `n`. -/
def fsA (n : Nat) : Nat := Reg.fsStatus (quadOf n) (localOf n)

def fsTrack (s : State) (n : Nat) : FsTrack := tabGet fsTrack0 n s.mem.fs

def putFs (n : Nat) (t : FsTrack) (s : State) : State := { s with mem := { s.mem with fs := tabPut n t s.mem.fs } }

/-- STATE of a synchroniser (R200), with a record when it changes. -/
def fsState (n v : Nat) (s : State) : State := stateEvent (Src.quad (quadOf n) 5) (localOf n) (fsA n) 0 2 v s

/-- The line period of the format at a source, in ticks. -/
def srcLine (s : State) (n : Nat) : Nat :=
  match inCfg? s n with
  | some c => fmtLineTicks c.fmt
  | none => match s.plan.cfg.returns.find? fun r => decide (r.ret = n) with
    | some r => fmtLineTicks r.fmt
    | none => 0

/-- Format at a source (R171). -/
def srcFmt? (s : State) (n : Nat) : Option PortFmt :=
  match inCfg? s n with
  | some c => some c.fmt
  | none => (s.plan.cfg.returns.find? fun r => decide (r.ret = n)).map ReturnCfg.fmt

/-- The three buffers of a ring: the first that holds neither the newest complete frame nor the frame being read (R173). -/
def freeBuf (newest reading : Nat) : Nat :=
  if newest ≠ 0 ∧ reading ≠ 0 then 0 else if newest ≠ 1 ∧ reading ≠ 1 then 1 else 2

/-- T_in: the measured frame period averaged over the last 64 frames (R173); 0 before two completions. -/
def fsPeriod (t : FsTrack) : Nat :=
  match t.times, t.times.getLast? with
  | x :: _, some y => if t.times.length < 2 then 0 else (x - y) / (t.times.length - 1)
  | _, _ => 0

/-- The frame that ends now was written whole from an input that was LOCKED throughout (R173): it began, to within a line, no earlier than the input entered LOCKED. A process send has no such state. -/
def fsWhole (s : State) (n : Nat) (t : FsTrack) : Bool :=
  decide (1152 ≤ n) || (t.whole && decide (t.lockedAt + ((srcFmt? s n).elim 0 fun f => fmtFrameTicks f - fmtLineTicks f) ≤ s.mono) && decide (t.lockedAt < s.mono))

/-- The last word of an input frame has been written (R173): the ring frame is complete when the input was LOCKED for the whole frame. The writer goes on in a buffer that is neither being read nor the newest complete one. After a loss, reading starts again from this frame (R178, R179). -/
def fsRingComplete (n : Nat) (s : State) : State :=
  match tabFind n s.mem.fs with
  | none => s
  | some t =>
    if isShed s 4 n then s
    else if fsWhole s n t = false then putFs n { t with writing := [] } s
    else
      let f : RingFrame := { num := t.nextNum, buf := t.buf, doneAt := s.now, lines := t.writing.reverse }
      let next := freeBuf t.buf (if t.lost then t.buf else t.lastBuf)
      let kept := if t.lost then [] else t.frames.filter fun g => decide (g.buf ≠ next)
      let s := putFs n { t with frames := f :: kept, nextNum := t.nextNum + 1, buf := next, writing := [],
                                times := s.mono :: (if t.lost then [] else t.times.take 64),
                                lost := false, last := if t.lost then none else t.last } s
      let s := if t.lost ∧ getF s (fsA n) 0 2 = 3 then fsState n 1 (putF (fsA n) 16 16 0 s) else s
      putB (fsA n) 3 true s

/-- The newest frame whose completion lies at least L before a time. -/
def fsNewest (t : FsTrack) (l now : Nat) : Option RingFrame := t.frames.find? fun f => decide (f.doneAt + l ≤ now)

/-- The frame a read takes (R174, R177): the selected one; where that is not complete, the newest complete one, and the fallback is counted; with no selection the newest whose completion lies at least L before. -/
def fsPick (t : FsTrack) (l now : Nat) : Option RingFrame × Bool :=
  match t.sel with
  | some k =>
    match t.frames.find? fun f => decide (f.num = k) with
    | some f => (some f, false)
    | none => (t.frames.head?, t.frames.head?.isSome)
  | none => (fsNewest t l now, false)

/-- 64 samples of the audio plane in ticks (R176; 11_audio_plane.md R427). -/
def sixtyFour (s : State) : Nat := 64 * tickSec / planeRate s

/-- The samples of one audio channel place of a group in the lines of a frame, in order. -/
def lineSamples (g i : Nat) (ls : List LineInfo) : List Word :=
  ls.flatMap fun l => (l.audio.filter fun p => decide (audDataGroup p.did = some g)).filterMap fun p => (nth? p.samples i).map audSlotOf

/-- The first 64 samples that come after a join are crossfaded from those that would have come without it (R176). -/
def joinQueue (before : Nat) (old new : List Word) : List Word :=
  new.take before ++ ((upto 0 (new.drop before).length).zip (new.drop before)).map fun x =>
    if x.1 < 64 then mixSlot 64 ((nth? old x.1).getD 0) x.2 x.1 else x.2

/-- The queues of an input's 32 source channels after a join: what the frame just read has brought is crossfaded from the frame that would have followed, so far as it has been written. -/
def joinFade (n : Nat) (old : List LineInfo) (before : List Nat) (s : State) : State :=
  ((upto 0 32).zip before).foldl (fun s x =>
    match tabFind (32 * n + x.1) s.aud.srcs with
    | none => s
    | some q =>
      { s with aud := { s.aud with srcs := tabPut (32 * n + x.1) { q with queue := joinQueue x.2 (lineSamples (x.1 / 4 + 1) (x.1 % 4) old) q.queue } s.aud.srcs } }) s

/-- Stages 5 to 8 on a frame read out of the ring (R171), and the end of the frame there. -/
def fsPresent (n : Nat) (ls : List LineInfo) (s : State) : State :=
  match inCfg? s n with
  | none => s
  | some c =>
    let s := putIn n { inTrack s n with frameNo := fmtFrameNear c.fmt s.now } s
    inTurn n c (ls.foldl (fun s l => inPresent n c l (!l.invalid) s) s)

/-- A house frame in which the source presents words marked invalid: the lines of an input count (03_port_pipelines.md R161). -/
def fsDark (n : Nat) (s : State) : State :=
  match inCfg? s n with
  | none => s
  | some c => if inRing s n then bump (Reg.pinLinesInvalid n) 0 32 c.fmt.lines s else s

/-- A frame is read (R174 to R176): repeat and drops against the previous read, the latency e in rows, the stages behind the ring, and the crossfade of the input's audio at a join. -/
def fsTake (n : Nat) (t : FsTrack) (f : RingFrame) (late : Bool) (s : State) : State :=
  let a := fsA n
  let s := if late then flagEvent (Src.quad (quadOf n) 5) (localOf n) a 5 (bump (a + 12) 24 8 1 s) else s
  let rep := decide (t.last = some f.num)
  let drops := match t.last with
    | some k => f.num - k - 1
    | none => 0
  let join := rep || decide (0 < drops)
  let s := if rep then count (a + 4) s else s
  let s := bump (a + 8) 0 32 drops s
  let s := putF (a + 12) 0 24 ((s.now - f.doneAt) / tickRow) s
  let s := putFs n { t with last := some f.num, lastBuf := f.buf, sel := none, fadeUntil := if join then s.mono + sixtyFour s else t.fadeUntil } s
  let follow := (t.last.map fun k => k + 1).getD 0
  let old := match t.frames.find? fun g => decide (g.num = follow) with
    | some g => g.lines
    | none => if follow = t.nextNum then t.writing.reverse else []
  let before := (upto 0 32).map fun i => (tabGet audSrc0 (32 * n + i) s.aud.srcs).queue.length
  let s := if inRing s n then fsPresent n f.lines s else s
  let s := if inRing s n && join then joinFade n old before s else s
  fsState n 2 (putF a 16 16 0 s)

/-- A read while the input is lost (R179): with LOSS_MODE 1 a complete frame not read yet is read, then the last one is held for HOLD_FRAMES house frames; otherwise words are marked invalid. -/
def fsReadLost (n : Nat) (t : FsTrack) (s : State) : State :=
  let a := fsA n
  let held := fun (s : State) => if inRing s n then fsPresent n ((t.frames.find? fun f => decide (some f.num = t.last)).elim [] RingFrame.lines) s else s
  if getB s a 2 then
    match fsNewest t (srcLine s n) s.now with
    | none => fsDark n (fsState n 1 (putF a 16 16 0 s))
    | some f =>
      if t.last ≠ some f.num ∧ getF s a 0 2 ≠ 3 then fsTake n t f false s
      else if getF s a 0 2 = 3 then
        if getF s a 16 16 ≤ 1 then fsDark n (fsState n 1 (putF a 16 16 0 s)) else held (putF a 16 16 (getF s a 16 16 - 1) s)
      else if t.hold = 0 ∨ getF s a 0 2 = 1 then fsDark n (fsState n 1 s)
      else held (fsState n 3 (putF a 16 16 t.hold s))
  else fsDark n (fsState n 1 (putF a 16 16 0 s))

/-- A synchroniser reads a house frame (R174 to R179). -/
def fsReadFrame (n : Nat) (s : State) : State :=
  match tabFind n s.mem.fs with
  | none => s
  | some t =>
    if isShed s 4 n then fsDark n (fsState n 1 s)
    else if t.lost then fsReadLost n t s
    else
      let p := fsPick t (srcLine s n) s.now
      match p.1 with
      | none => fsDark n s
      | some f => fsTake n t f p.2 s

/-- HOLD_FRAMES held frames have passed (R179): words are marked invalid. -/
def fsHoldExpire (n : Nat) (s : State) : State :=
  match tabFind n s.mem.fs with
  | none => s
  | some t => if t.lost ∧ getF s (fsA n) 0 2 = 3 then fsState n 1 (putF (fsA n) 16 16 0 s) else s

/-- The ring frame that a synchroniser selects for a read at time `r` (R174, R177): completions not yet seen are predicted from the measured frame period. -/
def fsSelect (t : FsTrack) (l r : Nat) : Option Nat :=
  match t.frames with
  | [] => none
  | f :: _ => if f.doneAt + l ≤ r then some (f.num + if fsPeriod t = 0 then 0 else (r - l - f.doneAt) / fsPeriod t)
    else (fsNewest t l r).map RingFrame.num

/-- The number on the second rail of a source that MIRROR doubles (02_word_fabric_and_takes.md R81). -/
def railTwin (s : State) (n : Nat) : Option Nat :=
  if modeNow s ≠ 2 then none else if n < 576 then some (n + 576) else if 1152 ≤ n ∧ n < 1280 then some (n + 128) else none

/-- A selection for the next house frame, at the source's synchroniser and in MIRROR at that of the other rail (R182). -/
def fsChoose (n k : Nat) (s : State) : State :=
  let one := fun (n : Nat) (s : State) => match tabFind n s.mem.fs with
    | none => s
    | some t => putFs n { t with selNext := some k } s
  match railTwin s n with
  | none => one n s
  | some m => one m (one n s)

/-- The selection of one synchroniser for the next house frame, decided here unless the unit is a paired standby, and forwarded (R177). A synchroniser whose input is lost decides nothing. In MIRROR the rail of the lower-numbered quadrant takes the decision (R182). -/
def fsDecide (s : State) (n : Nat) : State :=
  let t := fsTrack s n
  if (isStandby s ∧ paired s) ∨ t.lost ∨ (railHome (modeNow s) n).isSome then s
  else
    match fsSelect t (srcLine s n) (frameStart s (houseFrame s + 1)) with
    | none => s
    | some k => forward (.syncDecision n k) (fsChoose n k s)

/-- A house frame starts (R177): what was decided for it is in force, and all synchronisers decide for the next. -/
def fsDecideAll (s : State) : State :=
  let s := { s with mem := { s.mem with fs := tabMap (fun _ t => { t with sel := t.selNext, selNext := none }) s.mem.fs } }
  (tabKeys s.mem.fs).foldl fsDecide s

/-- A decision forwarded by the active unit replaces the standby's own (R177). -/
def fsForwarded (n k : Nat) (s : State) : State := fsChoose n k s

/-! ## HBM errors (R189 to R193) -/

/-- The allocation entry that holds a byte address of a stack. -/
def memAt (s : State) (stack addr : Nat) : Option MemEntry :=
  (memEntries s.plan.committed s.plan.cfg.mode).find? fun e =>
    decide (e.stack = stack) && decide (e.base ≤ addr) && decide (addr < e.base + e.length)

/-- The last error address and type (R197, R199). -/
def memLastErr (stack addr type : Nat) (s : State) : State :=
  let s := wr (Reg.memLastErrLo stack) (BitVec.ofNat 32 addr) s
  wr (Reg.memLastErrHi stack) (BitVec.ofNat 32 (addr / 2 ^ 32 % 8 + type * 256)) s

/-- Corrections of one address within the last hour. -/
def correctedHour (s : State) (stack addr : Nat) : Nat :=
  (s.mem.corrected.filter fun c => decide (c.stack = stack) && decide (c.addr = addr) && decide (s.mono ≤ c.at_ + 3600 * tickSec)).length

/-- A corrected word (R190); an address corrected three times within one hour is stuck (R193). -/
def memCorrected (stack addr : Nat) (s : State) : State :=
  let s := putB (Reg.memStatus stack) 2 true (count (Reg.memCeCnt stack) (memLastErr stack addr 0 s))
  let keep := s.mem.corrected.filter fun c => decide (s.mono ≤ c.at_ + 3600 * tickSec)
  let s := { s with mem := { s.mem with corrected := keep ++ [{ stack := stack, addr := addr, at_ := s.mono }] } }
  if 3 ≤ correctedHour s stack addr ∧ ((stack, addr) ∉ s.mem.stuck ∨ getB s (Reg.memStatus stack) 4 = false) then
    let s := { s with mem := { s.mem with stuck := if (stack, addr) ∈ s.mem.stuck then s.mem.stuck else s.mem.stuck ++ [(stack, addr)] } }
    flagEvent (Src.quad stack 4) noInst (Reg.memStatus stack) 4 s
  else s

/-- Words that an output is to show are lost (R191): its next line is read from an uncorrectable word. -/
def outSpoilt (n : Nat) (s : State) : State := putOut n { outTrack s n with spoilt := true } s

/-- A head shows on the route to an output marked on air. -/
def headOnAir (s : State) (h : Nat) : Bool := s.plan.cfg.heads.any fun c => decide (c.head = h) && decide (c.ret ∈ airRoute s)

/-- A head has lost the words of a store (R191): UE, and the penalty where it is on the way to an output on air (01_compiled_plan.md R66). -/
def headSpoilt (stack h : Nat) (s : State) : State :=
  let s := flagEvent (Src.head h) noInst (Reg.compHeadStatus h) 6 s
  if headOnAir s h then penaltyAt stack 0 ((s.plan.cfg.heads.filter fun c => decide (c.head = h)).map fun c => .source c.ret) s else s

/-- Words of the region's owner are lost (R191): what the region was holding, and the penalty of a port on air. `reader` is the output that shows a slate. -/
def memRegionLost (stack : Nat) (e : MemEntry) (addr reader : Nat) (s : State) : State :=
  match e.kind with
  | 1 =>
    let t := fsTrack s e.owner
    let i := (addr - e.base) / max 1 (e.length / 3)
    let frames := t.frames.filter fun f => decide (f.buf ≠ i)
    let s := putFs e.owner { t with frames := frames, spoilt := true } s
    let s := if frames.isEmpty then putB (fsA e.owner) 3 false s else s
    if airIn s e.owner then penaltyAt stack 0 [.source e.owner] s else s
  | 2 =>
    let s := outSpoilt e.owner s
    if airOut s e.owner then penaltyAt stack 0 [.output e.owner] s else s
  | 3 =>
    let s := putB (Reg.poutStatus e.owner) 4 false (putOut e.owner { outTrack s e.owner with good := none, spoilt := true } s)
    if airOut s e.owner then penaltyAt stack 0 [.output e.owner] s else s
  | 4 => headSpoilt stack e.owner s
  | 5 => headSpoilt stack e.owner s
  | 6 => headSpoilt stack e.owner s
  | 7 => putOut reader { outTrack s reader with dark := true } s
  | 8 => putFlow e.owner { flowTrack s e.owner with held := (flowTrack s e.owner).held.filter fun h => decide (h.pos ≠ reader) } s
  | 9 => penaltyAt stack 1 [] s
  | _ => s

/-- An uncorrectable word (R191): counted, one record per epoch and stack, and the effect of its region; a word outside every allocated region lies in the plan or a fixed area. -/
def memUncorrectable (stack addr reader : Nat) (s : State) : State :=
  let s := putB (Reg.memStatus stack) 3 true (count (Reg.memUeCnt stack) (memLastErr stack addr 1 s))
  let s := if tabGet 0 stack s.mem.ueEpoch = epochNow s + 1 then s
    else raiseFlag (Src.quad stack 4) noInst (Reg.memStatus stack) 3
      { s with mem := { s.mem with ueEpoch := tabPut stack (epochNow s + 1) s.mem.ueEpoch } }
  match memAt s stack addr with
  | some e => memRegionLost stack e addr reader s
  | none => penaltyAt stack 1 [] s

/-- Outcomes of a read under the code of R189. -/
inductive EccResult where
  | clean
  | corrected
  | uncorrectable
  deriving DecidableEq, Repr

/-- Changed bits of a word and its code. -/
def flipCount (x : BitVec 72) : Nat := (bitsLsb x.toNat 72).count true

/-- What the code finds (R189): one changed bit of the 72 is corrected, two are detected, and so is a word of another address. For three or more the code promises nothing (log 184). -/
def eccCheck (addr : Nat) (r : HbmRead) : EccResult :=
  if r.from_ ≠ addr then .uncorrectable
  else match flipCount r.flips with
    | 0 => .clean
    | 1 => .corrected
    | 2 => .uncorrectable
    | _ => match Config.eccMany r.flips with
      | 0 => .clean
      | 1 => .corrected
      | 2 => .uncorrectable

/-- A 64-bit word read and checked (R189); with the clock of its stack lost every word reads as uncorrectable (13_plls_and_clock_islands.md R520). -/
def memRead (stack addr : Nat) (r : HbmRead) (s : State) : State :=
  match (if keepAlive s (23 * stack + 20) then EccResult.uncorrectable else eccCheck addr r) with
  | .clean => s
  | .corrected => memCorrected stack addr s
  | .uncorrectable => memUncorrectable stack addr r.reader s

/-- PERIOD in force, in seconds (R192, R199). -/
def scrubPeriod (s : State) (stack : Nat) : Nat := max 4 (min 64 (getF s (Reg.memScrubCtrl stack) 8 8))

/-- A scrub pass ends (R192): counted, wrapping, while the scrubber runs; a pass takes PERIOD. -/
def scrubPass (stack : Nat) (s : State) : State :=
  if getB s (Reg.memScrubCtrl stack) 0 ∧ awake s stack ∧ tabGet 0 stack s.mem.scrubAt + scrubPeriod s stack * tickSec ≤ s.mono then
    wr (Reg.memScrubPasses stack) (rd s (Reg.memScrubPasses stack) + 1) { s with mem := { s.mem with scrubAt := tabSet 0 stack s.mono s.mem.scrubAt } }
  else s

/-! ## Budgets -/

/-- R167 in MiB: the row of a region kind (R195) in modes 1 to 4. -/
def memBudget (mode kind : Nat) : Nat :=
  let row : List Nat := match kind with
    | 1 => [69120, 69120, 69120, 34560]
    | 2 => [8192, 8192, 4096, 8192]
    | 3 => [4608, 4608, 2048, 4608]
    | 4 => [768, 768, 0, 1536]
    | 5 => [3072, 3072, 0, 6144]
    | 6 => [3072, 3072, 0, 6144]
    | 7 => [2048, 2048, 2048, 2048]
    | 8 => [6592, 6592, 20160, 9664]
    | 9 => [832, 832, 832, 832]
    | _ => []
  (nth? row (mode - 1)).getD 0

/-- Bytes allocated of a kind; of a stack; of both. -/
def memUse (es : List MemEntry) (kind : Nat) : Nat := sumL ((es.filter fun e => decide (e.kind = kind)).map MemEntry.length)

def memStackUse (es : List MemEntry) (stack : Nat) : Nat := sumL ((es.filter fun e => decide (e.stack = stack)).map MemEntry.length)

def memKindStack (es : List MemEntry) (kind stack : Nat) : Nat :=
  sumL ((es.filter fun e => decide (e.kind = kind) && decide (e.stack = stack)).map MemEntry.length)

/-- R167: no row of the mode and no stack exceeded. -/
def memAllocOk (mode : Nat) (es : List MemEntry) : Bool :=
  (upto 1 9).all (fun k => decide (memUse es k ≤ memBudget mode k * mib))
    && (upto 0 4).all (fun q => decide (memStackUse es q ≤ 24576 * mib))

/-- Head units that a head takes (10_composition.md R394). -/
def headUnits (x : HeadCfg) : Nat := if x.uhd then 4 else 1

/-- Compiled traffic of capacity in 0.125 12G-eq, in units of 0.01 MB/s (R168). -/
def eqTraffic (eq8 : Nat) : Nat := 37125 * eq8

/-- Capacity of the regions of a kind, in 0.125 12G-eq. -/
def memEq8 (es : List MemEntry) (kind : Nat) : Nat := sumL ((es.filter fun e => decide (e.kind = kind)).map MemEntry.eq8)

/-- Head units that run in a quadrant; in MIRROR each head has a twin in the quadrant two further on (10_composition.md R393). -/
def quadUnits (mode : Nat) (heads : List HeadCfg) (q : Nat) : Nat :=
  sumL ((heads.filter fun x => decide (x.head / 24 = if mode = 2 then q % 2 else q)).map headUnits)

/-- Compiled traffic of a stack in units of 0.01 MB/s (R168): its rings, delay lines, stores and de-jitter buffers, the composition of its quadrant, scrub and refresh, and the host's share. -/
def stackTraffic (mode : Nat) (heads : List HeadCfg) (es : List MemEntry) (q : Nat) : Nat :=
  let own := es.filter fun e => decide (e.stack = q)
  eqTraffic (memEq8 own 1 + memEq8 own 2 + memEq8 own 3 + memEq8 own 8) + 600000 * quadUnits mode heads q + 2048000 + 1200000

/-- R170, in units of 0.01 MB/s: synchronisers, delay lines with output stores, de-jitter buffers and composition within their rows, and every stack within 870.4 GB/s. In GATEWAY the de-jitter traffic is in the synchronisers' pool (R169). The rows of scrub and of the host are the fixed costs of R168. -/
def trafficOk (mode : Nat) (heads : List HeadCfg) (es : List MemEntry) : Bool :=
  let fs := eqTraffic (memEq8 es 1)
  let lines := eqTraffic (memEq8 es 2 + memEq8 es 3)
  let jitter := eqTraffic (memEq8 es 8)
  let comp := 600000 * sumL ((upto 0 4).map (quadUnits mode heads))
  (if mode = 3 then decide (fs + jitter ≤ 228096000) && decide (lines ≤ 57024000) && decide (comp = 0)
   else decide (fs ≤ if mode = 4 then 114048000 else 228096000) && decide (lines ≤ 28512000) && decide (jitter ≤ 28512000)
     && decide (comp ≤ if mode = 4 then 57600000 else 28800000))
    && (upto 0 4).all fun q => decide (stackTraffic mode heads es q ≤ 87040000)

/-! ## Placement (R165, R166) -/

/-- Stored frames of a stream, with those of the other members of its group. -/
def groupStored (gs : List GroupCfg) (input : Bool) (n : Nat) (f : PortFmt) : Nat := (groupMembers gs input n).length * storedFrame f

/-- An allocation entry stands where R166 puts its region, and holds what R165 and R166 ask for: 3 stored frames of a ring, FRAMES of a delay line, one of an output frame store, 16, 64 and 64 MiB per head unit. Evolaevo lays plans out so; `PLAN_LOAD` makes no check of it (01_compiled_plan.md R33). -/
def memPlaced (c : ModeCfg) (e : MemEntry) : Bool :=
  let units := sumL ((c.heads.filter fun x => decide (x.head = e.owner)).map headUnits)
  let out := (c.outputs.find? fun o => decide (o.port = e.owner)).map fun o => groupStored c.groups false o.port o.fmt
  let src := if e.owner < 1152 then (c.inputs.find? fun i => decide (i.port = e.owner)).map fun i => groupStored c.groups true i.port i.fmt
    else (c.returns.find? fun r => decide (r.ret = e.owner)).map fun r => storedFrame r.fmt
  match e.kind with
  | 1 => decide (e.stack = (quadOf e.owner + if nbit e.flags 0 then 2 else 0) % 4) && decide (e.frames = 3) && src.elim true fun b => decide (3 * b ≤ e.length)
  | 2 => decide (e.stack = quadOf e.owner) && decide (e.frames ≤ 16) && out.elim true fun b => decide (e.frames * b ≤ e.length)
  | 3 => decide (e.stack = quadOf e.owner) && out.elim true fun b => decide (b ≤ e.length)
  | 4 => decide (e.stack = e.owner / 24) && decide (16 * mib * units ≤ e.length)
  | 5 => decide (e.stack = e.owner / 24) && decide (64 * mib * units ≤ e.length)
  | 6 => decide (e.stack = e.owner / 24) && decide (64 * mib * units ≤ e.length)
  | 7 => decide (e.stack < 4) && decide (e.length = 512 * mib)
  | 10 => decide (e.stack = 0xFF) && decide (e.length = 0)
  | 11 => decide (e.stack = 0xFF) && decide (e.length = 0)
  | _ => decide (e.stack < 4)

/-! ## Change of configuration -/

/-- LOSS_MODE and HOLD_FRAMES of a source as `FS_CONTROL` has left them (R179, R197). -/
def fsSetting (s : State) (n : Nat) : Nat × Nat := tabGet (0, 0) n s.mem.fsConf

/-- A synchroniser after a change of configuration (R181): an identical allocation entry keeps the ring; any other starts empty. What `FS_CONTROL` has set stands until the next base commit (R197). -/
def setupFs (old : List MemEntry) (n : Nat) (s : State) : State :=
  let a := fsA n
  match ringEntry? s n with
  | none =>
    let s := { s with mem := { s.mem with fs := tabErase n s.mem.fs } }
    fsState n 0 (putF a 2 30 0 s)
  | some e =>
    let x := fsSetting s n
    let s := putB a 2 (decide (x.1 = 1)) s
    let s := putF a 8 8 e.eq8 (putB a 4 (decide (1152 ≤ n)) s)
    if e ∈ old ∧ (tabFind n s.mem.fs).isSome then putFs n { fsTrack s n with hold := x.2 } s
    else fsState n 1 (putF a 16 16 0 (putB a 3 false (putFs n { fsTrack0 with hold := x.2, whole := decide (n < 1152) && anyLocked s n, lockedAt := s.mono } s)))

/-- A delay line after a change of configuration (R183, R197, R201): DELAY stands as `DELAY_SET` has left it until the next base commit. -/
def setupDelay (old : List MemEntry) (n : Nat) (s : State) : State :=
  let a := Reg.dlyStatus n
  match memEntry? s 2 n with
  | none => wr a 0 s
  | some e =>
    let s := putF a 8 5 (min e.frames (tabGet 0 n s.mem.delays)) (putF a 0 5 e.frames s)
    if e ∈ old then s else putF a 16 5 0 (putOut n { outTrack s n with past := [], cur := [] } s)

/-- What `FS_CONTROL` and `DELAY_SET` have set is discarded by a base commit (R197). -/
def memDiscard (s : State) : State := { s with mem := { s.mem with fsConf := [], delays := [] } }

/-- `MEM_USED` and `MEM_BW_ALLOC` of a stack (R197). -/
def setupStack (q : Nat) (s : State) : State :=
  let es := memEntries s.plan.committed s.plan.cfg.mode
  let s := wr (Reg.memUsed q) (BitVec.ofNat 32 (memStackUse es q / pageBytes)) s
  wr (Reg.memBwAlloc q) (BitVec.ofNat 32 (ceilDiv (stackTraffic s.plan.cfg.mode s.plan.cfg.heads es q) 100 % 2 ^ 20)) s

/-! ## Command effects (R196) -/

/-- `FS_CONTROL` accepted by the firmware. -/
def fxFsControl (c : Cmd) (source : Nat) (s : State) : State :=
  if (ringEntry? s source).isNone then refuse c St.memNoStore s else scheduleCmd c (fun _ => []) s

/-- `FS_CONTROL` at its apply frame (R179); in MIRROR both rails follow it (02_word_fabric_and_takes.md R81). -/
def applyFsControl (source loss hold : Nat) (s : State) : State :=
  let one := fun (n : Nat) (s : State) =>
    let s := { s with mem := { s.mem with fsConf := tabPut n (loss, hold) s.mem.fsConf } }
    match tabFind n s.mem.fs with
    | none => s
    | some t => putB (fsA n) 2 (decide (loss = 1)) (putFs n { t with hold := hold } s)
  match railTwin s source with
  | none => one source s
  | some m => one m (one source s)

/-- `DELAY_SET` accepted by the firmware (R184): it waits for the first output frame boundary at or after its apply frame. -/
def fxDelaySet (c : Cmd) (output delay : Nat) (s : State) : State :=
  match memEntry? s 2 output with
  | none => refuse c St.memNoStore s
  | some e =>
    if e.frames < delay then refuse c St.memRange s
    else match applyFrame s tickMs c.pkt.hdr.applyAt with
      | none => refuse c St.planLate s
      | some f => forward (.command c.pkt.body f) (putB (Reg.dlyStatus output) 13 true (schedule c f [(8, f)] s))

/-- PEND of `DLY_STATUS` (R201): a `DELAY_SET` of the output waits for its frame. -/
def delayPend (s : State) : State :=
  (upto 0 1152).foldl (fun s n =>
    if getB s (Reg.dlyStatus n) 13 then
      putB (Reg.dlyStatus n) 13 (s.sched.any fun y => match y.cmd.pkt.body with | .delaySet o _ => decide (o = n) | _ => false) s
    else s) s

/-- Pages of the slate store in use. -/
def slatePages (t : Tab Slate) : Nat := sumL (t.map fun p => ceilDiv p.2.length pageBytes)

/-- The upload area serves a copy (10_composition.md R411). -/
def uploadBusy (s : State) : Bool := decide (s.mono < s.comp.uploadEnd)

/-- Ticks that a copy to the partner takes at 40 Gb/s (R187; 10_composition.md R411); none where nothing is forwarded (log 27). -/
def copyTicks (s : State) (bytes : Nat) : Nat := if forwards s then bytes * 8 * tickNs / 40 else 0

/-- A copy from the upload area starts. -/
def uploadStart (bytes : Nat) (s : State) : State := { s with comp := { s.comp with uploadEnd := s.mono + copyTicks s bytes } }

/-- The words of a slate that waits for its apply frame are copied from the upload area (R187). -/
def slateStage (index frame : Nat) (words : List Nat) (s : State) : State :=
  { s with mem := { s.mem with staged := s.mem.staged ++ [(index, frame, words)] } }

/-- Of the slates that wait under an index, that with the earliest apply frame. -/
def slateNext (index : Nat) (l : List (Nat × Nat × List Nat)) : Option (Nat × Nat × List Nat) :=
  let mine := l.filter fun x => decide (x.1 = index)
  mine.find? fun x => mine.all fun y => decide (x.2.1 ≤ y.2.1)

/-- `SLATE_LOAD` accepted by the firmware (R186, R187): the picture must fill LENGTH, and the 512 MiB of a copy must hold it. -/
def fxSlateLoad (c : Cmd) (index w h scan length : Nat) (s : State) : State :=
  let pages := ceilDiv length pageBytes
  if length ≠ 0 ∧ length ≠ slateBytes w h then refuse c St.slateFormat s
  else if 256 < slatePages (tabErase index s.mem.slates) + pages then refuse c St.slateSpace s
  else if uploadBusy s then refuse c St.compBusy s
  else match applyFrame s tickMs c.pkt.hdr.applyAt with
    | none => refuse c St.planLate s
    | some f => forward (.command c.pkt.body f) (forward (.slate index w h scan length f (s.mem.upload.take (length / 4)))
        (schedule c f [(4, pages)] (uploadStart length (slateStage index f (s.mem.upload.take (length / 4)) s))))

/-- All four copies of the slate store hold a slate; LENGTH 0 deletes the index (R187). -/
def slatePut (index w h scan length : Nat) (words : List Nat) (s : State) : State :=
  let x : Slate := { width := w, height := h, scan := scan, length := length, words := words, zeroed := [] }
  let t := if length = 0 then tabErase index s.mem.slates else tabPut index x s.mem.slates
  { s with mem := { s.mem with slates := t } }

/-- `SLATE_LOAD` at its apply frame (R187). -/
def applySlate (index w h scan length : Nat) (s : State) : State :=
  match slateNext index s.mem.staged with
  | some x => slatePut index w h scan length x.2.2 { s with mem := { s.mem with staged := s.mem.staged.erase x } }
  | none => slatePut index w h scan length [] s

/-- Pages used of a kind in a stack: the plan's allocation, and for the slate store the slates loaded. -/
def memPagesUsed (s : State) (kind stack : Nat) : Nat :=
  if kind = 7 then slatePages s.mem.slates
  else memKindStack (memEntries s.plan.committed s.plan.cfg.mode) kind stack / pageBytes

/-- Pages of a kind's budget per stack in the mode in force (log 20). -/
def memPagesOf (s : State) (kind : Nat) : Nat := memBudget (modeNow s) kind / 2 / 4

/-- `MEM_QUERY` (R196): pages used and free per region kind 1 to 9. -/
def fxMemQuery (c : Cmd) (stack : Nat) (s : State) : State :=
  complete c St.ok 0 ((upto 1 9).flatMap fun k =>
    [(4, memPagesUsed s k stack), (4, memPagesOf s k - memPagesUsed s k stack)]) s

/-! ## Commands -/

/-- FS_RING_FRAME_COMPLETE (R173). -/
def execFsRingFrameComplete (dt source : Nat) (s : State) : Host.Outcome State Fault Refusal :=
  .next (only (decide (source < 1408)) (fun s => fsRingComplete source s) (tick dt s))

/-- FS_READ (R174). -/
def execFsRead (dt source : Nat) (s : State) : Host.Outcome State Fault Refusal :=
  .next (only (decide (source < 1408)) (fun s => fsReadFrame source s) (tick dt s))

/-- FS_HOLD_EXPIRY (R179). -/
def execFsHoldExpiry (dt source : Nat) (s : State) : Host.Outcome State Fault Refusal :=
  .next (only (decide (source < 1408)) (fun s => fsHoldExpire source s) (tick dt s))

/-- HBM_WORD_READ (R189). -/
def execHbmWordRead (dt stack addr : Nat) (read : HbmRead) (s : State) : Host.Outcome State Fault Refusal :=
  .next (only (decide (stack < 4)) (fun s => memRead stack addr read s) (tick dt s))

/-- SCRUB_PASS (R192). -/
def execScrubPass (dt stack : Nat) (s : State) : Host.Outcome State Fault Refusal :=
  .next (only (decide (stack < 4)) (fun s => scrubPass stack s) (tick dt s))

end Sys2Proof.Machine
end

