-- ==== Sys2Proof/Machine/Trunks.lean ====
section
/-! DEFINITION. Trunk lanes and the ladder (05_trunk_lanes.md). Link pair 72 stands for the mirror link, which climbs the same ladder on four lanes (15_the_pair.md R561). -/

namespace Sys2Proof.Machine

/-! ## Addresses, entries of the plan -/

/-- `TRK_LINK_STATUS[t]`, or `MIR_LINK_STATUS` in the same layout. -/
def linkStA (n : Nat) : Nat := if n = 72 then Reg.mirLinkStatus else Reg.trkLinkStatus n

/-- `TRK_LINK_MSG[t]`, or `MIR_LINK_MSG`. -/
def linkMsgA (n : Nat) : Nat := if n = 72 then Reg.mirLinkMsg else Reg.trkLinkMsg n

/-- `TRK_LANE_FRM[m]`, or `MIR_LANE_FRM[l]`. -/
def laneFrmA (m : Nat) : Nat := if 576 ≤ m then Reg.mirLaneFrm (m - 576) else Reg.trkLaneFrm m

def linkSrc (n : Nat) : Nat := if n = 72 then Src.mirror else Src.link n

/-- Data lanes of a link pair. -/
def lanesOf (n : Nat) : Nat := if n = 72 then 4 else 8

def linkTrack (s : State) (n : Nat) : LinkTrack := tabGet linkTrack0 n s.trk.links

def putLink (n : Nat) (t : LinkTrack) (s : State) : State :=
  { s with trk := { s.trk with links := tabSet linkTrack0 n t s.trk.links } }

def laneTrack (s : State) (m : Nat) : LaneTrack := tabGet laneTrack0 m s.trk.lanes

def putLane (m : Nat) (t : LaneTrack) (s : State) : State :=
  { s with trk := { s.trk with lanes := tabSet laneTrack0 m t s.trk.lanes } }

/-- The trunk entry (KIND 2) of a trunk in a direction (R277). -/
def trunkEntry? (s : State) (n dir : Nat) : Option TrunkEntry :=
  (trunkEntries s.plan.committed s.plan.cfg.mode).find? fun e =>
    decide (e.kind = 2) && decide (e.trunk = n) && decide (e.dir = dir)

/-- The committed mode uses the link pair. -/
def linkUsed (s : State) (n : Nat) : Bool := (trunkEntry? s n 0).isSome || (trunkEntry? s n 1).isSome

/-- The firmware runs the ladder of the link pair: it serves, and MANUAL is clear (R239, R245). -/
def ladderRuns (s : State) (n : Nat) : Bool := decide (server s = 1) && (n = 72 || !getB s (Reg.trkLinkCtrl n) 6)

/-! ## The ladder (R216 to R234) -/

def linkPhase (s : State) (n : Nat) : Nat := getF s (linkStA n) 0 3

def linkStep (s : State) (n : Nat) : Nat := getF s (linkStA n) 4 2

def linkRun (s : State) (n : Nat) : Bool := decide (linkPhase s n = 7)

/-- The end is follower: ROLE (R219); on the mirror link the slot 1 unit (15_the_pair.md R561). -/
def linkFollower (s : State) (n : Nat) : Bool := if n = 72 then s.pins.pairSel else getB s (Reg.trkLinkCtrl n) 1

def linkMaxStep (s : State) (n : Nat) : Nat := if n = 72 then 3 else getF s (Reg.trkLinkCtrl n) 4 2

/-- Target step (R219): the lower of MAX_STEP and the far end's capability byte. -/
def linkTarget (s : State) (n : Nat) : Nat := min (linkMaxStep s n) (getF s (linkMsgA n) 24 8 % 16)

/-- A ladder byte is sent from now on (R218). -/
def sendByte (n b : Nat) (s : State) : State :=
  putLink n { linkTrack s n with sent := 0 } (putF (linkMsgA n) 0 8 b s)

/-- What a lane keeps when its receiver and its transmitter start again: taps, pattern generator, pattern checker, and the drift of a loop. -/
def laneFresh (t : LaneTrack) : LaneTrack :=
  { laneTrack0 with taps := t.taps, tapsAt := t.tapsAt, elastic := t.elastic, skip := t.skip, gen := t.gen, prbs := t.prbs, injected := t.injected }

/-- The protection group of an input trunk is kept in the track of its member A; of an ungrouped trunk, in its own (06_trunk_framing.md R281). -/
def groupHead (s : State) (n : Nat) : Nat :=
  let a := Reg.trkGrpStatus n
  if n < 72 ∧ getB s a 5 ∧ getB s a 6 then n / 18 * 18 + getF s a 0 5 else n

/-- The input trunks of a group. -/
def groupTrunks (s : State) (n : Nat) : List Nat :=
  let a := groupHead s n
  if a < 72 ∧ getB s (Reg.trkGrpStatus a) 5 then [a, a / 18 * 18 + getF s (Reg.trkGrpStatus a) 0 5] else [a]

/-- Some lane of the trunk delivers frames. -/
def trunkHere (s : State) (n : Nat) : Bool := linkRun s n && decide (getF s (linkStA n) 16 8 ≠ 0)

/-- The frame timer of a group whose members are all absent takes a new phase when one returns (06_trunk_framing.md R281). -/
def groupAbsent (n : Nat) (s : State) : State :=
  let a := groupHead s n
  if (groupTrunks s n).any (trunkHere s) then s else putLink a { linkTrack s a with grp := none, released := none } s

/-- The lanes of a link pair forget what they had accepted. -/
def clearLanes (n : Nat) (s : State) : State :=
  groupAbsent n ((upto 0 (lanesOf n)).foldl (fun s l => putLane (8 * n + l) (laneFresh (laneTrack s (8 * n + l))) s) s)

/-- The ladder starts again from step 0 (R230, R233, R246), sending `byte` first. Queued mailbox bytes stay. -/
def ladderRestart (n byte : Nat) (s : State) : State :=
  let a := linkStA n
  let t := linkTrack s n
  let s := putLink n { linkTrack0 with since := s.mono, fails0 := t.fails0, txq := t.txq, rxq := t.rxq, sends := t.sends, ql := t.ql, grp := t.grp, released := t.released } s
  let s := clearLanes n (putF a 0 8 1 s)
  let s := putF a 9 1 0 (putF a 12 1 0 (putF a 16 16 0 s))
  let s := wr (linkMsgA n) (BitVec.ofNat 32 (byte + (0x10 + linkMaxStep s n) * 65536)) s
  if n = 72 then putB Reg.pairStatus 3 false s else bump (Reg.trkLinkCnt n) 0 16 1 s

/-- Both directions become electrically idle (R246). -/
def linkOff (n : Nat) (s : State) : State :=
  let a := linkStA n
  let t := linkTrack s n
  clearLanes n (putLink n { linkTrack0 with grp := t.grp, released := t.released } (putF a 0 10 0 (putF a 12 1 0 (putF a 16 16 0 s))))

/-- A step fails or times out above step 0 (R232): back to the step below, NAK, SHORT, with its record. -/
def ladderFallback (n : Nat) (s : State) : State :=
  let a := linkStA n
  let k := linkStep s n
  let s := putF a 6 2 (k - 1) (putF a 4 2 (k - 1) s)
  let s := putF a 16 8 0 (putF a 9 1 0 (putF a 0 3 1 s))
  let s := sendByte n (0x50 + k) s
  let s := putLink n { linkTrack s n with since := s.mono, nakAcc := true, doneAcc := false, txTo := none, bothReady := none } s
  flagEvent (linkSrc n) noInst a 10 s

/-- The receive direction fails a step (R229): the third consecutive failure at step 0 is FAILED. -/
def stepFail (n : Nat) (s : State) : State :=
  let a := linkStA n
  if linkStep s n = 0 then
    let t := linkTrack s n
    if 3 ≤ t.fails0 + 1 then
      let s := putLink n { t with fails0 := 0, failedAt := s.mono } s
      let before := rd s a
      raiseState (linkSrc n) noInst a before (putB a 3 true (putF a 0 3 0 s))
    else putLink n { t with fails0 := t.fails0 + 1, since := s.mono } (putF a 0 3 1 s)
  else ladderFallback n s

/-- Both ends are READY at the step (R230, R231): the leader asks for the next step or ends the ladder; a follower waits, and from now the time of R221 runs. -/
def ladderReady (n : Nat) (s : State) : State :=
  let k := linkStep s n
  if linkFollower s n then putLink n { linkTrack s n with bothReady := some s.mono } s
  else if k < linkTarget s n ∧ (linkTrack s n).nakAcc = false then sendByte n (0x30 + (k + 1)) s
  else sendByte n (0x70 + k) s

/-- An accepted ladder byte (R218, R220, R230 to R233). -/
def ladderAccept (n b : Nat) (s : State) : State :=
  let a := linkStA n
  let s := putF (linkMsgA n) 8 8 b s
  let k := b % 16
  let t := linkTrack s n
  if ladderRuns s n = false then s
  else match b / 16 with
  | 2 => if linkPhase s n = 6 ∧ k = linkStep s n ∧ getF s (linkMsgA n) 0 8 = 0x20 + k then ladderReady n s else s
  | 3 =>
    if linkFollower s n then
      let s := putLink n { t with bothReady := none } s
      if k ≤ linkMaxStep s n then
        let s := sendByte n (0x40 + k) s
        putLink n { linkTrack s n with txTo := some k } s
      else sendByte n (0x50 + k) s
    else flagEvent (linkSrc n) noInst a 11 (sendByte n (0x50 + k) s)
  | 4 => if linkFollower s n then s else putLink n { t with txTo := some k } s
  | 5 =>
    let s := putLink n { t with nakAcc := true, bothReady := none } s
    if linkStep s n = k ∧ 0 < k then ladderFallback n s
    else if linkFollower s n = false ∧ linkPhase s n = 6 then sendByte n (0x70 + linkStep s n) s
    else s
  | 6 => ladderRestart n 0x00 s
  | 7 =>
    let s := putLink n { t with doneAcc := true, bothReady := none } s
    if getF s (linkMsgA n) 0 8 = 0x70 + k then s else
      let s := sendByte n (0x70 + k) s
      putLink n { linkTrack s n with doneAcc := true } s
  | _ => s

/-- The shortest arc of the 1,024-position timer that ends at arrival `x` and holds every arrival (R227). -/
def arcTo (as : List Nat) (x : Nat) : Nat := (as.map fun y => (x + 1024 - y % 1024) % 1024).foldl max 0

/-- The latest arrival (R227): the end of the shortest arc. -/
def latestArrival (as : List Nat) : Nat :=
  as.foldl (fun best x => if arcTo as x < arcTo as best then x else best) (as.headD 0)

/-- EDGE_LIMIT and W_MIN of a link pair (R249); the mirror link has no register for them and uses the reset values (log 192). -/
def eyeLimit (s : State) (n : Nat) : Nat := if n = 72 then 16 else getF s (Reg.trkLinkLimits n) 0 16

def eyeMin (s : State) (n : Nat) : Nat := if n = 72 then 12 else getF s (Reg.trkLinkLimits n) 16 6

/-- Place of a lane and step in the equalisation cache (R225). -/
def eqKey (m step : Nat) : Nat := 1024 * step + m

/-- A lane's interpolator position and CTLE from its edge counts (R224, R225): the cached entry where it holds, otherwise the sweep. -/
def laneEye (s : State) (m : Nat) (sweep : List Nat) : Option (Nat × Nat) :=
  let n := m / 8
  match (tabFind (eqKey m (linkStep s n)) s.flash.eq).bind (eyeCached sweep (eyeLimit s n) (eyeMin s n)) with
  | some x => some x
  | none => eyeSweep sweep (eyeLimit s n) (eyeMin s n)

/-- A position and setting taken by a lane, and kept in the cache (log 192). -/
def laneEyeSet (m : Nat) (x : Nat × Nat) (s : State) : State :=
  let s := if m < 576 then putF (Reg.trkLaneCtrl m) 8 3 x.2 (putF (Reg.trkLaneCtrl m) 0 6 x.1 s) else s
  { s with flash := { s.flash with eq := tabPut (eqKey m (linkStep s (m / 8))) x s.flash.eq } }

/-- SWEEP over lanes and their counts (R222 to R225), with true where every lane has a setting. -/
def sweepLanes (ms : List (Nat × List Nat)) (s : State) : State × Bool :=
  ms.foldl (fun r x =>
    match laneEye r.1 x.1 x.2 with
    | some e => (laneEyeSet x.1 e r.1, r.2)
    | none => (r.1, false)) (s, true)

/-- ARRIVAL of a lane (R227): the block of the local timer at which its header arrived, less 256 times the low bits of its counter. -/
def laneArrival (t : LaneTrack) : Nat := (t.arrived % 1024 + 1024 - (t.pend.elim 0 RxHdr.cnt) % 4 * 256) % 1024

/-- Where a lane's frames leave the deskew buffer, on a scale on which frames of one counter leave in one block (R227). -/
def laneLeaves (t : LaneTrack) : Int := (t.arrived + t.wslip : Nat) - (256 * t.pend.elim 0 RxHdr.cnt : Nat)

/-- WSLIP of a lane set by the firmware (R227). -/
def laneSlipSet (late : Nat) (s : State) (m : Nat) : State :=
  let t := laneTrack s m
  let w := (late + 1024 - laneArrival t) % 1024
  let s := if m < 576 then putF (Reg.trkLaneSkew m) 16 6 w (putF (Reg.trkLaneSkew m) 0 10 (laneArrival t) s) else s
  putLane m { t with wslip := w } s

/-- DESKEW (R227): WSLIP of every lane from the shortest arc; a skew above 63 blocks, or frames that then leave with unequal counters, set SKEW_OVF and fail the step; otherwise ALIGNED. -/
def deskew (n : Nat) (lanes : List Nat) (s : State) : State :=
  let a := linkStA n
  let as := lanes.map fun m => laneArrival (laneTrack s m)
  let late := latestArrival as
  if 63 < arcTo as late then stepFail n (putB a 13 true s)
  else
    let s := lanes.foldl (laneSlipSet late) s
    let leaves := lanes.map fun m => laneLeaves (laneTrack s m)
    if leaves.all (fun x => decide (x = leaves.headD 0)) then
      putF a 0 3 5 (putF a 16 8 (2 ^ lanesOf n - 1) (putB a 9 true (lanes.foldl (fun s m => putLane m { laneTrack s m with passed := 0, restarts := 0 } s) s)))
    else stepFail n (putB a 13 true s)

/-- READY: own READY s is sent (R222). -/
def bringupReady (n : Nat) (s : State) : State :=
  let k := linkStep s n
  let s := putLink n { linkTrack s n with fails0 := 0 } (putF (linkStA n) 0 3 6 s)
  let s := sendByte n (0x20 + k) s
  if getF s (linkMsgA n) 8 8 = 0x20 + k then ladderReady n s else s

/-- The end of a receive bring-up phase (R222 to R229), as the lanes stand: `edges` holds, lane by lane, the 512 counts of a sweep, the positions of one CTLE setting after the other. In RUN it repeats SWEEP on a lane that has not been found in 65 slips (R236). -/
def bringupPhase (n : Nat) (edges : List (List Nat)) (s : State) : State :=
  let a := linkStA n
  let lanes := (upto 0 (lanesOf n)).map fun l => 8 * n + l
  let all := fun (p : LaneTrack → Bool) => lanes.all fun m => p (laneTrack s m)
  let some := fun (p : LaneTrack → Bool) => lanes.any fun m => p (laneTrack s m)
  if ladderRuns s n = false then s
  else match linkPhase s n with
  | 1 => if getB s a 8 then putF a 0 3 2 s else s
  | 2 =>
    let r := sweepLanes (lanes.zip edges) s
    if r.2 then putF a 0 3 3 (lanes.foldl (fun s m => putLane m { laneTrack s m with slips := 0, slipWait := 0, okRun := 0 } s) r.1) else stepFail n r.1
  | 3 =>
    if all fun t => decide (4 ≤ t.okRun) then putF a 0 3 4 s
    else if some fun t => decide (t.okRun < 4) && decide (65 ≤ t.slips) && decide (4 ≤ t.slipWait) then stepFail n s else s
  | 4 => if all fun t => t.pend.elim false RxHdr.valid then deskew n lanes s else s
  | 5 =>
    if all fun t => decide (4096 ≤ t.passed) then bringupReady n s
    else if some fun t => decide (3 ≤ t.restarts) then stepFail n s else s
  | 7 =>
    (lanes.zip edges).foldl (fun s x =>
      let t := laneTrack s x.1
      if t.searching ∧ t.swept = false ∧ 65 ≤ t.slips ∧ 4 ≤ t.slipWait then
        let r := sweepLanes [x] s
        putLane x.1 { laneTrack r.1 x.1 with swept := true, slips := if r.2 then 0 else t.slips, slipWait := 0 } r.1
      else s) s
  | _ => s

/-- The transmitter changes step at a boundary of R230: the follower after ACK in 16 frames, the leader after it has accepted ACK. -/
def txStep (n : Nat) (s : State) : State :=
  let a := linkStA n
  let t := linkTrack s n
  match t.txTo with
  | none => s
  | some k =>
    if linkFollower s n ∧ t.sent < 16 then s
    else
      let s := putF a 6 2 k (putF a 4 2 k (putF a 0 3 1 s))
      let s := putF a 16 8 0 (putF a 8 2 0 s)
      let s := sendByte n 0x00 s
      putLink n { linkTrack s n with txTo := none, since := s.mono, bothReady := none, nakAcc := false, doneAcc := false } (clearLanes n s)

/-- RUN is entered once DONE has been accepted and sent in 16 frames (R231); below the required step, or on the mirror link below step 3, BELOW_REQ (R234; 15_the_pair.md R561). -/
def runEntry (n : Nat) (s : State) : State :=
  let a := linkStA n
  let t := linkTrack s n
  let k := linkStep s n
  if t.doneAcc ∧ 16 ≤ t.sent ∧ getF s (linkMsgA n) 0 8 = 0x70 + k ∧ linkPhase s n = 6 then
    let s := putLink n { t with since := s.mono, fails0 := 0 } (putF a 0 3 7 s)
    let s := if n = 72 then putB Reg.pairStatus 3 (decide (k = 3)) s else s
    if k < (if n = 72 then 3 else getF s (Reg.trkLinkCtrl n) 8 2) then flagEvent (linkSrc n) noInst a 12 s else s
  else s

/-- 100 ms with two followers (R221). -/
def followerTimeout (n : Nat) (s : State) : State :=
  match (linkTrack s n).bothReady with
  | some t0 =>
    if linkFollower s n ∧ t0 + 100 * tickMs ≤ s.mono then
      flagEvent (linkSrc n) noInst (linkStA n) 11 (putLink n { linkTrack s n with bothReady := none } s)
    else s
  | none => s

/-- Not READY within 100 ms of the transmitter change (R232). -/
def stepTimeout (n : Nat) (s : State) : State :=
  if ladderRuns s n ∧ 0 < linkStep s n ∧ 1 ≤ linkPhase s n ∧ linkPhase s n ≤ 5 ∧ (linkTrack s n).since + 100 * tickMs ≤ s.mono then
    ladderFallback n s
  else s

/-- Not READY within 500 ms of entering a step (R233). -/
def restartTimeout (n : Nat) (s : State) : State :=
  if ladderRuns s n ∧ 1 ≤ linkPhase s n ∧ linkPhase s n ≤ 5 ∧ (linkTrack s n).since + 500 * tickMs ≤ s.mono then
    ladderRestart n 0x60 s
  else s

/-- FAILED retries every 10 s (R229). -/
def failedRetry (n : Nat) (s : State) : State :=
  if ladderRuns s n ∧ getB s (linkStA n) 3 ∧ (linkTrack s n).failedAt + 10 * tickSec ≤ s.mono then ladderRestart n 0x00 s else s

/-! ## Islands on their keep-alive clock (13_plls_and_clock_islands.md R513 to R518) -/

/-- Island `x` runs on keep-alive: its bit in `ISL_KEEPALIVE` and, sticky, in `ISL_SEEN`; a quadrant's islands raise a record. -/
def islandKeep (x : Nat) (s : State) : State :=
  let s := putB (Reg.islSeen (x / 32)) (x % 32) true s
  if getB s (Reg.islKeepalive (x / 32)) (x % 32) then s
  else
    let a := Reg.islKeepalive (x / 32)
    let s := putB a (x % 32) true s
    if x < 92 then raiseFlag (Src.quad (x / 23) 7) (x % 23) a (x % 32) s else s

/-- Island `x` runs on its own clock again. -/
def islandBack (x : Nat) (s : State) : State := putB (Reg.islKeepalive (x / 32)) (x % 32) false s

/-- The receive island of a link pair (R513). -/
def rxIsland (n : Nat) : Nat := if n = 72 then 95 else 23 * (n / 18) + n % 18

/-! ## Lanes in service (R235 to R239) -/

/-- A lane loses alignment in RUN (R235, R236): its slots become invalid and the firmware searches again. A loss while the search runs is a failure of the search; the third within 10 s marks the lane failed (R237). -/
def laneLost (m : Nat) (s : State) : State :=
  let n := m / 8
  let l := m % 8
  let a := linkStA n
  let t := { laneTrack s m with lossDue := false, badHdr := 0, errAt := [], passed := 0, okRun := 0, slips := 0, slipWait := 0, swept := false }
  if linkRun s n = false ∨ getB s a (24 + l) then s
  else if t.searching then
    let times := (t.failTimes.filter fun x => decide (s.mono < x + 10 * tickSec)) ++ [s.mono]
    let s := putLane m { t with failTimes := times } s
    if 3 ≤ times.length then
      raiseFlag (linkSrc n) l a (24 + l) (putB a (24 + l) true (putLane m { t with failTimes := times, searching := false } s))
    else s
  else if getB s a (16 + l) then
    let s := groupAbsent n (putB a (16 + l) false s)
    let s := putLane m { t with searching := true } s
    let s := if n = 72 then s else putB (Reg.trkLaneStatus m) 0 false (putB (Reg.trkLaneStatus m) 2 true (bump (Reg.trkLinkCnt n) 16 16 1 s))
    let s := putLink n { linkTrack s n with waitFw := decide (server s ≠ 1) } s
    raiseFlag (linkSrc n) l a (16 + l) s
  else s

/-- A lane is due to lose alignment (R235), or its search to fail (R236): HDR_OK not found in 65 slips after its sweep was repeated, or no eye found by that sweep, or the alignment lost again. -/
def laneDue (t : LaneTrack) : Bool := t.lossDue || (t.searching && t.swept && decide (65 ≤ t.slips))

/-- A lane rejoins after 16 consecutive frames passed (R236); the search waits for the firmware (R239). -/
def laneJoin (m : Nat) (s : State) : State :=
  let n := m / 8
  let l := m % 8
  let t := laneTrack s m
  if t.searching ∧ 16 ≤ t.passed ∧ server s = 1 ∧ linkRun s n then
    let s := putLane m { t with searching := false } s
    let s := if n = 72 then s else putB (Reg.trkLaneStatus m) 0 true s
    putB (linkStA n) (16 + l) true s
  else s

/-- A measured CK frequency is that of a step, to within 1,000 ppm (R209). -/
def ckIs (step freq : Nat) : Bool := decide ((((freq : Int) - ckHz step).natAbs) * 1000 ≤ ckHz step)

/-- Eight blocks of phase (R207), and one, in the measure of `wander`: a window of 100 µs at one hertz from the nominal frequency is 4 / 66 of a ten-thousandth of a block. -/
def wanderMax : Nat := 1320000

def wanderBlock : Nat := 165000

/-- The far-end loop of a lane is in force (R241, R245). -/
def laneLoop (s : State) (m : Nat) : Nat := if m < 576 ∧ getB s (Reg.trkLinkCtrl (m / 8)) 6 then getF s (Reg.trkLaneCtrl m) 12 2 else 0

/-- The elastic buffers of the far-end loops follow the phase of CK (R242): an overflow sets LOOP_SLIP and discards or repeats one block. -/
def loopDrift (d : Int) (s : State) (m : Nat) : State :=
  if laneLoop s m ≠ 3 then s
  else
    let t := laneTrack s m
    let e := t.elastic + d
    if (wanderMax : Int) < e then putB (Reg.trkLaneStatus m) 3 true (putLane m { t with elastic := e - wanderBlock, skip := t.skip + 1 } s)
    else if e < -(wanderMax : Int) then putB (Reg.trkLaneStatus m) 3 true (putLane m { t with elastic := e + wanderBlock, skip := t.skip - 1 } s)
    else putLane m { t with elastic := e } s

/-- The phase of CK against the fabric moves by a window's difference (R207): beyond 8 blocks every lane of the trunk loses alignment, and the island absorbs from the new phase on. -/
def ckWander (n : Nat) (d : Int) (s : State) : State :=
  let t := linkTrack s n
  let s := if n < 72 then (upto (8 * n) 8).foldl (loopDrift d) s else s
  if (t.wander + d).natAbs ≤ wanderMax then putLink n { t with wander := t.wander + d } s
  else (upto 0 (lanesOf n)).foldl (fun s l => laneLost (8 * n + l) s) (putLink n { t with wander := 0 } s)

/-- A CK measurement window closes (R209, R238) with the frequency measured, in Hz; 0 where no edge arrived. -/
def ckWindow (n freq : Nat) (s : State) : State :=
  let a := linkStA n
  let step := getF s a 6 2
  let good := (upto 0 4).any fun k => ckIs k freq
  let ok := ckIs step freq
  let was := getB s a 8
  let s := putB a 8 ok s
  if ok then
    let s := ckWander n ((freq : Int) - ckHz step) (islandBack (rxIsland n) s)
    match (linkTrack s n).ckLost with
    | none => s
    | some t0 =>
      let s := putLink n { linkTrack s n with ckLost := none } s
      if linkRun s n ∧ t0 + tickMs < s.mono then ladderRestart n 0x60 s else s
  else
    let s := islandKeep (rxIsland n) s
    if linkRun s n then
      let s := if was then (upto 0 (lanesOf n)).foldl (fun s l => laneLost (8 * n + l) s)
          (putLink n { linkTrack s n with ckLost := some s.mono } s) else s
      if good then ladderRestart n 0x60 s
      else match (linkTrack s n).ckLost with
        | some t0 => if t0 + tickMs < s.mono then ladderRestart n 0x60 s else s
        | none => s
    else if ckIs 0 freq ∧ 0 < linkStep s n ∧ ladderRuns s n ∧ 1 ≤ linkPhase s n then ladderRestart n 0x60 s
    else s

/-! ## Set-up -/

/-- Registers of a link pair from the trunk map in force (R246, R277, R294). -/
def setupTrunk (n : Nat) (s : State) : State :=
  let g := Reg.trkGrpStatus n
  let e := trunkEntry? s n 0
  let req := max ((e.map TrunkEntry.b2).getD 0) (((trunkEntry? s n 1).map TrunkEntry.b2).getD 0)
  let s := putF (Reg.trkLinkCtrl n) 8 2 req s
  let s := putB (linkStA n) 12 (linkRun s n && decide (linkStep s n < req)) s
  match e with
  | some e =>
    let member := decide (e.b3 ≠ 0xFF)
    let s := putF g 0 5 (if member then e.b3 % 18 else 0) (putB g 5 member s)
    let s := putB g 6 (member && nbit e.w4 0) s
    putF g 16 4 (nfld e.w4 8 8) s
  | none => putF g 0 7 0 (putF g 16 4 0 s)

/-! ## Command effects (16_command_packets.md R628) -/

/-- The trunk is in range and, with a plan committed, used by the mode (log 21). -/
def trunkOk (s : State) (n : Nat) : Bool := decide (n < 72) && (s.plan.committed.isNone || linkUsed s n)

def fxTrkQuery (c : Cmd) (n : Nat) (s : State) : State :=
  if trunkOk s n then
    complete c St.ok 0 ([linkStA n, linkMsgA n, Reg.trkRxHdr n, Reg.trkGrpStatus n, Reg.trkTxHdr n].map fun a => (4, (rd s a).toNat)) s
  else refuse c St.trkRange s

def fxTrkRestart (c : Cmd) (n : Nat) (s : State) : State :=
  if trunkOk s n then
    done c (if getB s (Reg.trkLinkCtrl n) 0 then ladderRestart n 0x60 s else s)
  else refuse c St.trkRange s

/-- `TRK_MBX_STATUS[t]` from the queues (R296). -/
def mbxStatus (n : Nat) (s : State) : State :=
  let t := linkTrack s n
  putF (Reg.trkMbxStatus n) 16 9 (256 - t.txq.length) (putF (Reg.trkMbxStatus n) 0 9 t.rxq.length s)

/-- The bytes of a message with END on the last. -/
def withEnd : List Nat → List (Nat × Bool)
  | [] => []
  | [b] => [(b % 256, true)]
  | b :: r => (b % 256, false) :: withEnd r

def fxTrkMbxSend (c : Cmd) (n : Nat) (bytes : List Nat) (s : State) : State :=
  if trunkOk s n = false then refuse c St.trkRange s
  else if linkRun s n = false then refuse c St.trkNotRun s
  else
    let t := linkTrack s n
    if 256 < t.txq.length + bytes.length then refuse c St.trkMbxFull s
    else mbxStatus n (putLink n { t with txq := t.txq ++ withEnd bytes, sends := t.sends ++ [(c, t.txq.length + bytes.length)] } s)

/-! ## Commands -/

/-- A 48-bit saturating count in two registers (R244). -/
def bump48 (a k : Nat) (s : State) : State := put64 a (satAdd 48 (get64 s a) k) s

/-- ENABLE written (R246): the ladder starts at step 0, or both directions become electrically idle. -/
def linkEnable (n : Nat) (enable : Bool) (s : State) : State :=
  let was := getB s (Reg.trkLinkCtrl n) 0
  let s := putB (Reg.trkLinkCtrl n) 0 enable s
  if enable then (if was then s else ladderRestart n 0x00 s) else linkOff n s

/-- RESTART written (R246): an enabled link pair's ladder starts again from step 0. -/
def linkRestart (n : Nat) (s : State) : State := if getB s (Reg.trkLinkCtrl n) 0 then ladderRestart n 0x60 s else s

/-- ROLE written (R219, R221). -/
def linkRole (n : Nat) (follower : Bool) (s : State) : State := linkRestart n (putB (Reg.trkLinkCtrl n) 1 follower s)

/-- MANUAL written (R245). -/
def linkSetManual (n : Nat) (manual : Bool) (s : State) : State :=
  if modeNow s = 5 ∨ linkUsed s n = false then putB (Reg.trkLinkCtrl n) 6 manual s else putB (linkStA n) 14 true s

/-- A host write of lane settings takes effect only with MANUAL set (R245). -/
def manualOr (lane : Nat) (f : State → State) (s : State) : State :=
  if getB s (Reg.trkLinkCtrl (lane / 8)) 6 then f s else putB (linkStA (lane / 8)) 14 true s

/-- SLIP written (R226): the received bit stream of the lane is delayed by one bit. -/
def laneSlip (m : Nat) (s : State) : State :=
  manualOr m (fun s => putB (Reg.trkLaneStatus m) 0 false (putLane m { laneTrack s m with slips := (laneTrack s m).slips + 1, slipWait := 0, okRun := 0 } s)) s

/-- EDGE_START written (R223). -/
def laneEdge (m : Nat) (s : State) : State := putB (Reg.trkLaneStatus m) 1 false s

/-- ERR_INJECT written (R252): one bit of the running generator's stream is inverted. -/
def laneInject (m : Nat) (s : State) : State :=
  manualOr m (fun s => if getB s (Reg.trkTxCtrl m) 0 then putLane m { laneTrack s m with injected := (laneTrack s m).injected + 1 } s else s) s

/-- A byte written to the transmit mailbox (R297). -/
def mbxWrite (n : Nat) (v : Word) (s : State) : State :=
  let t := linkTrack s n
  if t.txq.length < 256 then mbxStatus n (putLink n { t with txq := t.txq ++ [(fld v 0 8, bit v 8)] } s)
  else putB (Reg.trkMbxStatus n) 10 true s

/-- The oldest received mailbox byte taken (R297). -/
def mbxRead (n : Nat) (s : State) : State :=
  let t := linkTrack s n
  match t.rxq with
  | [] => { s with readData := 0 }
  | (b, e) :: r => { mbxStatus n (putLink n { t with rxq := r } s) with readData := BitVec.ofNat 32 (b + b2n e * 256 + 512) }

/-! ## Patterns (R243, R244, R252) -/

/-- The bits that a lane's generator sends, with its injected inversions, and the generator after them. -/
def prbsSend (m k : Nat) (s : State) : List Bool × State :=
  let p := getF s (Reg.trkTxCtrl m) 1 2
  let t := laneTrack s m
  let r := prbsBits p (t.gen.getD (1 + Config.prbsStart m % (2 ^ (prbsTaps p).1 - 1))) k
  ((upto 0 k).zip r.1 |>.map fun x => x.2 != decide (x.1 < t.injected),
    putLane m { t with gen := some r.2, injected := t.injected - k } s)

/-- Bits reach a lane's pattern checker (R244): in a near-end loop those of the lane's own generator (R241). The checker counts bits and errors while it is locked. -/
def prbsReceive (m : Nat) (bits : List Bool) (s : State) : State :=
  if getB s (Reg.trkPrbsRx m) 0 ∧ getB s (Reg.trkLinkCtrl (m / 8)) 6 then
    let x := if (laneLoop s m = 1 ∨ laneLoop s m = 2) ∧ getB s (Reg.trkTxCtrl m) 0 then prbsSend m bits.length s else (bits, s)
    let t := laneTrack x.2 m
    let r := x.1.foldl (prbsCheck (getF s (Reg.trkPrbsRx m) 1 2)) (t.prbs, 0, 0)
    let s := putLane m { t with prbs := r.1 } x.2
    putB (Reg.trkPrbsRx m) 8 r.1.locked (bump48 (Reg.trkPrbsBitsLo m) r.2.1 (bump48 (Reg.trkPrbsErrLo m) r.2.2 s))
  else s

/-- LOOP written: the elastic buffer of the far-end loop starts half full (R241). -/
def loopWritten (m before : Nat) (s : State) : State :=
  if getF s (Reg.trkLaneCtrl m) 12 2 = before then s else putLane m { laneTrack s m with elastic := 0, skip := 0 } s

/-- ENABLE or PATTERN of the checker, or of the generator, written: it starts again (R243, R244). -/
def prbsWritten (m : Nat) (before : Word) (s : State) : State :=
  if getF s (Reg.trkPrbsRx m) 0 3 = fld before 0 3 then s else putF (Reg.trkPrbsRx m) 8 1 0 (putLane m { laneTrack s m with prbs := prbsRx0 } s)

def genWritten (m : Nat) (before : Word) (s : State) : State :=
  if getF s (Reg.trkTxCtrl m) 0 3 = fld before 0 3 then s else putLane m { laneTrack s m with gen := none, injected := 0 } s

/-! ## Taps (R210, R211, R253) -/

/-- PRE and POST as they act. -/
def tapsClamp (pre post : Nat) : Nat × Nat := (min 16 pre, min 22 post)

/-- Taps that act on an output lane at the present. -/
def tapsNow (s : State) (m : Nat) : Nat × Nat :=
  let t := laneTrack s m
  if t.tapsAt ≤ s.mono then tapsClamp (getF s (Reg.trkTxFfe m) 0 5) (getF s (Reg.trkTxFfe m) 8 5) else t.taps

/-- `TRK_TX_FFE` has been written: the taps that acted before act until the next block boundary of the lane, and MAIN is what the new ones leave. -/
def tapsWritten (m : Nat) (before : Nat × Nat) (s : State) : State :=
  let step := getF s (linkStA (m / 8)) 4 2
  let next := ceilDiv ((blockAt step s.now + 1) * blockNum) (rateDenom step)
  let x := tapsClamp (getF s (Reg.trkTxFfe m) 0 5) (getF s (Reg.trkTxFfe m) 8 5)
  putLane m { laneTrack s m with taps := before, tapsAt := s.mono + (next - s.now) } (putF (Reg.trkTxFfe m) 16 7 (64 - x.1 - x.2) s)

/-! ## Commands -/

/-- EDGE_WINDOW_DONE (R223). -/
def execEdgeWindowDone (dt lane cnt : Nat) (s : State) : Host.Outcome State Fault Refusal :=
  .next (only (decide (lane < 576)) (fun s =>
    (putB (Reg.trkLaneStatus lane) 1 true (putF (Reg.trkLaneEdge lane) 0 17 (min 65536 cnt) s))) (tick dt s))

/-- CK_MONITOR_WINDOW (R209). -/
def execCkMonitorWindow (dt trunk freq : Nat) (s : State) : Host.Outcome State Fault Refusal :=
  .next (only (decide (trunk < 73)) (fun s => ckWindow trunk freq s) (tick dt s))

/-- RX_BRINGUP_PHASE_DONE (R222). -/
def execRxBringupPhaseDone (dt trunk : Nat) (edges : List (List Nat)) (s : State) : Host.Outcome State Fault Refusal :=
  .next (only (decide (trunk < 73)) (fun s => bringupPhase trunk edges s) (tick dt s))

/-- TX_STEP_CHANGE (R230). -/
def execTxStepChange (dt trunk : Nat) (s : State) : Host.Outcome State Fault Refusal := .next (only (decide (trunk < 73)) (fun s => txStep trunk s) (tick dt s))

/-- LADDER_RUN_ENTRY (R231). -/
def execLadderRunEntry (dt trunk : Nat) (s : State) : Host.Outcome State Fault Refusal := .next (only (decide (trunk < 73)) (fun s => runEntry trunk s) (tick dt s))

/-- LADDER_FOLLOWER_TIMEOUT (R221). -/
def execLadderFollowerTimeout (dt trunk : Nat) (s : State) : Host.Outcome State Fault Refusal :=
  .next (only (decide (trunk < 73)) (fun s => followerTimeout trunk s) (tick dt s))

/-- STEP_READY_TIMEOUT (R232). -/
def execStepReadyTimeout (dt trunk : Nat) (s : State) : Host.Outcome State Fault Refusal := .next (only (decide (trunk < 73)) (fun s => stepTimeout trunk s) (tick dt s))

/-- LADDER_RESTART_TIMEOUT (R233). -/
def execLadderRestartTimeout (dt trunk : Nat) (s : State) : Host.Outcome State Fault Refusal :=
  .next (only (decide (trunk < 73)) (fun s => restartTimeout trunk s) (tick dt s))

/-- LINK_FAILED_RETRY (R229). -/
def execLinkFailedRetry (dt trunk : Nat) (s : State) : Host.Outcome State Fault Refusal := .next (only (decide (trunk < 73)) (fun s => failedRetry trunk s) (tick dt s))

/-- LANE_ALIGNMENT_LOSS (R235). -/
def execLaneAlignmentLoss (dt lane : Nat) (s : State) : Host.Outcome State Fault Refusal := .next (only (decide (lane < 580)) (fun s => if laneDue (laneTrack s lane) then laneLost lane s else s) (tick dt s))

/-- LANE_REJOIN (R236). -/
def execLaneRejoin (dt lane : Nat) (s : State) : Host.Outcome State Fault Refusal := .next (only (decide (lane < 580)) (fun s => laneJoin lane s) (tick dt s))

/-- PRBS_CHECKER_LOCK (R244). -/
def execPrbsCheckerLock (dt lane : Nat) (bits : List Bool) (s : State) : Host.Outcome State Fault Refusal :=
  .next (only (decide (lane < 576)) (fun s => prbsReceive lane bits s) (tick dt s))

end Sys2Proof.Machine
end

