-- ==== Sys2Proof/Machine/Framing.lean ====
section
/-! DEFINITION. Trunk frames received and sent, the words they carry, and protection groups (06_trunk_framing.md). -/

namespace Sys2Proof.Machine

/-! ## Frames received (R218, R259 to R270, R291; 05_trunk_lanes.md R226 to R228, R235) -/

/-- The lowest aligned lane of a link pair (R292). -/
def lowestLane (s : State) (n : Nat) : Nat :=
  match (upto 0 (lanesOf n)).find? fun l => getB s (linkStA n) (16 + l) with
  | some l => l
  | none => 0

/-- The registers of the last header on the lowest aligned lane (R292, R293). -/
def rxHeader (n : Nat) (valid : Bool) (b0 b1 : Nat) (s : State) : State :=
  if n = 72 then s
  else
    let a := Reg.trkRxHdr n
    if valid then
      let s := wr a (BitVec.ofNat 32 (nfld b1 8 16 + nfld b1 24 4 * 65536 + nfld b1 32 2 * 2 ^ 20 + nfld b1 34 3 * 2 ^ 22 + 2 ^ 25)) s
      let s := wr (Reg.trkRxFcntLo n) (BitVec.ofNat 32 (nfld b0 8 32)) s
      putF (Reg.trkRxFcntHi n) 0 16 (nfld b0 40 16) s
    else putB a 25 false s

/-- A mailbox control byte on D6, with the data byte that D2 carried in the same frame (R267, R269). -/
def mbxReceive (n : Nat) (valid : Bool) (ctl : Nat) (s : State) : State :=
  let t := linkTrack s n
  if nbit ctl 0 then
    match t.d2, valid with
    | some b, true =>
      if t.rxDrop then putLink n { t with rxDrop := !nbit ctl 1, d2 := none } s
      else if t.rxq.length < 256 then mbxStatus n (putLink n { t with rxq := t.rxq ++ [(b, nbit ctl 1)], d2 := none } s)
      else putLink n { t with d2 := none } s
    | _, _ => putB (Reg.trkMbxStatus n) 9 true (putLink n { t with rxDrop := !(valid && nbit ctl 1), d2 := none } s)
  else putLink n { t with d2 := none } s

/-- A message byte accepted on a lane (R216, R218, R267, R268). -/
def laneByte (m b : Nat) (s : State) : State :=
  let n := m / 8
  let l := m % 8
  if linkRun s n ∧ n = 72 then
    (if l = 2 then putF (linkMsgA n) 24 8 b s else { s with pair := { s.pair with msg := tabPut l b s.pair.msg } })
  else if linkRun s n then
    if l % 2 = 1 then putF (linkMsgA n) 24 8 b s
    else if l = 0 ∨ l = 4 then putF (Reg.trkRxFcntHi n) 16 8 b s
    else s
  else if l % 2 = 1 then putF (linkMsgA n) 24 8 b s
  else if getF s (linkMsgA n) 8 8 = b then s
  else ladderAccept n b s

/-- QL of a trunk marked REF (R291): a value is passed on with the 16th consecutive valid header that carries it; a change raises a record. -/
def rxQl (n ql : Nat) (s : State) : State :=
  let t := linkTrack s n
  let run := if t.qlSeen = ql then t.qlRun + 1 else 1
  let s := putLink n { t with qlSeen := ql, qlRun := min run 16, ql := if 16 ≤ run then ql else t.ql } s
  if 16 ≤ run ∧ t.ql ≠ ql then raiseFlag (linkSrc n) noInst (Reg.trkRxHdr n) 16 s else s

/-- Blocks of a far-end loop through its elastic buffer (05_trunk_lanes.md R242): one repeated or discarded after an overflow. -/
def elasticOut (skip : Int) (f : List Blk) : List Blk :=
  if 0 < skip then f.drop 1 else if skip < 0 then f.take 1 ++ f else f

/-- The blocks that a lane's receiver takes (05_trunk_lanes.md R241): those of its input, or in a near-end loop those of its own output lane. -/
def laneInput (s : State) (m : Nat) (f : List Blk) : List Blk :=
  let t := laneTrack s m
  if laneLoop s m = 1 ∨ laneLoop s m = 2 then t.txPrev ++ t.tx.take 2 else f

/-- A sync-header error in a block (R235): with 32 in 1,024 blocks the lane has lost its alignment. -/
def syncCount (r : List Nat × Nat × Bool) (b : Blk) : List Nat × Nat × Bool :=
  if syncBad b then
    let l := (r.2.1 :: r.1).take 32
    (l, r.2.1 + 1, r.2.2 || (decide (l.length = 32) && decide (r.2.1 < (l.getLast?).getD 0 + 1024)))
  else (r.1, r.2.1 + 1, r.2.2)

/-- What a lane's receiver finds in the blocks since the last header: the descrambled payloads, sync-header errors of the data, and of the header, the header's validity, and whether the data match the check (R261, where a frame went before). -/
structure LaneFound where
  data : List (BitVec 64)
  b0 : BitVec 64
  b1 : BitVec 64
  errs : Nat
  headClean : Bool
  valid : Bool
  match_ : Bool
  descr : BitVec 58
  deriving DecidableEq, Repr

def laneFind (s : State) (m : Nat) (f : List Blk) : LaneFound :=
  let t := laneTrack s m
  let d := descrambleAll t.descr (f.map Blk.payload)
  let h := f.drop 254
  let b0 := (nth? d.1 254).getD 0
  let b1 := (nth? d.1 255).getD 0
  let data := d.1.take 254
  { data := data, b0 := b0, b1 := b1, errs := (f.filter syncBad).length, headClean := !h.any syncBad,
    valid := headOk (m % 8) (getF s (linkStA (m / 8)) 6 2) (h.all fun b => decide (b.sync = headSync)) b0 b1,
    match_ := decide (nfld b1.toNat 48 16 = dcrc data), descr := d.2 }

/-- The frame before the header just received, now whole (R282, R283). -/
def laneWhole (t : LaneTrack) (x : LaneFound) (f : List Blk) : List RxFrame :=
  match t.pend with
  | none => t.frames
  | some h => (RxFrame.mk h x.data (!(f.take 254).any syncBad) x.match_ x.valid :: t.frames).take 10

/-- The frame before passes QUALIFY (05_trunk_lanes.md R228). -/
def lanePass (t : LaneTrack) (x : LaneFound) (f : List Blk) : Bool :=
  (t.pend.elim false RxHdr.clean) && !(f.take 254).any syncBad && x.valid && x.match_

/-- Header fields kept of a frame (R283), received at the present. -/
def laneHead (s : State) (n : Nat) (t : LaneTrack) (x : LaneFound) : RxHdr :=
  let step := getF s (linkStA n) 6 2
  { cnt := if x.valid then nfld x.b0.toNat 8 48 else (t.pend.elim 0 RxHdr.cnt + 1) % 2 ^ 48, claim := nfld x.b1.toNat 8 16, ql := nfld x.b1.toNat 24 4,
    state := nfld x.b1.toNat 34 3, valid := x.valid, clean := x.headClean, since := s.mono - 2 * blockNum / rateDenom step }

/-- The lane's own record of what it received (R218, R226, R228, R235; 05_trunk_lanes.md R236). -/
def laneTook (s : State) (m : Nat) (f : List Blk) (x : LaneFound) : LaneTrack :=
  let n := m / 8
  let t := laneTrack s m
  let msg := nfld x.b1.toNat 40 8
  let run := if x.valid ∧ msg = t.byte then t.run + 1 else if x.valid then 1 else 0
  let e := f.foldl syncCount (t.errAt, t.blocks, t.lossDue)
  let okRun := if x.errs = 0 ∧ (f.drop 254).all (fun b => decide (b.sync = headSync)) then min 4 (t.okRun + 1) else 0
  let slips := (linkPhase s n = 3 ∨ t.searching) ∧ ladderRuns s n = true ∧ okRun < 4 ∧ 4 ≤ t.slipWait + 1 ∧ t.slips < 65
  let pass := lanePass t x f
  let qual := linkPhase s n = 5 ∧ pass = false ∧ t.pend.isSome
  let badHdr := if x.valid then 0 else t.badHdr + 1
  { t with
    byte := if x.valid then msg else t.byte, run := min run 4
    badHdr := badHdr, blocks := e.2.1, errAt := e.1, lossDue := e.2.2 || decide (2 ≤ badHdr)
    passed := if pass then t.passed + 1 else 0, restarts := if qual then min 3 (t.restarts + 1) else t.restarts
    okRun := if slips then 0 else okRun, slips := if slips then t.slips + 1 else t.slips, slipWait := if slips then 0 else min 4 (t.slipWait + 1)
    descr := x.descr, pend := some (laneHead s n t x), frames := laneWhole t x f
    arrived := blockAt (getF s (linkStA n) 6 2) s.mono
    wslip := if m < 576 then getF s (Reg.trkLaneSkew m) 16 6 else t.wslip
    tx := if laneLoop s m = 3 then elasticOut t.skip f else t.tx
    skip := if laneLoop s m = 3 then 0 else t.skip }

/-- Lane registers that a frame received moves (R244, R251; 05_trunk_lanes.md R226, R227): HDR_OK, QUAL_RESTARTS, ARRIVAL. -/
def laneShow (m : Nat) (s : State) : State :=
  if m < 576 then
    let t := laneTrack s m
    let a := Reg.trkLaneStatus m
    putF (Reg.trkLaneSkew m) 0 10 (laneArrival t) (putB a 0 (decide (4 ≤ t.okRun)) (putF a 4 2 t.restarts s))
  else s

/-- Counters of a frame received (R261, R262; 05_trunk_lanes.md R244). -/
def laneCounts (m : Nat) (first : Bool) (x : LaneFound) (s : State) : State :=
  let s := if x.valid then s else bump (laneFrmA m) 16 16 1 s
  let s := if x.match_ ∨ first then s else bump (laneFrmA m) 0 16 1 s
  if m < 576 then bump (Reg.trkLaneSherr m) 0 32 x.errs s else s

/-- The frame timer of a group starts with the first frame of an aligned lane (R281), and with it CURRENT at A (R284). -/
def groupStart (m : Nat) (s : State) : State :=
  let n := m / 8
  let a := groupHead s n
  match (linkTrack s a).grp, (laneTrack s m).pend with
  | none, some h =>
    if n < 72 ∧ linkRun s n ∧ getB s (linkStA n) (16 + m % 8) ∧ h.valid then
      putF (Reg.trkGrpStatus a) 8 8 0 (putLink a { linkTrack s a with grp := some (h.since, h.cnt), released := none } s)
    else s
  | _, _ => s

/-- A trunk frame arrives on a lane: the command stands at the arrival of its block 1, with the data of the frame before (R218, R235, R244, R262, R267 to R270, R281, R291). -/
def laneFrame (m : Nat) (f : LaneFrame) (s : State) : State :=
  let n := m / 8
  let l := m % 8
  if linkPhase s n = 0 then s
  else
    let f := laneInput s m f
    let x := laneFind s m f
    let first := (laneTrack s m).pend.isNone
    let s := laneCounts m first x s
    let s := laneShow m (putLane m (laneTook s m f x) s)
    let t := laneTrack s m
    let b1 := x.b1.toNat
    let low := decide (l = lowestLane s n)
    let s := if low then rxHeader n x.valid x.b0.toNat b1 s else s
    let s := if x.valid ∧ 4 ≤ t.run then laneByte m t.byte s else s
    let s := if low ∧ x.valid ∧ linkRun s n then
        let k := if nfld b1 34 3 = 1 then (linkTrack s n).trainRun + 1 else 0
        if 4 ≤ k then ladderRestart n 0x60 s else putLink n { linkTrack s n with trainRun := k } s
      else s
    let s := if low ∧ x.valid ∧ ((trunkEntry? s n 0).map fun e => nbit e.w6 1).getD false then rxQl n (nfld b1 24 4) s else s
    let s := groupStart m s
    if linkRun s n ∧ n ≠ 72 then
      if l = 2 then putLink n { linkTrack s n with d2 := if x.valid then some t.byte else none } s
      else if l = 6 then mbxReceive n x.valid (nfld b1 40 8) s
      else s
    else s

/-! ## Claims and frames sent (R264 to R266; 15_the_pair.md R550 to R557) -/

/-- TIE (R551, R557). -/
def tieOf (s : State) : Nat :=
  if getB s Reg.pairCtrl 4 ∧ getB s Reg.pairStatus 1 then 15
  else
    let t := 1 + s.otp.serial % 14
    if s.pair.tieMoved then t % 14 + 1 else t

/-- ROLE_PRIO in the claim (R550, R595): forced to 0 in SERVICE. -/
def rolePrio (s : State) : Nat := if s.pair.prioZero ∨ modeNow s = 5 then 0 else max 1 (getF s Reg.pairCtrl 0 4)

/-- The claim (R550): the whole is 0 in Id 0 and in RESCUE. -/
def claimOf (s : State) : Nat :=
  if modeNow s = 0 ∨ modeNow s = 6 then 0 else rolePrio s * 4096 + healthOf s * 16 + tieOf s

/-- The claim sampled for the next frame of a trunk or of the mirror link (R265); 0 on the ladder (R266). -/
def claimSample (l : ClaimLink) (s : State) : State :=
  match l with
  | .trunk n => putLink n { linkTrack s n with claim := if linkRun s n then claimOf s else 0 } s
  | .mirror => putF Reg.pairClaim 0 16 (claimOf s) { s with pair := { s.pair with claim := claimOf s } }

/-- STATE of the header (R266): 0 IDLE, 1 TRAIN, 2 RUN. -/
def txState (s : State) (n : Nat) : Nat :=
  if linkPhase s n ≠ 7 ∧ modeNow s ≠ 6 then 1 else if modeNow s = 0 ∨ modeNow s = 6 then 0 else 2

/-- One mailbox byte leaves with a frame; a `TRK_MBX_SEND` completes with its END byte (16_command_packets.md R628). -/
def mbxTransmit (n : Nat) (s : State) : State :=
  let t := linkTrack s n
  match t.txq with
  | [] => s
  | _ :: rest =>
    let sends := t.sends.map fun x => (x.1, x.2 - 1)
    let sent0 := sends.filter fun x => decide (x.2 = 0)
    let s := mbxStatus n (putLink n { t with txq := rest, sends := sends.filter fun x => decide (x.2 ≠ 0) } s)
    sent0.foldl (fun s x => done x.1 s) s

/-- MSG of a lane (R216, R266, R267). -/
def txMsg (s : State) (n l : Nat) : Nat :=
  let cap := 0x10 + linkMaxStep s n
  if l % 2 = 1 then cap
  else if modeNow s = 6 then 0
  else if linkRun s n = false then getF s (linkMsgA n) 0 8
  else match l with
  | 2 => ((linkTrack s n).txq.head?.map Prod.fst).getD 0
  | 6 => ((linkTrack s n).txq.head?.map fun x => 1 + 2 * b2n x.2).getD 0
  | _ => getF s (linkStA n) 16 8

/-- The streams of a lane of a trunk, by index (R273). -/
def laneStreams (s : State) (n dir l : Nat) : List TrunkEntry :=
  let es := (trunkEntries s.plan.committed s.plan.cfg.mode).filter fun e =>
    decide (e.kind = 1) && decide (e.trunk = n) && decide (e.dir = dir) && decide (e.lane = l)
  (upto 0 16).filterMap fun k => es.find? fun e => decide (e.b2 = k)

/-- The port of a stream entry: in MIRROR the second rail's on its trunks (R279). -/
def streamPort (s : State) (n : Nat) (e : TrunkEntry) : Nat := if modeNow s = 2 ∧ 36 ≤ n then e.w4 + 576 else e.w4

/-- The trunk carries streams: RUN, and not below its required step (05_trunk_lanes.md R234). -/
def carries (s : State) (n : Nat) : Bool := linkRun s n && !getB s (linkStA n) 12

/-- The data of a lane's next frame (R258, R274, R275): zero in IDLE and TRAIN, otherwise the words that have left the output pipelines of its streams since the frame before. -/
def txData (s : State) (n l : Nat) (words : List (Nat × List (BitVec 40))) : List (BitVec 64) :=
  if txState s n ≠ 2 then idleData
  else
    let es := if carries s n then laneStreams s n 1 l else []
    carryData (es.map fun e => unitBits e.w6) (es.map fun e => ((words.find? fun w => decide (w.1 = streamPort s n e)).map Prod.snd).getD [])

/-- A lane's frame, as sent: header blocks, data blocks, scrambled (R255 to R263). -/
def laneSend (n hdr cnt : Nat) (words : List (Nat × List (BitVec 40))) (s : State) (l : Nat) : State :=
  let m := 8 * n + l
  let t := laneTrack s m
  if laneLoop s m = 3 ∨ (getB s (Reg.trkTxCtrl m) 0 ∧ getB s (Reg.trkLinkCtrl n) 6) then s
  else
    let data := txData s n l words
    let h := headBlocks cnt (nfld hdr 0 16) (nfld hdr 16 4) l (getF s (linkStA n) 4 2) (nfld hdr 22 3) (txMsg s n l) (t.txCrc.getD 0)
    let r := scrambleAll (t.scr.getD (Config.scramblerStart m)) (h.1 :: h.2 :: data)
    let sync := headSync :: headSync :: List.replicate 254 dataSync
    putLane m { t with scr := some r.2, txCrc := some (dcrc data), txPrev := t.tx.drop 2, tx := (sync.zip r.1).map fun x => Blk.mk x.1 x.2 } s

/-- A frame of an output trunk starts (R263 to R267), with the words that left its output pipelines during the frame before, at the instant of R264. -/
def frameSend (n : Nat) (words : List (Nat × List (BitVec 40))) (s : State) : State :=
  let step := getF s (linkStA n) 4 2
  if (linkPhase s n = 0 ∧ modeNow s ≠ 6) ∨ keepAlive s (23 * (n / 18) + 18) ∨ frameStarts step s.now = false then s
  else
    let t := linkTrack s n
    let st := txState s n
    let tie := ((trunkEntry? s n 1).map fun e => nbit e.w6 0).getD false
    let hdr := (if st = 2 then t.claim else 0) + getF s Reg.refStatus 8 4 * 65536 + st * 2 ^ 22 + b2n tie * 2 ^ 25
    let cnt := frameAt step s.now % 2 ^ 48
    let s := wr (Reg.trkTxHdr n) (BitVec.ofNat 32 hdr) s
    let s := (upto 0 8).foldl (laneSend n hdr cnt words) s
    let s := putLink n { t with sent := min 16 (t.sent + 1), txCnt := some cnt } s
    if linkRun s n then mbxTransmit n s else s

/-! ## Frames of the mirror link (15_the_pair.md R561, R562) -/

/-- PAIR_FLAGS that the unit sends (15_the_pair.md R562). -/
def pairFlags (s : State) : Nat :=
  b2n (decide (s.ref.sel = some 6)) + b2n (getB s Reg.pairStatus 1) * 2 + b2n (getB s Reg.pairStatus 0) * 4 + b2n (getB s Reg.pairStatus 8) * 8
    + modeNow s * 16 + b2n (getB s Reg.planState 15) * 128

/-- MSG of a mirror lane: in RUN PAIR_FLAGS, the heartbeat, the capability byte and RX_LANES (15_the_pair.md R562). -/
def mirrorMsg (s : State) (l : Nat) : Nat :=
  if linkRun s 72 = false then txMsg s 72 l
  else match l with
  | 0 => pairFlags s
  | 1 => epochNow s % 256
  | 2 => 0x13
  | _ => getF s (linkStA 72) 16 8

/-- A mirror lane's frame, as sent; its data blocks carry the messages, which have no published layout (log 214). -/
def mirrorLane (hdr cnt : Nat) (s : State) (l : Nat) : State :=
  let m := 576 + l
  let t := laneTrack s m
  let data := if linkRun s 72 then (upto 0 254).map fun i => Config.mirrorData s.free (256 * l + i) else idleData
  let h := headBlocks cnt (nfld hdr 0 16) (nfld hdr 16 4) l (getF s (linkStA 72) 4 2) (nfld hdr 22 3) (mirrorMsg s l) (t.txCrc.getD 0)
  let r := scrambleAll (t.scr.getD (Config.scramblerStart m)) (h.1 :: h.2 :: data)
  let sync := headSync :: headSync :: List.replicate 254 dataSync
  putLane m { t with scr := some r.2, txCrc := some (dcrc data), txPrev := t.tx.drop 2, tx := (sync.zip r.1).map fun x => Blk.mk x.1 x.2 } s

/-- A frame of the mirror link starts: the claim sampled for it and the output quality level in every header. -/
def mirrorSend (s : State) : State :=
  let step := getF s (linkStA 72) 4 2
  if linkPhase s 72 = 0 ∨ frameStarts step s.now = false then s
  else
    let st := if linkRun s 72 then 2 else 1
    let hdr := s.pair.claim + getF s Reg.refStatus 8 4 * 65536 + st * 2 ^ 22
    let cnt := frameAt step s.now % 2 ^ 48
    let s := (upto 0 4).foldl (mirrorLane hdr cnt) s
    useFree (putLink 72 { linkTrack s 72 with sent := min 16 ((linkTrack s 72).sent + 1), txCnt := some cnt } s)

/-! ## Protection groups (R280 to R286) -/

/-- Frame `k` of a lane, where it is present (R282). -/
def laneFrameOf (t : LaneTrack) (k : Nat) : Option RxFrame := t.frames.find? fun f => decide (f.hdr.cnt = k % 2 ^ 48)

/-- A member's lane frame is good (R283), with the units of the lane's streams; `up` says that the lane is aligned. -/
def laneGood (up : Bool) (units : List (List Nat)) (f : RxFrame) : Bool :=
  up && f.hdr.valid && f.next && decide (f.hdr.state = 2) && decide (f.hdr.claim ≠ 0) && f.hdr.clean && f.clean && f.dcrc
    && decide (dataAt f.data 250 = unitMap units) && countsOk units f.data

/-- The choice of R284: with the two claims (none for a header not valid), the goodness of both frames and the current member (true for B), the member taken, if one is, and whether it is the preferred one. -/
def groupTake (ca cb : Option Nat) (goodA goodB cur : Bool) : Option Bool × Bool :=
  let a : Int := match ca with | some c => c | none => -1
  let b : Int := match cb with | some c => c | none => -1
  let pref := if a > b then false else if b > a then true else cur
  let good := fun (x : Bool) => if x then goodB else goodA
  if good pref then (some pref, true) else if good (!pref) then (some (!pref), false) else (none, false)

/-- A group record, at most one per epoch and kind (R286): kind 0 CURRENT, 1 LATE_SEEN, 2 MISMATCH_SEEN. -/
def groupEvent (n kind b : Nat) (s : State) : State :=
  let t := linkTrack s n
  let e := (t.grpEpochs ++ [0, 0, 0]).take 3
  if (nth? e kind).getD 0 = epochNow s + 1 then s
  else raiseFlag (Src.link n) noInst (Reg.trkGrpStatus n) b (putLink n { t with grpEpochs := setNth (epochNow s + 1) e kind } s)

/-- MAP_ERR and COUNT_ERR of a member's frame that is present with a valid header in RUN (R283). -/
def laneMapCount (m : Nat) (units : List (List Nat)) (f : Option RxFrame) (s : State) : State :=
  match f with
  | none => s
  | some f =>
    if f.hdr.valid ∧ f.hdr.state = 2 ∧ f.dcrc then
      let s := if dataAt f.data 250 = unitMap units then s else bump (Reg.trkLaneMaperr m) 0 16 1 s
      if countsOk units f.data then s else bump (Reg.trkLaneMaperr m) 16 16 1 s
    else s

/-- A member that lacks its frame sets LATE_SEEN (R282). -/
def laneLate (a p : Nat) (f : Option RxFrame) (s : State) : State :=
  if f.isSome then s else groupEvent a 1 24 (putB (Reg.trkGrpStatus p) 24 true s)

/-- The range of a stream's receive buffer (R276): the words since its first frame lie within 256 of what its rate gives by the end of frame `k`. -/
def bufferKeeps (step rows : Nat) (frac : Bool) (b : StreamBuf) (k : Nat) : Bool :=
  let den := rateDenom step * 1000 * rows * 1001
  let want := ((k + 1 - b.start) * frameNum * if frac then 1000 else 1001)
  decide ((b.cnt * den - want).natAbs ≤ 256 * den)

/-- Words that a stream's rate gives for frame `k`, counted from its first frame. -/
def bufferShare (step rows : Nat) (frac : Bool) (b : StreamBuf) (k : Nat) : Nat :=
  let at_ := fun (j : Nat) => j * frameNum * (if frac then 1000 else 1001) / (rateDenom step * 1000 * rows * 1001)
  at_ (k + 1 - b.start) - at_ (k - b.start)

/-- The words of a stream leave its receive buffer (R276, R284): those of the frame taken, or none, marked invalid. -/
def streamRelease (step k : Nat) (words : Option (List (BitVec 40))) (s : State) (e : Nat × PortFmt) : State :=
  let rows := fmtRows e.2
  let frac := fmtFractional e.2
  let b := match tabFind e.1 s.trk.streams with
    | some b => if k < b.start then { b with start := k, cnt := 0 } else b
    | none => { start := k, cnt := 0, words := [], valid := false, bad := false }
  let b := { b with cnt := b.cnt + (words.elim (bufferShare step rows frac b k) List.length : Nat), words := words.getD [], valid := words.isSome }
  let b := { b with bad := b.bad || !bufferKeeps step rows frac b k }
  { s with trk := { s.trk with streams := tabPut e.1 b s.trk.streams } }

/-- The streams of a lane released with a frame, or with none. -/
def laneRelease (n l step k : Nat) (f : Option RxFrame) (s : State) : State :=
  let es := laneStreams s n 0 l
  let units := es.map fun e => unitBits e.w6
  ((upto 0 es.length).zip es).foldl (fun s x =>
    match inCfg? s (streamPort s n x.2) with
    | some c => streamRelease step k (f.map fun f => streamWords f.data units x.1) s (streamPort s n x.2, c.fmt)
    | none => s) s

/-- One lane of a group at the release of frame `k` (R282 to R286): member A is `n`; member B, where there is one, is `p`. -/
def groupLane (n : Nat) (p : Option Nat) (step k : Nat) (s : State) (l : Nat) : State :=
  let a := Reg.trkGrpStatus n
  let units := (laneStreams s n 0 l).map fun e => unitBits e.w6
  let fa := laneFrameOf (laneTrack s (8 * n + l)) k
  let up := fun (x : Nat) => carries s x && getB s (linkStA x) (16 + l)
  let good := fun (x : Nat) (f : Option RxFrame) => f.elim false (laneGood (up x) units)
  let claim := fun (f : Option RxFrame) => f.bind fun f => if f.hdr.valid then some f.hdr.claim else none
  match p with
  | none => laneRelease n l step k (if good n fa then fa else none) (laneMapCount (8 * n + l) units fa s)
  | some p =>
    let fb := laneFrameOf (laneTrack s (8 * p + l)) k
    let cur := getB s a (8 + l)
    let r := groupTake (claim fa) (claim fb) (good n fa) (good p fb) cur
    let s := laneMapCount (8 * p + l) units fb (laneMapCount (8 * n + l) units fa s)
    let s := laneLate n p fb (laneLate n n fa s)
    let s := if good n fa ∧ good p fb ∧ fa.map (fun f => f.data.drop 250) ≠ fb.map (fun f => f.data.drop 250) then groupEvent n 2 25 (putB a 25 true s) else s
    match r.1 with
    | none => laneRelease n l step k none (bump (Reg.trkGrpCnt n) 16 16 1 s)
    | some who =>
      let s := if r.2 then s else bump (Reg.trkGrpCnt n) 0 16 1 s
      let s := if who = cur then s else groupEvent n 0 (8 + l) (putB a (8 + l) who s)
      laneRelease n l step k (if who then fb else fa) s

/-- Skew between two members in whole frames (R294), from the headers last received on their lowest aligned lanes. -/
def groupSkew (s : State) (n p step : Nat) : Nat :=
  let pos := fun (x : Nat) => (laneTrack s (8 * x + lowestLane s x)).pend.map fun h => ((h.since * rateDenom step : Nat) : Int) - (h.cnt * frameNum : Nat)
  match pos n, pos p with
  | some x, some y => min 15 ((x - y).natAbs / frameNum)
  | _, _ => 0

/-- The frame whose release time has come (R281): by the group frame timer, block 0 of the next frame, SKEW_ALLOW frames and four blocks later. -/
def groupDue (step skewAllow now : Nat) (g : Nat × Nat) : Option Nat :=
  let late := skewAllow * frameNum + 4 * blockNum
  let x := (now - g.1) * rateDenom step
  if x < late + frameNum then none else some ((g.2 + (x - late) / frameNum - 1) % 2 ^ 48)

/-- The release of a frame (R281 to R286), given at member A of a group, or at an ungrouped trunk; each frame once. -/
def groupRelease (n : Nat) (s : State) : State :=
  let a := Reg.trkGrpStatus n
  let t := linkTrack s n
  let step := getF s (linkStA n) 6 2
  if groupHead s n ≠ n then s
  else match t.grp.bind (groupDue step (getF s a 16 4) s.mono) with
    | none => s
    | some k =>
      if t.released = some k then s
      else
        let p := if getB s a 5 then some (n / 18 * 18 + getF s a 0 5) else none
        let s := putLink n { t with released := some k } s
        let s := p.elim s fun p => putF a 20 4 (groupSkew s n p step) s
        (upto 0 8).foldl (groupLane n p step k) s

/-! ## Commands -/

/-- CLAIM_SAMPLE (R265). -/
def execClaimSample (dt : Nat) (link : ClaimLink) (s : State) : Host.Outcome State Fault Refusal :=
  .next (only (match link with | .trunk n => decide (n < 72) | .mirror => true) (claimSample link) (tick dt s))

/-- TRUNK_FRAME_START (R264); trunk 72 stands for the mirror link (15_the_pair.md R561). -/
def execTrunkFrameStart (dt trunk : Nat) (words : List (Nat × List (BitVec 40))) (s : State) : Host.Outcome State Fault Refusal := .next (only (decide (trunk < 73)) (fun s => if trunk = 72 then mirrorSend s else frameSend trunk words s) (tick dt s))

/-- GROUP_FRAME_RELEASE (R284). -/
def execGroupFrameRelease (dt trunk : Nat) (s : State) : Host.Outcome State Fault Refusal :=
  .next (only (decide (trunk < 72)) (fun s => groupRelease trunk s) (tick dt s))

end Sys2Proof.Machine
end

