-- ==== Sys2Proof/Machine/Rings.lean ====
section
/-! DEFINITION. The rings in host memory: replies written into their ring, the host's transmit frames, and its receive buffers (16_command_packets.md R599 to R611, R625 to R627). -/

namespace Sys2Proof.Machine

/-- The index after `i` in a ring of `n` entries. -/
def ringNext (n i : Nat) : Nat := (i + 1) % n

/-! ## Replies (R608, R611, R612, R624) -/

/-- The level source "reply ring not empty" (R612). -/
def replyLevel (s : State) : State :=
  setLevel Src.replyRing Reg.cmdStatus (decide (getF s Reg.replyTail 0 12 ≠ getF s Reg.replyHead 0 12)) s

/-- The reply ring takes entries: it is enabled, the link is up, and the host has written `REPLY_HEAD` since link-up. -/
def replyOpen (s : State) : Bool := getB s Reg.cmdCtrl 0 && s.pins.pcieUp && s.cmd.headFresh

/-- The reply ring has a free entry: one entry stays free, so that a full ring is not taken for an empty one. -/
def replyRoom (s : State) : Bool :=
  decide (ringNext (ringSize s 4) (getF s Reg.replyTail 0 12) ≠ getF s Reg.replyHead 0 12 % ringSize s 4)

/-- The oldest waiting completion written into the reply ring (R608, R611). -/
def replyWriteOne (s : State) : State :=
  match s.cmd.waiting with
  | [] => s
  | r :: rest =>
    if replyOpen s && replyRoom s then
      let i := getF s Reg.replyTail 0 12
      let j := ringNext (ringSize s 4) i
      let s := { s with cmd := { s.cmd with
        waiting := rest
        ring := tabPut i (r, phaseOf s.cmd.replyPass) s.cmd.ring
        replyPass := if j = 0 then s.cmd.replyPass + 1 else s.cmd.replyPass } }
      let s := putF Reg.replyTail 0 12 j s
      replyLevel (if s.cmd.waiting.length < 8192 then putB Reg.cmdStatus 2 false s else s)
    else s

/-- Waiting completions written while entries are free; `k` bounds their number. -/
def replyWriteUpTo : Nat → State → State
  | 0, s => s
  | k + 1, s => replyWriteUpTo k (replyWriteOne s)

/-- Every waiting completion for which an entry is free is written. -/
def replyFlush (s : State) : State := replyWriteUpTo s.cmd.waiting.length s

/-! ## Host frames (R625 to R627) -/

/-- Entries at the front whose STATUS has been written leave the transmit ring. -/
def htxDrop : List (Nat × Bool) → List (Nat × Bool)
  | [] => []
  | (i, d) :: r => if d then htxDrop r else (i, d) :: r

/-- STATUS of a host transmit frame (R625): 0 sent, 1 discarded under R314, 2 discarded under R311; `HTX_HEAD` advances past the entries at the front that have theirs (R626). -/
def htxDone (e : Option Nat) (st : Nat) (s : State) : State :=
  match e with
  | none => s
  | some i =>
    let l := s.cmd.htx.map fun x => if x.1 = i then (i, true) else x
    let head := getF s Reg.htxHead 0 12
    let l' := htxDrop l
    let s := { s with cmd := { s.cmd with htx := l', htxStatus := tabPut i st s.cmd.htxStatus } }
    putF Reg.htxHead 0 12 ((head + (l.length - l'.length)) % ringSize s 8) s

def ethTrack (s : State) (g : Nat) : EthTrack := tabGet ethTrack0 g s.eth.ch

def putEth (g : Nat) (t : EthTrack) (s : State) : State := { s with eth := { s.eth with ch := tabSet ethTrack0 g t s.eth.ch } }

/-- A frame of a host queue that waits for a buffer of the host. -/
def hostBound (e : EthFrame × Nat × Option (Option Nat)) : Bool := decide (e.2.1 ≠ 16)

/-- One frame of channel `g`'s host queue written into the next posted buffer (R627), when HRX is enabled and a buffer is posted. -/
def hrxOne (g : Nat) (s : State) : State :=
  let i := getF s Reg.hrxHead 0 12
  let n := ringSize s 12
  if getB s Reg.cmdCtrl 1 && s.pins.pcieUp && decide (i ≠ getF s Reg.hrxTail 0 12 % n) then
    match (ethTrack s g).hostq.find? hostBound with
    | none => s
    | some (f, cls, ts) =>
      let t := ethTrack s g
      let e : HrxEntry :=
        { channel := g, phase := phaseOf s.cmd.hrxPass, tsValid := (match ts with | some (some _) => true | _ => false),
          tsLate := (match ts with | some none => true | _ => false), len := f.len - 4, cls := cls,
          stamp := (match ts with | some (some x) => x | _ => 0) }
      let j := ringNext n i
      let s := putEth g { t with hostq := t.hostq.erase (f, cls, ts) } s
      let s := { s with cmd := { s.cmd with
        hrx := tabPut i e s.cmd.hrx
        hrxPass := if j = 0 then s.cmd.hrxPass + 1 else s.cmd.hrxPass } }
      putF Reg.hrxHead 0 12 j s
    else s

/-- Up to `k` frames of channel `g` written into posted buffers. -/
def hrxFill (g : Nat) : Nat → State → State
  | 0, s => s
  | k + 1, s => hrxFill g k (hrxOne g s)

/-- The list with its first `k` elements moved to its end. -/
def rotate {α : Type} (k : Nat) (l : List α) : List α := l.drop (k % max 1 l.length) ++ l.take (k % max 1 l.length)

/-- Waiting frames of every channel written into posted buffers. The manual gives no order among channels: the first is an open value (log 3). -/
def hrxFillAll (s : State) : State :=
  let gs := rotate (freeValue s) (tabKeys s.eth.ch)
  gs.foldl (fun s g => hrxFill g (ethTrack s g).hostq.length s) (useFree s)

end Sys2Proof.Machine
end

