-- ==== Sys2Proof/Machine/Flows.lean ====
section
/-! DEFINITION. Media flows (08_media_flows.md): the flow address table, packets received and merged, and the legs a unit of a pair sends. -/

namespace Sys2Proof.Machine

/-! ## The table (R326 to R330) -/

/-- Global Ethernet channel of a leg (R327, 16_command_packets.md R625). -/
def legChannel (l : FlowLeg) : Nat := nfld l.channel 0 4 * 4 + nfld l.channel 4 2

/-- The committed mode runs global channel `g` (R300, R301). -/
def channelRun (s : State) (g : Nat) : Bool :=
  getB s (Reg.ethPortStatus (g / 4)) 2 && (decide (g % 4 = 0) || getB s (Reg.ethPortStatus (g / 4)) 0)

/-- Format of the port that a flow is bound to: of an input for a receive flow, of an output for a send flow. -/
def flowFmt (s : State) (f : Nat) (e : FlowEntry) : Option PortFmt :=
  if e.port = 0xFFFF then none
  else if flowReceives f then (inCfg? s e.port).map InCfg.fmt else (outCfg? s e.port).map OutCfg.fmt

/-- Ticks of one unit of DLY (R340, R345): a frame of the bound port's format, or 1 ms. -/
def flowUnit (s : State) (f : Nat) (e : FlowEntry) : Nat :=
  match flowFmt s f e with
  | some x => fmtFrameTicks x
  | none => tickMs

/-- The first frame or packet-time boundary of flow `f` at or after time `t` (R330). -/
def flowBoundary (s : State) (f : Nat) (e : FlowEntry) (t : Nat) : Nat :=
  if e.essence = 2 ∨ e.essence = 3 then
    let p := max 1 (e.ptime * tickUs)
    ceilDiv t p * p
  else match flowFmt s f e with
    | some x => let r := (max 1 x.rateNum, max 1 x.rateDen); rateStart r (rateFirst r t)
    | none => t

/-! ## Sending in a pair (R351 to R353; 15_the_pair.md R558, R581) -/

/-- The unit sends no media packets: role priority 0 (R352), own MEDIA_HOLD (15_the_pair.md R581), or standby in join steps 4 to 6 (R558). -/
def mediaSilent (s : State) : Bool :=
  decide (rolePrio s = 0) || getB s Reg.pairStatus 8 || (decide (4 ≤ joinStep s) && !paired s && !getB s Reg.pairStatus 1)

/-- The partner sends its own colour: paired, heartbeat present, claim with a role priority, and no MEDIA_HOLD (R352, R581). -/
def partnerSends (s : State) : Bool :=
  paired s && getB s Reg.pairStatus 4 && decide (getF s Reg.pairClaim 28 4 ≠ 0) && !getB s Reg.pairStatus 9

/-- Whether the unit is to send a colour (false red, true blue): slot 0 sends red, slot 1 blue, and either both while the partner does not send. -/
def colourWanted (s : State) (blue : Bool) : Bool := !mediaSilent s && (!partnerSends s || blue == s.pins.pairSel)

/-- RED_TX or BLUE_TX of a send flow set for an enabled leg. -/
def setTx (f : Nat) (e : FlowEntry) (blue on : Bool) (s : State) : State :=
  putB (Reg.flowStatus f) (if blue then 13 else 12) (on && (if blue then flowBlueEn e else flowRedEn e)) s

/-- A wanted colour starts without an agreed frame: the other unit's colour, and any colour of a unit with no partner present (R352, R353). -/
def colourStarts (s : State) (blue : Bool) : Bool :=
  colourWanted s blue && (!(paired s && getB s Reg.pairStatus 4) || blue != s.pins.pairSel)

/-- A condition of R352 has changed and the flow is at its boundary: a colour starts; one stops at once only where the unit is to be silent, and otherwise under R353. -/
def colourChange (f : Nat) (s : State) : State :=
  match flowEntry? s f with
  | none => s
  | some e =>
    if flowReceives f then s
    else [false, true].foldl (fun s b =>
      if colourStarts s b then setTx f e b true s else if mediaSilent s then setTx f e b false s else s) s

/-- The agreed frame has started and the flow is at its boundary (R353): the unit sends what it is to send. -/
def colourHandback (f : Nat) (s : State) : State :=
  match flowEntry? s f, s.pair.colourAt with
  | some e, some fr =>
    if flowReceives f ∨ s.now < frameStart s fr then s
    else [false, true].foldl (fun s b => setTx f e b (colourWanted s b) s) s
  | _, _ => s

/-! ## Receiving (R338 to R350) -/

/-- A frame matches a leg on channel `g` (R338). -/
def legMatches (g : Nat) (fr : EthFrame) (l : FlowLeg) : Bool :=
  decide (legChannel l = g) && decide (l.dstIp = fr.dstIp) && decide (l.dstPort = fr.udpPort)
    && (decide (l.srcIp = 0) || decide (l.srcIp = fr.srcIp))
    && (if nbit l.vlan 12 then decide (fr.vlanTags = 1) && decide (nfld l.vlan 0 12 = nfld fr.vlan 0 12) else decide (fr.vlanTags = 0))

/-- The receive flow and leg (true blue) that a frame on channel `g` matches. -/
def flowMatch (s : State) (g : Nat) (fr : EthFrame) : Option (Nat × Bool) :=
  (upto 2304 (s.plan.tables.flows.length - 2304)).findSome? fun f =>
    match flowEntry? s f with
    | none => none
    | some e =>
      if flowRedEn e && legMatches g fr e.red then some (f, false)
      else if flowBlueEn e && legMatches g fr e.blue then some (f, true)
      else none

/-- A copy recorded on its leg, at the first arrival only. -/
def posCopy (blue : Bool) (now : Nat) (p : FlowPos) : FlowPos :=
  if blue then { p with blue := some (p.blue.getD now) } else { p with red := some (p.red.getD now) }

/-- A copy that is the first of its position (R347): it goes into the de-jitter buffer, or its samples wait for their time; the frame of a FREE flow is whole with its last packet (R344), and that of ESSENCE 5 gives the first sequence number of the next (R339). -/
def flowStore (f : Nat) (e : FlowEntry) (frame : Nat) (r : RtpPkt) (s : State) : State :=
  let x := flowFmt s f e
  let t := flowTrack s f
  let first := match r.body, x with
    | .whole fc _, some _ => if r.marker then some ((fc + 1) % 256, (r.seq + 1) % 65536) else t.first
    | _, _ => t.first
  let s := putFlow f { t with held := t.held ++ rtpHeld x t.first frame s.now r, first := first,
                              whole := if flowFree f e && r.marker then some frame else t.whole } s
  match r.body with
  | .audio ss => audArrive e (if flowFree f e then s.now / (tickSec / planeRate s) + 1 else frame) ss s
  | _ => s

/-- A media packet at receive flow `f` on a leg (R338, R341, R344, R347). -/
def flowPacket (f : Nat) (blue : Bool) (r : RtpPkt) (s : State) : State :=
  match flowEntry? s f with
  | none => s
  | some e =>
    let t := flowTrack s f
    let a := Reg.flowStatus f
    if r.pt ≠ e.pt ∨ (e.ssrc ≠ 0 ∧ r.ssrc ≠ e.ssrc) then bump (Reg.flowReject f) 0 16 1 s
    else if bodyOk (planeRate s) (flowFmt s f e) e r.body = false then bump (Reg.flowReject f) 16 16 1 s
    else
      let free := flowFree f e
      let due : Nat × Int := if free then (r.timestamp, s.now) else rtpDue (planeRate s) (flowFmt s f e) e t.first r s.now
      let pos := rtpPos r
      if free = false ∧ due.2 < (s.now : Int) then
        let t := if blue then { t with blueLate := true } else { t with redLate := true }
        putB a 16 true (count (Reg.flowLate f) (putFlow f t s))
      else if free = false ∧ (s.now : Int) < due.2 - (((e.dly + 1) * flowUnit s f e : Nat) : Int) then
        let t := if blue then { t with blueOther := true } else { t with redOther := true }
        count (Reg.flowEarly f) (putFlow f t s)
      else if t.got.any fun p => decide (p.pos = pos) then
        let got := t.got.map fun p => if p.pos = pos then posCopy blue s.now p else p
        bump64 (Reg.flowStatLo f 2) 1 (putFlow f { t with got := got } s)
      else
        let p := posCopy blue s.now { pos := pos, frame := due.1, deadline := due.2, red := none, blue := none }
        bump64 (Reg.flowStatLo f (if blue then 1 else 0)) 1 (flowStore f e due.1 r (putFlow f { t with got := t.got ++ [p] } s))

/-- Positions from one to another, around their space. -/
def posAfter (e : FlowEntry) (a b : Nat) : Nat := (b + posSpace e - a) % posSpace e

/-- The positions that deadlines have passed up to the present (R350): how far the copies received in time reach beyond the last position counted, and how many of those in between they are. -/
def flowGap (e : FlowEntry) (t : FlowTrack) (now : Nat) : Option Nat × Nat :=
  let due := (t.got.filter fun p => decide (p.deadline ≤ (now : Int))).map FlowPos.pos
  match due with
  | [] => (t.counted, 0)
  | p :: _ =>
    let last := t.counted.getD ((p + posSpace e - 1) % posSpace e)
    let ahead := (due.map (posAfter e last)).filter fun d => decide (0 < d) && decide (d < posSpace e / 2)
    let far := ahead.foldl max 0
    (some ((last + far) % posSpace e), far - (distinct ahead).length)

/-- The deadline of packets passes (R343, R350): positions that neither leg has supplied, in the gaps between those received in time, are lost. -/
def flowDeadline (f : Nat) (s : State) : State :=
  match flowEntry? s f with
  | none => s
  | some e =>
    if flowReceives f = false ∨ flowFree f e then s
    else
      let t := flowTrack s f
      let g := flowGap e t s.now
      let s := putFlow f { t with counted := g.1 } s
      if g.2 = 0 then s else putB (Reg.flowStatus f) 15 true (bump (Reg.flowLost f) 0 32 g.2 s)

/-- State of a leg at the deadline of a frame's last packet (R348): 0 OFF, 1 SILENT, 2 ACTIVE, 3 LATE. -/
def legState (enabled seen late : Bool) : Nat := if enabled then (if late then 3 else if seen then 2 else 1) else 0

/-- Least slack in µs of a leg's copies, cut to 16 bits; 0 where none arrived. -/
def leastSlack (l : List (Int × Option Nat)) : Nat :=
  let xs := l.filterMap fun p => p.2.map fun (a : Nat) => ((p.1 - (a : Int)) / (tickUs : Int)).toNat
  match xs with
  | [] => 0
  | x :: r => min 0xFFFF (r.foldl min x)

/-- The de-jitter buffer still needs what it holds of a frame (R342): from the frame presented now on; of a FREE flow, from the last whole one on. -/
def flowNeeds (s : State) (f : Nat) (e : FlowEntry) (frame : Nat) : Bool :=
  if flowFree f e then (flowTrack s f).whole.elim true fun w => decide ((frame + 2 ^ 32 - w) % 2 ^ 32 < 2 ^ 31)
  else (flowFmt s f e).elim true fun x => decide (fmtFrameNear x s.now ≤ frame + e.dly + 1)

/-- A frame of a receive flow is evaluated (R348, R349). -/
def flowEval (f : Nat) (s : State) : State :=
  match flowEntry? s f with
  | none => s
  | some e =>
    if flowReceives f = false then s
    else
      let t := flowTrack s f
      let a := Reg.flowStatus f
      let before := rd s a
      let due := t.got.filter fun p => decide (p.deadline ≤ (s.now : Int))
      let redOn := flowRedEn e && channelRun s (legChannel e.red)
      let blueOn := flowBlueEn e && channelRun s (legChannel e.blue)
      let red := legState redOn ((due.any fun p => p.red.isSome) || t.redOther) t.redLate
      let blue := legState blueOn ((due.any fun p => p.blue.isSome) || t.blueOther) t.blueLate
      let s := putF (Reg.flowSlack f) 16 16 (leastSlack (due.map fun p => (p.deadline, p.blue)))
        (putF (Reg.flowSlack f) 0 16 (leastSlack (due.map fun p => (p.deadline, p.red))) s)
      let s := putF a 10 2 blue (putF a 8 2 red s)
      let changed := decide (rd s a ≠ before) && decide (t.legEpoch ≠ epochNow s + 1)
      let needs := flowNeeds s f e
      let s := putFlow f { t with
        got := t.got.filter fun p => decide ((s.now : Int) < p.deadline)
        held := t.held.filter fun h => needs h.frame
        redLate := false
        blueLate := false
        redOther := false
        blueOther := false
        legEpoch := if changed then epochNow s + 1 else t.legEpoch } s
      let s := if changed then raiseState (Src.flow f) f a before s else s
      let both := due.filterMap fun p => match p.red, p.blue with
        | some r, some b => some ((b : Int) - (r : Int))
        | _, _ => none
      if both.isEmpty ∨ flowFree f e then s
      else
        let mean := (both.foldl (· + ·) 0).tdiv ((both.length * tickUs : Nat) : Int)
        let s := wr (Reg.flowDiff f) (BitVec.ofInt 32 mean) s
        if e.maxDiff * 1000 < mean.natAbs then flagEvent (Src.flow f) f a 14 s else s

/-! ## Set-up at a change-over, and patches -/

/-- `FLOW_STATUS[f]` and the legs from the table in force (R361): a used send leg is scheduled, and sent as the pair has it. -/
def setupFlow (f : Nat) (s : State) : State :=
  let a := Reg.flowStatus f
  match flowEntry? s f with
  | none => putFlow f flowTrack0 (putF a 0 14 0 s)
  | some e =>
    let s := putF a 0 6 (1 + b2n (flowReceives f) * 2 + e.essence * 4 + b2n (flowFree f e) * 32) s
    if flowReceives f then putF a 12 2 0 (if flowRedEn e then s else putF a 8 2 0 s)
    else
      let s := putF a 10 2 (if flowBlueEn e then 2 else 0) (putF a 8 2 (if flowRedEn e then 2 else 0) s)
      setTx f e true (colourWanted s true) (setTx f e false (colourWanted s false) s)

/-- A patched entry of flow `f` at the start of its house frame (R330). -/
def flowPatched (f : Nat) (old : FlowEntry) (s : State) : State :=
  let t := flowBoundary s f old s.now
  let s := if s.now < t then putFlow f { flowTrack s f with prev := some (old, t) } s else s
  match nth? s.plan.tables.flows f with
  | none => s
  | some e =>
    if flowReceives f then s
    else
      let s := putF (Reg.flowStatus f) 10 2 (if flowBlueEn e then 2 else 0) (putF (Reg.flowStatus f) 8 2 (if flowRedEn e then 2 else 0) s)
      setTx f e true (colourWanted s true) (setTx f e false (colourWanted s false) s)

/-! ## Commands' effects (R360) -/

def flowOk (s : State) (f : Nat) : Bool := decide (f ≤ 4607) && (flowEntry? s f).isSome

def fxFlowQuery (c : Cmd) (first cnt : Nat) (s : State) : State :=
  let fs := upto first cnt
  if fs.all (flowOk s) then
    complete c St.ok 0 ((fs.map fun f => [(2, f), (4, (rd s (Reg.flowStatus f)).toNat), (4, (rd s (Reg.flowDiff f)).toNat),
      (4, (rd s (Reg.flowSlack f)).toNat), (2, 0)]).flatten) s
  else refuse c St.flowRange s

/-- The nine counters of a flow, in register order, `FLOW_REJECT` as two. -/
def flowCounters (s : State) (f : Nat) : List Nat :=
  [get64 s (Reg.flowStatLo f 0), get64 s (Reg.flowStatLo f 1), get64 s (Reg.flowStatLo f 2), (rd s (Reg.flowLate f)).toNat,
   (rd s (Reg.flowLost f)).toNat, (rd s (Reg.flowEarly f)).toNat, getF s (Reg.flowReject f) 0 16, getF s (Reg.flowReject f) 16 16,
   (rd s (Reg.flowTxHeld f)).toNat]

def flowClear (f : Nat) (s : State) : State :=
  let s := put64 (Reg.flowStatLo f 0) 0 (put64 (Reg.flowStatLo f 1) 0 (put64 (Reg.flowStatLo f 2) 0 s))
  [Reg.flowLate f, Reg.flowLost f, Reg.flowEarly f, Reg.flowReject f, Reg.flowTxHeld f].foldl (fun s a => wr a 0 s) s

def fxFlowStats (c : Cmd) (f clear : Nat) (s : State) : State :=
  if flowOk s f then
    let r := (flowCounters s f).map fun v => (8, v)
    complete c St.ok 0 r (if nbit clear 0 then flowClear f s else s)
  else refuse c St.flowRange s

/-- `FLOW_SUMMARY` (R360): receive flows with an enabled leg that is not ACTIVE, and send legs that this unit sends. -/
def flowSummary (s : State) : Nat :=
  let fs := (upto 0 s.plan.tables.flows.length).filter fun f => (flowEntry? s f).isSome
  let bad := fs.filter fun f => flowReceives f && (match flowEntry? s f with
    | some e => (flowRedEn e && decide (getF s (Reg.flowStatus f) 8 2 ≠ 2)) || (flowBlueEn e && decide (getF s (Reg.flowStatus f) 10 2 ≠ 2))
    | none => false)
  let legs := sumL ((fs.filter fun f => !flowReceives f).map fun f =>
    b2n (getB s (Reg.flowStatus f) 12) + b2n (getB s (Reg.flowStatus f) 13))
  bad.length + legs * 65536

/-! ## Commands -/

/-- FLOW_LINE_DEADLINE (R343). -/
def execFlowLineDeadline (dt flow : Nat) (s : State) : Host.Outcome State Fault Refusal :=
  .next (only (decide (flow < 4608)) (fun s => flowDeadline flow s) (tick dt s))

/-- FLOW_LEG_STATE_EVAL (R348). -/
def execFlowLegStateEval (dt flow : Nat) (s : State) : Host.Outcome State Fault Refusal := .next (only (decide (flow < 4608)) (fun s => flowEval flow s) (tick dt s))

/-- COLOUR_SEND_CHANGE (R352). -/
def execColourSendChange (dt flow : Nat) (s : State) : Host.Outcome State Fault Refusal := .next (only (decide (flow < 4608)) (fun s => colourChange flow s) (tick dt s))

/-- COLOUR_HANDBACK (R353). -/
def execColourHandback (dt flow : Nat) (s : State) : Host.Outcome State Fault Refusal := .next (only (decide (flow < 4608)) (fun s => colourHandback flow s) (tick dt s))

end Sys2Proof.Machine
end

