-- ==== Sys2Proof/Machine/Ibex.lean ====
section
/-! DEFINITION. The ibex engines, their tasks and probes (09_ibex_engines.md), their commands and their faults. -/

namespace Sys2Proof.Machine

/-! ## Tasks (R365, R367, R379) -/

def taskCfg? (s : State) (n : Nat) : Option TaskCfg := s.plan.cfg.tasks.find? fun t => decide (t.task = n)

/-- Tasks that engine `e` runs: in MIRROR the engines of Q2 and Q3 run those of their twins (R379). -/
def tasksOf (s : State) (e : Nat) : List TaskCfg :=
  let h := if modeNow s = 2 ∧ 64 ≤ e then e - 64 else e
  engineTasks s.plan.cfg.tasks h

/-- A task serves a port marked on air (R383, R388): an output it packetises or marks with timecode, an input it depacketises, or an output on whose route its process return lies. -/
def taskAir (s : State) (t : TaskCfg) : Bool :=
  (decide (t.port < 1152) && (if taskReceives t then airIn s t.port else airOut s t.port))
    || (decide (t.ret ≠ 0xFFFF) && decide (t.ret ∈ airRoute s))

/-- AIR of `IBX_STATUS[e]` (R388). -/
def engineAir (s : State) (e : Nat) : Bool := (tasksOf s e).any (taskAir s)

/-! ## Engines (R380 to R386) -/

def engTrack (s : State) (e : Nat) : EngTrack := tabGet engTrack0 e s.ibx.eng

def putEng (e : Nat) (t : EngTrack) (s : State) : State := { s with ibx := { s.ibx with eng := tabSet engTrack0 e t s.ibx.eng } }

/-- Engine `e` is powered and clocked: not in RESCUE, its quadrant awake (R379), and its island on its own clock (13_plls_and_clock_islands.md R517). -/
def engPowered (s : State) (e : Nat) : Bool := decide (modeNow s ≠ 6) && awake s (e / 32) && !keepAlive s (23 * (e / 32) + 22)

/-- An engine fault (R380, R381, R383, R385): the third within one hour is FAILED. The firmware, while it serves, starts the reload (R384, R386). -/
def engFault (e : Nat) (s : State) : State :=
  let a := Reg.ibxStatus e
  if 2 ≤ engState s e then putEng e { engTrack s e with passes := 0 } s
  else
    let fs := s.mono :: (engTrack s e).faults.filter fun t => decide (s.mono < t + 3600 * tickSec)
    let s := putEng e { engTrack s e with passes := 0, reloaded := false, faults := fs, back := none } s
    let air := engineAir s e
    let s := putF a 8 4 (min 15 fs.length) (putB a 7 air (putB a 4 true s))
    let s := putB (Reg.ibxSummary (e / 32)) (e % 32) true s
    let failed := decide (3 ≤ fs.length)
    let s := putB a 3 (!failed && decide (server s = 1)) s
    let s := stateEvent (Src.ibx e) noInst a 0 2 (if failed then 3 else 2) s
    if air then penaltyAt (e / 32) 0 [.engine e] s else s

/-- The end of an engine's self-test window (R380, R384): a signature other than that of the task library is counted and is a fault; a pass counts towards its return. -/
def engSelfTest (e signature : Nat) (s : State) : State :=
  if engPowered s e = false then s
  else
    let t := engTrack s e
    let ok := decide (signature = Config.engineSignature) && !t.inject
    let s := putB (Reg.ibxStatus e) 2 ok (putEng e { t with inject := false, passes := if ok then t.passes + 1 else 0 } s)
    if ok then s else engFault e (count (Reg.ibxStFails (e / 32)) s)

/-- What a word of an engine memory read with these changed bits is taken for (R363): one is corrected, two are an uncorrectable error, and of more the manual says nothing (log 184). -/
def engCorrects (flips : BitVec 72) : Bool :=
  let k := sumL ((upto 0 72).map fun i => b2n (nbit flips.toNat i))
  if k = 1 then true else if k = 2 then false else Config.engineEcc flips

/-- A word of an engine's memories read with changed bits (R381). -/
def engEcc (e : Nat) (flips : BitVec 72) (s : State) : State :=
  if flips = 0 then s
  else if engCorrects flips then putB (Reg.ibxStatus e) 5 true (bump (Reg.ibxEcc e) 0 16 1 s)
  else engFault e (bump (Reg.ibxEcc e) 16 16 1 s)

/-- The firmware has reset and reloaded an engine (R384). -/
def engReloaded (e : Nat) (s : State) : State :=
  if getB s (Reg.ibxStatus e) 3 then putB (Reg.ibxStatus e) 3 false (putEng e { engTrack s e with passes := 0, reloaded := true } s) else s

def probeTrack (s : State) (p : Nat) : ProbeTrack := tabGet probeTrack0 p s.ibx.probes

def putProbe (p : Nat) (t : ProbeTrack) (s : State) : State := { s with ibx := { s.ibx with probes := tabSet probeTrack0 p t s.ibx.probes } }

/-- A probe restarts (R384): counts and loudness integration from zero. -/
def probeRestart (p : Nat) (s : State) : State :=
  let a := Reg.prbStatus p
  let s := putProbe p { probeTrack s p with black := 0, frozen := 0, last := [] } s
  let s := putF a 8 12 0 (putB a 6 true (putF a 2 2 0 s))
  if getF s a 0 2 = 2 then wr (Reg.prbInteg p) (BitVec.ofNat 32 (twos 16 (-7000) * 65537)) s else s

/-- An engine returns to service after four consecutive passes since its reload (R384), while the firmware serves (R386): its tasks restart. -/
def engReturn (e : Nat) (s : State) : State :=
  let t := engTrack s e
  if engState s e = 2 ∧ t.reloaded ∧ 4 ≤ t.passes ∧ server s = 1 then
    let s := putEng e { t with reloaded := false, back := some s.now } s
    let s := putB (Reg.ibxSummary (e / 32)) (e % 32) false s
    let s := putF (Reg.ibxStatus e) 0 2 (if (tasksOf s e).isEmpty then 0 else 1) s
    ((tasksOf s e).filter fun t => decide (t.probe < 512)).foldl (fun s t => probeRestart t.probe s) s
  else s

/-- Reloads that waited for the firmware start (R386). -/
def enginesResume (s : State) : State :=
  (tabKeys s.ibx.eng).foldl (fun s e =>
    if engState s e = 2 ∧ (engTrack s e).reloaded = false then putB (Reg.ibxStatus e) 3 true s else s) s

/-- Registers of an engine from the configuration in force (R388, R389); an engine that is FAULT or FAILED stays so. -/
def setupEngine (e : Nat) (s : State) : State :=
  let ts := tasksOf s e
  let a := Reg.ibxStatus e
  let s := wr (Reg.ibxLoad e) (BitVec.ofNat 32
    (engineCost s.plan.cfg s.plan.tables.flows ts % 2048 + engineDmem s.plan.cfg ts % 512 * 4096 + ucodeOf ts % 128 * 2 ^ 24)) s
  let s := putB a 7 (engineAir s e) (putF a 16 8 (min 255 ts.length) s)
  if 2 ≤ engState s e then s else putF a 0 2 (if ts.isEmpty then 0 else 1) s

/-! ## Probes (R374 to R378) -/

/-- The task of a probe in the mode. -/
def probeTask? (s : State) (p : Nat) : Option TaskCfg := s.plan.cfg.tasks.find? fun t => decide (t.probe = p)

/-- A probe runs: its task is scheduled, its engine is not faulted (R383), and the shed list does not stop it (21_supplies_and_thermal.md R745). -/
def probeRuns (s : State) (p : Nat) : Bool :=
  match probeTask? s p with
  | some t => !taskDown s t && !isShed s 2 p
  | none => false

/-- KIND of `PRB_STATUS[p]` from the configuration in force (R391). -/
def setupProbe (p : Nat) (s : State) : State :=
  putF (Reg.prbStatus p) 0 2 (match probeTask? s p with | some t => (if t.kind = 9 then 1 else if t.kind = 10 then 2 else 0) | none => 0) s

/-- A flag of `PRB_STATUS[p]` takes a value; a change raises a record (R376). -/
def probeFlag (p b : Nat) (v : Bool) (s : State) : State := stateEvent (Src.probe p) p (Reg.prbStatus p) b 1 (b2n v) s

/-- Every fourth element of a list, from the first. -/
def fourths {α : Type} : List α → List α
  | a :: _ :: _ :: _ :: r => a :: fourths r
  | a :: _ => [a]
  | [] => []

/-- The samples of a frame that the frozen test takes: every fourth of every fourth active line (R375). -/
def frozenSamples (luma : List (List Nat)) : List Nat := (fourths luma).flatMap fourths

/-- A frame is black (R374): at most 1/1,024 of its active luma samples exceed the level. -/
def frameBlack (level : Nat) (luma : List (List Nat)) : Bool :=
  decide (sumL (luma.map fun l => (l.filter fun y => decide (level < y)).length) * 1024 ≤ sumL (luma.map List.length))

/-- A frame is frozen against the frame before (R375): the mean absolute difference is at most `mad` sixteenths of a code. With no frame before it, it is not (log 203). -/
def frameFrozen (mad : Nat) (last now : List Nat) : Bool :=
  decide (last.length = now.length) && !now.isEmpty
    && decide (16 * sumL ((last.zip now).map fun x => (max x.1 x.2) - (min x.1 x.2)) ≤ mad * now.length)

/-- A frame at a black and freeze probe, by the luma samples of its active lines (R374, R375). -/
def probeFrame (p : Nat) (luma : List (List Nat)) (s : State) : State :=
  if getF s (Reg.prbStatus p) 0 2 ≠ 1 ∨ probeRuns s p = false then s
  else
    let t := probeTrack s p
    let b := if frameBlack t.conf.blackLevel luma then t.black + 1 else 0
    let f := if frameFrozen t.conf.freezeMad t.last (frozenSamples luma) then t.frozen + 1 else 0
    let s := putProbe p { t with black := b, frozen := f, last := frozenSamples luma } s
    let s := putF (Reg.prbStatus p) 8 12 (min 4095 (max b f)) s
    let s := probeFlag p 2 (decide (t.conf.blackFrames ≤ b)) s
    probeFlag p 3 (decide (t.conf.freezeFrames ≤ f)) s

/-- A take on a probe's process send restarts its counts (R376). -/
def probesOnSend (d : Nat) (s : State) : State :=
  ((s.plan.cfg.tasks.filter fun t => decide (t.probe < 512) && decide (t.send = d)).map TaskCfg.probe).foldl (fun s p =>
    putF (Reg.prbStatus p) 8 12 0 (putProbe p { probeTrack s p with black := 0, frozen := 0 } s)) s

/-- An alarm of a loudness probe (R378): set while its limit is exceeded, with at most one record per second. -/
def probeAlarm (p b : Nat) (on : Bool) (s : State) : State :=
  let t := probeTrack s p
  let last := if b = 4 then t.stAt else t.tpAt
  let was := getB s (Reg.prbStatus p) b
  let s := putB (Reg.prbStatus p) b on s
  let quiet := match last with | some x => decide (x + tickSec ≤ s.mono) | none => true
  if on && !was && quiet then
    raiseFlag (Src.probe p) p (Reg.prbStatus p) b (putProbe p (if b = 4 then { t with stAt := some s.mono } else { t with tpAt := some s.mono }) s)
  else s

/-- A loudness value in its register form: hundredths, not below −7000 (R377). -/
def loudVal (v : Int) : Nat := satTwos 16 (max (-7000) v)

/-- A 100 ms block of a loudness probe (R377, R378). -/
def probeLoud (p : Nat) (i : LoudInfo) (s : State) : State :=
  if getF s (Reg.prbStatus p) 0 2 ≠ 2 ∨ probeRuns s p = false then s
  else
    let t := probeTrack s p
    let s := wr (Reg.prbLoud p) (BitVec.ofNat 32 (loudVal i.momentary + loudVal i.shortTerm * 65536)) s
    let s := wr (Reg.prbInteg p) (BitVec.ofNat 32 (loudVal i.integrated + loudVal i.truePeak * 65536)) s
    let s := probeAlarm p 4 (decide (t.conf.stLimit < i.shortTerm)) s
    probeAlarm p 5 (decide (t.conf.tpLimit < i.truePeak)) s

/-! ## Commands' effects (R387) -/

/-- The task exists in the mode and has the kind; otherwise the status. -/
def taskStatus (s : State) (n kind : Nat) : Nat :=
  match taskCfg? s n with
  | none => St.ibxRange
  | some t => if t.kind = kind then St.ok else St.ibxKind

def fxIbxTaskQuery (c : Cmd) (n cnt : Nat) (s : State) : State :=
  let ts := (upto n cnt).map fun k => (k, taskCfg? s k)
  if ts.any fun x => x.2.isNone then refuse c St.ibxRange s
  else complete c St.ok 0 (ts.flatMap fun x => match x.2 with
    | none => []
    | some t => [(2, x.1), (1, t.kind), (1, t.engine), (2, taskCost s.plan.cfg s.plan.tables.flows t), (2, t.send), (2, t.ret), (1, ((taskEngines t).map (engState s)).foldl max 0), (5, 0)]) s

def putColour (n : Nat) (t : ColourTask) (s : State) : State := { s with ibx := { s.ibx with colour := tabSet colourTask0 n t s.ibx.colour } }

/-- What of a colour task is in force at the present (R370). -/
def colourLive (s : State) (n : Nat) : ColourSet := colourAt s n s.now

/-- Tables laid over tables. -/
def overTables (under top : Tab (List Nat)) : Tab (List Nat) := top.foldl (fun t x => tabPut x.1 x.2 t) under

/-- `IBX_TABLE_SET` (R370): the table stands in the shadow. -/
def fxIbxTableSet (c : Cmd) (n table : Nat) (es : List Nat) (s : State) : State :=
  if taskStatus s n 5 ≠ St.ok then refuse c (taskStatus s n 5) s
  else
    let t := colourTask s n
    let s := putColour n { t with shadow := { t.shadow with tables := tabPut table es t.shadow.tables } } s
    forward (.command c.pkt.body (houseFrame s)) (done c s)

/-- The first frame boundary of a task's format at or after time `x` (R370). -/
def taskBoundary (s : State) (n x : Nat) : Nat := (taskCfg? s n).elim x fun t => taskNext s t x

/-- The shadow of a colour task with its new matrix, and with COMMIT the set that takes effect at a boundary (R370). -/
def colourCommit (n : Nat) (e : ColourEntry) (commit : Bool) (boundary : Nat) (s : State) : State :=
  let t := colourTask s n
  let sh := { t.shadow with matrix := some e }
  let base := t.armed.foldl (fun _ x => x.1) t.live
  let next : ColourSet := { tables := overTables base.tables sh.tables, matrix := some e }
  putColour n (if commit then { t with shadow := colourSet0, armed := t.armed ++ [(next, boundary)] } else { t with shadow := sh }) s

/-- A command put on the schedule for apply frame `f`, to take effect at time `t` of it or later. -/
def scheduleAt (c : Cmd) (f t : Nat) (result : List (Nat × Nat)) (s : State) : State :=
  { s with sched := s.sched ++ [{ cmd := c, frame := f, start := t, result := result }] }

/-- `IBX_COLOUR_SET` accepted for apply frame `f`. -/
def colourAccept (c : Cmd) (n flags : Nat) (e : ColourEntry) (f : Nat) (s : State) : State :=
  let t := taskBoundary s n (frameStart s f)
  scheduleAt c f t [(8, f)] (colourCommit n e (nbit flags 0) t s)

def fxIbxColourSet (c : Cmd) (n flags : Nat) (e : ColourEntry) (s : State) : State :=
  if taskStatus s n 5 ≠ St.ok then refuse c (taskStatus s n 5) s
  else match applyFrame s tickMs c.pkt.hdr.applyAt with
    | none => refuse c St.planLate s
    | some f => forward (.command c.pkt.body f) (colourAccept c n flags e f s)

/-- A colour task's sets whose boundary has come are in force (R370). A task whose engine is down takes them when it restarts (R387). -/
def applyColourSet (n : Nat) (s : State) : State :=
  let t := colourTask s n
  putColour n { t with live := colourLive s n, armed := t.armed.filter fun x => decide (s.now < x.2) } s

def fxIbxPatternSet (c : Cmd) (n : Nat) (s : State) : State :=
  if taskStatus s n 6 ≠ St.ok then refuse c (taskStatus s n 6) s else scheduleCmd c (fun f => [(8, f)]) s

/-- `IBX_PATTERN_SET` at its apply frame (R371). -/
def applyPattern (n pattern slate : Nat) (s : State) : State := { s with ibx := { s.ibx with gen := tabPut n (pattern, slate) s.ibx.gen } }

/-- `IBX_PROBE_SET`: settings of a probe that the mode has. -/
def fxIbxProbeSet (c : Cmd) (p : Nat) (k : ProbeConf) (s : State) : State :=
  if (probeTask? s p).isNone then refuse c St.ibxKind s
  else forward (.command c.pkt.body (houseFrame s)) (done c (putProbe p { probeTrack s p with conf := k } s))

def fxIbxProbeRead (c : Cmd) (p : Nat) (s : State) : State :=
  complete c St.ok 0 ([Reg.prbStatus p, Reg.prbLoud p, Reg.prbInteg p].map fun a => (4, (rd s a).toNat)) s

def fxIbxLoudReset (c : Cmd) (p : Nat) (s : State) : State :=
  if getF s (Reg.prbStatus p) 0 2 = 2 then scheduleCmd c (fun f => [(8, f)]) s else refuse c St.ibxKind s

/-- `IBX_LOUD_RESET` at its apply frame (R377): nothing integrated and no peak held reads as −70.00 or below. -/
def applyLoudReset (p : Nat) (s : State) : State :=
  putB (Reg.prbStatus p) 5 false (wr (Reg.prbInteg p) (BitVec.ofNat 32 (twos 16 (-7000) * 65537)) s)

/-- What a base-plan commit discards (01_compiled_plan.md R45; R387): shadows, and what commands have set. -/
def ibxDiscard (s : State) : State :=
  { s with ibx := { s.ibx with colour := [], gen := [], probes := tabMap (fun _ t => { t with conf := probeConf0 }) s.ibx.probes } }

/-- RESET of `IBX_CTRL` (R390): accepted only in SERVICE. -/
def engReset (e : Nat) (s : State) : State :=
  if modeNow s = 5 then putB (Reg.ibxStatus e) 3 true (putEng e { engTrack s e with passes := 0, reloaded := false } s)
  else putB (Reg.ibxStatus e) 6 true s

/-- INJECT of `IBX_CTRL` (R390): accepted only in SERVICE. -/
def engInject (e : Nat) (s : State) : State :=
  if modeNow s = 5 then putEng e { engTrack s e with inject := true } s else putB (Reg.ibxStatus e) 6 true s

/-! ## Commands -/

/-- ENGINE_SELF_TEST (R380). -/
def execEngineSelfTest (dt engine signature : Nat) (s : State) : Host.Outcome State Fault Refusal :=
  .next (only (decide (engine < 128)) (engSelfTest engine signature) (tick dt s))

/-- ENGINE_RELOAD_DONE (R384). -/
def execEngineReloadDone (dt engine : Nat) (s : State) : Host.Outcome State Fault Refusal :=
  .next (only (decide (engine < 128)) (engReloaded engine) (tick dt s))

/-- ENGINE_RETURN (R384). -/
def execEngineReturn (dt engine : Nat) (s : State) : Host.Outcome State Fault Refusal :=
  .next (only (decide (engine < 128)) (engReturn engine) (tick dt s))

/-- ENGINE_MEMORY_ECC_ERROR (R381). -/
def execEngineMemoryEccError (dt engine : Nat) (flips : BitVec 72) (s : State) : Host.Outcome State Fault Refusal :=
  .next (only (decide (engine < 128)) (engEcc engine flips) (tick dt s))

/-- PROBE_FRAME_EVAL (R374, R375). -/
def execProbeFrameEval (dt probe : Nat) (luma : List (List Nat)) (s : State) : Host.Outcome State Fault Refusal :=
  .next (only (decide (probe < 512)) (probeFrame probe luma) (tick dt s))

/-- LOUDNESS_BLOCK (R377). -/
def execLoudnessBlock (dt probe : Nat) (info : LoudInfo) (s : State) : Host.Outcome State Fault Refusal :=
  .next (only (decide (probe < 512)) (probeLoud probe info) (tick dt s))

end Sys2Proof.Machine
end

