-- ==== Sys2Proof/Machine/Takes.lean ====
section
/-! DEFINITION. The take engine: takes, salvos, their commits, and their agreement with the partner (02_word_fabric_and_takes.md). -/

namespace Sys2Proof.Machine

/-! ## The pending table (R103) -/

/-- 150 µs (R94, R95, R107, R111), and 20 µs (R115). -/
abbrev takeLead : Nat := 150 * tickUs
abbrev standbyLead : Nat := 20 * tickUs

/-- Entries in use: one for each pending destination of each take or salvo. -/
def pendCount (l : List TakePend) : Nat :=
  ((l.map fun p => (p.job, p.dest)).foldl (fun acc x => if x ∈ acc then acc else x :: acc) []).length

def takePending (s : State) : Nat := pendCount s.take.pend

/-- `TAKE_STATUS` as it stands now (R119); a unit accepts takes in modes 1 to 4 while it is not standby (R102). -/
def takeStatusNow (s : State) : Word :=
  let w := setFld (rd s Reg.takeStatus) 0 14 (takePending s)
  let w := setBit w 16 (!isStandby s && inMode s)
  let w := setBit w 17 (forwards s)
  setBit (setBit w 18 (decide (8192 ≤ takePending s))) 19 (!s.take.salvos.isEmpty)

/-- Destinations of a list of targets, without repeats. -/
def distinctDests (l : List (Nat × Nat)) : List Nat := (l.map Prod.fst).foldl (fun acc x => setIns x acc) []

/-! ## Commit at a switch point (R97 to R99, R104) -/

/-- Level `l` of destination `d` has source `src` from now on; in MIRROR the other rail's has the twin (R81). -/
def setRoute (d l src : Nat) (s : State) : State :=
  let s := putF (Reg.takeRoute d l) 0 11 src s
  if modeNow s = 2 then putF (Reg.takeRoute (twinOf d) l) 0 11 (if src = noSource then noSource else twinOf src) s else s

/-- One level of a winning entry changes (R88): the new state, and whether the level is applied. -/
def applyLevel (d src sp order l : Nat) (s : State) : State × Bool :=
  if 1 ≤ l ∧ l ≤ 8 then
    let r := audLevel d l src sp order s
    if r.2 then (setRoute d l src r.1, true) else (r.1, false)
  else (setRoute d l src s, true)

/-- The levels of a mask change together at switch point `sp` (R97); the answer names those that took effect. -/
def applyLevels (d src sp order mask : Nat) (s : State) : State × Nat :=
  (upto 0 10).foldl (fun (r : State × Nat) l =>
    if nbit mask l then
      let x := applyLevel d src sp order l r.1
      (x.1, r.2 + b2n x.2 * 2 ^ l)
    else r) (s, 0)

/-- The levels of entry `p` that no later entry of the list names (R98). -/
def wonLevels (p : TakePend) (later : List TakePend) : Nat :=
  later.foldl (fun m q => m - (m &&& q.levels)) p.levels

/-- The configuration under which a switch point is judged (01_compiled_plan.md R51): the new one from the start of its apply frame. -/
def cfgAt (s : State) (d sp : Nat) : ModeCfg :=
  match s.plan.pending with
  | some p => if p.applied ∧ d ∈ p.remaining ∧ sp < p.start then s.plan.oldCfg else s.plan.cfg
  | none => s.plan.cfg

/-- Destination, source and levels of an entry exist at its switch point (01_compiled_plan.md R51; 24_service_mode.md R802). -/
def entryLives (s : State) (p : TakePend) : Bool :=
  let c := cfgAt s p.dest p.sp
  inMode s && destUsed c (modeNow s) p.dest && (decide (p.source = noSource) || srcUsed c (modeNow s) p.source)
    && decide (p.levels &&& (0x3FF ^^^ levelsOf p.dest) = 0)

/-- The frame number of the destination's format at a switch point. -/
def formatFrame (s : State) (d sp : Nat) : Nat := (firstSpIn (cfgAt s d sp) d sp).1

/-- A job's result for one entry. -/
def jobResult (j : Nat) (r : TakeRes) (s : State) : State :=
  { s with take := { s.take with jobs := s.take.jobs.map fun x => if x.id = j then { x with results := x.results ++ [r] } else x } }

/-- The entries of one destination at one switch point, in order of acceptance: each takes the levels that no later one names, and its result is noted. The answer also says whether any level took effect. -/
def commitEntries (d sp prior : Nat) : List TakePend → State → State × Bool
  | [], s => (s, false)
  | p :: r, s =>
    let res := fun (applied code : Nat) (s : State) =>
      jobResult p.job { entry := p.entry, dest := d, frame := rateFrame (houseRate s) sp, fmtFrame := formatFrame s d sp, sp := sp,
                        applied := applied, prior := prior, code := code } s
    if entryLives s p then
      let x := applyLevels d p.source sp p.job (wonLevels p (r.filter (entryLives s))) s
      let y := commitEntries d sp prior r (res x.2 (if x.2 = 0 then 1 else 0) x.1)
      (y.1, y.2 || decide (x.2 ≠ 0))
    else commitEntries d sp prior r (res 0 2 s)

/-- The reply body of a take (R104). -/
def takeBody (j : TakeJob) (r : TakeRes) : List (Nat × Nat) :=
  [(8, r.frame), (8, r.fmtFrame), (4, r.sp / tickSec % 2 ^ 32), (4, r.sp % tickSec / tickNs), (2, r.applied), (2, r.prior),
   (2, b2n (j.forwarded && j.acked) + b2n (j.forwarded && j.acked && j.latePartner) * 2), (2, 0)]

/-- The reply body of a salvo (R109). -/
def salvoBody (j : TakeJob) (id frame : Nat) : List (Nat × Nat) :=
  let dests := (distinctDests (j.results.map fun r => (r.dest, 0))).length
  [(4, id), (2, dests), (2, 0)] ++ (upto 0 j.entries.length).flatMap fun i =>
    match j.results.find? fun r => decide (r.entry = i) with
    | some r => [(1, r.frame - frame), (1, r.code)]
    | none => [(1, 0), (1, 2)]

/-- Status of a take (R98): PLAN_CHANGED before TAKE_SUPERSEDED before TAKE_SLIPPED. -/
def takeStatusOf (slipped : Bool) (r : TakeRes) : Nat :=
  if r.code = 2 then St.planChanged else if r.code = 1 then St.takeSuperseded else if slipped then St.takeSlipped else St.ok

/-- A job whose entries have all met their switch points completes (R104, R109). -/
def jobDone (id : Nat) (s : State) : State :=
  match s.take.jobs.find? fun j => decide (j.id = id) with
  | none => s
  | some j =>
    if j.results.length < j.expanded then s
    else
      let s := { s with take := { s.take with jobs := s.take.jobs.filter fun x => decide (x.id ≠ id) } }
      match j.salvo, j.results with
      | some (sid, f), _ =>
        let s := if j.slipped then count Reg.takeSlipped s else s
        completeAt j.cmd (if j.slipped then St.takeSlipped else St.ok) 0 f (salvoBody j sid f) s
      | none, r :: _ =>
        let st := takeStatusOf j.slipped r
        let s := if st = St.takeSuperseded then count Reg.takeSuperseded s else if st = St.takeSlipped then count Reg.takeSlipped s else s
        completeAt j.cmd st 0 r.frame (takeBody j r) s
      | none, [] => s

/-- A forwarded job whose acknowledgement is not in by its switch point (R114): counted once, and PARTNER bit 0 stays clear. -/
def fwdLate (s : State) (id : Nat) : State :=
  match s.take.jobs.find? fun j => decide (j.id = id) with
  | none => s
  | some j =>
    if j.forwarded ∧ j.acked = false then
      putB Reg.takeStatus 20 true (count Reg.takeFwdLate
        { s with take := { s.take with jobs := s.take.jobs.map fun x => if x.id = id then { x with forwarded := false } else x } })
    else s

/-- Destination `d` at switch point `sp`: every entry that waits for it commits (R97). -/
def commitDest (d sp : Nat) (s : State) : State :=
  let es := s.take.pend.filter fun p => decide (p.dest = d) && decide (p.sp = sp)
  if es.isEmpty then s
  else
    let s := { s with take := { s.take with pend := s.take.pend.filter fun p => !(decide (p.dest = d) && decide (p.sp = sp)) } }
    let s := (es.map TakePend.job).foldl fwdLate s
    let x := commitEntries d sp (routeOf s d 0) es s
    let s := x.1
    let frame := rateFrame (houseRate s) sp
    let s := if x.2 then
        let s := put64 Reg.takeLastFrameLo frame (putF Reg.takeLastDest 0 11 d (count Reg.takeCommitted s))
        { s with take := { s.take with lastFrame := tabPut d frame s.take.lastFrame } }
      else s
    (es.map TakePend.job).foldl (fun s j => jobDone j s) s

/-- The earliest switch point that is due at destination `d`. -/
def dueSp (s : State) (d : Nat) : Option Nat :=
  let l := (s.take.pend.filter fun p => decide (p.dest = d) && decide (p.sp ≤ s.now)).map TakePend.sp
  match l with
  | [] => none
  | x :: r => some (r.foldl min x)

/-- Destination `d`'s switch point (R97): its group's members change in the same row (R99). -/
def takeCommit (d : Nat) (s : State) : State :=
  match dueSp s d with
  | none => s
  | some sp => (membersOf (cfgAt s d sp) d).foldl (fun s m => commitDest m sp s) s

/-! ## Takes accepted (R94 to R96, R102) -/

/-- A take's switch point (R94, R95): apply-at 0, met, or slipped; none where NO_SLIP refuses it. -/
def takeSp (s : State) (d applyAt : Nat) (noSlip : Bool) : Option (Nat × Bool) :=
  let lead := s.now + takeLead
  if applyAt = 0 then some (firstSp s d lead, false)
  else
    let sp := firstSp s d (frameStart s applyAt)
    if lead ≤ sp then some (sp, false) else if noSlip then none else some (firstSp s d lead, true)

/-- APPLY_AT lies more than 65,535 house frames ahead (R96). -/
def applyFar (s : State) (applyAt : Nat) : Bool := decide (houseFrame s + 65535 < applyAt)

/-- Status of an entry under R102, orders 3 to 7, in the configuration its destination runs, with the formats in force at its first switch point at or after `t` (10_composition.md R402). -/
def entryCheck (s : State) (t e : Nat) : Nat :=
  entryStatus (cfgSendsAt s (cfgOf s (entDest e)) (firstSp s (entDest e) t)) (modeNow s) (entDest e) (entSrc e) (entLevels e)

/-- The time from which a take looks for its switch point. -/
def takeFrom (s : State) (applyAt : Nat) : Nat := max (s.now + takeLead) (if applyAt = 0 then 0 else frameStart s applyAt)

/-- Refusal by the take engine, counted (R102). -/
def takeRefuse (c : Cmd) (st : Nat) (s : State) : State := refuse c st (count Reg.takeRefused s)

/-- Entries of a job put into the pending table: each with its entry index, destination, source and levels. -/
def enqueue (id : Nat) (sps : Nat → Nat) (ts : List (Nat × Nat × Nat × Nat)) (s : State) : State :=
  { s with take := { s.take with pend := s.take.pend ++ ts.map fun x =>
    { job := id, entry := x.1, dest := x.2.1, source := x.2.2.1, levels := x.2.2.2, sp := sps x.2.1 } } }

/-- The targets of a list of entries, with the index of each entry (R99). -/
def targetsOf (s : State) (es : List Nat) : List (Nat × Nat × Nat × Nat) :=
  ((upto 0 es.length).zip es).flatMap fun x =>
    (expandEntry (cfgOf s (entDest x.2)) (entDest x.2) (entSrc x.2)).map fun t => (x.1, t.1, t.2, entLevels x.2)

/-- A job accepted. -/
def newJob (j : TakeJob) (s : State) : State := { s with take := { s.take with jobs := s.take.jobs ++ [j], nextJob := j.id + 1 } }

/-- `TAKE` (R95, R102). -/
def fxTake (c : Cmd) (e flags : Nat) (s : State) : State :=
  let d := entDest e
  let noSlip := nbit flags 0
  if inMode s = false then takeRefuse c St.planNone s
  else if entryCheck s (takeFrom s c.pkt.hdr.applyAt) e ≠ St.ok then takeRefuse c (entryCheck s (takeFrom s c.pkt.hdr.applyAt) e) s
  else if applyFar s c.pkt.hdr.applyAt then takeRefuse c St.takeRange s
  else match takeSp s d c.pkt.hdr.applyAt noSlip with
    | none => takeRefuse c St.takeLate s
    | some (sp, slipped) =>
      let ts := targetsOf s [e]
      if 8192 < takePending s + ts.length then takeRefuse c St.takeFull s
      else
        let frame := rateFrame (houseRate s) sp
        let id := s.take.nextJob
        let s := count Reg.takeAccepted s
        let s := enqueue id (fun _ => sp) ts (newJob
          { id := id, cmd := c, salvo := none, entries := [e], expanded := ts.length, noSlip := noSlip, slipped := slipped,
            forwarded := forwards s, acked := false, latePartner := false, frame := frame, firstSp := sp, results := [] } s)
        forward (.take e flags frame c.pkt.hdr.tag) s

/-! ## Salvos (R105 to R109) -/

/-- The open salvo of an ID. -/
def openSalvo (s : State) (id : Nat) : Option OpenSalvo := s.take.salvos.find? fun o => decide (o.id = id)

/-- An open salvo is discarded: its part's tag receives a second completion (R106). -/
def salvoDiscard (id : Nat) (s : State) : State :=
  match openSalvo s id with
  | none => s
  | some o => refuse o.cmd St.takeAborted { s with take := { s.take with salvos := s.take.salvos.filter fun x => decide (x.id ≠ id) } }

/-- A part refused (R106, R109): the index of the first failing entry stands in DETAIL and in the body, 0 where the part fails as a whole (log 173); a refused PART 1 discards the open part 0. -/
def salvoRefuse (c : Cmd) (id part st entry : Nat) (s : State) : State :=
  let s := complete c st entry [(2, entry)] (count Reg.takeRefused s)
  if part = 1 then salvoDiscard id s else s

/-- The index of the first entry that has a destination for which `p` holds, and 0 where none has. -/
def entryOf (ts : List (Nat × Nat × Nat × Nat)) (p : Nat → Bool) : Nat := ((ts.find? fun x => p x.2.1).map fun x => x.1).getD 0

/-- The entry that brings more destinations than the pending table has room for (R103). -/
def overfull (ts : List (Nat × Nat × Nat × Nat)) (room : Nat) : Nat :=
  ((ts.find? fun x => decide (room < (distinctDests ((ts.filter fun y => decide (y.1 ≤ x.1)).map fun y => (y.2.1, 0))).length)).map fun x => x.1).getD 0

/-- Index of the first entry that fails R102, orders 3 to 7, and its status; a destination past the 1,152nd fails with TAKE_RANGE (R105; log 26). -/
def salvoBad (s : State) (t : Nat) (es : List Nat) : Option (Nat × Nat) :=
  match findIdx? (fun e => decide (entryCheck s t e ≠ St.ok)) es with
  | some i => some (i, entryCheck s t ((nth? es i).getD 0))
  | none =>
    let ts := targetsOf s es
    match ts.find? fun x => decide (1152 < (distinctDests ((ts.filter fun y => decide (y.1 ≤ x.1)).map fun y => (y.2.1, 0))).length) with
    | some x => some (x.1, St.takeRange)
    | none => none

/-- The four kinds of part that are refused with CMD_RANGE (R106). -/
def salvoPartBad (s : State) (id part : Nat) (final : Bool) : Bool :=
  decide (1 < part) || (decide (part = 1) && (!final || (openSalvo s id).isNone)) || (decide (part = 0) && (openSalvo s id).isSome)

/-- Frame `f` meets the lead of R107 for every destination. -/
def salvoFits (s : State) (dests : List Nat) (f : Nat) : Bool :=
  dests.all fun d => decide (s.now + takeLead ≤ firstSp s d (frameStart s f))

/-- The salvo frame F (R107): the first that fits, from apply-at, or from the arrival frame for apply-at 0. A frame that starts 150 µs ahead always fits; frames more than 8 before the arrival frame never do, since a format frame spans fewer. -/
def salvoFrame (s : State) (dests : List Nat) (applyAt : Nat) : Nat :=
  let start := if applyAt = 0 then houseFrame s else max applyAt (houseFrame s - 8)
  let top := max start (earliestFrame s takeLead)
  ((upto start (top - start + 1)).find? (salvoFits s dests)).getD top

/-- The final part of a salvo (R107, R108). -/
def salvoFinal (c : Cmd) (id part : Nat) (noSlip : Bool) (es : List Nat) (s : State) : State :=
  let applyAt := c.pkt.hdr.applyAt
  let named := distinctDests ((targetsOf s (es.filter fun e => destUsed (cfgOf s (entDest e)) (modeNow s) (entDest e))).map fun x => (x.2.1, 0))
  match salvoBad s (frameStart s (salvoFrame s named applyAt)) es with
  | some (i, st) => salvoRefuse c id part st i s
  | none =>
    if applyFar s applyAt then salvoRefuse c id part St.takeRange 0 s
    else
      let ts := targetsOf s es
      let dests := distinctDests (ts.map fun x => (x.2.1, 0))
      let f := salvoFrame s dests applyAt
      let slipped := decide (applyAt ≠ 0) && decide (applyAt < f)
      if slipped && noSlip then salvoRefuse c id part St.takeLate (entryOf ts fun d => decide (firstSp s d (frameStart s applyAt) < s.now + takeLead)) s
      else if 8192 < takePending s + dests.length then salvoRefuse c id part St.takeFull (overfull ts (8192 - takePending s)) s
      else
        let t := frameStart s f
        let sps := fun d => firstSp s d t
        let first := (dests.map sps).foldl min (sps (dests.headD 0))
        let jid := s.take.nextJob
        let s := { s with take := { s.take with salvos := s.take.salvos.filter fun x => decide (x.id ≠ id) } }
        let s := bump Reg.takeAccepted 0 32 es.length s
        let s := enqueue jid sps ts (newJob
          { id := jid, cmd := c, salvo := some (id, f), entries := es, expanded := ts.length, noSlip := noSlip, slipped := slipped,
            forwarded := forwards s, acked := false, latePartner := false, frame := f, firstSp := first, results := [] } s)
        forward (.salvo es (b2n noSlip) f c.pkt.hdr.tag) s

/-- `SALVO` (R105 to R108). A part is judged in the order PLAN_NONE, CMD_RANGE, TAKE_FULL for a fifth open salvo, entries (log 171). -/
def fxSalvo (c : Cmd) (id part flags : Nat) (es : List Nat) (s : State) : State :=
  let final := nbit flags 0
  if inMode s = false then salvoRefuse c id part St.planNone 0 s
  else if salvoPartBad s id part final then salvoRefuse c id part St.cmdRange 0 s
  else if final then salvoFinal c id part (nbit flags 1) (((openSalvo s id).map OpenSalvo.entries).getD [] ++ es) s
  else if 4 ≤ s.take.salvos.length then salvoRefuse c id part St.takeFull 0 s
  else match salvoBad s (s.now + takeLead) es with
    | some (i, st) => salvoRefuse c id part st i s
    | none => completeAt c St.ok 0 0 []
        { s with take := { s.take with salvos := s.take.salvos ++ [{ id := id, cmd := c, entries := es, opened := s.mono }] } }

/-- An open salvo's second has passed (R106). -/
def salvoTimeout (id : Nat) (s : State) : State :=
  match openSalvo s id with
  | none => s
  | some o => if o.opened + tickSec ≤ s.mono then salvoDiscard id s else s

/-! ## Query and cancel (R110, R111) -/

/-- `ROUTE_QUERY` (R110): a group's lead shows the member bit beside its own, and a destination that has never committed shows frame 0 (log 172). -/
def fxRouteQuery (c : Cmd) (first cnt : Nat) (s : State) : State :=
  if 1408 < first + cnt then refuse c St.takeRange s
  else complete c St.ok 0 ((upto first cnt).flatMap fun d =>
    let g := if d < 1152 then groupOf (cfgOf s d).groups false d else none
    let lead := (g.map fun g => decide (g.lead = d)).getD false
    [(2, d), (2, b2n (s.take.pend.any fun p => decide (p.dest = d)) + b2n lead * 2 + b2n g.isSome * 4)]
      ++ (upto 0 10).map (fun l => (2, routeOf s d l)) ++ [(8, tabGet 0 d s.take.lastFrame)]) s

/-- A job leaves with its pending entries. -/
def withdrawJob (id : Nat) (s : State) : State :=
  { s with take := { s.take with pend := s.take.pend.filter fun p => decide (p.job ≠ id)
                                 jobs := s.take.jobs.filter fun j => decide (j.id ≠ id) } }

/-- `TAKE_CANCEL` (R111). -/
def fxTakeCancel (c : Cmd) (tag : Nat) (s : State) : State :=
  match s.take.jobs.find? fun j => decide (j.cmd.pkt.hdr.tag = tag) && decide (j.cmd.origin = .host) with
  | none => refuse c St.tagUnknown s
  | some j =>
    if s.now + takeLead ≤ j.firstSp then
      forward (.cancel tag) (refuse j.cmd St.takeCancelled (done c (withdrawJob j.id s)))
    else refuse c St.takeLate s

/-! ## Forwarded by the partner (R113 to R116) -/

/-- The switch point of a forwarded entry (R113, R115), and whether it is late here. -/
def forwardedSp (s : State) (d frame : Nat) : Nat × Bool :=
  let sp := firstSp s d (frameStart s frame)
  if s.now + standbyLead ≤ sp then (sp, false) else (firstSp s d (max sp s.now + 1), true)

/-- A take or salvo of the active unit becomes pending here (R113, R115; 15_the_pair.md R570); the answer says whether it is late. -/
def takeAdopt (es : List Nat) (body : Body) (frame tag : Nat) (salvo : Option (Nat × Nat)) (s : State) : State × Bool :=
  let good := es.filter fun e => destUsed (cfgOf s (entDest e)) (modeNow s) (entDest e)
  let ts := targetsOf s good
  let late := distinctDests ((ts.filter fun x => (forwardedSp s x.2.1 frame).2).map fun x => (x.2.1, 0))
  let hdr : Hdr := { version := 1, flags := 0, tag := tag, length := 0, target := 0, seq := 0, applyAt := frame, resultLen := 0,
                     zeroOk := true, bodyOk := true, bodyZeroOk := true, resultOk := true }
  let id := s.take.nextJob
  let sps := fun d => (forwardedSp s d frame).1
  let first := (ts.map fun x => sps x.2.1).foldl min (sps ((ts.map fun x => x.2.1).headD 0))
  let s := enqueue id sps ts (newJob
    { id := id, cmd := { pkt := { hdr := hdr, body := body }, origin := .forward }, salvo := salvo, entries := good, expanded := ts.length,
      noSlip := false, slipped := false, forwarded := false, acked := false, latePartner := false, frame := frame, firstSp := first, results := [] } s)
  let s := if late.isEmpty then s else
    late.foldl (fun s d => raise Src.compare d 2 (takeStatusNow s) 20 0 s) (putB Reg.takeStatus 20 true (count Reg.takeFwdLate s))
  (if ts.isEmpty then withdrawJob id s else s, !late.isEmpty)

/-- A take or salvo forwarded by the active unit (R113, R115), acknowledged. -/
def takeForwarded (es : List Nat) (body : Body) (frame tag : Nat) (salvo : Option (Nat × Nat)) (s : State) : State :=
  if inMode s = false then s
  else
    let r := takeAdopt es body frame tag salvo s
    send (.ack tag r.2) r.1

/-- The partner's acknowledgement of a forwarded take or salvo (R114, R115). -/
def takeAck (tag : Nat) (late : Bool) (s : State) : State :=
  { s with take := { s.take with jobs := s.take.jobs.map fun j =>
    if j.cmd.pkt.hdr.tag = tag ∧ j.forwarded then { j with acked := true, latePartner := late } else j } }

/-- A cancel forwarded by the active unit (R111). -/
def takeCancelled (tag : Nat) (s : State) : State :=
  (s.take.jobs.filter fun j => decide (j.cmd.pkt.hdr.tag = tag) && decide (j.cmd.origin = .forward)).foldl (fun s j => withdrawJob j.id s) s

/-! ## Commands -/

/-- SALVO_OPEN_TIMEOUT (R106). -/
def execSalvoOpenTimeout (dt id : Nat) (s : State) : Host.Outcome State Fault Refusal := .next (only true (fun s => salvoTimeout id s) (tick dt s))

end Sys2Proof.Machine
end

