-- ==== Sys2Proof/Machine/Comp.lean ====
section
/-! DEFINITION. The composition heads (10_composition.md). -/

namespace Sys2Proof.Machine

/-! ## Entries of the mode (R398) -/

/-- The overlay in force has a layer geometry section, which replaces the base section (01_compiled_plan.md R19). -/
def overGeo (s : State) : Option (List LayerEntry) := geoOf s.plan.committed s.plan.cfg.mode

/-- The crop of a rescaled entry (R404), from one raster to another. -/
def rescale (r : Nat × Nat × Nat × Nat) (e : LayerEntry) : LayerEntry :=
  let x := e.cropX * r.2.2.1 / max 1 r.1
  let w := e.cropW * r.2.2.1 / max 1 r.1
  { e with
    cropX := x - x % 2
    cropW := w - w % 2
    cropY := e.cropY * r.2.2.2 / max 1 r.2.1
    cropH := e.cropH * r.2.2.2 / max 1 r.2.1 }

/-- An entry of the plan's geometry for a mode, rescaled where a command has given its send another format than the plan declares (R404, R419). -/
def planGeo (s : State) (mode : Nat) (e : LayerEntry) : LayerEntry :=
  match tabFind e.send s.comp.fmts, destFmtIn (modeCfgOf s.plan.committed mode) e.send with
  | some f, some d => if d.width = f.width ∧ d.height = f.height then e else rescale (d.width, d.height, f.width, f.height) e
  | _, _ => e

/-- An entry of a list by head and layer. -/
def geoFind (es : List LayerEntry) (h l : Nat) : LayerEntry :=
  (es.find? fun e => decide (e.head = h) && decide (e.layer = l)).getD { layerEntry0 with head := h, layer := l }

/-- The entry in force of layer `l` of head `h`: what a command has set (R419), otherwise the plan's. -/
def geoEntry (s : State) (h l : Nat) : LayerEntry :=
  let k := 21 * h + l
  let m := s.plan.cfg.mode
  match overGeo s with
  | some es => (tabFind k s.comp.overCmd).getD (planGeo s m (geoFind es h l))
  | none => (tabFind k s.comp.baseCmd).getD (planGeo s m (geoFind ((geoOf s.plan.committed 0).getD []) h l))

/-- The geometry that a mode change to `mode` would bring into force (R56, R419). -/
def geoAfter (s : State) (mode : Nat) : List LayerEntry :=
  match geoOf s.plan.committed mode with
  | some es => es.map (planGeo s mode)
  | none =>
    let es := (geoOf s.plan.committed 0).getD []
    s.comp.baseCmd.map Prod.snd
      ++ ((es.filter fun e => (tabFind (21 * e.head + e.layer) s.comp.baseCmd).isNone).map (planGeo s mode))

/-- An entry changed by command (R419): it belongs to the overlay where the overlay has the section, and to the base otherwise. -/
def putGeo (e : LayerEntry) (s : State) : State :=
  let k := 21 * e.head + e.layer
  if (overGeo s).isSome then { s with comp := { s.comp with overCmd := tabPut k e s.comp.overCmd } }
  else { s with comp := { s.comp with baseCmd := tabPut k e s.comp.baseCmd } }

/-! ## Geometry and line buffers (R399 to R403) -/

/-- A rectangle lies within a raster. -/
def inRaster (x y w h rw rh : Nat) : Bool := decide (x + w ≤ rw) && decide (y + h ≤ rh)

/-- R399 for an entry of a head, with the raster of its source. -/
def geometryOk (c : HeadCfg) (src : Nat × Nat) (e : LayerEntry) : Bool :=
  let video := decide (e.layer < 16)
  let r := if video then src else (c.fmt.width, c.fmt.height)
  inRaster e.cropX e.cropY e.cropW e.cropH r.1 r.2
    && inRaster e.outX e.outY e.outW e.outH c.fmt.width c.fmt.height
    && decide (e.cropW % 2 = 0) && decide (e.outW % 2 = 0) && decide (e.cropX % 2 = 0)
    && (decide (c.fmt.scan ≠ 1) || (decide (e.outY % 2 = 0) && decide (e.outH % 2 = 0)))
    && (if video then
          decide (e.cropW ≤ 16 * e.outW) && decide (e.cropH ≤ 16 * e.outH) && decide (e.outW ≤ 8 * e.cropW) && decide (e.outH ≤ 8 * e.cropH)
            && decide (e.outW * e.outH ≤ (nth? c.storeArea e.layer).getD 0)
        else decide (e.outW = e.cropW) && decide (e.outH = e.cropH))
    && !(nbit e.flags 1 && nbit e.flags 2)

/-- LB_NEED (R401): k is 1 when the layer scales up. -/
def lbNeed (e : LayerEntry) : Nat :=
  ((if e.cropH ≤ e.outH then 4 else ceilDiv (4 * e.cropH) e.outH) + 2) * ceilDiv e.cropW 1920

/-- LB_ALLOC of a layer (R400). -/
def lbAlloc (c : HeadCfg) (l : Nat) : Nat := (nth? c.lbAlloc l).getD 0

/-- The format a layer input send has at time `t` (R402). -/
def sendFmtAt (s : State) (send t : Nat) : Option PortFmt := destFmtIn (cfgSendsAt s s.plan.cfg t) send

/-- The raster of a layer input send at time `t`. -/
def sendRaster (s : State) (send t : Nat) : Nat × Nat :=
  match sendFmtAt s send t with
  | some f => (f.width, f.height)
  | none => (0, 0)

/-- An entry that cannot be shown with the format in force (R403, R404). -/
def entryBroken (s : State) (c : HeadCfg) (e : LayerEntry) : Bool :=
  !geometryOk c (sendRaster s e.send s.now) e || decide (lbAlloc c e.layer < lbNeed e)

/-! ## Layers and heads -/

def putLayer (h l : Nat) (t : LayerTrack) (s : State) : State :=
  { s with comp := { s.comp with layers := tabSet layerTrack0 (21 * h + l) t s.comp.layers } }

def putHead (h : Nat) (t : HeadTrack) (s : State) : State :=
  { s with comp := { s.comp with heads := tabSet headTrack0 h t s.comp.heads } }

/-- A rebuild of the backdrop of physical head `h` falls due (R413). -/
def dirtyHead (h : Nat) (s : State) : State := putHead h { headTrack s h with dirty := true } s

/-- The order of the layers from the bottom up (R396): above background and backdrop, graphic layers with OVER 0 that are not static, video layers, graphic layers with OVER 1. -/
def layerOrder (s : State) (h : Nat) : List Nat :=
  let e := fun l => (layerTrack s h l).entry
  ((upto 16 4).filter fun l => entryOn (e l) && !entryStatic (e l) && !nbit (e l).flags 2)
    ++ ((upto 0 16).filter fun l => entryOn (e l))
    ++ ((upto 16 4).filter fun l => entryOn (e l) && !entryStatic (e l) && nbit (e l).flags 2)

/-- A waiting step put behind those that are due no later. -/
def stepIns (x : LayerStep) : List LayerStep → List LayerStep
  | [] => [x]
  | y :: r => if x.at_ < y.at_ then x :: y :: r else y :: stepIns x r

/-- The step is due at a head frame boundary at time `t` (R417). -/
def stepDue (t : Nat) (x : LayerStep) : Bool := if x.strict then decide (x.at_ < t) else decide (x.at_ ≤ t)

/-- What the scaler does with a layer differs between two entries. -/
def scalerDiffers (a b : LayerEntry) : Bool :=
  entryOn a != entryOn b || decide (a.send ≠ b.send) || decide (a.cropX ≠ b.cropX) || decide (a.cropY ≠ b.cropY)
    || decide (a.cropW ≠ b.cropW) || decide (a.cropH ≠ b.cropH) || decide (a.outX ≠ b.outX) || decide (a.outY ≠ b.outY)
    || decide (a.outW ≠ b.outW) || decide (a.outH ≠ b.outH)

/-- The change of an entry reaches the backdrop (R413). -/
def reachesBackdrop (a b : LayerEntry) : Bool :=
  (decide (a.layer = 20) && decide (a.fill ≠ b.fill)) || ((entryOn a && entryStatic a || entryOn b && entryStatic b) && decide (a ≠ b))

/-- One step of a layer takes effect at the compositor: a new entry, or a rescaled crop. Layer frames written before it are not of the new geometry (R408). -/
def stepLayer (h l : Nat) (x : LayerStep) (s : State) : State :=
  let t := layerTrack s h l
  let e := match x.entry with
    | some e => e
    | none => rescale x.raster t.entry
  let s := putLayer h l { t with entry := e, since := if scalerDiffers t.entry e then max t.since x.at_ else t.since } s
  if reachesBackdrop t.entry e then dirtyHead h s else s

/-- The steps of a layer that are due at this boundary. -/
def dueSteps (h : Nat) (s : State) (l : Nat) : State :=
  let t := layerTrack s h l
  let due := t.steps.filter (stepDue s.now)
  if due.isEmpty then s
  else due.foldl (fun s x => stepLayer h l x s) (putLayer h l { t with steps := t.steps.filter fun x => !stepDue s.now x } s)

/-- A source frame of a video layer has been written to its end (R405): it is complete when no word of its send has been marked invalid since the frame before it ended (02_word_fabric_and_takes.md R85). -/
def layerComplete (h l : Nat) (s : State) : State :=
  let t := layerTrack s h l
  if (headCfg? s h).isNone then s
  else if tabGet 0 t.entry.send s.take.sendBad ≤ t.doneAt then
    putLayer h l { t with newest := some (t.num, s.now), num := t.num + 1, bad := false, doneAt := s.now } s
  else putLayer h l { t with bad := true, doneAt := s.now } s

/-- STATE and FILL_WHY of a video layer at a boundary (R406 to R408), and whether its last picture is shown again. -/
def layerJudge (s : State) (c : HeadCfg) (h l : Nat) : Nat × Nat × Bool :=
  let t := layerTrack s h l
  let a := rd s (Reg.compLayerStatus h l)
  let held := decide (fld a 0 2 = 3) && decide (fld a 2 2 = 1)
  if entryOn t.entry = false then (0, 0, false)
  else if entryBroken s c t.entry then (3, 2, false)
  else if routeOf s t.entry.send 0 = noSource then (3, 3, false)
  else match t.newest with
    | none => (3, 3, false)
    | some f =>
      if f.2 ≤ t.since then (3, 3, false)
      else
        let again := decide (t.shown = some f.1)
        if held && again then (3, 1, false)
        else if t.bad then (if 9 ≤ fld a 24 4 + 1 then (3, 1, false) else (2, 0, true))
        else (1, 0, again)

/-- STATE and FILL_WHY of a layer written (R424, R425): an entry into fill is counted and recorded, and a return from fill to live is recorded. -/
def layerState (h l st why : Nat) (s : State) : State :=
  let a := Reg.compLayerStatus h l
  let before := rd s a
  let old := fld before 0 2
  let s := putF a 2 2 why (putF a 0 2 st s)
  let s := if st = 3 ∧ old ≠ 3 then putB a 5 true (bump (Reg.compLayerCnt h l) 16 16 1 s) else s
  if (st = 3 ∧ old ≠ 3) ∨ (st = 1 ∧ old = 3) then raiseState (Src.head h) l a before s else s

/-- A layer at a head frame boundary. -/
def layerBoundary (c : HeadCfg) (h : Nat) (s : State) (l : Nat) : State :=
  let a := Reg.compLayerStatus h l
  let t := layerTrack s h l
  let s := putB a 4 (entryStatic t.entry && entryOn t.entry) s
  if 16 ≤ l then layerState h l (if l = 20 then 1 else if entryOn t.entry then 1 else 0) 0 s
  else
    let j := layerJudge s c h l
    let run := if t.bad ∧ j.1 ≠ 0 then min 15 (getF s a 24 4 + 1) else 0
    let shown := if j.1 = 1 ∨ j.1 = 2 then t.newest.map Prod.fst else t.shown
    let s := putLayer h l { t with bad := false, shown := if j.1 = 0 ∨ j.2.1 = 3 then none else shown } s
    let s := if j.2.2 then bump (Reg.compLayerCnt h l) 0 16 1 s else s
    let s := putF a 16 8 (lbAlloc c l) (putF a 8 8 (lbNeed t.entry) s)
    putF a 24 4 run (layerState h l j.1 j.2.1 s)

/-- `COMP_HEAD_LB[j]` (R422). -/
def headLb (c : HeadCfg) (h : Nat) (s : State) : State :=
  let on := ((upto 0 16).map fun l => (layerTrack s h l).entry).filter entryOn
  wr (Reg.compHeadLb h) (BitVec.ofNat 32 (sumL c.lbAlloc % 128 + sumL (on.map lbNeed) % 256 * 256)) s

/-- A static layer of the head uses table set `n` (R413). -/
def staticUses (s : State) (h n : Nat) : Bool :=
  (upto 16 4).any fun l =>
    let e := (layerTrack s h l).entry
    entryOn e && entryStatic e && decide (e.tset = n)

/-- Committed tables whose apply frame has started take effect together (R416). -/
def dueTables (h : Nat) (s : State) : State :=
  let t := headTrack s h
  let due := t.armed.filter fun x => decide (x.2 ≤ s.now)
  if due.isEmpty then s
  else
    let live := due.foldl (fun u x => overTables u x.1) t.tables
    let left := t.armed.filter fun x => decide (s.now < x.2)
    let hit := due.any fun x => x.1.any fun y => staticUses s h (y.1 / 6)
    putB (Reg.compHeadStatus h) 5 (!left.isEmpty) (putHead h { t with tables := live, armed := left, dirty := t.dirty || hit } s)

/-- Every layer of a head is put under R408, from the present time. -/
def resetLayers (h : Nat) (s : State) : State :=
  (upto 0 16).foldl (fun s l => putLayer h l { layerTrack s h l with since := s.now, newest := none, bad := false, shown := none }
    (putF (Reg.compLayerStatus h l) 24 4 0 s)) s

/-- The backdrop at a boundary (R412, R413): a rebuild that ran during the last frame has ended and is shown, and one that is due starts, in the hidden copy. -/
def backdrop (h : Nat) (s : State) : State :=
  let t := headTrack s h
  let next := if t.dirty then some (dropOf s h) else t.dropNext
  let s := putB (Reg.compHeadStatus h) 4 t.dirty s
  let s := putHead h { t with dirty := false, drop := t.dropNext, dropNext := next } s
  if t.dirty then count (Reg.compRebuilds (h / 24)) s else s

/-- The colour entries of a head's layers and output take effect at its frame boundary (R414). -/
def headColours (h : Nat) (s : State) : State :=
  putHead h { headTrack s h with colour := (s.plan.tables.colour.drop (1152 + 21 * homeHead s h)).take 21 } s

/-- A frame boundary of head `h` (R406, R413, R416, R417, R421). -/
def headBoundary (h : Nat) (s : State) : State :=
  match headCfg? s h with
  | none => s
  | some c =>
    if (headTrack s h).shed then s
    else
      let a := Reg.compHeadStatus h
      let s := if getB s a 3 then resetLayers h (putB a 3 false s) else s
      let s := (upto 0 21).foldl (dueSteps h) (headColours h (dueTables h s))
      let s := (upto 0 21).foldl (layerBoundary c h) s
      let s := backdrop h (headLb c h s)
      putHead h { headTrack s h with order := layerOrder s h } s

/-! ## Change of configuration -/

/-- AIR of `COMP_HEAD_STATUS[j]` (R423). -/
def headAir (s : State) (h : Nat) : Bool :=
  match headCfg? s h with
  | none => false
  | some c => (upto 0 1152).any fun d => airOut s d && decide (routeOf s d 0 = c.ret)

/-- Registers and layers of physical head `h` from the configuration in force: every layer is under R408 (R408, R423). -/
def setupHead (h : Nat) (s : State) : State :=
  let a := Reg.compHeadStatus h
  let t := headTrack s h
  match headCfg? s h with
  | none =>
    let s := (upto 0 21).foldl (fun s l => putLayer h l layerTrack0 (layerState h l 0 0 (putF (Reg.compLayerStatus h l) 8 20 0 s))) s
    wr (Reg.compHeadLb h) 0 (wr a (setBit 0 6 (getB s a 6)) (putHead h headTrack0 s))
  | some c =>
    let s := putHead h { t with dirty := true, order := [] } s
    let s := putF a 16 7 h (putF a 8 8 (c.ret - 1152) (putB a 1 c.uhd (putB a 0 true s)))
    let s := (upto 0 21).foldl (fun s l =>
      let e := geoEntry s (homeHead s h) l
      let s := putLayer h l { layerTrack0 with entry := e, since := s.now, num := (layerTrack s h l).num } s
      putF (Reg.compLayerStatus h l) 24 4 0 (if l < 16 then putF (Reg.compLayerStatus h l) 16 8 (lbAlloc c l)
        (putF (Reg.compLayerStatus h l) 8 8 (lbNeed e) s) else s)) s
    headLb c h s

/-- Head units in use in a quadrant (R392, R422). -/
def setupComp (q : Nat) (s : State) : State :=
  let hs := (upto (24 * q) 24).filterMap (headCfg? s)
  putF (Reg.compStatus q) 0 6 (sumL (hs.map fun c => if c.uhd then 4 else 1)) s

/-- What a base-plan commit discards (R45; R419): geometry, formats and tables that commands have set. -/
def compDiscard (s : State) : State :=
  { s with comp := { s.comp with
      baseCmd := [], overCmd := [], fmts := [], fmtNext := []
      heads := tabMap (fun _ t => { t with tables := [], shadow := [], armed := [] }) s.comp.heads } }

/-- What a mode change discards (R419): changes to entries of an overlay. -/
def compMode (s : State) : State := { s with comp := { s.comp with overCmd := [] } }

/-- The formats that commands have given to layer input sends, laid over a configuration (R402). -/
def cfgFmts (s : State) (c : ModeCfg) : ModeCfg :=
  { c with sends := c.sends.map fun x => { x with fmt := (tabFind x.send s.comp.fmts).getD x.fmt } }

/-- R401 for a configuration and its geometry, with its sends' formats (R40, R403): the need of every enabled video layer lies within its allocation. -/
def linebufOk (c : ModeCfg) (es : List LayerEntry) : Bool :=
  es.all fun e => decide (16 ≤ e.layer) || !entryOn e
    || (match c.heads.find? fun x => decide (x.head = e.head) with
        | some x => decide (lbNeed e ≤ lbAlloc x e.layer)
        | none => true)

/-- A patched colour entry of a static layer makes its backdrop anew (R413, R414). -/
def colourChanged (i : Nat) (s : State) : State :=
  if i < 1152 then s
  else
    let h := (i - 1152) / 21
    let l := (i - 1152) % 21
    (headsOf s h).foldl (fun s h =>
      let e := (layerTrack s h l).entry
      if entryOn e && entryStatic e then dirtyHead h s else s) s

/-! ## Commands' effects (R417, R422) -/

/-- The send is a layer input of the quadrant of head `h`. -/
def layerSend (s : State) (h send : Nat) : Bool :=
  (s.plan.cfg.sends.any fun x => decide (x.send = send) && x.layerInput) && decide (quadOf send = h / 24)

/-- The status of one entry of a `COMP_LAYER_SET` for a frame that starts at `t` (R399, R403, R422). -/
def layerSetStatus (s : State) (quad t : Nat) (e : LayerEntry) : Nat :=
  match s.plan.cfg.heads.find? fun c => decide (c.head = e.head) with
  | none => St.compRange
  | some c =>
    if 20 < e.layer ∨ e.head / 24 ≠ quad then St.compRange
    else if 7 < e.tset ∧ e.tset ≠ 255 then St.compRange
    else if e.layer < 16 ∧ layerSend s e.head e.send = false then St.compRange
    else if 16 ≤ e.layer ∧ e.layer < 20 ∧ e.send ≠ 0xFFFF then St.compRange
    else if entryOn e = false then St.ok
    else if geometryOk c (sendRaster s e.send t) e = false then St.compGeometry
    else if e.layer < 16 ∧ lbAlloc c e.layer < lbNeed e then St.linebufShort
    else St.ok

/-- The first entry that is refused, with its index and status. -/
def firstBad (f : LayerEntry → Nat) (es : List LayerEntry) : Option (Nat × Nat × LayerEntry) :=
  ((upto 0 es.length).zip es).findSome? fun x => if f x.2 = St.ok then none else some (x.1, f x.2, x.2)

def fxCompLayerSet (c : Cmd) (es : List LayerEntry) (s : State) : State :=
  let f0 := applyFrame s tickMs c.pkt.hdr.applyAt
  let t := frameStart s (f0.getD (houseFrame s))
  let quad := ((es.head?.map LayerEntry.head).getD 0) / 24
  match firstBad (layerSetStatus s quad t) es with
  | some (i, st, e) =>
    let s := if st = St.linebufShort then
        (headsOf s e.head).foldl (fun s h => putB (Reg.compLayerStatus h e.layer) 6 true s) s
      else s
    complete c st i [] s
  | none => scheduleCmd c (fun f => [(8, f)]) s

/-- The first source frame of a send that starts at or after `t` (R417). -/
def sourceStart (s : State) (send t : Nat) : Nat :=
  match sendFmtAt s send t with
  | some f => rateStart (fmtRate f) (rateFirst (fmtRate f) t)
  | none => t

/-- `COMP_LAYER_SET` at its apply frame, which starts at `t` (R417): all entries change the compositor at the same boundary, after the first source frame of every scaler that changes. -/
def applyCompLayerSet (es : List LayerEntry) (t : Nat) (s : State) : State :=
  let video := es.filter fun e => decide (e.layer < 16)
  let at_ := video.foldl (fun m e => max m (sourceStart s e.send t)) t
  es.foldl (fun s e =>
    let x : LayerStep := { at_ := at_, strict := !video.isEmpty, entry := some e, raster := (0, 0, 0, 0) }
    (headsOf s e.head).foldl (fun s h =>
      let k := layerTrack s h e.layer
      putLayer h e.layer { k with steps := stepIns x k.steps } s) (putGeo e s)) s

/-- The format that a `COMP_INPUT_FORMAT` declares (R402): the active picture of the Id at the frame rate; none outside R402 (log 28). -/
def inputFormat (id scan num den vpid : Nat) : Option PortFmt :=
  if num = 0 ∨ den = 0 ∨ 2 < scan ∨ id ∉ [1, 2, 5, 6] then none
  else
    let hd720 := decide (id = 1) && decide (scan = 0) && decide (50 * den * 1000 ≤ num * 1001)
    let uhd := decide (id = 5) || decide (id = 6)
    some { id := id, lines := if hd720 then 750 else 1125, scan := scan, rateNum := num, rateDen := den,
           width := if hd720 then 1280 else if uhd then 3840 else 1920, height := if hd720 then 720 else if uhd then 2160 else 1080,
           vpid := vpid }

/-- The layer input send of a mode. -/
def sendCfg? (s : State) (d : Nat) : Option SendCfg := s.plan.cfg.sends.find? fun x => decide (x.send = d) && x.layerInput

/-- A change of a send's format waits for its apply frame, in the order of those frames (R402). -/
def fmtIns (x : Nat × PortFmt × Nat) : List (Nat × PortFmt × Nat) → List (Nat × PortFmt × Nat)
  | [] => [x]
  | y :: r => if x.2.2 < y.2.2 then x :: y :: r else y :: fmtIns x r

def fmtAccept (send : Nat) (f : PortFmt) (t : Nat) (s : State) : State :=
  { s with comp := { s.comp with fmtNext := fmtIns (send, f, t) s.comp.fmtNext } }

/-- `COMP_INPUT_FORMAT` (R403, R404): a longer need is no ground to refuse it. -/
def fxCompInputFormat (c : Cmd) (send id scan num den : Nat) (s : State) : State :=
  match sendCfg? s send with
  | none => refuse c St.compRange s
  | some x =>
    match inputFormat id scan num den x.fmt.vpid with
    | none => refuse c St.compGeometry s
    | some f =>
      match applyFrame s tickMs c.pkt.hdr.applyAt with
      | none => refuse c St.planLate s
      | some n => forward (.command c.pkt.body n) (fmtAccept send f (frameStart s n) (schedule c n [(8, n)] s))

/-- The format of a send put into a configuration. -/
def cfgPutFmt (send : Nat) (f : PortFmt) (c : ModeCfg) : ModeCfg :=
  { c with sends := c.sends.map fun x => if x.send = send then { x with fmt := f } else x }

/-- `COMP_INPUT_FORMAT` at its apply frame, which starts at `t` (R404): the crops of every layer that reads the send are rescaled in the first head frame that shows the new format. -/
def applyCompInputFormat (send id scan num den t : Nat) (s : State) : State :=
  match sendCfg? s send with
  | none => s
  | some x =>
    match inputFormat id scan num den x.fmt.vpid with
    | none => s
    | some f =>
      let r := (x.fmt.width, x.fmt.height, f.width, f.height)
      let mine := s.plan.cfg.heads.flatMap fun h => ((upto 0 16).filter fun l => decide ((geoEntry s h.head l).send = send)).map fun l => (h.head, l, geoEntry s h.head l)
      let s := { s with
        comp := { s.comp with fmts := tabPut send f s.comp.fmts, fmtNext := s.comp.fmtNext.filter fun y => decide (y.1 ≠ send) || decide (t < y.2.2) }
        plan := { s.plan with cfg := cfgPutFmt send f s.plan.cfg, oldCfg := cfgPutFmt send f s.plan.oldCfg } }
      let idle := if (overGeo s).isSome then tabMap (fun _ e => if e.send = send then rescale r e else e) s.comp.baseCmd else s.comp.baseCmd
      let s := { s with comp := { s.comp with baseCmd := idle } }
      let at_ := rateStart (fmtRate f) (rateFirst (fmtRate f) t)
      mine.foldl (fun s p =>
        let s := putGeo (rescale r p.2.2) s
        (headsOf s p.1).foldl (fun s h =>
          let k := layerTrack s h p.2.1
          putLayer h p.2.1 { k with steps := stepIns { at_ := at_, strict := true, entry := none, raster := r } k.steps } s) s) s

/-- A rectangle that waits for its apply frame. -/
def surfStage (head layer frame : Nat) (p : SurfPart) (s : State) : State :=
  { s with comp := { s.comp with surfNext := s.comp.surfNext ++ [(21 * head + layer, frame, p)] } }

/-- `COMP_SURFACE_LOAD` (R411). -/
def fxCompSurfaceLoad (c : Cmd) (head layer fmt x y w h stride : Nat) (s : State) : State :=
  match s.plan.cfg.heads.find? fun k => decide (k.head = head) with
  | none => refuse c St.compRange s
  | some k =>
    if inRaster x y w h k.fmt.width k.fmt.height = false ∨ (fmt = 1 ∧ (x % 2 ≠ 0 ∨ w % 2 ≠ 0)) then refuse c St.compGeometry s
    else if uploadBusy s then refuse c St.compBusy s
    else match applyFrame s (copyTicks s (4 * w * h) + tickMs) c.pkt.hdr.applyAt with
      | none => refuse c St.planLate s
      | some f =>
        let p : SurfPart := { fmt := fmt, x := x, y := y, rows := uploadRows s.mem.upload w h stride }
        forward (.command c.pkt.body f) (forward (.surface head layer f p) (schedule c f [(8, f)] (uploadStart (4 * w * h) (surfStage head layer f p s))))

/-- A rectangle in the back surface, and front and back swapped (R411, R413). -/
def surfaceSwap (head layer : Nat) (p : SurfPart) (s : State) : State :=
  let k := 21 * head + layer
  let s := { s with comp := { s.comp with surfaces := tabPut k (surfPut p (tabGet surface0 k s.comp.surfaces)) s.comp.surfaces } }
  (headsOf s head).foldl (fun s h =>
    let e := (layerTrack s h layer).entry
    if entryOn e && entryStatic e then dirtyHead h s else s) s

/-- Of the rectangles that wait for a layer, that with the earliest apply frame. -/
def surfFirst (k : Nat) (l : List (Nat × Nat × SurfPart)) : Option (Nat × Nat × SurfPart) :=
  let mine := l.filter fun x => decide (x.1 = k)
  mine.find? fun x => mine.all fun y => decide (x.2.1 ≤ y.2.1)

/-- `COMP_SURFACE_LOAD` at its apply frame (R411). -/
def applySurface (head layer : Nat) (s : State) : State :=
  match surfFirst (21 * head + layer) s.comp.surfNext with
  | some x => surfaceSwap head layer x.2.2 { s with comp := { s.comp with surfNext := s.comp.surfNext.erase x } }
  | none => s

/-- The first frame boundary of a head at or after `t` (R416). -/
def headStart (c : HeadCfg) (t : Nat) : Nat := rateStart (fmtRate c.fmt) (rateFirst (fmtRate c.fmt) t)

/-- A table written into the shadow of a head, and with COMMIT the whole shadow armed for a frame that starts at `t` (R416). -/
def tableWrite (head set table : Nat) (es : List Nat) (commit : Option Nat) (s : State) : State :=
  (headsOf s head).foldl (fun s h =>
    let k := headTrack s h
    let sh := tabPut (6 * set + table) es k.shadow
    match commit with
    | none => putHead h { k with shadow := sh } s
    | some t => putB (Reg.compHeadStatus h) 5 true (putHead h { k with shadow := [], armed := k.armed ++ [(sh, t)] } s)) s

/-- `COMP_TABLE_SET` with COMMIT accepted for apply frame `f`. -/
def tableAccept (c : Cmd) (k : HeadCfg) (set table : Nat) (es : List Nat) (f : Nat) (s : State) : State :=
  scheduleAt c f (headStart k (frameStart s f)) [(8, f)] (tableWrite k.head set table es (some (frameStart s f)) s)

def fxCompTableSet (c : Cmd) (head set table flags : Nat) (es : List Nat) (s : State) : State :=
  match s.plan.cfg.heads.find? fun k => decide (k.head = head) with
  | none => refuse c St.compRange s
  | some k =>
    if nbit flags 0 then
      match applyFrame s tickMs c.pkt.hdr.applyAt with
      | none => refuse c St.planLate s
      | some f => forward (.command c.pkt.body f) (tableAccept c k set table es f s)
    else forward (.command c.pkt.body (houseFrame s)) (complete c St.ok 0 [(8, 0)] (tableWrite head set table es none s))

/-- `COMP_QUERY` (R422). -/
def fxCompQuery (c : Cmd) (head : Nat) (s : State) : State :=
  if (s.plan.cfg.heads.find? fun k => decide (k.head = head)).isNone then refuse c St.compRange s
  else complete c St.ok 0 ((4, (setBit (rd s (Reg.compHeadStatus head)) 2 (headAir s head)).toNat)
    :: (upto 0 21).map fun l => (4, (rd s (Reg.compLayerStatus head l)).toNat)) s

/-! ## Commands -/

/-- LAYER_FRAME_COMPLETE (R405). -/
def execLayerFrameComplete (dt head layer : Nat) (s : State) : Host.Outcome State Fault Refusal :=
  .next (only (decide (head < 96) && decide (layer < 16)) (layerComplete head layer) (tick dt s))

/-- HEAD_FRAME_BOUNDARY (R406). -/
def execHeadFrameBoundary (dt head : Nat) (s : State) : Host.Outcome State Fault Refusal :=
  .next (only (decide (head < 96)) (headBoundary head) (tick dt s))

end Sys2Proof.Machine
end

