-- ==== Sys2Proof/Machine/Fabric.lean ====
section
/-! DEFINITION. The word fabric: slots, the words that sources present, the interchange buffer, and the check at a destination (02_word_fabric_and_takes.md R74 to R86, R819). -/

namespace Sys2Proof.Machine

/-! ## Rows and slots (R74, R76) -/

/-- The row of the TAI second at the present, and the fabric cycle within the row. -/
def rowNow (s : State) : Nat := s.now % tickSec / tickRow

def cycleNow (s : State) : Nat := s.now % tickRow / tickCycle

/-- The slot of a source or destination in a row, and its bus. -/
def slotOf (n : Nat) : Nat := localOf n % 4

def busOf (n : Nat) : Nat := 88 * quadOf n + localOf n / 4

/-! ## What a source presents (R83, R819; 13_plls_and_clock_islands.md R517) -/

/-- The pipelines and the fabric of a quadrant run on their own clock. -/
def fabricUp (s : State) (q : Nat) : Bool := awake s q && !keepAlive s (23 * q + 21)

/-- The number that a source has in the configuration: in MIRROR that of the first rail (R81). -/
def homeOf (s : State) (n : Nat) : Nat := (railHome (modeNow s) n).getD n

/-- An engine that runs a task writing process return `n`, none of whose tasks is kept from running (R819). -/
def retEngine (s : State) (n : Nat) : Option Bool :=
  let ts := s.plan.cfg.tasks.filter fun t => decide (t.ret = homeOf s n)
  if ts.isEmpty then none
  else some (ts.any fun t => !railOff s t (if homeOf s n = n then 0 else 64))

/-- The head that writes process return `n` runs: it is not shed (R819; 10_composition.md R421). -/
def retHead (s : State) (n : Nat) : Option Bool :=
  (s.plan.cfg.heads.find? fun h => decide (h.ret = homeOf s n)).map fun h => !isShed s 1 h.head

/-- The insert synchroniser of process return `n` presents frames: it is neither EMPTY nor without its input (R819; 04_frame_stores.md R178, R179). -/
def retInsert (s : State) (n : Nat) : Option Bool :=
  (ringEntry? s n).map fun _ => decide (2 ≤ getF s (fsA n) 0 2) && !isShed s 4 n

/-- A test generator writes process return `n` (04_frame_stores.md R194). -/
def retGenerator (s : State) (n : Nat) : Bool :=
  (memEntries s.plan.committed s.plan.cfg.mode).any fun e => decide (e.kind = 10) && decide (e.owner = homeOf s n) && decide (e.userKind = 4)

/-- The producer behind a source has a valid word for a used opportunity. -/
def producerOk (s : State) (n : Nat) : Bool :=
  if n < 1152 then ((inTrack s n).shown.elim false Shown.valid)
  else (retEngine s n).getD false || (retHead s n).getD false || (retInsert s n).getD false || retGenerator s n

/-- The words of a source are lost to a fault of the unit itself: its clock, its engine or its memory (15_the_pair.md R579). -/
def sourceFault (s : State) (n : Nat) : Bool :=
  !fabricUp s (quadOf n) || decide (retEngine s n = some false) || (tabGet fsTrack0 n s.mem.fs).spoilt

/-- A source presents a valid word (R83). -/
def sourceValid (s : State) (n : Nat) : Bool := producerOk s n && !sourceFault s n

/-- The stream of a source has a word in the present row (R77). -/
def sourceUses (s : State) (n : Nat) : Bool :=
  match srcFmtIn s.plan.cfg (homeOf s n) with
  | some f => slotUsed f s.now
  | none => false

/-! ## Interchange buffer (R79, R84) -/

/-- The word of a source in the present row: the one that the interchange buffer holds; or, read for the first time in the row, the source's content with the check code generated as it enters the fabric, complemented where the source has no valid word. -/
def rowWord (n : Nat) (content : BitVec 40) (s : State) : State × BitVec 48 :=
  let row := s.now / tickRow
  let held := if s.take.xRow = row + 1 then s.take.xWords else []
  match tabFind n held with
  | some w => (s, w)
  | none =>
    let w := wordAt n (rowNow s) (sourceValid s n) content
    let t := fsTrack s n
    let s := if t.spoilt then putFs n { t with spoilt := false } s else s
    ({ s with take := { s.take with xRow := row + 1, xWords := tabPut n w held } }, w)

/-! ## Check codes at a destination (R82 to R86, R121 to R123) -/

/-- The line of a process send's format in house timing at the present carries rows of the image (R81; 10_composition.md R405). -/
def sendActive (s : State) (d : Nat) : Bool :=
  match destFmtIn s.plan.cfg d with
  | some f => !(rowsOfLine f ((s.now - rateStart (fmtRate f) (rateFrame (fmtRate f) s.now)) / max 1 (fmtLineTicks f) + 1)).isEmpty
  | none => true

/-- A word that reaches destination `d` marked invalid leaves its mark for the line of the output, or for the layer that the process send feeds (R85), where it is an active-picture word (10_composition.md R405). -/
def fabMark (d : Nat) (internal : Bool) (s : State) : State :=
  if d < 1152 then putOut d { outTrack s d with invalid := true, internal := (outTrack s d).internal || internal } s
  else if sendActive s d = false then s
  else { s with take := { s.take with sendBad := tabPut d (s.now + 1) s.take.sendBad } }

/-- A check failure of destination `d` on a word read from `src` (R85, R86). -/
def fabFail (d src : Nat) (s : State) : State :=
  let q := quadOf d
  let s := count (Reg.fabChkTotal q) (count (Reg.fabPassChk q (quadOf src)) s)
  let s := bump (Reg.fabDestCnt q (localOf d)) 0 16 1 s
  let s := wr (Reg.fabLastFail q) (BitVec.ofNat 32 (d + src * 65536)) (putB (Reg.fabStatus q) 8 true s)
  let s := if d < 1152 ∧ airOut s (if modeNow s = 2 then d % 576 else d) then penaltyAt q 0 [.output d] s else s
  if tabGet 0 d s.take.chkEpoch = epochNow s + 1 then s
  else raiseFlag (Src.quad q 0) (localOf d) (Reg.fabStatus q) 8
    { s with take := { s.take with chkEpoch := tabPut d (epochNow s + 1) s.take.chkEpoch } }

/-- A word marked invalid reaches destination `d` (R85). -/
def fabInvalid (d : Nat) (s : State) : State :=
  let q := quadOf d
  bump (Reg.fabDestCnt q (localOf d)) 16 16 1 (putB (Reg.fabStatus q) 9 true (count (Reg.fabInvalidTotal q) s))

/-- Destination `d` verifies a 48-bit word of a row, read from `src` (R78, R85): correct code, complement, or neither. -/
def fabVerify (d src row : Nat) (fault : Bool) (w : BitVec 48) (s : State) : State :=
  let code := checkCode src row (nfld w.toNat 0 40)
  let got := nfld w.toNat 40 8
  if got = code then s else if got = 255 - code then fabMark d fault (fabInvalid d s) else fabMark d true (fabFail d src s)

/-- A used slot of destination `d` reads its word in its fabric cycle (R76, R77, R79, R85): from the source of its route, through the interchange buffer; `flips` are the bits changed on the way. The schedules of a quadrant whose clock is lost are suspended (13_plls_and_clock_islands.md R517). -/
def fabRead (d : Nat) (content : BitVec 40) (flips : BitVec 48) (s : State) : State :=
  let src := routeOf s d 0
  if src ≠ noSource ∧ cycleNow s = slotOf d ∧ sourceUses s src ∧ fabricUp s (quadOf d) then
    let fault := sourceFault s src
    let r := rowWord src content s
    fabVerify d src (rowNow s) fault (r.2 ^^^ flips) r.1
  else s

/-- PASS_UP of `FAB_STATUS` (R121): the pass link from quadrant `j` is up while both quadrants run on their own clocks; the own bit always reads 1. -/
def passUp (s : State) (q : Nat) : Nat :=
  sumL ((upto 0 4).map fun j => b2n (decide (j = q) || (fabricUp s q && fabricUp s j)) * 2 ^ j)

/-! ## Command -/

/-- FABRIC_WORD_VERIFY (R85). -/
def execFabricWordVerify (dt dest : Nat) (content : BitVec 40) (flips : BitVec 48) (s : State) : Host.Outcome State Fault Refusal :=
  .next (only (decide (dest < 1408)) (fun s => fabRead dest content flips s) (tick dt s))

end Sys2Proof.Machine
end

