-- ==== Sys2Proof/Machine/Cert.lean ====
section
/-! DEFINITION. Device certificates (19_identity.md R692): X.509 v3 in DER, read as far as the manual gives their contents (log 217). -/

namespace Sys2Proof.Machine

/-- Bytes as one number, the first lowest, and from the highest byte. -/
def bytesNum : List Nat → Nat
  | [] => 0
  | b :: r => b % 256 + 256 * bytesNum r

def bytesBe (l : List Nat) : Nat := l.foldl (fun v b => v * 256 + b % 256) 0

/-! ## DER -/

/-- An element: its tag, its contents, and all its bytes. -/
structure DerItem where
  tag : Nat
  content : List Nat
  whole : List Nat
  deriving DecidableEq, Repr

/-- An element of `n` content bytes behind a head of `h` bytes, and the bytes after it. -/
def derTake (h n : Nat) (l : List Nat) : Option (DerItem × List Nat) :=
  if l.length < h + n then none else some ({ tag := l.headD 0, content := (l.drop h).take n, whole := l.take (h + n) }, l.drop (h + n))

/-- The first element of a list of bytes: lengths of up to two bytes after the first. -/
def derItem (l : List Nat) : Option (DerItem × List Nat) :=
  match l with
  | _ :: n :: _ =>
    if n < 0x80 then derTake 2 n l
    else if n = 0x81 then derTake 3 ((nth? l 2).getD 0) l
    else if n = 0x82 then derTake 4 ((nth? l 2).getD 0 * 256 + (nth? l 3).getD 0) l
    else none
  | _ => none

/-- The elements one after the other in a list of bytes; `k` bounds their number. -/
def derItems : Nat → List Nat → Option (List DerItem)
  | _, [] => some []
  | 0, _ => none
  | k + 1, l => (derItem l).bind fun x => (derItems k x.2).map fun r => x.1 :: r

/-- The elements of a constructed element. -/
def derInner (x : DerItem) : Option (List DerItem) := derItems x.content.length x.content

/-! ## The certificate -/

/-- What a certificate states: serial number, the part's name in the subject, the public key's 97 bytes, the bytes under the signature, and the signature. -/
structure Cert where
  serial : Nat
  variant : List Nat
  key : Nat
  tbs : List Nat
  r : Nat
  s : Nat
  deriving DecidableEq, Repr

/-- The characters of the part number in a subject: "ZM1152-B1". -/
def variantName : List Nat := [0x5A, 0x4D, 0x31, 0x31, 0x35, 0x32, 0x2D, 0x42, 0x31]

/-- Upper-case hexadecimal digits of a number, most significant first. -/
def hexDigits (v : Nat) : Nat → List Nat
  | 0 => []
  | n + 1 => (let d := v / 16 ^ n % 16; if d < 10 then 0x30 + d else 0x37 + d) :: hexDigits v n

/-- AlgorithmIdentifiers: ecdsa-with-SHA384, and id-ecPublicKey on secp384r1. -/
def algSign : List Nat := [0x30, 0x0A, 0x06, 0x08, 0x2A, 0x86, 0x48, 0xCE, 0x3D, 0x04, 0x03, 0x03]
def algKey : List Nat := [0x30, 0x10, 0x06, 0x07, 0x2A, 0x86, 0x48, 0xCE, 0x3D, 0x02, 0x01, 0x06, 0x05, 0x2B, 0x81, 0x04, 0x00, 0x22]

/-- notAfter 99991231235959Z. -/
def noEnd : List Nat := [0x18, 0x0F, 0x39, 0x39, 0x39, 0x39, 0x31, 0x32, 0x33, 0x31, 0x32, 0x33, 0x35, 0x39, 0x35, 0x39, 0x5A]

/-- The keyUsage extension, critical: digitalSignature only. -/
def usage : List Nat := [0x30, 0x0E, 0x06, 0x03, 0x55, 0x1D, 0x0F, 0x01, 0x01, 0xFF, 0x04, 0x04, 0x03, 0x02, 0x07, 0x80]

/-- The text of a subject that is one CN. -/
def subjectText (x : DerItem) : Option (List Nat) :=
  match derInner x with
  | some [rdn] =>
    match (derInner rdn).bind fun l => l.head?.bind derInner with
    | some [oid, text] => if oid.whole = [0x06, 0x03, 0x55, 0x04, 0x03] then some text.content else none
    | _ => none
  | _ => none

/-- The extensions hold the key usage. -/
def usageOk (x : DerItem) : Bool :=
  match (derInner x).bind fun l => l.head?.bind derInner with
  | some es => es.any fun e => decide (e.whole = usage)
  | none => false

/-- The fields under the signature, checked against R692. -/
def certBody (t : DerItem) (r s : Nat) : Option Cert :=
  match derInner t with
  | some [version, serial, alg, _, validity, subject, key, ext] =>
    match subjectText subject, derInner validity, derInner key with
    | some name, some [_, after], some [kind, point] =>
      let n := bytesBe serial.content
      if version.whole = [0xA0, 0x03, 0x02, 0x01, 0x02] ∧ serial.tag = 2 ∧ n < 2 ^ 64 ∧ alg.whole = algSign ∧ after.whole = noEnd ∧ kind.whole = algKey
          ∧ point.tag = 3 ∧ point.content.length = 98 ∧ (point.content.take 2) = [0, 4] ∧ name.drop 9 = 0x20 :: hexDigits n 16 ∧ usageOk ext then
        some { serial := n, variant := name.take 9, key := bytesNum (point.content.drop 1), tbs := t.whole, r := r, s := s }
      else none
    | _, _, _ => none
  | _ => none

/-- A certificate of at most 2,048 bytes, where it parses. -/
def certParse (l : List Nat) : Option Cert :=
  if 2048 < l.length then none
  else match derItem l with
    | some (top, []) =>
      match derInner top with
      | some [tbs, alg, sig] =>
        if top.tag = 0x30 ∧ alg.whole = algSign ∧ sig.tag = 3 then
          match (derItem (sig.content.drop 1)).bind fun x => derInner x.1 with
          | some [r, s] => certBody tbs (bytesBe r.content) (bytesBe s.content)
          | _ => none
        else none
      | _ => none
    | _ => none

/-- The certificate is signed by the key of the device root. -/
def certSigned (root : Nat) (c : Cert) : Bool := ecdsaOver root c.r c.s (sha384 c.tbs.length (bytesNum c.tbs))

end Sys2Proof.Machine
end

