-- ==== Sys2Proof/Machine/Eth.lean ====
section
/-! DEFINITION. Ethernet ports (07_ethernet_ports.md): links, receive classification, PAUSE, the pause buffer, and frames sent with their transmit timing (14_timebase_and_ptp.md R536 to R541). Times inside a channel are in hundredths of a tick, so that a byte and a pause quantum are whole. -/

namespace Sys2Proof.Machine

/-! ## Rates and sizes -/

/-- The port of channel `g` runs in 400G mode (R298). -/
def ethFast (s : State) (g : Nat) : Bool := !getB s (Reg.ethPortStatus (g / 4)) 0

/-- A byte at the channel rate: 20 ps or 80 ps. -/
def ethByte (s : State) (g : Nat) : Nat := if ethFast s g then 594 else 2376

/-- A pause quantum: 1.28 ns or 5.12 ns (R309). -/
def ethQuantum (s : State) (g : Nat) : Nat := if ethFast s g then 38016 else 152064

/-- Bytes of the pause buffer (R310). -/
def ethPbufSize (s : State) (g : Nat) : Nat := if ethFast s g then 2097152 else 524288

/-- Elapsed time in hundredths of a tick. -/
def ethNow (s : State) : Nat := s.mono * 100

def ethUp (s : State) (g : Nat) : Bool := getB s (Reg.ethPortStatus (g / 4)) (4 + g % 4)

/-- A statistics counter of channel `g` (R317), by its place in the register map. -/
def ethStat (g k v : Nat) (s : State) : State := bump64 (Reg.ethStatLo g k) v s

/-- A link of channel `g` may be up (R316, R318): its port is used and enabled, its quadrant awake, and the mode is neither Id 0 nor RESCUE; SERVICE tests run on any port. -/
def ethAllowed (s : State) (g : Nat) : Bool :=
  decide (g < 64) && getB s (Reg.ethPortCtrl (g / 4)) 0 && !isShed s 3 g && awake s (g / 16) && !keepAlive s (23 * (g / 16) + 19)
    && (decide (modeNow s = 5) || (channelRun s g && decide (modeNow s ≠ 0) && decide (modeNow s ≠ 6)))

/-! ## Frames sent -/

/-- Times of 2⁻¹⁶ ns modulo 2⁴⁸ of an instant given in hundredths of a tick of the timebase. -/
def ptpUnits (t : Nat) : Nat := t * 65536 / 29700 % 2 ^ 48

/-- Sum of the four 16-bit words of a correctionField. -/
def correctionSum (c : Int) : Nat := sumL ((upto 0 4).map fun i => nfld (twos 64 c) (16 * i) 16)

/-- The UDP checksum of a frame whose correctionField has changed (14_timebase_and_ptp.md R537): zero for IPv4; for IPv6 it stays valid because the two octets after the message change by as much. -/
def sumFixed (f : SendFrame) (c : Int) : SendFrame :=
  if f.v6 then { f with pad := (f.pad + correctionSum f.correction + 4 * 65535 - correctionSum c) % 65535, correction := c }
  else { f with udpSum := 0, correction := c }

/-- The frame whose SFD crosses the balls at `at_` hundredths of a tick of elapsed time, with its correctionField (R313; 14_timebase_and_ptp.md R536 to R538). The crossing is known to ±2 ns: where in that range is an open value (log 3). -/
def txCorrect (at_ : Nat) (f : SendFrame) (s : State) : SendFrame × State :=
  if f.tsInsert = false then (f, s)
  else
    let tai := s.now * 100 + at_ - ethNow s
    let jitter : Int := ((freeValue s % 262145 : Nat) : Int) - 131072
    let d := (((ptpUnits tai : Nat) : Int) + jitter - (f.t0 : Int)) % (2 ^ 48 : Int)
    let s := useFree s
    if 2 ^ 47 ≤ d then (sumFixed f f.correction, putB Reg.tmbStatus 3 true s)
    else (sumFixed f (min (2 ^ 63 - 1) (f.correction + d)), s)

/-- Frame `q` leaves channel `g` at the elapsed time `at_` (R310, R312): counted for its channel and its flow, with STATUS 0 for an HTX entry. -/
def ethSend (g : Nat) (q : QFrame) (at_ : Nat) (s : State) : State :=
  let r := txCorrect at_ q.frame s
  let s := putEth g { ethTrack r.2 g with sent := some r.1 } r.2
  let s := ethStat g 3 q.frame.len (ethStat g 2 1 s)
  let s := match q.frame.leg with
    | some (f, blue) => bump64 (Reg.flowStatLo f (if blue then 1 else 0)) 1 s
    | none => s
  htxDone q.htx 0 s

/-- Bytes held by a pause buffer. -/
def pbufBytes (l : List QFrame) : Nat := sumL (l.map fun q => q.frame.len)

/-- `ETH_PBUF_LEVEL`, `ETH_PBUF_HIGH`, PAUSED and DRAINING from the channel's state. -/
def ethLevels (g : Nat) (s : State) : State :=
  let t := ethTrack s g
  let n := pbufBytes t.pbuf
  let s := putF (Reg.ethPbufLevel g) 0 22 n s
  let s := putF (Reg.ethPbufHigh g) 0 22 (max n (getF s (Reg.ethPbufHigh g) 0 22)) s
  let a := Reg.ethChStatus g
  putB a 1 (t.pauseEnd.isNone && !t.pbuf.isEmpty) (putB a 0 t.pauseEnd.isSome s)

/-- The frames of a pause buffer that start by time `t` when the first can start at `at_` and a byte takes `b`: each with its start, what is left, and when the next can start. A frame takes 20 bytes more for preamble and gap. -/
def drainOut (b t : Nat) : Nat → List QFrame → List (QFrame × Nat) × List QFrame × Nat
  | at_, [] => ([], [], at_)
  | at_, q :: r =>
    if at_ ≤ t then
      let x := drainOut b t (at_ + (q.frame.len + 20) * b) r
      ((q, at_) :: x.1, x.2.1, x.2.2)
    else ([], q :: r, at_)

/-- Channel `g` brought up to the present: a pause timer that has run out, and the frames that have left the pause buffer since (R308, R312). -/
def ethSettle (g : Nat) (s : State) : State :=
  let t := ethTrack s g
  let t := match t.pauseEnd with
    | some e => if e ≤ ethNow s then { t with pauseEnd := none, drainAt := e } else t
    | none => t
  if t.pauseEnd.isSome ∨ t.pbuf.isEmpty then ethLevels g (putEth g t s)
  else
    let x := drainOut (ethByte s g) (ethNow s) t.drainAt t.pbuf
    let s := putEth g { t with pbuf := x.2.1, drainAt := x.2.2 } s
    ethLevels g (x.1.foldl (fun s q => ethStat g 13 1 (ethSend g q.1 q.2 s)) s)

/-- The lowest class among frames. -/
def lowestClass (l : List QFrame) : Nat := (l.map fun q => q.frame.cls).foldl min 3

/-- The last frame of class `c`, and the rest (R311). -/
def dropLast (c : Nat) : List QFrame → Option QFrame × List QFrame
  | [] => (none, [])
  | q :: r =>
    match dropLast c r with
    | (some v, r') => (some v, q :: r')
    | (none, r') => if q.frame.cls = c then (some q, r') else (none, q :: r')

/-- Whole frames discarded until the rest fits in `n` bytes (R311): the frames dropped and the frames kept; `k` bounds the number of steps. -/
def dropToFit (n : Nat) : Nat → List QFrame → List QFrame × List QFrame
  | 0, l => ([], l)
  | k + 1, l =>
    if pbufBytes l ≤ n then ([], l)
    else
      let x := dropLast (lowestClass l) l
      let y := dropToFit n k x.2
      (x.1.toList ++ y.1, y.2)

/-- A sticky flag of `ETH_CH_STATUS[g]` with at most one record per epoch (R320). -/
def ethFlag (g b : Nat) (s : State) : State :=
  let t := ethTrack s g
  let s := putB (Reg.ethChStatus g) b true s
  let e := if b = 2 then t.pauseEpoch else t.dropEpoch
  if e = epochNow s + 1 then s
  else
    let t := if b = 2 then { t with pauseEpoch := epochNow s + 1 } else { t with dropEpoch := epochNow s + 1 }
    raiseFlag (Src.eth g) noInst (Reg.ethChStatus g) b (putEth g t s)

/-- A frame enters the pause buffer (R310, R311). -/
def ethQueue (g : Nat) (q : QFrame) (s : State) : State :=
  let t := ethTrack s g
  let l := t.pbuf ++ [q]
  let x := dropToFit (ethPbufSize s g) l.length l
  let s := ethLevels g (putEth g { t with pbuf := x.2 } s)
  if x.1.isEmpty then s
  else ethFlag g 3 (x.1.foldl (fun s q => htxDone q.htx 2 (ethStat g 12 1 s)) s)

/-- A frame discarded because its channel is down (R314). -/
def ethDiscard (g : Nat) (q : QFrame) (s : State) : State := htxDone q.htx 1 (ethStat g 14 1 s)

/-- A frame falls due on channel `g` (R310 to R314). -/
def ethDue (g : Nat) (q : QFrame) (s : State) : State :=
  let s := ethSettle g s
  if ethUp s g = false then ethDiscard g q s
  else if (ethTrack s g).pauseEnd.isSome || !(ethTrack s g).pbuf.isEmpty then ethQueue g q s
  else ethSend g q (ethNow s) s

/-! ## Packets of send flows (08_media_flows.md R331 to R337) -/

/-- Headers before the payload header: Ethernet with one tag at most, IP, UDP and RTP; and FCS after it (R305). -/
def rtpOverhead (v6 : Bool) (l : FlowLeg) : Nat := 14 + (if nbit l.vlan 12 then 4 else 0) + (if v6 then 40 else 20) + 8 + 12 + 4

/-- Bytes of a payload with its payload header (log 199): ESSENCE 1 an extended sequence number and a header of 6 bytes for each row segment; ESSENCE 2 three bytes a sample, ESSENCE 3 four; ESSENCE 4 eight and the packets with four of their own; ESSENCE 5 eight. -/
def rtpBodyLen (e : FlowEntry) : RtpBody → Nat
  | .video _ segs => 2 + sumL (segs.map fun g => 6 + g.bytes.length)
  | .audio ss => (if e.essence = 2 then 3 else 4) * sumL (ss.map List.length)
  | .anc l => 8 + sumL (l.map fun p => 4 + p.2.bytes)
  | .whole _ bytes => 8 + bytes.length
  | .other => 0

/-- The output behind a send leg: in MIRROR the blue leg is packetised from the other rail's egress (R356). -/
def sendPort (s : State) (e : FlowEntry) (blue : Bool) : Nat := if modeNow s = 2 ∧ blue then e.port + 576 else e.port

/-- A group of black, in the place of one that a black line does not list. -/
def blackGroup (f : PortFmt) : PicGroup := { c0 := 64, c1 := 512, c2 := 512, y1 := if pgroupOf f = 5 then some 64 else none }

/-- Packets of a row of the image (R332): PAYLOAD bytes each, and the remainder in the last. -/
def rowPackets (f : PortFmt) (payload : Nat) : Nat := ceilDiv (rowBytes f) (max 1 payload)

/-- Packet `index` of a frame of ESSENCE 1 (R332, R333, R335): its row of the image, the byte at which it starts, whether it is the last of the frame, or of a field of an interlaced format. -/
def packetPlace (f : PortFmt) (payload index : Nat) : Nat × Nat × Bool :=
  let k := rowPackets f payload
  let q := index / k
  let half := f.height / 2
  let r := if f.scan = 0 then q else if q < half then 2 * q else 2 * (q - half) + 1
  let last := decide (index % k + 1 = k)
  (r, index % k * payload, last && (decide (q + 1 = f.height) || (decide (f.scan = 1) && decide (q + 1 = half))))

/-- The row of the image that an emitted line carries. -/
def sentRow (f : PortFmt) (x : SentLine) (r : Nat) : List PicGroup :=
  let all := if x.kind = .black then List.replicate (rowGroups f * rowsPerLine f) (blackGroup f) else x.pic
  (all.drop (r % rowsPerLine f * rowGroups f)).take (rowGroups f)

/-- The latest emission of line `k` of an output, with its frame. -/
def sentLine (s : State) (n k : Nat) : Option (Nat × SentLine) := (outTrack s n).recent.find? fun x => decide (x.2.number = k)

/-- An ESSENCE 1 packet (R331 to R333), once the line that carries its row has been emitted; with true where that line was replaced because of an internal fault (15_the_pair.md R580). -/
def videoPacket (s : State) (e : FlowEntry) (n : Nat) (f : PortFmt) (index : Nat) : Option (RtpPkt × Bool) :=
  let p := packetPlace f e.payload index
  (sentLine s n (lineOfRow f p.1)).map fun x =>
    let pos := (x.1 * (f.height * rowPackets f e.payload) + index) % 2 ^ 32
    let row := rowNumber f p.1
    let bytes := ((picBytes f (sentRow f x.2 p.1)).drop p.2.1).take e.payload
    ({ version := 2, headerLen := 12, udpLen := 20 + bytes.length, pt := e.pt, marker := p.2.2, seq := pos % 65536,
       timestamp := mediaClock 90000 (rateStart (fmtRate f) x.1) % 2 ^ 32, ssrc := e.ssrc,
       body := .video (pos / 65536) [{ row := row.1, field := row.2, offset := p.2.1 / pgroupOf f * pgroupPixels f, bytes := bytes }] }, x.2.internal)

/-- The slot that destination channel `ch` sent at plane sample `k`; zero where none has left it. -/
def sentSlot (s : State) (ch k : Nat) : Word :=
  let p := tabGet (0, []) ch s.aud.past
  if k ≤ p.1 then (nth? p.2 (p.1 - k)).getD 0 else 0

/-- An ESSENCE 2 or 3 packet (R333, R334): the packet time that ended last, of the channels of an output, or from AUD_BASE on. -/
def audioPacket (s : State) (e : FlowEntry) (n : Nat) : RtpPkt :=
  let rate := planeRate s
  let k := s.now / max 1 (e.ptime * tickUs) - 1
  let m := rate * e.ptime / 1000000
  let ch := if e.port = 0xFFFF then e.audBase else 32 * n + e.audFirst - 1
  let ss := (upto (k * m) m).map fun j => (upto ch e.audCount).map fun c =>
    let w := sentSlot s c j
    if e.essence = 2 then fld w 8 24 else w.toNat
  { version := 2, headerLen := 12, udpLen := 12 + (if e.essence = 2 then 3 else 4) * m * e.audCount, pt := e.pt, marker := false, seq := k % 65536,
    timestamp := k * m % 2 ^ 32, ssrc := e.ssrc, body := .audio ss }

/-- An ESSENCE 4 packet (R333, R335): the ANC packets of the frame emitted last, none where it had none. -/
def ancPacket (s : State) (e : FlowEntry) (n : Nat) (f : PortFmt) : RtpPkt :=
  let t := outTrack s n
  let k := t.ancFrame
  { version := 2, headerLen := 12, udpLen := 20 + sumL (t.ancLast.map fun p => 4 + p.2.bytes), pt := e.pt, marker := true, seq := k % 65536,
    timestamp := mediaClock 90000 (rateStart (fmtRate f) k) % 2 ^ 32, ssrc := e.ssrc, body := .anc t.ancLast }

/-- An ESSENCE 5 datagram (R333, R336): 1,376 bytes of the output's SDI data stream. Its timestamp follows ST 2022-6, which the manual does not restate: an open value (log 3). -/
def wholePacket (s : State) (e : FlowEntry) (n : Nat) (f : PortFmt) (index : Nat) (stream : List Nat) : RtpPkt :=
  let k := (outTrack s n).frameNo
  { version := 2, headerLen := 12, udpLen := 20 + wholeBytes, pt := e.pt, marker := decide (index + 1 = wholePackets f), seq := (k * wholePackets f + index) % 65536,
    timestamp := freeValue s % 2 ^ 32, ssrc := e.ssrc,
    body := .whole (k % 256) ((stream ++ List.replicate wholeBytes 0).take wholeBytes) }

/-- The packet of a send leg that falls due, where its essence has passed the emission point (R331 to R336), with true where it carries a line replaced because of an internal fault. -/
def duePacket (s : State) (f : Nat) (e : FlowEntry) (blue : Bool) (index : Nat) (stream : List Nat) : Option (RtpPkt × Bool) :=
  let n := sendPort s e blue
  if e.essence = 2 ∨ e.essence = 3 then some (audioPacket s e n, false)
  else match flowFmt s f e with
    | none => none
    | some x =>
      if e.essence = 1 then videoPacket s e n x index
      else if e.essence = 4 then some (ancPacket s e n x, false)
      else some (wholePacket s e n x index stream, false)

/-- A media packet in its frame, with the leg's addresses (R305, R327). -/
def mediaFrame (f : Nat) (e : FlowEntry) (blue : Bool) (r : RtpPkt) : SendFrame :=
  let l := if blue then e.blue else e.red
  let v6 := nbit e.flags 1
  { len := max 64 (rtpOverhead v6 l + rtpBodyLen e r.body), cls := e.cls, leg := some (f, blue), tsInsert := false, t0 := 0, v6 := v6, udpSum := 0, pad := 0,
    correction := 0, media := some { v6 := v6, leg := l, rtp := r } }

/-- A packet of a send leg falls due (R331, R337, R351, R352; 15_the_pair.md R580, R581): sent on the leg's channel, or held back by a unit that does not send the colour or that withholds the line. -/
def flowDue (g f : Nat) (blue : Bool) (index : Nat) (stream : List Nat) (s : State) : State :=
  match flowEntry? s f with
  | none => s
  | some e =>
    let a := Reg.flowStatus f
    if flowReceives f ∨ legChannel (if blue then e.blue else e.red) ≠ g then s
    else if mediaSilent s then setTx f e true false (setTx f e false false s)
    else match duePacket s f e blue index stream with
      | none => s
      | some (r, withheld) =>
        let s := if e.essence = 5 then useFree s else s
        if flowEngineDown s f || withheld || !getB s a (if blue then 13 else 12) then count (Reg.flowTxHeld f) s
        else ethDue g { frame := mediaFrame f e blue r, htx := none } s

/-- What falls due on a channel (R310): a packet of a send leg, or a frame of the host. -/
def sendDue (g : Nat) (d : SendDue) (s : State) : State :=
  match d with
  | .packet f blue index stream => flowDue g f blue index stream s
  | .host fr => ethDue g { frame := { fr with cls := 3, leg := none, media := none }, htx := none } s

/-! ## PAUSE and links -/

/-- A valid PAUSE of `q` quanta (R308): a running timer is reloaded; zero ends the pause. -/
def pauseReceived (g q : Nat) (s : State) : State :=
  let s := ethSettle g s
  let t := ethTrack s g
  let t := if q = 0 then { t with pauseEnd := none, drainAt := if t.pauseEnd.isSome then ethNow s else t.drainAt }
    else { t with pauseEnd := some (ethNow s + q * ethQuantum s g) }
  ethFlag g 2 (ethSettle g (putEth g t (ethStat g 9 1 s)))

/-- Quanta left of a running pause (R317). -/
def pauseLeft (s : State) (g : Nat) : Nat :=
  match (ethTrack s g).pauseEnd with
  | some e => ceilDiv (e - ethNow s) (ethQuantum s g)
  | none => 0

/-- LINK_UP of channel `g` set (R303), with its record. -/
def setLink (g : Nat) (up : Bool) (s : State) : State :=
  let a := Reg.ethPortStatus (g / 4)
  if getB s a (4 + g % 4) = up then s
  else raiseState (Src.eth g) noInst a (rd s a) (putB a (4 + g % 4) up s)

/-- A channel comes up (R303): codeword lock, no high symbol error ratio. -/
def linkComesUp (g : Nat) (s : State) : State :=
  let a := Reg.ethPortStatus (g / 4)
  if ethAllowed s g then setLink g true (putB a (12 + g % 4) false (putB a (8 + g % 4) true s)) else s

/-- A channel goes down (R314). Which of R303's conditions failed is not said: FEC_LOCK and HI_SER take open values (log 3). -/
def linkGoesDown (g : Nat) (s : State) : State :=
  if ethUp s g = false then s
  else
    let s := ethSettle g s
    let t := ethTrack s g
    let a := Reg.ethPortStatus (g / 4)
    let s := putB a (12 + g % 4) (nbit (freeValue s) 1) (putB a (8 + g % 4) (nbit (freeValue s) 0) s)
    let s := t.pbuf.foldl (fun s q => ethDiscard g q s) (useFree s)
    let s := ethLevels g (putEth g { ethTrack s g with pbuf := [], pauseEnd := none } s)
    setLink g false (putB (Reg.ethChStatus g) 4 true s)

/-- A port at a change-over (R300, R301, R316): mode, colour and use from the configuration in force; a port whose mode or use changes takes its links down first. -/
def setupEth (p : Nat) (s : State) : State :=
  let a := Reg.ethPortStatus p
  let c := s.plan.cfg.eths.find? fun e => decide (e.port = p)
  let used := c.isSome && decide (modeNow s ≠ 0) && decide (modeNow s ≠ 5) && decide (modeNow s ≠ 6)
  let brk := match c with | some e => e.breakout | none => false
  let same := decide (getB s a 2 = used) && decide (getB s a 0 = brk)
  let s := if same then s else (upto (4 * p) 4).foldl (fun s g => linkGoesDown g s) s
  putB a 2 used (putB a 1 (decide (2 ≤ p % 4)) (putB a 0 brk s))

/-- A write of `ETH_PORT_CTRL[p]` (R318). -/
def ethCtrl (p : Nat) (enable loopback : Bool) (s : State) : State :=
  let a := Reg.ethPortCtrl p
  let s := if loopback = getB s a 1 then s
    else if modeNow s = 5 then putB a 1 loopback s else putB (Reg.ethPortStatus p) 3 true s
  let s := putB a 0 enable s
  if enable then s else (upto (4 * p) 4).foldl (fun s g => linkGoesDown g s) s

/-! ## Receiving (R305 to R307) -/

/-- The PTP port whose enabled candidate is on channel `g` (14_timebase_and_ptp.md R539): 0 for PTP_RED, 1 for PTP_BLUE. -/
def ptpOn (s : State) (g : Nat) : Option Nat :=
  [0, 1].find? fun k =>
    match tabFind (k + 3) s.ref.conf with
    | some e => nbit e.flags 0 && decide (nfld e.hoQl 0 4 * 4 + nfld e.hoQl 4 2 = g)
    | none => false

/-- The class of a frame for the host (16_command_packets.md R627), when the channel delivers it. -/
def hostClassOf (s : State) (g : Nat) (f : EthFrame) (media : Bool) : Option Nat :=
  let t := ethTrack s g
  let c := match f.hostClass with
    | some k => if k < 6 then some k else none
    | none => none
  match c with
  | some k => if nbit t.classes k then some k else none
  | none => if nbit t.classes 6 && !media && decide (f.dstMac = t.ownMac) then some 6 else none

/-- A PTP message that R532 of 14_timebase_and_ptp.md discards: Pdelay, Signalling, Management, or another domain. -/
def ptpDiscarded (s : State) (k : Nat) (m : Nat × Nat) : Bool :=
  decide (m.1 = 2) || decide (m.1 = 3) || decide (m.1 = 10) || decide (m.1 = 12) || decide (m.1 = 13)
    || decide (m.2 ≠ (tabGet ptpPort0 k s.time.ptp).domain)

/-- A frame into the host queue (R307), and on into a posted buffer (16_command_packets.md R627); a frame for the supervisor is taken at once while the firmware serves. -/
def hostDeliver (g : Nat) (f : EthFrame) (cls : Nat) (ts : Option (Option Nat)) (s : State) : State :=
  if cls = 16 ∧ server s = 1 then s
  else
    let t := ethTrack s g
    hrxFill g 1 (putEth g { t with hostq := t.hostq ++ [(f, cls, ts)] } s)

/-- Malformed under the IP and UDP rules of R306; a frame that is not IP never is. -/
def ipMalformed (f : EthFrame) : Bool :=
  f.ip.elim false fun h =>
    (if h.v6 then decide (h.version ≠ 6) || h.otherExt else decide (h.version ≠ 4) || decide (h.ihl < 5) || !h.sumOk || h.fragment)
      || decide (h.space < h.ipLen)
      || (h.udp && (decide (h.udpLen ≠ h.udpIpLen) || ((h.v6 || decide (h.udpSum ≠ 0)) && (!h.udpSumOk || decide (h.udpSum = 0)))))

/-- The RTP header is malformed (R306). -/
def rtpMalformed (r : RtpPkt) : Bool := decide (r.version ≠ 2) || decide (r.udpLen < r.headerLen)

/-- A received frame, by the first check of R305 that applies. -/
def ethReceive (g : Nat) (f : EthFrame) (s : State) : State :=
  if ethUp s g = false then s
  else if f.fcsOk = false ∨ f.fecOk = false then ethStat g 4 1 s
  else if f.len < 64 then ethStat g 5 1 s
  else if 9216 < f.len then ethStat g 6 1 s
  else if f.etherType = 0x8808 then (if f.opcode = 1 then pauseReceived g f.quanta s else ethStat g 10 1 s)
  else if ipMalformed f then ethStat g 8 1 s
  else
    let t := ethTrack s g
    let media := flowMatch s g f
    let ptp := ptpOn s g
    let isPtp := f.hostClass == some 4
    let cls := hostClassOf s g f media.isSome
    let sup := ptp.isSome && isPtp
    let ts := if sup && decide (f.udpPort = 319) then t.sfd else none
    let s := if ts.isSome then putEth g { t with sfd := none } s else s
    if 1 < f.vlanTags ∨ (media = none ∧ cls = none ∧ sup = false) then ethStat g 7 1 s
    else if media.isSome ∧ rtpMalformed f.rtp then ethStat g 8 1 s
    else if (cls.isSome ∨ sup) ∧ 262144 < sumL (t.hostq.map fun e => e.1.len) + f.len then ethStat g 11 1 s
    else
      let s := ethStat g 1 f.len (ethStat g 0 1 s)
      let s := match media with
        | some (fl, blue) => flowPacket fl blue f.rtp s
        | none => s
      let s := match ptp, f.ptp with
        | some k, some m => if isPtp && ptpDiscarded s k m then count (Reg.ptpDiscard k) s else s
        | _, _ => s
      match cls with
      | some c => hostDeliver g f c ts s
      | none => if sup then hostDeliver g f 16 ts s else s

/-- Frames held for the supervisor go to the firmware once it serves again (R315). -/
def supervisorFrames (s : State) : State :=
  { s with eth := { s.eth with ch := tabMap (fun _ t => { t with hostq := t.hostq.filter hostBound }) s.eth.ch } }

/-! ## Commands -/

/-- ETH_FRAME_RECEIVED (R305). -/
def execEthFrameReceived (dt channel : Nat) (frame : EthFrame) (s : State) : Host.Outcome State Fault Refusal :=
  .next (only (decide (channel < 64)) (fun s => ethReceive channel frame s) (tick dt s))

/-- PAUSE_TIMER_EXPIRY (R308). -/
def execPauseTimerExpiry (dt channel : Nat) (s : State) : Host.Outcome State Fault Refusal := .next (only (decide (channel < 64)) (fun s => ethSettle channel s) (tick dt s))

/-- PAUSE_BUFFER_EMPTY (R312): the same settling, since draining ends with the frame that empties the buffer. -/
def execPauseBufferEmpty (dt channel : Nat) (s : State) : Host.Outcome State Fault Refusal := .next (only (decide (channel < 64)) (fun s => ethSettle channel s) (tick dt s))

/-- SEND_FRAME_DUE (R310). -/
def execSendFrameDue (dt channel : Nat) (due : SendDue) (s : State) : Host.Outcome State Fault Refusal :=
  .next (only (decide (channel < 64)) (fun s => sendDue channel due s) (tick dt s))

/-- ETH_LINK_UP (R303). -/
def execEthLinkUp (dt channel : Nat) (s : State) : Host.Outcome State Fault Refusal := .next (only (decide (channel < 64)) (fun s => linkComesUp channel s) (tick dt s))

/-- ETH_LINK_DOWN (R314). -/
def execEthLinkDown (dt channel : Nat) (s : State) : Host.Outcome State Fault Refusal := .next (only (decide (channel < 64)) (fun s => linkGoesDown channel s) (tick dt s))

/-- LOOPBACK written (R318): accepted only in SERVICE. -/
def ethLoopback (p : Nat) (on : Bool) (s : State) : State :=
  if modeNow s = 5 then putB (Reg.ethPortCtrl p) 1 on s else putB (Reg.ethPortStatus p) 3 true s

/-- The entries announced by a write of `HTX_TAIL` (16_command_packets.md R626): each enters its channel's transmit path, as class 3, in ring order. -/
def htxAnnounce (s : State) (d : HtxDesc) : State :=
  let n := ringSize s 8
  let i := (getF s Reg.htxHead 0 12 + s.cmd.htx.length) % n
  let s := { s with cmd := { s.cmd with htx := s.cmd.htx ++ [(i, false)] } }
  if 64 ≤ d.channel then htxDone (some i) 1 s
  else ethDue d.channel { frame := { len := d.len + 4, cls := 3, leg := none, tsInsert := d.tsInsert, t0 := d.t0, v6 := d.v6, udpSum := d.udpSum, pad := d.pad,
                                     correction := d.correction, media := none },
                          htx := some i } s

/-- `HTX_TAIL` written: the frames enter their channels' transmit paths while HFR_EN is 1 and the link is up. -/
def htxTail (tail : Nat) (frames : List HtxDesc) (s : State) : State :=
  let s := putF Reg.htxTail 0 12 tail s
  if getB s Reg.cmdCtrl 1 && s.pins.pcieUp then frames.foldl htxAnnounce s else s

/-- HTX_TAIL_WRITE (16_command_packets.md R626). -/
def execHtxTailWrite (dt tail : Nat) (frames : List HtxDesc) (s : State) : Host.Outcome State Fault Refusal :=
  .next (only true (htxTail tail frames) (tick dt s))

/-- HRX_TAIL_WRITE (16_command_packets.md R627). -/
def execHrxTailWrite (dt tail : Nat) (s : State) : Host.Outcome State Fault Refusal :=
  .next (only true (fun s => hrxFillAll (putF Reg.hrxTail 0 12 tail s)) (tick dt s))

end Sys2Proof.Machine
end

