-- ==== Sys2Proof/Machine/Settings.lean ====
section
/-! DEFINITION. The settings store (18_start_and_update.md R678 to R682, R689). -/

namespace Sys2Proof.Machine

/-! ## Slots (R679 to R681) -/

/-- The slot is valid and confirmed (R680). -/
def slotConfirmed (x : Option SetSlot) : Bool := (x.map fun y => y.valid && y.conf.isSome).getD false

def slotGen (x : Option SetSlot) : Nat := (x.map SetSlot.gen).getD 0

/-- The current slot is B: the confirmed slot with the higher GEN (R681). -/
def currentB (f : FlashState) : Bool :=
  slotConfirmed f.slotB && (!slotConfirmed f.slotA || decide (slotGen f.slotA < slotGen f.slotB))

/-- A confirmed slot exists. -/
def currentValid (f : FlashState) : Bool := slotConfirmed f.slotA || slotConfirmed f.slotB

/-- The current slot, where a confirmed one exists. -/
def currentSlot (f : FlashState) : Option SetSlot :=
  if currentValid f then (if currentB f then f.slotB else f.slotA) else none

/-- The alternate slot. -/
def alternateSlot (f : FlashState) : Option SetSlot := if currentB f then f.slotA else f.slotB

def slotOf? (b : Bool) (f : FlashState) : Option SetSlot := if b then f.slotB else f.slotA

def putSlotB (b : Bool) (x : Option SetSlot) (f : FlashState) : FlashState := if b then { f with slotB := x } else { f with slotA := x }

/-- A slot becomes `x` by a write or erase that ends after an open time, behind those under way; until then it holds `during` (R683; log 30). -/
def flashWrite (b : Bool) (during x : Option SetSlot) (s : State) : State :=
  let f := s.flash
  let ops := f.ops.filter fun o => decide (s.mono < o.stop)
  let start := (ops.getLast?).elim s.mono FlashOp.stop
  let o : FlashOp := { slotB := b, start := start, stop := start + freeValue s, before := slotOf? b f, during := during }
  useFree { s with flash := { putSlotB b x f with ops := ops ++ [o] } }

/-- A slot written anew: not valid until the write has ended. -/
def slotWrite (b : Bool) (x : SetSlot) (s : State) : State := flashWrite b (some { x with valid := false, conf := none }) (some x) s

/-- A slot erased: not valid as soon as the erase has begun. -/
def slotErase (b : Bool) (s : State) : State := flashWrite b ((slotOf? b s.flash).map fun x => { x with valid := false, conf := none }) none s

/-- The anti-rollback floor: writes that have ended count (R675, R683). -/
def otpFloor (s : State) : Nat := ((s.otp.rising.filter fun r => decide (r.1 ≤ s.mono)).map Prod.snd).foldl max s.otp.floor

/-- Power is lost: writes and erases that had not ended leave their slots as they stood (R683). -/
def flashCut (s : State) : State :=
  let back := fun (f : FlashState) (o : FlashOp) => if s.mono < o.stop then putSlotB o.slotB (if s.mono < o.start then o.before else o.during) f else f
  { s with flash := { (s.flash.ops.reverse).foldl back s.flash with ops := [] }
           otp := { s.otp with floor := otpFloor s, rising := [] } }

/-! ## The running firmware -/

/-- The bundle that runs: that of the bank at address zero (R687), while a firmware has started. -/
def runImage (s : State) : Option FwImage :=
  if server s = 0 then none else if getB s Reg.fwStatus 3 then s.fw.bankB else s.fw.bankA

def runDigest (s : State) : Nat := ((runImage s).map FwImage.digest).getD 0

def confirmed (s : State) : Bool := getB s Reg.fwStatus 4

/-- The slot that the running firmware would write (R679). -/
def newSlot (s : State) (conf : Option Nat) : SetSlot :=
  { valid := true, format := ((runImage s).map FwImage.format).getD 0, gen := slotGen (currentSlot s.flash) + 1,
    writerVer := ((runImage s).map FwImage.version).getD 0, writerDigest := runDigest s, conf := conf, body := s.fw.settings }

/-- The slot holds settings of the running firmware that are not confirmed (R682, 1). -/
def ownUnconfirmed (s : State) (x : SetSlot) : Bool := x.valid && x.conf.isNone && decide (x.writerDigest = runDigest s)

/-- `SET_STATUS` (R689) written anew; FLASH_OK stands for a flash of 32 to 256 MiB (R678). -/
def setStatus (s : State) : State :=
  let f := s.flash
  let alt := match alternateSlot f with
    | none => 0
    | some x => if ownUnconfirmed s x then 1 else 2
  let ok := decide (32 ≤ f.mib) && decide (f.mib ≤ 256)
  let a := Reg.setStatus
  let s := putB a 0 (currentB f) (putB a 1 (currentValid f) (putF a 2 2 alt (putB a 5 ok s)))
  putF a 16 16 (slotGen (currentSlot f)) (putF a 8 8 (f.mib / 8) s)

/-- `SET_STATUS` as it reads: ALT is 3 while the alternate slot is being written (R689). -/
def setStatusRead (s : State) : Word :=
  if s.flash.ops.any fun o => decide (o.slotB ≠ currentB s.flash) && decide (s.mono < o.stop) then setFld (rd s Reg.setStatus) 2 2 3 else rd s Reg.setStatus

/-- The flash can be written. -/
def flashOk (s : State) : Bool := decide (32 ≤ s.flash.mib) && decide (s.flash.mib ≤ 256)

/-- The running firmware writes its settings (R681): a confirmed one the alternate slot with its record, then erasing the old slot; an unconfirmed one the alternate slot without a record. -/
def writeSettings (s : State) : State :=
  if flashOk s = false then s
  else
    let b := !currentB s.flash
    if confirmed s then setStatus (slotErase (!b) (slotWrite b (newSlot s (some (runDigest s))) s))
    else setStatus (slotWrite b (newSlot s none) s)

/-- A setting changed and saved. -/
def saveSettings (g : Settings → Settings) (s : State) : State :=
  writeSettings { s with fw := { s.fw with settings := g s.fw.settings } }

/-- `FW_CONFIRM` step 1 (R675): the confirmation record is written into the firmware's settings slot. The slot is its alternate one, written now where it holds none of this firmware's. -/
def confirmSlot (s : State) : State :=
  if flashOk s = false then s
  else
    let b := !currentB s.flash
    match (alternateSlot s.flash).filter (ownUnconfirmed s) with
    | some x => flashWrite b (some x) (some { x with conf := some (runDigest s) }) s
    | none => slotWrite b (newSlot s (some (runDigest s))) s

/-- Settings chosen at START_OK (R682): the firmware's own unconfirmed alternate slot, the current slot where its FORMAT is read, or defaults, which are written and reported. -/
def chooseSettings (s : State) : State :=
  let own := (alternateSlot s.flash).filter (ownUnconfirmed s)
  let cur := match currentSlot s.flash with
    | some x => if x.format ∈ ((runImage s).map FwImage.formats).getD [] then some x else none
    | none => none
  match own, cur with
  | some x, _ => setStatus { s with fw := { s.fw with settings := x.body } }
  | none, some x =>
    setStatus { s with fw := { s.fw with settings := x.body } }
  | none, none =>
    let s := { s with fw := { s.fw with settings := settings0 } }
    let s := writeSettings s
    flagEvent Src.settings noInst Reg.setStatus 4 s

end Sys2Proof.Machine
end

