-- ==== Sys2Proof/Machine/Ref.lean ====
section
/-! DEFINITION. Reference selection and holdover (12_reference_selection.md). Phases and offsets are taken in nanoseconds, frequencies in 10⁻¹². -/

namespace Sys2Proof

/-- ENABLE of a candidate's entry (R497). -/
def RefEntry.enabled (e : RefEntry) : Bool := e.flags % 2 == 1

/-- PRIO of a candidate's entry (R497). -/
def RefEntry.prio (e : RefEntry) : Nat := e.holdoff

/-- QL_CFG of a candidate's entry (R497). -/
def RefEntry.qlCfg (e : RefEntry) : Nat := e.drift

/-- FMT of a candidate's entry (R497). -/
def RefEntry.fmt (e : RefEntry) : Nat := e.driftTime

/-- ACQ_BW of a candidate's entry (R497). -/
def RefEntry.acqBw (e : RefEntry) : Nat := e.slew

/-- TRK_BW of a candidate's entry (R497). -/
def RefEntry.trkBw (e : RefEntry) : Nat := e.realign

/-- CHANNEL of a candidate's entry (R497). -/
def RefEntry.channel (e : RefEntry) : Nat := e.hoQl

end Sys2Proof

namespace Sys2Proof.Machine

/-! ## Configuration (R495 to R498) -/

/-- Default of an entry (R488, R496, R497): entry 0 is global, entry k + 1 that of candidate k; `hoQl` is CHANNEL in a candidate's entry. -/
def refDefault (n : Nat) : RefEntry :=
  let k := n - 1
  if n = 0 then
    { flags := 1, holdoff := 10, drift := 250, driftTime := 30, slew := 200, realign := 10000, hoQl := 10, xoQl := 2, hoLimit := 3600,
      delayComp := 0, zeroOk := true }
  else
    { flags := 0, holdoff := k, drift := if k < 2 then 12 else 15, driftTime := 0,
      slew := if k < 2 then 10000 else if k < 4 then 1000 else 100000, realign := if k < 2 then 1000 else if k < 4 then 10 else 10000,
      hoQl := 0, xoQl := 0, hoLimit := 0, delayComp := 0, zeroOk := true }

def refEntry (s : State) (n : Nat) : RefEntry := tabGet (refDefault n) n s.ref.conf

/-- The global entry. -/
def refG (s : State) : RefEntry := refEntry s 0

/-- The entry of candidate `k`, with names for its fields. -/
def candE (s : State) (k : Nat) : RefEntry := refEntry s (k + 1)

def inRange (lo hi v : Nat) : Bool := decide (lo ≤ v) && decide (v ≤ hi)

/-- Every field of the global entry lies in its range (R496). -/
def refGlobalOk (e : RefEntry) : Bool :=
  decide (e.flags < 4) && inRange 1 600 e.holdoff && inRange 10 10000 e.drift && inRange 10 300 e.driftTime && inRange 1 1000 e.slew
    && inRange 10 499999999 e.realign && inRange 1 15 e.hoQl && inRange 1 15 e.xoQl && inRange 60 65535 e.hoLimit

/-- The input trunks that the trunk map in force marks REF, in ascending order (R461; 06_trunk_framing.md R277). -/
def refTrunks (c : List TrunkEntry) : List Nat :=
  (upto 0 72).filter fun t => c.any fun e => decide (e.kind = 2) && decide (e.trunk = t) && decide (e.dir = 0) && nbit e.w6 1

/-- The input trunk of candidate TRK_LO or TRK_HI. -/
def refTrunk (s : State) (k : Nat) : Option Nat := nth? (refTrunks (trunkEntries s.plan.committed s.plan.cfg.mode)) (k - 4)

/-- The mode runs Ethernet channel `k` of port `e` (07_ethernet_ports.md R301). -/
def ethChanRun (c : ModeCfg) (p k : Nat) : Bool := c.eths.any fun e => decide (e.port = p) && (decide (k = 0) || e.breakout)

/-- The frame rate of a REF format belongs to the family of HOUSE_RATE, given by its denominator, 0 without a plan (R463). -/
def refFmtOk (den fmt : Nat) : Bool := decide (den = 0) || (if fmt = 1 then decide (den % 1001 = 0) else decide (fmt ≠ 2 ∨ den % 1001 ≠ 0))

/-- Every field of candidate `k`'s entry is allowed by R463, R488, R497 and R498, with the denominator of HOUSE_RATE, the trunks marked REF and the mode's configuration. -/
def refCandOk (den : Nat) (trunks : List Nat) (c : ModeCfg) (k : Nat) (e : RefEntry) : Bool :=
  let p := e.channel % 16
  decide (e.flags < 2) && decide (e.prio < 8) && inRange 1 15 e.qlCfg && decide (e.fmt ≤ if k < 2 then 4 else 0) && refFmtOk den e.fmt
    && inRange 1 200000 e.acqBw && inRange 1 e.acqBw e.trkBw && decide (e.delayComp.natAbs ≤ 1000000)
    && (if k = 2 ∨ k = 3 then
          decide (e.channel < 64) && (!e.enabled || (decide (p % 4 / 2 = k - 2) && ethChanRun c p (e.channel / 16)))
        else decide (e.channel = 0))
    && (decide (k ≠ 4 ∧ k ≠ 5) || !e.enabled || decide (k - 4 < trunks.length))

/-- No two enabled candidates share a PRIO (R498). -/
def refPrioOk (conf : Tab RefEntry) : Bool :=
  let on := ((upto 0 7).map fun k => tabGet (refDefault (k + 1)) (k + 1) conf).filter RefEntry.enabled
  on.all fun e => decide ((on.filter fun x => decide (x.prio = e.prio)).length = 1)

/-- A whole configuration is allowed (R498). -/
def refConfOk (den : Nat) (trunks : List Nat) (c : ModeCfg) (conf : Tab RefEntry) : Bool :=
  refGlobalOk (tabGet (refDefault 0) 0 conf) && refPrioOk conf
    && (upto 0 8).all fun k => decide (k = 7) || refCandOk den trunks c k (tabGet (refDefault (k + 1)) (k + 1) conf)

/-! ## Candidates (R461 to R468) -/

def candA (k : Nat) : Nat := Reg.refCandStatus k

def candState (s : State) (k : Nat) : Nat := getF s (candA k) 0 3

/-- STATE of a candidate (R468), with a record when it changes. -/
def setCand (k v : Nat) (s : State) : State := stateEvent (Src.cand k) noInst (candA k) 0 3 v s

/-- QL in use (R462). -/
def qlUse (s : State) (k : Nat) : Nat :=
  if k < 2 then (candE s k).qlCfg
  else if k = 7 then (refG s).xoQl
  else min (getF s (candA k) 8 4) (candE s k).qlCfg

/-- R466: MIRROR can be used by a standby unit, while the partner has not selected MIRROR. -/
def mirrorUsable (s : State) : Bool := isStandby s && !nbit s.pair.peerFlags 0

/-- R474. -/
def candUsable (s : State) (k : Nat) : Bool :=
  decide (k < 7) && decide (candState s k = 3) && decide (1 ≤ qlUse s k) && (decide (k ≠ 6) || mirrorUsable s)

def refState (s : State) : Nat := getF s Reg.refStatus 0 2

/-- Candidate `a` goes before candidate `b` (R475). -/
def candBefore (s : State) (a b : Nat) : Bool :=
  decide (qlUse s b < qlUse s a) || (decide (qlUse s a = qlUse s b) && decide ((candE s a).prio < (candE s b).prio))

/-- The candidate to be selected (R475, R476); none while XO_27 is absent (13_plls_and_clock_islands.md R520). -/
def refPick (s : State) : Option Nat :=
  let us := (upto 0 7).filter (candUsable s)
  if s.pins.xoOk = false then none
  else match us with
    | [] => none
    | u :: r =>
      let best := r.foldl (fun b x => if candBefore s x b then x else b) u
      let rule := match s.ref.sel with
        | some x => if (refG s).flags % 2 = 0 ∧ x ∈ us ∧ qlUse s best ≤ qlUse s x then x else best
        | none => best
      match s.ref.force with
      | some f => if f ∈ us then some f else some rule
      | none => some rule

/-! ## Phase offset (R480 to R484) -/

/-- Units of O in a nanosecond. -/
def ofsNs : Int := 10 * (tickSec : Int)

/-- A number moved towards zero by `d`. -/
def towardsZero (x : Int) (d : Nat) : Int := if 0 ≤ x then max 0 (x - d) else min 0 (x + d)

/-- O at the present (R481): it moves at SLEW in LOCKED and stands still in WAITING. -/
def refOfs (s : State) : Int :=
  if refState s = 1 then towardsZero s.ref.ofs ((s.mono - s.ref.ofsAt) * (refG s).slew)
  else if refState s = 3 then s.ref.ofs else 0

/-- O set as of the present. -/
def setOfs (o : Int) (s : State) : State :=
  putB Reg.refStatus 2 (decide (o ≠ 0)) { s with ref := { s.ref with ofs := o, ofsAt := s.mono } }

/-- P of REF_A and REF_B (R463), in units of O. -/
def refPeriod (s : State) (fmt : Nat) : Nat :=
  match fmt with
  | 1 => 10000000000 * tickSec * 1001 / 30000
  | 2 => 10000000000 * tickSec / 25
  | _ => 10000000000 * tickSec * (houseRate s).2 / (houseRate s).1

/-- Δ of candidate `k` in units of O (R480), reduced into (−P/2, P/2] for REF_A and REF_B. -/
def refDelta (s : State) (k : Nat) (ns : Int) : Int :=
  let d := ns * ofsNs
  if k < 2 then
    let p : Int := max 1 (refPeriod s (candE s k).fmt)
    let m := d % p
    if p < 2 * m then m - p else m
  else d

/-- A full-time candidate (R461). -/
def fullTime (k : Nat) : Bool := decide (2 ≤ k) && decide (k ≤ 6)

/-! ## The timebase (R475 to R492) -/

/-- Output QL (R479, R492). -/
def outQl (s : State) : Nat :=
  let g := refG s
  match refState s with
  | 0 => g.xoQl
  | 1 => (s.ref.sel.map (qlUse s)).getD 0
  | 2 => if s.ref.hoAt + g.hoLimit * tickSec ≤ s.mono then g.xoQl else min s.ref.lastQl g.hoQl
  | _ => min ((s.ref.sel.map (qlUse s)).getD 0) g.hoQl

/-- QL, PRIO and SELECTED of every candidate, and OUT_QL and SELECTED of the timebase, written anew (R500, R501). -/
def refRefresh (s : State) : State :=
  let s := (upto 0 8).foldl (fun s k =>
    putB (candA k) 3 (decide (s.ref.sel = some k)) (putF (candA k) 4 4 (qlUse s k) (putF (candA k) 12 3 (candE s k).prio s))) s
  putF Reg.refStatus 8 4 (outQl s) (putF Reg.refStatus 4 3 (s.ref.sel.getD 0) s)

/-- The timebase enters a state, with a record of the change (R479). -/
def refEnter (v : Nat) (s : State) : State := stateEvent Src.timebase noInst Reg.refStatus 0 2 v s

/-- The loop starts at ACQ_BW (R489, R490). -/
def loopStart (k : Nat) (s : State) : State :=
  let b := (candE s k).acqBw
  let s := { s with ref := { s.ref with bw := (b, 0), bwAt := s.mono } }
  putF Reg.refStatus 12 2 0 (wr Reg.refBw (BitVec.ofNat 32 (b % 2 ^ 28)) s)

/-- The candidate selected is written, with the count and the flag of R477. -/
def refTake (k : Nat) (s : State) : State :=
  let s := { s with ref := { s.ref with sel := some k, leftFree := true, everSel := true } }
  count Reg.refSwitches (loopStart k s)

/-- A new selection of candidate `k` with its measured Δ in ns (R477, R480 to R484, R487). -/
def refSelect (k : Nat) (ns : Int) (s : State) : State :=
  let g := refG s
  let d := refDelta s k ns
  let first := decide (modeNow s = 0) && !s.ref.everSel
  let wait := !first && decide (g.realign * ofsNs < d.natAbs) && (nbit g.flags 1 || decide (500000000 * ofsNs ≤ d.natAbs))
  let s := refTake k s
  let s := refEnter (if wait then 3 else 1) s
  let s := if first then
      let s := { s with now := ((s.now : Int) + d / 10000000000).toNat }
      setOfs 0 (if fullTime k then putB Reg.tmbStatus 0 true s else s)
    else setOfs d s
  refRefresh (flagEvent Src.timebase noInst Reg.refStatus 16 s)

/-- Mean of a list of numbers. -/
def meanOf (l : List Int) : Int := l.foldl (· + ·) 0 / max 1 (l.length : Int)

/-- No candidate is usable (R478, R484, R491): HOLDOVER with the mean rate of up to 100 s of trusted LOCKED, or FREERUN where there are fewer than 10 s; O is discarded. -/
def refHold (s : State) : State :=
  let fs := s.ref.freqs.take 100
  let ql := (s.ref.sel.map (qlUse s)).getD 0
  let s := putB Reg.refStatus 14 false (setOfs 0 s)
  let s := { s with ref := { s.ref with sel := none, hoAt := s.mono, lastQl := ql } }
  let s := if fs.length < 10 then refEnter 0 s
    else refEnter 2 (wr Reg.refHoFreq (BitVec.ofNat 32 (satTwos 32 (meanOf fs))) s)
  refRefresh s

/-- The timebase selects again (R475 to R478); `d` gives the Δ of each candidate, for the one that is newly selected. -/
def reselect (d : Nat → Int) (s : State) : State :=
  match refPick s with
  | none => if s.ref.sel.isSome then refHold s else refRefresh s
  | some k => if s.ref.sel = some k then refRefresh s else refSelect k (d k) s

/-- Δ from the phases that a command brings. -/
def candPhase (l : List Int) (k : Nat) : Int := (nth? l k).getD 0

/-- Selection where no phase is brought: the Δ measured is an open value (log 29). -/
def reselectFree (s : State) : State :=
  let d : Int := ((freeValue s % 2 ^ 33 : Nat) : Int) - 2 ^ 32
  reselect (fun _ => d) (if (refPick s).isSome ∧ refPick s ≠ s.ref.sel then useFree s else s)

/-! ## Qualification (R464, R468 to R473) -/

/-- Seconds of a hold-off (R469). -/
def holdSecs (s : State) : Nat := if s.ref.leftFree then (refG s).holdoff else 1

/-- A hold-off starts (R469). -/
def holdStart (k : Nat) (s : State) : State :=
  { s with ref := { s.ref with holdEnd := tabPut k (s.mono + holdSecs s * tickSec) s.ref.holdEnd } }

def holdStop (k : Nat) (s : State) : State := { s with ref := { s.ref with holdEnd := tabErase k s.ref.holdEnd } }

/-- A change of presence raises a record even where STATE does not change (R464). -/
def presenceEvent (k : Nat) (f : State → State) (s : State) : State :=
  let t := f s
  if candState t k = candState s k then raiseState (Src.cand k) noInst (candA k) (rd s (candA k)) t else t

/-- A present candidate in ABSENT enters HOLDOFF, while the firmware qualifies (R469, R494). -/
def candQualify (k : Nat) (s : State) : State :=
  if server s = 1 ∧ k ∈ s.ref.present ∧ candState s k = 1 then setCand k 2 (putF (Reg.refCandTimer k) 16 16 0 (holdStart k s)) else s

/-- A candidate becomes present (R464, R466). -/
def candPresent (k : Nat) (s : State) : State :=
  if k ∈ s.ref.present ∨ (k = 6 ∧ (mirrorUsable s && getB s Reg.pairStatus 4) = false) then s
  else presenceEvent k (fun s => candQualify k { s with ref := { s.ref with present := s.ref.present ++ [k] } }) s

/-- A candidate is lost (R464); a PTP candidate's loss is not seen while the firmware is away (R494). -/
def candLost (k : Nat) (d : Nat → Int) (s : State) : State :=
  if k ∉ s.ref.present ∨ ((k = 2 ∨ k = 3) ∧ server s ≠ 1) then s
  else
    let s := presenceEvent k (fun s =>
      let s := holdStop k { s with ref := { s.ref with present := setDel k s.ref.present } }
      let s := putB (candA k) 16 true (putF (Reg.refCandTimer k) 16 16 0 s)
      if candState s k = 0 then s else setCand k 1 s) s
    reselect d s

/-- The presence monitors of REF_A and REF_B go on in the line side while the logic side is off (21_supplies_and_thermal.md R731; 17_event_queue.md R653). -/
def candOff (k : Nat) (on : Bool) (s : State) : State :=
  if decide (k ∈ s.ref.present) = on then s
  else raiseState (Src.cand k) noInst (candA k) (rd s (candA k)) { s with ref := { s.ref with present := setPut k on s.ref.present } }

/-- A change of a candidate's presence. -/
def candChange (k : Nat) (on : Bool) (f : State → State) (s : State) : State :=
  if powered s then only (decide (k < 7)) f s else lineOnly (decide (k < 2)) (candOff k on) s

/-- A hold-off ends (R469). -/
def holdExpire (k : Nat) (d : Nat → Int) (s : State) : State :=
  match tabFind k s.ref.holdEnd with
  | none => s
  | some e =>
    if candState s k = 2 ∧ e ≤ s.mono ∧ server s = 1 then reselect d (setCand k 3 (putF (Reg.refCandTimer k) 16 16 0 (holdStop k s)))
    else s

/-- Samples taken from the first of the evaluations that led to a disqualification on are not trusted (R491). -/
def distrust (n : Nat) (s : State) : State := { s with ref := { s.ref with freqs := s.ref.freqs.drop n } }

/-- One candidate at an evaluation (R470 to R472). -/
def driftCand (ofs xo : List Int) (s : State) (k : Nat) : State :=
  if k ∉ s.ref.present then s
  else
    let s := wr (Reg.refCandOfs k) (BitVec.ofNat 32 (satTwos 32 (candPhase ofs k))) s
    let s := wr (Reg.refCandXo k) (BitVec.ofNat 32 (satTwos 32 (candPhase xo k))) s
    let g := refG s
    let own := decide (s.ref.sel = some k) || decide (refState s = 2) || decide (refState s = 0)
    let out := decide (g.drift * 10000 < (candPhase (if own then xo else ofs) k).natAbs)
    let n := if out then min 65535 (getF s (Reg.refCandTimer k) 16 16 + 1) else 0
    let s := putF (Reg.refCandTimer k) 16 16 n s
    match candState s k with
    | 2 => if out then holdStart k s else s
    | 3 =>
      if g.driftTime ≤ n then
        let s := if s.ref.sel = some k then distrust (g.driftTime - 1) s else s
        setCand k 4 (putB (candA k) 17 true s)
      else s
    | 4 => if out then s else setCand k 2 (holdStart k s)
    | _ => s

/-- The evaluation of the 10 s averages (R470), which the firmware runs (R494). -/
def driftEval (ofs xo : List Int) (freq : Int) (d : Nat → Int) (s : State) : State :=
  if server s ≠ 1 then s
  else
    let s := if refState s = 1 then { s with ref := { s.ref with freqs := (freq :: s.ref.freqs).take 400 } } else s
    reselect d ((upto 0 7).foldl (driftCand ofs xo) s)

/-- A candidate jumps (R473). -/
def candJump (k : Nat) (d : Nat → Int) (s : State) : State :=
  let sel := decide (s.ref.sel = some k)
  if k ∉ s.ref.present ∨ (candState s k ≠ 2 ∧ candState s k ≠ 3) ∨ (server s ≠ 1 ∧ sel = false) then s
  else
    let s := putB (candA k) 18 true s
    let s := if sel then putB (candA k) 16 true s else s
    reselect d (setCand k 2 (putF (Reg.refCandTimer k) 16 16 0 (holdStart k s)))

/-- A received or mapped QL of a candidate (R462, R465, R291); a change of the QL in use makes the timebase select again (R477). While the firmware is away only a trunk's QL changes (R494). -/
def candQl (k ql : Nat) (s : State) : State :=
  if getF s (candA k) 8 4 = ql ∨ (server s ≠ 1 ∧ k ≠ 4 ∧ k ≠ 5) then s else reselectFree (putF (candA k) 8 4 ql s)

/-- QL of the trunk candidates from the trunks' passed QL (R291). -/
def trunkQl (n : Nat) (s : State) : State :=
  [4, 5].foldl (fun s k => if refTrunk s k = some n then candQl k (linkTrack s n).ql s else s) s

/-- What the firmware takes up again when it returns (R494): qualification, and a bridged PTP candidate. -/
def refResume (s : State) : State :=
  reselectFree (putB Reg.refStatus 14 false ((upto 0 7).foldl (fun s k => candQualify k s) s))

/-- The firmware goes away (R494): a selected PTP candidate is bridged. -/
def refBridge (s : State) : State :=
  if s.ref.sel = some 2 ∨ s.ref.sel = some 3 then putB Reg.refStatus 14 true s else s

/-! ## Loop bandwidth (R489, R490) -/

/-- Ticks for which the loop holds its present bandwidth: 4/B seconds, B in mHz. -/
def bwHold (s : State) : Nat := 4000 * 2 ^ s.ref.bw.2 * tickSec / max 1 s.ref.bw.1

/-- The loop measures its phase error and, where its hold time has passed, takes the next bandwidth. -/
def loopStep (err : Int) (s : State) : State :=
  match s.ref.sel with
  | none => s
  | some k =>
    let s := wr Reg.refPhaseErr (BitVec.ofNat 32 (satTwos 32 err)) s
    let loop := getF s Reg.refStatus 12 2
    if 500 < err.natAbs ∧ loop ≠ 0 then loopStart k s
    else if 50 < err.natAbs ∧ loop = 0 then { s with ref := { s.ref with bwAt := s.mono } }
    else if s.ref.bwAt + bwHold s ≤ s.mono ∧ loop ≠ 2 then
      let n := s.ref.bw.2 + 1
      let trk := (candE s k).trkBw
      let s := { s with ref := { s.ref with bw := (s.ref.bw.1, n), bwAt := s.mono } }
      if s.ref.bw.1 < trk * 2 ^ n then putF Reg.refStatus 12 2 2 (wr Reg.refBw (BitVec.ofNat 32 (trk % 2 ^ 28)) s)
      else putF Reg.refStatus 12 2 1 (wr Reg.refBw (BitVec.ofNat 32 (s.ref.bw.1 / 2 ^ n % 2 ^ 28)) s)
    else s

/-! ## PTP ports (14_timebase_and_ptp.md R534, R546, R548) -/

def putPtp (k : Nat) (t : PtpPort) (s : State) : State := { s with time := { s.time with ptp := tabSet ptpPort0 k t s.time.ptp } }

/-- PORT_STATE, with its record. -/
def ptpState (k v : Nat) (s : State) : State := stateEvent (Src.ptp k) noInst (Reg.ptpStatus k) 0 3 v s

/-- Ethernet channel of a PTP candidate (R497). -/
def ptpChannel (s : State) (k : Nat) : Nat := nfld (candE s (k + 2)).channel 0 4 * 4 + nfld (candE s (k + 2)).channel 4 2

/-- The receive offset of PTP port `k` in the calibration table of the running bundle, by its channel and the channel's mode (14_timebase_and_ptp.md R540). -/
def rxCal (s : State) (k : Nat) : Nat :=
  let g := ptpChannel s k
  let slow := s.plan.cfg.eths.any fun e => decide (e.port = g / 4) && e.breakout
  (nth? (((runImage s).map FwImage.rxOfs).getD []) (2 * g + b2n slow)).getD 0

/-- A port without a master: LISTENING while its candidate is enabled, else DISABLED. -/
def ptpRestart (k : Nat) (s : State) : State :=
  let s := if server s = 1 then putF (Reg.ptpRxOfs k) 0 20 (rxCal s k) s else s
  let t := ptpPort s k
  let s := putPtp k { t with masters := [], chosen := none, lastAnn := none, sync := none, paths := [], reqs := [], stamp := none, utc := none } s
  let s := put64 (Reg.ptpGmLo k) 0 (putF (Reg.ptpStatus k) 3 21 0 s)
  ptpState k (b2n (candE s (k + 2)).enabled) s

/-- Ports follow the ENABLE of their candidates. -/
def ptpSwitch (s : State) : State :=
  [0, 1].foldl (fun s k =>
    if (candE s (k + 2)).enabled = decide (getF s (Reg.ptpStatus k) 0 3 ≠ 0) then s else ptpRestart k s) s

/-! ## Configuration in force -/

/-- A configuration taken into force (R495, R499): candidates switched on or off, and a new selection. A new HOLDOFF and new bandwidths apply from their next use. -/
def refConfig (conf : Tab RefEntry) (s : State) : State :=
  let s := setOfs (refOfs s) s
  let s := { s with ref := { s.ref with conf := conf } }
  let s := (upto 0 7).foldl (fun s k =>
    if (candE s k).enabled then
      if candState s k = 0 then candQualify k (setCand k 1 s) else s
    else if candState s k = 0 then s else setCand k 0 (holdStop k s)) s
  reselectFree (ptpSwitch s)

/-- The reference part of a cold start (R495): saved or default configuration, FREERUN, XO qualified (R468). -/
def refStart (s : State) : State :=
  let s := { s with ref := { ref0 with conf := s.fw.settings.refs.getD [] } }
  let s := putF (candA 7) 0 3 3 s
  ptpSwitch (refRefresh ((upto 0 7).foldl (fun s k => if (candE s k).enabled then putF (candA k) 0 3 1 s else s) s))

/-- Mutia saves the reference configuration in force, with the time configuration (R495; 14_timebase_and_ptp.md R531). -/
def refSave (s : State) : State :=
  saveSettings (fun x => { x with refs := some s.ref.conf, time := some s.time.conf }) s

/-! ## Commands' effects (R499) -/

def fxRefSet (c : Cmd) (n : Nat) (e : RefEntry) (s : State) : State :=
  let conf := tabSet (refDefault n) n e s.ref.conf
  if refConfOk (getF s Reg.planHouseRate 16 16) (refTrunks (trunkEntries s.plan.committed s.plan.cfg.mode)) s.plan.cfg conf = false then refuse c St.refInvalid s
  else forward (.command c.pkt.body (houseFrame s)) (done c (refSave (refConfig conf s)))

/-- O in ns as REF_SLEW_LEFT shows it (R499). -/
def ofsShown (s : State) : Int := (refOfs s).tdiv ofsNs

/-- A reference register as it reads: O, and the seconds left of a hold-off. -/
def refRead (s : State) (a : Nat) : Word :=
  if a = Reg.refSlewLeft then BitVec.ofNat 32 (satTwos 32 (ofsShown s))
  else match (upto 0 8).find? fun k => decide (a = Reg.refCandTimer k) with
    | some k => setFld (rd s a) 0 16 (ceilDiv (((tabFind k s.ref.holdEnd).getD 0) - s.mono) tickSec)
    | none => rd s a

def fxRefQuery (c : Cmd) (s : State) : State :=
  let as := [Reg.refStatus, Reg.refSlewLeft, Reg.refPhaseErr, Reg.refHoFreq]
    ++ (upto 0 8).flatMap fun k => [candA k, Reg.refCandOfs k, Reg.refCandXo k]
  complete c St.ok 0 (as.map fun a => (4, (refRead s a).toNat)) s

/-- `REF_FORCE` (R476). -/
def fxRefForce (c : Cmd) (k : Nat) (s : State) : State :=
  let f := if k = 0xFF then none else some k
  let s := putB Reg.refStatus 3 f.isSome { s with ref := { s.ref with force := f } }
  forward (.command c.pkt.body (houseFrame s)) (done c (reselectFree s))

/-- `REF_SNAP` (R485). -/
def fxRefSnap (c : Cmd) (s : State) : State :=
  if refState s ≠ 3 then refuse c St.refNoSnap s
  else match applyFrame s (10 * tickMs) c.pkt.hdr.applyAt with
    | none => refuse c St.planLate s
    | some f => forward (.snap f (ofsShown s)) (schedule c f [(8, f), (8, twos 64 (ofsShown s))] s)

/-- `REF_SNAP` forwarded by the partner (R493): the step waits for the same frame. -/
def snapForwarded (f : Nat) (o : Int) (s : State) : State :=
  let h : Hdr := { version := 1, flags := 0, tag := 0, length := 8, target := 0, seq := 0, applyAt := f, resultLen := 0, zeroOk := true,
                   bodyOk := true, bodyZeroOk := true, resultOk := true }
  schedule { pkt := { hdr := h, body := .refSnap }, origin := .forward } f [(8, f), (8, twos 64 o)] s

/-- The hit of a step (R486) at one output: safe content for an open number of its frames up to two, from its first switch point. -/
def snapHit (t : State) (k : Nat) (s : State) (d : Nat) : State :=
  match (outCfg? t d).map OutCfg.fmt with
  | none => s
  | some f =>
    let x := firstSp t d t.now + k % 3 * fmtFrameTicks f
    { s with plan := { s.plan with safeUntil := tabPut d (max x (tabGet 0 d s.plan.safeUntil)) s.plan.safeUntil } }

/-- The time steps by `d` ticks (R486): outputs show safe content, pending takes and changes of the plan that the step passes over wait for the first switch point after it, synchronisers select again, and frame numbers follow. -/
def stepTime (d : Int) (s : State) : State :=
  let t := useFree { s with now := ((s.now : Int) + d).toNat }
  let s := (t.plan.cfg.outputs.map OutCfg.port).foldl (snapHit t (freeValue s)) t
  let pending := s.plan.pending.map fun p => { p with start := max p.start s.now }
  let s := { s with plan := { s.plan with pending := pending }, mem := { s.mem with fs := tabMap (fun _ x => { x with sel := none, selNext := none }) s.mem.fs } }
  { s with take := { s.take with pend := s.take.pend.map fun p => if p.sp < s.now then { p with sp := firstSp s p.dest s.now } else p } }

/-- The step at the apply frame (R485, R486, R493): in WAITING by O; a standby with MIRROR selected by the active unit's step. -/
def snapStep (s : State) : State :=
  match s.sched.find? fun x => decide (x.cmd.pkt.body = .refSnap) && decide (x.start ≤ s.now) with
  | none => s
  | some x =>
    let s := { s with sched := s.sched.erase x }
    let own := decide (refState s = 3)
    let follow := decide (x.cmd.origin = .forward) && decide (s.ref.sel = some 6)
    if own = false ∧ follow = false then finishAt x.cmd St.refNoSnap (houseFrame s) [] s
    else
      let o := if own then refOfs s else untwos 64 (((nth? x.result 1).map Prod.snd).getD 0) * ofsNs
      let s := stepTime (o / 10000000000) s
      let s := if (s.ref.sel.map fullTime).getD false then putB Reg.tmbStatus 0 true s else s
      let s := flagEvent Src.timebase noInst Reg.refStatus 17 s
      let s := if own then refEnter 1 (setOfs 0 s) else s
      finishAt x.cmd St.ok x.frame x.result (refRefresh s)

/-! ## Commands -/

/-- REF_SNAP_STEP (R486). -/
def execRefSnapStep (dt : Nat) (s : State) : Host.Outcome State Fault Refusal := .next (only true (fun s => snapStep s) (tick dt s))

/-- REF_CANDIDATE_PRESENT (R464). -/
def execRefCandidatePresent (dt cand : Nat) (s : State) : Host.Outcome State Fault Refusal :=
  .next (candChange cand true (candPresent cand) (tick dt s))

/-- REF_CANDIDATE_LOST (R464). -/
def execRefCandidateLost (dt cand : Nat) (phases : List Int) (s : State) : Host.Outcome State Fault Refusal :=
  .next (candChange cand false (candLost cand (candPhase phases)) (tick dt s))

/-- HOLDOFF_EXPIRY (R469). -/
def execHoldoffExpiry (dt cand : Nat) (phases : List Int) (s : State) : Host.Outcome State Fault Refusal :=
  .next (only (decide (cand < 7)) (holdExpire cand (candPhase phases)) (tick dt s))

/-- DRIFT_EVALUATION (R470). -/
def execDriftEvaluation (dt : Nat) (againstSel againstXo : List Int) (loopFreq : Int) (phases : List Int) (s : State) : Host.Outcome State Fault Refusal :=
  .next (only true (fun s => driftEval againstSel againstXo loopFreq (candPhase phases) s) (tick dt s))

/-- REF_JUMP (R473). -/
def execRefJump (dt cand : Nat) (phases : List Int) (s : State) : Host.Outcome State Fault Refusal :=
  .next (only (decide (cand < 7)) (candJump cand (candPhase phases)) (tick dt s))

/-- LOOP_BW_STEP (R489). -/
def execLoopBwStep (dt : Nat) (phaseErr : Int) (s : State) : Host.Outcome State Fault Refusal := .next (only true (fun s => loopStep phaseErr s) (tick dt s))

/-- SLEW_COMPLETE (R481). -/
def execSlewComplete (dt : Nat) (s : State) : Host.Outcome State Fault Refusal :=
  .next (only true (fun s => if refState s = 1 ∧ refOfs s = 0 then setOfs 0 s else s) (tick dt s))

/-- HOLDOVER_LIMIT_EXPIRY (R492). -/
def execHoldoverLimitExpiry (dt : Nat) (s : State) : Host.Outcome State Fault Refusal := .next (only true (fun s => refRefresh s) (tick dt s))

/-- TRUNK_FRAME_RECEIVED (R262): the frame, and the QL that the trunk passes on to reference selection (R291). -/
def execTrunkFrameReceived (dt lane : Nat) (frame : LaneFrame) (s : State) : Host.Outcome State Fault Refusal :=
  .next (only (decide (lane < 580)) (fun s => trunkQl (lane / 8) (laneFrame lane frame s)) (tick dt s))

end Sys2Proof.Machine
end

