-- ==== Sys2Proof/Machine/Windows.lean ====
section
/-! DEFINITION. The supervisor interconnect and the host's windows (22_supervisor_interconnect.md). -/

namespace Sys2Proof.Machine

/-! ## The matrix (R759 to R767) -/

def sicRemap (s : State) : Bool := getB s Reg.sicMap 0

/-- RESCUE, by the mode Id (00_scope.md R6). -/
def inRescue (s : State) : Bool := decide (modeNow s = 6)

/-- Targets of the matrix (R759). -/
inductive Target where
  | rom
  | bank
  | sram
  | hbm
  | regs
  deriving DecidableEq, Repr

def hbmBase : Nat := 0x1000000000

/-- The target at a supervisor address (R763, R765); none where it is unmapped. A register access is mapped where a map lists the word it falls in. -/
def target? (s : State) (a : Nat) : Option Target :=
  if a < 0x800000 then (if sicRemap s then some .bank else if a < 0x80000 then some .rom else none)
  else if 0x1000000 ≤ a ∧ a < 0x1080000 then some .rom
  else if 0x2000000 ≤ a ∧ a < 0x3000000 then some .bank
  else if 0x4000000 ≤ a ∧ a < 0x5000000 then some .sram
  else if 0x10000000 ≤ a ∧ a < 0x11000000 then (if (regRow ((a - 0x10000000) / 4 * 4)).isSome then some .regs else none)
  else if hbmBase ≤ a ∧ a < hbmBase + 24576 * mib then some .hbm
  else none

/-- The offset of stack 0 lies in a region that the host sees through BAR2 (R764). -/
def bar2Region (o : Nat) : Bool :=
  decide (o < 128 * mib) || (decide (256 * mib ≤ o) && decide (o < 352 * mib))

/-- The access is permitted (R759, R760, R773). -/
def permitted (s : State) (m : Master) (t : Target) (a : Nat) (write : Bool) : Bool :=
  match m, t with
  | .supervisor, .rom => !write
  | .supervisor, .bank => !write || !sicRemap s
  | .supervisor, _ => true
  | .pcie, .hbm =>
    let o := a - hbmBase
    bar2Region o && (!write || !inRescue s || (decide (256 * mib ≤ o) && decide (o < 320 * mib)))
  | .pcie, .regs => true
  | .pcie, _ => false
  | .mirrorDma, t => decide (t = .sram) || decide (t = .hbm)
  | .securityDma, .rom => !write
  | .securityDma, .bank => write && !sicRemap s
  | .securityDma, .sram => true
  | .securityDma, .hbm => !write
  | .securityDma, .regs => false
  | .debug, t => (decide (modeNow s = 5) || inRescue s) && (!write || decide (t ≠ .rom))

/-- A write to a BAR2 region is discarded as BUSY (R772). -/
def regionBusy (s : State) (o : Nat) : Bool :=
  if o < 128 * mib then decide (getF s Reg.planState 8 2 = 1) || getB s Reg.planState 10
  else if o < 320 * mib then !getB s Reg.fwStatus 7
  else uploadBusy s

/-- The cause for which an access is refused, the first of 1, 2, 4, 6 and 3 (R775); none where it is served. -/
def refusalCause (s : State) (m : Master) (a size : Nat) (write : Bool) : Option Nat :=
  match target? s a with
  | none => some 1
  | some t =>
    if permitted s m t a write = false then some 2
    else if decide (t = .regs) && ((regQuad (a - 0x10000000)).map fun q => !awake s q).getD false then some 4
    else if decide (t = .hbm) && decide (m = .pcie) && write && regionBusy s (a - hbmBase) then some 6
    else if t = .regs ∧ (size ≠ 4 ∨ a % 4 ≠ 0) then some 3
    else none

/-- A refused access (R759, R769): a read returns zero, a write is discarded. -/
def refuseAccess (m : Master) (a size : Nat) (write : Bool) (s : State) : State :=
  match refusalCause s m a size write with
  | none => s
  | some c =>
    let s := logAccess m a size c write s
    if write then s else { s with readData := 0 }

/-- One burst of a master that is reset (R768, R769). A write keeps the beats written; a read's data is discarded, and one that cleared an RC field is lost; a read that has not been issued never is. -/
def burstDrop (m : Master) (s : State) (b : SicBurst) : State :=
  if b.write then logAccess m b.addr b.size 5 true s
  else if b.issued = false then s
  else
    let a := b.addr - 0x10000000
    let s := match (if 0x10000000 ≤ b.addr ∧ b.addr < 0x11000000 then regRow a else none) with
      | some d => if d.rc &&& rd s a = 0 then s else putB Reg.sicStatus 1 true (wr a (rd s a &&& ~~~d.rc) s)
      | none => s
    logAccess m b.addr b.size 5 false s

/-- A master is reset (R768, R769). -/
def masterReset (m : Master) (bursts : List SicBurst) (s : State) : State :=
  if bursts.isEmpty then s else bursts.foldl (burstDrop m) (count Reg.sicResetCnt s)

/-- A write of `SIC_MAP` (R766). -/
def sicMapWrite (m : Master) (v : Word) (s : State) : State :=
  if m = .supervisor ∧ sicRemap s = false then putF Reg.sicMap 0 2 (fld v 0 2) s
  else putB Reg.sicStatus 0 true s

/-- `SIC_MAP` as it reads: FIXED while the ROM stands at zero (R767). -/
def sicMapRead (s : State) : Word := setBit (rd s Reg.sicMap) 2 (!sicRemap s)

/-! ## BAR2 (R770 to R773) -/

/-- A write into a region refused: its address is the region's, its size an open value. -/
def bar2Refused (o cause : Nat) (s : State) : State :=
  logAccess .pcie (hbmBase + o) (freeValue s % 16) cause true (useFree s)

/-- What a write leaves in a region, unless it is discarded. -/
def bar2Write (x : Bar2Content) (s : State) : State :=
  match x with
  | .beyond => s
  | .staging i =>
    if regionBusy s (256 * mib) then bar2Refused (256 * mib) 6 s else { s with fw := { s.fw with staging := some i } }
  | .upload ws =>
    if inRescue s then bar2Refused (320 * mib) 2 s
    else if regionBusy s (320 * mib) then bar2Refused (320 * mib) 6 s
    else { s with mem := { s.mem with upload := ws } }
  | .loadSlot b =>
    if inRescue s then bar2Refused 0 2 s
    else if regionBusy s 0 then bar2Refused 0 6 s
    else
      let s := { s with plan := { s.plan with slot := some b } }
      if 2 ≤ getF s Reg.planState 8 2 then putDigest (Reg.planDigestLoaded 0) 0 (wr Reg.planGenLoaded 0 (setLoad 0 s)) else s

/-! ## Commands -/

/-- SIC_MAP_WRITE (R766). -/
def execSicMapWrite (dt : Nat) (master : Master) (value : Word) (s : State) : Host.Outcome State Fault Refusal :=
  .next (only true (fun s => sicMapWrite master value s) (tick dt s))

/-- BAR2_WRITE (R772). -/
def execBar2Write (dt : Nat) (content : Bar2Content) (s : State) : Host.Outcome State Fault Refusal :=
  .next (only s.pins.pcieUp (bar2Write content) (tick dt s))

/-- REFUSED_ACCESS (R769). -/
def execRefusedAccess (dt : Nat) (master : Master) (addr size : Nat) (write : Bool) (s : State) : Host.Outcome State Fault Refusal :=
  .next (only true (fun s => refuseAccess master addr size write s) (tick dt s))

/-- MASTER_RESET (R768). -/
def execMasterReset (dt : Nat) (master : Master) (bursts : List SicBurst) (s : State) : Host.Outcome State Fault Refusal :=
  .next (only true (fun s => masterReset master bursts s) (tick dt s))

end Sys2Proof.Machine
end

