-- ==== Sys2Proof/Machine/Firmware.lean ====
section
/-! DEFINITION. Firmware bundles, their download and activation, and the way into a warm restart (18_start_and_update.md R660 to R676). -/

namespace Sys2Proof.Machine

/-! ## The bundle (R660 to R663) -/

/-- Largest length of a section type (R661). -/
def fwLimit (type : Nat) : Nat :=
  match type with
  | 1 => 8 * mib
  | 2 => 32 * mib
  | 3 => 262144
  | 4 => 65536
  | _ => mib

/-- A section lies where R661 allows it. -/
def fwSectionOk (i : FwImage) (x : FwSection) : Bool :=
  decide (x.zeroA = 0) && decide (x.zeroB = 0) && decide (x.offset % 64 = 0) && decide (i.sectTableOfs + 64 * i.sectionCount ≤ x.offset) && decide (x.offset + x.length ≤ i.sigOfs)
    && decide (x.length ≤ fwLimit x.type)

/-- Two sections share no byte. -/
def fwApart (x y : FwSection) : Bool := decide (x.offset + x.length ≤ y.offset) || decide (y.offset + y.length ≤ x.offset)

/-- No two sections of a list overlap. -/
def fwDisjoint : List FwSection → Bool
  | [] => true
  | x :: xs => xs.all (fwApart x) && fwDisjoint xs

/-- Check 1 of R663, for a bundle of which the command gives `len`. -/
def fwFormatOk (i : FwImage) (len : Nat) : Bool :=
  decide (i.magic = 0x4257465A) && decide (i.fmtMajor = 1) && decide (i.hdrLen = 256) && decide (i.bundleLen = len) && decide (len ≤ 48 * mib)
    && i.reservedZero && decide (i.sectionCount = 5) && decide (i.sections.length = 5) && decide (i.sectTableOfs % 64 = 0) && decide (256 ≤ i.sectTableOfs)
    && decide (i.sectTableOfs + 320 ≤ i.sigOfs) && decide (i.sigLen = 112) && decide (i.sigOfs + 112 ≤ len) && decide (i.keyId < 4)
    && ([1, 2, 3, 4, 5].all fun t => decide ((i.sections.filter fun x => decide (x.type = t)).length = 1))
    && i.sections.all (fwSectionOk i) && fwDisjoint i.sections && decide (i.floor ≤ i.version)

/-- The checks of `FW_LOAD` in order (R663, R665). -/
def fwCheck (keys : List Nat) (floor : Nat) (i : FwImage) (len : Nat) : Nat :=
  if fwFormatOk i len = false then St.fwFormat
  else if i.variant ≠ 0x00B1 then St.fwVariant
  else if (i.sections.all fun x => decide (x.digest = x.actual)) = false ∨ fwSigOk keys i = false then St.fwSignature
  else if i.version < floor then St.fwRollback
  else St.ok

/-- The verified mark and what shows it (R664). -/
def setStaged (i : Option FwImage) (s : State) : State :=
  let s := { s with fw := { s.fw with staged := i } }
  let s := wr Reg.fwVerStaged (BitVec.ofNat 32 ((i.map FwImage.version).getD 0)) s
  putB Reg.fwStatus 6 i.isSome (putDigest (Reg.fwDigestStaged 0) ((i.map FwImage.digest).getD 0) s)

/-- `FW_LOAD` (R663, R664). -/
def fxFwLoad (c : Cmd) (len : Nat) (s : State) : State :=
  let s := setStaged none s
  match s.fw.staging with
  | none => refuse c St.fwFormat s
  | some i =>
    let st := fwCheck s.sec.fwKeys (otpFloor s) i len
    if st = St.ok then complete c St.ok 0 [(4, i.version), (48, i.digest)] (setStaged (some i) s) else refuse c st s

/-- The sections still have the digests that were verified (R666). -/
def stagingIntact (s : State) : Bool :=
  match s.fw.staging, s.fw.staged with
  | some i, some v => decide (i.sections.map FwSection.actual = v.sections.map FwSection.digest)
  | _, _ => false

/-! ## A warm restart begins (R668; 16_command_packets.md R619) -/

/-- A command that the firmware had taken ends with a status that the next firmware writes. -/
def owe (c : Cmd) (status : Nat) (s : State) : State :=
  if c.origin = .forward then s
  else { s with fw := { s.fw with owed := s.fw.owed ++ [{ cmd := c, status := status, frame := none, result := [] }] } }

/-- A scheduled command whose effect runs on in hardware (04_frame_stores.md R196; 09_ibex_engines.md R386; 10_composition.md R420; 11_audio_plane.md R455; 12_reference_selection.md R494; log 32). -/
def runsOn (b : Body) : Bool :=
  match b with
  | .fsControl .. => false
  | .delaySet .. => false
  | .slateLoad .. => false
  | .timeConf .. => false
  | .ibxPatternSet .. => false
  | .ibxLoudReset .. => false
  | _ => true

/-- Scheduled commands at the start of a restart: those of no rule of their own end without effect (R619, R630). Commands that the partner forwarded stay. -/
def abortSched (s : State) : State :=
  let gone := s.sched.filter fun x => !(runsOn x.cmd.pkt.body || decide (x.cmd.origin = .forward))
  let s := { s with sched := s.sched.filter fun x => runsOn x.cmd.pkt.body || decide (x.cmd.origin = .forward) }
  delayPend (gone.foldl (fun s x => owe x.cmd St.fwAborted s) s)

/-- Mailbox messages go on, their commands end (R619). -/
def abortSends (s : State) : State :=
  (tabKeys s.trk.links).foldl (fun s n =>
    (linkTrack s n).sends.foldl (fun s x => owe x.1 St.fwAborted s) (putLink n { linkTrack s n with sends := [] } s)) s

/-- A `PLAN_LOAD` under way fails (R34, R619). -/
def abortLoad (s : State) : State :=
  match s.plan.loading with
  | none => s
  | some l => owe l.cmd St.fwAborted (setLoad 3 { s with plan := { s.plan with loading := none } })

/-- A commit or mode change that is not armed is cancelled (01_compiled_plan.md R54). -/
def abortChange (s : State) : State :=
  match s.plan.pending with
  | none => s
  | some p => if p.armed then s else owe p.cmd St.planAborted (planIdle s)

/-- Tests end (24_service_mode.md R810), but SRAM_BIST. -/
def abortTests (s : State) : State :=
  let s' := { s with svc := { s.svc with tests := s.svc.tests.filter fun j => decide (j.test = 2) } }
  (s.svc.tests.filter fun j => decide (j.test ≠ 2)).foldl (fun s j => owe j.cmd St.fwAborted s) s'

/-- The firmware goes away (R668): `cause` is that of `FW_BOOT`, `target` the bank in which it ends. The ROM stands at zero until the remap (22_supervisor_interconnect.md R766). -/
def goAway (cause : Nat) (target : Bool) (s : State) : State :=
  let s := if server s = 1 then abortTests (abortChange (abortLoad (abortSends (abortSched s)))) else s
  let s := refBridge (putF Reg.fwBoot 4 4 cause s)
  let s := putB Reg.sicMap 0 false { s with fw := { s.fw with target := target } }
  putB Reg.fwStatus 5 false (putF Reg.fwStatus 0 3 3 (putB Reg.planState 15 true (putF Reg.cmdStatus 0 2 2 s)))

/-- The bank at address zero is B (R687). -/
def bankIsB (s : State) : Bool := getB s Reg.fwStatus 3

/-! ## Commands of the firmware (R667 to R676) -/

/-- `FW_ACTIVATE` (R666, R667, R686): into bank A with no firmware running, else into the bank that is not running. -/
def fxFwActivate (c : Cmd) (window : Nat) (s : State) : State :=
  match s.fw.staged with
  | none => refuse c St.fwNone s
  | some i =>
    if inRescue s && !s.pins.rescueN then refuse c St.fwNone s
    else if (decide (window = 0) || inRange 10 3600 window) = false then refuse c St.cmdRange s
    else if stagingIntact s = false then refuse c St.fwNone s
    else
      let cold := decide (server s = 0)
      let b := !cold && !bankIsB s
      let a : Activation := { cmd := c, window := if window = 0 then 120 else window, bank := b2n b, image := i, cold := cold }
      let s := goAway 2 b s
      { s with fw := { s.fw with act := some a, windowEnd := none, bankA := if b then s.fw.bankA else some i, bankB := if b then some i else s.fw.bankB } }

/-- `FW_RESTART` (R669). -/
def fxFwRestart (c : Cmd) (s : State) : State :=
  let s := goAway 3 (bankIsB s) s
  { s with fw := { s.fw with restart := some c } }

/-- The OTP floor raised to the FLOOR of the running bundle where that is higher (R675), behind the writes of the flash under way; a power loss before the end leaves it unchanged (R683). -/
def raiseFloor (s : State) : State :=
  let f := ((runImage s).map FwImage.floor).getD 0
  if f ≤ (s.otp.rising.map Prod.snd).foldl max s.otp.floor then s
  else
    let start := (s.flash.ops.getLast?).elim s.mono fun o => max s.mono o.stop
    useFree { s with otp := { s.otp with rising := s.otp.rising ++ [(start + freeValue s, f)] } }

/-- CONFIRMED set or cleared, with a record of source 0x6F2 on a change (log 34). -/
def setConfirmed (b : Bool) (s : State) : State := stateEvent Src.firmware noInst Reg.fwStatus 4 1 (b2n b) s

/-- `FW_CONFIRM` (R675). -/
def fxFwConfirm (c : Cmd) (s : State) : State :=
  if confirmed s then refuse c St.fwNotPending s
  else
    let s := raiseFloor (confirmSlot s)
    let s := { s with fw := { s.fw with windowEnd := none } }
    let s := done c (setConfirmed true (putF Reg.fwBoot 0 2 0 s))
    setStatus (if flashOk s then slotErase (!currentB s.flash) s else s)

/-- Seconds left of the confirmation window (R686). -/
def windowLeft (s : State) : Nat :=
  match s.fw.windowEnd with
  | some e => if confirmed s then 0 else ceilDiv (e - s.mono) tickSec
  | none => 0

/-- `FW_QUERY` (16_command_packets.md R628). -/
def fxFwQuery (c : Cmd) (s : State) : State :=
  complete c St.ok 0 [(4, (rd s Reg.fwVerRun).toNat), (4, s.sec.romVersion % 2 ^ 32), (4, (rd s Reg.fwVerStaged).toNat), (4, otpFloor s),
    (1, b2n (bankIsB s)), (1, b2n (confirmed s)), (2, 0), (4, windowLeft s)] s

/-- The lockstep comparison fails (R676; 15_the_pair.md R554): the running bank restarts; before START_OK it is a start failure. With the boot ROM serving alone there is no bank to restart. -/
def lockstepFail (s : State) : State :=
  let s := penalty 2 s
  if server s = 0 then s
  else if server s = 2 then putF Reg.fwBoot 4 4 4 (putF Reg.fwBoot 0 2 (min 3 (getF s Reg.fwBoot 0 2 + 1)) s)
  else goAway 4 (bankIsB s) s

/-! ## Commands -/

/-- SUPERVISOR_LOCKSTEP_FAIL (R676). -/
def execSupervisorLockstepFail (dt : Nat) (s : State) : Host.Outcome State Fault Refusal := .next (only true (fun s => lockstepFail s) (tick dt s))

end Sys2Proof.Machine
end

