-- ==== Sys2Proof/Machine/Pll.lean ====
section
/-! DEFINITION. PLLs and clock islands (13_plls_and_clock_islands.md), and the PCIe link (16_command_packets.md R624). -/

namespace Sys2Proof.Machine

def pllTrack (s : State) (j : Nat) : PllTrack := tabGet pllTrack0 j s.plls.pll

def putPll (j : Nat) (t : PllTrack) (s : State) : State := { s with plls := { s.plls with pll := tabSet pllTrack0 j t s.plls.pll } }

def pllLocked (s : State) (j : Nat) : Bool := getB s (Reg.pllStatus j) 0

/-- SYNC_SRC in force: 3 acts as 1 (R521), and 2 as 1 while FRAME_SYNC is not valid (R512). -/
def syncSrc (s : State) (j : Nat) : Nat :=
  let v := getF s (Reg.pllCtrl j) 24 2
  if v = 3 ∨ (v = 2 ∧ getB s Reg.pllSyncStatus 0 = false) then 1 else v

/-- The PLL that feeds an island (R513); none for islands on a received clock, XO_27 or TCK. -/
def islandPll (x : Nat) : Option Nat :=
  if x < 92 then
    let q := x / 23
    let i := x % 23
    if i < 18 then none else if i = 22 then some (4 * q + 3) else some (4 * q + (i - 18))
  else if x = 92 ∨ x = 98 then some 17
  else if x = 93 then some 18
  else if x = 94 then some 16
  else if x = 97 then some 19
  else none

/-- The islands that a PLL feeds. -/
def pllIslands (j : Nat) : List Nat := (upto 0 100).filter fun x => decide (islandPll x = some j)

/-- The quadrant that a PLL belongs to. -/
def pllQuad (j : Nat) : Option Nat := if j < 16 then some (j / 4) else none

/-- The PLL's quadrant is awake. -/
def pllPowered (s : State) (j : Nat) : Bool := ((pllQuad j).map (awake s)).getD true

/-- The PLL's reference is present (R502, R509). -/
def pllReference (s : State) (j : Nat) : Bool := if j = 16 then s.pins.xoOk else pllLocked s 16

/-! ## The PCIe link (16_command_packets.md R624) -/

/-- The link goes down: completions wait until the host writes its ring pointers again. -/
def pcieDown (s : State) : State :=
  if s.pins.pcieUp then
    putB Reg.cmdStatus 6 true { s with pins := { s.pins with pcieUp := false }, cmd := { s.cmd with headFresh := false, unread := [] } }
  else s

/-- The link comes up, with its PLL on its own clock. -/
def pcieUp (s : State) : State :=
  if keepAlive s 93 then s else { s with pins := { s.pins with pcieUp := true } }

/-! ## Loss of a clock (R508, R509, R515 to R520) -/

/-- An output trunk of the quadrant carries an on-air port. -/
def trunkAir (s : State) (q : Nat) : Bool :=
  (trunkEntries s.plan.committed s.plan.cfg.mode).any fun e =>
    decide (e.kind = 1) && decide (e.dir = 1) && decide (e.trunk / 18 = q) && airOut s e.w4

/-- The on-air inputs that a flow of the quadrant feeds. -/
def flowAirIns (s : State) (q : Nat) : List Nat :=
  (s.plan.tables.flows.filter fun e =>
    flowUsed e && airIn s e.port && ((flowRedEn e && decide (legChannel e.red / 16 = q)) || (flowBlueEn e && decide (legChannel e.blue / 16 = q)))).map FlowEntry.port

/-- An on-air port is fed by a flow of the quadrant. -/
def flowAir (s : State) (q : Nat) : Bool := !(flowAirIns s q).isEmpty

/-- The used ports of a quadrant. -/
def portBlocks (s : State) (q : Nat) : List PathBlock :=
  ((s.plan.cfg.inputs.filter fun c => decide (c.port / 288 = q)).map fun c => .source c.port)
    ++ (s.plan.cfg.outputs.filter fun c => decide (c.port / 288 = q)).map fun c => .output c.port

/-- A used port of the quadrant is on air. -/
def portAir (s : State) (q : Nat) : Bool :=
  (s.plan.cfg.inputs.any fun c => decide (c.port / 288 = q) && airIn s c.port)
    || (s.plan.cfg.outputs.any fun c => decide (c.port / 288 = q) && airOut s c.port)

/-- Frames that were being written in a stack are discarded (R520; 04_frame_stores.md R173). -/
def memClockLost (q : Nat) (s : State) : State :=
  (tabKeys s.mem.fs).foldl (fun s n => if quadOf n = q then putFs n { fsTrack s n with lockedAt := s.mono, writing := [] } s else s) s

/-- Effects of the loss of a PLL's clock beside those on its islands (R520). -/
def pllEffects (j : Nat) (s : State) : State :=
  if j < 16 then
    let q := j / 4
    match j % 4 with
    | 0 => if trunkAir s q then penaltyAt q 0 [] s else s
    | 1 =>
      let air := flowAir s q
      let s := (upto (16 * q) 16).foldl (fun s g => linkGoesDown g s) s
      if air then penaltyAt q 0 ((flowAirIns s q).map .source) s else s
    | 2 => memClockLost q s
    | _ => if portAir s q then penaltyAt q 0 (portBlocks s q) s else s
  else if j = 17 then (if server s = 1 then goAway (getF s Reg.fwBoot 4 4) (bankIsB s) s else s)
  else if j = 18 then pcieDown s
  else if j = 19 then
    (upto 0 4).foldl (fun s p => if getB s (Reg.audPortCtrl p) 3 = false ∧ 2 ≤ audDirNow s p .tx then audDirState p .tx 1 s else s) s
  else s

/-- One PLL loses lock: flag, count, record, islands, effects, and a new attempt (R508, R515, R520). -/
def pllLoseOne (j : Nat) (s : State) : State :=
  if pllLocked s j = false then s
  else
    let a := Reg.pllStatus j
    let s := putPll j { pllTrack0 with since := s.mono } s
    let s := putB a 2 true (putF a 0 2 0 (bump (Reg.pllCnt j) 0 16 1 s))
    let s := flagEvent (Src.pll j) noInst a 4 s
    pllEffects j ((pllIslands j).foldl (fun s x => islandKeep x s) s)

/-- A loss of lock; with the timebase PLL every other PLL loses its reference (R509). -/
def pllLose (j : Nat) (s : State) : State :=
  if j = 16 ∧ pllLocked s 16 then
    ((upto 0 20).filter fun k => decide (k ≠ 16)).foldl (fun s k => pllLoseOne k s) (pllLoseOne 16 s)
  else pllLoseOne j s

/-! ## Lock attempts (R505 to R511) -/


/-- A PLL is enabled: an attempt starts. -/
def pllEnable (j : Nat) (s : State) : State :=
  if pllLocked s j then s else putB (Reg.pllStatus j) 2 true (putPll j { pllTrack0 with since := s.mono } s)

/-- The reference's nominal frequency in units of 100 kHz (R502). -/
def pllRefFreq (j : Nat) : Nat := if j = 16 then 270 else 1485

/-- A reference period in ps lies within ±1 % of the nominal one (R505). -/
def refEdgeOk (j p : Nat) : Bool := decide (99 * 10 ^ 7 ≤ 100 * p * pllRefFreq j) && decide (100 * p * pllRefFreq j ≤ 101 * 10 ^ 7)

/-- The reference is present (R505): it is fed, and its last 8 periods are in range. -/
def pllRefPresent (s : State) (j : Nat) (edges : List Nat) : Bool :=
  pllReference s j && decide (8 ≤ edges.length) && (edges.drop (edges.length - 8)).all (refEdgeOk j)

/-- The band of a binary search over 64 (R505): each of the 6 comparisons says whether the VCO of the upper half is still too slow, from the highest bit down (log 209). -/
def bandOf (slow : List Bool) : Nat := (slow.take 6).foldl (fun b x => 2 * b + b2n x) 0

/-- LOCK_N in force for a new attempt, and W in units of 4 ps (R506). -/
def lockNOf (s : State) (j : Nat) : Nat := max 16 (min 4096 (getF s (Reg.pllCtrl j) 0 13))

def lockWOf (s : State) (j : Nat) : Nat := max 2 (getF s (Reg.pllCtrl j) 16 7)

/-- An attempt has found its reference and its band, and closes the loop (R505) under the parameters of R506. A further attempt follows a failed one after 1 ms, after three after 100 ms (R507). -/
def pllAttempt (j : Nat) (edges : List Nat) (slow : List Bool) (s : State) : State :=
  let t := pllTrack s j
  if pllLocked s j ∨ pllRefPresent s j edges = false ∨ pllPowered s j = false ∨ s.mono < t.since then s
  else
    let a := Reg.pllStatus j
    putF a 8 6 (bandOf slow) (putB a 2 true (putPll j { t with closedAt := some s.mono, lockN := lockNOf s j, win := lockWOf s j } s))

/-- The last LOCK_N reference cycles of an attempt, by their phase errors in ps, lie within ±W (R505). -/
def pllWithin (t : PllTrack) (errors : List Int) : Bool :=
  decide (t.lockN ≤ errors.length) && (errors.drop (errors.length - t.lockN)).all fun e => decide (e.natAbs ≤ 4 * t.win)

/-- A locked PLL has lost lock (R508): the last 8 reference cycles lie outside ±2W, or their edges are missing. -/
def pllSlipped (t : PllTrack) (errors : List (Option Int)) : Bool :=
  let l := errors.drop (errors.length - 8)
  decide (8 ≤ l.length) && ((l.all fun e => e.elim false fun v => decide (8 * t.win < v.natAbs)) || l.all Option.isNone)

/-- Lock is declared once LOCK_N cycles in a row lie within ±W (R505, R507, R510). -/
def pllLockDeclared (j : Nat) (errors : List Int) (s : State) : State :=
  let t := pllTrack s j
  match t.closedAt with
  | none => s
  | some _ =>
    if pllWithin t errors = false then s
    else
    let a := Reg.pllStatus j
    let free := decide (syncSrc s j = 0)
    let s := wr (Reg.pllLockTime j) (BitVec.ofNat 32 (min (2 ^ 24 - 1) ((s.mono - t.since) / tickNs))) s
    let s := putPll j { pllTrack0 with lockN := t.lockN, win := t.win, readyAt := if free then some s.mono else none } s
    putB a 3 false (putF a 0 3 (if free then 3 else 1) s)

/-- An attempt fails 200 µs after its band search (R507). -/
def pllFail (j : Nat) (s : State) : State :=
  let t := pllTrack s j
  match t.closedAt with
  | none => s
  | some c =>
    if s.mono < c + 200 * tickUs then s
    else
      let a := Reg.pllStatus j
      let n := t.fails + 1
      let wait := if 3 ≤ n then 100 * tickMs else tickMs
      let s := putPll j { t with closedAt := none, fails := n, failAt := s.mono, since := s.mono + wait } s
      let s := putB a 2 false (bump (Reg.pllCnt j) 16 16 1 s)
      if n = 3 then flagEvent (Src.pll j) noInst a 3 s else s

/-- A sync edge (R510, R511): dividers are loaded at the first after lock, and checked at every later one. -/
def pllSyncEdge (j : Nat) (shifted : Bool) (s : State) : State :=
  let a := Reg.pllStatus j
  if pllLocked s j = false ∨ syncSrc s j = 0 then s
  else if getB s a 1 = false then putB a 1 true (putPll j { pllTrack s j with readyAt := some s.mono } s)
  else if shifted then flagEvent (Src.pll j) noInst a 5 s
  else s

/-- RELOCK (R521). -/
def pllRelock (j : Nat) (s : State) : State :=
  if modeNow s = 5 then (if pllLocked s j then pllLose j s else pllEnable j s) else putB (Reg.pllStatus j) 6 true s

/-! ## Islands return (R518, R520) -/

/-- The islands of a quadrant's PLL are back: recovery that needs no host. -/
def islandRecover (x : Nat) (s : State) : State :=
  if x < 92 then
    let q := x / 23
    match x % 23 with
    | 18 =>
      let s := (upto (18 * q) 18).foldl (fun s n => if getB s (Reg.trkLinkCtrl n) 0 then ladderRestart n 0x60 s else s) s
      if q = 0 ∧ server s ≠ 0 then ladderRestart 72 0x60 s else s
    | 21 =>
      let s := (s.plan.cfg.inputs.filter fun c => decide (c.port / 288 = q) && decide (2 ≤ inState s c.port)).foldl (fun s c => setInState c.port 2 s) s
      (tabKeys s.mem.fs).foldl (fun s n => if quadOf n = q then putFs n { fsTrack s n with sel := none } s else s) s
    | 22 =>
      ((upto (32 * q) 32).filter fun e => decide (engState s e < 2)).foldl (fun s e =>
        let s := putEng e { engTrack s e with back := some s.now } s
        ((tasksOf s e).filter fun t => decide (t.probe < 512)).foldl (fun s t => probeRestart t.probe s) s) s
    | _ => s
  else if x = 94 then reselectFree s
  else if x = 97 then
    (upto 0 4).foldl (fun s p =>
      if getB s (Reg.audPortCtrl p) 3 = false ∧ audDirNow s p .tx = 1 then
        audDirState p .tx 2 (putAudPort p { audPort s p with txSince := s.mono } s)
      else s) s
  else s

/-- An island returns to its own clock (R518): at the first epoch boundary at least 1 µs after its PLL has locked and set SYNCED; a receive island while CK_OK is set. -/
def islandReturn (x : Nat) (s : State) : State :=
  if keepAlive s x = false then s
  else match islandPll x with
    | some j =>
      match (pllTrack s j).readyAt with
      | some t => if t + tickUs ≤ s.mono - s.now % tickEpoch then islandRecover x (islandBack x s) else s
      | none => s
    | none =>
      if x = 96 then (if s.pins.xoOk then islandBack x s else s)
      else
        let n := if x = 95 then 72 else 18 * (x / 23) + x % 23
        if getB s (linkStA n) 8 then islandBack x s else s

/-! ## XO_27 and FRAME_SYNC (R512, R515, R520, R523) -/

/-- XO_27 is absent: HUB.LINE runs on keep-alive, the timebase PLL loses its reference, and the timebase enters FREERUN. -/
def xoLost (s : State) : State :=
  if s.pins.xoOk = false then s
  else
    let s := { s with pins := { s.pins with xoOk := false } }
    let s := islandKeep 96 (stateEvent Src.frameSync noInst Reg.pllSyncStatus 1 1 1 s)
    refHold (pllLose 16 { s with ref := { s.ref with freqs := [] } })

/-- XO_27 is back: the timebase PLL can start to relock. -/
def xoBack (s : State) : State :=
  if s.pins.xoOk then s
  else
    let s := { s with pins := { s.pins with xoOk := true } }
    pllEnable 16 (islandBack 96 (stateEvent Src.frameSync noInst Reg.pllSyncStatus 1 1 0 s))

/-- The offset of the present from the nearest house-frame start of the timebase, in ns (R512, R523). -/
def frameOffset (s : State) : Int :=
  let r := houseRate s
  let near := rateStart r (rateFrame r (s.now + r.2 * tickSec / (2 * r.1)))
  ((s.now : Int) - (near : Int)) / (tickNs : Int)

/-- A FRAME_SYNC edge (R512, R523). -/
def frameSyncEdge (s : State) : State :=
  let a := Reg.pllSyncStatus
  let d := frameOffset s
  let n := if d.natAbs ≤ 500 then min 4 (s.plls.fsGood + 1) else 0
  let was := getB s a 0
  let s := putF a 16 16 (satTwos 16 d) { s with plls := { s.plls with fsGood := n } }
  if was = decide (4 ≤ n) then s
  else stateEvent Src.frameSync noInst a 0 1 (b2n (decide (4 ≤ n))) (putB a 2 true s)

/-! ## Commands -/

/-- PLL_LOCK_ATTEMPT (R505). -/
def execPllLockAttempt (dt pll : Nat) (edges : List Nat) (slow : List Bool) (s : State) : Host.Outcome State Fault Refusal :=
  .next (only (decide (pll < 20)) (pllAttempt pll edges slow) (tick dt s))

/-- PLL_LOCK (R505). -/
def execPllLock (dt pll : Nat) (errors : List Int) (s : State) : Host.Outcome State Fault Refusal :=
  .next (only (decide (pll < 20)) (pllLockDeclared pll errors) (tick dt s))

/-- PLL_ATTEMPT_FAIL (R507). -/
def execPllAttemptFail (dt pll : Nat) (s : State) : Host.Outcome State Fault Refusal := .next (only (decide (pll < 20)) (pllFail pll) (tick dt s))

/-- PLL_LOSS_OF_LOCK (R508). -/
def execPllLossOfLock (dt pll : Nat) (errors : List (Option Int)) (s : State) : Host.Outcome State Fault Refusal :=
  .next (only (decide (pll < 20)) (fun s => if pllSlipped (pllTrack s pll) errors then pllLose pll s else s) (tick dt s))

/-- PLL_DIVIDER_SYNC (R510). -/
def execPllDividerSync (dt pll : Nat) (shifted : Bool) (s : State) : Host.Outcome State Fault Refusal :=
  .next (only (decide (pll < 20)) (pllSyncEdge pll shifted) (tick dt s))

/-- PLL_RELOCK (R521). -/
def execPllRelock (dt pll : Nat) (s : State) : Host.Outcome State Fault Refusal := .next (only (decide (pll < 20)) (pllRelock pll) (tick dt s))

/-- XO_FAIL (R515). -/
def execXoFail (dt : Nat) (s : State) : Host.Outcome State Fault Refusal := .next (lineOnly true xoLost (tick dt s))

/-- XO_27_RETURN (R520). -/
def execXo27Return (dt : Nat) (s : State) : Host.Outcome State Fault Refusal := .next (lineOnly true xoBack (tick dt s))

/-- ISLAND_CLOCK_RETURN (R518). -/
def execIslandClockReturn (dt island : Nat) (s : State) : Host.Outcome State Fault Refusal := .next (only (decide (island < 99)) (islandReturn island) (tick dt s))

/-- FRAME_SYNC_EDGE (R512). -/
def execFrameSyncEdge (dt : Nat) (s : State) : Host.Outcome State Fault Refusal := .next (only true (fun s => frameSyncEdge s) (tick dt s))

/-- PCIE_LINK_DOWN (16_command_packets.md R624). -/
def execPcieLinkDown (dt : Nat) (s : State) : Host.Outcome State Fault Refusal := .next (only true (fun s => pcieDown s) (tick dt s))

/-- PCIE_LINK_UP (16_command_packets.md R624). -/
def execPcieLinkUp (dt : Nat) (s : State) : Host.Outcome State Fault Refusal := .next (only true (fun s => pcieUp s) (tick dt s))

end Sys2Proof.Machine
end

