-- ==== Sys2Proof/Machine/Time.lean ====
section
/-! DEFINITION. Timebase, PTP and edge capture (14_timebase_and_ptp.md). -/

namespace Sys2Proof.Machine

/-! ## The time and local time (R524, R528, R529) -/

/-- SEC, NS and FRAC of an instant (R524). -/
def timeFields (t : Nat) : Nat × Nat × Nat := (t / tickSec, t % tickSec / tickNs, t % tickNs * 65536 / tickNs)

/-- Time as command bodies hold it (R546). -/
def timeBody (t : Nat) : List (Nat × Nat) :=
  let f := timeFields t
  [(8, f.1), (4, f.2.1), (2, f.2.2), (2, 0)]

/-- `TMB_UTC` and the flags of `TMB_STATUS` written anew, with a record of a change of the flags. -/
def utcShow (s : State) : State :=
  let s := wr Reg.tmbUtc (BitVec.ofNat 32 (twos 16 (utcOfs s) + twos 16 (localOfs s) * 65536)) s
  stateEvent Src.timeOfDay noInst Reg.tmbStatus 1 2 (b2n (utcPtp s).isSome + 2 * b2n s.time.utcNext.isSome) s

/-- The end of the UTC day of the present time, in ticks of TAI. -/
def utcDayEnd (s : State) : Nat :=
  let u := ((s.now / tickSec : Nat) : Int) - utcOfs s
  (((u / 86400 + 1) * 86400 + utcOfs s).toNat) * tickSec

/-- UTC_OFS follows the selected master (R529): its first offset at once, a change after the end of the UTC day in which a leap second was last announced, with the leap second; at the next house frame where none has been announced. -/
def utcSettle (s : State) : State :=
  match utcPtp s with
  | none => utcShow { s with time := { s.time with ptpUtc := none, utcNext := none } }
  | some v =>
    match s.time.ptpUtc with
    | none => utcShow { s with time := { s.time with ptpUtc := some v, utcNext := none } }
    | some u =>
      if u = v then utcShow { s with time := { s.time with utcNext := none } }
      else if (s.time.utcNext.map Prod.fst) = some v then s
      else
        let t := match s.time.leapEnd with
          | some e => ((e : Int) + (v - u) * (tickSec : Int)).toNat
          | none => s.now
        utcShow { s with time := { s.time with utcNext := some (v, t) } }

/-- An announced change takes effect at the start of a house frame (R529). -/
def utcChange (s : State) : State :=
  match s.time.utcNext with
  | none => s
  | some (v, t) =>
    if t ≤ s.now then utcShow { s with time := { s.time with ptpUtc := some v, utcNext := none, leapEnd := none } } else s

/-! ## PTP ports (R532 to R535) -/

/-- QL of a master (R465). -/
def ptpQl (cls acc : Nat) : Nat :=
  match cls with
  | 6 => if acc = 0x20 ∨ acc = 0x21 then 15 else if acc = 0x22 ∨ acc = 0x23 then 14 else 13
  | 7 => 12
  | 52 => 8
  | 58 => 8
  | 187 => 4
  | 193 => 4
  | 248 => 2
  | 13 => 0
  | 14 => 0
  | 255 => 0
  | _ => 1

/-- Of two lists of numbers, the first is lower at the first place where they differ. -/
def lexLt : List Nat → List Nat → Bool
  | a :: as, b :: bs => decide (a < b) || (decide (a = b) && lexLt as bs)
  | _, _ => false

/-- The data set comparison (R533): two ways to one grandmaster by the steps to it, two grandmasters by their data sets; equal ones by the sender (log 210). -/
def betterMaster (a b : AnnounceMsg) : Bool :=
  if a.grandmaster = b.grandmaster then lexLt [a.steps, a.identity] [b.steps, b.identity]
  else lexLt [a.priority1, a.clockClass, a.clockAccuracy, a.variance, a.priority2, a.grandmaster]
    [b.priority1, b.clockClass, b.clockAccuracy, b.variance, b.priority2, b.grandmaster]

/-- The best of a list of masters. -/
def bestMaster : List AnnounceMsg → Option AnnounceMsg
  | [] => none
  | m :: r =>
    match bestMaster r with
    | none => some m
    | some b => if betterMaster b m then some b else some m

/-- Four announce intervals in ticks. -/
def announceWindow (log : Int) : Nat := if log < 0 then 4 * tickSec / 2 ^ log.natAbs else 4 * tickSec * 2 ^ log.natAbs

/-- A foreign master is qualified (R533): two Announce messages within four announce intervals, with ptpTimescale set, over fewer than 255 steps (log 210). -/
def qualified (now : Nat) (f : Foreign) : Bool :=
  (f.prev.elim false fun p => decide (now - p ≤ announceWindow f.msg.interval)) && f.msg.ptpTimescale && decide (f.msg.steps < 255)

/-- The master that a port chooses: the best of the qualified ones; the chosen one stays in the comparison until announceReceiptTimeout. -/
def masterOf (now : Nat) (chosen : Option Nat) (l : List Foreign) : Option AnnounceMsg :=
  bestMaster ((l.filter fun f => qualified now f || decide (chosen = some f.msg.identity)).map Foreign.msg)

/-- A PTP candidate is lost while the selection measures an open Δ (log 29). -/
def candLostFree (k : Nat) (s : State) : State :=
  let d : Int := ((freeValue s % 2 ^ 33 : Nat) : Int) - 2 ^ 32
  candLost k (fun _ => d) (useFree s)

/-- The master of a port changes (R534): the candidate is lost and the flag set where there was one before. -/
def ptpChoose (k : Nat) (m : Option AnnounceMsg) (s : State) : State :=
  let t := ptpPort s k
  let old := t.chosen
  let s := putPtp k { t with chosen := m.map AnnounceMsg.identity, lastAnn := none, sync := none, paths := [], reqs := [], utc := none } s
  let s := putB (Reg.ptpStatus k) 3 false (put64 (Reg.ptpGmLo k) ((m.map AnnounceMsg.identity).getD 0) s)
  let s := ptpState k (if m.isSome then 2 else 1) s
  if old.isSome then
    let s := if m.isSome then flagEvent (Src.ptp k) noInst (Reg.ptpStatus k) 24 s else s
    candLostFree (k + 2) s
  else s

/-- The Announce of the chosen master supplies the QL (R465), and the UTC offset (R529). -/
def ptpMaster (k : Nat) (m : AnnounceMsg) (s : State) : State :=
  let t := ptpPort s k
  let now := (m.clockClass, m.clockAccuracy, m.ptpTimescale)
  let a := Reg.ptpStatus k
  let s := putF a 16 8 m.clockAccuracy (putF a 8 8 m.clockClass s)
  let s := putPtp k { t with lastAnn := some now, utc := if m.utcValid then some m.utcOffset else none } s
  let s := if ptpSelected s = some k ∧ m.leap then { s with time := { s.time with leapEnd := some (utcDayEnd s) } } else s
  let ql := if m.ptpTimescale then (if t.lastAnn = some now then some (ptpQl m.clockClass m.clockAccuracy) else none) else some 0
  match ql with
  | none => utcSettle s
  | some q => utcSettle (candQl (k + 2) q (putF a 4 4 q s))

/-- An Announce (R533), which the firmware handles: masters are qualified, one is chosen, and its Announce is used. -/
def ptpAnnounce (k : Nat) (m : AnnounceMsg) (s : State) : State :=
  let t := ptpPort s k
  if server s ≠ 1 ∨ (candE s (k + 2)).enabled = false ∨ m.domain ≠ t.domain then s
  else
    let prev := (t.masters.find? fun x => decide (x.msg.identity = m.identity)).map Foreign.at_
    let ms := { msg := m, at_ := s.mono, prev := prev } :: t.masters.filter fun x => decide (x.msg.identity ≠ m.identity)
    let s := putPtp k { t with masters := ms } s
    let best := masterOf s.mono t.chosen ms
    let s := if best.map AnnounceMsg.identity = t.chosen then s else ptpChoose k best s
    if best.map AnnounceMsg.identity = some m.identity then ptpMaster k m s else s

/-- announceReceiptTimeout expires (R464): the master is gone; another qualified one is chosen where there is one. -/
def ptpTimeout (k : Nat) (s : State) : State :=
  let t := ptpPort s k
  if server s ≠ 1 ∨ t.chosen = none then s
  else
    let ms := t.masters.filter fun x => decide (t.chosen ≠ some x.msg.identity)
    utcSettle (ptpChoose k (masterOf s.mono none ms) (putPtp k { t with masters := ms } s))

/-- Mean path delay in ns (R535). -/
def pathMean (t : PtpPort) : Int := meanOf t.paths

/-- A Sync is used (R535): offset, count, the state of the port, and the phase error of the loop while its candidate is selected; one without a valid receive timestamp is discarded. Times in whole ns (log 211). -/
def ptpSync (k : Nat) (t1 corr : Int) (twoStep : Bool) (s : State) : State :=
  let t := ptpPort s k
  match if server s = 1 ∧ t.chosen.isSome then t.stamp.bind id else none with
  | none => putPtp k { t with stamp := none } s
  | some rx =>
    let t2 : Int := (rx / tickNs : Nat)
    let t := { t with sync := some (t1, t2, corr), stamp := none }
    let ofs := t2 - t1 - corr - pathMean t
    let s := bump (Reg.ptpCnt k) 0 16 1 (wr (Reg.ptpOffset k) (BitVec.ofNat 32 (satTwos 32 ofs)) (putPtp k t s))
    let s := ptpState k (if t.paths.isEmpty then 2 else 3) (putB (Reg.ptpStatus k) 3 twoStep s)
    if s.ref.sel = some (k + 2) then loopStep ((candE s (k + 2)).delayComp - ofs - ofsShown s) s else s

/-- A Delay_Resp answers the Delay_Req of its sequence number (R535). -/
def ptpDelayResp (k seq : Nat) (t4 corr : Int) (s : State) : State :=
  let t := ptpPort s k
  match t.sync, t.reqs.find? (fun q => decide (q.1 = seq)) with
  | some (t1, t2, c), some (_, t3) =>
    if server s ≠ 1 then s
    else
      let p := ((t2 - t1 - c) + (t4 - t3 - corr)) / 2
      let t := { t with reqs := t.reqs.filter fun q => decide (q.1 ≠ seq), paths := (p :: t.paths).take 16 }
      wr (Reg.ptpPath k) (BitVec.ofNat 32 (min (2 ^ 32 - 1) (pathMean t).toNat)) (putPtp k t s)
  | _, _ => s

/-- A Delay_Req is sent to a chosen master (R532, R542): t3 is the time at which it is built, its T0 (R536). -/
def ptpDelayReq (k : Nat) (s : State) : State :=
  let t := ptpPort s k
  if server s ≠ 1 ∨ t.chosen = none then s
  else putPtp k { t with reqs := t.reqs ++ [(t.seq, ((s.now / tickNs : Nat) : Int))], seq := (t.seq + 1) % 65536 } s

/-- A frame's receive timestamp, or TS_LATE, for its record and for its port. -/
def sfdStamp (k g : Nat) (t : Option Nat) (s : State) : State :=
  putPtp k { ptpPort s k with stamp := some t } (putEth g { ethTrack s g with sfd := some t } s)

/-- An SFD event (R539 to R542): a timestamp accurate to ±4 ns with the calibration's offset in place, or TS_LATE while an earlier event is handled; none while the firmware is away. -/
def ptpSfd (k : Nat) (s : State) : State :=
  let e := candE s (k + 2)
  let g := ptpChannel s k
  if e.enabled = false ∨ server s ≠ 1 ∨ 64 ≤ g then s
  else if s.mono < s.time.sfdBusy then bump (Reg.ptpCnt k) 16 16 1 (sfdStamp k g none s)
  else
    let cal := rxCal s k
    let err : Int := ((freeValue s % (8 * tickNs + 1) : Nat) : Int) - 4 * (tickNs : Int)
    let t := (s.now : Int) + err + ((cal : Int) - (getF s (Reg.ptpRxOfs k) 0 20 : Nat)) * 297 / 1000
    let s := useFree s
    let s := { s with time := { s.time with sfdBusy := s.mono + freeValue s % (60 * tickNs + 1) } }
    sfdStamp k g (some t.toNat) (useFree s)

/-! ## Edge capture (R543 to R545, R549) -/

def capTrack (s : State) (c : Nat) : CapTrack := tabGet capTrack0 c s.time.cap

def putCap (c : Nat) (t : CapTrack) (s : State) : State := { s with time := { s.time with cap := tabSet capTrack0 c t s.time.cap } }

/-- SEC, NS and FRAC of a captured time. -/
def capFields (t : Nat) : Nat × Nat × Nat := (t / 65536 / 1000000000, t / 65536 % 1000000000, t % 65536)

/-- A captured time in units of 2⁻¹⁶ ns: whole fabric cycles, within ±1 of the edge (R544), less CAP_OFS. -/
def capTime (s : State) (c : Nat) : Nat :=
  let e : Int := ((freeValue s % 3 : Nat) : Int) - 1
  let cycles : Int := ((s.now / tickCycle : Nat) : Int) + e
  (cycles * 250 * 65536 / 297 - untwos 16 (getF s (Reg.capCtrl c) 16 16) * 65536 / 1000).toNat

/-- An edge on a channel (R545): the first selected one of an epoch is recorded with its event record, the others are counted. -/
def captureEdge (c : Nat) (falling : Bool) (s : State) : State :=
  let a := Reg.capCtrl c
  if getB s a (b2n falling) = false then s
  else
    let t := capTrack s c
    if t.epoch = epochNow s + 1 then bump (Reg.capFrac c) 16 16 1 (putCap c { t with missed := satAdd 16 t.missed 1 } s)
    else
      let x := capTime s c
      let f := capFields x
      let before := if t.epoch = epochNow s then t.missed else 0
      let s := putCap c { time := x, epoch := epochNow s + 1, missed := 0 } (useFree s)
      let s := putB a 2 falling s
      let at_ := s.now
      let s := raise (Src.capture c) noInst 4 (BitVec.ofNat 32 (f.1 / 2 ^ 32)) (BitVec.ofNat 32 (f.2.2 + b2n falling * 65536)) (BitVec.ofNat 32 before)
        { s with now := x * 297 / 65536 }
      { s with now := at_ }

/-- A read of `CAP_NS` (R549): the next two registers take the fields of the same edge. -/
def capRead (c : Nat) (s : State) : State :=
  let f := capFields (capTrack s c).time
  let s := putF (Reg.capFrac c) 0 16 f.2.2 (wr (Reg.capSec c) (BitVec.ofNat 32 f.1) s)
  { wr (Reg.capNs c) (BitVec.ofNat 32 f.2.1) s with readData := BitVec.ofNat 32 f.2.1 }

/-- A read of `TMB_NOW_NS` (R526). -/
def nowRead (s : State) : State :=
  let f := timeFields s.now
  let s := wr Reg.tmbNowFrac (BitVec.ofNat 32 f.2.2) (put64 Reg.tmbNowSecLo f.1 s)
  { s with readData := BitVec.ofNat 32 f.2.1 }

/-! ## Commands' effects (R528, R546) -/

/-- The time that `TIME_SET` leaves: with REF_A or REF_B selected it is moved by Δ, so that the reference keeps its frame phase (R528). -/
def timeSetTo (s : State) (t : Nat) : Nat :=
  match s.ref.sel with
  | none => t
  | some k =>
    let unit : Int := 10000000000
    let p : Int := max 1 (refPeriod s (candE s k).fmt)
    let m := ((s.now : Int) * unit + refOfs s - (t : Int) * unit) % p
    (((t : Int) * unit + (if p < 2 * m then m - p else m)) / unit).toNat

/-- `TIME_SET`. -/
def fxTimeSet (c : Cmd) (sec ns : Nat) (s : State) : State :=
  let full := (s.ref.sel.map fun k => decide (2 ≤ k)).getD false
  if modeNow s ≠ 0 ∨ full then refuse c St.timeState s
  else
    let s := setOfs 0 { s with now := timeSetTo s (sec * tickSec + ns * tickNs) }
    let s := stateEvent Src.timeOfDay noInst Reg.tmbStatus 0 1 1 s
    forward (.command c.pkt.body (houseFrame s)) (complete c St.ok 0 (timeBody s.now) s)

/-- `TIME_CONF`. -/
def fxTimeConf (c : Cmd) (s : State) : State := scheduleCmd c (fun f => [(8, f)]) s

/-- `TIME_CONF` takes effect, and is saved with the reference configuration (R531). -/
def applyTimeConf (utc loc : Int) (flags jam : Nat) (s : State) : State :=
  let s := { s with time := { s.time with conf := { utcOfs := utc, localOfs := loc, flags := flags, jam := jam } } }
  utcSettle (if server s = 1 then refSave s else s)

/-- `PTP_SET`: the port restarts in LISTENING, without its master. -/
def fxPtpSet (c : Cmd) (cand domain flags dscp vlan ownIp : Nat) (s : State) : State :=
  let k := cand - 2
  let t := ptpPort s k
  let lost := t.chosen.isSome
  let s := putPtp k { t with domain := domain, flags := flags, dscp := dscp, vlan := vlan, ownIp := ownIp } s
  let s := putB (Reg.ptpStatus k) 25 (nbit flags 1) s
  let s := ptpRestart k s
  done c (utcSettle (if lost then candLostFree cand s else s))

/-- `CAP_SET`. -/
def fxCapSet (c : Cmd) (channel edge : Nat) (ofs : Int) (s : State) : State :=
  let a := Reg.capCtrl channel
  done c (putF a 16 16 (twos 16 ofs) (putF a 0 2 edge s))

/-- `TIME_QUERY`. -/
def fxTimeQuery (c : Cmd) (s : State) : State :=
  let regs := [Reg.tmbUtc, Reg.tmbStatus] ++ [0, 1].flatMap fun k => [Reg.ptpStatus k, Reg.ptpOffset k, Reg.ptpPath k, Reg.ptpCnt k]
  complete c St.ok 0 (timeBody s.now ++ regs.map fun a => (4, (rd s a).toNat)) s

/-! ## Commands -/

/-- TMB_NOW_NS_READ (R526). -/
def execTmbNowNsRead (dt : Nat) (s : State) : Host.Outcome State Fault Refusal := .next (only true (fun s => nowRead s) (tick dt s))

/-- CAP_NS_READ (R549). -/
def execCapNsRead (dt channel : Nat) (s : State) : Host.Outcome State Fault Refusal := .next (only (decide (channel < 16)) (capRead channel) (tick dt s))

/-- PTP_SFD_EVENT (R539). -/
def execPtpSfdEvent (dt port : Nat) (s : State) : Host.Outcome State Fault Refusal := .next (only (decide (port < 2)) (ptpSfd port) (tick dt s))

/-- PTP_ANNOUNCE (R533). -/
def execPtpAnnounce (dt port : Nat) (msg : AnnounceMsg) (s : State) : Host.Outcome State Fault Refusal :=
  .next (only (decide (port < 2)) (ptpAnnounce port msg) (tick dt s))

/-- PTP_SYNC (R535). -/
def execPtpSync (dt port : Nat) (t1 correction : Int) (twoStep : Bool) (s : State) : Host.Outcome State Fault Refusal :=
  .next (only (decide (port < 2)) (ptpSync port t1 correction twoStep) (tick dt s))

/-- PTP_DELAY_RESP (R535). -/
def execPtpDelayResp (dt port seq : Nat) (t4 correction : Int) (s : State) : Host.Outcome State Fault Refusal :=
  .next (only (decide (port < 2)) (ptpDelayResp port seq t4 correction) (tick dt s))

/-- PTP_DELAY_REQ_SEND (R532). -/
def execPtpDelayReqSend (dt port : Nat) (s : State) : Host.Outcome State Fault Refusal := .next (only (decide (port < 2)) (ptpDelayReq port) (tick dt s))

/-- PTP_ANNOUNCE_TIMEOUT (R464). -/
def execPtpAnnounceTimeout (dt port : Nat) (s : State) : Host.Outcome State Fault Refusal := .next (only (decide (port < 2)) (ptpTimeout port) (tick dt s))

/-- UTC_OFFSET_CHANGE (R529). -/
def execUtcOffsetChange (dt : Nat) (s : State) : Host.Outcome State Fault Refusal := .next (only true (fun s => utcChange s) (tick dt s))

/-- CAPTURE_EDGE (R545). -/
def execCaptureEdge (dt channel : Nat) (falling : Bool) (s : State) : Host.Outcome State Fault Refusal :=
  .next (only (decide (channel < 16)) (captureEdge channel falling) (tick dt s))

end Sys2Proof.Machine
end

