-- ==== Sys2Proof/Machine/Pair.lean ====
section
/-! DEFINITION. The pair: roles, heartbeat, pairing, joining, comparison, the dual rail, and the commands of R594 (15_the_pair.md). -/

namespace Sys2Proof.Machine

def putPair (f : PairState → PairState) (s : State) : State := { s with pair := f s.pair }

/-- Present heartbeat (R596). -/
def hbOk (s : State) : Bool := getB s Reg.pairStatus 4

def partnerMode (s : State) : Nat := getF s Reg.pairStatus 16 3

/-- Digests are compared (R573; 24_service_mode.md R802, R805): paired, with both units in modes 1 to 4. -/
def comparing (s : State) : Bool :=
  paired s && hbOk s && !s.pair.svcSync && inMode s && decide (1 ≤ partnerMode s) && decide (partnerMode s ≤ 4)

/-- COMPARE_ON, and PARTNER_MATCH (01_compiled_plan.md R71). -/
def pairRefresh (s : State) : State :=
  let s := putB Reg.pairStatus 5 (comparing s) s
  putB Reg.planState 14 (s.pair.planSame && hbOk s && decide (partnerMode s = modeNow s)) s

/-! ## CAP (R556) -/

/-- A condition that holds CAP at 128 has ended: clean epochs count from the next one. -/
def capEnd (s : State) : State := putPair (fun p => { p with capFrom := epochNow s + 1, capClean := 0 }) s

/-- CAP becomes 128. -/
def capLow (s : State) : State := capEnd (setCap 128 s)

/-- A resync is pending in this unit, which holds its CAP at 128 (R556, R576). -/
def resyncDue (s : State) : State := capLow (putB Reg.pairStatus 6 true s)

/-- Epoch `e` is judged (R556): clean where `ok` holds and no penalty was in force in it. The 64th clean epoch counted returns CAP to 255. -/
def judgeEpoch (e : Nat) (ok : Bool) (s : State) : State :=
  let clean := ok && (decide (e < s.pair.penFrom) || decide (s.pair.penTo ≤ e))
  let s := putF Reg.pairHealth 24 7 (if clean then min 64 (getF s Reg.pairHealth 24 7 + 1) else 0) s
  let counts := clean && decide (getF s Reg.pairHealth 8 8 = 128) && !getB s Reg.pairStatus 6 && decide (s.pair.capFrom ≤ e)
  let k := if clean = false then 0 else if counts then s.pair.capClean + 1 else s.pair.capClean
  let s := putPair (fun p => { p with capClean := k }) s
  if counts ∧ 64 ≤ k then setCap 255 s else s

/-! ## Colours of the media flows (08_media_flows.md R353; R581) -/

/-- The unit returns to sending its colour: the frame is agreed with the partner, at least 1 ms ahead (log 35). -/
def colourReturn (s : State) : State :=
  if paired s && hbOk s && !mediaSilent s then
    let f := earliestFrame s tickMs
    send (.colour f) (putPair (fun p => { p with colourAt := some f }) s)
  else s

/-! ## Roles (R558, R559) -/

/-- The unit takes a role under its partner: at join step 4 or beyond, or paired, with the partner's heartbeat. -/
def isJoined (s : State) : Bool := (paired s || decide (4 ≤ joinStep s)) && hbOk s

/-- The claim written into the last mirror header exceeds the partner's (R558). -/
def claimWins (s : State) : Bool := decide (getF s Reg.pairClaim 16 16 < s.pair.claim)

/-- The MIRROR candidate follows R466 (12_reference_selection.md R464). -/
def mirrorCandidate (s : State) : State :=
  if 6 ∈ s.ref.present then (if mirrorUsable s && hbOk s then s else candLostFree 6 s) else candPresent 6 s

/-- The role is evaluated anew: ACTIVE in bit 1 and SOLO in bit 2, with a record, a count and SWITCH_SEEN for every change. -/
def setRole (s : State) : State :=
  let was := getF s Reg.pairStatus 1 2
  let now := if isJoined s then b2n (claimWins s) else 3
  if was = now then s
  else
    let before := rd s Reg.pairStatus
    let s := count Reg.pairSwitches (putB Reg.pairStatus 12 true (putF Reg.pairStatus 1 2 now s))
    let s := putPair (fun p => { p with grace := if was = 0 then 2 else p.grace }) s
    mirrorCandidate (raiseState Src.role noInst Reg.pairStatus before s)

/-! ## Leaving and starting a join (R563, R569) -/

/-- JOIN_STEP, with a record of source 0x6B4 on a change. -/
def joinTo (v : Nat) (s : State) : State := stateEvent Src.joining noInst Reg.pairStatus 20 3 v s

/-- `PAIR_RESYNC` commands that cannot complete (R594). -/
def resyncFail (s : State) : State :=
  let l := s.pair.resyncCmds
  l.foldl (fun s c => finishAt c St.pairNoPartner (houseFrame s) [] s) (putPair (fun p => { p with resyncCmds := [] }) s)

/-- The pairing, and any join, ends: forwarding, comparison and resync stop (R563, R568). -/
def unpair (s : State) : State :=
  let s := if getB s Reg.pairStatus 6 then capEnd s else s
  let s := joinTo 0 (putF Reg.pairStatus 5 2 0 (putB Reg.pairStatus 0 false s))
  let s := putPair (fun p => { p with tieMoved := false, keyed := false, pairStep := 0, authAt := none, held := false, svcSync := false,
                                      planSame := false, snapDue := false, own := [], hdrs := [] }) s
  setRole (pairRefresh (resyncFail s))

/-- Join step 1 (R569, R556): CAP becomes 128, except in a SOLO unit in modes 1 to 4 with CAP 255. A unit on HOLD stays unpaired (R595). -/
def joinStart (s : State) : State :=
  if getB s Reg.pairCtrl 6 then s
  else
    let s := joinTo 1 (putB Reg.pairStatus 13 false s)
    if getB s Reg.pairStatus 2 && inMode s && decide (capNow s = 255) then s else resyncDue s

/-- INCOMPAT and SOLO (R560, R569 step 3). -/
def incompat (s : State) : State :=
  let before := rd s Reg.pairStatus
  raiseState Src.joining noInst Reg.pairStatus before (putB Reg.pairStatus 13 true (unpair s))

/-! ## Mirror headers and heartbeat (R562, R563) -/

/-- What a mirror frame has brought (R558, R562): the first valid header of its lanes, and the bytes accepted under R218. -/
structure MirrorFrame where
  hdr : RxHdr
  flags : Nat
  heartbeat : Nat
  /-- Arrival of the partner's block 0 minus own frame start, in ns (R594). -/
  offset : Int
  deriving DecidableEq, Repr

/-- Arrival of a block 0 minus the nearest own frame start, in ns. -/
def mirrorOffset (s : State) (since : Nat) : Int :=
  let r := rateDenom (getF s (linkStA 72) 6 2)
  let x := (s.now - (s.mono - since)) * r % frameNum
  (if frameNum < 2 * x then (x : Int) - (frameNum : Nat) else (x : Int)) / ((r * tickNs : Nat) : Int)

/-- The mirror frame last received, where a lane has brought a valid header that has not been taken. -/
def mirrorHeard (s : State) : Option MirrorFrame :=
  (((upto 0 4).filterMap fun l => (laneTrack s (576 + l)).pend).find? fun h => h.valid && decide (s.pair.hdrAt ≠ some h.since)).map fun h =>
    { hdr := h, flags := tabGet 0 0 s.pair.msg, heartbeat := tabGet 0 1 s.pair.msg, offset := mirrorOffset s h.since }

/-- A mirror trunk frame arrives (R558, R562). A heartbeat that returns leads into the join; a partner that no longer reports PAIRED has left the pair. -/
def mirrorFrame (s : State) : State :=
  if linkRun s 72 = false then s
  else
    let s := putPair (fun p => { p with grace := p.grace - 1 }) s
    match mirrorHeard s with
    | none => setRole s
    | some f =>
      let wasPaired := nbit s.pair.peerFlags 2
      let a := Reg.pairStatus
      let s := wr Reg.pairOffset (BitVec.ofNat 32 (satTwos 32 f.offset)) (putF Reg.pairClaim 16 16 f.hdr.claim s)
      let back := !hbOk s
      let s := putPair (fun p => { p with
        hdrAt := some f.hdr.since, peerFlags := f.flags % 256, hbAt := s.mono, hbByte := f.heartbeat
        hbAdv := if f.heartbeat ≠ p.hbByte ∨ back then s.mono else p.hbAdv
        hdrs := if (f.hdr.claim, f.flags) ∈ p.hdrs then p.hdrs else p.hdrs ++ [(f.hdr.claim, f.flags)] }) s
      let s := putB a 4 true (putB a 9 (nbit f.flags 3) (putF a 16 3 (nfld f.flags 4 3) (putB a 19 (nbit f.flags 7) s)))
      let s := if back && decide (joinStep s = 0) then joinStart s
        else if paired s && wasPaired && !nbit f.flags 2 then joinStart (unpair s) else s
      mirrorCandidate (setRole (pairRefresh (candQl 6 f.hdr.ql s)))

/-- 16 mirror frames (R563). -/
abbrev mirror16 : Nat := 10_177 * tickNs

/-- The heartbeat is lost (R563): no valid header for 16 mirror frames, or no advance of its byte in 3 epochs. -/
def heartbeatLost (s : State) : State :=
  if hbOk s && (decide (s.pair.hbAt + mirror16 ≤ s.mono) || decide (s.pair.hbAdv + 3 * tickEpoch ≤ s.mono)) then
    let a := Reg.pairStatus
    let s := putB a 4 false (putB a 9 false (putF a 16 4 0 (putPair (fun p => { p with peerFlags := 0 }) s)))
    mirrorCandidate (unpair s)
  else s

/-! ## Pairing (R566, R567) -/

/-- Pairing fails (R566): AUTH_FAIL_SEEN, the count, and a record. -/
def pairingFail (s : State) : State :=
  flagEvent Src.joining noInst Reg.pairStatus 11
    (bump Reg.pairMirAuth 0 16 1 (putPair (fun p => { p with pairStep := 0, authAt := some s.mono, keyed := false }) s))

/-- Pairing begins (R566 step 1): the certificate and a random nonce are sent; the ephemeral key of step 3 is taken at random (log 3). -/
def pairingStart (s : State) : State :=
  let nonce := freeValue s % 2 ^ 256
  let s := useFree s
  let key := freeValue s % (ecN - 1) + 1
  send (.hello s.otp.cert nonce) (putPair (fun p => { p with pairStep := 1, authAt := none, keyed := false, exch := { pairing0 with ownNonce := nonce, ownKey := key } }) (useFree s))

/-- The SHA-384 transcript of steps 1 to 3 over which a unit signs (R566): its certificate and nonce, the other unit's, and its ephemeral public key (log 216). -/
def transcript (cert : List Nat) (nonce : Nat) (cert' : List Nat) (nonce' key : Nat) : Nat :=
  sha384 (cert.length + cert'.length + 161)
    (packLe [(cert.length, bytesNum cert), (32, nonce), (cert'.length, bytesNum cert'), (32, nonce'), (97, key)])

/-- The partner's certificate verifies against the device root in ROM, names the same variant, and the pinned serial number where PIN is set (R566 step 2; 19_identity.md R692). -/
def partnerProven (s : State) (c : Cert) : Bool :=
  certSigned s.sec.root c && decide (c.variant = variantName) && (!getB s Reg.pairCtrl 5 || decide (c.serial = get64 s Reg.pairPinSnLo))

/-- Step 3: this unit's ephemeral public key, signed with the device key. -/
def exchangeSend (s : State) : State :=
  let x := s.pair.exch
  let pub := ecPublic x.ownKey
  let sig := ecdsaSign s.sec.key (freeValue s) (transcript s.otp.cert x.ownNonce x.cert x.nonce pub)
  send (.exchange pub sig.1 sig.2) (useFree s)

/-- A step of R566 ends: step 2 checks the certificate, the pinned serial number and KEY_OK (19_identity.md R691), step 3 the partner's signature, and step 4 gives the keys. The unit in slot 1 then moves its TIE past an equal one (R551). -/
def pairingStep (m : PairMsg) (s : State) : State :=
  if joinStep s ≠ 2 ∨ server s ≠ 1 then s
  else match s.pair.pairStep, m with
    | 1, .hello cert nonce => putPair (fun p => { p with pairStep := 2, exch := { p.exch with cert := cert, nonce := nonce } }) s
    | 2, .check =>
      match (certParse s.pair.exch.cert).filter (partnerProven s) with
      | some c =>
        if getB s Reg.idStatus 0 then exchangeSend (putPair (fun p => { p with pairStep := 3 }) (put64 Reg.pairPartnerSnLo c.serial s))
        else pairingFail s
      | none => pairingFail s
    | 3, .key pub r sg =>
      let x := s.pair.exch
      let ok := ((certParse x.cert).map fun c => ecdsaOver c.key r sg (transcript x.cert x.nonce s.otp.cert x.ownNonce pub)).getD false
      if ok then putPair (fun p => { p with pairStep := 4, exch := { p.exch with key := pub } }) s else pairingFail s
    | 4, .derive =>
      let same := s.pins.pairSel && decide (s.otp.serial % 14 = get64 s Reg.pairPartnerSnLo % 14)
      putPair (fun p => { p with pairStep := 0, keyed := true, keyAt := s.mono, tieMoved := same }) s
    | _, _ => s

/-- Pairing starts again 1 s after a failure (R566). -/
def pairingRetry (s : State) : State :=
  match s.pair.authAt with
  | some t =>
    if joinStep s = 2 ∧ server s = 1 ∧ t + tickSec ≤ s.mono then pairingStart s else s
  | none => s

/-- The keys are renewed every 24 h (R567), by the firmware (R586). -/
def keyRenew (s : State) : State :=
  if s.pair.keyed ∧ server s = 1 ∧ s.pair.keyAt + 86400 * tickSec ≤ s.mono then
    putPair (fun p => { p with keyAt := s.mono, renewals := p.renewals + 1 }) s
  else s

/-- A mirror ladder that ended below step 3 starts again after 10 s (R561). -/
def mirrorRetry (s : State) : State :=
  if linkRun s 72 && getB s Reg.mirLinkStatus 12 && decide (server s = 1) && decide ((linkTrack s 72).since + 10 * tickSec ≤ s.mono) then
    ladderRestart 72 0x60 s
  else s

/-- An unacknowledged message is sent again, under its number (R565). -/
def retransmit (seq : Nat) (s : State) : State :=
  putPair (fun p => { p with outbox := p.outbox ++ (p.outbox.filter fun x => decide (x.1 = seq)).take 1 }) s

/-! ## Join steps (R569) -/

/-- The active unit copies its plan, slates and surfaces (R569 step 5). -/
def joinCopy (s : State) : State :=
  if getB s Reg.pairStatus 1 then
    let s := match s.plan.committed with
      | some b => send (.plan b) s
      | none => s
    let s := s.mem.slates.foldl (fun s x => send (.slate x.1 x.2.width x.2.height x.2.scan x.2.length 0 x.2.words) s) s
    s.comp.surfaces.foldl (fun s x => x.2.lines.foldl (fun s r => send (.surface (x.1 / 21) (x.1 % 21) 0 { fmt := x.2.fmt, x := 0, y := r.1, rows := [r.2] }) s) s) s
  else s

/-- Step 5 ends where PARTNER_MATCH reads 1. -/
def joinMatched (s : State) : State :=
  let s := pairRefresh (putPair (fun p => { p with planSame := true, held := false }) s)
  if getB s Reg.planState 14 then joinTo 6 s else s

/-- The standby has refused the plan: the join holds at step 5, `PLAN_LAST_STATUS` of the standby names the refusal, and a record is raised. -/
def joinRefused (st : Nat) (s : State) : State :=
  let s := putPair (fun p => { p with held := true, planSame := false }) s
  let s := if getB s Reg.pairStatus 1 then s else wr Reg.planLastStatus (BitVec.ofNat 32 (st + 0xFF * 65536)) s
  raiseFlag Src.joining noInst Reg.pairStatus 20 (pairRefresh s)

/-- PAIRED at an epoch boundary: forwarding and comparison start, and a unit that was standby sends its colour again. -/
def pairUp (s : State) : State :=
  let s := joinTo 0 (putB Reg.pairStatus 0 true s)
  let s := setRole (pairRefresh (putPair (fun p => { p with badInputs := (0, []) }) s))
  if getB s Reg.pairStatus 1 then s else colourReturn s

/-- A join step ends (R569). From step 2 on the firmware takes the steps (R586). -/
def joinAdvance (r : JoinResult) (s : State) : State :=
  let k := joinStep s
  if getB s Reg.pairCtrl 6 ∨ server s ≠ 1 then s
  else match r with
  | .incompatible => if 1 ≤ k ∧ k ≤ 3 then incompat s else s
  | .version v accepts =>
    if k ≠ 3 then s
    else
      let s := putPair (fun p => { p with peerVersion := some v }) s
      if accepts && decide (v ∈ ((runImage s).map FwImage.accepts).getD []) then setRole (joinTo 4 s) else incompat s
  | .planRefused st => if k = 5 then joinRefused st s else s
  | .planMatch => if k = 4 then joinMatched (joinTo 5 s) else if k = 5 then joinMatched s else s
  | .ok =>
    match k with
    | 1 => if getB s Reg.pairStatus 3 && hbOk s then pairingStart (joinTo 2 s) else s
    | 2 => if s.pair.keyed then joinTo 3 s else s
    | 4 => joinCopy (joinTo 5 s)
    | 5 => joinMatched s
    | 6 => if getB s Reg.pairStatus 6 then s else joinTo 7 s
    | 7 => if s.now % tickEpoch = 0 then pairUp s else s
    | _ => s

/-- Step 5 is tried again (R569): the active unit has committed another plan, or `PAIR_LINK` has come. -/
def joinRetry (s : State) : State :=
  if joinStep s = 5 ∧ s.pair.held then joinCopy (putPair (fun p => { p with held := false }) s) else s

/-! ## Resync (R570, R576, R577) -/

/-- The standby requests a snapshot; the active unit, asked for one, sends it at the next epoch boundary. -/
def resyncRequest (s : State) : State :=
  if server s ≠ 1 ∨ isJoined s = false then s
  else if getB s Reg.pairStatus 1 then putPair (fun p => { p with snapDue := true }) (putB Reg.pairStatus 6 true s)
  else if getB s Reg.pairStatus 6 ∨ joinStep s = 6 then send .resyncRequest (resyncDue s)
  else s

/-- DIVERGED cleared, by `PAIR_RESYNC` in either unit (R594). -/
def clearDiverged (s : State) : State :=
  setLevel Src.diverged Reg.pairStatus false (putB Reg.pairStatus 7 false (putPair (fun p => { p with resyncDone := none }) s))

/-- The resync is complete in this unit (R570, R594). -/
def resyncEnd (s : State) : State :=
  let l := s.pair.resyncCmds
  let s := capEnd (putB Reg.pairStatus 6 false s)
  let s := putPair (fun p => { p with resyncDone := some (epochNow s), svcSync := false, resyncCmds := [], snapDue := false }) s
  pairRefresh (l.foldl (fun s c => finishAt c St.ok (houseFrame s) [] s) s)

/-- A STATE mismatch in epoch `e` (R576, R577): within 8 epochs after a resync the pair is DIVERGED, and otherwise the standby resynchronises; one of an epoch before the end of a resync is covered by it. -/
def stateMismatch (e : Nat) (s : State) : State :=
  let standby := isStandby s
  let start := if standby && !getB s Reg.pairStatus 6 then resyncDue s else s
  if getB s Reg.pairStatus 7 then s
  else match s.pair.resyncDone with
    | some r =>
      if e < r then s
      else if e < r + 8 then setLevel Src.diverged Reg.pairStatus true (putB Reg.pairStatus 7 true s)
      else start
    | none => start

/-! ## Comparison (R571 to R575, R592) -/

/-- The sources on the path of output `d` (R575): those of its levels, those behind the process returns among them, and those of its embedded audio channels. -/
def pathOf (s : State) (d : Nat) : List Nat :=
  let audio := ((upto 0 32).filterMap fun c => audRoute s (32 * d + c)).filterMap fun x => if x < 36864 then some (x / 32) else none
  upstream (fun d => routeOf s d 0) (procLinks s) (procLinks s).length (distinct ((upto 0 10).map (routeOf s d) ++ audio))

/-- The inputs whose words or samples can reach output `d` (R575). -/
def closureOf (s : State) (d : Nat) : List Nat := (pathOf s d).filter fun x => decide (x < 1152)

/-- A block lies on the path of output `d` (R574). -/
def onPath (s : State) (d : Nat) : PathBlock → Bool
  | .output n => decide (n = d)
  | .source n => decide (n ∈ pathOf s d)
  | .engine e => s.plan.cfg.tasks.any fun t => (decide (e ∈ taskEngines t) || (decide (modeNow s = 2) && decide (e ∈ (taskEngines t).map (· + 64))))
      && (decide (t.ret ∈ pathOf s d) || decide (t.port = d))

/-- Keys at which two digest lists differ. -/
def digestDiff (own partner : List (Nat × Nat)) : List Nat :=
  (own.filter fun x => decide (tabFind x.1 partner ≠ some x.2)).map Prod.fst

/-- Kind of a mismatch of output `d` (R574): 1 OWN, 2 INPUT, 3 STATE. -/
def mismatchKind (s : State) (hits : List PathBlock) (inputs : List Nat) (d : Nat) : Nat :=
  if hits.any (onPath s d) then 1 else if (closureOf s d).any fun x => decide (x ∈ inputs) then 2 else 3

/-- One mismatch reported (R574): the count of its kind, `PAIR_LAST_MIS`, and a record for the first of its kind in the epoch. -/
def reportMis (e : Nat) (x : Nat × Nat) (first : Bool) (s : State) : State :=
  let s := match x.2 with
    | 1 => bump Reg.pairCmpOwn 0 16 1 s
    | 2 => bump Reg.pairCmpCnt 16 16 1 s
    | _ => bump Reg.pairCmpCnt 0 16 1 s
  let s := wr Reg.pairLastMis (BitVec.ofNat 32 (x.1 % 2048 + x.2 * 4096 + e % 65536 * 65536)) s
  if first then raiseFlag Src.compare noInst Reg.pairLastMis 12 s else s

/-- The mismatches of an epoch, as output and kind, in turn; `seen` are the kinds reported. -/
def reportAll (e : Nat) : List Nat → List (Nat × Nat) → State → State
  | _, [], s => s
  | seen, x :: r, s => reportAll e (x.2 :: seen) r (reportMis e x (decide (x.2 ∉ seen)) s)

/-- A rail is excluded for 64 epochs (R592): HOME_EXCL or TWIN_EXCL, and its flag. -/
def excludeRail (q : Nat) (s : State) : State :=
  let a := Reg.mirRailState (q % 2)
  putB a (18 + q / 2) true (putB a (16 + q / 2) true (putPair (fun p => { p with railEx := tabPut q (epochNow s + 64) p.railEx }) s))

/-- The rails of logical output `n` against each other and the partner (R592). Entry n + 576 of a digest list is the twin rail's. -/
def compareRail (own partner : Digests) (s : State) (n : Nat) : State :=
  match tabFind n own.outputs, tabFind (n + 576) own.outputs, tabFind n partner.outputs with
  | some h, some t, some p =>
    if h ≠ t ∧ t = p then excludeRail (n / 288) s else if h ≠ t ∧ h = p then excludeRail (n / 288 + 2) s else s
  | _, _, _ => s

/-- The partner's digests of epoch `e`, where they have arrived, are compared (R573, R574). -/
def compareDigests (e : Nat) (s : State) : State :=
  match s.pair.own.find? fun x => decide (x.1 = e), s.pair.peer.find? fun x => decide (x.1 = e) with
  | some x, some y =>
    if comparing s = false then s
    else
      let own := x.2
      let partner := y.2
      let inputs := digestDiff own.inputs partner.inputs
      let near := inputs ++ (if s.pair.badInputs.1 + 1 = e then s.pair.badInputs.2 else [])
      let top := if modeNow s = 2 then 576 else 1152
      let outs := (digestDiff own.outputs partner.outputs).filter fun n => decide (n < top)
      let kinds := outs.map fun d => (d, mismatchKind s (own.hits ++ partner.hits) near d)
      let stateBad := decide (own.state ≠ partner.state)
      let all := if stateBad then kinds ++ [(freeValue s, 3)] else kinds
      let s := if stateBad then useFree s else s
      let s := putPair (fun p => { p with own := p.own.filter fun y => decide (y.1 ≠ e), lastCmp := some (e, own, partner), badInputs := (e, inputs) }) s
      let s := reportAll e [] all s
      let s := if modeNow s = 2 then (upto 0 576).foldl (compareRail own partner) s else s
      let s := judgeEpoch e all.isEmpty s
      if all.any fun y => decide (y.2 = 3) then stateMismatch e s else s
  | _, _ => s

/-- The partner's digests have not arrived within 2 epochs of the close of epoch `e` (R573). -/
def skipDigests (e : Nat) (s : State) : State :=
  if comparing s && decide (e + 3 ≤ epochNow s) && (s.pair.own.any fun x => decide (x.1 = e)) then
    judgeEpoch e false (bump Reg.pairCmpOwn 16 16 1 (putPair (fun p => { p with own := p.own.filter fun y => decide (y.1 ≠ e) }) s))
  else s

/-! ## The egress of MIRROR (R590, R591) -/

/-- A rail of home quadrant `k` is flagged or excluded. -/
def railFlagged (s : State) (k : Nat) (twin : Bool) : Bool :=
  getB s (Reg.mirRailState k) (16 + b2n twin) || getB s (Reg.mirRailState k) (18 + b2n twin)

/-- A rail's word as its egresses receive it, its egress code computed by the rail's output pipeline (R590). -/
def railWord (n row : Nat) (w : RailWord) : BitVec 48 :=
  BitVec.ofNat 48 (w.word.toNat + checkCode n row w.word.toNat * 2 ^ 40) ^^^ w.flips

/-- The rail itself is at fault: its egress code fails, its line was replaced because of an internal fault, or it is flagged (R591). -/
def railFault (s : State) (n row : Nat) (twin : Bool) (w : RailWord) : Bool :=
  let x := (railWord n row w).toNat
  decide (nfld x 40 8 ≠ checkCode n row (nfld x 0 40)) || ((outTrack s (n + 576 * b2n twin)).sent.elim false SentLine.internal)
    || railFlagged s (n / 288) twin

/-- A rail's word is bad (R591). -/
def railBad (s : State) (n row : Nat) (twin : Bool) (w : RailWord) : Bool :=
  railFault s n row twin w || ((outTrack s (n + 576 * b2n twin)).sent.elim false SentLine.invalid)

/-- The word that an egress selects for logical output `n` in a row (R591): 0 the home rail's, 1 the twin's, 2 none, which is marked invalid. -/
def egressChoice (homeBad twinBad : Bool) : Nat := if homeBad = false then 0 else if twinBad = false then 1 else 2

/-- Both rails' words are good (R591): the home rail's is taken, and a difference is counted, with a record once in an epoch. -/
def egressBoth (k : Nat) (same : Bool) (s : State) : State :=
  if same then s
  else
    let s := bump (Reg.mirRailCnt k) 16 16 1 s
    if tabGet 0 k s.pair.railRec = epochNow s + 1 then s
    else raiseFlag Src.compare k (Reg.mirRailCnt k) 16 (putPair (fun p => { p with railRec := tabPut k (epochNow s + 1) p.railRec }) s)

/-- The egresses take a word of logical output `n` (R591): what is masked, what disagrees and what is bad on both rails is counted; in the last case the word is marked invalid, and with it the line of the output (R145). -/
def egressSelect (n : Nat) (home twin : RailWord) (s : State) : State :=
  let k := n / 288
  let row := rowNow s
  let hb := railBad s n row false home
  let tb := railBad s n row true twin
  let word := fun (w : RailWord) => BitVec.ofNat 40 (railWord n row w).toNat
  let pick := match egressChoice hb tb with | 0 => some (word home) | 1 => some (word twin) | _ => none
  let fault := railFault s n row false home || railFault s n row true twin
  let s := if hb ∧ tb then
      let s := bump (Reg.mirRailState k) 0 16 1 s
      putOut n { outTrack s n with invalid := true, internal := (outTrack s n).internal || fault } s
    else if hb ∨ tb then bump (Reg.mirRailCnt k) 0 16 1 s
    else egressBoth k (decide (word home = word twin)) s
  putPair (fun p => { p with egress := tabPut n pick p.egress }) s

/-- Flags of the rails at the start of an epoch (R591, R592): a flag ends after 64 epochs without an event, an exclusion after its 64 epochs. -/
def railEpoch (s : State) : State :=
  (upto 0 4).foldl (fun s q =>
    let a := Reg.mirRailState (q % 2)
    let ex := (tabFind q s.pair.railEx).any fun e => decide (epochNow s < e)
    let ev := modeNow s == 2 && (tabFind q s.pair.railAt).any fun e => decide (epochNow s < e + 65)
    putB a (18 + q / 2) ex (putB a (16 + q / 2) (ex || ev) s)) s

/-! ## Commands of the firmware (R594, R595) -/

/-- `PAIR_SET`: the settings, saved; the claim changes at its next samples (R265). -/
def fxPairSet (c : Cmd) (prio flags serial : Nat) (s : State) : State :=
  if prio = 0 ∨ 15 < prio ∨ 3 < flags then refuse c St.pairRange s
  else
    let s := put64 Reg.pairPinSnLo serial (putF Reg.pairCtrl 4 2 flags (putF Reg.pairCtrl 0 4 prio s))
    done c (saveSettings (fun x => { x with pairCtrl := prio + flags * 16, pinSn := serial }) s)

/-- `PAIR_QUERY`. -/
def fxPairQuery (c : Cmd) (s : State) : State :=
  complete c St.ok 0 (([Reg.pairStatus, Reg.pairClaim, Reg.pairHealth, Reg.pairOffset].map fun a => (4, (rd s a).toNat))
    ++ [(8, get64 s Reg.pairPartnerSnLo)]) s

/-- `PAIR_RESYNC`: DIVERGED is cleared and the standby resynchronises, whichever unit receives it. -/
def fxPairResync (c : Cmd) (s : State) : State :=
  if (paired s && hbOk s) = false then refuse c St.pairNoPartner s
  else
    let s := putPair (fun p => { p with resyncCmds := p.resyncCmds ++ [c] }) (clearDiverged s)
    if getB s Reg.pairStatus 1 then send .resyncRequest s else send .resyncRequest (resyncDue s)

/-- `PAIR_LINK`: ACTION 0 holds the unit unpaired, ACTION 1 allows joining and tries a held step 5 again (R569). -/
def fxPairLink (c : Cmd) (action : Nat) (s : State) : State :=
  match action with
  | 0 => done c (unpair (putB Reg.pairCtrl 6 true s))
  | 1 =>
    let s := putB Reg.pairCtrl 6 false s
    done c (if joinStep s = 0 && !paired s && hbOk s then joinStart s else joinRetry s)
  | _ => refuse c St.pairRange s

/-- The digest of an output in a list, or an open value where the unit computes none. -/
def digestField (l : List (Nat × Nat)) (n : Nat) (s : State) : Nat × State :=
  match tabFind n l with
  | some v => (v, s)
  | none => (freeValue s, useFree s)

/-- Own and partner's digests of the outputs `ns`. -/
def digestFields (a b : List (Nat × Nat)) : List Nat → State → List (Nat × Nat) × State
  | [], s => ([], s)
  | n :: r, s =>
    let x := digestField a n s
    let y := digestField b n x.2
    let z := digestFields a b r y.2
    ((4, x.1) :: (4, y.1) :: z.1, z.2)

/-- `PAIR_DIGESTS`: the last compared epoch; before any comparison its number and digests are open. -/
def fxPairDigests (c : Cmd) (first cnt : Nat) (s : State) : State :=
  if cnt = 0 ∨ 256 < cnt ∨ 1152 < first + cnt then refuse c St.pairRange s
  else if paired s = false then refuse c St.pairNoPartner s
  else match s.pair.lastCmp with
    | some (e, own, partner) =>
      let r := digestFields own.outputs partner.outputs (upto first cnt) s
      complete c St.ok 0 ((8, e) :: r.1) r.2
    | none =>
      let r := digestFields [] [] (upto first cnt) (useFree s)
      complete c St.ok 0 ((8, freeValue s) :: r.1) r.2

/-! ## Commands -/

/-- MIRROR_FRAME_RECEIVED (R558). -/
def execMirrorFrameReceived (dt : Nat) (s : State) : Host.Outcome State Fault Refusal := .next (only true (fun s => mirrorFrame s) (tick dt s))

/-- HEARTBEAT_LOSS (R563). -/
def execHeartbeatLoss (dt : Nat) (s : State) : Host.Outcome State Fault Refusal := .next (only true (fun s => heartbeatLost s) (tick dt s))

/-- MIRROR_RETRANSMIT (R565). -/
def execMirrorRetransmit (dt seq : Nat) (s : State) : Host.Outcome State Fault Refusal := .next (only true (fun s => retransmit seq s) (tick dt s))

/-- MIRROR_LADDER_RETRY (R561). -/
def execMirrorLadderRetry (dt : Nat) (s : State) : Host.Outcome State Fault Refusal := .next (only true (fun s => mirrorRetry s) (tick dt s))

/-- PAIRING_STEP (R566). -/
def execPairingStep (dt : Nat) (msg : PairMsg) (s : State) : Host.Outcome State Fault Refusal :=
  .next (only true (fun s => pairingStep msg s) (tick dt s))

/-- PAIRING_RETRY (R566). -/
def execPairingRetry (dt : Nat) (s : State) : Host.Outcome State Fault Refusal := .next (only true (fun s => pairingRetry s) (tick dt s))

/-- KEY_RENEWAL (R567). -/
def execKeyRenewal (dt : Nat) (s : State) : Host.Outcome State Fault Refusal := .next (only true (fun s => keyRenew s) (tick dt s))

/-- JOIN_STEP_ADVANCE (R569). -/
def execJoinStepAdvance (dt : Nat) (result : JoinResult) (s : State) : Host.Outcome State Fault Refusal := .next (only true (fun s => joinAdvance result s) (tick dt s))

/-- RESYNC_REQUEST (R570). -/
def execResyncRequest (dt : Nat) (s : State) : Host.Outcome State Fault Refusal := .next (only true (fun s => resyncRequest s) (tick dt s))

/-- DIGEST_COMPARISON (R573). -/
def execDigestComparison (dt epoch : Nat) (s : State) : Host.Outcome State Fault Refusal :=
  .next (only true (fun s => compareDigests epoch s) (tick dt s))

/-- DIGEST_SKIP (R573). -/
def execDigestSkip (dt epoch : Nat) (s : State) : Host.Outcome State Fault Refusal := .next (only true (fun s => skipDigests epoch s) (tick dt s))

/-- PENALTY_REMOVAL (R555); the end of MEDIA_HOLD returns the unit to sending its colour (R581). -/
def execPenaltyRemoval (dt cls : Nat) (s : State) : Host.Outcome State Fault Refusal :=
  .next (only (decide (cls < 4)) (fun s =>
    let held := getB s Reg.pairStatus 8
    let s := penaltyRemove cls s
    (if held && !getB s Reg.pairStatus 8 then colourReturn s else s)) (tick dt s))

/-- EGRESS_WORD_SELECT (R591). -/
def execEgressWordSelect (dt output : Nat) (home twin : RailWord) (s : State) : Host.Outcome State Fault Refusal :=
  .next (only (decide (modeNow s = 2) && decide (output < 576)) (egressSelect output home twin) (tick dt s))

end Sys2Proof.Machine
end

