-- ==== Sys2Proof/Machine/Modules.lean ====
section
/-! DEFINITION. Optical modules and the life ledger (20_optical_modules.md). -/

namespace Sys2Proof.Machine

/-! ## The exponential of the wear models (R718; 21_supplies_and_thermal.md R752), in units of 10⁻¹⁸ -/

abbrev expUnit : Int := 1_000_000_000_000_000_000

/-- Terms of the Taylor series of the exponential at `y` from term `n` on, with the term before it. -/
def expTerms (y : Int) : Nat → Nat → Int → Int
  | 0, _, _ => 0
  | k + 1, n, t =>
    let u := t * y / expUnit / (n : Int)
    u + expTerms y k (n + 1) u

def expSquare : Nat → Int → Int
  | 0, v => v
  | k + 1, v => expSquare k (v * v / expUnit)

/-- exp(x) by the series at x/64, squared six times (log 40). -/
def expFixed (x : Int) : Int := expSquare 6 (expUnit + expTerms (x / 64) 20 1 expUnit)

/-- Boltzmann's constant in the manual's digits: EA in meV over k, times a difference of inverse temperatures given as a fraction. -/
def arrhenius (ea : Nat) (num den : Int) : Int := expFixed ((ea : Int) * 100_000_000 * expUnit * num / (8_617_333 * den))

/-- The acceleration factor of R718 at a module temperature in 0.1 °C, against 323.15 K. -/
def moduleFactor (ea : Nat) (t : Int) : Int :=
  let twenty := max 1 (2 * t + 5463)
  arrhenius ea (100 * twenty - 20 * 32315) (32315 * twenty)

/-! ## Cages -/

def cageA (e : Nat) : Nat := Reg.modCageStatus e

def cage (s : State) (e : Nat) : Cage := tabGet cage0 e s.mods.cages

def putCage (e : Nat) (c : Cage) (s : State) : State := { s with mods := { s.mods with cages := tabSet cage0 e c s.mods.cages } }

def cageState (s : State) (e : Nat) : Nat := getF s (cageA e) 4 3

def cagePresent (s : State) (e : Nat) : Bool := getB s (cageA e) 0

/-- The committed mode runs a channel of the cage. -/
def cageUsed (s : State) (e : Nat) : Bool := s.plan.cfg.eths.any fun x => decide (x.port = e)

def ledgerEntry? (s : State) (i : Nat) : Option LedgerEntry := tabFind i s.mods.ledger

/-- The ledger entry of the module in a cage. -/
def fitted? (s : State) (e : Nat) : Option (Nat × LedgerEntry) :=
  match (cage s e).entry with
  | none => none
  | some i => (ledgerEntry? s i).map fun x => (i, x)

/-- LASER_SEC counts (R717). -/
def laserOn (s : State) (e : Nat) : Bool :=
  cagePresent s e && !getB s (cageA e) 3 && !getB s (cageA e) 2 && (cage s e).tx

/-- LASER_SEC counted up to the present (R717). -/
def laserSettle (e : Nat) (s : State) : State :=
  let c := cage s e
  if laserOn s e then
    let t := s.mono - c.laserAt + c.laserPart
    let a := Reg.modLaserSec e
    wr a (rd s a + BitVec.ofNat 32 (t / tickSec)) (putCage e { c with laserAt := s.mono, laserPart := t % tickSec } s)
  else putCage e { c with laserAt := s.mono } s

/-- Bits 7 to 11 and ENTRY of `MOD_CAGE_STATUS`, and `MOD_LIFE`, from the fitted module's entry. -/
def cageShow (e : Nat) (s : State) : State :=
  match fitted? s e with
  | none => wr (Reg.modLife e) 0 (putF (cageA e) 16 9 0 (putF (cageA e) 7 5 0 s))
  | some (i, x) =>
    let f := b2n (nbit x.flags 1) + nfld x.flags 2 4 * 2
    wr (Reg.modLife e) (BitVec.ofNat 32 (min (2 ^ 32 - 1) (x.life / 10_000_000_000))) (putF (cageA e) 16 9 i (putF (cageA e) 7 5 f s))

def putLedger (i : Nat) (x : LedgerEntry) (s : State) : State :=
  let s := { s with mods := { s.mods with ledger := tabPut i x s.mods.ledger } }
  putF Reg.modLedgerStatus 0 10 (s.mods.ledger.filter fun y => nbit y.2.flags 0).length s

/-- A cage carries a send leg of a flow bound to a port marked on air (R713). -/
def cageAir (s : State) (e : Nat) : Bool :=
  (upto 0 2304).any fun f =>
    match flowEntry? s f with
    | none => false
    | some x => airOut s x.port && ((flowRedEn x && decide (legChannel x.red / 4 = e)) || (flowBlueEn x && decide (legChannel x.blue / 4 = e)))

/-- The channels of a cage go down (R303, R712). -/
def cageDown (e : Nat) (s : State) : State :=
  (upto 0 4).foldl (fun s k => if ethUp s (4 * e + k) then linkGoesDown (4 * e + k) s else s) s

/-- Lines of a cage: LPMODE high, RESET_N low, transmitters enabled. -/
def cageLines (e : Nat) (lp rst tx : Bool) (s : State) : State :=
  let s := laserSettle e s
  putCage e { cage s e with tx := tx } (putB (cageA e) 3 rst (putB (cageA e) 2 lp s))

/-- STATE, with its lines and its record (R710). -/
def setCage (e v : Nat) (s : State) : State :=
  let before := rd s (cageA e)
  let was := cageState s e
  let run := decide (v = 2) || decide (v = 3)
  let s := cageLines e (!run) (decide (v = 0) || decide (v = 1)) run s
  let s := if v = 2 ∧ was ≠ 2 then putCage e { cage s e with fawnAt := (rd s (Reg.modLaserSec e)).toNat, biasSum := [], biasN := 0 } s else s
  let s := if (was = 2 ∨ was = 3) ∧ run = false then cageDown e s else s
  let s := putCage e { cage s e with since := s.mono, wornRun := 0, errRun := 0 } (putF (cageA e) 4 3 v s)
  if v = was then s else raiseState (Src.module e) noInst (cageA e) before s

/-- A failure (R710, R713). -/
def cageFail (e : Nat) (s : State) : State :=
  let s := putB (cageA e) 13 true s
  let s := match fitted? s e with
    | some (i, x) => putLedger i { x with flags := nset x.flags 6 true } s
    | none => s
  let s := setCage e 5 s
  if cageAir s e then penaltyAt (e / 4) 0 [] s else s

/-- The fault of a failed cage recurs in every epoch (R713). -/
def cageEpoch (s : State) : State :=
  (upto 0 16).foldl (fun s e => if cageState s e = 5 ∧ cageAir s e then penaltyAt (e / 4) 0 [] s else s) s

/-- A module passes the allowlist (R701). -/
def allowed (s : State) (oui part : Nat) : Bool :=
  !s.fw.settings.allowOn || (s.fw.settings.allow.any fun x => decide (x.2 = (oui, part)))

/-- The state of an identified module that is not at fault (R710, R724). -/
def cageTarget (s : State) (e : Nat) (x : LedgerEntry) : Nat :=
  if allowed s x.oui x.part = false then 4
  else if cageUsed s e = false ∨ (cage s e).forced then 6
  else if nbit x.flags 7 then 3 else 2

/-- A cage takes the state that its module, the allowlist and the mode give it. -/
def cageSettle (e : Nat) (s : State) : State :=
  match fitted? s e with
  | none => s
  | some (_, x) => if cageTarget s e x = cageState s e then s else setCage e (cageTarget s e x) s

/-- The cage starts again at IDENT, with RESET_N low (R710, R724). -/
def cageIdent (e : Nat) (s : State) : State := setCage e 1 (putCage e { cage s e with forced := false } s)

/-- A commit or mode change (R711): a failed cage that is used starts again, and the others go to the state of the new mode. -/
def setupCage (e : Nat) (s : State) : State :=
  if cageState s e = 5 then (if cageUsed s e then cageIdent e s else s)
  else if cageState s e = 2 ∨ cageState s e = 3 ∨ cageState s e = 6 then cageSettle e s else s

/-- The allowlist has changed (R702, R711): a held module that now passes starts again at IDENT, and one in service that does not is held at once. -/
def allowChanged (s : State) : State :=
  (upto 0 16).foldl (fun s e =>
    match fitted? s e with
    | none => s
    | some (_, x) =>
      if cageState s e = 4 then (if allowed s x.oui x.part then cageIdent e s else s)
      else if cageState s e = 2 ∨ cageState s e = 3 ∨ cageState s e = 6 then cageSettle e s else s) s

/-! ## Insertion and removal (R709 to R714) -/

/-- PRESENT_N has stayed low for 100 ms. -/
def modPresent (e : Nat) (s : State) : State := if cagePresent s e then s else cageIdent e (putB (cageA e) 0 true s)

/-- RESET_N has been low for 10 ms. -/
def modRelease (e : Nat) (s : State) : State :=
  if cageState s e = 1 ∧ getB s (cageA e) 3 ∧ (cage s e).since + 10 * tickMs ≤ s.mono then
    putCage e { cage s e with since := s.mono } (putB (cageA e) 3 false s)
  else s

/-- The ledger index for an identity (R714): its own, a free one, or that of the module not fitted whose LAST_SEEN is oldest; the answer says whether it evicts. -/
def ledgerIndex (s : State) (m : ModIdent) : Nat × Bool :=
  match s.mods.ledger.find? fun x => decide (x.2.oui = m.oui) && decide (x.2.part = m.part) && decide (x.2.serial = m.serial) with
  | some x => (x.1, false)
  | none =>
    match (upto 0 512).find? fun i => (ledgerEntry? s i).isNone with
    | some i => (i, false)
    | none =>
      let fit := (upto 0 16).filterMap fun e => (cage s e).entry
      match s.mods.ledger.filter fun x => decide (x.1 ∉ fit) with
      | [] => (0, true)
      | x :: r => ((r.foldl (fun b y => if y.2.lastSeen < b.2.lastSeen then y else b) x).1, true)

/-- Entry of a module seen for the first time (R719). -/
def fawnEntry (m : ModIdent) (e : Nat) : LedgerEntry :=
  { oui := m.oui, part := m.part, serial := m.serial, vendor := m.vendor, flags := if m.hours.isNone then 3 else 1,
    life := m.hours.getD 0 * 1_000_000_000_000, laserSec := 0, reported := m.hours.getD 0 * 100, base := [], tempMax := -32768, biasPeak := 0,
    cage := e, lastSeen := 0 }

/-- LIFE has reached a share, in percent, of EOL (R720). -/
def lifeReached (s : State) (x : LedgerEntry) (pct : Nat) : Bool := decide (s.fw.settings.eol * pct * 10_000_000_000 ≤ x.life)

/-- WARN80, WARN95 and EOL of a ledger entry, with a record for each that is newly set and whose module is fitted in a cage (R720). -/
def lifeFlags (i : Nat) (s : State) : State :=
  match ledgerEntry? s i with
  | none => s
  | some x =>
    let at_ := (upto 0 16).find? fun e => decide ((cage s e).entry = some i)
    [(80, 3, 9), (95, 4, 10), (100, 5, 11)].foldl (fun s p =>
      match ledgerEntry? s i with
      | none => s
      | some y =>
        if lifeReached s x p.1 && !nbit y.flags p.2.1 then
          let s := putLedger i { y with flags := nset y.flags p.2.1 true } s
          match at_ with
          | some e => raiseFlag (Src.module e) noInst (cageA e) p.2.2 (cageShow e s)
          | none => s
        else s) s

/-- The identity has been read (R710, R714, R719). -/
def modIdentified (e : Nat) (m : ModIdent) (s : State) : State :=
  if cageState s e ≠ 1 ∨ getB s (cageA e) 3 ∨ server s ≠ 1 then s
  else
    let p := ledgerIndex s m
    let s := if p.2 then putB Reg.modLedgerStatus 16 true s else s
    let old := s.mods.ledger.find? fun x => decide (x.1 = p.1) && !p.2
    let x := match old with
      | some y => { y.2 with cage := e, vendor := m.vendor }
      | none => fawnEntry m e
    let s := putCage e { cage s e with entry := some p.1, sampled := (rd s (Reg.modLaserSec e)).toNat } (putLedger p.1 x s)
    cageSettle e (lifeFlags p.1 (cageShow e s))

/-- ModuleLowPwr has not come within 2 s of the release of RESET_N, or ModuleReady within 60 s of leaving IDENT (R710, R711). -/
def modTimeout (e : Nat) (s : State) : State :=
  let c := cage s e
  let low := decide (cageState s e = 1) && !getB s (cageA e) 3 && decide (c.since + 2 * tickSec ≤ s.mono)
  let ready := (decide (cageState s e = 2) || decide (cageState s e = 3)) && decide (c.since + 60 * tickSec ≤ s.mono)
  if server s = 1 ∧ (low || ready) then cageFail e s else s

/-- The firmware reads the flags that caused an interrupt, which clears it; a fault fails the cage (R709, R710). -/
def modFlags (e : Nat) (s : State) : State :=
  let fault := (cage s e).fault
  let s := putB (cageA e) 1 false (putCage e { cage s e with fault := false } s)
  if fault ∧ cageState s e ≠ 5 then cageFail e s else s

/-- INT_N (R709); while the firmware is away INT and the flags stand (R726). -/
def modInterrupt (e : Nat) (moduleFault txFault : Bool) (s : State) : State :=
  if cagePresent s e = false then s
  else
    let s := putB (cageA e) 1 true (putCage e { cage s e with fault := (cage s e).fault || moduleFault || txFault } s)
    if server s = 1 then modFlags e s else s

/-- Removal (R712, R721). -/
def modRemoved (e : Nat) (s : State) : State :=
  if cagePresent s e = false then s
  else
    let s := cageDown e (laserSettle e s)
    let s := setCage e 0 (putF (cageA e) 0 2 0 s)
    wr (Reg.modMon e) 0 (cageShow e (putCage e { cage s e with entry := none, forced := false, fault := false, temp := none } s))

/-! ## Wear (R717 to R722) -/

/-- Largest bias rise over the lanes in 0.1 %, against the baseline. -/
def biasRise (base bias : List Nat) : Int :=
  match (base.zip bias).map fun x => if x.1 = 0 then Config.riseOverZero x.2 else (((x.2 : Int) - (x.1 : Int)) * 1000) / (x.1 : Int) with
  | [] => 0
  | r :: rs => rs.foldl max r

/-- The bias of a lane exceeds its baseline by more than half of it (R722). -/
def biasWorse (base bias : List Nat) : Bool :=
  (base.zip bias).any fun x => if x.1 = 0 then decide (500 < Config.riseOverZero x.2) else decide (3 * x.1 < 2 * x.2)

/-- What a sample adds to LIFE, in 10⁻¹² units (R718). -/
def lifeStep (ea secs : Nat) (t : Int) : Nat := ((secs : Int) * moduleFactor ea t / 3600 / 1_000_000).toNat

/-- Sums of the biases of each lane with those of one more sample. -/
def biasAdd (sum bias : List Nat) : List Nat := if sum = [] then bias else (sum.zip bias).map fun x => x.1 + x.2

/-- The temperature that a sample counts with (R718): its own, the last good one, or an open value where the module has given none (log 218). -/
def sampleTemp (s : State) (e : Nat) (temp : Option Int) : Int := (temp.or (cage s e).temp).getD (untwos 16 (freeValue s % 65536))

/-- A sample of a fitted module (R718, R721, R722); three refusals in a row are an access error, and nothing is read (R708). -/
def lifeSample (e nacks : Nat) (temp : Option Int) (bias : List Nat) (s : State) : State :=
  match fitted? s e with
  | none => s
  | some (i, x) =>
    if server s ≠ 1 then s
    else
      let s := laserSettle e s
      let c := cage s e
      let bad := decide (3 ≤ nacks)
      let temp := if bad then none else temp
      let t := sampleTemp s e temp
      let s := if (temp.or c.temp).isNone then useFree s else s
      let sec := (rd s (Reg.modLaserSec e)).toNat
      let d := (sec + 2 ^ 32 - c.sampled) % 2 ^ 32
      let svc := decide (cageState s e = 3) && !bad
      let fawn := decide (cageState s e = 2) && !bad && decide ((sec + 2 ^ 32 - c.fawnAt) % 2 ^ 32 ≤ 600)
      let rise := if svc then biasRise x.base bias else 0
      let worn := if svc ∧ biasWorse x.base bias then c.wornRun + 1 else if bad then c.wornRun else 0
      let x := { x with
        life := x.life + lifeStep s.fw.settings.ea d t
        laserSec := x.laserSec + d
        tempMax := if temp.isSome then max x.tempMax t else x.tempMax
        biasPeak := max x.biasPeak (min 255 (rise / 10).toNat)
        cage := e
        lastSeen := s.now / tickSec % 2 ^ 32 }
      let err := if bad then c.errRun + 1 else 0
      let s := putCage e { c with
        temp := temp.or c.temp, sampled := sec, wornRun := min worn 10, errRun := err
        biasSum := if fawn then biasAdd c.biasSum bias else c.biasSum
        biasN := if fawn then c.biasN + 1 else c.biasN } (putLedger i x s)
      let s := if bad then putB (cageA e) 12 true s else s
      let s := wr (Reg.modMon e) (BitVec.ofNat 32 (satTwos 16 rise + satTwos 16 t * 65536)) s
      let s := cageShow e (lifeFlags i s)
      let s := if 10 ≤ worn ∧ nbit x.flags 2 = false then
          match ledgerEntry? s i with
          | some y => raiseFlag (Src.module e) noInst (cageA e) 8 (cageShow e (putLedger i { y with flags := nset y.flags 2 true } s))
          | none => s
        else s
      if 3 ≤ err ∧ cageState s e ≠ 5 then cageFail e s else s

/-- The mean bias of each lane over the samples of the first 10 minutes (R721); an open value where there was none (log 219). -/
def baseline (s : State) (c : Cage) : List Nat :=
  if c.biasN = 0 then (upto 0 4).map fun k => Config.freeValue (s.free + k) % 65536 else c.biasSum.map fun v => v / c.biasN

/-- The bias baseline is complete after 10 minutes of laser-on time in FAWN (R721). -/
def baselineDone (e : Nat) (s : State) : State :=
  match fitted? s e with
  | none => s
  | some (i, x) =>
    let s := laserSettle e s
    let sec := ((rd s (Reg.modLaserSec e)).toNat + 2 ^ 32 - (cage s e).fawnAt) % 2 ^ 32
    if cageState s e = 2 ∧ server s = 1 ∧ 600 ≤ sec then
      let c := cage s e
      let base := baseline s c
      let s := if c.biasN = 0 then { s with free := s.free + 4 } else s
      setCage e 3 (putLedger i { x with base := base, flags := nset x.flags 7 true } s)
    else s

/-! ## Copies of the ledger in flash (R715, R716) -/

/-- An entry in the layout of R715. -/
def ledgerBytes (x : LedgerEntry) : List (Nat × Nat) :=
  [(3, x.oui), (1, x.flags), (16, x.part), (16, x.serial), (4, min (2 ^ 32 - 1) (x.life / 10_000_000_000)), (4, x.laserSec / 36), (4, x.reported)]
    ++ (upto 0 4).map (fun k => (2, (nth? x.base k).getD 0))
    ++ [(2, satTwos 16 x.tempMax), (1, x.biasPeak), (1, x.cage), (4, x.lastSeen)]

/-- Bytes with the CRC-32 over them behind. -/
def withCrc (l : List Nat) : List Nat := l ++ bytesLe (crc32 l) 4

/-- A copy as it stands in its slot (R716). -/
def lifeImage (gen : Nat) (l : Tab LedgerEntry) : List Nat :=
  withCrc (bytesLe (0x47454C5A + gen % 2 ^ 32 * 2 ^ 32) 64 ++ (upto 0 512).flatMap fun i => bytesLe (((tabFind i l).map fun x => packLe (ledgerBytes x)).getD 0) 64)

/-- The newest of the valid copies with its slot: that with the highest GEN. -/
def newestCopy {α : Type} (gen : α → Nat) (whole : α → Bool) (t : Tab α) : Option (Nat × α) :=
  (t.filter fun x => whole x.2).foldl (fun b x => match b with
    | none => some x
    | some y => if gen y.2 < gen x.2 then some x else b) none

def newestLife (f : FlashState) : Option (Nat × LifeCopy) := newestCopy LifeCopy.gen LifeCopy.whole f.life

/-- A whole copy of the ledger is written to the next slot of 16 (R716); one that fails to write is written to the slot after it (R728). -/
def ledgerCopy (writeOk : Bool) (s : State) : State :=
  if server s ≠ 1 ∨ flashOk s = false then s
  else
    let last := newestLife s.flash
    let k := (last.elim 15 Prod.fst + 1) % 16
    let x : LifeCopy := { gen := last.elim 0 (fun y => y.2.gen) + 1, entries := s.mods.ledger, whole := true }
    if writeOk then { s with flash := { s.flash with life := tabPut k x s.flash.life } }
    else
      let s := putB Reg.modLedgerStatus 17 true s
      { s with flash := { s.flash with life := tabPut ((k + 1) % 16) x (tabPut k { x with whole := false } s.flash.life) } }

/-- The ledger is read from the valid copy with the highest GEN (R716). -/
def ledgerRead (s : State) : State :=
  match newestLife s.flash with
  | none => s
  | some (_, x) => putF Reg.modLedgerStatus 0 10 (x.entries.filter fun y => nbit y.2.flags 0).length { s with mods := { s.mods with ledger := x.entries } }

/-! ## Commands of the firmware (R723 to R725) -/

/-- `MOD_QUERY`: the identity of a module that is not identified yet is open. -/
def fxModQuery (c : Cmd) (e : Nat) (s : State) : State :=
  if cagePresent s e = false then refuse c St.modAbsent s
  else
    let mon := (rd s (Reg.modMon e)).toNat
    let tail := [(4, (rd s (Reg.modLife e)).toNat), (2, mon % 65536), (2, mon / 65536), (4, (rd s (cageA e)).toNat)]
    match fitted? s e with
    | some (_, x) => complete c St.ok 0 ([(4, cageState s e), (16, x.vendor), (16, x.part), (16, x.serial)] ++ tail) s
    | none => complete c St.ok 0 ([(4, cageState s e), (16, Config.freeValue s.free), (16, Config.freeValue (s.free + 1)), (16, Config.freeValue (s.free + 2))] ++ tail)
        { s with free := s.free + 3 }

/-- `MOD_PROFILE_SET` (R723, R720). -/
def fxModProfileSet (c : Cmd) (eol ea : Nat) (s : State) : State :=
  let s := saveSettings (fun x => { x with eol := eol, ea := ea }) s
  let s := putF Reg.modEa 0 11 ea (putF Reg.modEol 0 20 eol s)
  let s := (tabKeys s.mods.ledger).foldl (fun s i => lifeFlags i s) s
  forward (.command c.pkt.body (houseFrame s)) (done c s)

def fxModLedgerRead (c : Cmd) (first cnt : Nat) (s : State) : State :=
  if 512 < first + cnt then refuse c St.modRange s
  else complete c St.ok 0 ((upto first cnt).flatMap fun i =>
    match ledgerEntry? s i with
    | some x => if nbit x.flags 0 then ledgerBytes x else [(64, 0)]
    | none => [(64, 0)]) s

/-- `MOD_CONTROL` (R724). A cage in FAILED or HELD keeps its state (R711). -/
def fxModControl (c : Cmd) (e action : Nat) (s : State) : State :=
  if cagePresent s e = false then refuse c St.modAbsent s
  else if cageState s e = 1 then refuse c St.modBusy s
  else match action with
    | 0 => done c (cageIdent e s)
    | _ =>
      let s := putCage e { cage s e with forced := decide (action = 1) } s
      let st := cageState s e
      done c (if st = 2 ∨ st = 3 ∨ st = 6 then cageSettle e s else s)

/-- `MOD_ALLOW_SET` (R701, R723). -/
def fxModAllowSet (c : Cmd) (index flags oui part : Nat) (s : State) : State :=
  let s := saveSettings (fun x => { x with allow := if nbit flags 0 then tabPut index (oui, part) x.allow else tabErase index x.allow }) s
  forward (.command c.pkt.body (houseFrame s)) (done c (allowChanged s))

/-! ## Commands -/

/-- MODULE_PRESENT (R709). -/
def execModulePresent (dt module : Nat) (s : State) : Host.Outcome State Fault Refusal := .next (lineOnly (decide (module < 16)) (modPresent module) (tick dt s))

/-- MODULE_RESET_RELEASE (R710). -/
def execModuleResetRelease (dt module : Nat) (s : State) : Host.Outcome State Fault Refusal := .next (lineOnly (decide (module < 16)) (modRelease module) (tick dt s))

/-- MODULE_IDENTIFIED (R710). -/
def execModuleIdentified (dt module : Nat) (ident : ModIdent) (s : State) : Host.Outcome State Fault Refusal :=
  .next (lineOnly (decide (module < 16)) (modIdentified module ident) (tick dt s))

/-- MODULE_READY_TIMEOUT (R711). -/
def execModuleReadyTimeout (dt module : Nat) (s : State) : Host.Outcome State Fault Refusal := .next (lineOnly (decide (module < 16)) (modTimeout module) (tick dt s))

/-- MODULE_INTERRUPT (R709). -/
def execModuleInterrupt (dt module : Nat) (moduleFault txFault : Bool) (s : State) : Host.Outcome State Fault Refusal :=
  .next (lineOnly (decide (module < 16)) (modInterrupt module moduleFault txFault) (tick dt s))

/-- MODULE_REMOVED (R712). -/
def execModuleRemoved (dt module : Nat) (s : State) : Host.Outcome State Fault Refusal := .next (lineOnly (decide (module < 16)) (modRemoved module) (tick dt s))

/-- MODULE_LIFE_SAMPLE (R718). -/
def execModuleLifeSample (dt module nacks : Nat) (temp : Option Int) (bias : List Nat) (s : State) : Host.Outcome State Fault Refusal :=
  .next (lineOnly (decide (module < 16)) (lifeSample module nacks temp bias) (tick dt s))

/-- BIAS_BASELINE_COMPLETE (R721). -/
def execBiasBaselineComplete (dt module : Nat) (s : State) : Host.Outcome State Fault Refusal :=
  .next (lineOnly (decide (module < 16)) (baselineDone module) (tick dt s))

/-- LIFE_LEDGER_COPY (R716). -/
def execLifeLedgerCopy (dt : Nat) (writeOk : Bool) (s : State) : Host.Outcome State Fault Refusal := .next (lineOnly true (fun s => ledgerCopy writeOk s) (tick dt s))

end Sys2Proof.Machine
end

