-- ==== Sys2Proof/Machine/Thermal.lean ====
section
/-! DEFINITION. Supplies, retention sleep, the thermal monitor, the shed list and the wear ledger (21_supplies_and_thermal.md). -/

namespace Sys2Proof.Machine

def putTherm (f : ThermState → ThermState) (s : State) : State := { s with therm := f s.therm }

/-! ## The wear ledger (R752 to R754) -/

/-- The acceleration factor of R752 at a junction temperature in 0.1 °C, in units of 10⁻¹⁸. -/
def wearFactor (tj : Int) : Int :=
  let t := max 1 (10 * tj + 27315)
  expFixed (1_218_480 * expUnit * (t - 36815) / (36815 * t))

/-- What a second adds to WEAR, in 10⁻¹² h (R752). -/
def wearStep (tj : Int) : Nat := (wearFactor tj / 3600 / 1_000_000).toNat

/-- The wear registers from the counters. -/
def wearShow (s : State) : State :=
  let w := s.therm.wear
  let s := put64 Reg.wearLo (w.wear / 10_000_000_000) s
  let s := wr Reg.wearHot (BitVec.ofNat 32 (min 65535 (w.hot95 / 3600) + min 65535 (w.hot105 / 3600) * 65536)) s
  wr Reg.wearEvents (BitVec.ofNat 32 (min 65535 w.starts + min 65535 w.trips * 65536)) s

def putWear (f : Wear → Wear) (s : State) : State := wearShow (putTherm (fun t => { t with wear := f t.wear }) s)

/-- One second of wear (R752). -/
def wearAccrue (s : State) : State :=
  if powered s = false then s
  else
    let t := s.therm.tj
    putWear (fun w => { w with wear := w.wear + wearStep t, hot95 := w.hot95 + b2n (decide (950 < t)), hot105 := w.hot105 + b2n (decide (1050 < t)) }) s

def newestWear (f : FlashState) : Option (Nat × WearCopy) := newestCopy WearCopy.gen WearCopy.whole f.wear

/-- A copy as it stands in its slot (R753): WEAR in 0.01 h, and the hours in whole hours. -/
def wearImage (gen : Nat) (w : Wear) : List Nat :=
  withCrc (bytesLe (0x5245575A + gen % 2 ^ 32 * 2 ^ 32) 64
    ++ bytesLe (packLe [(8, w.wear / 10_000_000_000), (4, w.hot95 / 3600), (4, w.hot105 / 3600), (4, w.starts), (4, w.trips), (2, satTwos 16 w.peak)]) 64)

/-- What the body of a copy keeps of the counters (R753). -/
def wearKept (w : Wear) : Wear := { w with wear := w.wear / 10_000_000_000 * 10_000_000_000, hot95 := w.hot95 / 3600 * 3600, hot105 := w.hot105 / 3600 * 3600 }

/-- The ledger is copied to the next slot of 4 in flash (R753); a copy that fails to write is not valid. -/
def wearCopy (writeOk : Bool) (s : State) : State :=
  if server s ≠ 1 ∨ flashOk s = false then s
  else
    let last := newestWear s.flash
    let x : WearCopy := { gen := last.elim 0 (fun y => y.2.gen) + 1, wear := wearKept s.therm.wear, whole := writeOk }
    { s with flash := { s.flash with wear := tabPut ((last.elim 3 Prod.fst + 1) % 4) x s.flash.wear } }

/-- At start the valid copy with the highest GEN seeds the counters (R753): once after VDD_LINE has risen, with what the line side has counted since. -/
def wearSeed (s : State) : State :=
  match newestWear s.flash, s.therm.seeded with
  | some (_, x), false =>
    let w := x.wear
    let c := s.therm.wear
    putWear (fun _ => { wear := w.wear + c.wear, hot95 := w.hot95 + c.hot95, hot105 := w.hot105 + c.hot105, starts := w.starts + c.starts,
                        trips := w.trips + c.trips, peak := max w.peak c.peak }) (putTherm (fun t => { t with seeded := true }) s)
  | _, _ => wearShow (putTherm (fun t => { t with seeded := true }) s)

/-! ## The logic side off (R730, R734, R749; 17_event_queue.md R653) -/

/-- The logic side loses its power or is held in reset: its event state is saved in the line side, and the boot ROM is where it stands next. -/
def logicOff (s : State) : State :=
  let keep := [Src.hot, Src.shed]
  let c := fun (x : Chan) => { x with pend := x.pend.filter fun p => !isLevel p.src || decide (p.src ∈ keep) }
  let s := { s with
    evq := { s.evq with host := c s.evq.host, sup := c s.evq.sup, level := s.evq.level.filter fun x => decide (x ∈ keep), lineSaved := true }
    pins := { s.pins with pcieUp := false } }
  wr Reg.pwrQuad (rd s Reg.pwrQuad &&& 0x1000) (wr Reg.cmdStatus 0 s)

/-- A hard trip (R749): every PLL stops, the logic side is held, THERM_ALERT_N is low and the trip is counted. -/
def hardTrip (s : State) : State :=
  if s.therm.trip then s
  else
    let s := (upto 0 20).foldl (fun s j => putF (Reg.pllStatus j) 0 3 0 (putPll j pllTrack0 s)) s
    let s := logicOff s
    putWear (fun w => { w with trips := w.trips + 1 })
      { s with pins := { s.pins with thermAlert := true }, therm := { s.therm with trip := true } }

/-! ## Quadrant power (R736 to R739, R757) -/

def putWakeAt (q : Nat) (t : Option Nat) (s : State) : State :=
  putTherm (fun x => { x with wakeAt := match t with | some n => tabPut q n x.wakeAt | none => tabErase q x.wakeAt }) s

/-- Quadrant `q` starts to wake (R59, R738); one that has not gone to sleep yet stays awake. -/
def wakeStart (q : Nat) (s : State) : State :=
  let s := putB Reg.pwrQuad (8 + q) false s
  if awake s q ∨ getB s Reg.pwrQuad (4 + q) then s else putB Reg.pwrQuad (4 + q) true (putWakeAt q (some s.mono) s)

/-- Latches of a quadrant's sources saved in the always-on domain (17_event_queue.md R652). -/
def evqSleep (q : Nat) (s : State) : State :=
  let mine := fun (p : Pend) => decide (srcQuad p.src = some q)
  let e := s.evq
  { s with evq := { e with
      saved := tabPut (q + 4) (e.sup.pend.filter mine) (tabPut q (e.host.pend.filter mine) e.saved)
      host := { e.host with pend := e.host.pend.filter fun p => !mine p }
      sup := { e.sup with pend := e.sup.pend.filter fun p => !mine p } } }

/-- The saved latches restored (17_event_queue.md R652). -/
def evqWake (q : Nat) (s : State) : State :=
  let e := s.evq
  { s with evq := { e with
      saved := tabErase (q + 4) (tabErase q e.saved)
      host := { e.host with pend := e.host.pend ++ tabGet [] q e.saved }
      sup := { e.sup with pend := e.sup.pend ++ tabGet [] (q + 4) e.saved } } }

/-- A quadrant enters retention sleep after the change-over (R737, R738). -/
def quadSleep (q : Nat) (s : State) : State :=
  if getB s Reg.pwrQuad (8 + q) = false then s
  else
    let s := (upto (16 * q) 16).foldl (fun s g => linkGoesDown g s) s
    let s := (upto (18 * q) 18).foldl (fun s n => linkOff n s) s
    let s := (upto (4 * q) 4).foldl (fun s j => putF (Reg.pllStatus j) 0 3 0 (putPll j pllTrack0 s)) s
    let s := (upto (32 * q) 32).foldl (fun s e => putEng e { engTrack s e with passes := 0 } s) s
    let s := putB (Reg.memStatus q) 5 true (putB (Reg.memStatus q) 0 false (evqSleep q s))
    putB Reg.pwrQuad q false (putB Reg.pwrQuad (8 + q) false s)

/-- A PLL of a waking quadrant has locked and set SYNCED (R738 step 2); its lock time is an open value. -/
def pllWake (j : Nat) (s : State) : State :=
  let s := wr (Reg.pllLockTime j) (BitVec.ofNat 32 (freeValue s % 2 ^ 24)) (useFree s)
  putF (Reg.pllStatus j) 0 4 3 (putPll j { pllTrack0 with readyAt := some s.mono } s)

/-- The steps of R738 are complete: the quadrant is ready, and its trunk ladders start. -/
def quadWake (q : Nat) (s : State) : State :=
  if getB s Reg.pwrQuad (4 + q) = false ∨ pllLocked s 16 = false then s
  else
    let s := putB Reg.pwrQuad q true (putB Reg.pwrQuad (4 + q) false (putWakeAt q none s))
    let s := (upto (4 * q) 4).foldl (fun s j => pllWake j s) s
    let s := evqWake q (putB (Reg.memStatus q) 0 true (putB (Reg.memStatus q) 5 false s))
    let s := ((upto (32 * q) 32).filter fun e => decide (engState s e < 2)).foldl (fun s e => putB (Reg.ibxStatus e) 2 true s) s
    (upto (18 * q) 18).foldl (fun s n => if getB s (Reg.trkLinkCtrl n) 0 then ladderRestart n 0x60 s else s) s

/-- A quadrant is not ready in time (R739). -/
def wakeLate (q : Nat) (s : State) : State :=
  match tabFind q s.therm.wakeAt with
  | none => s
  | some t =>
    let r := houseRate s
    if t + 10 * tickMs + ceilDiv (r.2 * tickSec) r.1 ≤ s.mono then flagEvent (Src.quad q 7) noInst Reg.pwrQuad 12 s else s

/-! ## The shed list (R744 to R747) -/

/-- A channel carries no enabled leg of any flow and no host traffic (R744). -/
def channelIdle (s : State) (g : Nat) : Bool :=
  decide ((ethTrack s g).classes = 0) && s.plan.tables.flows.all fun e =>
    !flowUsed e || (!(flowRedEn e && decide (legChannel e.red = g)) && !(flowBlueEn e && decide (legChannel e.blue = g)))

/-- The entry would take nothing from the route to a port on air (01_compiled_plan.md R66). -/
def shedSafe (s : State) (e : ShedEntry) : Bool :=
  match e.kind with
  | 1 => !(headCfg? s e.index).elim false fun h => decide (h.ret ∈ airRoute s)
  | 3 => channelIdle s e.index
  | 4 => !(groupMembers s.plan.cfg.groups true e.index).any fun n => (decide (n < 1152) && airIn s n) || decide (n ∈ airRoute s)
  | _ => true

/-- A synchroniser with an empty ring (04_frame_stores.md R178). -/
def fsEmpty (n : Nat) (s : State) : State :=
  match tabFind n s.mem.fs with
  | none => s
  | some t =>
    fsState n 1 (putB (fsA n) 3 false (putFs n { fsTrack0 with hold := t.hold, nextNum := t.nextNum, whole := t.whole, lockedAt := s.mono } s))

/-- The item stops (R745). -/
def shedStop (s : State) (e : ShedEntry) : State :=
  match e.kind with
  | 1 => (headsOf s e.index).foldl (fun s h => putB (Reg.compHeadStatus h) 3 true (putHead h { headTrack s h with shed := true } s)) s
  | 3 => linkGoesDown e.index s
  | 4 => fsEmpty e.index s
  | _ => s

/-- The item resumes (R747). -/
def shedResume (s : State) (e : ShedEntry) : State :=
  match e.kind with
  | 1 => (headsOf s e.index).foldl (fun s h => putHead h { headTrack s h with shed := false } s) s
  | 2 => probeRestart e.index s
  | 4 => fsEmpty e.index s
  | _ => s

/-- `THM_SHED` and SHED from the items shed (R755, R756). -/
def shedShow (on : Bool) (s : State) : State :=
  let l := s.therm.items
  let v := b2n on + b2n (on && s.therm.below.isSome) * 2 + (l.map ShedEntry.kind).foldl max 0 % 8 * 4 + min 255 l.length * 256
    + sumL (l.map ShedEntry.power) % 65536 * 65536
  putB Reg.thmStatus 1 on (wr Reg.thmShed (BitVec.ofNat 32 v) s)

def shedInForce (s : State) : Bool := getB s Reg.thmShed 0

/-- The items shed become those of `l`: what leaves resumes, what comes stops. -/
def shedTo (l : List ShedEntry) (s : State) : State :=
  let same := fun (a b : ShedEntry) => decide (a.kind = b.kind) && decide (a.index = b.index)
  let old := s.therm.items
  let s := putTherm (fun t => { t with items := l }) s
  let s := (old.filter fun e => !l.any (same e)).foldl shedResume s
  (l.filter fun e => !old.any (same e)).foldl shedStop s

/-- The entries of the mode in force that are to be shed; none in SERVICE (24_service_mode.md R802). -/
def shedDueList (s : State) : List ShedEntry := if modeNow s = 5 then [] else (shedList s.plan.committed s.plan.cfg.mode).filter (shedSafe s)

/-- The shed list is put in force (R745). -/
def shedApply (s : State) : State :=
  if s.therm.shedDue = false ∨ shedInForce s then s
  else
    let s := putTherm (fun t => { t with shedDue := false, below := none }) s
    setLevel Src.shed Reg.thmStatus true (shedShow true (shedTo (shedDueList s) s))

/-- The shed list is lifted (R747). -/
def shedLift (s : State) : State :=
  match s.therm.below with
  | none => s
  | some t =>
    if shedInForce s ∧ t + 60 * tickSec ≤ s.mono then
      let s := putTherm (fun t => { t with below := none }) (shedTo [] s)
      setLevel Src.shed Reg.thmStatus false (shedShow false s)
    else s

/-- A commit or mode change while the list is in force takes the new configuration's (R746). -/
def shedChange (s : State) : State := if shedInForce s then shedShow true (shedTo (shedDueList s) s) else s

/-- What a patch has marked on air, or a take has put on the route to an output on air, resumes (R746; 01_compiled_plan.md R66). -/
def shedAir (s : State) : State :=
  if shedInForce s ∧ s.therm.items.any (fun e => !shedSafe s e) then shedShow true (shedTo (s.therm.items.filter (shedSafe s)) s)
  else s

/-! ## The thermal monitor (R741 to R743) -/

/-- DIE of a sensor (R758). -/
def sensorDie (n : Nat) : Nat := if n < 48 then n / 12 else if n < 56 then 4 else 5

/-- The dies and stacks with their sensors (R741): the quadrant that must be awake, if any, and the sensors. -/
def dieSensors : List (Option Nat × List Nat) :=
  (upto 0 4).map (fun q => (some q, upto (12 * q) 12)) ++ [(none, upto 48 8)] ++ (upto 0 4).map fun q => (some q, upto (56 + 2 * q) 2)

/-- The die or stack of a sensor is awake. -/
def sensorAwake (s : State) (n : Nat) : Bool :=
  if n < 48 then awake s (n / 12) else if n < 56 then true else awake s ((n - 56) / 2)

/-- One reading (R742, R758): a sensor out of its range, or one that fails its internal check and gives none, is marked FAIL until the next cold start. -/
def sensorRead (s : State) (x : Nat × Option Int) : State :=
  if x.1 < 64 ∧ sensorAwake s x.1 then
    let a := Reg.thmSensor x.1
    let bad := x.2.elim true fun v => decide (v < -400) || decide (1500 < v)
    let s := putF a 17 3 (sensorDie x.1) (x.2.elim s fun v => putF a 0 16 (satTwos 16 v) s)
    if bad && !getB s a 16 then bump Reg.thmStatus 8 7 1 (putB Reg.thmStatus 4 true (putB a 16 true s)) else s
  else s

/-- The reading of a die or stack: the highest of its working sensors, and 105 °C where none works (R742), with its sensor. -/
def dieTemp (s : State) (l : List Nat) : Int × Nat :=
  match l.filter fun n => !getB s (Reg.thmSensor n) 16 with
  | [] => (1050, l.headD 0)
  | n :: r => r.foldl (fun b k => let t := untwos 16 (getF s (Reg.thmSensor k) 0 16); if b.1 < t then (t, k) else b)
      (untwos 16 (getF s (Reg.thmSensor n) 0 16), n)

/-- T_J and its sensor (R741). -/
def junction (s : State) : Int × Nat :=
  ((dieSensors.filter fun d => (d.1.map (awake s)).getD true).map fun d => dieTemp s d.2).foldl (fun b x => if b.1 < x.1 then x else b) (-32768, 0)

/-- A THERMAL event stands in every epoch in which T_J has reached 110 °C (R743), and DEMOTE says so of the last one (R755). -/
def thermEpoch (s : State) : State :=
  let hot := decide (1100 ≤ s.therm.tj)
  let s := putB Reg.thmStatus 2 hot s
  if hot then penalty 3 s else s

/-- `THM_MAX` (R754). -/
def thermMax (t : Int × Nat) (s : State) : State :=
  if untwos 16 (getF s Reg.thmMax 0 16) < t.1 then wr Reg.thmMax (BitVec.ofNat 32 (satTwos 16 t.1 + t.2 * 65536)) s else s

/-- A sample (R741 to R743). The estimate of `THM_POWER` is an open value (log 3). -/
def thermSample (readings : List (Nat × Option Int)) (s : State) : State :=
  let s := readings.foldl sensorRead s
  let j := junction s
  let t := j.1
  let s := thermMax j (wr Reg.thmPower (BitVec.ofNat 32 (freeValue s % 65536)) (useFree s))
  let s := putWear (fun w => { w with peak := max w.peak t }) (putTherm (fun x => { x with tj := t }) s)
  let s := if 1000 ≤ t then setLevel Src.hot Reg.thmStatus true (putB Reg.thmStatus 0 true s)
    else if t < 970 then setLevel Src.hot Reg.thmStatus false (putB Reg.thmStatus 0 false s) else s
  let force := shedInForce s
  let s := putTherm (fun x => { x with
    shedDue := x.shedDue || (decide (1050 ≤ t) && !force)
    below := if force ∧ t < 1000 then some (x.below.getD s.mono) else none }) s
  let s := if force then shedShow true s else s
  let s := if 1100 ≤ t ∧ powered s then penalty 3 s else s
  if 1200 ≤ t then hardTrip s else s

/-! ## Commands of the firmware (R753, R756, R758; 16_command_packets.md R628) -/

/-- `TEL_SENSORS`: the firmware's read of `THM_MAX` clears it (00_scope.md R17). -/
def fxTelSensors (c : Cmd) (s : State) : State :=
  let l := (upto 0 64).map fun n => (2, if getB s (Reg.thmSensor n) 16 then 0x8000 else getF s (Reg.thmSensor n) 0 16)
  complete c St.ok 0 (l ++ [(2, getF s Reg.thmMax 0 16), (1, getF s Reg.thmShed 2 3), (1, 0), (4, getF s Reg.thmPower 0 16)]) (wr Reg.thmMax 0 s)

/-- `TEL_WEAR_READ`, in the layout of R628 (log 41). -/
def fxTelWearRead (c : Cmd) (s : State) : State :=
  let w := s.therm.wear
  complete c St.ok 0 [(8, w.wear / 10_000_000_000), (4, w.hot95 / 3600), (4, w.hot105 / 3600), (4, w.starts), (12, 0)] s

/-! ## Commands -/

/-- QUADRANT_SLEEP_ENTRY (R737). -/
def execQuadrantSleepEntry (dt quad : Nat) (s : State) : Host.Outcome State Fault Refusal := .next (only (decide (quad < 4)) (quadSleep quad) (tick dt s))

/-- QUADRANT_WAKE (R738). -/
def execQuadrantWake (dt quad : Nat) (s : State) : Host.Outcome State Fault Refusal := .next (only (decide (quad < 4)) (quadWake quad) (tick dt s))

/-- WAKE_LATE (R739). -/
def execWakeLate (dt quad : Nat) (s : State) : Host.Outcome State Fault Refusal := .next (only (decide (quad < 4)) (wakeLate quad) (tick dt s))

/-- THERMAL_SAMPLE (R741). -/
def execThermalSample (dt : Nat) (readings : List (Nat × Option Int)) (s : State) : Host.Outcome State Fault Refusal :=
  .next (lineOnly true (thermSample readings) (tick dt s))

/-- SHED_LIST_APPLY (R745). -/
def execShedListApply (dt : Nat) (s : State) : Host.Outcome State Fault Refusal := .next (only true shedApply (tick dt s))

/-- SHED_LIST_LIFT (R747). -/
def execShedListLift (dt : Nat) (s : State) : Host.Outcome State Fault Refusal := .next (only true shedLift (tick dt s))

/-- WEAR_ACCRUAL (R752). -/
def execWearAccrual (dt : Nat) (s : State) : Host.Outcome State Fault Refusal := .next (lineOnly true wearAccrue (tick dt s))

/-- WEAR_LEDGER_COPY (R753). -/
def execWearLedgerCopy (dt : Nat) (writeOk : Bool) (s : State) : Host.Outcome State Fault Refusal := .next (lineOnly true (wearCopy writeOk) (tick dt s))

end Sys2Proof.Machine
end

