-- ==== Sys2Proof/Machine/Identity.lean ====
section
/-! DEFINITION. Identity and attestation (19_identity.md). -/

namespace Sys2Proof.Machine

/-! ## Owner-key slots (R693 to R697) -/

/-- The slot is valid (R696). -/
def OwnerSlot.good (x : OwnerSlot) : Bool := x.valid && !x.revoked

/-- A bit of the slot is set (R695). -/
def OwnerSlot.used (x : OwnerSlot) : Bool := decide (x.hash ≠ 0) || x.valid || x.revoked

/-- The slot is damaged (R694). -/
def OwnerSlot.damaged (x : OwnerSlot) : Bool := decide (x.hash ≠ 0) && !x.valid && !x.revoked

def ownerSlot (s : State) (n : Nat) : OwnerSlot := (nth? s.otp.slots n).getD ownerSlot0

/-- A predicate of the four slots as bits. -/
def slotBits (s : State) (p : OwnerSlot → Bool) : Nat := sumL ((upto 0 4).map fun n => b2n (p (ownerSlot s n)) * 2 ^ n)

/-- A valid slot remains when slot `n` is left out. -/
def otherValid (s : State) (n : Nat) : Bool := (upto 0 4).any fun k => decide (k ≠ n) && (ownerSlot s k).good

/-- A hash of 48 bytes of 0xFF (R695). -/
abbrev allOnes : Nat := 2 ^ 384 - 1

/-- `ID_OTP` as it reads (R706). -/
def idOtpRead (s : State) : Word :=
  BitVec.ofNat 32 (0x00B1 + b2n s.otp.ownerOnly * 65536 + b2n s.fw.settings.allowOn * 131072
    + slotBits s OwnerSlot.valid * 2 ^ 20 + slotBits s OwnerSlot.revoked * 2 ^ 24 + slotBits s OwnerSlot.damaged * 2 ^ 28)

def putSlot (n : Nat) (x : OwnerSlot) (s : State) : State := { s with otp := { s.otp with slots := setNth x s.otp.slots n } }

/-- OTP bits can be set and never cleared (R693): the hash after programming, all of it or, where the command fails, an open part of it (R694). -/
def program (old new : Nat) (ok : Bool) (free : Nat) : Nat := if ok then old ||| new else old ||| (new &&& free)

/-- An OTP command ends with ID_OTP_FAIL (R705). -/
def otpFail (c : Cmd) (s : State) : State := refuse c St.idOtpFail (flagEvent Src.identity noInst Reg.idStatus 3 s)

/-- A revocation marks a load slot whose bundle names the slot rejected (R699). -/
def revokeLoad (n : Nat) (s : State) : State :=
  let names := match s.plan.slot with
    | some b => nbit b.flags 0 && (match b.sig with | some g => decide (g.slot = n) | none => false)
    | none => false
  if names = false ∨ getF s Reg.planState 8 2 = 0 then s
  else match s.plan.loading with
    | some l => { s with plan := { s.plan with loading := some { l with status := St.planSignature, sect := 0xFF } } }
    | none => wr Reg.planLastStatus (BitVec.ofNat 32 (St.planSignature + 0xFF * 65536)) (setLoad 3 s)

/-- `ID_OWNER_KEY` (R694, R695, R697). -/
def fxIdOwnerKey (c : Cmd) (n hash : Nat) (ok : Bool) (s : State) : State :=
  let x := ownerSlot s n
  let h := program x.hash hash ok (freeValue s)
  let t := if ok then s else useFree s
  if 3 < n then refuse c St.idRange s
  else if hash = allOnes then
    if s.otp.ownerOnly && !otherValid s n then refuse c St.idRange s
    else if ok then done c (revokeLoad n (putSlot n { x with hash := h, revoked := true } t))
    else otpFail c (putSlot n { x with hash := h } t)
  else if x.used then refuse c St.idSlotUsed s
  else if ok then done c (putSlot n { x with hash := h, valid := true } t)
  else otpFail c (putSlot n { x with hash := h } t)

/-- `ID_POLICY_SET` (R694, R697, R701). -/
def fxIdPolicySet (c : Cmd) (policy : Nat) (ok : Bool) (s : State) : State :=
  let owner := nbit policy 0
  if 3 < policy ∨ (owner && decide (slotBits s OwnerSlot.good = 0)) then refuse c St.idRange s
  else
    let on := nbit policy 1
    let s := if on = s.fw.settings.allowOn then s else allowChanged (saveSettings (fun x => { x with allowOn := on }) s)
    if owner = false ∨ s.otp.ownerOnly then done c s
    else if ok then done c { s with otp := { s.otp with ownerOnly := true } }
    else otpFail c s

/-! ## Certificate, information, attestation (R692, R703, R704) -/

/-- `ID_CERT_READ` (R692). -/
def fxIdCertRead (c : Cmd) (s : State) : State := complete c St.ok 0 [(min 2048 s.otp.cert.length, bytesNum (s.otp.cert.take 2048))] s

/-- POLICY: bit 0 of OTP, bit 1 of the settings slot. -/
def policyBits (s : State) : Nat := b2n s.otp.ownerOnly + b2n s.fw.settings.allowOn * 2

/-- `ID_INFO` (16_command_packets.md R628). -/
def fxIdInfo (c : Cmd) (s : State) : State :=
  complete c St.ok 0 [(8, s.otp.serial), (2, 0x00B1), (2, 0), (4, otpFloor s), (1, slotBits s OwnerSlot.used), (1, policyBits s), (2, 0)] s

/-- The twelve words of a digest register as one number. -/
def digestOf (s : State) (a : Nat) : Nat := sumL ((upto 0 12).map fun i => (rd s (a + 4 * i)).toNat * 2 ^ (32 * i))

/-- The statement up to its signature (R704). -/
def statement (nonce : Nat) (s : State) : List (Nat × Nat) :=
  let flags := b2n (confirmed s) + b2n (getB s Reg.planState 12) * 2 + b2n (paired s) * 4 + b2n (getB s Reg.pairStatus 1) * 8
  [(4, 0x5441535A), (2, 1), (2, 0x00B1), (8, s.otp.serial), (4, (rd s Reg.fwVerRun).toNat), (4, otpFloor s), (1, modeNow s), (1, flags),
    (1, policyBits s), (1, slotBits s OwnerSlot.good + slotBits s OwnerSlot.revoked * 16), (4, (rd s Reg.planPatchGen).toNat),
    (8, houseFrame s), (32, nonce), (48, digestOf s (Reg.fwDigestRun 0)), (48, digestOf s (Reg.planDigestCommitted 0))]

/-- `ID_ATTEST` (R691, R703, R704): the statement signed with the device key; the number that an ECDSA signature takes at random is an open value (log 3). -/
def fxIdAttest (c : Cmd) (nonce : Nat) (s : State) : State :=
  if getB s Reg.idStatus 0 = false then refuse c St.cmdMode s
  else
    let body := statement nonce s
    let sig := ecdsaSign s.sec.key (freeValue s) (sha384 168 (packLe body))
    complete c St.ok 0 (body ++ [(48, revBytes 48 sig.1), (48, revBytes 48 sig.2)]) (count Reg.idAttests (useFree s))

/-- The security engine at a cold start (R690, R691, R705): the private key from the PUF, its public key's digest, KEY_OK where that is the key of the certificate, and CERT_OK where the certificate parses and carries the unit's serial number. -/
def idStart (puf : Nat) (s : State) : State :=
  let c := certParse s.otp.cert
  let pub := ecPublic puf
  let s := putDigest (Reg.idKeyDigest 0) (sha384 97 pub) { s with sec := { s.sec with key := puf } }
  putB Reg.idStatus 0 (c.elim false fun c => decide (c.key = pub)) (putB Reg.idStatus 1 (c.elim false fun c => decide (c.serial = s.otp.serial)) s)

/-- A word of the ID block that reads from OTP; none for the others. -/
def idRead (s : State) (a : Nat) : Option Word :=
  if a = Reg.idSerialLo then some (BitVec.ofNat 32 s.otp.serial)
  else if a = Reg.idSerialHi then some (BitVec.ofNat 32 (s.otp.serial / 2 ^ 32))
  else if a = Reg.idOtp then some (idOtpRead s)
  else none

end Sys2Proof.Machine
end

