-- ==== Sys2Proof/Machine/PlanCheck.lean ====
section
/-! DEFINITION. The validation of a plan bundle by `PLAN_LOAD` (01_compiled_plan.md R21 to R37, and the rules of other chapters that R33 names). -/


namespace Sys2Proof

/-- The configuration that a bundle lays down for a mode (R19). -/
def Bundle.cfg (b : Bundle) (m : Nat) : ModeCfg := Machine.modeCfgOf (some b) m

end Sys2Proof

namespace Sys2Proof.Machine

/-- The reference configuration that a command section lays down, entry by entry (12_reference_selection.md R495). -/
def refTab (es : List RefEntry) : Tab RefEntry := ((upto 0 es.length).zip es).foldl (fun t x => tabSet (refDefault x.1) x.1 x.2 t) []

/-! ## Header and section table (R22 to R27, R33 steps 1 and 4) -/

/-- R33 step 1. A MODE_MASK bit needs no overlay section in the table (log 166). -/
def headerOk (b : Bundle) (len : Nat) : Bool :=
  decide (b.magic = 0x4E4C505A) && decide (b.fmtMajor = 1) && decide (b.hdrLen = 256) && decide (b.bundleLen = len)
    && decide (b.bundleLen ≤ 134217728) && b.reservedZero && decide (b.flags < 8) && decide (b.modeMask < 256)
    && decide (nfld b.modeMask 0 1 = 0) && decide (b.modeMask / 32 = 0)
    && (nbit b.flags 2 || decide (b.predDigest = 0)) && inRange 1 64 b.sectionCount && decide (b.sections.length = b.sectionCount)
    && decide (b.sectTableOfs % 64 = 0) && decide (256 ≤ b.sectTableOfs) && decide (b.sigOfs + b.sigLen = b.bundleLen)
    && decide (b.sigLen = if b.signed then 208 else 0)

/-- Section types that may stand only in the base plan (R25). -/
def baseOnly (type : Nat) : Bool := decide (type ∈ [5, 10, 11, 12, 14, 15, 17])

/-- ACCESS of a section type (R25). -/
def accessOf (type : Nat) : Nat :=
  if type ∈ [5, 11, 12, 14] then 2 else if type ∈ [13, 15] then 3 else if type ∈ [9, 10, 16, 17, 18, 19] then 1 else 0

/-- One section table entry (R23 to R25). -/
def sectionOk (b : Bundle) (x : Section) : Bool :=
  inRange 1 19 x.type && decide (x.mode ≤ 4) && (decide (x.mode = 0) || nbit b.modeMask x.mode)
    && (if x.mode = 0 then decide (x.type ≠ 19) else !baseOnly x.type)
    && decide (x.access = accessOf x.type) && decide (x.offset % 64 = 0)
    && (decide (x.access = 1 ∨ x.access = 2) || decide (x.entries = 0))
    && decide (b.sectTableOfs + 64 * b.sectionCount ≤ x.offset) && decide (x.offset + x.length ≤ b.sigOfs)

def sectionsApart (x y : Section) : Bool :=
  (decide (x.offset + x.length ≤ y.offset) || decide (y.offset + y.length ≤ x.offset)) && decide (x.type ≠ y.type ∨ x.mode ≠ y.mode)

def allApart : List Section → Bool
  | [] => true
  | x :: xs => xs.all (sectionsApart x) && allApart xs

/-- R33 step 4 for the table as a whole (R24, R26, R27). -/
def tableOk (b : Bundle) : Bool :=
  allApart b.sections && ([1, 2, 3, 10, 14].all fun t => (b.section? t 0).isSome)
    && inRange 1 4 b.defaultMode && nbit b.modeMask b.defaultMode && decide (b.sectTableOfs + 64 * b.sectionCount ≤ b.sigOfs)

/-! ## Section content (R33 step 7) -/

/-- Continuity records (R31). -/
def contRecOk (r : ContRec) : Bool := (inRange 1 4 r.fromMode || decide (r.fromMode = 0xFF)) && inRange 1 4 r.toMode && r.zeroOk

/-- Initial routes (02_word_fabric_and_takes.md R118). -/
def routeEntryOk (b : Bundle) (e : Nat) : Bool :=
  let d := entDest e
  let src := entSrc e
  let ms := b.modeIds.filter fun m => destUsed (b.cfg m) m d
  !ms.isEmpty && ms.all fun m => (decide (src = noSource) || srcUsed (b.cfg m) m src) && decide (routeStatus (b.cfg m) d src = St.ok)

/-- A safe content entry (03_port_pipelines.md R149). -/
def safeEntryOk (b : Bundle) (n e : Nat) : Bool :=
  decide (nfld e 0 2 ≠ 3) && decide (nfld e 2 2 = 0) && decide (e < 65536)
    && (decide (nfld e 0 2 ≠ 2) ||
      (let store := fun m => (memEntries (some b) m).any fun x => decide (x.kind = 3) && decide (x.owner = n)
       b.modeIds.any store && b.modeIds.all fun m => !destUsed (b.cfg m) m n || store m))

/-- Units of a stream at a step (06_trunk_framing.md R272); 0 where the step does not carry it. -/
def unitsAt (f : PortFmt) (step : Nat) : Nat :=
  let u := 8 / fmtRows f * 2 ^ (3 - step)
  if u ≤ 16 then u else 0

/-- The streams of one lane (R272, R273): indices without gaps, each with its number of units, no unit shared. -/
def laneStreamsOk (c : ModeCfg) (step dir : Nat) (es : List TrunkEntry) : Bool :=
  (upto 0 es.length).all (fun k => decide ((es.filter fun e => decide (e.b2 = k)).length = 1))
    && (es.all fun e =>
        match if dir = 0 then srcFmtIn c e.w4 else destFmtIn c e.w4 with
        | some f => decide (e.w4 < 1152) && decide (0 < unitsAt f step) && decide ((unitBits e.w6).length = unitsAt f step)
        | none => false)
    && (upto 0 16).all fun u => decide ((es.filter fun e => nbit e.w6 u).length ≤ 1)

/-- The partner of a trunk entry fits it (R278). -/
def partnerOk (es : List TrunkEntry) (e : TrunkEntry) : Bool :=
  decide (e.b3 = 0xFF) || (decide (e.dir = 0) && decide (e.b3 / 18 = e.trunk / 18) && es.any fun y =>
    decide (y.kind = 2) && decide (y.dir = 0) && decide (y.trunk = e.b3) && decide (y.b3 = e.trunk) && decide (nfld y.w4 0 1 ≠ nfld e.w4 0 1)
      && decide (y.b2 = e.b2) && decide (nfld y.w4 8 8 = nfld e.w4 8 8))

/-- The trunk map of a mode (06_trunk_framing.md R278). -/
def trunkMapOk (m : Nat) (c : ModeCfg) (es : List TrunkEntry) : Bool :=
  let streams := es.filter fun e => decide (e.kind = 1)
  let trunks := es.filter fun e => decide (e.kind = 2)
  let rail := fun (e : TrunkEntry) => if m = 2 then e.trunk / 36 else 0
  let second := fun (e : TrunkEntry) => trunks.any fun y =>
    decide (y.trunk = e.trunk) && decide (y.dir = 0) && decide (y.b3 ≠ 0xFF) && decide (nfld y.w4 0 1 = 1)
  (streams.all fun e =>
      match trunks.find? fun y => decide (y.trunk = e.trunk) && decide (y.dir = e.dir) with
      | none => false
      | some y => laneStreamsOk c y.b2 e.dir (streams.filter fun x => decide (x.trunk = e.trunk) && decide (x.dir = e.dir) && decide (x.lane = e.lane)))
    && (streams.all fun e => decide (e.w4 / 288 = if m = 2 then e.trunk / 18 % 2 else e.trunk / 18))
    && (streams.all fun e => decide (e.dir ≠ 0) || second e ||
        decide ((streams.filter fun x => decide (x.dir = 0) && decide (x.w4 = e.w4) && decide (rail x = rail e) && !second x).length ≤ 1))
    && (streams.all fun e => decide (e.dir = 0) || decide ((streams.filter fun x => decide (x.dir = 1) && decide (x.w4 = e.w4)).length ≤ 4))
    && trunks.all (partnerOk trunks)
    && decide ((trunks.filter fun e => nbit e.w6 1).length ≤ 2)

/-! ### Flows (08_media_flows.md R321 to R328) -/

/-- Channels that a packet time allows an audio send flow under the levels of ST 2110-30 that R334 names (log 53). -/
def audChannelsOk (rate ptime count : Nat) : Bool :=
  if rate = 96000 then decide (count ≤ if ptime = 125 then 32 else 4) else decide (count ≤ if ptime = 125 then 64 else 8)

/-- Enabled legs of an entry, each with true for blue. -/
def flowLegs (e : FlowEntry) : List (Bool × FlowLeg) :=
  (if flowRedEn e then [(false, e.red)] else []) ++ (if flowBlueEn e then [(true, e.blue)] else [])

def isAudioFlow (e : FlowEntry) : Bool := decide (e.essence = 2 ∨ e.essence = 3)

def isVideoFlow (e : FlowEntry) : Bool := decide (e.essence = 1 ∨ e.essence = 5)

/-- The channel of an enabled leg in a mode (R299, R324, R328, R356). -/
def legOk (m : Nat) (c : ModeCfg) (e : FlowEntry) (x : Bool × FlowLeg) : Bool :=
  let p := nfld x.2.channel 0 4
  let q := e.port / 288
  decide (p % 4 / 2 = b2n x.1) && ethChanRun c p (nfld x.2.channel 4 2)
    && (decide (e.port = 0xFFFF) || decide (p / 4 = if m = 2 ∧ x.1 then q + 2 else q))

/-- A used entry by itself, whatever the mode (R321, R344). -/
def flowShapeOk (f : Nat) (e : FlowEntry) : Bool :=
  inRange 1 5 e.essence && (decide (e.port < 1152) || (decide (e.port = 0xFFFF) && isAudioFlow e))
    && (decide (e.essence ≠ 2) || inRange 1 64 e.audCount) && (decide (e.essence ≠ 3) || (inRange 2 32 e.audCount && decide (e.audCount % 2 = 0)))
    && (!flowFree f e || !(flowRedEn e && flowBlueEn e))
    && (!flowReceives f || decide (e.port ≠ 0xFFFF) || decide (e.transit + e.maxDiff + 1 ≤ e.dly))

/-- A used entry in a mode (R321, R324, R325, R328, R334, R342, R344). -/
def flowModeOk (b : Bundle) (m : Nat) (f : Nat) (e : FlowEntry) : Bool :=
  let c := b.cfg m
  let rx := flowReceives f
  let legs := (flowLegs e).all (legOk m c e)
  let aud := !isAudioFlow e || rx || audChannelsOk c.audioRate e.ptime e.audCount
  if e.port = 0xFFFF then legs && aud
  else
    match if rx then srcFmtIn c e.port else destFmtIn c e.port with
    | none => true
    | some x =>
      let g := groupOf c.groups rx e.port
      legs && aud
        && (decide (e.essence ≠ 1) || inRange 1 9 x.id) && (decide (e.essence ≠ 5) || (inRange 1 4 x.id && g.isNone))
        && (g.map fun y => decide (y.lead = e.port)).getD true
        && (!rx || decide ((e.transit + e.maxDiff + 1) * tickMs ≤ e.dly * fmtFrameTicks x))
        && (!flowFree f e || (memEntries (some b) m).any fun y => decide (y.kind = 1) && decide (y.owner = e.port))
        && (rx || decide (e.essence ≠ 1) || (decide (e.payload % pgroupOf x = 0) && decide (e.payload ≤ 1428)))

/-- Embedded channels of a port that an audio flow carries. -/
def flowChannels (e : FlowEntry) : List Nat := upto e.audFirst e.audCount

/-- The flows bound to one port in a mode (R322, R323). -/
def portFlowsOk (b : Bundle) (m : Nat) (fs : List (Nat × FlowEntry)) (n : Nat) : Bool :=
  let c := b.cfg m
  let rx := (fs.filter fun x => flowReceives x.1 && decide (x.2.port = n)).map Prod.snd
  let tx := (fs.filter fun x => !flowReceives x.1 && decide (x.2.port = n) && isVideoFlow x.2).map Prod.snd
  let aud := rx.filter isAudioFlow
  (rx.isEmpty || (srcFmtIn c n).isNone ||
      (!((trunkEntries (some b) m).any fun e => decide (e.kind = 1) && decide (e.dir = 0) && decide (e.w4 = n))
        && decide ((rx.filter isVideoFlow).length = 1) && decide (aud.length ≤ 8) && decide ((rx.filter fun e => decide (e.essence = 4)).length ≤ 1)
        && (!(rx.any fun e => decide (e.essence = 5)) || decide (rx.length = 1))
        && (aud.flatMap flowChannels).Nodup))
    && (tx.all fun e => tx.all fun y => decide (e.essence = y.essence))

/-- Two enabled receive legs that one frame could match (R328). -/
def legsClash (x y : FlowLeg) : Bool :=
  decide (legChannel x = legChannel y) && decide (x.dstIp = y.dstIp) && decide (x.dstPort = y.dstPort) && decide (nfld x.vlan 0 13 = nfld y.vlan 0 13)
    && (decide (x.srcIp = y.srcIp) || decide (x.srcIp = 0) || decide (y.srcIp = 0))

def noneClash : List FlowLeg → Bool
  | [] => true
  | x :: xs => (xs.all fun y => !legsClash x y) && noneClash xs

/-- The flow address table (R328). -/
def flowTableOk (b : Bundle) (es : List FlowEntry) : Bool :=
  let fs := ((upto 0 es.length).zip es).filter fun x => flowUsed x.2
  (fs.all fun x => flowShapeOk x.1 x.2 && b.modeIds.all fun m => flowModeOk b m x.1 x.2)
    && (b.modeIds.all fun m => (distinct (fs.map fun x => x.2.port)).all fun n => decide (n = 0xFFFF) || portFlowsOk b m fs n)
    && noneClash ((fs.filter fun x => flowReceives x.1).flatMap fun x => (flowLegs x.2).map Prod.snd)

/-! ### Geometry, references, power, shed list -/

/-- Layer geometry in a mode (10_composition.md R399). -/
def geometrySectOk (c : ModeCfg) (es : List LayerEntry) : Bool :=
  es.all fun e => !entryOn e ||
    (match c.heads.find? fun x => decide (x.head = e.head) with
     | none => true
     | some x => geometryOk x (((destFmtIn c e.send).map fun f => (f.width, f.height)).getD (0, 0)) e)

/-- A number belongs to an awake quadrant. -/
def awakeIn (v q : Nat) : Bool := nbit v q

/-- A quadrant power map (21_supplies_and_thermal.md R736; 13_plls_and_clock_islands.md R504). In MIRROR what a logical number uses lies in both quadrants of a pair, which are awake or asleep together. -/
def powerMapOk (b : Bundle) (m v : Nat) : Bool :=
  let c := b.cfg m
  decide (v < 16) && awakeIn v 0 && (decide (m ≠ 2) || (decide (awakeIn v 0 = awakeIn v 2) && decide (awakeIn v 1 = awakeIn v 3)))
    && (c.inputs.all fun x => awakeIn v (quadOf x.port)) && (c.outputs.all fun x => awakeIn v (quadOf x.port))
    && (c.sends.all fun x => awakeIn v (quadOf x.send)) && (c.returns.all fun x => awakeIn v (quadOf x.ret))
    && (c.eths.all fun x => awakeIn v (x.port / 4)) && (c.tasks.all fun x => (taskEngines x).all fun e => awakeIn v (e / 32))
    && (c.heads.all fun x => awakeIn v (x.head / 24)) && ((trunkEntries (some b) m).all fun e => awakeIn v (e.trunk / 18))
    && (memEntries (some b) m).all fun e => decide (e.stack = 0xFF) || awakeIn v e.stack

/-- The video source that the initial routes give a destination (02_word_fabric_and_takes.md R118). -/
def initialVideo (b : Bundle) (d : Nat) : Nat :=
  b.routes.foldl (fun r e => if entDest e = d ∧ nbit (entLevels e) 0 then entSrc e else r) noSource

/-- The geometry that a plan lays down for a mode (R19). -/
def planGeometry (b : Bundle) (m : Nat) : List LayerEntry :=
  match geoOf (some b) m with
  | some es => es
  | none => (geoOf (some b) 0).getD []

/-- The sources on the routes to the outputs marked on air that a bundle lays down for a mode (R66). -/
def planAirRoute (b : Bundle) (m : Nat) : List Nat :=
  let c := b.cfg m
  let air := fun n => nbit ((nth? b.airTable n).getD 0) 0
  let links := taskLinks c ++ c.heads.flatMap fun h => ((planGeometry b m).filter fun e => entryOn e && decide (e.head = h.head)).map fun e => (h.ret, e.send)
  upstream (initialVideo b) links links.length (distinct (((upto 0 1152).filter fun d => air (1152 + d)).map (initialVideo b)))

/-- A shed list entry in a mode (21_supplies_and_thermal.md R744; R66), with the air marks, routes and geometry that the bundle lays down. -/
def shedEntryOk (b : Bundle) (m : Nat) (e : ShedEntry) : Bool :=
  let c := b.cfg m
  let air := fun n => nbit ((nth? b.airTable n).getD 0) 0
  e.zeroOk && match e.kind with
    | 1 =>
      match c.heads.find? fun x => decide (x.head = e.index) with
      | none => false
      | some x => decide (x.ret ∉ planAirRoute b m)
    | 2 => c.tasks.any fun x => decide (x.probe = e.index)
    | 3 => decide (e.index < 64) && c.eths.any fun x => decide (x.port = e.index / 4) && x.breakout
    | 4 => ((memEntries (some b) m).any fun x => decide (x.kind = 1) && decide (x.owner = e.index))
        && !(groupMembers c.groups true e.index).any fun n => (decide (n < 1152) && air n) || decide (n ∈ planAirRoute b m)
    | _ => false

/-- Entries that the content of a section holds; none where it is not of the section's type. -/
def contentCount (x : Section) : Option Nat :=
  match x.type, x.content with
  | 5, .flows es => some es.length
  | 9, .memory es => some es.length
  | 10, .routes es => some es.length
  | 11, .safe es => some es.length
  | 12, .colour es => some es.length
  | 13, .geometry es => some es.length
  | 14, .air es => some es.length
  | 15, .refs es => some es.length
  | 16, .trunks es => some es.length
  | 17, .continuity es => some es.length
  | 18, .shed es => some es.length
  | 19, .power _ => some 1
  | _, _ => none

/-- LENGTH and ENTRIES agree with the entries (R23), judged with the content at step 7 of R33 (log 167); the content of opaque sections is not published. -/
def sizeOk (x : Section) : Bool :=
  if accessOf x.type = 0 then true
  else
    match contentCount x with
    | none => false
    | some n => (decide (x.type = 15) || decide (x.length = n * entryBytes x.type)) && (decide (x.access = 3) || decide (x.entries = n))

/-- R33 step 7 for one section. -/
def contentOk (b : Bundle) (x : Section) : Bool :=
  let ms := b.modesOf x
  sizeOk x && match x.content with
    | .flows es => flowTableOk b es
    | .routes es => es.all (routeEntryOk b)
    | .safe es => ((upto 0 es.length).zip es).all fun p => safeEntryOk b p.1 p.2
    | .air es => es.all fun e => decide (e < 2)
    | .geometry es => ms.all fun m => geometrySectOk (b.cfg m) es
    | .refs es => b.modeIds.all fun m => refConfOk b.rateDen (refTrunks (trunkEntries (some b) m)) (b.cfg m) (refTab es)
    | .trunks es => ms.all fun m => trunkMapOk m (b.cfg m) es
    | .continuity es => es.all contRecOk
    | .shed es => ms.all fun m => es.all (shedEntryOk b m)
    | .power v => powerMapOk b x.mode v
    | _ => true

/-! ## Capacity of a mode (R37) -/

def mirrorHalf (m a b : Nat) : Nat := if m = 2 then b else a

/-- Ports in use (R37). -/
def portsOk (m : Nat) (c : ModeCfg) : Bool :=
  let n := mirrorHalf m 1152 576
  decide (c.inputs.length ≤ n) && decide (c.outputs.length ≤ n) && (c.inputs.all fun x => decide (x.port < n)) && c.outputs.all fun x => decide (x.port < n)

/-- Frame synchronisers in eighths of a 12G-eq (R37; 04_frame_stores.md R169: in GATEWAY the de-jitter buffers share the pool). In MIRROR a ring counts once, though each rail holds it (04_frame_stores.md R167). -/
def syncsOk (b : Bundle) (m : Nat) : Bool :=
  let es := (memEntries (some b) m).filter fun e => !nbit e.flags 0
  let pool := if m = 2 ∨ m = 4 then 384 else 768
  decide (memEq8 es 1 + (if m = 3 then memEq8 es 8 else 0) ≤ 8 * pool)

/-- Head units (10_composition.md R393). -/
def headsOk (m : Nat) (c : ModeCfg) : Bool :=
  let units := fun (hs : List HeadCfg) => sumL (hs.map headUnits)
  let inQ := fun q => units (c.heads.filter fun x => decide (x.head / 24 = q))
  match m with
  | 1 => decide (units c.heads ≤ 48) && (upto 0 4).all fun q => decide (inQ q ≤ 12)
  | 2 => decide (units c.heads ≤ 24) && decide (inQ 0 ≤ 12) && decide (inQ 1 ≤ 12) && decide (inQ 2 + inQ 3 = 0)
  | 3 => c.heads.isEmpty
  | _ => decide (units c.heads ≤ 96) && (upto 0 4).all fun q => decide (inQ q ≤ 24)

/-- Engines (09_ibex_engines.md R368, R379): the tasks of each engine, which lies in an awake quadrant, in MIRROR in Q0 or Q1; only a task of an alignment group is split, over at most four engines of one cluster; and the packetisers and depacketisers of video together. -/
def enginesOk (b : Bundle) (m : Nat) : Bool :=
  let c := b.cfg m
  let v := awakeMap (some b) m
  let split := fun (t : TaskCfg) => decide (t.engine ≠ 255) ||
    (decide (1 < taskMembers c t) && decide (1 ≤ t.split.length) && decide (t.split.length ≤ 4) && t.split.all fun e => decide (e / 8 = t.split.headD 0 / 8))
  (c.tasks.all split)
    && decide (sumL ((c.tasks.filter fun t => decide (t.kind = 1) || decide (t.kind = 2)).map (taskEq8 c)) ≤ 8 * mirrorHalf m 512 256)
    && (distinct (c.tasks.flatMap taskEngines)).all fun e =>
      let ts := engineTasks c.tasks e
      decide (e < mirrorHalf m 128 64) && awakeIn v (e / 32) && decide (engineCost c b.flowTable ts ≤ 1024) && decide (engineDmem c ts ≤ 384)
        && decide (ucodeOf ts ≤ 96)

/-- A flow takes part in a mode: it is used, and the port it is bound to, if any, is used there. -/
def flowInMode (c : ModeCfg) (f : Nat) (e : FlowEntry) : Bool :=
  flowUsed e && (decide (e.port = 0xFFFF) || (if flowReceives f then srcFmtIn c e.port else destFmtIn c e.port).isSome)

/-- Bytes that a packet takes on the wire beside its media bytes (R358; 08_media_flows.md R331 to R336): Ethernet header and FCS with preamble and gap, a VLAN tag, IP, UDP and RTP headers, and the header of its essence (log 183). -/
def packetOver (e : FlowEntry) (l : FlowLeg) : Nat :=
  38 + (if nbit l.vlan 12 then 4 else 0) + (if nbit e.flags 1 then 40 else 20) + 8 + 12 + (match e.essence with | 1 => 8 | 5 => 8 | _ => 0)

/-- Media bytes of a frame of a format: active samples at ESSENCE 1 by line, in pixel groups of `pgroupOf` bytes. -/
def lineBytes (f : PortFmt) : Nat := f.width * pgroupOf f / (if pgroupOf f = 5 then 2 else 4)

/-- ESSENCE 1 packets of a line (R332). -/
def linePackets (e : FlowEntry) (f : PortFmt) : Nat := ceilDiv (lineBytes f) (max 1 e.payload)

/-- Bits per second of a send leg on its channel (R358); the amount of ANC is the packet schedule's (log 183). -/
def legRate (c : ModeCfg) (e : FlowEntry) (l : FlowLeg) : Nat :=
  match e.essence, destFmtIn c e.port with
  | 1, some f => 8 * (lineBytes f + linePackets e f * packetOver e l) * f.height * (fmtRate f).1 / (fmtRate f).2
  | 5, some f =>
    let bytes := frameSlots f * 5
    8 * (bytes + ceilDiv bytes 1376 * packetOver e l) * (fmtRate f).1 / (fmtRate f).2
  | 2, _ => 8 * (e.audCount * 3 * (c.audioRate * e.ptime / 1000000) + packetOver e l) * (1000000 / max 1 e.ptime)
  | 3, _ => 8 * (e.audCount * 4 * (c.audioRate * e.ptime / 1000000) + packetOver e l) * (1000000 / max 1 e.ptime)
  | _, _ => 0

/-- Flows and Ethernet bandwidth (08_media_flows.md R358). -/
def flowsCapOk (b : Bundle) (m : Nat) : Bool :=
  let c := b.cfg m
  let es := ((upto 0 b.flowTable.length).zip b.flowTable).filter fun x => flowInMode c x.1 x.2
  let legs := fun (rx blue : Bool) => (es.filter fun x => (flowReceives x.1 == rx) && (if blue then flowBlueEn x.2 else flowRedEn x.2)).length
  let sent := (es.filter fun x => !flowReceives x.1).flatMap fun x => (flowLegs x.2).map fun l => (legChannel l.2, legRate c x.2 l.2)
  let anc := c.ancRate.map fun x => (x.1, 1000 * x.2)
  let rate := fun (p : Nat → Bool) => sumL (((sent ++ anc).filter fun x => p x.1).map Prod.snd)
  let ports := fun k => (c.eths.filter fun x => decide (x.port % 4 / 2 = k)).length
  let n := mirrorHalf m 2304 1152
  ([0, 1].all fun k => decide (ports k ≤ mirrorHalf m 8 4))
    && ([true, false].all fun rx => [true, false].all fun blue => decide (legs rx blue ≤ n))
    && ([0, 1].all fun k => decide (rate (fun g => decide (g / 4 % 4 / 2 = k)) ≤ mirrorHalf m 2880 1440 * 1000000000))
    && ((upto 0 64).all fun g =>
        decide (rate (fun x => decide (x = g)) ≤ (if c.eths.any fun y => decide (y.port = g / 4) && y.breakout then 90 else 360) * 1000000000))
    && decide (memEq8 ((memEntries (some b) m).filter fun e => !nbit e.flags 0) 8 ≤ 8 * if m = 3 then 768 else 96)

/-- Maximum power above 375 W, which SQUARE and GATEWAY have (00_scope.md R6), needs 60.0 W to shed (21_supplies_and_thermal.md R744). -/
def powerCapOk (b : Bundle) (m : Nat) : Bool :=
  decide (m ≠ 1 ∧ m ≠ 3) || decide (600 ≤ sumL ((shedList (some b) m).map ShedEntry.power))

def capacityOk (b : Bundle) (m : Nat) : Bool :=
  portsOk m (b.cfg m) && syncsOk b m && headsOk m (b.cfg m) && enginesOk b m && flowsCapOk b m && powerCapOk b m

/-- Line buffers of a mode (10_composition.md R400, R403). -/
def planLinebufOk (b : Bundle) (m : Nat) : Bool :=
  ((b.cfg m).heads.all fun h => decide (sumL (h.lbAlloc.take 16) ≤ 96)) && linebufOk (b.cfg m) (planGeometry b m)

/-- The status of the resource checks of one mode (R33). -/
def modeStatus (b : Bundle) (m : Nat) : Nat :=
  if capacityOk b m = false then St.planCapacity
  else if planLinebufOk b m = false then St.planLinebuf
  else if memAllocOk m (memEntries (some b) m) = false ∨ trafficOk m (b.cfg m).heads (memEntries (some b) m) = false then St.planMemory
  else St.ok

/-! ## Validation -/

/-- The first section at fault, by its index. -/
def badSection (p : Section → Bool) (xs : List Section) : Option Nat := findIdx? (fun x => !p x) xs

/-- Signature and policy (R29, R30). -/
def sigStatus (s : State) (b : Bundle) : Nat :=
  if b.signed then
    match b.sig with
    | none => St.planSignature
    | some g =>
      if g.slot ≤ 3 ∧ g.zeroOk ∧ (ownerSlot s g.slot).good ∧ sha384 97 g.key = (ownerSlot s g.slot).hash ∧ ecdsaOver g.key g.r g.s b.digest then St.ok else St.planSignature
  else if s.otp.ownerOnly then St.planUnsigned
  else St.ok

/-- The verdict of R33 on a bundle of the length given: a status, and the index of the section at fault or 0xFF (R34). -/
def planVerdict (s : State) (b : Bundle) (len : Nat) : Nat × Nat :=
  if headerOk b len = false then (St.planFormat, 0xFF)
  else if b.variant ≠ 0x00B1 then (St.planVariant, 0xFF)
  else if (rd s Reg.fwVerRun).toNat < b.minFw then (St.planFirmware, 0xFF)
  else
    match badSection (sectionOk b) b.sections with
    | some k => (St.planFormat, k)
    | none =>
      if tableOk b = false then (St.planFormat, 0xFF)
      else
        match badSection (fun x => decide (x.digest = x.actual)) b.sections with
        | some k => (St.planDigest, k)
        | none =>
          if sigStatus s b ≠ St.ok then (sigStatus s b, 0xFF)
          else
            match badSection (contentOk b) b.sections with
            | some k => (St.planFormat, k)
            | none => ((((b.modeIds.map (modeStatus b)).find? fun x => decide (x ≠ St.ok)).getD St.ok), 0xFF)

end Sys2Proof.Machine
end

