-- ==== Sys2Proof/Machine/Change.lean ====
section
/-! DEFINITION. Commits, mode changes and the moves into and out of SERVICE: what is pending, the apply frame, and the change-over of each destination (01_compiled_plan.md R38 to R59; 24_service_mode.md R801 to R807). -/

namespace Sys2Proof.Machine

/-! ## What is pending -/

def putPlan (f : PlanState → PlanState) (s : State) : State := { s with plan := f s.plan }

/-- The bundle that a change brings into force. -/
def changeBundle (s : State) (k : ChangeKind) : Option Bundle := if k = .base then s.plan.slot else s.plan.committed

/-- Quadrants that the power map of a change's mode wakes (R59). -/
def changeWakes (s : State) (k : ChangeKind) (mode : Nat) : List Nat :=
  if k = .base ∨ k = .modeSet then (upto 0 4).filter fun q => nbit (awakeMap (changeBundle s k) mode) q && (!awake s q || getB s Reg.pwrQuad (8 + q))
  else []

/-- A first commit that is held (R49): the timebase is FREERUN and an enabled candidate is in HOLDOFF. -/
def commitHolds (s : State) : Bool :=
  decide (refState s = 0) && (upto 0 7).any fun k => (candE s k).enabled && decide (candState s k = 2)

/-- A change becomes pending (R71): PENDING, PEND_MODE and the apply frame, and the quadrants it needs start to wake. -/
def changePend (p : Change) (s : State) : State :=
  let q := changeWakes s p.kind p.mode
  let s := q.foldl (fun s q => wakeStart q s) s
  let s := putPlan (fun x => { x with pending := some { p with wake := q } }) s
  put64 Reg.planApplyFrameLo p.frame (putF Reg.planState 4 3 p.mode (putF Reg.planState 10 2 1 s))

/-- A change of a kind for a mode and an apply frame; one of this unit's own has its partner to wait for where the unit forwards (R42). -/
def newChange (c : Cmd) (k : ChangeKind) (mode frame : Nat) (fromPlan held : Bool) (s : State) : Change :=
  { cmd := c, kind := k, mode := mode, frame := frame, start := frameStart s frame, asked := c.pkt.hdr.applyAt, routesFromPlan := fromPlan,
    held := held, armed := false, partnerArmed := decide (c.origin = .forward) || !(forwards s && (k = .base || k = .modeSet)), applied := false,
    first := decide (modeNow s = 0) || k = .svcLeave, wake := [], remaining := [], hitless := [] }

/-- The body under which a change is forwarded, with its mode resolved (R42). -/
def changeBody (p : Change) : Body := if p.kind = .base then .planCommit (b2n p.routesFromPlan) p.mode else .modeSet p.mode

/-- A pending change ends without effect: its command with a status, or nothing for one that the partner forwarded. -/
def changeCancel (st : Nat) (s : State) : State :=
  match s.plan.pending with
  | none => s
  | some p =>
    let s := planIdle s
    if p.cmd.origin = .forward then s else finishAt p.cmd st (houseFrame s) [] (planNote st 0xFF s)

/-- The firmware has loaded the shadow copies (R41), and tells the active unit of it (R42). -/
def planArm (s : State) : State :=
  match s.plan.pending with
  | none => s
  | some p =>
    if server s ≠ 1 ∨ p.held ∨ p.armed then s
    else
      let s := putB Reg.planState 11 true (putPlan (fun x => { x with pending := some { p with armed := true } }) s)
      if p.cmd.origin = .forward then send .armed s else s

/-- A held first commit is released (R49): its earliest frame is counted from now, and it is forwarded. -/
def holdRelease (s : State) : State :=
  match s.plan.pending with
  | none => s
  | some p =>
    if p.held = false ∨ commitHolds s then s
    else
      let e := earliestFrame s (10 * tickMs)
      let f := if e ≤ p.asked then p.asked else e
      let s := putPlan (fun x => { x with pending := some { p with held := false, frame := f, start := frameStart s f } }) s
      forward (.command (changeBody p) f) (put64 Reg.planApplyFrameLo f s)

/-! ## The apply frame -/

/-- Outputs whose bit a continuity record sets (R31). -/
def contOutputs (b : Bundle) (a m : Nat) : List Nat :=
  (b.contRecs.filter fun r => decide (r.fromMode = a) && decide (r.toMode = m)).flatMap ContRec.outputs

/-- Outputs that are hitless across a change (R47, R50, R57, R58). -/
def changeHitless (p : Change) (s : State) : List Nat :=
  if p.first then []
  else
    match p.kind, s.plan.slot, s.plan.committed with
    | .base, some b, some o =>
      if nbit b.flags 2 ∧ b.predDigest = o.digest ∧ p.mode = modeNow s ∧ b.rateNum = o.rateNum ∧ b.rateDen = o.rateDen then contOutputs b 0xFF p.mode else []
    | .modeSet, _, some o => contOutputs o (modeNow s) p.mode
    | _, _, _ => []

/-- Destinations of a configuration. -/
def destsOf (c : ModeCfg) : List Nat := c.outputs.map OutCfg.port ++ c.sends.map SendCfg.send

/-- Patches that a base-plan commit discards (R45, R63; log 54). -/
def patchesDiscard (s : State) : State :=
  let l := s.plan.patches
  l.foldl (fun s p => if p.cmd.origin = .forward then s else finishAt p.cmd St.planChanged (houseFrame s) [] (planNote St.planChanged 0xFF s))
    (putPlan (fun x => { x with patches := [] }) s)

/-- The bundle in the load slot becomes the committed plan (R45, R50, R70, R71). -/
def baseCommit (b : Bundle) (s : State) : State :=
  let s := audAbort (patchesDiscard s)
  let s := putPlan (fun x => { x with committed := some b, tables := { flows := b.flowTable, safe := b.safeTable, colour := b.colourTable, air := b.airTable } }) s
  let s := putDigest (Reg.planDigestCommitted 0) b.digest (wr Reg.planGenCommitted (BitVec.ofNat 32 b.generation) s)
  let s := wr Reg.planHouseRate (BitVec.ofNat 32 (b.rateNum + b.rateDen * 65536)) s
  let s := putB Reg.planState 13 (nbit b.flags 1) (putB Reg.planState 12 b.signed (wr Reg.planPatchGen 0 s))
  let s := ibxDiscard (compDiscard { s with fw := { s.fw with library := runImage s } })
  if s.pair.everCommitted then s else capLow (putPair (fun p => { p with everCommitted := true }) s)

/-- Audio ports are off in SERVICE, and as `AUD_PORT_CTRL` has them outside it (24_service_mode.md R802). -/
def audPortsService (s : State) : State :=
  (upto 0 4).foldl (fun s p => audDirSet p .tx (getB s (Reg.audPortCtrl p) 1) (audDirSet p .rx (getB s (Reg.audPortCtrl p) 0) s)) s

/-- A quadrant whose logic has been tested starts from its reset state, except its stack and its trunks (24_service_mode.md R806; log 221). -/
def quadFresh (s : State) (q : Nat) : State :=
  let blocks := fun (a : Nat) => decide (a / 0x100000 = q) && decide (a % 0x100000 / 0x10000 ∈ [0, 1, 4, 5, 6])
  let s := ((tabKeys s.mem.fs).filter fun n => decide (quadOf n = q)).foldl (fun s n => fsEmpty n s) s
  { s with
    regs := s.regs.filter fun x => !blocks x.1
    port := { ins := s.port.ins.filter fun x => decide (x.1 / 288 ≠ q), outs := s.port.outs.filter fun x => decide (x.1 / 288 ≠ q) }
    eth := { ch := s.eth.ch.filter fun x => decide (x.1 / 16 ≠ q) }
    ibx := { s.ibx with eng := s.ibx.eng.filter fun x => decide (x.1 / 32 ≠ q) }
    comp := { s.comp with layers := s.comp.layers.filter (fun x => decide (x.1 / 21 / 24 ≠ q)), heads := s.comp.heads.filter fun x => decide (x.1 / 24 ≠ q) } }

/-- The mode, the configuration and what belongs to the kind of the change. -/
def changeSwitch (p : Change) (s : State) : State :=
  let s := match p.kind, s.plan.slot with
    | .base, some b => baseCommit b s
    | .modeSet, _ => compMode s
    | .svcLeave, _ => s.svc.tested.foldl quadFresh s
    | .svcEnter, _ => audAbort { s with svc := { s.svc with prior := s.plan.cfg, mode := modeNow s, tests := [], tested := [] } }
    | _, _ => s
  let c := match p.kind with
    | .base => modeCfgOf s.plan.committed p.mode
    | .modeSet => cfgFmts s (modeCfgOf s.plan.committed p.mode)
    | .svcEnter => { s.plan.cfg with tasks := [], heads := [], eths := [] }
    | .svcLeave => s.svc.prior
  let s := planEv (fun s => putF Reg.planState 0 3 p.mode (putB Reg.planState 11 false s)) (putPlan (fun x => { x with cfg := c }) s)
  match p.kind, s.plan.committed.bind Bundle.refs? with
  | .base, es => refSave (refConfig (refTab (es.getD [])) s)
  | .svcEnter, _ => audPortsService s
  | .svcLeave, _ =>
    let s := audPortsService (putPair (fun x => { x with prioZero := false }) s)
    let s := { s with port := { s.port with outs := tabMap (fun _ t => { t with pattern := none }) s.port.outs }, svc := svc0 }
    if p.mode = 0 then s
    else if paired s then resyncDue (putPair (fun x => { x with svcSync := true }) s) else capLow s
  | _, _ => s

/-- The output frame store of an output keeps its good frame across a change (03_port_pipelines.md R150): its allocation entry is identical, and so is the output's format. -/
def storeKept (s : State) (d : Nat) : Bool :=
  let fmt := fun (c : ModeCfg) => (c.outputs.find? fun o => decide (o.port = d)).map OutCfg.fmt
  decide (fmt s.plan.oldCfg = fmt s.plan.cfg) && (memEntry? s 3 d).elim false fun e => decide (e ∈ s.plan.oldMem)

/-- Registers of the blocks from the configuration now in force; destinations follow one by one. -/
def changeSetup (p : Change) (oldCfg : ModeCfg) (oldMem : List MemEntry) (oldFlows : Nat) (s : State) : State :=
  let s := if p.kind = .base then memDiscard s else s
  let s := (upto 0 1152).foldl (fun s n => setupInput oldCfg.inputs (decide (p.kind = .base)) n s) s
  let s := (upto 0 288).foldl (fun s g => setupGroup false g (setupGroup true g s)) s
  let s := (upto 0 1408).foldl (fun s n => setupFs oldMem n s) s
  let s := (upto 0 4).foldl (fun s q => setupComp q (setupStack q s)) s
  let s := (upto 0 72).foldl (fun s n => setupTrunk n s) s
  let s := (upto 0 16).foldl (fun s e => setupCage e (setupEth e s)) s
  let s := (upto 0 (max oldFlows s.plan.tables.flows.length)).foldl (fun s f => setupFlow f s) s
  let s := (upto 0 128).foldl (fun s e => setupEngine e s) s
  let s := (upto 0 512).foldl (fun s n => setupProbe n s) s
  let s := (upto 0 96).foldl (fun s h => setupHead h s) s
  let s := setupAudio s
  let s := if p.kind = .base then audPlanRoutes s else s
  shedChange (pairRefresh s)

/-- Every destination has changed (R53, R71): the command completes, quadrants that are to sleep begin to (R59), and a held join step is tried again. -/
def changeDone (p : Change) (s : State) : State :=
  let s := put64 Reg.planCommitFrameLo p.frame (planIdle s)
  let s := if p.cmd.origin = .forward then s else planNote St.ok 0xFF s
  let s := if p.kind = .base ∨ p.kind = .modeSet then
      (upto 0 4).foldl (fun s q => if nbit (awakeMap s.plan.committed p.mode) q = false ∧ awake s q then putB Reg.pwrQuad (8 + q) true s else s) s
    else s
  let s := if p.first ∧ p.mode ≠ 0 then capEnd s else s
  let s := if paired s ∧ p.kind = .base then putPair (fun x => { x with planSame := true }) s else s
  let s := if p.kind = .svcLeave ∧ p.mode ≠ 0 then colourReturn s else s
  let s := if p.kind = .base ∧ getB s Reg.pairStatus 1 then joinRetry s else s
  finishAt p.cmd St.ok p.frame (if p.kind = .modeSet then [(8, p.frame)] else []) (pairRefresh s)

/-- The apply frame starts (R43, R45, R56). -/
def changeApply (p : Change) (s : State) : State :=
  let oldCfg := s.plan.cfg
  let oldMem := memEntries s.plan.committed oldCfg.mode
  let oldTables := s.plan.tables
  let oldFlows := oldTables.flows.length
  let hit := changeHitless p s
  let s := changeSwitch p s
  let rest := if p.kind = .svcEnter ∨ p.mode = 0 then [] else distinct (destsOf s.plan.cfg ++ if p.first then [] else destsOf oldCfg)
  let p := { p with applied := true, remaining := rest, hitless := hit }
  let s := putPlan (fun x => { x with oldCfg := if p.first then x.cfg else oldCfg, oldMem := oldMem, oldTables := oldTables, pending := some p }) s
  let s := changeSetup p oldCfg oldMem oldFlows s
  let s := if p.first ∨ p.kind = .svcEnter then (upto 0 1152).foldl (fun s n => setupOutput (storeKept s n) n (setupDelay s.plan.oldMem n s)) s else s
  if rest.isEmpty then changeDone p s else s

/-- Quadrants and trunks that the change needs are ready (R59): the quadrants are awake, and each enabled link pair that the new mode uses in them is in RUN or FAILED. -/
def wakeReady (p : Change) (s : State) : Bool :=
  p.wake.all fun q => awake s q && (upto (18 * q) 18).all fun n =>
    !getB s (Reg.trkLinkCtrl n) 0 || !((trunkEntries (changeBundle s p.kind) p.mode).any fun e => decide (e.trunk = n))
      || linkRun s n || getB s (Reg.trkLinkStatus n) 3

/-- The change at or after the start of its apply frame: cancelled where a unit is not armed (R42; log 55), moved where quadrants are not ready (R59), or applied. -/
def changeStart (s : State) : State :=
  match s.plan.pending with
  | none => s
  | some p =>
    if p.held ∨ p.applied ∨ s.now < p.start then s
    else if p.partnerArmed = false ∧ forwards s then forward (.command .planDiscard 0) (changeCancel St.planPartner s)
    else if p.armed = false then changeCancel St.planAborted s
    else if p.kind = .modeSet ∧ wakeReady p s = false then
      let f := houseFrame s + 1
      put64 Reg.planApplyFrameLo f (putPlan (fun x => { x with pending := some { p with frame := f, start := frameStart s f } }) s)
    else changeApply p s

/-- The start of the house frame before the apply frame (R42): a partner that is not armed by then keeps both units from the change. -/
def changeDeadline (s : State) : State :=
  match s.plan.pending with
  | none => s
  | some p =>
    if p.held ∨ p.applied ∨ p.partnerArmed ∨ forwards s = false ∨ s.now < frameStart s (p.frame - 1) then s
    else forward (.command .planDiscard 0) (changeCancel St.planPartner s)

/-! ## Change-over of a destination (R43 to R47) -/

/-- The first switch point of a destination at or after the start of the apply frame; one that the new plan does not use has it under the old one. Where the plans give it different formats, the new plan's decides (log 168). -/
def changeSp (s : State) (p : Change) (d : Nat) : Nat :=
  match destFmtIn s.plan.cfg (leadOf s.plan.cfg d) with
  | some _ => (firstSpIn s.plan.cfg d p.start).2
  | none => (firstSpIn s.plan.oldCfg d p.start).2

/-- The initial route of a destination's level (02_word_fabric_and_takes.md R118): a lead's entry moves its group. -/
def initialRoute (s : State) (d l : Nat) : Nat :=
  let lead := leadOf s.plan.cfg d
  ((s.plan.committed.map Bundle.routes).getD []).foldl (fun r e =>
    if entDest e = lead ∧ nbit (entLevels e) l then (if entSrc e = noSource then noSource else entSrc e + (d - lead)) else r) noSource

/-- A destination with its group keeps its sources (R46, R56; log 56): it was used, and every level it has a source on exists with that source under the new plan. -/
def routesKept (s : State) (p : Change) (ds : List Nat) : Bool :=
  let c := s.plan.cfg
  let lead := leadOf c (ds.headD 0)
  !p.first && !p.routesFromPlan && ds.all fun d => destUsed s.plan.oldCfg s.plan.oldCfg.mode d && (upto 0 10).all fun l =>
    let src := routeOf s d l
    let a := routeOf s lead l
    if src = noSource then decide (a = noSource)
    else nbit (levelsOf d) l && decide (src = a + (d - lead)) && srcUsed c c.mode src && decide (routeStatus c lead a = St.ok)

/-- Every level of a destination takes a route. -/
def routesTo (r : Nat → Nat) (d : Nat) (s : State) : State := (upto 0 10).foldl (fun s l => setRoute d l (r l) s) s

/-- Routes of the destinations that change together (R46); a kept route is written again, which in MIRROR gives it to the second rail (02_word_fabric_and_takes.md R81). After SERVICE they are those at entry (24_service_mode.md R805). -/
def changeRoutes (p : Change) (ds : List Nat) (s : State) : State :=
  if p.kind = .svcLeave then s
  else
    let kept := routesKept s p ds
    ds.foldl (fun s d =>
      if destUsed s.plan.cfg p.mode d then routesTo (if kept then routeOf s d else initialRoute s d) d s
      else if nameable p.mode d then routesTo (fun _ => noSource) d s else s) s

/-- What one destination shows and runs after its change-over: hitless, or safe content for at most 2 of its frames (R47, R57); how long within that bound is open (log 57). -/
def changeOutput (p : Change) (sp d : Nat) (s : State) : State :=
  let s := putPlan (fun x => { x with pending := x.pending.map fun y => { y with remaining := setDel d y.remaining } }) s
  if 1152 ≤ d then s
  else
    let s := if d ∈ p.hitless then s
      else
        match destFmtIn s.plan.cfg d with
        | some f =>
          let t := sp + freeValue s % 3 * fmtFrameTicks f
          putPlan (fun x => { x with safeUntil := tabPut d t x.safeUntil }) (useFree s)
        | none => s
    let s := setupOutput (storeKept s d) d (setupDelay s.plan.oldMem d s)
    if p.kind = .base then audChangeover d s else s

/-- Destination `d`, with its group, changes over at its switch point (R43). -/
def changeover (d : Nat) (s : State) : State :=
  match s.plan.pending with
  | none => s
  | some p =>
    if p.applied = false ∨ d ∉ p.remaining then s
    else
      let sp := changeSp s p d
      if s.now < sp then s
      else
        let ds := (membersOf s.plan.cfg (leadOf s.plan.cfg d)).filter fun x => decide (x ∈ p.remaining)
        let s := changeRoutes p ds s
        let s := ds.foldl (fun s d => changeOutput p sp d s) s
        match s.plan.pending with
        | some q => if q.remaining.isEmpty then changeDone q s else s
        | none => s

/-- A switch point of destination `d` (R43, R51; 02_word_fabric_and_takes.md R97): a plan change first, then the takes that wait for it; what they put on the way to an output on air is not shed (R66). -/
def switchPoint (d : Nat) (s : State) : State :=
  let s := changeover d (changeStart s)
  let probe := decide (1152 ≤ d) && s.take.pend.any fun p => decide (p.dest = d) && decide (p.sp ≤ s.now) && nbit p.levels 0
  let s := shedAir (takeCommit d s)
  if probe then probesOnSend d s else s

/-! ## Commands -/

/-- PLAN_ARM (R41). -/
def execPlanArm (dt : Nat) (s : State) : Host.Outcome State Fault Refusal := .next (only true planArm (tick dt s))

/-- COMMIT_HOLD_RELEASE (R49). -/
def execCommitHoldRelease (dt : Nat) (s : State) : Host.Outcome State Fault Refusal := .next (only true holdRelease (tick dt s))

/-- DESTINATION_CHANGEOVER (R43). -/
def execDestinationChangeover (dt dest : Nat) (s : State) : Host.Outcome State Fault Refusal :=
  .next (only (decide (dest < 1408)) (fun s => changeover dest (changeStart s)) (tick dt s))

/-- TAKE_COMMIT (02_word_fabric_and_takes.md R97). -/
def execTakeCommit (dt dest : Nat) (s : State) : Host.Outcome State Fault Refusal :=
  .next (only (decide (dest < 1408)) (switchPoint dest) (tick dt s))

end Sys2Proof.Machine
end

