-- ==== Sys2Proof/Machine/Plan.lean ====
section
/-! DEFINITION. The plan commands: load, commit, mode change, discard, query, read and patch (01_compiled_plan.md R33 to R66). -/

namespace Sys2Proof.Machine

/-! ## Refusals and completions -/

/-- A plan command refused (R72). -/
def planRefuse (c : Cmd) (st : Nat) (s : State) : State := refuse c st (planNote st 0xFF s)

def loadState (s : State) : Nat := getF s Reg.planState 8 2

/-- A commit is pending (R36). -/
def commitPending (s : State) : Bool := s.plan.pending.any fun p => decide (p.kind = .base)

/-! ## Loading (R33 to R36) -/

/-- A load that comes while another is under way is refused like one that meets a pending commit (log 162). The bundle in the slot is validated here, and copied to a partner that is to validate it too (R35; 24_service_mode.md R804). -/
def fxPlanLoad (c : Cmd) (length : Nat) (s : State) : State :=
  if commitPending s ∨ s.plan.loading.isSome then planRefuse c St.planBusy s
  else
    let v := match s.plan.slot with
      | some b => planVerdict s b length
      | none => (St.planFormat, 0xFF)
    let copies := decide (v.1 = St.ok) && forwards s && decide (modeNow s ≠ 5)
    let s := setLoad 1 (putPlan (fun x => { x with loading := some { cmd := c, status := v.1, sect := v.2, partner := if copies then none else some 0 } }) s)
    match s.plan.slot with
    | some b => if copies then send (.plan b) s else s
    | none => s

/-- Both units have finished (R34, R35). A partner that has gone no longer counts (log 58). -/
def loadComplete (s : State) : State :=
  match s.plan.loading with
  | none => s
  | some l =>
    match if forwards s then l.partner else some (l.partner.getD 0) with
    | none => s
    | some pst =>
      if server s ≠ 1 then s
      else
        let st := if l.status ≠ St.ok then l.status else if pst ≠ St.ok then St.planPartner else St.ok
        let dig := (s.plan.slot.map Bundle.digest).getD 0
        let s := setLoad (if st = St.ok then 2 else 3) (putPlan (fun x => { x with loading := none }) s)
        let s := putDigest (Reg.planDigestLoaded 0) dig (wr Reg.planGenLoaded (BitVec.ofNat 32 ((s.plan.slot.map Bundle.generation).getD 0)) s)
        complete l.cmd st 0 [(48, dig), (2, l.status), (2, pst)] (planNote st l.sect s)

/-! ## Commit, mode change, discard (R38 to R59) -/

/-- `PLAN_COMMIT` (R38 to R40, R49). -/
def fxPlanCommit (c : Cmd) (flags mode : Nat) (s : State) : State :=
  match s.plan.slot with
  | none => planRefuse c St.planNone s
  | some b =>
    let m := if mode = 0 then b.defaultMode else mode
    if loadState s ≠ 2 then planRefuse c St.planNone s
    else if nbit b.modeMask m = false then planRefuse c St.planNoOverlay s
    else if s.plan.pending.isSome then planRefuse c St.planBusy s
    else if linebufOk (b.cfg m) (planGeometry b m) = false then planRefuse c St.planLinebuf s
    else if decide (modeNow s = 0) && commitHolds s then changePend (newChange c .base m 0 (nbit flags 0) true s) s
    else
      match applyFrame s (10 * tickMs) c.pkt.hdr.applyAt with
      | none => planRefuse c St.planLate s
      | some f =>
        let p := newChange c .base m f (nbit flags 0) false s
        changePend p (forward (.command (changeBody p) f) s)

/-- `MODE_SET` (R20, R40, R56, R59; 10_composition.md R419). -/
def fxModeSet (c : Cmd) (mode : Nat) (s : State) : State :=
  match s.plan.committed with
  | none => planRefuse c St.planNone s
  | some b =>
    if inMode s = false then planRefuse c St.planNone s
    else if nbit b.modeMask mode = false then planRefuse c St.planNoOverlay s
    else if s.plan.pending.isSome then planRefuse c St.planBusy s
    else if linebufOk (b.cfg mode) (geoAfter s mode) = false then planRefuse c St.planLinebuf s
    else
      match applyFrame s (2 * tickMs) c.pkt.hdr.applyAt with
      | none => planRefuse c St.planLate s
      | some f =>
        let p := newChange c .modeSet mode f false false s
        changePend p (forward (.command (changeBody p) f) s)

/-- The load slot is empty (R52, R71). A `PLAN_LOAD` under way then ends with PLAN_FORMAT (log 163). -/
def slotEmpty (s : State) : State :=
  let l := s.plan.loading.map fun l => { l with status := St.planFormat, sect := 0xFF }
  let s := putDigest (Reg.planDigestLoaded 0) 0 (wr Reg.planGenLoaded 0 (putPlan (fun x => { x with slot := none, loading := l }) s))
  if l.isSome then s else setLoad 0 s

/-- `PLAN_DISCARD` (R52). The cancelled `PLAN_COMMIT` completes with PLAN_ABORTED (log 164); where a mode change or a move of SERVICE is pending and no commit is, the slot is emptied and that change goes on (log 165). -/
def fxPlanDiscard (c : Cmd) (s : State) : State :=
  match s.plan.pending with
  | none => done c (planNote St.ok 0xFF (slotEmpty s))
  | some p =>
    if p.kind ≠ .base then done c (planNote St.ok 0xFF (slotEmpty s))
    else if p.applied = false ∧ (p.held ∨ s.now < frameStart s (p.frame - 1)) then
      done c (planNote St.ok 0xFF (forward (.command .planDiscard 0) (changeCancel St.planAborted s)))
    else planRefuse c St.planLate s

/-! ## Entries of readable and patchable sections -/

/-- The entries of a readable or patchable section of the committed plan, patches included, each as its size and value; none for any other section. -/
def sectionEntries (s : State) (b : Bundle) (type mode : Nat) : Option (List (Nat × Nat)) :=
  match b.section? type mode with
  | none => none
  | some x =>
    match x.content with
    | .flows _ => some (s.plan.tables.flows.map fun e => (160, encodeFlow e))
    | .memory es => some (es.map fun e => (32, encodeMem e))
    | .routes es => some (es.map fun e => (4, e))
    | .safe _ => some (s.plan.tables.safe.map fun e => (4, e))
    | .colour _ => some (s.plan.tables.colour.map fun e => (64, encodeColour e))
    | .air _ => some (s.plan.tables.air.map fun e => (4, e))
    | .trunks es => some (es.map fun e => (8, encodeTrunk e))
    | .continuity es => some (es.map fun e => (148, encodeCont e))
    | .shed es => some (es.map fun e => (8, encodeShed e))
    | .power v => some [(4, v)]
    | _ => none

/-- A plan query answered with a result body, and its status noted (R72). -/
def planAnswer (c : Cmd) (result : List (Nat × Nat)) (s : State) : State := planNote St.ok 0xFF (complete c St.ok 0 result s)

/-- `PLAN_READ` (16_command_packets.md R628). -/
def fxPlanRead (c : Cmd) (type mode first cnt : Nat) (s : State) : State :=
  match s.plan.committed with
  | none => planRefuse c St.planNone s
  | some b =>
    match sectionEntries s b type mode with
    | none => planRefuse c St.planFormat s
    | some es => if es.length < first + cnt then planRefuse c St.planFormat s else planAnswer c ((es.drop first).take cnt) s

/-- A digest as it stands in twelve registers. -/
def regDigest (s : State) (a : Nat) : Nat := digestOf s a

/-- `PLAN_QUERY` (16_command_packets.md R628): its body holds the registers as they stand before its own status is noted. -/
def fxPlanQuery (c : Cmd) (s : State) : State :=
  planAnswer c
    (([Reg.planState, Reg.planLastStatus, Reg.planGenCommitted, Reg.planGenLoaded, Reg.planPatchGen].map fun a => (4, (rd s a).toNat))
      ++ [(48, regDigest s (Reg.planDigestCommitted 0)), (48, regDigest s (Reg.planDigestLoaded 0))]) s

/-! ## Patches (R60 to R66) -/

/-- The tables with one entry of a section replaced. -/
def patchEntry (type n v : Nat) (t : Tables) : Tables :=
  match type with
  | 5 => { t with flows := setNth (decodeFlow v) t.flows n }
  | 11 => { t with safe := setNth v t.safe n }
  | 12 => { t with colour := setNth (decodeColour v) t.colour n }
  | 14 => { t with air := setNth v t.air n }
  | _ => t

def patchRecord (r : PatchRec) (t : Tables) : Tables := ((upto 0 r.entries.length).zip r.entries).foldl (fun t x => patchEntry r.type (r.first + x.1) x.2 t) t

def patchTables (rs : List PatchRec) (t : Tables) : Tables := rs.foldl (fun t r => patchRecord r t) t

/-- Entries of a patchable section. -/
def tableLen (t : Tables) (type : Nat) : Nat :=
  match type with
  | 5 => t.flows.length
  | 11 => t.safe.length
  | 12 => t.colour.length
  | 14 => t.air.length
  | _ => 0

/-- What a patch may not change of a used flow entry (08_media_flows.md R329): everything but the enables, PT, SSRC and the legs' fields other than CHANNEL. -/
def flowFixed (e : FlowEntry) : FlowEntry :=
  let leg := fun (l : FlowLeg) => { l with dstIp := 0, srcIp := 0, dstMac := 0, srcMac := 0, dstPort := 0, srcPort := 0, vlan := 0, dscp := 0, hops := 0 }
  { e with flags := nset (nset e.flags 2 false) 3 false, pt := 0, ssrc := 0, red := leg e.red, blue := leg e.blue }

/-- The fields of a used entry that a patch may change lie within what R326 and R327 give them: PT, zero fields, and the upper bytes of IPv4 addresses. -/
def flowFieldsOk (e : FlowEntry) : Bool :=
  let leg := fun (l : FlowLeg) => l.zeroOk && (nbit e.flags 1 || (decide (l.dstIp < 2 ^ 32) && decide (l.srcIp < 2 ^ 32)))
  inRange 96 127 e.pt && e.zeroOk && leg e.red && leg e.blue

/-- A patched flow entry against the entry it replaces (08_media_flows.md R329). -/
def flowPatchOk (old : Option FlowEntry) (e : FlowEntry) : Bool :=
  match old with
  | none => false
  | some o => if flowUsed o then decide (flowFixed o = flowFixed e) && flowFieldsOk e else !flowUsed e

/-- One entry of a record against the rules of its section (R65; 03_port_pipelines.md R147, R149; 08_media_flows.md R329). -/
def patchEntryOk (b : Bundle) (t : Tables) (type n v : Nat) : Bool :=
  match type with
  | 5 => flowPatchOk (nth? t.flows n) (decodeFlow v)
  | 11 => safeEntryOk b n v
  | 12 =>
    let e := decodeColour v
    decide (e.flags < 4) && e.zeroOk && (e.coef.all fun x => decide (-131072 ≤ x) && decide (x ≤ 131071))
      && (e.ofsIn ++ e.ofsOut).all fun x => decide (-1024 ≤ x) && decide (x ≤ 1023)
  | 14 => decide (v < 2)
  | _ => false

/-- One record (R62 order 3), with the tables as the records before it leave them. -/
def patchRecordOk (b : Bundle) (t : Tables) (r : PatchRec) : Bool :=
  decide (r.type ∈ [5, 11, 12, 14]) && (b.section? r.type 0).isSome && decide (r.first + r.entries.length ≤ tableLen t r.type)
    && (((upto 0 r.entries.length).zip r.entries).all fun x => patchEntryOk b t r.type (r.first + x.1) x.2)
    && (decide (r.type ≠ 5) || flowTableOk b (patchRecord r t).flows)

/-- The first record that fails, by its index. -/
def patchBad (b : Bundle) : Tables → Nat → List PatchRec → Option Nat
  | _, _, [] => none
  | t, k, r :: rs => if patchRecordOk b t r then patchBad b (patchRecord r t) (k + 1) rs else some k

/-- The tables as the patches accepted before will leave them at a frame (R61, R62; log 59). -/
def tablesAt (s : State) (frame : Nat) : Tables := (s.plan.patches.filter fun p => decide (p.frame ≤ frame)).foldl (fun t p => patchTables p.records t) s.plan.tables

def insPatch (p : Patch) : List Patch → List Patch
  | [] => [p]
  | x :: xs => if p.frame < x.frame then p :: x :: xs else x :: insPatch p xs

/-- `PLAN_PATCH` (R60, R62): COUNT 0 and records that do not fill the body make the structure wrong. -/
def fxPlanPatch (c : Cmd) (rs : List PatchRec) (structOk : Bool) (s : State) : State :=
  let f := applyFrame s tickMs c.pkt.hdr.applyAt
  match s.plan.committed with
  | none => planRefuse c St.planNone s
  | some b =>
    if getB s Reg.planState 13 then planRefuse c St.planLocked s
    else if structOk = false ∨ rs.isEmpty ∨ (rs.any fun r => decide (r.count = 0) || decide (r.entries.length ≠ r.count)) then planRefuse c St.planFormat s
    else
      match patchBad b (tablesAt s (f.getD (earliestFrame s tickMs))) 0 rs with
      | some k => complete c St.planFormat k [] (planNote St.planFormat 0xFF s)
      | none =>
        match f with
        | none => planRefuse c St.planLate s
        | some f =>
          let p : Patch := { cmd := c, records := rs, frame := f, start := frameStart s f }
          forward (.command c.pkt.body f) (putPlan (fun x => { x with patches := insPatch p x.patches }) s)

/-- What a patched entry changes beside its table: the AIR bits and SAFE registers, a static layer's backdrop, a flow's legs. -/
def patchShow (old : Tables) (s : State) (r : PatchRec) : State :=
  (upto r.first r.entries.length).foldl (fun s n =>
    match r.type with
    | 5 => match nth? old.flows n with | some o => flowPatched n o s | none => s
    | 11 =>
      let v := safeEntry s n
      putF (Reg.poutStatus n) 2 2 (v % 4) (wr (Reg.poutSafe n) (BitVec.ofNat 32 v) s)
    | 12 => colourChanged n s
    | 14 => if n < 1152 then putB (Reg.pinStatus n) 15 (airIn s n) s else putB (Reg.poutStatus (n - 1152)) 10 (airOut s (n - 1152)) s
    | _ => s) s

/-- One accepted patch takes effect (R60, R64; 21_supplies_and_thermal.md R746). -/
def patchTake (s : State) (p : Patch) : State :=
  let old := s.plan.tables
  let s := putPlan (fun x => { x with tables := patchTables p.records x.tables }) s
  let s := shedAir (p.records.foldl (patchShow old) s)
  let s := count Reg.planPatchGen (if p.cmd.origin = .forward then s else planNote St.ok 0xFF s)
  finishAt p.cmd St.ok p.frame [(8, p.frame)] s

/-- Every patch whose house frame has started takes effect, in order of acceptance (R60, R61, R63). -/
def patchApply (s : State) : State :=
  let s := changeStart s
  let due := s.plan.patches.filter fun p => decide (p.start ≤ s.now)
  due.foldl patchTake (putPlan (fun x => { x with patches := x.patches.filter fun p => decide (s.now < p.start) }) s)

/-! ## Commands -/

/-- PLAN_LOAD_COMPLETE (R35). -/
def execPlanLoadComplete (dt : Nat) (s : State) : Host.Outcome State Fault Refusal := .next (only true loadComplete (tick dt s))

/-- PATCH_APPLY (R60). -/
def execPatchApply (dt : Nat) (s : State) : Host.Outcome State Fault Refusal := .next (only true patchApply (tick dt s))

end Sys2Proof.Machine
end

