-- ==== Sys2Proof/Machine/Service.lean ====
section
/-! DEFINITION. SERVICE mode: entering and leaving it, the tests and the repair, and the counters of every block (24_service_mode.md). -/

namespace Sys2Proof.Machine

/-! ## Entering and leaving (R800 to R807, R815) -/

/-- A move into or out of SERVICE is pending, and armed at once (R815). -/
def svcPend (c : Cmd) (k : ChangeKind) (mode f : Nat) (s : State) : State :=
  putB Reg.planState 11 true (changePend { newChange c k mode f false false s with armed := true, partnerArmed := true } s)

/-- `SVC_ENTER` (R800, R801): the claim's role priority is 0 from the next sample on. A commit or mode change that is pending is SVC_STATE (log 60). -/
def fxSvcEnter (c : Cmd) (s : State) : State :=
  if 5 ≤ modeNow s ∨ s.plan.pending.isSome then planRefuse c St.svcState s
  else
    match applyFrame s (2 * tickMs) c.pkt.hdr.applyAt with
    | none => planRefuse c St.planLate s
    | some f => svcPend c .svcEnter 5 f (putPair (fun p => { p with prioZero := true }) s)

/-- SERVICE serves tests: it is in force and no `SVC_LEAVE` has been accepted. -/
def inService (s : State) : Bool := decide (modeNow s = 5) && s.plan.pending.isNone

/-- A link pair that was under test returns to the ladder (R806): manual control, loops and the PRBS blocks of its lanes are off. -/
def linkClear (s : State) (n : Nat) : State :=
  if getB s (Reg.trkLinkCtrl n) 6 = false then s
  else
    let s := (upto (8 * n) 8).foldl (fun s m =>
      putB (Reg.trkTxCtrl m) 0 false (putF (Reg.trkPrbsRx m) 8 1 0 (putB (Reg.trkPrbsRx m) 0 false (putF (Reg.trkLaneCtrl m) 12 2 0 s)))) s
    let s := putB (Reg.trkLinkCtrl n) 6 false s
    if getB s (Reg.trkLinkCtrl n) 0 then ladderRestart n 0x60 s else s

/-- The link pairs of a quadrant whose logic has been tested start again; those of Q0 include the mirror link (R809). -/
def logicLinks (q : Nat) (s : State) : State :=
  let s := (upto (18 * q) 18).foldl (fun s n => if getB s (Reg.trkLinkCtrl n) 0 then ladderRestart n 0x60 s else s) s
  if q = 0 then ladderRestart 72 0x60 s else s

/-- Every test ends and what it set is cleared (R806). -/
def testsStop (s : State) : State :=
  let js := s.svc.tests
  let s := { s with svc := { s.svc with tests := [] } }
  let s := js.foldl (fun s j => refuse j.cmd St.svcState s) s
  let s := js.foldl (fun s j => if j.test = 3 then logicLinks j.unit s else s) s
  let s := (upto 0 72).foldl linkClear s
  (upto 0 16).foldl (fun s p => putB (Reg.ethPortCtrl p) 1 false s) s

/-- `SVC_LEAVE` (R805 to R807). -/
def fxSvcLeave (c : Cmd) (s : State) : State :=
  if inService s = false then planRefuse c St.svcState s
  else
    match applyFrame s (10 * tickMs) c.pkt.hdr.applyAt with
    | none => planRefuse c St.planLate s
    | some f => svcPend c .svcLeave s.svc.mode f (testsStop s)

/-! ## Tests (R808 to R811) -/

/-- Units of each test (R809). -/
def testUnits (test : Nat) : Nat :=
  match test with
  | 1 => 4
  | 2 => 2
  | 3 => 4
  | 4 => 128
  | 5 => 72
  | 6 => 576
  | 7 => 16
  | 8 => 1152
  | 9 => 20
  | _ => 0

/-- PARAM lies in the range of its test, and the bits the table does not name are zero (R809). -/
def testParamOk (test p : Nat) : Bool :=
  match test with
  | 4 => inRange 1 65535 p
  | 5 => decide (p < 65536) && decide (nfld p 6 2 = 0) && decide (1 ≤ nfld p 8 8)
  | 6 => decide (p < 2 ^ 21) && decide (nfld p 6 2 = 0) && decide (nfld p 11 5 = 0) && inRange 16 32 (nfld p 16 5)
  | 7 => decide (p < 2)
  | 8 => decide (p < 2 ^ 28) && decide (nfld p 0 8 ≤ 6) && decide (nfld p 8 8 = 0)
  | _ => decide (p = 0)

/-- The unit of the package that a test holds (R810): PRBS and EYE tests of one link pair share it. -/
def testKey (test unit : Nat) : Nat × Nat := if test = 6 then (5, unit / 8) else (test, unit)

def jobKey (j : SvcJob) : Nat × Nat := testKey j.test j.unit

/-- A lane set for a PRBS or EYE test: pattern, loop and both PRBS blocks. -/
def prbsLane (param : Nat) (s : State) (m : Nat) : State :=
  let s := putF (Reg.trkPrbsRx m) 0 3 (1 + nfld param 0 2 * 2) s
  putF (Reg.trkLaneCtrl m) 12 2 (nfld param 4 2) (putF (Reg.trkTxCtrl m) 0 3 (1 + nfld param 0 2 * 2) s)

/-- A link pair under manual control at a step (R245, R809): its ladder is left (log 61). -/
def linkManual (n step : Nat) (s : State) : State :=
  putF (linkStA n) 6 2 step (putF (linkStA n) 4 2 step (linkOff n (putB (Reg.trkLinkCtrl n) 6 true s)))

/-- A test starts (R809). -/
def testStart (j : SvcJob) (s : State) : State :=
  match j.test with
  | 2 =>
    let s := goAway (freeValue s % 16) (bankIsB s) (useFree s)
    if j.unit = 1 then { s with fw := { s.fw with bankA := if bankIsB s then none else s.fw.bankA, bankB := if bankIsB s then s.fw.bankB else none } } else s
  | 3 =>
    let s := { s with svc := { s.svc with tested := setIns j.unit s.svc.tested } }
    let s := (upto (18 * j.unit) 18).foldl (fun s n => linkOff n s) s
    if j.unit = 0 then linkOff 72 s else s
  | 5 => (upto (8 * j.unit) 8).foldl (prbsLane j.param) (linkManual j.unit (nfld j.param 2 2) s)
  | 6 => putF (Reg.trkLaneCtrl j.unit) 8 3 (nfld j.param 8 3) (prbsLane j.param (linkManual (j.unit / 8) (nfld j.param 2 2) s) j.unit)
  | 7 => putB (Reg.ethPortCtrl j.unit) 1 true s
  | _ => s

/-- `SVC_TEST` (R808 to R810): it starts unless one of its unit runs. -/
def fxSvcTest (c : Cmd) (test unit param : Nat) (s : State) : State :=
  if inService s = false then refuse c St.svcState s
  else if testUnits test ≤ unit ∨ testParamOk test param = false then refuse c St.svcRange s
  else
    let j : SvcJob := { cmd := c, test := test, unit := unit, param := param, start := s.mono }
    let busy := s.svc.tests.any fun x => decide (jobKey x = jobKey j)
    let s := { s with svc := { s.svc with tests := s.svc.tests ++ [j] } }
    if busy then s else testStart j s

/-- An allocation whose pages a MEM_BIST has zeroed (R809): its store starts again empty (log 222). -/
def memZeroed (s : State) (e : MemEntry) : State :=
  match e.kind with
  | 1 => fsEmpty e.owner s
  | 2 => putOut e.owner { outTrack s e.owner with past := [] } s
  | 3 => putB (Reg.poutStatus e.owner) 4 false (putOut e.owner { outTrack s e.owner with good := none } s)
  | 4 => putHead e.owner { headTrack s e.owner with drop := none, dropNext := none, dirty := true } s
  | 5 => { s with comp := { s.comp with surfaces := s.comp.surfaces.filter fun x => decide (x.1 / 21 ≠ e.owner) } }
  | 6 => { s with comp := { s.comp with layers := tabMap (fun k l => if k / 21 = e.owner then { l with newest := none, shown := none } else l) s.comp.layers } }
  | 8 => putFlow e.owner { flowTrack s e.owner with held := [] } s
  | _ => s

/-- Every page of a stack outside the system row is zero after a MEM_BIST, its copy of the slates too (R809). -/
def memBistEnd (stack : Nat) (s : State) : State :=
  let s := ((memEntries s.plan.committed s.svc.mode).filter fun e => decide (e.stack = stack)).foldl memZeroed s
  { s with mem := { s.mem with slates := tabMap (fun _ x => { x with zeroed := setIns stack x.zeroed }) s.mem.slates } }

/-- What a test leaves that has run to its end (R809, R811). -/
def testEnd (j : SvcJob) (pass : Bool) (s : State) : State :=
  match j.test with
  | 1 => memBistEnd j.unit s
  | 3 => logicLinks j.unit s
  | 4 =>
    if pass then
      let a := Reg.ibxStatus j.unit
      let s := putEng j.unit { engTrack s j.unit with faults := [], reloaded := false } (putF a 8 4 0 s)
      if engState s j.unit = 3 then putB (Reg.ibxSummary (j.unit / 32)) (j.unit % 32) false (putF a 0 2 (if (tasksOf s j.unit).isEmpty then 0 else 1) s) else s
    else s
  | 8 => if pass then putOut j.unit { outTrack s j.unit with pattern := some j.param } s else s
  | _ => s

/-- Errors and bits that the checkers of a link pair's lanes have counted. -/
def prbsCounts (s : State) (n : Nat) : List (Nat × Nat) := (upto (8 * n) 8).map fun m => (get64 s (Reg.trkPrbsErrLo m), get64 s (Reg.trkPrbsBitsLo m))

/-- Frames that ETH_LOOP sends on a channel of the port: on every channel in 100G mode, on the first in 400G mode (R809). -/
def loopSent (param k : Nat) : Nat := if k = 0 ∨ nbit param 0 then 1_000_000 else 0

/-- Signatures of an engine's epochs that differ from the library's (09_ibex_engines.md R380). -/
def sigBad (l : List Nat) : Nat := (l.filter fun x => decide (x ≠ Config.engineSignature)).length

/-- ERRORS of the head (R808): what the test counts (log 220). -/
def testErrors (s : State) (j : SvcJob) (d : TestData) : Nat :=
  match d with
  | .memory l => l.length
  | .logic v => ((upto 0 32).filter fun k => nbit v k).length
  | .engine l ue => sigBad l + ue
  | .eye l => sumL l
  | .eth l => sumL (((upto 0 l.length).zip l).map fun x => loopSent j.param x.1 - x.2.1)
  | .plain => if j.test = 5 then sumL ((prbsCounts s j.unit).map Prod.fst) else 0

/-- VERDICT 0 (R808): a memory, logic or engine test passes when it has found nothing; the others by their criterion, which is not published (log 220). -/
def testPass (s : State) (j : SvcJob) (r : TestResult) : Bool :=
  if j.test ≤ 4 then decide (testErrors s j r.data = 0) else r.pass

/-- The test-specific result (R809). -/
def testFields (s : State) (j : SvcJob) (d : TestData) : List (Nat × Nat) :=
  match d with
  | .memory l => (4, l.length) :: (l.take 64).map fun a => (8, a)
  | .logic v => [(4, v)]
  | .engine l ue => [(4, l.length), (4, sigBad l), (4, ue)]
  | .eye l => l.map fun v => (4, min (2 ^ 32 - 1) v)
  | .eth l => ((upto 0 l.length).zip l).flatMap fun x => [(8, loopSent j.param x.1), (8, x.2.1), (8, x.2.2)]
  | .plain =>
    if j.test = 5 then (prbsCounts s j.unit).flatMap fun x => [(8, x.1), (8, x.2)]
    else if j.test = 9 then [(4, getF s (Reg.pllLockTime j.unit) 0 24), (1, getF s (Reg.pllStatus j.unit) 8 6), (3, 0)]
    else []

/-- A test's result (R808, R809). -/
def testBody (s : State) (j : SvcJob) (r : TestResult) : List (Nat × Nat) :=
  [(2, j.test), (2, j.unit), (1, b2n (!testPass s j r)), (3, 0), (4, min (2 ^ 32 - 1) ((s.mono - j.start) / (1000 * tickNs))), (4, min (2 ^ 32 - 1) (testErrors s j r.data))]
    ++ testFields s j r.data

/-- The first job of a list that holds the unit of a test, and the rest. -/
def takeJob (k : Nat × Nat) : List SvcJob → Option SvcJob × List SvcJob
  | [] => (none, [])
  | j :: js => if jobKey j = k then (some j, js) else
    let r := takeJob k js
    (r.1, j :: r.2)

/-- A running test ends (R808 to R811), and the next one of its unit starts. SRAM_BIST ends while the firmware is away, and the firmware that runs next replies (R810; 22_supervisor_interconnect.md R767). -/
def testComplete (test unit : Nat) (r : TestResult) (s : State) : State :=
  match takeJob (testKey test unit) s.svc.tests with
  | (none, _) => s
  | (some j, rest) =>
    if j.test ≠ test ∨ j.unit ≠ unit ∨ server s ≠ (if test = 2 then 2 else 1) then s
    else
      let pass := testPass s j r
      let body := testBody s j r
      let s := testEnd j pass { s with svc := { s.svc with tests := rest } }
      let st := if pass then St.ok else St.svcFail
      let s := if test = 2 then { s with fw := { s.fw with owed := s.fw.owed ++ [{ cmd := j.cmd, status := st, frame := none, result := body }] } }
        else complete j.cmd st 0 body s
      match (takeJob (testKey test unit) rest).1 with
      | some n =>
        let tests := s.svc.tests.map fun x => if x = n then { n with start := s.mono } else x
        testStart { n with start := s.mono } { s with svc := { s.svc with tests := tests } }
      | none => s

/-! ## Repair (R812) -/

/-- One stuck address: a spare row takes its place where one is left (R812). -/
def repairOne (x : State × Nat) (a : Nat × Nat) : State × Nat :=
  let m := x.1.mem
  if (m.repaired.filter fun y => decide (y.1 = a.1)).length < Config.spareRows a.1 then
    ({ x.1 with mem := { m with stuck := m.stuck.filter (fun y => decide (y ≠ a)), repaired := m.repaired ++ [a] } }, x.2 + 1)
  else x

/-- `SVC_REPAIR` (R808, R812). -/
def fxSvcRepair (c : Cmd) (stack : Nat) (s : State) : State :=
  if inService s = false then refuse c St.svcState s
  else if 4 ≤ stack then refuse c St.svcRange s
  else
    let l := s.mem.stuck.filter fun a => decide (a.1 = stack)
    let r := l.foldl repairOne (s, 0)
    complete c (if r.2 = l.length then St.ok else St.svcFail) 0 [(4, r.2)] r.1

/-! ## Counters (R813, R814) -/

/-- A counting field: register, lowest bit and width; one wider than 32 bits stands in a LO and HI pair. -/
structure Counter where
  addr : Nat
  lo : Nat
  width : Nat
  deriving DecidableEq, Repr

def whole (a : Nat) : Counter := { addr := a, lo := 0, width := 32 }

def halves (a : Nat) : List Counter := [{ addr := a, lo := 0, width := 16 }, { addr := a, lo := 16, width := 16 }]

def wide (n a : Nat) : Counter := { addr := a, lo := 0, width := n }

def counterGet (s : State) (c : Counter) : Nat := if 32 < c.width then get64 s c.addr else getF s c.addr c.lo c.width

def counterClear (s : State) (c : Counter) : State := if 32 < c.width then put64 c.addr 0 s else putF c.addr c.lo c.width 0 s

/-- Instances of each block (R813). -/
def blockCount (block : Nat) : Nat :=
  match block with
  | 1 => 4
  | 2 => 1152
  | 3 => 1152
  | 4 => 4
  | 5 => 1408
  | 6 => 72
  | 7 => 64
  | 8 => 4608
  | 9 => 128
  | 10 => 96
  | 11 => 4
  | 12 => 20
  | 13 => 1
  | 14 => 1
  | 15 => 1
  | 16 => 1
  | _ => 0

/-- Counting fields of a block's instance, in ascending register offset and bit position (R814). -/
def blockCounters (block n : Nat) : List Counter :=
  match block with
  | 1 => [whole (Reg.fabChkTotal n), whole (Reg.fabInvalidTotal n)] ++ (upto 0 4).map (fun i => whole (Reg.fabPassChk n i))
      ++ (upto 0 352).flatMap fun i => halves (Reg.fabDestCnt n i)
  | 2 => [whole (Reg.pinCrcErr n), whole (Reg.pinLinesInvalid n)] ++ halves (Reg.pinAncCnt n)
  | 3 => [whole (Reg.poutLinesRepl n)] ++ halves (Reg.poutAncCnt n)
  | 4 => [whole (Reg.memCeCnt n), whole (Reg.memUeCnt n)]
  | 5 => [whole (Reg.fsRepeat (quadOf n) (localOf n)), whole (Reg.fsDrop (quadOf n) (localOf n)), { addr := Reg.fsLatency (quadOf n) (localOf n), lo := 24, width := 8 }]
  | 6 => halves (Reg.trkLinkCnt n)
      ++ (upto (8 * n) 8).flatMap (fun m => [whole (Reg.trkLaneSherr m), wide 48 (Reg.trkPrbsErrLo m), wide 48 (Reg.trkPrbsBitsLo m)])
      ++ halves (Reg.trkGrpCnt n) ++ (upto (8 * n) 8).flatMap fun m => halves (Reg.trkLaneFrm m) ++ halves (Reg.trkLaneMaperr m)
  | 7 => (upto 0 17).map fun k => wide 64 (Reg.ethStatLo n k)
  | 8 => (upto 0 3).map (fun k => wide 64 (Reg.flowStatLo n k)) ++ [whole (Reg.flowLate n), whole (Reg.flowLost n), whole (Reg.flowEarly n)]
      ++ halves (Reg.flowReject n) ++ [whole (Reg.flowTxHeld n)]
  | 9 => halves (Reg.ibxEcc n)
  | 10 => (upto 0 21).flatMap fun j => halves (Reg.compLayerCnt n j)
  | 11 => [whole (Reg.audRxXrun n), whole (Reg.audTxXrun n)]
  | 12 => halves (Reg.pllCnt n)
  | 13 => [Reg.takeAccepted, Reg.takeCommitted, Reg.takeSlipped, Reg.takeRefused, Reg.takeSuperseded, Reg.takeFwdLate].map whole
  | 14 => [whole Reg.pairSwitches] ++ halves Reg.pairCmpCnt ++ halves Reg.pairCmpOwn ++ halves Reg.pairMirAuth
      ++ (upto 0 2).flatMap (fun r => halves (Reg.mirRailCnt r) ++ [wide 16 (Reg.mirRailState r)]) ++ (upto 0 4).flatMap fun l => halves (Reg.mirLaneFrm l)
  | 15 => [whole Reg.cmdAccepted, whole Reg.cmdRefused]
  | 16 => [whole Reg.evqCommitted]
  | _ => []

/-- Counts that the model brings up to date when they are read. -/
def blockSettle (block n : Nat) (s : State) : State := if block = 2 then settleLines n s else if block = 7 then ethSettle n s else s

/-- `TEL_COUNTERS` (R813, R814). -/
def fxTelCounters (c : Cmd) (block index clear : Nat) (s : State) : State :=
  if blockCount block ≤ index then refuse c St.telRange s
  else
    let s := blockSettle block index s
    let l := blockCounters block index
    let r := l.map fun x => (8, counterGet s x)
    complete c St.ok 0 r (if clear % 2 = 1 then l.foldl counterClear s else s)

/-! ## Commands -/

/-- SVC_TEST_COMPLETE (R809). -/
def execSvcTestComplete (dt test unit : Nat) (result : TestResult) (s : State) : Host.Outcome State Fault Refusal :=
  .next (only true (testComplete test unit result) (tick dt s))

end Sys2Proof.Machine
end

