-- ==== Sys2Proof/Machine/House.lean ====
section
/-! DEFINITION. The start of a house frame: what is due at it takes effect (14_timebase_and_ptp.md R527; 16_command_packets.md R609; 04_frame_stores.md R177, R196). -/

namespace Sys2Proof.Machine

/-- The effect of a scheduled command whose time has come. The tables of `COMP_TABLE_SET` come into force at the head's own frame boundary (10_composition.md R416). -/
def schedEffect (x : Sched) (s : State) : State :=
  match x.cmd.pkt.body with
  | .fsControl source loss hold => applyFsControl source loss hold s
  | .slateLoad i w h scan len => applySlate i w h scan len s
  | .timeConf utc loc flags jam => applyTimeConf utc loc flags jam s
  | .ibxColourSet n _ _ => applyColourSet n s
  | .ibxPatternSet n pattern slate => applyPattern n pattern slate s
  | .ibxLoudReset p => applyLoudReset p s
  | .compLayerSet _ es => applyCompLayerSet es x.start s
  | .compInputFormat send id scan num den => applyCompInputFormat send id scan num den x.start s
  | .compSurfaceLoad head layer _ _ _ _ _ _ => applySurface head layer s
  | .audPortSet p dir ctrl rx tx => applyAudPortSet p dir ctrl rx tx s
  | _ => s

/-- Commands that an event of their own brings into force: `DELAY_SET` at the output's frame boundary (04_frame_stores.md R184), `REF_SNAP` at the step (12_reference_selection.md R486). -/
def ownEvent (b : Body) : Bool :=
  match b with
  | .delaySet .. => true
  | .refSnap => true
  | _ => false

/-- A scheduled command takes effect and completes (16_command_packets.md R609). -/
def schedTake (s : State) (x : Sched) : State := finishAt x.cmd St.ok x.frame x.result (schedEffect x s)

/-- Every scheduled command whose time has come, in order of acceptance. -/
def schedDue (s : State) : State :=
  let due := fun (x : Sched) => decide (x.start ≤ s.now) && !ownEvent x.cmd.pkt.body
  (s.sched.filter due).foldl schedTake { s with sched := s.sched.filter fun x => !due x }

/-- A house frame starts: an announced change of UTC_OFS (14_timebase_and_ptp.md R529), a commit that a partner has not armed (01_compiled_plan.md R42), a change of plan or mode (R43), patches (R60), scheduled commands, and the selections for the next frame (04_frame_stores.md R177). -/
def houseStart (s : State) : State := fsDecideAll (schedDue (patchApply (changeStart (changeDeadline (utcChange s)))))

/-! ## Commands -/

/-- HOUSE_FRAME_START (R527). -/
def execHouseFrameStart (dt : Nat) (s : State) : Host.Outcome State Fault Refusal := .next (only true houseStart (tick dt s))

end Sys2Proof.Machine
end

