-- ==== Sys2Proof/Machine/Resync.lean ====
section
/-! DEFINITION. Commands that the partner forwards, the state snapshot of a resync, and the epoch boundary (04_frame_stores.md R196; 15_the_pair.md R570 to R573; 01_compiled_plan.md R67). -/

namespace Sys2Proof.Machine

/-! ## Commands forwarded by the partner (R113, R196; 16_command_packets.md R623) -/

/-- A header for a command that no host of this unit has sent, with its frame. -/
def forwardHdr (frame : Nat) : Hdr :=
  { version := 1, flags := 0, tag := 0, length := 0, target := 0, seq := 0, applyAt := frame, resultLen := 0, zeroOk := true,
    bodyOk := true, bodyZeroOk := true, resultOk := true }

def forwardCmd (body : Body) (frame : Nat) : Cmd := { pkt := { hdr := forwardHdr frame, body := body }, origin := .forward }

/-- A change forwarded by the partner becomes pending (01_compiled_plan.md R42). -/
def changeForwarded (c : Cmd) (k : ChangeKind) (mode frame : Nat) (fromPlan : Bool) (s : State) : State :=
  if s.plan.pending.isSome ∨ (k = .base ∧ loadState s ≠ 2) ∨ (k = .modeSet ∧ s.plan.committed.isNone) then s
  else changePend (newChange c k mode frame fromPlan false s) s

/-- A forwarded command takes the frame that came with it; one whose effect is immediate is executed. No reply is written (16_command_packets.md R623). -/
def commandForwarded (body : Body) (frame : Nat) (s : State) : State :=
  let c := forwardCmd body frame
  match body with
  | .fsControl .. => schedule c frame [] s
  | .slateLoad .. => schedule c frame [] s
  | .timeConf .. => schedule c frame [] s
  | .ibxPatternSet .. => schedule c frame [] s
  | .ibxLoudReset .. => schedule c frame [] s
  | .compLayerSet .. => schedule c frame [] s
  | .compSurfaceLoad .. => schedule c frame [] s
  | .audPortSet .. => schedule c frame [] s
  | .delaySet output _ => putB (Reg.dlyStatus output) 13 true (schedule c frame [] s)
  | .ibxColourSet n flags e => colourAccept c n flags e frame s
  | .compInputFormat send id scan num den =>
    match sendCfg? s send with
    | none => s
    | some x =>
      match inputFormat id scan num den x.fmt.vpid with
      | none => s
      | some f => fmtAccept send f (frameStart s frame) (schedule c frame [] s)
  | .compTableSet head set table flags es =>
    match s.plan.cfg.heads.find? fun k => decide (k.head = head) with
    | none => s
    | some k => if nbit flags 0 then tableAccept c k set table es frame s else tableWrite head set table es none s
  | .audTake _ es => if inMode s then audArm c frame es s else s
  | .planCommit flags mode => changeForwarded c .base mode frame (nbit flags 0) s
  | .modeSet mode => changeForwarded c .modeSet mode frame false s
  | .planDiscard => if s.plan.pending.any fun p => decide (p.cmd.origin = .forward) && !p.applied then changeCancel St.planAborted s else s
  | .planPatch rs _ =>
    if s.plan.committed.isNone then s
    else putPlan (fun x => { x with patches := insPatch { cmd := c, records := rs, frame := frame, start := frameStart s frame } x.patches }) s
  | .ibxTableSet n table es => fxIbxTableSet c n table es s
  | .ibxProbeSet p bl bf fm ff st tp =>
    fxIbxProbeSet c p { blackLevel := bl, blackFrames := bf, freezeMad := fm, freezeFrames := ff, stLimit := st, tpLimit := tp } s
  | .modProfileSet eol ea => fxModProfileSet c eol ea s
  | .modAllowSet index flags oui part => fxModAllowSet c index flags oui part s
  | .refSet n e => fxRefSet c n e s
  | .refForce k => fxRefForce c k s
  | .timeSet sec ns => fxTimeSet c sec ns s
  | _ => s

/-! ## The snapshot (R570) -/

/-- Level sources of every destination. -/
def snapRoutes (s : State) : List (Nat × Nat × Nat) :=
  (upto 0 1408).flatMap fun d => ((upto 0 10).filter fun l => decide (routeOf s d l ≠ noSource)).map fun l => (d, l, routeOf s d l)

/-- A take in a snapshot. -/
def snapTake (j : TakeJob) : Nat × Nat × Nat × Nat := (j.entries.headD 0, b2n j.noSlip, j.frame, j.cmd.pkt.hdr.tag)

/-- A head's table sets in a snapshot. -/
def snapHead (x : Nat × HeadTrack) : SnapTables :=
  { number := x.1, live := x.2.tables, shadow := x.2.shadow, matrix := none, shadowMatrix := none }

/-- A colour task's in a snapshot. -/
def snapColour (s : State) (x : Nat × ColourTask) : SnapTables :=
  let live := colourLive s x.1
  { number := x.1, live := live.tables, shadow := x.2.shadow.tables, matrix := live.matrix, shadowMatrix := x.2.shadow.matrix }

/-- Settings of a probe in the order of `IBX_PROBE_SET` (09_ibex_engines.md R387). -/
def snapProbe (x : Nat × ProbeTrack) : Nat × List Int :=
  (x.1, [(x.2.conf.blackLevel : Int), (x.2.conf.blackFrames : Int), (x.2.conf.freezeMad : Int), (x.2.conf.freezeFrames : Int), x.2.conf.stLimit, x.2.conf.tpLimit])

/-- The snapshot that the active unit takes (R570). -/
def snapshotOf (s : State) : Snapshot :=
  { routes := snapRoutes s
    takes := (s.take.jobs.filter fun j => j.salvo.isNone).map snapTake
    salvos := (s.take.jobs.filter fun j => j.salvo.isSome).map fun j => (j.entries, j.frame, j.cmd.pkt.hdr.tag)
    audio := s.aud.routes
    fades := s.aud.fades.map fun x => (x.1, x.2.map fun f => (f.old, f.start))
    sync := s.mem.fs.map fun x => { source := x.1, sel := x.2.sel, left := getF s (fsA x.1) 16 16, lossMode := getF s (fsA x.1) 2 1, hold := x.2.hold }
    delays := ((upto 0 1152).filter fun n => (memEntry? s 2 n).isSome).map fun n => (n, getF s (Reg.dlyStatus n) 8 5)
    commands := (s.sched.filter fun x => decide (x.cmd.pkt.body ≠ .refSnap)).map (fun x => (x.cmd.pkt.body, x.frame))
      ++ s.aud.jobs.map fun j => (j.cmd.pkt.body, j.frame)
    patches := s.plan.patches.map fun p => (p.records, p.frame)
    patchGen := (rd s Reg.planPatchGen).toNat
    flows := s.plan.tables.flows
    safe := s.plan.tables.safe
    colour := s.plan.tables.colour
    air := s.plan.tables.air
    audPorts := (upto 0 4).map fun p => { port := p, ctrl := (rd s (Reg.audPortCtrl p)).toNat, rxMask := get64 s (Reg.audRxMaskLo p),
                                          txMask := get64 s (Reg.audTxMaskLo p), ratio := (rd s (Reg.audRxRatio p)).toNat }
    layers := s.comp.baseCmd.map Prod.snd
    overlays := s.comp.overCmd.map Prod.snd
    fmts := s.comp.fmts
    headTables := s.comp.heads.map snapHead
    colourTasks := s.ibx.colour.map (snapColour s)
    generators := s.ibx.gen
    probes := s.ibx.probes.map snapProbe }

/-! ## The standby replaces its state (R570) -/

/-- Takes, audio takes, patches and scheduled commands of the standby end; those its own host sent are answered (log 63). -/
def snapDrop (s : State) : State :=
  let takes := s.take.jobs
  let sched := s.sched
  let patches := s.plan.patches
  let s := audAbort { s with take := { s.take with pend := [], jobs := [] }, sched := [], plan := { s.plan with patches := [] } }
  let s := takes.foldl (fun s j => count Reg.takeSuperseded (finishAt j.cmd St.takeSuperseded (houseFrame s) [] s)) s
  let s := patches.foldl (fun s p => if p.cmd.origin = .forward then s else finishAt p.cmd St.planChanged (houseFrame s) [] (planNote St.planChanged 0xFF s)) s
  delayPend (sched.foldl (fun s x => finishAt x.cmd St.planChanged (houseFrame s) [] s) s)

/-- Routes of video, audio groups and data, and of the audio plane; in MIRROR the snapshot lists both rails. -/
def snapToRoutes (x : Snapshot) (s : State) : State :=
  let s := (upto 0 1408).foldl (fun s d => (upto 0 10).foldl (fun s l => putF (Reg.takeRoute d l) 0 11 noSource s) s) s
  let s := x.routes.foldl (fun s r => putF (Reg.takeRoute r.1 r.2.1) 0 11 r.2.2 s) s
  { s with aud := { s.aud with routes := x.audio, fades := x.fades.map fun f => (f.1, f.2.map fun y => { old := y.1, start := y.2 }) } }

/-- Synchronisers and delays. -/
def snapToStores (x : Snapshot) (s : State) : State :=
  let s := x.sync.foldl (fun s y =>
    match tabFind y.source s.mem.fs with
    | none => s
    | some t => putF (fsA y.source) 16 16 y.left (putF (fsA y.source) 2 1 y.lossMode (putFs y.source { t with sel := y.sel, hold := y.hold } s))) s
  x.delays.foldl (fun s y => putF (Reg.dlyStatus y.1) 8 5 y.2 s) s

/-- The patchable sections and the patch generation. -/
def snapToTables (x : Snapshot) (s : State) : State :=
  let n := s.plan.tables.flows.length
  let s := wr Reg.planPatchGen (BitVec.ofNat 32 x.patchGen)
    (putPlan (fun p => { p with tables := { flows := x.flows, safe := x.safe, colour := x.colour, air := x.air } }) s)
  let s := (upto 0 (max n x.flows.length)).foldl (fun s f => setupFlow f s) s
  (upto 0 1152).foldl (fun s n => setupOutput true n s) s

/-- Entries of layers by 21 × head + layer. -/
def layerTab (es : List LayerEntry) : Tab LayerEntry := es.foldl (fun t e => tabPut (21 * e.head + e.layer) e t) []

/-- Heads, colour tasks, generators and probes. -/
def snapToTasks (x : Snapshot) (s : State) : State :=
  let heads := x.headTables.foldl (fun t y => tabSet headTrack0 y.number { tabGet headTrack0 y.number t with tables := y.live, shadow := y.shadow, armed := [] } t)
    (tabMap (fun _ t => { t with tables := [], shadow := [], armed := [] }) s.comp.heads)
  let s := { s with comp := { s.comp with baseCmd := layerTab x.layers, overCmd := layerTab x.overlays, fmts := x.fmts, fmtNext := [], heads := heads } }
  let s := { s with ibx := { s.ibx with
    gen := x.generators
    colour := x.colourTasks.map fun y =>
      (y.number, { live := { tables := y.live, matrix := y.matrix }, shadow := { tables := y.shadow, matrix := y.shadowMatrix }, armed := [] }) } }
  let s := x.probes.foldl (fun s y =>
    let v := fun i => (nth? y.2 i).getD 0
    putProbe y.1 { probeTrack s y.1 with conf := { blackLevel := (v 0).toNat, blackFrames := (v 1).toNat, freezeMad := (v 2).toNat,
                                                    freezeFrames := (v 3).toNat, stLimit := v 4, tpLimit := v 5 } } s) s
  let s := putPlan (fun p => { p with cfg := cfgFmts s p.cfg }) s
  (upto 0 96).foldl (fun s h => setupHead h s) s

/-- Audio ports: settings, masks and the receive ratio in force. -/
def snapToPorts (x : Snapshot) (s : State) : State :=
  x.audPorts.foldl (fun s y =>
    let en := nfld (rd s (Reg.audPortCtrl y.port)).toNat 0 12
    let s := if nfld y.ctrl 0 12 = en then s else audCtrlWrite y.port (nfld y.ctrl 0 12) (audCtrlWrite y.port (nfld en 2 10 * 4) s)
    let s := put64 (Reg.audTxMaskLo y.port) y.txMask (put64 (Reg.audRxMaskLo y.port) y.rxMask s)
    audForwarded y.port y.ratio (audArmMasks y.port s)) s

/-- Everything that the snapshot covers, and the pending commands with their frames. -/
def snapAdopt (x : Snapshot) (s : State) : State :=
  let s := snapToPorts x (snapToTasks x (snapToTables x (snapToStores x (snapToRoutes x (snapDrop s)))))
  let s := x.takes.foldl (fun s t => (takeAdopt [t.1] (.take t.1 t.2.1) t.2.2.1 t.2.2.2 none s).1) s
  let s := x.salvos.foldl (fun s t => (takeAdopt t.1 (.salvo 0 0 0 t.1.length t.1) t.2.1 t.2.2 (some (0, t.2.1)) s).1) s
  let s := x.commands.foldl (fun s c => commandForwarded c.1 c.2 s) s
  x.patches.foldl (fun s p => commandForwarded (.planPatch p.1 true) p.2 s) s

/-- The resync completes (R570): the active unit has sent its snapshot; the standby, at an epoch boundary two epochs or more after that of the snapshot, takes it with the deltas that followed. -/
def resyncComplete (s : State) : State :=
  if getB s Reg.pairStatus 6 = false ∨ (paired s = false ∧ joinStep s ≠ 6) then s
  else if getB s Reg.pairStatus 1 then resyncEnd s
  else match s.pair.snap with
    | some (b, x) => if b + 2 ≤ epochNow s ∧ s.now % tickEpoch = 0 then resyncEnd (snapAdopt x (putPair (fun p => { p with snap := none }) s)) else s
    | none => s

/-! ## The epoch boundary (01_compiled_plan.md R67; 15_the_pair.md R564, R571 to R573) -/

/-- The epoch of a word by its nominal house position (R572): an output's at its emission point, L + 24 rows after it leaves the destination bus; an input's 16 rows before that, as it enters the source bus (03_port_pipelines.md R126, R128). -/
def outEpoch (f : PortFmt) (w : HouseWord) : Nat := (rateStart (fmtRate f) w.frame + (w.row + 24) * tickRow + fmtLineTicks f) / tickEpoch

def inEpoch (f : PortFmt) (w : HouseWord) : Nat := (rateStart (fmtRate f) w.frame + w.row * tickRow - 16 * tickRow) / tickEpoch

/-- The 6 bytes of a word in a digest (R571). -/
def outBytes (w : HouseWord) : List Nat := bytesLe w.word.toNat 5 ++ [0]

def inBytes (w : HouseWord) : List Nat := bytesLe w.word.toNat 5 ++ [if w.invalid then 0xFF else 0]

/-- The words of a port in a list. -/
def portWords (n : Nat) (l : List (Nat × List HouseWord)) : List HouseWord := (l.filter fun x => decide (x.1 = n)).flatMap Prod.snd

/-- The used outputs and inputs, with their formats; in MIRROR with those of the second rail. -/
def digestOutputs (s : State) : List (Nat × PortFmt) :=
  let l := s.plan.cfg.outputs.map fun c => (c.port, c.fmt)
  if modeNow s = 2 then l ++ l.map fun x => (x.1 + 576, x.2) else l

def digestInputs (s : State) : List (Nat × PortFmt) := s.plan.cfg.inputs.map fun c => (c.port, c.fmt)

/-- Words of the ports that lie in epochs after `e`. -/
def wordsAfter (e : Nat) (ep : PortFmt → HouseWord → Nat) (ports : List (Nat × PortFmt)) (l : List (Nat × List HouseWord)) : List (Nat × List HouseWord) :=
  (ports.map fun p => (p.1, (portWords p.1 l).filter fun w => decide (e < ep p.2 w))).filter fun x => !x.2.isEmpty

/-- Digests of the ports over their words of epoch `e` (R571, R572). -/
def portDigests (e : Nat) (ep : PortFmt → HouseWord → Nat) (bytes : HouseWord → List Nat) (ports : List (Nat × PortFmt)) (l : List (Nat × List HouseWord)) :
    List (Nat × Nat) :=
  ports.map fun p => (p.1, crc32 (((portWords p.1 l).filter fun w => decide (ep p.2 w = e)).flatMap bytes))

/-- The state digest (R571), over the content of a snapshot. -/
def stateDigest (s : State) : Nat := crc32 ((Config.snapshotBytes (snapshotOf s)).map BitVec.toNat)

/-- The digests of epoch `e` over the words held from earlier epochs and those that have come. -/
def digestsOf (e : Nat) (w : EpochWords) (s : State) : Digests :=
  { outputs := portDigests e outEpoch outBytes (digestOutputs s) (s.pair.ahead.outputs ++ w.outputs)
    inputs := portDigests e inEpoch inBytes (digestInputs s) (s.pair.ahead.inputs ++ w.inputs)
    state := stateDigest s
    hits := (s.pair.hits.filter fun h => decide (h.1 = e)).map Prod.snd }

/-- Digests of the epoch just closed are kept and sent while the units compare; one without comparison is judged by its penalties alone (R556). Words of later epochs wait. -/
def epochDigests (e : Nat) (w : EpochWords) (s : State) : State :=
  let later := { outputs := wordsAfter e outEpoch (digestOutputs s) (s.pair.ahead.outputs ++ w.outputs)
                 inputs := wordsAfter e inEpoch (digestInputs s) (s.pair.ahead.inputs ++ w.inputs) }
  let s' := putPair (fun p => { p with ahead := later }) s
  if comparing s then
    let d := digestsOf e w s
    send (.digests e d) (putPair (fun p => { p with own := ((e, d) :: p.own).take 4 }) s')
  else judgeEpoch e true s'

/-- The claim and PAIR_FLAGS of the epoch, under authentication (R568), and the run-time state where it has changed in it (R564). -/
def epochDelta (s : State) : State :=
  if s.pair.keyed && linkRun s 72 then
    let x := snapshotOf s
    send (.delta s.pair.claim (pairFlags s) (if s.pair.sent = some x then none else some x)) (putPair (fun p => { p with sent := some x }) s)
  else s

/-- A snapshot that the partner has asked for (R570). -/
def epochSnapshot (s : State) : State :=
  if s.pair.snapDue then send (.snapshot (snapshotOf s)) (putPair (fun p => { p with snapDue := false }) s) else s

/-- An epoch boundary passes. -/
def epochBoundary (w : EpochWords) (s : State) : State :=
  let s := epochDelta (epochSnapshot (epochDigests (epochNow s - 1) w s))
  let s := thermEpoch (audEpoch (cageEpoch (railEpoch s)))
  if joinStep s = 7 ∧ server s = 1 then pairUp s else s

/-! ## Commands -/

/-- RESYNC_COMPLETE (R570). -/
def execResyncComplete (dt : Nat) (s : State) : Host.Outcome State Fault Refusal := .next (only true resyncComplete (tick dt s))

/-- EPOCH_BOUNDARY (R67). -/
def execEpochBoundary (dt : Nat) (words : EpochWords) (s : State) : Host.Outcome State Fault Refusal := .next (only true (epochBoundary words) (tick dt s))

end Sys2Proof.Machine
end

