-- ==== Sys2Proof/Machine/Registers.lean ====
section
/-! DEFINITION. The host's register accesses (00_scope.md R12 to R17; 22_supervisor_interconnect.md R763, R769): registers that show a present state, reads with their latches and clears, and the trunk, engine and Ethernet registers whose writes act. -/

namespace Sys2Proof.Machine

/-! ## Access -/

/-- Supervisor address of BAR0 offset 0 (R763, R764). -/
abbrev regWindow : Nat := 0x10000000

/-- A host write of the register at `a` with the effect `f`, or its refusal (R769). -/
def hostWrite (a : Nat) (f : State → State) (s : State) : State :=
  match refusalCause s .pcie (a + regWindow) 4 true with
  | some c => logAccess .pcie (a + regWindow) 4 c true s
  | none => f s

/-- A host read of the register at `a` with the effect `f`, or its refusal: a refused read returns zero (R769). -/
def hostFetch (a : Nat) (f : State → State) (s : State) : State :=
  match refusalCause s .pcie (a + regWindow) 4 false with
  | some c => { logAccess .pcie (a + regWindow) 4 c false s with readData := 0 }
  | none => f s

/-! ## Registers that show a present state -/

/-- Bits of the numbers of `l` that fall in word `w` of a bit array. -/
def bitsOf (l : List Nat) (w : Nat) : Word :=
  BitVec.ofNat 32 (sumL (((distinct l).filter fun n => decide (n / 32 = w)).map fun n => 2 ^ (n % 32)))

/-- Registers of the event queue that its state shows (17_event_queue.md R653 to R655). -/
def evqRead (s : State) (a : Nat) : Option Word :=
  let c := s.evq.host
  let w := (a - Reg.evqCtrl) % 0x100 / 4
  if a = Reg.evqStatus then some (setBit (setBit (rd s a) 0 c.nonempty) 1 (c.full (evqSize s)))
  else if a = Reg.evqHead then some (BitVec.ofNat 32 c.head)
  else if a = Reg.evqTail then some (BitVec.ofNat 32 c.tail)
  else if a = Reg.evqSeq then some (BitVec.ofNat 32 c.seq)
  else if a = Reg.evqPendingCnt then some (BitVec.ofNat 32 c.pend.length)
  else if Reg.evqPend 0 ≤ a ∧ a ≤ Reg.evqPend 63 then some (bitsOf (c.pend.map Pend.src) w)
  else if Reg.evqLevel 0 ≤ a ∧ a ≤ Reg.evqLevel 63 then some (bitsOf s.evq.level w)
  else if Reg.evqOutst 0 ≤ a ∧ a ≤ Reg.evqOutst 63 then some (bitsOf (c.outst.map Prod.fst) w)
  else none

/-- `TAKE_ROUTE[d][l]` with PENDING (R120); in MIRROR a take of a destination is pending for its twin too (R81). -/
def takeRouteRead (s : State) (a : Nat) : Word :=
  let d := (a - Reg.takeRoute 0 0) / 0x40
  let l := (a - Reg.takeRoute 0 0) % 0x40 / 4
  let hit := fun (p : TakePend) => (decide (p.dest = d) || (decide (modeNow s = 2) && decide (twinOf p.dest = d))) && nbit p.levels l
  setBit (rd s a) 16 (decide (l < 10) && s.take.pend.any hit)

/-- Registers of the hub that other state shows. -/
def hubRead (s : State) (a : Nat) : Option Word :=
  if a = Reg.cmdWaiting then some (BitVec.ofNat 32 (s.cmd.fwq.length + s.cmd.waiting.length * 65536))
  else if a = Reg.cmdPendingTags then some (BitVec.ofNat 32 ((s.cmd.results.filter fun e => e.reply.isNone).length))
  else if a = Reg.planEpochLo then some (BitVec.ofNat 32 (epochNow s))
  else if a = Reg.planEpochHi then some (BitVec.ofNat 32 (epochNow s / 2 ^ 32))
  else if a = Reg.audSampleLo then some (BitVec.ofNat 32 (sampleNow s))
  else if a = Reg.audSampleHi then some (BitVec.ofNat 32 (sampleNow s / 2 ^ 32))
  else if a = Reg.fwVerRom then some (BitVec.ofNat 32 s.sec.romVersion)
  else if a = Reg.fwFloor then some (BitVec.ofNat 32 (otpFloor s))
  else if a = Reg.fwWindowLeft then some (BitVec.ofNat 32 (windowLeft s))
  else if a = Reg.sicMap then some (sicMapRead s)
  else if a = Reg.setStatus then some (setStatusRead s)
  else if a = Reg.flowSummary then some (BitVec.ofNat 32 (flowSummary s))
  else if a = Reg.takeStatus then some (takeStatusNow s)
  else if Reg.takeRoute 0 0 ≤ a ∧ a < Reg.takeRoute 1408 0 then some (takeRouteRead s a)
  else none

/-- Registers of a quadrant that other state shows: `o` is the offset in its window. -/
def quadRead (s : State) (a q o : Nat) : Option Word :=
  if a = Reg.memStatus q then some (setBit (rd s a) 1 (getB s a 0 && getB s (Reg.memScrubCtrl q) 0))
  else if a = Reg.fabStatus q then some (setFld (rd s a) 0 4 (passUp s q))
  else if a = Reg.compStatus q then some (setBit (rd s a) 8 (uploadBusy s))
  else if 0x60100 ≤ o ∧ o < 0x60280 ∧ o % 16 = 0 then some (setBit (rd s a) 2 (getB s a 0 && headAir s (getF s a 16 7)))
  else if 0x50100 ≤ o ∧ o < 0x50300 ∧ o % 16 = 0 then
    let e := 32 * q + (o - 0x50100) / 16
    let n := ((engTrack s e).faults.filter fun t => decide (s.mono < t + 3600 * tickSec)).length
    some (setFld (setBit (rd s a) 7 (engineAir s e)) 8 4 (min 15 n))
  else if 0x41000 ≤ o ∧ o < 0x42000 ∧ o % 0x100 = 0xCC then some (BitVec.ofNat 32 (pauseLeft s (16 * q + (o - 0x41000) / 0x100)))
  else none

/-- The value that a register shows now. -/
def regValue (s : State) (a : Nat) : Word :=
  if a < 0x400000 then (quadRead s a (a / 0x100000) (a % 0x100000)).getD (rd s a)
  else if 0x401000 ≤ a ∧ a < 0x402000 then (evqRead s a).getD (rd s a)
  else if 0x404000 ≤ a ∧ a < 0x405000 then (idRead s a).getD (rd s a)
  else if 0x405000 ≤ a ∧ a < 0x406000 then refRead s a
  else (hubRead s a).getD (rd s a)

/-- Counts that run with time are brought up to the present before a read of a register that holds one. -/
def regSettle (a : Nat) (s : State) : State :=
  let q := a / 0x100000
  let o := a % 0x100000
  if a < 0x400000 then
    if 0x10000 ≤ o ∧ o < 0x12400 then settleLines (288 * q + (o - 0x10000) / 0x20) s
    else if 0x41000 ≤ o ∧ o < 0x42000 then ethSettle (16 * q + (o - 0x41000) / 0x100) s
    else s
  else if 0x800000 ≤ a ∧ a < 0x800100 then laserSettle ((a - 0x800000) / 0x10) s
  else s

/-! ## Reads (R14, R16, R17; 07_ethernet_ports.md R317) -/

/-- The row of the low register whose high half stands at `a`, if `a` is one. -/
def lowRow (a : Nat) : Option RegDef :=
  if a < 4 then none else (regRow (a - 4)).filter fun d => d.pair || d.stat

/-- RC bits of the register at `a` cleared. -/
def clearRc (d : RegDef) (a : Nat) (s : State) : State := if d.rc = 0 then s else wr a (rd s a &&& ~~~d.rc) s

/-- A read of the low register of a value in two registers: the high half is latched for the reads of the next register, and an RC value is cleared whole. -/
def lowRead (d : RegDef) (a : Nat) (s : State) : State :=
  let v := regValue s a
  let h := regValue s (a + 4)
  let s := { s with latch := tabPut (a + 4) h s.latch, readData := v }
  if d.rc = 0 then s else wr (a + 4) 0 (clearRc d a s)

/-- Bits of a high register that belong to the value in two registers; the others show the present state. FAR_LANES stands beside FRAME_CNT [47:32] (06_trunk_framing.md R292). -/
def highMask (a : Nat) : Word := if a < 0x400000 ∧ 0x36000 ≤ a % 0x100000 ∧ a % 0x100000 < 0x36240 ∧ a % 0x20 = 8 then 0xFFFF else 0xFFFFFFFF

/-- A read of the high register of a value in two registers: the latched half, and before any read of the low one the present half, or zero for a statistics counter. -/
def highRead (low d : RegDef) (a : Nat) (s : State) : State :=
  match tabFind a s.latch with
  | some v => { s with readData := (v &&& highMask a) ||| (regValue s a &&& ~~~highMask a) }
  | none => if low.stat then { s with readData := 0 } else { clearRc d a s with readData := regValue s a }

/-- A read of the register at `a`, whose row is `d`. -/
def regFetch (d : RegDef) (a : Nat) (s : State) : State :=
  let s := regSettle a s
  if a = Reg.tmbNowNs then nowRead s
  else if Reg.capCtrl 0 ≤ a ∧ a < Reg.capCtrl 16 ∧ a % 16 = 4 then capRead ((a - Reg.capCtrl 0) / 16) s
  else if a < 0x400000 ∧ 0x36000 ≤ a % 0x100000 ∧ a % 0x100000 < 0x36240 ∧ a % 0x20 = 0x1C then
    mbxRead (18 * (a / 0x100000) + (a % 0x100000 - 0x36000) / 0x20) s
  else if d.pair || d.stat then lowRead d a s
  else match lowRow a with
    | some low => highRead low d a s
    | none => { clearRc d a s with readData := regValue s a }

/-- A host read of the register at `a`. -/
def hostRead (a : Nat) (s : State) : State :=
  hostFetch a (fun s => match regRow a with
    | some d => regFetch d a s
    | none => { s with readData := 0 }) s

/-! ## Commands -/

/-- RC_FIELD_READ (R17). -/
def execRcFieldRead (dt addr : Nat) (s : State) : Host.Outcome State Fault Refusal := .next (only true (hostRead addr) (tick dt s))

/-- LATCHED_PAIR_READ (R14). -/
def execLatchedPairRead (dt addr : Nat) (s : State) : Host.Outcome State Fault Refusal := .next (only true (hostRead addr) (tick dt s))

/-- STAT_COUNTER_LO_READ (R317). -/
def execStatCounterLoRead (dt addr : Nat) (s : State) : Host.Outcome State Fault Refusal := .next (only true (hostRead addr) (tick dt s))

/-- TRK_MBX_DATA_READ (06_trunk_framing.md R297). -/
def execTrkMbxDataRead (dt trunk : Nat) (s : State) : Host.Outcome State Fault Refusal :=
  .next (only (decide (trunk < 72)) (hostFetch (Reg.trkMbxData trunk) (mbxRead trunk)) (tick dt s))

/-- TRK_MBX_DATA_WRITE (06_trunk_framing.md R297). -/
def execTrkMbxDataWrite (dt trunk : Nat) (value : Word) (s : State) : Host.Outcome State Fault Refusal :=
  .next (only (decide (trunk < 72)) (hostWrite (Reg.trkMbxData trunk) (mbxWrite trunk value)) (tick dt s))

/-- TRK_LINK_ENABLE (05_trunk_lanes.md R246). -/
def execTrkLinkEnable (dt trunk : Nat) (enable : Bool) (s : State) : Host.Outcome State Fault Refusal :=
  .next (only (decide (trunk < 72)) (hostWrite (Reg.trkLinkCtrl trunk) (linkEnable trunk enable)) (tick dt s))

/-- TRK_LINK_RESTART (05_trunk_lanes.md R246). -/
def execTrkLinkRestart (dt trunk : Nat) (s : State) : Host.Outcome State Fault Refusal :=
  .next (only (decide (trunk < 72)) (hostWrite (Reg.trkLinkCtrl trunk) (linkRestart trunk)) (tick dt s))

/-- TRK_ROLE_WRITE (05_trunk_lanes.md R219, R221). -/
def execTrkRoleWrite (dt trunk : Nat) (follower : Bool) (s : State) : Host.Outcome State Fault Refusal :=
  .next (only (decide (trunk < 72)) (hostWrite (Reg.trkLinkCtrl trunk) (linkRole trunk follower)) (tick dt s))

/-- TRK_MANUAL_WRITE (05_trunk_lanes.md R245). -/
def execTrkManualWrite (dt trunk : Nat) (manual : Bool) (s : State) : Host.Outcome State Fault Refusal :=
  .next (only (decide (trunk < 72)) (hostWrite (Reg.trkLinkCtrl trunk) (linkSetManual trunk manual)) (tick dt s))

/-- TRK_LANE_SLIP (05_trunk_lanes.md R226). -/
def execTrkLaneSlip (dt lane : Nat) (s : State) : Host.Outcome State Fault Refusal :=
  .next (only (decide (lane < 576)) (hostWrite (Reg.trkLaneCtrl lane) (laneSlip lane)) (tick dt s))

/-- EDGE_START (05_trunk_lanes.md R223). -/
def execEdgeStart (dt lane : Nat) (s : State) : Host.Outcome State Fault Refusal :=
  .next (only (decide (lane < 576)) (hostWrite (Reg.trkLaneCtrl lane) (laneEdge lane)) (tick dt s))

/-- TRK_ERR_INJECT (05_trunk_lanes.md R252). -/
def execTrkErrInject (dt lane : Nat) (s : State) : Host.Outcome State Fault Refusal :=
  .next (only (decide (lane < 576)) (hostWrite (Reg.trkTxCtrl lane) (laneInject lane)) (tick dt s))

/-- IBX_CTRL_RESET (09_ibex_engines.md R390). -/
def execIbxCtrlReset (dt engine : Nat) (s : State) : Host.Outcome State Fault Refusal :=
  .next (only (decide (engine < 128)) (hostWrite (Reg.ibxCtrl engine) (engReset engine)) (tick dt s))

/-- IBX_CTRL_INJECT (09_ibex_engines.md R390). -/
def execIbxCtrlInject (dt engine : Nat) (s : State) : Host.Outcome State Fault Refusal :=
  .next (only (decide (engine < 128)) (hostWrite (Reg.ibxCtrl engine) (engInject engine)) (tick dt s))

/-- ETH_LOOPBACK_WRITE (07_ethernet_ports.md R318). -/
def execEthLoopbackWrite (dt port : Nat) (loopback : Bool) (s : State) : Host.Outcome State Fault Refusal :=
  .next (only (decide (port < 16)) (hostWrite (Reg.ethPortCtrl port) (ethLoopback port loopback)) (tick dt s))

/-! ## The test access port (23_package_and_balls.md R799) -/

/-- An instruction loaded into the TAP: outside SERVICE, RESCUE and manufacturing test, only BYPASS and SAMPLE/PRELOAD are accepted. -/
def jtagLoad (i : JtagInstr) (s : State) : State :=
  let free := decide (modeNow s = 5) || inRescue s || s.pins.testMode
  { s with jtag := if i = .samplePreload ∨ free then i else .bypass }

/-- JTAG_INSTRUCTION (R799). -/
def execJtagInstruction (dt : Nat) (instr : JtagInstr) (s : State) : Host.Outcome State Fault Refusal :=
  .next (only true (jtagLoad instr) (tick dt s))

end Sys2Proof.Machine
end

