-- ==== Sys2Proof/Machine/Command.lean ====
section
/-! DEFINITION. The command dispatcher (16_command_packets.md): descriptors read from the command ring, their checks, the fast path, the firmware queue, the relay to the partner, and the rings' registers. -/

namespace Sys2Proof.Machine

def putCmd (f : CmdState → CmdState) (s : State) : State := { s with cmd := f s.cmd }

/-! ## Fast path (R613 to R617, R628) -/

/-- A reply descriptor as its 64 bytes (R607). -/
def descriptor (r : Reply) (phase : Bool) : List (Nat × Nat) :=
  [(1, 1), (1, b2n phase + b2n r.inline * 2 + b2n r.trunc * 4 + b2n r.relayed * 8), (2, r.opcode), (4, r.tag), (2, r.status), (2, r.resultLen),
   (4, r.seq), (8, r.frame), (4, r.detail), (4, 0)]
    ++ (if r.inline then r.result ++ [(32 - bodyLen r.result, 0)] else [(32, 0)])

/-- `TAG_QUERY` (R614). -/
def fxTagQuery (c : Cmd) (tag : Nat) (s : State) : State :=
  match tagHeld tag s with
  | none => refuse c St.tagUnknown s
  | some e =>
    match e.reply with
    | none => refuse c St.pending s
    | some r => complete c r.status 0 (descriptor r e.phase) s

/-- `TAG_RETIRE` (R616). -/
def fxTagRetire (c : Cmd) (tag flags : Nat) (s : State) : State :=
  if nbit flags 0 then done c (putCmd (fun x => { x with results := x.results.filter fun e => e.reply.isNone }) s)
  else match tagHeld tag s with
    | none => refuse c St.tagUnknown s
    | some e =>
      if e.reply.isNone then refuse c St.pending s
      else done c (putCmd (fun x => { x with results := x.results.filter fun e => decide (e.tag ≠ tag) }) s)

/-- `STATUS_QUERY`. -/
def fxStatusQuery (c : Cmd) (s : State) : State :=
  let as := [Reg.planState, Reg.pairStatus, Reg.pairClaim, Reg.takeStatus, Reg.cmdStatus, Reg.refStatus]
  complete c St.ok 0 (as.map (fun a => (4, (regValue s a).toNat)) ++ [(8, houseFrame s)]) s

/-- `ECHO`: the arrival time. -/
def fxEcho (c : Cmd) (s : State) : State := complete c St.ok 0 (timeBody s.now) s

/-- The dispatcher executes a fast-path command (R617). -/
def fastExecute (c : Cmd) (s : State) : State :=
  match c.pkt.body with
  | .statusQuery => fxStatusQuery c s
  | .tagQuery tag => fxTagQuery c tag s
  | .tagRetire tag flags => fxTagRetire c tag flags s
  | .take e flags => fxTake c e flags s
  | .salvo id part flags _ es => fxSalvo c id part flags es s
  | .routeQuery first cnt => fxRouteQuery c first cnt s
  | _ => fxEcho c s

/-! ## Firmware commands (R617 to R619) -/

/-- `ETH_HOST_SET` (R627): the classes of a channel that the committed mode runs, and OWN_MAC. -/
def fxEthHostSet (c : Cmd) (g classes mac : Nat) (s : State) : State :=
  if channelRun s g then done c (putEth g { ethTrack s g with classes := classes, ownMac := mac } s) else refuse c St.ethRange s

/-- The firmware, or the boot ROM alone, executes the command it has taken; that instant is its acceptance (R618). -/
def fwExecute (c : Cmd) (s : State) : State :=
  match c.pkt.body with
  | .modeSet mode => fxModeSet c mode s
  | .fwLoad len => fxFwLoad c len s
  | .fwActivate w => fxFwActivate c w s
  | .fwConfirm => fxFwConfirm c s
  | .fwQuery => fxFwQuery c s
  | .fwRestart => fxFwRestart c s
  | .planLoad len => fxPlanLoad c len s
  | .planCommit flags mode => fxPlanCommit c flags mode s
  | .planDiscard => fxPlanDiscard c s
  | .planQuery => fxPlanQuery c s
  | .planPatch rs ok => fxPlanPatch c rs ok s
  | .planRead type mode first cnt => fxPlanRead c type mode first cnt s
  | .fsControl source _ _ => fxFsControl c source s
  | .delaySet output delay => fxDelaySet c output delay s
  | .slateLoad index w h scan len => fxSlateLoad c index w h scan len s
  | .memQuery n => fxMemQuery c n s
  | .takeCancel tag => fxTakeCancel c tag s
  | .refSet n e => fxRefSet c n e s
  | .refQuery => fxRefQuery c s
  | .refSnap => fxRefSnap c s
  | .refForce k => fxRefForce c k s
  | .timeSet sec ns => fxTimeSet c sec ns s
  | .timeConf .. => fxTimeConf c s
  | .ptpSet k domain flags dscp vlan ip => fxPtpSet c k domain flags dscp vlan ip s
  | .capSet ch edge ofs => fxCapSet c ch edge ofs s
  | .timeQuery => fxTimeQuery c s
  | .trkQuery n => fxTrkQuery c n s
  | .trkRestart n => fxTrkRestart c n s
  | .trkMbxSend n _ bytes => fxTrkMbxSend c n bytes s
  | .flowQuery first cnt => fxFlowQuery c first cnt s
  | .flowStats f clear => fxFlowStats c f clear s
  | .ethHostSet g classes mac => fxEthHostSet c g classes mac s
  | .ibxTaskQuery n cnt => fxIbxTaskQuery c n cnt s
  | .ibxTableSet n table es => fxIbxTableSet c n table es s
  | .ibxColourSet n flags e => fxIbxColourSet c n flags e s
  | .ibxPatternSet n _ _ => fxIbxPatternSet c n s
  | .ibxProbeSet p bl bf fm ff st tp =>
    fxIbxProbeSet c p { blackLevel := bl, blackFrames := bf, freezeMad := fm, freezeFrames := ff, stLimit := st, tpLimit := tp } s
  | .ibxProbeRead p => fxIbxProbeRead c p s
  | .ibxLoudReset p => fxIbxLoudReset c p s
  | .compLayerSet _ es => fxCompLayerSet c es s
  | .compInputFormat send id scan num den => fxCompInputFormat c send id scan num den s
  | .compSurfaceLoad head layer fmt x y w h stride => fxCompSurfaceLoad c head layer fmt x y w h stride s
  | .compTableSet head set table flags es => fxCompTableSet c head set table flags es s
  | .compQuery head => fxCompQuery c head s
  | .audTake _ es => fxAudTake c es s
  | .audRouteQuery first cnt => fxAudRouteQuery c first cnt s
  | .audPortSet _ _ ctrl _ _ => fxAudPortSet c ctrl s
  | .audPortQuery p => fxAudPortQuery c p s
  | .pairSet prio flags serial => fxPairSet c prio flags serial s
  | .pairQuery => fxPairQuery c s
  | .pairResync => fxPairResync c s
  | .pairLink action => fxPairLink c action s
  | .pairDigests first cnt => fxPairDigests c first cnt s
  | .modQuery m => fxModQuery c m s
  | .modProfileSet eol ea => fxModProfileSet c eol ea s
  | .modLedgerRead first cnt => fxModLedgerRead c first cnt s
  | .modControl m action => fxModControl c m action s
  | .modAllowSet index flags oui part => fxModAllowSet c index flags oui part s
  | .telSensors => fxTelSensors c s
  | .telCounters block index clear => fxTelCounters c block index clear s
  | .telWearRead => fxTelWearRead c s
  | .idCertRead => fxIdCertRead c s
  | .idInfo => fxIdInfo c s
  | .idAttest nonce => fxIdAttest c nonce s
  | .idOwnerKey slot hash ok => fxIdOwnerKey c slot hash ok s
  | .idPolicySet policy ok => fxIdPolicySet c policy ok s
  | .svcEnter => fxSvcEnter c s
  | .svcLeave => fxSvcLeave c s
  | .svcTest test unit param => fxSvcTest c test unit param s
  | .svcRepair n => fxSvcRepair c n s
  | _ => refuse c St.cmdOpcode s

/-- The agent that serves firmware opcodes serves this one now (R620). -/
def fwServes (b : Body) (s : State) : Bool := decide (server s = 1) || (decide (server s = 0) && romServes b)

/-- The next command taken from the firmware queue (R617, R618). -/
def fwTake (s : State) : State :=
  match s.cmd.fwq with
  | [] => s
  | c :: rest => if fwServes c.pkt.body s then fwExecute c (putCmd (fun x => { x with fwq := rest }) s) else s

/-- An accepted firmware command enters the queue. The firmware takes one that finds the queue empty at once (log 71). -/
def fwEnqueue (c : Cmd) (s : State) : State :=
  let first := s.cmd.fwq.isEmpty
  let s := putCmd (fun x => { x with fwq := x.fwq ++ [c] }) s
  if first then fwTake s else s

/-! ## The dispatcher's checks (R605, R606, R816, R817) -/

/-- What a refusal by the dispatcher counts beside `CMD_REFUSED`: a take or salvo in `TAKE_REFUSED` (02_word_fabric_and_takes.md R119; log 174), a plan command in `PLAN_REJECTS` (01_compiled_plan.md R70; log 175). -/
def refusalNote (b : Body) (st : Nat) (s : State) : State :=
  match b with
  | .take .. | .salvo .. => count Reg.takeRefused s
  | .planLoad .. | .planCommit .. | .planDiscard | .planQuery | .planPatch .. | .planRead .. | .modeSet _ => planNote st 0xFF s
  | _ => s

/-- A refused descriptor: counted, and answered (R613, R615): while its tag is held, outside the result table. -/
def dispatchRefuse (c : Cmd) (st detail : Nat) (s : State) : State :=
  let s := refusalNote c.pkt.body st (count Reg.cmdRefused s)
  if c.origin = .host ∧ (tagHeld c.pkt.hdr.tag s).isSome then queueReply (mkReply c.pkt st detail (houseFrame s) [] false) s
  else complete c st detail [] s

/-- Order 1. -/
def headerFormatOk (h : Hdr) : Bool :=
  decide (h.version = 1) && decide (h.flags < 2) && decide (h.length ≤ 4096) && (decide (h.flags = 0) || decide (h.length ≤ 32)) && h.zeroOk

/-- Order 2. -/
def seqOk (s : State) (h : Hdr) : Bool :=
  match s.cmd.expSeq with
  | none => true
  | some e => decide (h.seq = e)

/-- Order 4 (R620): the boot ROM alone serves what is marked ROM; in SERVICE `MODE_SET`, `PLAN_COMMIT` and `PLAN_PATCH` are refused (24_service_mode.md R804). -/
def modeServes (s : State) (b : Body) : Bool :=
  (decide (server s ≠ 0) || romServes b) && !(decide (modeNow s = 5) && decide (opcodeOf b ∈ [0x0003, 0x0202, 0x0205]))

/-- Order 6 (R622): link 72 is the mirror link. -/
def partnerReachable (s : State) : Bool := linkRun s 72 && hbOk s && s.pair.keyed

/-- Tags pending. -/
def pendingTags (s : State) : Nat := (s.cmd.results.filter fun e => e.reply.isNone).length

/-- Order 9 (R621). -/
def roleServes (s : State) (b : Body) : Bool := !isStandby s || standbyQ b || standbyS b

/-- Order 11. -/
def queueOk (s : State) (b : Body) : Bool := fastPath b || decide (s.cmd.fwq.length < 256)

/-- The first failing check of orders 1 to 10 of R606; TARGET 1 leaves orders 4 and 9 to the partner (R622). -/
def headCheck (s : State) (p : Packet) : Option Nat :=
  let h := p.hdr
  let own := decide (h.target = 0)
  if headerFormatOk h = false then some St.cmdFormat
  else if seqOk s h = false then some St.cmdSeq
  else if assigned p.body = false then some St.cmdOpcode
  else if (own && !modeServes s p.body) = true then some St.cmdMode
  else if (own || (decide (h.target = 1) && standbyQ p.body)) = false then some St.cmdTarget
  else if (own || partnerReachable s) = false then some St.pairNoPartner
  else if (tagHeld h.tag s).isSome then some St.tagBusy
  else if 16384 ≤ pendingTags s then some St.cmdFull
  else if (own && !roleServes s p.body) = true then some St.roleStandby
  else if h.bodyOk = false then some St.cmdDma
  else none

/-- The first failing check of R606 and R817, with DETAIL; TARGET 1 leaves order 11 to the partner too (R622). -/
def dispatchCheck (s : State) (p : Packet) : Option (Nat × Nat) :=
  match headCheck s p with
  | some st => some (st, 0)
  | none =>
    match bodyBad p with
    | some x => some x
    | none => if (decide (p.hdr.target = 0) && !queueOk s p.body) = true then some (St.fwBusy, 0) else none

/-- A PART 1 of a salvo that is refused once its body has been read discards the open part 0 of its SALVO_ID (02_word_fabric_and_takes.md R106). -/
def partRefused (b : Body) (s : State) : State :=
  match b with
  | .salvo id part _ _ _ => if part = 1 then salvoDiscard id s else s
  | _ => s

/-- An accepted command: relayed (R622), executed by the dispatcher, or queued for the firmware (R617). -/
def accept (p : Packet) (s : State) : State :=
  let c : Cmd := { pkt := p, origin := .host }
  let s := count Reg.cmdAccepted (tagPending p.hdr.tag s)
  if p.hdr.target = 1 then send (.relay p) (putCmd (fun x => { x with relayed := x.relayed ++ [c] }) s)
  else if fastPath p.body then fastExecute c s
  else fwEnqueue c s

/-- The sequence expectation after a descriptor, whatever became of it (R605). -/
def seqAfter (n : Nat) (s : State) : State := putCmd (fun x => { x with expSeq := some ((n + 1) % 2 ^ 32) }) s

/-- A descriptor as the dispatcher reads it. -/
def arrive (p : Packet) (s : State) : State :=
  match dispatchCheck s p with
  | none => accept p (seqAfter p.hdr.seq s)
  | some (st, detail) =>
    let s := seqAfter p.hdr.seq s
    let s := if st = St.cmdSeq then putB Reg.cmdStatus 5 true s else s
    let s := if st = St.cmdDma then putB Reg.cmdStatus 4 true s else s
    let t := dispatchRefuse { pkt := p, origin := .host } st detail s
    if (headCheck s p).isNone then partRefused p.body t else t

/-- An entry whose read fails (R816). -/
def entryUnread (s : State) : State :=
  let r : Reply := { opcode := 0, tag := 0, status := St.cmdDma, resultLen := 0, seq := 0, frame := houseFrame s, detail := 0, inline := true,
                     trunc := false, relayed := false, result := [] }
  let s := match s.cmd.expSeq with
    | some e => seqAfter e s
    | none => s
  queueReply r (count Reg.cmdRefused (putB Reg.cmdStatus 4 true s))

/-! ## Reading the ring (R600 to R602, R611, R624) -/

/-- The dispatcher reads descriptors: the rings are enabled, the link is up, and completions do not stall it. -/
def reads (s : State) : Bool := getB s Reg.cmdCtrl 0 && s.pins.pcieUp && !getB s Reg.cmdStatus 2

/-- The next announced entry is read, and `CMD_HEAD` moves past it. -/
def readEntry (s : State) : State :=
  match s.cmd.unread with
  | [] => s
  | x :: rest =>
    if reads s then
      let s := putF Reg.cmdHead 0 12 (ringNext (ringSize s 0) (getF s Reg.cmdHead 0 12)) (putCmd (fun y => { y with unread := rest }) s)
      match x with
      | .packet p => arrive p s
      | .readError => entryUnread s
    else s

/-- Up to `k` announced entries are read, in ring order. -/
def readUpTo : Nat → State → State
  | 0, s => s
  | k + 1, s => readUpTo k (readEntry s)

/-- Every announced entry that can be read is read. -/
def readAll (s : State) : State := readUpTo s.cmd.unread.length s

/-- `CMD_TAIL` written (R601): `ring` are the entries that the write announces. -/
def cmdTailTo (tail : Nat) (ring : List RingEntry) (s : State) : State :=
  readAll (putCmd (fun x => { x with unread := x.unread ++ ring }) (putF Reg.cmdTail 0 12 tail s))

/-- The host puts one entry on the ring and rings the doorbell. -/
def doorbell (x : RingEntry) (s : State) : State := cmdTailTo (ringNext (ringSize s 0) (getF s Reg.cmdTail 0 12)) [x] s

/-- The host sends a command. -/
def hostCommand (h : Hdr) (b : Body) (s : State) : State := doorbell (.packet { hdr := h, body := b }) s

/-! ## Relayed replies (R622) -/

/-- The partner's answer to a relayed command, written to this unit's ring. -/
def relayDone (c : Cmd) (x : RelayReply) (s : State) : State :=
  let r := mkReply c.pkt x.status x.detail x.frame x.result true
  let s := resultError c.pkt x.result s
  queueReply r (putCmd (fun y => { y with
    results := resultPut r (replyPhase s) y.accCount y.results
    relayed := y.relayed.filter fun z => decide (z.pkt.hdr.tag ≠ x.tag) }) s)

/-- The partner's reply arrives, or the mirror link has left RUN before it. -/
def relayedReply (x : Option RelayReply) (s : State) : State :=
  match x with
  | some r =>
    match s.cmd.relayed.find? fun c => decide (c.pkt.hdr.tag = r.tag) with
    | none => s
    | some c => relayDone c r s
  | none =>
    if linkRun s 72 then s
    else s.cmd.relayed.foldl (fun s c => refuse c St.pairNoPartner s) (putCmd (fun y => { y with relayed := [] }) s)

/-- A command relayed by the partner is checked at orders 4, 9 and 11 and executed (R622). -/
def relayArrive (p : Packet) (s : State) : State :=
  let c : Cmd := { pkt := p, origin := .relay }
  if modeServes s p.body = false then dispatchRefuse c St.cmdMode 0 s
  else if roleServes s p.body = false then dispatchRefuse c St.roleStandby 0 s
  else if queueOk s p.body = false then dispatchRefuse c St.fwBusy 0 s
  else if fastPath p.body then fastExecute c s
  else fwEnqueue c s

/-! ## Ring registers (R600, R611, R631, R633) -/

/-- `REPLY_HEAD` written (R611, R612, R624). -/
def replyHeadTo (head : Nat) (s : State) : State :=
  let s := putCmd (fun x => { x with headFresh := true }) (putF Reg.replyHead 0 12 head s)
  readAll (replyLevel (replyFlush s))

/-- CMD_EN and HFR_EN written. -/
def cmdEnable (cmdEn hfrEn : Bool) (s : State) : State :=
  let s := putB Reg.cmdCtrl 1 hfrEn (putB Reg.cmdCtrl 0 cmdEn s)
  let s := readAll (replyFlush s)
  if hfrEn then hrxFillAll s else s

/-- Bits of `CMD_RING_SIZE` that a write sets: those of the disabled ring pairs. -/
def sizeBits (s : State) : Word :=
  (if getB s Reg.cmdCtrl 0 then 0 else 0x00FF) ||| (if getB s Reg.cmdCtrl 1 then 0 else 0xFF00)

/-- A write of a ring base or of the ring sizes, at offset `o` of the block (R600). -/
def cmdRingConfig (o : Nat) (v : Word) (s : State) : State :=
  if o = 0x28 then
    let m := sizeBits s
    let s' := wr Reg.cmdRingSize ((rd s Reg.cmdRingSize &&& ~~~m) ||| (v &&& m)) s
    if m = 0xFFFF then s' else putB Reg.cmdStatus 7 true s'
  else if 8 ≤ o ∧ o ≤ 0x24 ∧ o % 4 = 0 then
    if getB s Reg.cmdCtrl (if o < 0x18 then 0 else 1) then putB Reg.cmdStatus 7 true s else wr (Reg.cmdCtrl + o) v s
  else s

/-- RESET (R631): heads, tails, pass counts and the SEQ expectation cleared; the result table stays. -/
def cmdReset (s : State) : State :=
  let as := [Reg.cmdTail, Reg.cmdHead, Reg.replyHead, Reg.replyTail, Reg.htxTail, Reg.htxHead, Reg.hrxTail, Reg.hrxHead]
  let s := as.foldl (fun s a => wr a 0 s) s
  replyLevel (putCmd (fun x => { x with expSeq := none, replyPass := 1, hrxPass := 1, unread := [], htx := [] }) s)

/-- `CMD_CTRL` written with RESET 1 (R631). -/
def cmdCtrlReset (cmdEn hfrEn : Bool) (s : State) : State :=
  let off := !getB s Reg.cmdCtrl 0 && !getB s Reg.cmdCtrl 1 && !cmdEn && !hfrEn
  cmdEnable cmdEn hfrEn (if off then cmdReset s else putB Reg.cmdStatus 7 true s)

/-! ## Other registers (R16) -/

/-- A write under the access codes of a row: RW fields are set, RW1C bits written as 1 are cleared. -/
def plainWrite (d : RegDef) (a : Nat) (v : Word) (s : State) : State :=
  let w := rd s a
  wr a (((w &&& ~~~d.rw) ||| (v &&& d.rw)) &&& ~~~(v &&& d.w1c)) s

/-- `TRK_LINK_CTRL[n]` written (05_trunk_lanes.md R246). -/
def linkCtrlWrite (n : Nat) (v : Word) (s : State) : State :=
  let a := Reg.trkLinkCtrl n
  let s := putF a 4 2 (fld v 4 2) s
  let s := if bit v 6 = getB s a 6 then s else linkSetManual n (bit v 6) s
  let s := if bit v 1 = getB s a 1 then s else linkRole n (bit v 1) s
  let s := if bit v 0 = getB s a 0 then s else linkEnable n (bit v 0) s
  if bit v 7 then linkRestart n s else s

/-- A lane register with fields that act under MANUAL only (05_trunk_lanes.md R245, R250 to R252): the row's RW bits; a write that leaves them as they are changes nothing. -/
def laneFieldsWrite (d : RegDef) (m a : Nat) (v : Word) (s : State) : State :=
  if v &&& d.rw = rd s a &&& d.rw then s else manualOr m (plainWrite d a v) s

/-- A register of quadrant `q`'s TRK block with an effect beyond its access codes. -/
def trkWrite (d : RegDef) (q o a : Nat) (v : Word) (s : State) : State :=
  let m := 144 * q + (o - 0x31000) / 0x40
  let mt := 144 * q + (o - 0x34000) / 0x10
  if o < 0x31000 ∧ o % 0x20 = 0 then linkCtrlWrite (18 * q + (o - 0x30000) / 0x20) v s
  else if 0x31000 ≤ o ∧ o < 0x33400 ∧ o % 0x40 = 0 then
    let s := loopWritten m (getF s a 12 2) (laneFieldsWrite d m a v s)
    let s := if bit v 16 then laneSlip m s else s
    if bit v 17 then laneEdge m s else s
  else if 0x31000 ≤ o ∧ o < 0x33400 ∧ o % 0x40 = 0x10 then laneFieldsWrite d m a v s
  else if 0x31000 ≤ o ∧ o < 0x33400 ∧ o % 0x40 = 0x14 then prbsWritten m (rd s a) (laneFieldsWrite d m a v s)
  else if 0x34000 ≤ o ∧ o < 0x34900 ∧ o % 0x10 = 4 then
    let s := genWritten mt (rd s a) (laneFieldsWrite d mt a v s)
    if bit v 8 then laneInject mt s else s
  else if 0x34000 ≤ o ∧ o < 0x34900 ∧ o % 0x10 = 0 then tapsWritten mt (tapsNow s mt) (plainWrite d a v s)
  else if 0x36000 ≤ o ∧ o < 0x36240 ∧ o % 0x20 = 0x1C then mbxWrite (18 * q + (o - 0x36000) / 0x20) v s
  else plainWrite d a v s

/-- A register of a quadrant. -/
def quadWrite (d : RegDef) (a : Nat) (v : Word) (s : State) : State :=
  let q := a / 0x100000
  let o := a % 0x100000
  if 0x30000 ≤ o ∧ o < 0x40000 then trkWrite d q o a v s
  else if 0x40000 ≤ o ∧ o < 0x40040 ∧ o % 0x10 = 0 then ethCtrl (4 * q + (o - 0x40000) / 0x10) (bit v 0) (bit v 1) s
  else if 0x50100 ≤ o ∧ o < 0x50300 ∧ o % 0x10 = 0xC then
    let e := 32 * q + (o - 0x50100) / 0x10
    let s := if bit v 0 then engReset e s else s
    if bit v 1 then engInject e s else s
  else plainWrite d a v s

/-- `CMD_CTRL` and `EVQ_CTRL` written. -/
def ringCtrlWrite (a : Nat) (v : Word) (s : State) : State :=
  if a = Reg.cmdCtrl then (if bit v 2 then cmdCtrlReset (bit v 0) (bit v 1) s else cmdEnable (bit v 0) (bit v 1) s)
  else if bit v 2 then evqCtrlReset (bit v 0) (bit v 1) s
  else evqEnable (bit v 0) (bit v 1) s

/-- HOLD of `PAIR_CTRL` acts as `PAIR_LINK` does (15_the_pair.md R595). -/
def pairCtrlWrite (d : RegDef) (v : Word) (s : State) : State :=
  let was := getB s Reg.pairCtrl 6
  let s := plainWrite d Reg.pairCtrl v s
  if bit v 6 = was then s
  else if bit v 6 then unpair s
  else if joinStep s = 0 && !paired s && hbOk s then joinStart s
  else joinRetry s

/-- A register of the hub. -/
def hubWrite (d : RegDef) (a : Nat) (v : Word) (s : State) : State :=
  if a = Reg.cmdCtrl ∨ a = Reg.evqCtrl then ringCtrlWrite a v s
  else if a = Reg.cmdTail then cmdTailTo (fld v 0 12) [] s
  else if a = Reg.replyHead then replyHeadTo (fld v 0 12) s
  else if a = Reg.htxTail then htxTail (fld v 0 12) [] s
  else if a = Reg.hrxTail then hrxFillAll (putF Reg.hrxTail 0 12 (fld v 0 12) s)
  else if Reg.cmdRingBaseLo ≤ a ∧ a ≤ Reg.cmdRingSize then cmdRingConfig (a - Reg.cmdCtrl) v s
  else if a = Reg.evqHead then evqHeadTo (fld v 0 12) s
  else if a = Reg.evqRingBaseLo ∨ a = Reg.evqRingBaseHi ∨ a = Reg.evqRingSize then evqConfig (a - Reg.evqCtrl) v s
  else if Reg.evqMask 0 ≤ a ∧ a ≤ Reg.evqMask 63 then evqMaskTo ((a - Reg.evqMask 0) / 4) v s
  else if Reg.pllCtrl 0 ≤ a ∧ a < Reg.pllCtrl 20 ∧ a % 16 = 0 then
    let s := plainWrite d a v s
    if bit v 31 then pllRelock ((a - Reg.pllCtrl 0) / 16) s else s
  else if a = Reg.pairCtrl then pairCtrlWrite d v s
  else if Reg.audPortCtrl 0 ≤ a ∧ a < Reg.audPortCtrl 4 ∧ a % 0x40 = 0 then audCtrlWrite ((a - Reg.audPortCtrl 0) / 0x40) v.toNat s
  else if a = Reg.sicMap then sicMapWrite .pcie v s
  else plainWrite d a v s

/-- A host write of the register at `a`. -/
def registerWrite (a : Nat) (v : Word) (s : State) : State :=
  hostWrite a (fun s => match regRow a with
    | none => s
    | some d => if a < 0x400000 then quadWrite d a v s else if a < 0x800000 then hubWrite d a v s else plainWrite d a v s) s

/-! ## Commands -/

/-- FW_COMMAND_TAKE (R618). -/
def execFwCommandTake (dt : Nat) (s : State) : Host.Outcome State Fault Refusal := .next (only true fwTake (tick dt s))

/-- DESCRIPTOR_READ_ERROR (R816). -/
def execDescriptorReadError (dt : Nat) (s : State) : Host.Outcome State Fault Refusal := .next (only true (doorbell .readError) (tick dt s))

/-- RELAYED_REPLY (R622). -/
def execRelayedReply (dt : Nat) (reply : Option RelayReply) (s : State) : Host.Outcome State Fault Refusal :=
  .next (only true (relayedReply reply) (tick dt s))

/-- REPLY_WRITE (R611). -/
def execReplyWrite (dt : Nat) (s : State) : Host.Outcome State Fault Refusal := .next (only true (fun s => readAll (replyWriteOne s)) (tick dt s))

/-- CMD_TAIL_WRITE (R601). -/
def execCmdTailWrite (dt tail : Nat) (ring : List RingEntry) (s : State) : Host.Outcome State Fault Refusal :=
  .next (only true (cmdTailTo tail ring) (tick dt s))

/-- REPLY_HEAD_WRITE (R611). -/
def execReplyHeadWrite (dt head : Nat) (s : State) : Host.Outcome State Fault Refusal := .next (only true (replyHeadTo head) (tick dt s))

/-- CMD_EN_WRITE (R600). -/
def execCmdEnWrite (dt : Nat) (cmdEn hfrEn : Bool) (s : State) : Host.Outcome State Fault Refusal :=
  .next (only true (cmdEnable cmdEn hfrEn) (tick dt s))

/-- CMD_RING_CONFIG_WRITE (R600). -/
def execCmdRingConfigWrite (dt offset : Nat) (value : Word) (s : State) : Host.Outcome State Fault Refusal :=
  .next (only true (cmdRingConfig offset value) (tick dt s))

/-- CMD_CTRL_RESET (R631). -/
def execCmdCtrlReset (dt : Nat) (cmdEn hfrEn : Bool) (s : State) : Host.Outcome State Fault Refusal :=
  .next (only true (cmdCtrlReset cmdEn hfrEn) (tick dt s))

/-- REGISTER_WRITE (00_scope.md R16). -/
def execRegisterWrite (dt addr : Nat) (value : Word) (s : State) : Host.Outcome State Fault Refusal :=
  .next (only true (registerWrite addr value) (tick dt s))

end Sys2Proof.Machine
end

