-- ==== Sys2Proof/Machine/Mirror.lean ====
section
/-! DEFINITION. The messages that the partner sends over the mirror link (15_the_pair.md R564, R565, R567). -/

namespace Sys2Proof.Machine

/-- A bundle copied by the active unit is validated here (01_compiled_plan.md R35; R569 step 5), and the status sent back. -/
def planCopied (b : Bundle) (s : State) : State :=
  let v := planVerdict s b b.bundleLen
  let ok := decide (v.1 = St.ok)
  let s := putPlan (fun x => { x with slot := some b }) s
  let s := putDigest (Reg.planDigestLoaded 0) b.digest (wr Reg.planGenLoaded (BitVec.ofNat 32 b.generation) (setLoad (if ok then 2 else 3) s))
  send (.planStatus v.1) (if joinStep s = 5 ∧ ok = false then joinRefused v.1 s else s)

/-- The partner's status for a bundle copied to it: of a `PLAN_LOAD` (R35), or of the copy at join step 5, where the active unit then names the apply frame (R569). -/
def planAnswered (st : Nat) (s : State) : State :=
  match s.plan.loading with
  | some l => putPlan (fun x => { x with loading := some { l with partner := some st } }) s
  | none =>
    if joinStep s = 5 ∧ getB s Reg.pairStatus 1 then
      if st = St.ok then send (.command (.planCommit 0 (modeNow s)) (earliestFrame s (10 * tickMs))) s else joinRefused st s
    else s

/-- The claim and flags of an epoch, under authentication, against those of the headers (R568): a difference ends the pairing, and the join starts again. -/
def deltaCheck (claim flags : Nat) (s : State) : State :=
  if s.pair.hdrs ≠ [] ∧ (claim, flags) ∉ s.pair.hdrs then joinStart (unpair s)
  else putPair (fun p => { p with hdrs := p.hdrs.drop (p.hdrs.length - 1) }) s

/-- A delta that follows the snapshot of a resync changes what the standby is to take (R570; log 212). -/
def deltaReplay (changed : Option Snapshot) (s : State) : State :=
  match changed, s.pair.snap with
  | some x, some (b, _) => putPair (fun p => { p with snap := some (b, x) }) s
  | _, _ => s

/-- A resync is requested (R570, R594): the active unit owes a snapshot, a standby asks for one. -/
def resyncAsked (s : State) : State :=
  let s := clearDiverged s
  if getB s Reg.pairStatus 1 then putPair (fun p => { p with snapDue := true }) (putB Reg.pairStatus 6 true s)
  else send .resyncRequest (resyncDue s)

/-- Forwarded takes are accepted by a standby, and for 2 mirror frames after it has become active (R559). -/
def takesForwarded (s : State) : Bool := isStandby s || decide (0 < s.pair.grace)

/-- A message acted on. Those of pairing are taken in its steps (R566). Digests and snapshots are held for the events that compare them (R573) and that complete the resync (R570). -/
def mirrorAct (m : MirMsg) (s : State) : State :=
  match m with
  | .take entry flags frame tag => if takesForwarded s then takeForwarded [entry] (.take entry flags) frame tag none s else s
  | .salvo es flags frame tag =>
    if takesForwarded s then takeForwarded es (.salvo 0 0 (1 + 2 * flags) es.length es) frame tag (some (0, frame)) s else s
  | .cancel tag => if takesForwarded s then takeCancelled tag s else s
  | .ack tag late => takeAck tag late s
  | .command body frame => if isStandby s then commandForwarded body frame s else s
  | .snap frame ofs => if isStandby s then snapForwarded frame ofs s else s
  | .armed => putPlan (fun x => { x with pending := x.pending.map fun p => { p with partnerArmed := true } }) s
  | .syncDecision source frame => if isStandby s then fsForwarded source frame s else s
  | .ratio port value => audForwarded port value s
  | .colour frame => putPair (fun p => { p with colourAt := some frame }) s
  | .digests e d => putPair (fun p => { p with peer := ((e, d) :: p.peer).take 4 }) s
  | .delta claim flags changed => deltaReplay changed (deltaCheck claim flags s)
  | .snapshot x => if isStandby s ∧ getB s Reg.pairStatus 6 then putPair (fun p => { p with snap := some (epochNow s, x) }) s else s
  | .resyncRequest => resyncAsked s
  | .plan b => planCopied b s
  | .planStatus st => planAnswered st s
  | .slate index w h scan len frame words => if joinStep s = 5 then slatePut index w h scan len words s else slateStage index frame words s
  | .surface head layer frame part => if joinStep s = 5 then surfaceSwap head layer part s else surfStage head layer frame part s
  | .relay p => relayArrive p s
  | .hello .. => s
  | .exchange .. => s

/-- A message received in RUN with the link's keys derived: one whose authentication fails is counted and discarded (R567); a number already received is not acted on again (R565). -/
def mirrorMessage (seq : Nat) (authentic : Bool) (m : MirMsg) (s : State) : State :=
  if (linkRun s 72 && s.pair.keyed) = false then s
  else if authentic = false then bump Reg.pairMirAuth 16 16 1 s
  else if seq ∈ s.pair.rxGot then s
  else mirrorAct m (putPair (fun p => { p with rxGot := (seq :: p.rxGot).take 1024 }) s)

/-- MIRROR_MESSAGE_RECEIVED (R564). -/
def execMirrorMessageReceived (dt seq : Nat) (authentic : Bool) (msg : MirMsg) (s : State) : Host.Outcome State Fault Refusal :=
  .next (only true (mirrorMessage seq authentic msg) (tick dt s))

end Sys2Proof.Machine
end

