-- ==== Sys2Proof/Machine/Boot.lean ====
section
/-! DEFINITION. Supplies and resets, the cold start, and the start of a firmware with its confirmation and fallback (18_start_and_update.md R656 to R686; 21_supplies_and_thermal.md R729 to R735; 17_event_queue.md R653). -/

namespace Sys2Proof.Machine

def putFw (f : FwState → FwState) (s : State) : State := { s with fw := f s.fw }

/-! ## The two sides without power or in reset (R656; 17_event_queue.md R653; 21_supplies_and_thermal.md R731) -/

/-- A delivery channel when the logic side is powered again: latches stay, those of sleeping quadrants come back, and the ring starts from reset (17_event_queue.md R653). -/
def chanRestored (pend saved : List Pend) : Chan := { chan0 with pend := pend ++ saved }

/-- Saved latches of one channel; `k` is 0 for the host's and 4 for the supervisor's. -/
def savedPends (k : Nat) (s : State) : List Pend := (upto k 4).flatMap fun q => tabGet [] q s.evq.saved

/-- The event queue controller after the logic side has been off: what the line side saved, and nothing where it saved nothing. -/
def evqKept (s : State) : EvqState :=
  if s.evq.lineSaved then
    { evq0 with host := chanRestored s.evq.host.pend (savedPends 0 s), sup := chanRestored s.evq.sup.pend (savedPends 4 s) }
  else evq0

/-- A register that a cold start leaves (00_scope.md R15): those of the line side, and the masks of the event queue where they were saved. -/
def regKept (s : State) (a : Nat) : Bool :=
  regLineSide a || (s.evq.lineSaved && decide (Reg.evqMask 0 ≤ a) && decide (a ≤ Reg.evqMask 63))

/-- The thermal monitor goes on; the shed list ends with the plan. -/
def thermKept (t : ThermState) : ThermState :=
  { t with items := [], below := none, shedDue := decide (1050 ≤ t.tj), wakeAt := [] }

/-- The logic side is cleared (R656): banks, data SRAM, registers, the result table and everything in HBM. The line side, flash and OTP stay. -/
def logicClear (s : State) : State :=
  { State.reset with
    now := s.now, mono := s.mono, pins := s.pins, evq := evqKept s, regs := s.regs.filter fun x => regKept s x.1
    ref := { ref0 with present := s.ref.present.filter fun k => decide (k < 2) }
    flash := s.flash, otp := s.otp, sec := { s.sec with key := 0 }, mods := { cages := s.mods.cages, ledger := [] }, therm := thermKept s.therm
    jtag := s.jtag, free := s.free, pending := s.pending, mem := { mem0 with repaired := s.mem.repaired } }

/-- PWR_GOOD falls: the logic side is isolated, and its event state is saved in the line side (R734; 17_event_queue.md R653). -/
def powerFall (s : State) : State :=
  if s.pins.pwrGood then logicOff { flashCut s with pins := { s.pins with pwrGood := false } } else s

/-- RESET_N is low (23_package_and_balls.md R792): the logic side is cleared and stays in reset. One that a power loss or a trip has stopped keeps what it saved. -/
def resetLow (s : State) : State :=
  let off := { flashCut s with pins := { s.pins with resetN := false, pcieUp := false } }
  if powered s then
    let s := logicClear { off with evq := evq0 }
    wr Reg.pwrQuad (rd s Reg.pwrQuad &&& 0x1000) s
  else off

/-- VDD_LINE falls, after PWR_GOOD (R734): the line side, FW_BOOT and the THM registers lose their state (R656). -/
def lineFall (s : State) : State :=
  let s := flashCut s
  { State.reset with
    now := s.now, mono := s.mono, pins := { s.pins with vddLine := false, pwrGood := false, thermAlert := false, pcieUp := false }
    flash := s.flash, otp := s.otp, sec := { s.sec with key := 0 }, jtag := s.jtag, free := s.free, pending := s.pending, mem := { mem0 with repaired := s.mem.repaired } }

/-- VDD_LINE is in tolerance: the line side starts from its reset values, with the flash that is fitted (R678, R733). -/
def lineRise (mib : Nat) (s : State) : State :=
  if s.pins.vddLine then s else { s with pins := { s.pins with vddLine := true }, flash := { s.flash with mib := mib } }

/-! ## Cold start (R656 to R659, R684) -/

/-- The thermal registers at a cold start (21_supplies_and_thermal.md R742, R749, R752, R755, R757): FAIL cleared, TRIP_SEEN, the shed list lifted, every quadrant awake, and the start counted. -/
def thermStart (s : State) : State :=
  let trip := s.therm.trip
  let s := (upto 0 64).foldl (fun s n => putB (Reg.thmSensor n) 16 false s) s
  let s := putB Reg.thmStatus 1 false (putB Reg.thmStatus 3 (trip || getB s Reg.thmStatus 3) (putF Reg.thmStatus 8 7 0 s))
  let s := wr Reg.pwrQuad (rd s Reg.pwrQuad &&& 0x1000 ||| 0xF) (wr Reg.thmShed 0 s)
  let s := { s with pins := { s.pins with thermAlert := false } }
  putWear (fun w => { w with starts := w.starts + 1 }) (putTherm (fun t => { t with trip := false }) s)

/-- Level sources of the line side are sampled again (17_event_queue.md R636, R653). -/
def levelStart (s : State) : State := if getB s Reg.thmStatus 0 then setLevel Src.hot Reg.thmStatus true s else s

/-- The boot ROM enters RESCUE (R684): mode 6 and STAGE 5. -/
def rescueEnter (cause : Nat) (s : State) : State :=
  putF Reg.planState 0 3 6 (putF Reg.fwStatus 0 3 5 (putF Reg.fwBoot 4 4 cause (putF Reg.fwBoot 0 2 0 s)))

/-- The start steps of R657, from the reset values: straps, the choice of RESCUE, PLLs 16 to 18, the timebase from 0, the boot training of HBM stack 0 (04_frame_stores.md R198) and STAGING_READY; KEY_OK and CERT_OK of the identity block (19_identity.md R690, R691, R705), `puf` being the private key that the PUF gives. -/
def bootSteps (cause : StartCause) (puf : Nat) (s : State) : State :=
  let fails := getF s Reg.fwBoot 0 2
  let s := putF Reg.fwBoot 4 4 (if cause = .resetN then 1 else 0) (putF Reg.fwStatus 0 3 1 s)
  let s := if s.pins.rescueN = false then rescueEnter 7 s else if 3 ≤ fails then rescueEnter 8 s else s
  let s := idStart puf (putB Reg.pairStatus 10 s.pins.pairSel s)
  let s := [16, 17, 18].foldl (fun s j => pllEnable j s) s
  let present := s.ref.present
  let s := refStart s
  putB Reg.fwStatus 7 true (putB (Reg.memStatus 0) 0 true { s with ref := { s.ref with present := present } })

/-- A cold start (R656): PWR_GOOD rises, or RESET_N is deasserted while PWR_GOOD is high. PWR_GOOD that rises while RESET_N is low leaves the unit in reset. -/
def coldStart (cause : StartCause) (pairSel rescueN : Bool) (puf : Nat) (s : State) : State :=
  if s.pins.vddLine = false then s
  else if cause = .resetN ∧ s.pins.pwrGood = false then { s with pins := { s.pins with resetN := true } }
  else if cause = .powerUp ∧ s.pins.resetN = false then { s with pins := { s.pins with pwrGood := true } }
  else
    let saved := s.evq.lineSaved
    let s := logicClear s
    let s := thermStart { s with now := 0, pins := { s.pins with pwrGood := true, resetN := true, pairSel := pairSel, rescueN := rescueN, pcieUp := false } }
    let s := bootSteps cause puf (levelStart s)
    putB Reg.evqStatus 4 saved s

/-! ## The boot ROM serves alone (R620, R673, R685, R686) -/

/-- Commands in the firmware queue that the boot ROM does not serve end (R620). -/
def queueAbort (s : State) : State :=
  let gone := s.cmd.fwq.filter fun c => !romServes c.pkt.body
  gone.foldl (fun s c => refuse c St.fwAborted s) (putCmd (fun x => { x with fwq := x.fwq.filter fun c => romServes c.pkt.body }) s)

/-- The unit returns to RESCUE (R685, R686): the blocks beside the hub's services are in reset, and commands that waited in them end. -/
def rescueReturn (s : State) : State :=
  let keep := fun (a : Nat) => regLineSide a || (decide (0x400000 ≤ a) && decide ((a - 0x400000) / 0x1000 ∈ [0, 1, 3, 4, 5, 6, 7, 10]))
    || (decide (Reg.memStatus 0 ≤ a) && decide (a < Reg.dlyStatus 0))
  let s := audAbort (patchesDiscard (changeCancel St.planAborted s))
  let s := s.take.jobs.foldl (fun s j => finishAt j.cmd St.planChanged (houseFrame s) [] s) s
  let s := s.sched.foldl (fun s x => finishAt x.cmd St.fwAborted (houseFrame s) [] s) s
  let s := s.cmd.relayed.foldl (fun s c => refuse c St.pairNoPartner s) s
  let s := { s with
    regs := s.regs.filter fun x => keep x.1, cmd := { s.cmd with relayed := [] }, plan := plan0, take := take0, port := State.reset.port, mem := { mem0 with repaired := s.mem.repaired }, sched := []
    trk := State.reset.trk, eth := State.reset.eth, flow := State.reset.flow, ibx := ibx0, comp := comp0, aud := aud0, pair := pair0, svc := svc0 }
  putF Reg.planState 0 3 6 (putF Reg.fwStatus 0 3 5 (putB Reg.pairStatus 10 s.pins.pairSel s))

/-- No firmware runs any more: the ROM serves alone and waits for a download (R673). `rescue`: the firmware that failed was started from RESCUE. -/
def romAlone (rescue : Bool) (s : State) : State :=
  let act := s.fw.act
  let restart := s.fw.restart
  let s := setConfirmed false (putFw (fun x => { x with act := none, restart := none, windowEnd := none, warm := false }) s)
  let s := putF Reg.fwStatus 0 3 1 (putB Reg.fwStatus 5 false (putB Reg.sicMap 0 false s))
  let s := putB Reg.planState 15 false (putF Reg.cmdStatus 0 2 0 s)
  let s := putDigest (Reg.fwDigestRun 0) 0 (wr Reg.fwVerRun 0 s)
  let s := act.toList.foldl (fun s a => refuse a.cmd St.fwAborted s) s
  let s := queueAbort (restart.toList.foldl (fun s c => refuse c St.fwAborted s) s)
  if rescue then rescueReturn s else s

/-- A start failure (R676), with its CAUSE (R688). -/
def startFailure (cause : Nat) (s : State) : State := putF Reg.fwBoot 4 4 cause (putF Reg.fwBoot 0 2 (min 3 (getF s Reg.fwBoot 0 2 + 1)) s)

/-- The bundle in a bank. -/
def bankImage (s : State) (b : Bool) : Option FwImage := if b then s.fw.bankB else s.fw.bankA

/-- The old bank runs again (R673): FALLBACK_SEEN with its record; a restart under way ends. -/
def fallBack (toB : Bool) (s : State) : State :=
  let s := flagEvent Src.firmware noInst Reg.fwStatus 8 s
  let s := s.fw.restart.toList.foldl (fun s c => owe c St.fwAborted s) s
  putFw (fun x => { x with target := toB, restart := none, windowEnd := none, warm := false }) s

/-- Firmware has not set START_OK within 10 s of its remap (R670, R673). -/
def startTimeout (s : State) : State :=
  if server s ≠ 2 ∨ s.svc.tests.any (fun j => decide (j.test = 2)) then s
  else
    let b := s.fw.target
    let warm := match s.fw.act with
      | some a => !a.cold && decide (b2n b = a.bank)
      | none => s.fw.warm
    let s := startFailure 6 s
    if warm && (bankImage s (!b)).isSome then fallBack (!b) s else romAlone (inRescue s) s

/-- The confirmation window ends without `FW_CONFIRM` (R673). -/
def windowExpiry (s : State) : State :=
  match s.fw.windowEnd with
  | none => s
  | some e =>
    if confirmed s ∨ s.mono < e then s
    else
      let back := !bankIsB s
      let warm := s.fw.warm && (bankImage s back).isSome
      let rescue := s.fw.rescue
      let s := startFailure 5 s
      if warm then goAway 5 back (fallBack back s) else romAlone rescue (goAway 5 (bankIsB s) s)

/-! ## START_OK (R668, R671 to R677, R682) -/

/-- The firmware runs in its target bank (R668): the map, the stage, and what names it. -/
def fwRuns (i : FwImage) (s : State) : State :=
  let b := s.fw.target
  let s := putB Reg.sicMap 1 b (putB Reg.sicMap 0 true s)
  let s := putB Reg.fwStatus 5 true (putB Reg.fwStatus 3 b (putF Reg.fwStatus 0 3 4 s))
  let s := putB Reg.planState 15 false (putF Reg.cmdStatus 0 2 1 s)
  let s := putDigest (Reg.fwDigestRun 0) i.digest (wr Reg.fwVerRun (BitVec.ofNat 32 i.version) s)
  let s := [0, 1].foldl (fun s k => putF (Reg.ptpRxOfs k) 0 20 (rxCal s k) s) s
  if inRescue s then planEv (fun s => putF Reg.planState 0 3 0 s) s else s

/-- The firmware that an activation has started is confirmed (R674), or runs under its window (R673). -/
def confirmStart (a : Activation) (rescue : Bool) (s : State) : State :=
  let ok := a.cold && decide ((currentSlot s.flash).bind SetSlot.conf = some a.image.digest)
  let old := confirmed s
  let s := putFw (fun x => { x with
    warm := !a.cold, oldConf := old, rescue := if a.cold then rescue else x.rescue
    windowEnd := if ok then none else some (s.mono + a.window * tickSec) }) s
  setConfirmed ok s

/-- Confirmation at a start (R671, R673, R674): of an activated firmware, of the old one that runs again after START_OK of the new, or unchanged. A confirmed firmware raises the floor to its own (R675). -/
def confirmAt (wasB rescue : Bool) (s : State) : State :=
  let s := match s.fw.act with
    | some a => if b2n s.fw.target = a.bank then confirmStart a rescue s else s
    | none => if s.fw.target = wasB then s else setConfirmed s.fw.oldConf s
  if confirmed s then raiseFloor s else s

/-- A completion that waited for the firmware (16_command_packets.md R619), noted where it is a plan command's (01_compiled_plan.md R72). -/
def payOwed (s : State) (o : Owed) : State :=
  let op := opcodeOf o.cmd.pkt.body
  let noted := op ∈ [0x0003, 0x0201, 0x0202, 0x0203, 0x0205, 0x0E01, 0x0E02] ∧ o.frame = none
  let s := if noted then planNote o.status 0xFF s else s
  completeAt o.cmd o.status 0 (o.frame.getD (houseFrame s)) o.result s

/-- Completions owed, then those of the activation or restart that has ended (R669, R671). -/
def payAll (s : State) : State :=
  let l := s.fw.owed
  let act := s.fw.act
  let restart := s.fw.restart
  let s := l.foldl payOwed (putFw (fun x => { x with owed := [], act := none, restart := none }) s)
  let v := (rd s Reg.fwVerRun).toNat
  let s := act.toList.foldl (fun s a =>
    if b2n s.fw.target = a.bank then complete a.cmd St.ok 0 [(4, v), (1, a.bank), (3, 0)] s else refuse a.cmd St.fwAborted s) s
  restart.toList.foldl (fun s c => complete c St.ok 0 [(4, v)] s) s

/-- Link pair `n` goes on with its ladder and its searches (05_trunk_lanes.md R239): their times count from now. -/
def linkResume (n : Nat) (s : State) : State :=
  let t := linkTrack s n
  let climbing := decide (1 ≤ linkPhase s n) && decide (linkPhase s n ≤ 6)
  let s := putLink n { t with waitFw := false, since := if climbing then s.mono else t.since } s
  (upto (8 * n) (lanesOf n)).foldl (fun s m => if (laneTrack s m).searching then putLane m { laneTrack s m with passed := 0 } s else s) s

/-- Settings that a firmware restores at each start (15_the_pair.md R594). -/
def pairSettings (s : State) : State :=
  let x := s.fw.settings
  put64 Reg.pairPinSnLo x.pinSn (putF Reg.pairCtrl 0 6 x.pairCtrl s)

/-- The ledger is read, and a cage whose module's entry was lost with the data SRAM is identified again (20_optical_modules.md R710, R716). -/
def ledgerStart (s : State) : State :=
  (upto 0 16).foldl (fun s e =>
    if cagePresent s e = false ∨ cageState s e ≤ 1 ∨ cageState s e = 5 then s
    else if (fitted? s e).isNone then cageIdent e s else cageSettle e s) (ledgerRead s)

/-- What the first firmware after a cold start sets up, with a copy of the wear ledger (21_supplies_and_thermal.md R753): HBM stacks trained (R659), PLLs, references and time as saved (12_reference_selection.md R495), trunks and the mirror link (05_trunk_lanes.md R246; 15_the_pair.md R561), the role SOLO (R558), and the ledgers. -/
def firstStart (i : FwImage) (s : State) : State :=
  let s := putFw (fun x => { x with library := some i }) s
  let s := (upto 0 4).foldl (fun s q => putB (Reg.memStatus q) 0 (awake s q) s) s
  let s := ((upto 0 16) ++ [19]).foldl (fun s j => pllEnable j s) s
  let s := { s with time := { s.time with conf := s.fw.settings.time.getD s.time.conf } }
  let s := utcShow (refConfig (s.fw.settings.refs.getD []) s)
  let s := (upto 0 72).foldl (fun s n => linkEnable n true s) s
  let s := ladderRestart 72 0x00 (putF Reg.pairStatus 1 2 3 s)
  wearCopy true (wearSeed (ledgerStart s))

/-- What waited for the firmware goes on (12_reference_selection.md R494; 09_ibex_engines.md R386; 05_trunk_lanes.md R239; 07_ethernet_ports.md R315; 20_optical_modules.md R726). -/
def fwResume (s : State) : State :=
  let s := (upto 0 16).foldl (fun s e => if getB s (cageA e) 1 then modFlags e s else s) s
  supervisorFrames (enginesResume (refResume ((tabKeys s.trk.links).foldl (fun s n => linkResume n s) s)))

/-- The version rules of the running bundle accept the partner's version (15_the_pair.md R569; R677). -/
def versionAccepted (s : State) (v : Nat) : Bool := decide (v ∈ ((runImage s).map FwImage.accepts).getD [])

/-- The firmware serves commands and sets START_OK (R668 step 5). `accepts` is the partner's verdict on the new version (R677). -/
def startOk (accepts : Bool) (s : State) : State :=
  match bankImage s s.fw.target with
  | none => s
  | some i =>
    if server s ≠ 2 ∨ keepAlive s 92 ∨ s.svc.tests.any (fun j => decide (j.test = 2)) then s
    else
      let wasB := bankIsB s
      let rescue := inRescue s
      let first := s.fw.library.isNone
      let s := confirmAt wasB rescue (fwRuns i s)
      let s := pairSettings (chooseSettings s)
      let s := if first then firstStart i s else s
      let s := fwResume (payAll s)
      if (accepts && s.pair.peerVersion.elim true (versionAccepted s)) = false ∧ (paired s ∨ 4 ≤ joinStep s) then incompat s else s

/-! ## Commands -/

/-- COLD_START (R656). -/
def execColdStart (dt : Nat) (cause : StartCause) (pairSel rescueN : Bool) (puf : Nat) (s : State) : Host.Outcome State Fault Refusal :=
  .next (coldStart cause pairSel rescueN puf (tick dt s))

/-- PWR_GOOD_FALL (R734). -/
def execPwrGoodFall (dt : Nat) (s : State) : Host.Outcome State Fault Refusal := .next (lineOnly true powerFall (tick dt s))

/-- VDD_LINE_FALL (R656). -/
def execVddLineFall (dt : Nat) (s : State) : Host.Outcome State Fault Refusal := .next (lineOnly true lineFall (tick dt s))

/-- VDD_LINE_RISE (R733). -/
def execVddLineRise (dt flashMib : Nat) (s : State) : Host.Outcome State Fault Refusal := .next (lineRise flashMib (tick dt s))

/-- RESET_N_ASSERTED (R792). -/
def execResetNAsserted (dt : Nat) (s : State) : Host.Outcome State Fault Refusal := .next (lineOnly true resetLow (tick dt s))

/-- START_OK (R670). -/
def execStartOk (dt : Nat) (partnerAccepts : Bool) (s : State) : Host.Outcome State Fault Refusal :=
  .next (only true (startOk partnerAccepts) (tick dt s))

/-- START_OK_TIMEOUT (R670). -/
def execStartOkTimeout (dt : Nat) (s : State) : Host.Outcome State Fault Refusal := .next (only true startTimeout (tick dt s))

/-- CONFIRM_WINDOW_EXPIRY (R673). -/
def execConfirmWindowExpiry (dt : Nat) (s : State) : Host.Outcome State Fault Refusal := .next (only true windowExpiry (tick dt s))

end Sys2Proof.Machine
end

