-- ==== Sys2Proof/Machine/HostCommands.lean ====
section
/-! DEFINITION. The opcodes of the command ring (16_command_packets.md R628): the host writes the descriptor and its body, and announces it with the doorbell. What the dispatcher and the firmware do with it stands in Command.lean. -/

namespace Sys2Proof.Machine

/-- STATUS_QUERY (R628). -/
def execStatusQuery (dt : Nat) (hdr : Hdr) (s : State) : Host.Outcome State Fault Refusal :=
  .next (only true (hostCommand hdr .statusQuery) (tick dt s))

/-- TAG_QUERY (R614). -/
def execTagQuery (dt : Nat) (hdr : Hdr) (tag : Nat) (s : State) : Host.Outcome State Fault Refusal :=
  .next (only true (hostCommand hdr (.tagQuery tag)) (tick dt s))

/-- MODE_SET (R56). -/
def execModeSet (dt : Nat) (hdr : Hdr) (mode : Nat) (s : State) : Host.Outcome State Fault Refusal :=
  .next (only true (hostCommand hdr (.modeSet mode)) (tick dt s))

/-- TAG_RETIRE (R616). -/
def execTagRetire (dt : Nat) (hdr : Hdr) (tag flags : Nat) (s : State) : Host.Outcome State Fault Refusal :=
  .next (only true (hostCommand hdr (.tagRetire tag flags)) (tick dt s))

/-- ECHO (R628). -/
def execEcho (dt : Nat) (hdr : Hdr) (s : State) : Host.Outcome State Fault Refusal :=
  .next (only true (hostCommand hdr .echo) (tick dt s))

/-- FW_LOAD (R663). -/
def execFwLoad (dt : Nat) (hdr : Hdr) (len : Nat) (s : State) : Host.Outcome State Fault Refusal :=
  .next (only true (hostCommand hdr (.fwLoad len)) (tick dt s))

/-- FW_ACTIVATE (R667). -/
def execFwActivate (dt : Nat) (hdr : Hdr) (window : Nat) (s : State) : Host.Outcome State Fault Refusal :=
  .next (only true (hostCommand hdr (.fwActivate window)) (tick dt s))

/-- FW_CONFIRM (R675). -/
def execFwConfirm (dt : Nat) (hdr : Hdr) (s : State) : Host.Outcome State Fault Refusal :=
  .next (only true (hostCommand hdr .fwConfirm) (tick dt s))

/-- FW_QUERY (R628). -/
def execFwQuery (dt : Nat) (hdr : Hdr) (s : State) : Host.Outcome State Fault Refusal :=
  .next (only true (hostCommand hdr .fwQuery) (tick dt s))

/-- FW_RESTART (R669). -/
def execFwRestart (dt : Nat) (hdr : Hdr) (s : State) : Host.Outcome State Fault Refusal :=
  .next (only true (hostCommand hdr .fwRestart) (tick dt s))

/-- PLAN_LOAD (R33). -/
def execPlanLoad (dt : Nat) (hdr : Hdr) (len : Nat) (s : State) : Host.Outcome State Fault Refusal :=
  .next (only true (hostCommand hdr (.planLoad len)) (tick dt s))

/-- PLAN_COMMIT (R40). -/
def execPlanCommit (dt : Nat) (hdr : Hdr) (flags mode : Nat) (s : State) : Host.Outcome State Fault Refusal :=
  .next (only true (hostCommand hdr (.planCommit flags mode)) (tick dt s))

/-- PLAN_DISCARD (R52). -/
def execPlanDiscard (dt : Nat) (hdr : Hdr) (s : State) : Host.Outcome State Fault Refusal :=
  .next (only true (hostCommand hdr .planDiscard) (tick dt s))

/-- PLAN_QUERY (R628). -/
def execPlanQuery (dt : Nat) (hdr : Hdr) (s : State) : Host.Outcome State Fault Refusal :=
  .next (only true (hostCommand hdr .planQuery) (tick dt s))

/-- PLAN_PATCH (R62). -/
def execPlanPatch (dt : Nat) (hdr : Hdr) (rs : List PatchRec) (structOk : Bool) (s : State) : Host.Outcome State Fault Refusal :=
  .next (only true (hostCommand hdr (.planPatch rs structOk)) (tick dt s))

/-- PLAN_READ (R628). -/
def execPlanRead (dt : Nat) (hdr : Hdr) (type mode first cnt : Nat) (s : State) : Host.Outcome State Fault Refusal :=
  .next (only true (hostCommand hdr (.planRead type mode first cnt)) (tick dt s))

/-- FS_CONTROL (R179). -/
def execFsControl (dt : Nat) (hdr : Hdr) (source lossMode holdFrames : Nat) (s : State) : Host.Outcome State Fault Refusal :=
  .next (only true (hostCommand hdr (.fsControl source lossMode holdFrames)) (tick dt s))

/-- DELAY_SET (R184). -/
def execDelaySet (dt : Nat) (hdr : Hdr) (output delay : Nat) (s : State) : Host.Outcome State Fault Refusal :=
  .next (only true (hostCommand hdr (.delaySet output delay)) (tick dt s))

/-- SLATE_LOAD (R187). -/
def execSlateLoad (dt : Nat) (hdr : Hdr) (index width height scan len : Nat) (s : State) : Host.Outcome State Fault Refusal :=
  .next (only true (hostCommand hdr (.slateLoad index width height scan len)) (tick dt s))

/-- MEM_QUERY (R196). -/
def execMemQuery (dt : Nat) (hdr : Hdr) (stack : Nat) (s : State) : Host.Outcome State Fault Refusal :=
  .next (only true (hostCommand hdr (.memQuery stack)) (tick dt s))

/-- TAKE (R95). -/
def execTake (dt : Nat) (hdr : Hdr) (entry flags : Nat) (s : State) : Host.Outcome State Fault Refusal :=
  .next (only true (hostCommand hdr (.take entry flags)) (tick dt s))

/-- SALVO (R107). -/
def execSalvo (dt : Nat) (hdr : Hdr) (id part flags cnt : Nat) (es : List Nat) (s : State) : Host.Outcome State Fault Refusal :=
  .next (only true (hostCommand hdr (.salvo id part flags cnt es)) (tick dt s))

/-- ROUTE_QUERY (R110). -/
def execRouteQuery (dt : Nat) (hdr : Hdr) (first cnt : Nat) (s : State) : Host.Outcome State Fault Refusal :=
  .next (only true (hostCommand hdr (.routeQuery first cnt)) (tick dt s))

/-- TAKE_CANCEL (R111). -/
def execTakeCancel (dt : Nat) (hdr : Hdr) (tag : Nat) (s : State) : Host.Outcome State Fault Refusal :=
  .next (only true (hostCommand hdr (.takeCancel tag)) (tick dt s))

/-- REF_SET (R499). -/
def execRefSet (dt : Nat) (hdr : Hdr) (entry : Nat) (value : RefEntry) (s : State) : Host.Outcome State Fault Refusal :=
  .next (only true (hostCommand hdr (.refSet entry value)) (tick dt s))

/-- REF_QUERY (R499). -/
def execRefQuery (dt : Nat) (hdr : Hdr) (s : State) : Host.Outcome State Fault Refusal :=
  .next (only true (hostCommand hdr .refQuery) (tick dt s))

/-- REF_SNAP (R485). -/
def execRefSnap (dt : Nat) (hdr : Hdr) (s : State) : Host.Outcome State Fault Refusal :=
  .next (only true (hostCommand hdr .refSnap) (tick dt s))

/-- REF_FORCE (R476). -/
def execRefForce (dt : Nat) (hdr : Hdr) (cand : Nat) (s : State) : Host.Outcome State Fault Refusal :=
  .next (only true (hostCommand hdr (.refForce cand)) (tick dt s))

/-- TIME_SET (R528). -/
def execTimeSet (dt : Nat) (hdr : Hdr) (sec ns : Nat) (s : State) : Host.Outcome State Fault Refusal :=
  .next (only true (hostCommand hdr (.timeSet sec ns)) (tick dt s))

/-- TIME_CONF (R529). -/
def execTimeConf (dt : Nat) (hdr : Hdr) (utcOfs localOfs : Int) (flags jam : Nat) (s : State) : Host.Outcome State Fault Refusal :=
  .next (only true (hostCommand hdr (.timeConf utcOfs localOfs flags jam)) (tick dt s))

/-- PTP_SET (R546). -/
def execPtpSet (dt : Nat) (hdr : Hdr) (cand domain flags dscp vlan ownIp : Nat) (s : State) : Host.Outcome State Fault Refusal :=
  .next (only true (hostCommand hdr (.ptpSet cand domain flags dscp vlan ownIp)) (tick dt s))

/-- CAP_SET (R546). -/
def execCapSet (dt : Nat) (hdr : Hdr) (channel edge : Nat) (ofs : Int) (s : State) : Host.Outcome State Fault Refusal :=
  .next (only true (hostCommand hdr (.capSet channel edge ofs)) (tick dt s))

/-- TIME_QUERY (R546). -/
def execTimeQuery (dt : Nat) (hdr : Hdr) (s : State) : Host.Outcome State Fault Refusal :=
  .next (only true (hostCommand hdr .timeQuery) (tick dt s))

/-- TRK_QUERY (R628). -/
def execTrkQuery (dt : Nat) (hdr : Hdr) (trunk : Nat) (s : State) : Host.Outcome State Fault Refusal :=
  .next (only true (hostCommand hdr (.trkQuery trunk)) (tick dt s))

/-- TRK_RESTART (R628). -/
def execTrkRestart (dt : Nat) (hdr : Hdr) (trunk : Nat) (s : State) : Host.Outcome State Fault Refusal :=
  .next (only true (hostCommand hdr (.trkRestart trunk)) (tick dt s))

/-- TRK_MBX_SEND (R628). -/
def execTrkMbxSend (dt : Nat) (hdr : Hdr) (trunk len : Nat) (bytes : List Nat) (s : State) : Host.Outcome State Fault Refusal :=
  .next (only true (hostCommand hdr (.trkMbxSend trunk len bytes)) (tick dt s))

/-- FLOW_QUERY (R360). -/
def execFlowQuery (dt : Nat) (hdr : Hdr) (first cnt : Nat) (s : State) : Host.Outcome State Fault Refusal :=
  .next (only true (hostCommand hdr (.flowQuery first cnt)) (tick dt s))

/-- FLOW_STATS (R360). -/
def execFlowStats (dt : Nat) (hdr : Hdr) (flow clear : Nat) (s : State) : Host.Outcome State Fault Refusal :=
  .next (only true (hostCommand hdr (.flowStats flow clear)) (tick dt s))

/-- ETH_HOST_SET (R627). -/
def execEthHostSet (dt : Nat) (hdr : Hdr) (channel classes ownMac : Nat) (s : State) : Host.Outcome State Fault Refusal :=
  .next (only true (hostCommand hdr (.ethHostSet channel classes ownMac)) (tick dt s))

/-- IBX_TASK_QUERY (R387). -/
def execIbxTaskQuery (dt : Nat) (hdr : Hdr) (task cnt : Nat) (s : State) : Host.Outcome State Fault Refusal :=
  .next (only true (hostCommand hdr (.ibxTaskQuery task cnt)) (tick dt s))

/-- IBX_TABLE_SET (R370). -/
def execIbxTableSet (dt : Nat) (hdr : Hdr) (task table : Nat) (es : List Nat) (s : State) : Host.Outcome State Fault Refusal :=
  .next (only true (hostCommand hdr (.ibxTableSet task table es)) (tick dt s))

/-- IBX_COLOUR_SET (R370). -/
def execIbxColourSet (dt : Nat) (hdr : Hdr) (task flags : Nat) (entry : ColourEntry) (s : State) : Host.Outcome State Fault Refusal :=
  .next (only true (hostCommand hdr (.ibxColourSet task flags entry)) (tick dt s))

/-- IBX_PATTERN_SET (R371). -/
def execIbxPatternSet (dt : Nat) (hdr : Hdr) (task pattern slate : Nat) (s : State) : Host.Outcome State Fault Refusal :=
  .next (only true (hostCommand hdr (.ibxPatternSet task pattern slate)) (tick dt s))

/-- IBX_PROBE_SET (R387). -/
def execIbxProbeSet (dt : Nat) (hdr : Hdr) (probe blackLevel blackFrames freezeMad freezeFrames : Nat) (stLimit tpLimit : Int) (s : State) : Host.Outcome State Fault Refusal :=
  .next (only true (hostCommand hdr (.ibxProbeSet probe blackLevel blackFrames freezeMad freezeFrames stLimit tpLimit)) (tick dt s))

/-- IBX_PROBE_READ (R387). -/
def execIbxProbeRead (dt : Nat) (hdr : Hdr) (probe : Nat) (s : State) : Host.Outcome State Fault Refusal :=
  .next (only true (hostCommand hdr (.ibxProbeRead probe)) (tick dt s))

/-- IBX_LOUD_RESET (R387). -/
def execIbxLoudReset (dt : Nat) (hdr : Hdr) (probe : Nat) (s : State) : Host.Outcome State Fault Refusal :=
  .next (only true (hostCommand hdr (.ibxLoudReset probe)) (tick dt s))

/-- COMP_LAYER_SET (R417). -/
def execCompLayerSet (dt : Nat) (hdr : Hdr) (cnt : Nat) (es : List LayerEntry) (s : State) : Host.Outcome State Fault Refusal :=
  .next (only true (hostCommand hdr (.compLayerSet cnt es)) (tick dt s))

/-- COMP_INPUT_FORMAT (R404). -/
def execCompInputFormat (dt : Nat) (hdr : Hdr) (send fmt scan rateNum rateDen : Nat) (s : State) : Host.Outcome State Fault Refusal :=
  .next (only true (hostCommand hdr (.compInputFormat send fmt scan rateNum rateDen)) (tick dt s))

/-- COMP_SURFACE_LOAD (R411). -/
def execCompSurfaceLoad (dt : Nat) (hdr : Hdr) (head layer fmt x y w h stride : Nat) (s : State) : Host.Outcome State Fault Refusal :=
  .next (only true (hostCommand hdr (.compSurfaceLoad head layer fmt x y w h stride)) (tick dt s))

/-- COMP_TABLE_SET (R416). -/
def execCompTableSet (dt : Nat) (hdr : Hdr) (head set table flags : Nat) (es : List Nat) (s : State) : Host.Outcome State Fault Refusal :=
  .next (only true (hostCommand hdr (.compTableSet head set table flags es)) (tick dt s))

/-- COMP_QUERY (R422). -/
def execCompQuery (dt : Nat) (hdr : Hdr) (head : Nat) (s : State) : Host.Outcome State Fault Refusal :=
  .next (only true (hostCommand hdr (.compQuery head)) (tick dt s))

/-- AUD_TAKE (R431). -/
def execAudTake (dt : Nat) (hdr : Hdr) (cnt : Nat) (es : List AudEntry) (s : State) : Host.Outcome State Fault Refusal :=
  .next (only true (hostCommand hdr (.audTake cnt es)) (tick dt s))

/-- AUD_ROUTE_QUERY (R457). -/
def execAudRouteQuery (dt : Nat) (hdr : Hdr) (first cnt : Nat) (s : State) : Host.Outcome State Fault Refusal :=
  .next (only true (hostCommand hdr (.audRouteQuery first cnt)) (tick dt s))

/-- AUD_PORT_SET (R447). -/
def execAudPortSet (dt : Nat) (hdr : Hdr) (port dir ctrl rxMask txMask : Nat) (s : State) : Host.Outcome State Fault Refusal :=
  .next (only true (hostCommand hdr (.audPortSet port dir ctrl rxMask txMask)) (tick dt s))

/-- AUD_PORT_QUERY (R457). -/
def execAudPortQuery (dt : Nat) (hdr : Hdr) (port : Nat) (s : State) : Host.Outcome State Fault Refusal :=
  .next (only true (hostCommand hdr (.audPortQuery port)) (tick dt s))

/-- PAIR_SET (R594). -/
def execPairSet (dt : Nat) (hdr : Hdr) (rolePrio flags pinSerial : Nat) (s : State) : Host.Outcome State Fault Refusal :=
  .next (only true (hostCommand hdr (.pairSet rolePrio flags pinSerial)) (tick dt s))

/-- PAIR_QUERY (R594). -/
def execPairQuery (dt : Nat) (hdr : Hdr) (s : State) : Host.Outcome State Fault Refusal :=
  .next (only true (hostCommand hdr .pairQuery) (tick dt s))

/-- PAIR_RESYNC (R594). -/
def execPairResync (dt : Nat) (hdr : Hdr) (s : State) : Host.Outcome State Fault Refusal :=
  .next (only true (hostCommand hdr .pairResync) (tick dt s))

/-- PAIR_LINK (R594). -/
def execPairLink (dt : Nat) (hdr : Hdr) (action : Nat) (s : State) : Host.Outcome State Fault Refusal :=
  .next (only true (hostCommand hdr (.pairLink action)) (tick dt s))

/-- PAIR_DIGESTS (R594). -/
def execPairDigests (dt : Nat) (hdr : Hdr) (first cnt : Nat) (s : State) : Host.Outcome State Fault Refusal :=
  .next (only true (hostCommand hdr (.pairDigests first cnt)) (tick dt s))

/-- MOD_QUERY (R725). -/
def execModQuery (dt : Nat) (hdr : Hdr) (module : Nat) (s : State) : Host.Outcome State Fault Refusal :=
  .next (only true (hostCommand hdr (.modQuery module)) (tick dt s))

/-- MOD_PROFILE_SET (R723). -/
def execModProfileSet (dt : Nat) (hdr : Hdr) (eol ea : Nat) (s : State) : Host.Outcome State Fault Refusal :=
  .next (only true (hostCommand hdr (.modProfileSet eol ea)) (tick dt s))

/-- MOD_LEDGER_READ (R725). -/
def execModLedgerRead (dt : Nat) (hdr : Hdr) (first cnt : Nat) (s : State) : Host.Outcome State Fault Refusal :=
  .next (only true (hostCommand hdr (.modLedgerRead first cnt)) (tick dt s))

/-- MOD_CONTROL (R724). -/
def execModControl (dt : Nat) (hdr : Hdr) (module action : Nat) (s : State) : Host.Outcome State Fault Refusal :=
  .next (only true (hostCommand hdr (.modControl module action)) (tick dt s))

/-- MOD_ALLOW_SET (R701). -/
def execModAllowSet (dt : Nat) (hdr : Hdr) (index flags oui part : Nat) (s : State) : Host.Outcome State Fault Refusal :=
  .next (only true (hostCommand hdr (.modAllowSet index flags oui part)) (tick dt s))

/-- TEL_SENSORS (R628). -/
def execTelSensors (dt : Nat) (hdr : Hdr) (s : State) : Host.Outcome State Fault Refusal :=
  .next (only true (hostCommand hdr .telSensors) (tick dt s))

/-- TEL_COUNTERS (R814). -/
def execTelCounters (dt : Nat) (hdr : Hdr) (block index clear : Nat) (s : State) : Host.Outcome State Fault Refusal :=
  .next (only true (hostCommand hdr (.telCounters block index clear)) (tick dt s))

/-- TEL_WEAR_READ (R753). -/
def execTelWearRead (dt : Nat) (hdr : Hdr) (s : State) : Host.Outcome State Fault Refusal :=
  .next (only true (hostCommand hdr .telWearRead) (tick dt s))

/-- ID_CERT_READ (R692). -/
def execIdCertRead (dt : Nat) (hdr : Hdr) (s : State) : Host.Outcome State Fault Refusal :=
  .next (only true (hostCommand hdr .idCertRead) (tick dt s))

/-- ID_INFO (R628). -/
def execIdInfo (dt : Nat) (hdr : Hdr) (s : State) : Host.Outcome State Fault Refusal :=
  .next (only true (hostCommand hdr .idInfo) (tick dt s))

/-- ID_ATTEST (R703). -/
def execIdAttest (dt : Nat) (hdr : Hdr) (nonce : Nat) (s : State) : Host.Outcome State Fault Refusal :=
  .next (only true (hostCommand hdr (.idAttest nonce)) (tick dt s))

/-- ID_OWNER_KEY (R695). -/
def execIdOwnerKey (dt : Nat) (hdr : Hdr) (slot hash : Nat) (otpOk : Bool) (s : State) : Host.Outcome State Fault Refusal :=
  .next (only true (hostCommand hdr (.idOwnerKey slot hash otpOk)) (tick dt s))

/-- ID_POLICY_SET (R697). -/
def execIdPolicySet (dt : Nat) (hdr : Hdr) (policy : Nat) (otpOk : Bool) (s : State) : Host.Outcome State Fault Refusal :=
  .next (only true (hostCommand hdr (.idPolicySet policy otpOk)) (tick dt s))

/-- SVC_ENTER (R801). -/
def execSvcEnter (dt : Nat) (hdr : Hdr) (s : State) : Host.Outcome State Fault Refusal :=
  .next (only true (hostCommand hdr .svcEnter) (tick dt s))

/-- SVC_LEAVE (R805). -/
def execSvcLeave (dt : Nat) (hdr : Hdr) (s : State) : Host.Outcome State Fault Refusal :=
  .next (only true (hostCommand hdr .svcLeave) (tick dt s))

/-- SVC_TEST (R809). -/
def execSvcTest (dt : Nat) (hdr : Hdr) (test unit param : Nat) (s : State) : Host.Outcome State Fault Refusal :=
  .next (only true (hostCommand hdr (.svcTest test unit param)) (tick dt s))

/-- SVC_REPAIR (R812). -/
def execSvcRepair (dt : Nat) (hdr : Hdr) (stack : Nat) (s : State) : Host.Outcome State Fault Refusal :=
  .next (only true (hostCommand hdr (.svcRepair stack)) (tick dt s))

end Sys2Proof.Machine
end

