-- ==== Sys2Proof/Machine/Dispatch.lean ====
section
/-! DEFINITION. One arm per command: which meaning each has. -/

namespace Sys2Proof.Machine

/-- The effect of a command on everything but the queue of waiting commands. -/
def exec (i : Instr) (s : State) : Host.Outcome State Fault Refusal :=
  match i with
  | .coldStart dt cause pairSel rescueN puf => Sys2Proof.Machine.execColdStart dt cause pairSel rescueN puf s
  | .pwrGoodFall dt => Sys2Proof.Machine.execPwrGoodFall dt s
  | .vddLineFall dt => Sys2Proof.Machine.execVddLineFall dt s
  | .pcieLinkDown dt => Sys2Proof.Machine.execPcieLinkDown dt s
  | .pcieLinkUp dt => Sys2Proof.Machine.execPcieLinkUp dt s
  | .statusQuery dt hdr => Sys2Proof.Machine.execStatusQuery dt hdr s
  | .tagQuery dt hdr tag => Sys2Proof.Machine.execTagQuery dt hdr tag s
  | .modeSet dt hdr mode => Sys2Proof.Machine.execModeSet dt hdr mode s
  | .tagRetire dt hdr tag flags => Sys2Proof.Machine.execTagRetire dt hdr tag flags s
  | .echo dt hdr => Sys2Proof.Machine.execEcho dt hdr s
  | .fwLoad dt hdr length => Sys2Proof.Machine.execFwLoad dt hdr length s
  | .fwActivate dt hdr window => Sys2Proof.Machine.execFwActivate dt hdr window s
  | .fwConfirm dt hdr => Sys2Proof.Machine.execFwConfirm dt hdr s
  | .fwQuery dt hdr => Sys2Proof.Machine.execFwQuery dt hdr s
  | .fwRestart dt hdr => Sys2Proof.Machine.execFwRestart dt hdr s
  | .startOk dt partnerAccepts => Sys2Proof.Machine.execStartOk dt partnerAccepts s
  | .startOkTimeout dt => Sys2Proof.Machine.execStartOkTimeout dt s
  | .confirmWindowExpiry dt => Sys2Proof.Machine.execConfirmWindowExpiry dt s
  | .supervisorLockstepFail dt => Sys2Proof.Machine.execSupervisorLockstepFail dt s
  | .fwCommandTake dt => Sys2Proof.Machine.execFwCommandTake dt s
  | .planLoad dt hdr length => Sys2Proof.Machine.execPlanLoad dt hdr length s
  | .planLoadComplete dt => Sys2Proof.Machine.execPlanLoadComplete dt s
  | .planCommit dt hdr flags mode => Sys2Proof.Machine.execPlanCommit dt hdr flags mode s
  | .planArm dt => Sys2Proof.Machine.execPlanArm dt s
  | .commitHoldRelease dt => Sys2Proof.Machine.execCommitHoldRelease dt s
  | .destinationChangeover dt dest => Sys2Proof.Machine.execDestinationChangeover dt dest s
  | .planDiscard dt hdr => Sys2Proof.Machine.execPlanDiscard dt hdr s
  | .planQuery dt hdr => Sys2Proof.Machine.execPlanQuery dt hdr s
  | .planPatch dt hdr records structOk => Sys2Proof.Machine.execPlanPatch dt hdr records structOk s
  | .patchApply dt => Sys2Proof.Machine.execPatchApply dt s
  | .planRead dt hdr type mode first count => Sys2Proof.Machine.execPlanRead dt hdr type mode first count s
  | .fsControl dt hdr source lossMode holdFrames => Sys2Proof.Machine.execFsControl dt hdr source lossMode holdFrames s
  | .delaySet dt hdr output delay => Sys2Proof.Machine.execDelaySet dt hdr output delay s
  | .slateLoad dt hdr index width height scan length => Sys2Proof.Machine.execSlateLoad dt hdr index width height scan length s
  | .memQuery dt hdr stack => Sys2Proof.Machine.execMemQuery dt hdr stack s
  | .take dt hdr entry flags => Sys2Proof.Machine.execTake dt hdr entry flags s
  | .salvo dt hdr id part flags count entries => Sys2Proof.Machine.execSalvo dt hdr id part flags count entries s
  | .salvoOpenTimeout dt id => Sys2Proof.Machine.execSalvoOpenTimeout dt id s
  | .takeCommit dt dest => Sys2Proof.Machine.execTakeCommit dt dest s
  | .routeQuery dt hdr first count => Sys2Proof.Machine.execRouteQuery dt hdr first count s
  | .takeCancel dt hdr tag => Sys2Proof.Machine.execTakeCancel dt hdr tag s
  | .refSet dt hdr entry value => Sys2Proof.Machine.execRefSet dt hdr entry value s
  | .refQuery dt hdr => Sys2Proof.Machine.execRefQuery dt hdr s
  | .refSnap dt hdr => Sys2Proof.Machine.execRefSnap dt hdr s
  | .refSnapStep dt => Sys2Proof.Machine.execRefSnapStep dt s
  | .refForce dt hdr cand => Sys2Proof.Machine.execRefForce dt hdr cand s
  | .timeSet dt hdr sec ns => Sys2Proof.Machine.execTimeSet dt hdr sec ns s
  | .timeConf dt hdr utcOfs localOfs flags jam => Sys2Proof.Machine.execTimeConf dt hdr utcOfs localOfs flags jam s
  | .ptpSet dt hdr cand domain flags dscp vlan ownIp => Sys2Proof.Machine.execPtpSet dt hdr cand domain flags dscp vlan ownIp s
  | .capSet dt hdr channel edge ofs => Sys2Proof.Machine.execCapSet dt hdr channel edge ofs s
  | .timeQuery dt hdr => Sys2Proof.Machine.execTimeQuery dt hdr s
  | .trkQuery dt hdr trunk => Sys2Proof.Machine.execTrkQuery dt hdr trunk s
  | .trkRestart dt hdr trunk => Sys2Proof.Machine.execTrkRestart dt hdr trunk s
  | .trkMbxSend dt hdr trunk len bytes => Sys2Proof.Machine.execTrkMbxSend dt hdr trunk len bytes s
  | .flowQuery dt hdr first count => Sys2Proof.Machine.execFlowQuery dt hdr first count s
  | .flowStats dt hdr flow clear => Sys2Proof.Machine.execFlowStats dt hdr flow clear s
  | .ethHostSet dt hdr channel classes ownMac => Sys2Proof.Machine.execEthHostSet dt hdr channel classes ownMac s
  | .ibxTaskQuery dt hdr task count => Sys2Proof.Machine.execIbxTaskQuery dt hdr task count s
  | .ibxTableSet dt hdr task table entries => Sys2Proof.Machine.execIbxTableSet dt hdr task table entries s
  | .ibxColourSet dt hdr task flags entry => Sys2Proof.Machine.execIbxColourSet dt hdr task flags entry s
  | .ibxPatternSet dt hdr task pattern slate => Sys2Proof.Machine.execIbxPatternSet dt hdr task pattern slate s
  | .ibxProbeSet dt hdr probe blackLevel blackFrames freezeMad freezeFrames stLimit tpLimit => Sys2Proof.Machine.execIbxProbeSet dt hdr probe blackLevel blackFrames freezeMad freezeFrames stLimit tpLimit s
  | .ibxProbeRead dt hdr probe => Sys2Proof.Machine.execIbxProbeRead dt hdr probe s
  | .ibxLoudReset dt hdr probe => Sys2Proof.Machine.execIbxLoudReset dt hdr probe s
  | .compLayerSet dt hdr count entries => Sys2Proof.Machine.execCompLayerSet dt hdr count entries s
  | .compInputFormat dt hdr send format scan rateNum rateDen => Sys2Proof.Machine.execCompInputFormat dt hdr send format scan rateNum rateDen s
  | .compSurfaceLoad dt hdr head layer fmt x y w h stride => Sys2Proof.Machine.execCompSurfaceLoad dt hdr head layer fmt x y w h stride s
  | .compTableSet dt hdr head set table flags entries => Sys2Proof.Machine.execCompTableSet dt hdr head set table flags entries s
  | .compQuery dt hdr head => Sys2Proof.Machine.execCompQuery dt hdr head s
  | .audTake dt hdr count entries => Sys2Proof.Machine.execAudTake dt hdr count entries s
  | .audioChannelCommit dt dest => Sys2Proof.Machine.execAudioChannelCommit dt dest s
  | .crossfadeEnd dt dest => Sys2Proof.Machine.execCrossfadeEnd dt dest s
  | .audRouteQuery dt hdr first count => Sys2Proof.Machine.execAudRouteQuery dt hdr first count s
  | .audPortSet dt hdr port dir ctrl rxMask txMask => Sys2Proof.Machine.execAudPortSet dt hdr port dir ctrl rxMask txMask s
  | .audPortQuery dt hdr port => Sys2Proof.Machine.execAudPortQuery dt hdr port s
  | .pairSet dt hdr rolePrio flags pinSerial => Sys2Proof.Machine.execPairSet dt hdr rolePrio flags pinSerial s
  | .pairQuery dt hdr => Sys2Proof.Machine.execPairQuery dt hdr s
  | .pairResync dt hdr => Sys2Proof.Machine.execPairResync dt hdr s
  | .pairLink dt hdr action => Sys2Proof.Machine.execPairLink dt hdr action s
  | .pairDigests dt hdr first count => Sys2Proof.Machine.execPairDigests dt hdr first count s
  | .modQuery dt hdr module => Sys2Proof.Machine.execModQuery dt hdr module s
  | .modProfileSet dt hdr eol ea => Sys2Proof.Machine.execModProfileSet dt hdr eol ea s
  | .modLedgerRead dt hdr first count => Sys2Proof.Machine.execModLedgerRead dt hdr first count s
  | .modControl dt hdr module action => Sys2Proof.Machine.execModControl dt hdr module action s
  | .modAllowSet dt hdr index flags oui part => Sys2Proof.Machine.execModAllowSet dt hdr index flags oui part s
  | .telSensors dt hdr => Sys2Proof.Machine.execTelSensors dt hdr s
  | .telCounters dt hdr block index clear => Sys2Proof.Machine.execTelCounters dt hdr block index clear s
  | .telWearRead dt hdr => Sys2Proof.Machine.execTelWearRead dt hdr s
  | .idCertRead dt hdr => Sys2Proof.Machine.execIdCertRead dt hdr s
  | .idInfo dt hdr => Sys2Proof.Machine.execIdInfo dt hdr s
  | .idAttest dt hdr nonce => Sys2Proof.Machine.execIdAttest dt hdr nonce s
  | .idOwnerKey dt hdr slot hash otpOk => Sys2Proof.Machine.execIdOwnerKey dt hdr slot hash otpOk s
  | .idPolicySet dt hdr policy otpOk => Sys2Proof.Machine.execIdPolicySet dt hdr policy otpOk s
  | .svcEnter dt hdr => Sys2Proof.Machine.execSvcEnter dt hdr s
  | .svcLeave dt hdr => Sys2Proof.Machine.execSvcLeave dt hdr s
  | .svcTest dt hdr test unit param => Sys2Proof.Machine.execSvcTest dt hdr test unit param s
  | .svcRepair dt hdr stack => Sys2Proof.Machine.execSvcRepair dt hdr stack s
  | .descriptorReadError dt => Sys2Proof.Machine.execDescriptorReadError dt s
  | .relayedReply dt reply => Sys2Proof.Machine.execRelayedReply dt reply s
  | .replyWrite dt => Sys2Proof.Machine.execReplyWrite dt s
  | .cmdTailWrite dt tail ring => Sys2Proof.Machine.execCmdTailWrite dt tail ring s
  | .replyHeadWrite dt head => Sys2Proof.Machine.execReplyHeadWrite dt head s
  | .htxTailWrite dt tail frames => Sys2Proof.Machine.execHtxTailWrite dt tail frames s
  | .hrxTailWrite dt tail => Sys2Proof.Machine.execHrxTailWrite dt tail s
  | .cmdEnWrite dt cmdEn hfrEn => Sys2Proof.Machine.execCmdEnWrite dt cmdEn hfrEn s
  | .cmdRingConfigWrite dt offset value => Sys2Proof.Machine.execCmdRingConfigWrite dt offset value s
  | .cmdCtrlReset dt cmdEn hfrEn => Sys2Proof.Machine.execCmdCtrlReset dt cmdEn hfrEn s
  | .evqHeadWrite dt head => Sys2Proof.Machine.execEvqHeadWrite dt head s
  | .evqEnWrite dt en pinEn => Sys2Proof.Machine.execEvqEnWrite dt en pinEn s
  | .evqCtrlReset dt en pinEn => Sys2Proof.Machine.execEvqCtrlReset dt en pinEn s
  | .evqRingConfigWrite dt offset value => Sys2Proof.Machine.execEvqRingConfigWrite dt offset value s
  | .evqMaskWrite dt word value => Sys2Proof.Machine.execEvqMaskWrite dt word value s
  | .eventCommit dt writeOk => Sys2Proof.Machine.execEventCommit dt writeOk s
  | .eventRecordRetry dt writeOk => Sys2Proof.Machine.execEventRecordRetry dt writeOk s
  | .rcFieldRead dt addr => Sys2Proof.Machine.execRcFieldRead dt addr s
  | .latchedPairRead dt addr => Sys2Proof.Machine.execLatchedPairRead dt addr s
  | .statCounterLoRead dt addr => Sys2Proof.Machine.execStatCounterLoRead dt addr s
  | .tmbNowNsRead dt => Sys2Proof.Machine.execTmbNowNsRead dt s
  | .capNsRead dt channel => Sys2Proof.Machine.execCapNsRead dt channel s
  | .trkMbxDataWrite dt trunk value => Sys2Proof.Machine.execTrkMbxDataWrite dt trunk value s
  | .trkMbxDataRead dt trunk => Sys2Proof.Machine.execTrkMbxDataRead dt trunk s
  | .trkLinkEnable dt trunk enable => Sys2Proof.Machine.execTrkLinkEnable dt trunk enable s
  | .trkLinkRestart dt trunk => Sys2Proof.Machine.execTrkLinkRestart dt trunk s
  | .trkRoleWrite dt trunk follower => Sys2Proof.Machine.execTrkRoleWrite dt trunk follower s
  | .trkManualWrite dt trunk manual => Sys2Proof.Machine.execTrkManualWrite dt trunk manual s
  | .trkLaneSlip dt lane => Sys2Proof.Machine.execTrkLaneSlip dt lane s
  | .edgeStart dt lane => Sys2Proof.Machine.execEdgeStart dt lane s
  | .edgeWindowDone dt lane count => Sys2Proof.Machine.execEdgeWindowDone dt lane count s
  | .trkErrInject dt lane => Sys2Proof.Machine.execTrkErrInject dt lane s
  | .ibxCtrlReset dt engine => Sys2Proof.Machine.execIbxCtrlReset dt engine s
  | .ibxCtrlInject dt engine => Sys2Proof.Machine.execIbxCtrlInject dt engine s
  | .pllRelock dt pll => Sys2Proof.Machine.execPllRelock dt pll s
  | .audPortCommit dt port => Sys2Proof.Machine.execAudPortCommit dt port s
  | .audPortConfigWrite dt port value => Sys2Proof.Machine.execAudPortConfigWrite dt port value s
  | .audMaskCommit dt port dir frame => Sys2Proof.Machine.execAudMaskCommit dt port dir frame s
  | .ethLoopbackWrite dt port loopback => Sys2Proof.Machine.execEthLoopbackWrite dt port loopback s
  | .sicMapWrite dt master value => Sys2Proof.Machine.execSicMapWrite dt master value s
  | .bar2Write dt content => Sys2Proof.Machine.execBar2Write dt content s
  | .registerWrite dt addr value => Sys2Proof.Machine.execRegisterWrite dt addr value s
  | .refusedAccess dt master addr size write => Sys2Proof.Machine.execRefusedAccess dt master addr size write s
  | .masterReset dt master bursts => Sys2Proof.Machine.execMasterReset dt master bursts s
  | .epochBoundary dt words => Sys2Proof.Machine.execEpochBoundary dt words s
  | .houseFrameStart dt => Sys2Proof.Machine.execHouseFrameStart dt s
  | .fabricWordVerify dt dest content flips => Sys2Proof.Machine.execFabricWordVerify dt dest content flips s
  | .egressWordSelect dt output home twin => Sys2Proof.Machine.execEgressWordSelect dt output home twin s
  | .inputLineArrival dt port line => Sys2Proof.Machine.execInputLineArrival dt port line s
  | .inputFrameComplete dt port frame => Sys2Proof.Machine.execInputFrameComplete dt port frame s
  | .inputEavMissing dt port => Sys2Proof.Machine.execInputEavMissing dt port s
  | .outputLineEmit dt output line => Sys2Proof.Machine.execOutputLineEmit dt output line s
  | .fsRingFrameComplete dt source => Sys2Proof.Machine.execFsRingFrameComplete dt source s
  | .fsRead dt source => Sys2Proof.Machine.execFsRead dt source s
  | .fsHoldExpiry dt source => Sys2Proof.Machine.execFsHoldExpiry dt source s
  | .hbmWordRead dt stack addr read => Sys2Proof.Machine.execHbmWordRead dt stack addr read s
  | .scrubPass dt stack => Sys2Proof.Machine.execScrubPass dt stack s
  | .ckMonitorWindow dt trunk freq => Sys2Proof.Machine.execCkMonitorWindow dt trunk freq s
  | .trunkFrameReceived dt lane frame => Sys2Proof.Machine.execTrunkFrameReceived dt lane frame s
  | .rxBringupPhaseDone dt trunk edges => Sys2Proof.Machine.execRxBringupPhaseDone dt trunk edges s
  | .txStepChange dt trunk => Sys2Proof.Machine.execTxStepChange dt trunk s
  | .ladderRunEntry dt trunk => Sys2Proof.Machine.execLadderRunEntry dt trunk s
  | .ladderFollowerTimeout dt trunk => Sys2Proof.Machine.execLadderFollowerTimeout dt trunk s
  | .stepReadyTimeout dt trunk => Sys2Proof.Machine.execStepReadyTimeout dt trunk s
  | .ladderRestartTimeout dt trunk => Sys2Proof.Machine.execLadderRestartTimeout dt trunk s
  | .linkFailedRetry dt trunk => Sys2Proof.Machine.execLinkFailedRetry dt trunk s
  | .laneAlignmentLoss dt lane => Sys2Proof.Machine.execLaneAlignmentLoss dt lane s
  | .laneRejoin dt lane => Sys2Proof.Machine.execLaneRejoin dt lane s
  | .prbsCheckerLock dt lane bits => Sys2Proof.Machine.execPrbsCheckerLock dt lane bits s
  | .claimSample dt link => Sys2Proof.Machine.execClaimSample dt link s
  | .trunkFrameStart dt trunk words => Sys2Proof.Machine.execTrunkFrameStart dt trunk words s
  | .groupFrameRelease dt trunk => Sys2Proof.Machine.execGroupFrameRelease dt trunk s
  | .ethFrameReceived dt channel frame => Sys2Proof.Machine.execEthFrameReceived dt channel frame s
  | .pauseTimerExpiry dt channel => Sys2Proof.Machine.execPauseTimerExpiry dt channel s
  | .pauseBufferEmpty dt channel => Sys2Proof.Machine.execPauseBufferEmpty dt channel s
  | .sendFrameDue dt channel due => Sys2Proof.Machine.execSendFrameDue dt channel due s
  | .ethLinkUp dt channel => Sys2Proof.Machine.execEthLinkUp dt channel s
  | .ethLinkDown dt channel => Sys2Proof.Machine.execEthLinkDown dt channel s
  | .flowLineDeadline dt flow => Sys2Proof.Machine.execFlowLineDeadline dt flow s
  | .flowLegStateEval dt flow => Sys2Proof.Machine.execFlowLegStateEval dt flow s
  | .colourSendChange dt flow => Sys2Proof.Machine.execColourSendChange dt flow s
  | .colourHandback dt flow => Sys2Proof.Machine.execColourHandback dt flow s
  | .ptpSfdEvent dt port => Sys2Proof.Machine.execPtpSfdEvent dt port s
  | .ptpAnnounce dt port msg => Sys2Proof.Machine.execPtpAnnounce dt port msg s
  | .ptpSync dt port t1 correction twoStep => Sys2Proof.Machine.execPtpSync dt port t1 correction twoStep s
  | .ptpDelayResp dt port seq t4 correction => Sys2Proof.Machine.execPtpDelayResp dt port seq t4 correction s
  | .ptpDelayReqSend dt port => Sys2Proof.Machine.execPtpDelayReqSend dt port s
  | .ptpAnnounceTimeout dt port => Sys2Proof.Machine.execPtpAnnounceTimeout dt port s
  | .utcOffsetChange dt => Sys2Proof.Machine.execUtcOffsetChange dt s
  | .captureEdge dt channel falling => Sys2Proof.Machine.execCaptureEdge dt channel falling s
  | .refCandidatePresent dt cand => Sys2Proof.Machine.execRefCandidatePresent dt cand s
  | .refCandidateLost dt cand phases => Sys2Proof.Machine.execRefCandidateLost dt cand phases s
  | .holdoffExpiry dt cand phases => Sys2Proof.Machine.execHoldoffExpiry dt cand phases s
  | .driftEvaluation dt againstSel againstXo loopFreq phases => Sys2Proof.Machine.execDriftEvaluation dt againstSel againstXo loopFreq phases s
  | .refJump dt cand phases => Sys2Proof.Machine.execRefJump dt cand phases s
  | .loopBwStep dt phaseErr => Sys2Proof.Machine.execLoopBwStep dt phaseErr s
  | .slewComplete dt => Sys2Proof.Machine.execSlewComplete dt s
  | .holdoverLimitExpiry dt => Sys2Proof.Machine.execHoldoverLimitExpiry dt s
  | .frameSyncEdge dt => Sys2Proof.Machine.execFrameSyncEdge dt s
  | .pllLockAttempt dt pll edges slow => Sys2Proof.Machine.execPllLockAttempt dt pll edges slow s
  | .pllLock dt pll errors => Sys2Proof.Machine.execPllLock dt pll errors s
  | .pllAttemptFail dt pll => Sys2Proof.Machine.execPllAttemptFail dt pll s
  | .pllLossOfLock dt pll errors => Sys2Proof.Machine.execPllLossOfLock dt pll errors s
  | .pllDividerSync dt pll shifted => Sys2Proof.Machine.execPllDividerSync dt pll shifted s
  | .xoFail dt => Sys2Proof.Machine.execXoFail dt s
  | .islandClockReturn dt island => Sys2Proof.Machine.execIslandClockReturn dt island s
  | .engineSelfTest dt engine signature => Sys2Proof.Machine.execEngineSelfTest dt engine signature s
  | .engineReloadDone dt engine => Sys2Proof.Machine.execEngineReloadDone dt engine s
  | .engineReturn dt engine => Sys2Proof.Machine.execEngineReturn dt engine s
  | .probeFrameEval dt probe luma => Sys2Proof.Machine.execProbeFrameEval dt probe luma s
  | .loudnessBlock dt probe info => Sys2Proof.Machine.execLoudnessBlock dt probe info s
  | .layerFrameComplete dt head layer => Sys2Proof.Machine.execLayerFrameComplete dt head layer s
  | .headFrameBoundary dt head => Sys2Proof.Machine.execHeadFrameBoundary dt head s
  | .audioSlotVerify dt dest flips => Sys2Proof.Machine.execAudioSlotVerify dt dest flips s
  | .srcRatioWindow dt port dir ratio ppm => Sys2Proof.Machine.execSrcRatioWindow dt port dir ratio ppm s
  | .audioClockFound dt port dir => Sys2Proof.Machine.execAudioClockFound dt port dir s
  | .srcAcquireDone dt port dir => Sys2Proof.Machine.execSrcAcquireDone dt port dir s
  | .srcRampDone dt port dir => Sys2Proof.Machine.execSrcRampDone dt port dir s
  | .srcXrun dt port dir frames => Sys2Proof.Machine.execSrcXrun dt port dir frames s
  | .audioNoClock dt port dir => Sys2Proof.Machine.execAudioNoClock dt port dir s
  | .mirrorFrameReceived dt => Sys2Proof.Machine.execMirrorFrameReceived dt s
  | .heartbeatLoss dt => Sys2Proof.Machine.execHeartbeatLoss dt s
  | .mirrorMessageReceived dt seq authentic msg => Sys2Proof.Machine.execMirrorMessageReceived dt seq authentic msg s
  | .mirrorRetransmit dt seq => Sys2Proof.Machine.execMirrorRetransmit dt seq s
  | .mirrorLadderRetry dt => Sys2Proof.Machine.execMirrorLadderRetry dt s
  | .pairingStep dt msg => Sys2Proof.Machine.execPairingStep dt msg s
  | .pairingRetry dt => Sys2Proof.Machine.execPairingRetry dt s
  | .keyRenewal dt => Sys2Proof.Machine.execKeyRenewal dt s
  | .joinStepAdvance dt result => Sys2Proof.Machine.execJoinStepAdvance dt result s
  | .resyncRequest dt => Sys2Proof.Machine.execResyncRequest dt s
  | .resyncComplete dt => Sys2Proof.Machine.execResyncComplete dt s
  | .digestComparison dt epoch => Sys2Proof.Machine.execDigestComparison dt epoch s
  | .digestSkip dt epoch => Sys2Proof.Machine.execDigestSkip dt epoch s
  | .penaltyRemoval dt cls => Sys2Proof.Machine.execPenaltyRemoval dt cls s
  | .quadrantSleepEntry dt quad => Sys2Proof.Machine.execQuadrantSleepEntry dt quad s
  | .quadrantWake dt quad => Sys2Proof.Machine.execQuadrantWake dt quad s
  | .wakeLate dt quad => Sys2Proof.Machine.execWakeLate dt quad s
  | .thermalSample dt readings => Sys2Proof.Machine.execThermalSample dt readings s
  | .shedListApply dt => Sys2Proof.Machine.execShedListApply dt s
  | .shedListLift dt => Sys2Proof.Machine.execShedListLift dt s
  | .wearAccrual dt => Sys2Proof.Machine.execWearAccrual dt s
  | .wearLedgerCopy dt writeOk => Sys2Proof.Machine.execWearLedgerCopy dt writeOk s
  | .modulePresent dt module => Sys2Proof.Machine.execModulePresent dt module s
  | .moduleResetRelease dt module => Sys2Proof.Machine.execModuleResetRelease dt module s
  | .moduleIdentified dt module ident => Sys2Proof.Machine.execModuleIdentified dt module ident s
  | .moduleReadyTimeout dt module => Sys2Proof.Machine.execModuleReadyTimeout dt module s
  | .moduleInterrupt dt module moduleFault txFault => Sys2Proof.Machine.execModuleInterrupt dt module moduleFault txFault s
  | .moduleRemoved dt module => Sys2Proof.Machine.execModuleRemoved dt module s
  | .moduleLifeSample dt module nacks temp bias => Sys2Proof.Machine.execModuleLifeSample dt module nacks temp bias s
  | .biasBaselineComplete dt module => Sys2Proof.Machine.execBiasBaselineComplete dt module s
  | .lifeLedgerCopy dt writeOk => Sys2Proof.Machine.execLifeLedgerCopy dt writeOk s
  | .resetNAsserted dt => Sys2Proof.Machine.execResetNAsserted dt s
  | .vddLineRise dt flashMib => Sys2Proof.Machine.execVddLineRise dt flashMib s
  | .xo27Return dt => Sys2Proof.Machine.execXo27Return dt s
  | .engineMemoryEccError dt engine flips => Sys2Proof.Machine.execEngineMemoryEccError dt engine flips s
  | .msixVectorUnmask dt => Sys2Proof.Machine.execMsixVectorUnmask dt s
  | .svcTestComplete dt test unit result => Sys2Proof.Machine.execSvcTestComplete dt test unit result s
  | .jtagInstruction dt instr => Sys2Proof.Machine.execJtagInstruction dt instr s

end Sys2Proof.Machine
end

