-- ==== Sys2Proof/Safety.lean ====
section
/-! DEFINITION. The words in which the statements about the machine are written: completion, frames, the dispatcher's readiness, replies, and the invariants. -/

namespace Sys2Proof.Machine

/-! ## Completion and frames -/

/-- The command answers a next state, and it is one of which `P` holds. -/
def Completes (i : Instr) (s : State) (P : State → Prop) : Prop := ∃ t, exec i s = .next t ∧ P t

/-- Every register but those listed reads as before. -/
def RegsBut (as : List Nat) (s t : State) : Prop := ∀ a, a ∉ as → rd t a = rd s a

/-- `dt` ticks have passed, registers among `as` may have changed, and nothing else has. -/
def RegsOnly (as : List Nat) (dt : Nat) (s t : State) : Prop := t = { tick dt s with regs := t.regs } ∧ RegsBut as s t

/-- `dt` ticks have passed, registers among `as` and the event queue may have changed, and nothing else has. -/
def RegsEvents (as : List Nat) (dt : Nat) (s t : State) : Prop := t = { tick dt s with regs := t.regs, evq := t.evq } ∧ RegsBut as s t

/-- A command of one link pair: `dt` ticks have passed, registers among `as`, the event queue, the tracks of link pair `n` and its lanes, and the frame timer of the trunk's group (06_trunk_framing.md R281) may have changed, and nothing else has. -/
def LinkOnly (n : Nat) (as : List Nat) (dt : Nat) (s t : State) : Prop :=
  t = { tick dt s with regs := t.regs, evq := t.evq, trk := t.trk } ∧ RegsBut as s t ∧ t.trk.streams = s.trk.streams
    ∧ (∀ m, m ≠ n → linkTrack t m = { linkTrack s m with grp := (linkTrack t m).grp, released := (linkTrack t m).released })
    ∧ (∀ m, m ≠ n → m ≠ groupHead s n → linkTrack t m = linkTrack s m) ∧ (∀ m, m / 8 ≠ n → laneTrack t m = laneTrack s m)

/-- A latch of source `src` with this instance and type is pending for the host (17_event_queue.md R635, R638). -/
def Latched (src inst type : Nat) (t : State) : Prop := ∃ p ∈ t.evq.host.pend, p.src = src ∧ (p.inst = inst ∧ p.type = type ∨ 0 < p.coalesced)

/-! ## Commands of the ring (16_command_packets.md) -/

/-- Registers that every command of the ring may move: the ring indices of R601, the count of accepted commands, and the flags of R604 and R611. -/
def ringRegs : List Nat := [Reg.cmdTail, Reg.cmdHead, Reg.cmdAccepted, Reg.cmdStatus]

/-- The dispatcher reads the next descriptor at once (R600, R601, R611), every check of R606 and R817 passes, and the agent that serves the opcode is free to take it (R617, R620). -/
def Ready (h : Hdr) (b : Body) (s : State) : Prop :=
  powered s = true ∧ reads s = true ∧ s.cmd.unread = [] ∧ h.target = 0 ∧ dispatchCheck s { hdr := h, body := b } = none
    ∧ (fastPath b = true ∨ (s.cmd.fwq = [] ∧ fwServes b s = true))

/-- The state in which an accepted command executes: the ring indices have moved (R601), SEQ is expected next (R605), the tag is pending (R613), and the command is counted. -/
def taken (h : Hdr) (s : State) : State :=
  let s := putF Reg.cmdTail 0 12 (ringNext (ringSize s 0) (getF s Reg.cmdTail 0 12)) s
  let s := putF Reg.cmdHead 0 12 (ringNext (ringSize s 0) (getF s Reg.cmdHead 0 12)) s
  count Reg.cmdAccepted (tagPending h.tag (seqAfter h.seq s))

/-- The fields of a reply descriptor (R604, R607): a result body that fits is there whole. -/
def ReplyIs (p : Packet) (status detail frame : Nat) (result : List (Nat × Nat)) (r : Reply) : Prop :=
  r.opcode = opcodeOf p.body ∧ r.tag = p.hdr.tag ∧ r.seq = p.hdr.seq ∧ r.status = status ∧ r.detail = detail ∧ r.frame = frame
    ∧ r.resultLen = bodyLen result ∧ r.relayed = false
    ∧ (bodyLen result ≤ 32 → r.result = result ∧ r.inline = true ∧ r.trunc = false)
    ∧ (32 < bodyLen result → p.hdr.flags % 2 = 0 → bodyLen result ≤ p.hdr.resultLen → r.result = result ∧ r.inline = false ∧ r.trunc = false)

/-- The command has completed: its reply is the last of those that go to the reply ring, the result table holds it (R610, R613), and SEQ is expected next (R605). -/
def Answered (h : Hdr) (b : Body) (status detail frame : Nat) (result : List (Nat × Nat)) (s t : State) : Prop :=
  ∃ r, t.cmd.waiting = s.cmd.waiting ++ [r] ∧ ReplyIs { hdr := h, body := b } status detail frame result r
    ∧ (tagHeld h.tag t).bind ResEntry.reply = some r ∧ t.cmd.expSeq = some ((h.seq + 1) % 2 ^ 32)

/-- The command has completed now with no result body. -/
def Replied (dt : Nat) (h : Hdr) (b : Body) (status : Nat) (s t : State) : Prop := Answered h b status 0 (houseFrame (tick dt s)) [] s t

/-- What a command of the ring leaves of the dispatcher's own state: the announced entries, the firmware queue, the relayed commands and the host-frame rings. -/
def RingKept (s t : State) : Prop :=
  t.cmd = { s.cmd with expSeq := t.cmd.expSeq, results := t.cmd.results, accCount := t.cmd.accCount, waiting := t.cmd.waiting }
    ∧ getF t Reg.cmdStatus 0 2 = getF s Reg.cmdStatus 0 2

/-- A command that only answers: this status and result body, at the present house frame, and nothing but the ring state of the dispatcher has changed. -/
def AnswersWith (dt : Nat) (h : Hdr) (b : Body) (status : Nat) (result : List (Nat × Nat)) (s t : State) : Prop :=
  Answered h b status 0 (houseFrame (tick dt s)) result s t ∧ t = { tick dt s with regs := t.regs, cmd := t.cmd } ∧ RegsBut ringRegs s t ∧ RingKept s t

/-- The command waits for its effect: its tag is pending, and no reply has been given (R613). -/
def Waits (h : Hdr) (s t : State) : Prop :=
  t.cmd.waiting = s.cmd.waiting ∧ (tagHeld h.tag t).map ResEntry.reply = some none ∧ t.cmd.expSeq = some ((h.seq + 1) % 2 ^ 32)

/-- The house frame of a command with this APPLY_AT whose earliest frame lies `lead` ticks ahead (R609, R821). -/
def applyFor (lead : Nat) (h : Hdr) (u : State) : Nat := if h.applyAt = 0 then rateFirst (houseRate u) (u.now + lead) else h.applyAt

/-- APPLY_AT names an earlier house frame than the first that starts at least `lead` ticks ahead (R821). -/
def TooLate (lead : Nat) (h : Hdr) (u : State) : Prop := h.applyAt ≠ 0 ∧ h.applyAt < rateFirst (houseRate u) (u.now + lead)

/-- The command is accepted and waits for its house frame, at whose start it takes effect, with the result body its reply will carry. -/
def Scheduled (dt lead : Nat) (h : Hdr) (result : Nat → List (Nat × Nat)) (s t : State) : Prop :=
  let u := tick dt s
  let f := applyFor lead h u
  Waits h s t ∧ ∃ x, t.sched = s.sched ++ [x] ∧ x.frame = f ∧ x.start = frameStart u f ∧ x.result = result f ∧ x.cmd.pkt.hdr = h

/-- The descriptor that a row of the opcode table puts on the ring, and the time that passes before it; none for the rows that are no opcode. -/
def hostPacket (i : Instr) : Option (Nat × Packet) :=
  match i with
  | .statusQuery dt hdr => some (dt, { hdr := hdr, body := .statusQuery })
  | .tagQuery dt hdr tag => some (dt, { hdr := hdr, body := (.tagQuery tag) })
  | .modeSet dt hdr mode => some (dt, { hdr := hdr, body := (.modeSet mode) })
  | .tagRetire dt hdr tag flags => some (dt, { hdr := hdr, body := (.tagRetire tag flags) })
  | .echo dt hdr => some (dt, { hdr := hdr, body := .echo })
  | .fwLoad dt hdr len => some (dt, { hdr := hdr, body := (.fwLoad len) })
  | .fwActivate dt hdr window => some (dt, { hdr := hdr, body := (.fwActivate window) })
  | .fwConfirm dt hdr => some (dt, { hdr := hdr, body := .fwConfirm })
  | .fwQuery dt hdr => some (dt, { hdr := hdr, body := .fwQuery })
  | .fwRestart dt hdr => some (dt, { hdr := hdr, body := .fwRestart })
  | .planLoad dt hdr len => some (dt, { hdr := hdr, body := (.planLoad len) })
  | .planCommit dt hdr flags mode => some (dt, { hdr := hdr, body := (.planCommit flags mode) })
  | .planDiscard dt hdr => some (dt, { hdr := hdr, body := .planDiscard })
  | .planQuery dt hdr => some (dt, { hdr := hdr, body := .planQuery })
  | .planPatch dt hdr rs structOk => some (dt, { hdr := hdr, body := (.planPatch rs structOk) })
  | .planRead dt hdr type mode first cnt => some (dt, { hdr := hdr, body := (.planRead type mode first cnt) })
  | .fsControl dt hdr source lossMode holdFrames => some (dt, { hdr := hdr, body := (.fsControl source lossMode holdFrames) })
  | .delaySet dt hdr output delay => some (dt, { hdr := hdr, body := (.delaySet output delay) })
  | .slateLoad dt hdr index width height scan len => some (dt, { hdr := hdr, body := (.slateLoad index width height scan len) })
  | .memQuery dt hdr stack => some (dt, { hdr := hdr, body := (.memQuery stack) })
  | .take dt hdr entry flags => some (dt, { hdr := hdr, body := (.take entry flags) })
  | .salvo dt hdr id part flags cnt es => some (dt, { hdr := hdr, body := (.salvo id part flags cnt es) })
  | .routeQuery dt hdr first cnt => some (dt, { hdr := hdr, body := (.routeQuery first cnt) })
  | .takeCancel dt hdr tag => some (dt, { hdr := hdr, body := (.takeCancel tag) })
  | .refSet dt hdr entry value => some (dt, { hdr := hdr, body := (.refSet entry value) })
  | .refQuery dt hdr => some (dt, { hdr := hdr, body := .refQuery })
  | .refSnap dt hdr => some (dt, { hdr := hdr, body := .refSnap })
  | .refForce dt hdr cand => some (dt, { hdr := hdr, body := (.refForce cand) })
  | .timeSet dt hdr sec ns => some (dt, { hdr := hdr, body := (.timeSet sec ns) })
  | .timeConf dt hdr utcOfs localOfs flags jam => some (dt, { hdr := hdr, body := (.timeConf utcOfs localOfs flags jam) })
  | .ptpSet dt hdr cand domain flags dscp vlan ownIp => some (dt, { hdr := hdr, body := (.ptpSet cand domain flags dscp vlan ownIp) })
  | .capSet dt hdr channel edge ofs => some (dt, { hdr := hdr, body := (.capSet channel edge ofs) })
  | .timeQuery dt hdr => some (dt, { hdr := hdr, body := .timeQuery })
  | .trkQuery dt hdr trunk => some (dt, { hdr := hdr, body := (.trkQuery trunk) })
  | .trkRestart dt hdr trunk => some (dt, { hdr := hdr, body := (.trkRestart trunk) })
  | .trkMbxSend dt hdr trunk len bytes => some (dt, { hdr := hdr, body := (.trkMbxSend trunk len bytes) })
  | .flowQuery dt hdr first cnt => some (dt, { hdr := hdr, body := (.flowQuery first cnt) })
  | .flowStats dt hdr flow clear => some (dt, { hdr := hdr, body := (.flowStats flow clear) })
  | .ethHostSet dt hdr channel classes ownMac => some (dt, { hdr := hdr, body := (.ethHostSet channel classes ownMac) })
  | .ibxTaskQuery dt hdr task cnt => some (dt, { hdr := hdr, body := (.ibxTaskQuery task cnt) })
  | .ibxTableSet dt hdr task table es => some (dt, { hdr := hdr, body := (.ibxTableSet task table es) })
  | .ibxColourSet dt hdr task flags entry => some (dt, { hdr := hdr, body := (.ibxColourSet task flags entry) })
  | .ibxPatternSet dt hdr task pattern slate => some (dt, { hdr := hdr, body := (.ibxPatternSet task pattern slate) })
  | .ibxProbeSet dt hdr probe blackLevel blackFrames freezeMad freezeFrames stLimit tpLimit => some (dt, { hdr := hdr, body := (.ibxProbeSet probe blackLevel blackFrames freezeMad freezeFrames stLimit tpLimit) })
  | .ibxProbeRead dt hdr probe => some (dt, { hdr := hdr, body := (.ibxProbeRead probe) })
  | .ibxLoudReset dt hdr probe => some (dt, { hdr := hdr, body := (.ibxLoudReset probe) })
  | .compLayerSet dt hdr cnt es => some (dt, { hdr := hdr, body := (.compLayerSet cnt es) })
  | .compInputFormat dt hdr send fmt scan rateNum rateDen => some (dt, { hdr := hdr, body := (.compInputFormat send fmt scan rateNum rateDen) })
  | .compSurfaceLoad dt hdr head layer fmt x y w h stride => some (dt, { hdr := hdr, body := (.compSurfaceLoad head layer fmt x y w h stride) })
  | .compTableSet dt hdr head set table flags es => some (dt, { hdr := hdr, body := (.compTableSet head set table flags es) })
  | .compQuery dt hdr head => some (dt, { hdr := hdr, body := (.compQuery head) })
  | .audTake dt hdr cnt es => some (dt, { hdr := hdr, body := (.audTake cnt es) })
  | .audRouteQuery dt hdr first cnt => some (dt, { hdr := hdr, body := (.audRouteQuery first cnt) })
  | .audPortSet dt hdr port dir ctrl rxMask txMask => some (dt, { hdr := hdr, body := (.audPortSet port dir ctrl rxMask txMask) })
  | .audPortQuery dt hdr port => some (dt, { hdr := hdr, body := (.audPortQuery port) })
  | .pairSet dt hdr rolePrio flags pinSerial => some (dt, { hdr := hdr, body := (.pairSet rolePrio flags pinSerial) })
  | .pairQuery dt hdr => some (dt, { hdr := hdr, body := .pairQuery })
  | .pairResync dt hdr => some (dt, { hdr := hdr, body := .pairResync })
  | .pairLink dt hdr action => some (dt, { hdr := hdr, body := (.pairLink action) })
  | .pairDigests dt hdr first cnt => some (dt, { hdr := hdr, body := (.pairDigests first cnt) })
  | .modQuery dt hdr module => some (dt, { hdr := hdr, body := (.modQuery module) })
  | .modProfileSet dt hdr eol ea => some (dt, { hdr := hdr, body := (.modProfileSet eol ea) })
  | .modLedgerRead dt hdr first cnt => some (dt, { hdr := hdr, body := (.modLedgerRead first cnt) })
  | .modControl dt hdr module action => some (dt, { hdr := hdr, body := (.modControl module action) })
  | .modAllowSet dt hdr index flags oui part => some (dt, { hdr := hdr, body := (.modAllowSet index flags oui part) })
  | .telSensors dt hdr => some (dt, { hdr := hdr, body := .telSensors })
  | .telCounters dt hdr block index clear => some (dt, { hdr := hdr, body := (.telCounters block index clear) })
  | .telWearRead dt hdr => some (dt, { hdr := hdr, body := .telWearRead })
  | .idCertRead dt hdr => some (dt, { hdr := hdr, body := .idCertRead })
  | .idInfo dt hdr => some (dt, { hdr := hdr, body := .idInfo })
  | .idAttest dt hdr nonce => some (dt, { hdr := hdr, body := (.idAttest nonce) })
  | .idOwnerKey dt hdr slot hash otpOk => some (dt, { hdr := hdr, body := (.idOwnerKey slot hash otpOk) })
  | .idPolicySet dt hdr policy otpOk => some (dt, { hdr := hdr, body := (.idPolicySet policy otpOk) })
  | .svcEnter dt hdr => some (dt, { hdr := hdr, body := .svcEnter })
  | .svcLeave dt hdr => some (dt, { hdr := hdr, body := .svcLeave })
  | .svcTest dt hdr test unit param => some (dt, { hdr := hdr, body := (.svcTest test unit param) })
  | .svcRepair dt hdr stack => some (dt, { hdr := hdr, body := (.svcRepair stack) })
  | _ => none

/-- The register is at the reset value of its map. -/
def AtReset (a : Nat) (s : State) : Prop := rd s a = regReset a

/-! ## Invariants -/

/-- One-time-programmable memory only gains (19_identity.md R693). -/
def OtpKept (a b : OtpState) : Prop :=
  b.serial = a.serial ∧ b.cert = a.cert ∧ a.floor ≤ b.floor ∧ (a.ownerOnly = true → b.ownerOnly = true) ∧ b.slots.length = a.slots.length
    ∧ ∀ n x, nth? a.slots n = some x → ∃ y, nth? b.slots n = some y ∧ y.hash &&& x.hash = x.hash
        ∧ (x.valid = true → y.valid = true) ∧ (x.revoked = true → y.revoked = true)

/-- Four owner-key slots, one of them valid while only owner-signed plans are taken (19_identity.md R693, R697). -/
def OtpSound (o : OtpState) : Prop := o.slots.length = 4 ∧ (o.ownerOnly = true → ∃ x ∈ o.slots, x.valid = true ∧ x.revoked = false)

/-! ## Runs -/

/-- The commands that act on the line side, on the supplies or on the reference clocks, and may do so while the logic side is off (21_supplies_and_thermal.md R729, R731). -/
def lineCommand (i : Instr) : Bool :=
  match i with
  | .coldStart .. | .pwrGoodFall .. | .vddLineFall .. | .vddLineRise .. | .resetNAsserted .. | .xoFail .. | .xo27Return ..
  | .refCandidatePresent .. | .refCandidateLost .. | .modulePresent .. | .moduleResetRelease .. | .moduleIdentified .. | .moduleReadyTimeout ..
  | .moduleInterrupt .. | .moduleRemoved .. | .moduleLifeSample .. | .biasBaselineComplete .. | .lifeLedgerCopy .. | .thermalSample ..
  | .wearAccrual .. | .wearLedgerCopy .. => true
  | _ => false

/-- The state after `n` steps, none where one of them does not answer a next state. -/
def stepsFrom : Nat → State → Option State
  | 0, s => some s
  | n + 1, s =>
    match step s with
    | .next t => stepsFrom n t
    | _ => none

end Sys2Proof.Machine
end

