-- ==== Sys2Proof/Certificates/Slice0/Obligations.lean ====
section
/-! DEFINITION. What the machine is claimed to do, rule by rule of the manual. -/

open Sys2Proof Sys2Proof.Machine

/-! ## The queue -/

/-- For every command c and every state s with c at the front of its queue, the step at s is exec of c on s with the queue's rest. With an empty queue a step leaves the state as it is; that the block idles, and that time passes only with commands, is the model's choice (log 1). In every state every command answers a next state: none ends in a fault or a refusal, since one that cannot happen in a state changes nothing but the time (log 6). -/
def Obligations.StepExecutesTheFrontCommand : Prop :=
  (∀ (c : Instr) (rest : List Instr) (s : State), s.pending = c :: rest → step s = exec c { s with pending := rest })
  ∧ (∀ s : State, s.pending = [] → step s = .next s)
  ∧ (∀ (c : Instr) (s : State), ∃ t, exec c s = .next t)

/-! ## The command ring (16_command_packets.md) -/

/-- R606, for every opcode row of the table. The dispatcher's checks stand in a list in the order of R606, each with its status: version, length, INLINE rule and zero fields; SEQ; opcode assigned; opcode served by the present server and mode; TARGET; partner reachable for TARGET 1; tag not in use; fewer than 16,384 tags pending; role; body read without error. Whenever the dispatcher reads the descriptor at once, and the n-th check is the first that fails, the command is answered with the n-th status. Where all ten hold, a body that disagrees with its layout (R817) is answered with the status and DETAIL of its first failure, and one that agrees, of a firmware opcode that finds 256 commands in the firmware queue, FW_BUSY, order 11. Orders 4, 9 and 11 of a TARGET 1 descriptor are the partner's (R622). A refused command changes nothing but the dispatcher's own state and its registers, and what counts refusals: TAKE_REFUSED for a take or salvo, PLAN_REJECTS and PLAN_LAST_STATUS for a plan command (logs 174, 175); a PART 1 whose body is refused discards the open part 0 (02_word_fabric_and_takes.md R106). -/
def Obligations.FirstFailingCheckDecidesTheStatus : Prop :=
  let checks : State → Hdr → Body → List (Bool × Nat) := fun s h b =>
    [(decide (h.version = 1) && decide (h.flags < 2) && decide (h.length ≤ 4096) && (decide (h.flags = 1 → h.length ≤ 32)) && h.zeroOk, 0x0001),
     (decide (s.cmd.expSeq = none ∨ s.cmd.expSeq = some h.seq), 0x000D),
     (assigned b, 0x0003),
     (decide (h.target = 0 → modeServes s b = true), 0x0005),
     (decide (h.target = 0 ∨ h.target = 1 ∧ standbyQ b = true), 0x0004),
     (decide (h.target = 0 ∨ partnerReachable s = true), 0x0A02),
     (decide (tagHeld h.tag s = none), 0x0007),
     (decide (pendingTags s < 16384), 0x0009),
     (decide (h.target = 0 → isStandby s = true → standbyQ b = true ∨ standbyS b = true), 0x0006),
     (h.bodyOk, 0x000C)]
  let takes := fun (b : Body) => decide (opcodeOf b = 0x0301 ∨ opcodeOf b = 0x0302) && assigned b
  let plans := fun (b : Body) => decide (0x0201 ≤ opcodeOf b ∧ opcodeOf b ≤ 0x0206 ∧ assigned b = true) || (match b with | .modeSet _ => true | _ => false)
  let noted := fun (b : Body) => (if takes b = true then [Reg.takeRefused] else []) ++ (if plans b = true then [Reg.planLastStatus, Reg.planRejects] else [])
  let answered := fun (dt : Nat) (h : Hdr) (b : Body) (status : Nat) (s t : State) =>
    (∃ r, t.cmd.waiting = s.cmd.waiting ++ [r] ∧ r.opcode = opcodeOf b ∧ r.tag = h.tag ∧ r.seq = h.seq ∧ r.status = status ∧ r.result = []
        ∧ r.frame = houseFrame (tick dt s))
      ∧ t = { tick dt s with regs := t.regs, cmd := t.cmd } ∧ t.cmd.fwq = s.cmd.fwq ∧ RegsBut (Reg.cmdRefused :: (noted b ++ ringRegs)) s t
      ∧ (takes b = true → (rd t Reg.takeRefused).toNat = min (2 ^ 32 - 1) ((rd s Reg.takeRefused).toNat + 1)) ∧ (plans b = true → (rd t Reg.planRejects).toNat = min (2 ^ 32 - 1) ((rd s Reg.planRejects).toNat + 1) ∧ getF t Reg.planLastStatus 0 16 = status)
  ∀ (i : Instr) (s : State) (dt : Nat) (h : Hdr) (b : Body), hostPacket i = some (dt, { hdr := h, body := b }) →
    powered s = true → reads s = true → s.cmd.unread = [] →
    (∀ c, ((checks s h b).find? fun c => !c.1) = some c → Completes i s (answered dt h b c.2 s))
      ∧ (((checks s h b).find? fun c => !c.1) = none → bodyBad { hdr := h, body := b } = none → h.target = 0 →
          fastPath b = false → 256 ≤ s.cmd.fwq.length → Completes i s (answered dt h b 0x000A s))
      ∧ (((checks s h b).find? fun c => !c.1) = none → ∀ x, bodyBad { hdr := h, body := b } = some x →
          ((∀ id fl n es, b = .salvo id 1 fl n es → openSalvo s id = none) → Completes i s fun t => answered dt h b x.1 s t ∧ ∃ r, t.cmd.waiting = s.cmd.waiting ++ [r] ∧ r.detail = x.2)
          ∧ (∀ id fl n es, b = .salvo id 1 fl n es → Completes i s fun t => (∃ r ∈ t.cmd.waiting, r.tag = h.tag ∧ r.status = x.1) ∧ openSalvo t id = none ∧ (∀ o, openSalvo s id = some o → o.cmd.origin = .host → ∃ r ∈ t.cmd.waiting, r.tag = o.cmd.pkt.hdr.tag ∧ r.status = 0x030A)))

/-- R605, for every opcode row. The SEQ that the dispatcher expects after a descriptor is that descriptor's SEQ plus 1, modulo 2^32: stated here for every descriptor refused, relayed or queued, and for those executed at once in the statements of their opcodes (Answered, Waits). A descriptor of correct form whose SEQ is not the expected one is answered CMD_SEQ, SEQ_ERR_SEEN is set, and nothing beyond the dispatcher's ring state changes: it is not executed. With no expectation held (the first descriptor after a ring reset), and with the value expected, no SEQ is refused with CMD_SEQ. -/
def Obligations.SequenceNumbersRiseByOne : Prop :=
  ∀ (i : Instr) (s : State) (dt : Nat) (h : Hdr) (b : Body), hostPacket i = some (dt, { hdr := h, body := b }) →
    powered s = true → reads s = true → s.cmd.unread = [] →
    (headerFormatOk h = true → ∀ e, s.cmd.expSeq = some e → h.seq ≠ e → Completes i s fun t =>
        (∃ r, t.cmd.waiting = s.cmd.waiting ++ [r] ∧ r.tag = h.tag ∧ r.seq = h.seq ∧ r.status = 0x000D)
          ∧ t.cmd.expSeq = some ((h.seq + 1) % 2 ^ 32) ∧ getB t Reg.cmdStatus 5 = true ∧ t.cmd.fwq = s.cmd.fwq
          ∧ t = { tick dt s with regs := t.regs, cmd := t.cmd } ∧ RegsBut (Reg.cmdRefused :: Reg.takeRefused :: Reg.planLastStatus :: Reg.planRejects :: ringRegs) s t)
      ∧ (dispatchCheck s { hdr := h, body := b } ≠ none ∨ h.target = 1 ∨ (fastPath b = false ∧ (fwServes b s = false ∨ s.cmd.fwq ≠ [])) →
          Completes i s fun t => t.cmd.expSeq = some ((h.seq + 1) % 2 ^ 32))
      ∧ (s.cmd.expSeq = none ∨ s.cmd.expSeq = some h.seq → ∀ d, dispatchCheck s { hdr := h, body := b } ≠ some (0x000D, d))

/-- R615, for every opcode row. A descriptor that passes orders 1 to 6 and whose tag the result table holds, pending or completed, is answered TAG_BUSY with the tag as sent, and the result table is what it was. A descriptor refused at orders 1 to 6 is answered with its tag as sent; where the table holds that tag it stays as it was, and where it does not, the table then holds the refusal. -/
def Obligations.TagsInUseAreRefused : Prop :=
  ∀ (i : Instr) (s : State) (dt : Nat) (h : Hdr) (b : Body), hostPacket i = some (dt, { hdr := h, body := b }) →
    powered s = true → reads s = true → s.cmd.unread = [] → ∀ status detail, dispatchCheck s { hdr := h, body := b } = some (status, detail) →
    (((tagHeld h.tag s).isSome = true ∧ headerFormatOk h = true ∧ seqOk s h = true ∧ assigned b = true ∧ (h.target = 0 → modeServes s b = true)
        ∧ (h.target = 0 ∨ h.target = 1 ∧ standbyQ b = true) ∧ (h.target = 0 ∨ partnerReachable s = true)) →
      Completes i s fun t => (∃ r, t.cmd.waiting = s.cmd.waiting ++ [r] ∧ r.tag = h.tag ∧ r.status = 0x0007) ∧ t.cmd.results = s.cmd.results)
    ∧ (status ∈ [0x0001, 0x000D, 0x0003, 0x0005, 0x0004, 0x0A02] →
        Completes i s fun t => ∃ r, t.cmd.waiting = s.cmd.waiting ++ [r] ∧ r.tag = h.tag ∧ r.status = status
          ∧ (if (tagHeld h.tag s).isSome = true then t.cmd.results = s.cmd.results
            else (tagHeld h.tag t).bind ResEntry.reply = some r))

/-- The fast-path opcodes of the dispatcher itself, each read, accepted and answered at once. STATUS_QUERY returns the six status registers and the house frame. ECHO returns the time at which the command arrived. TAG_QUERY returns TAG_UNKNOWN for a tag not held, PENDING without a result for a pending one, and for a completed one its status and the 64 bytes of its reply descriptor, the same at every query. TAG_RETIRE frees a completed tag, leaves a pending one and answers PENDING, answers TAG_UNKNOWN for one not held, and with ALL frees every completed one. None of them changes anything outside the dispatcher's own state. -/
def Obligations.FastPathQueriesAnswerAtOnce : Prop :=
  (∀ dt h s, Ready h .statusQuery s → Completes (.statusQuery dt h) s (AnswersWith dt h .statusQuery 0
      [(4, (rd s Reg.planState).toNat), (4, (rd s Reg.pairStatus).toNat), (4, (rd s Reg.pairClaim).toNat), (4, (takeStatusNow s).toNat),
        (4, (rd s Reg.cmdStatus).toNat), (4, (rd s Reg.refStatus).toNat), (8, houseFrame (tick dt s))] s))
  ∧ (∀ dt h s, Ready h .echo s → Completes (.echo dt h) s (AnswersWith dt h .echo 0
      [(8, (s.now + dt) / 297000000000), (4, (s.now + dt) % 297000000000 / 297), (2, (s.now + dt) % 297 * 65536 / 297), (2, 0)] s))
  ∧ (∀ dt h tag s, Ready h (.tagQuery tag) s →
      (tagHeld tag (taken h s) = none → Completes (.tagQuery dt h tag) s (AnswersWith dt h (.tagQuery tag) 0x0008 [] s))
      ∧ (∀ e, tagHeld tag (taken h s) = some e → e.reply = none → Completes (.tagQuery dt h tag) s (AnswersWith dt h (.tagQuery tag) 0x0002 [] s))
      ∧ (∀ e, tagHeld tag (taken h s) = some e → ∀ r, e.reply = some r →
          Completes (.tagQuery dt h tag) s (AnswersWith dt h (.tagQuery tag) r.status (descriptor r e.phase) s)))
  ∧ (∀ dt h tag flags s, Ready h (.tagRetire tag flags) s →
      (flags % 2 = 1 → Completes (.tagRetire dt h tag flags) s fun t => AnswersWith dt h (.tagRetire tag flags) 0 [] s t
        ∧ (∀ e ∈ t.cmd.results, e.tag ≠ h.tag → e.reply = none)
        ∧ ∀ e ∈ (taken h s).cmd.results, e.reply = none → e.tag ≠ h.tag → e ∈ t.cmd.results)
      ∧ (flags % 2 = 0 → tagHeld tag (taken h s) = none → Completes (.tagRetire dt h tag flags) s (AnswersWith dt h (.tagRetire tag flags) 0x0008 [] s))
      ∧ (∀ e, tagHeld tag (taken h s) = some e → flags % 2 = 0 → e.reply = none →
          Completes (.tagRetire dt h tag flags) s fun t => AnswersWith dt h (.tagRetire tag flags) 0x0002 [] s t ∧ (tag ≠ h.tag → tagHeld tag t = some e))
      ∧ (∀ e, tagHeld tag (taken h s) = some e → ∀ r, e.reply = some r → flags % 2 = 0 →
          Completes (.tagRetire dt h tag flags) s fun t => AnswersWith dt h (.tagRetire tag flags) 0 [] s t ∧ tagHeld tag t = none))

/-- CMD_TAIL_WRITE, REPLY_WRITE, REPLY_HEAD_WRITE, FW_COMMAND_TAKE and RELAYED_REPLY. While the dispatcher does not read, a doorbell moves CMD_TAIL and the announced entries wait in order; while it reads, a doorbell that announces one descriptor past CMD_TAIL has the effect of the descriptor's own row. A waiting completion goes into the entry at REPLY_TAIL of an open ring with room, with PHASE 1 on odd passes, and REPLY_TAIL moves to the next entry, a wrap counting a pass; without room it waits. REPLY_HEAD takes the value written. The firmware takes the oldest command of its queue, or leaves it while it cannot serve it. The partner's reply to a relayed command is written with RELAYED, the partner's status and frame, and enters the result table; when the mirror link has left RUN first, the command completes with PAIR_NO_PARTNER. -/
def Obligations.RingsMoveCommandsAndReplies : Prop :=
  (∀ dt tail ring s, powered s = true → reads s = false → Completes (.cmdTailWrite dt tail ring) s fun t =>
      t = { tick dt s with regs := t.regs, cmd := { s.cmd with unread := s.cmd.unread ++ ring } } ∧ RegsBut [Reg.cmdTail] s t
        ∧ getF t Reg.cmdTail 0 12 = tail % 4096)
  ∧ (∀ i s dt h b, hostPacket i = some (dt, { hdr := h, body := b }) → powered s = true → reads s = true →
      Completes (.cmdTailWrite dt ((getF s Reg.cmdTail 0 12 + 1) % ringSize s 0) [.packet { hdr := h, body := b }]) s fun t => exec i s = .next t)
  ∧ (∀ dt s, powered s = true → s.cmd.unread = [] → ∀ r rest, s.cmd.waiting = r :: rest → replyOpen s = true → replyRoom s = true →
      Completes (.replyWrite dt) s fun t => tabFind (getF s Reg.replyTail 0 12) t.cmd.ring = some (r, decide (s.cmd.replyPass % 2 = 1))
        ∧ t.cmd.waiting = rest ∧ getF t Reg.replyTail 0 12 = (getF s Reg.replyTail 0 12 + 1) % ringSize s 4
        ∧ t.cmd.replyPass = s.cmd.replyPass + (if (getF s Reg.replyTail 0 12 + 1) % ringSize s 4 = 0 then 1 else 0)
        ∧ (rest.length < 8192 → getB t Reg.cmdStatus 2 = false)
        ∧ t = { tick dt s with regs := t.regs, evq := t.evq, cmd := { s.cmd with waiting := rest, ring := t.cmd.ring, replyPass := t.cmd.replyPass } }
        ∧ RegsBut [Reg.replyTail, Reg.cmdStatus] s t)
  ∧ (∀ dt s, powered s = true → s.cmd.unread = [] → replyOpen s = false ∨ replyRoom s = false ∨ s.cmd.waiting = [] →
      Completes (.replyWrite dt) s fun t => t = tick dt s)
  ∧ (∀ dt head s, powered s = true → s.cmd.unread = [] → s.cmd.waiting = [] → Completes (.replyHeadWrite dt head) s fun t =>
      getF t Reg.replyHead 0 12 = head % 4096 ∧ t.cmd = { s.cmd with headFresh := true }
        ∧ (Src.replyRing ∈ t.evq.level ↔ getF s Reg.replyTail 0 12 ≠ head % 4096)
        ∧ t = { tick dt s with regs := t.regs, cmd := t.cmd, evq := t.evq } ∧ RegsBut [Reg.replyHead] s t)
  ∧ (∀ dt s, powered s = true → ∀ c rest, s.cmd.fwq = c :: rest → fwServes c.pkt.body s = true →
      Completes (.fwCommandTake dt) s fun t => t = fwExecute c { tick dt s with cmd := { s.cmd with fwq := rest } })
  ∧ (∀ dt s, powered s = true → ∀ c rest, s.cmd.fwq = c :: rest → fwServes c.pkt.body s = false → Completes (.fwCommandTake dt) s fun t => t = tick dt s)
  ∧ (∀ dt s (x : RelayReply), powered s = true → ∀ c, (s.cmd.relayed.find? fun c => decide (c.pkt.hdr.tag = x.tag)) = some c →
      Completes (.relayedReply dt (some x)) s fun t => ∃ r, t.cmd.waiting = s.cmd.waiting ++ [r] ∧ r.tag = x.tag ∧ r.status = x.status
        ∧ r.frame = x.frame ∧ r.detail = x.detail ∧ r.relayed = true ∧ (tagHeld x.tag t).bind ResEntry.reply = some r
        ∧ t.cmd.relayed = s.cmd.relayed.filter (fun z => decide (z.pkt.hdr.tag ≠ x.tag))
        ∧ t = { tick dt s with regs := t.regs, cmd := t.cmd } ∧ RegsBut [Reg.cmdStatus] s t)
  ∧ (∀ dt s, powered s = true → linkRun s 72 = false → ∀ c, s.cmd.relayed = [c] → c.origin = .host → Completes (.relayedReply dt none) s fun t =>
      (∃ r, t.cmd.waiting = s.cmd.waiting ++ [r] ∧ r.tag = c.pkt.hdr.tag ∧ r.status = 0x0A02) ∧ t.cmd.relayed = []
        ∧ t = { tick dt s with regs := t.regs, cmd := t.cmd } ∧ RegsBut [Reg.cmdStatus] s t)

/-- R631 and R600, in a unit with nothing waiting for its rings. CMD_EN_WRITE sets both enables and changes no other register. CMD_CTRL_RESET with both enables 0 before and in the write clears every head and tail, the pass counts and the SEQ expectation, and keeps the result table; otherwise it sets REFUSED, clears nothing, and the enables take the values written. CMD_RING_CONFIG_WRITE of a base sets the register while its ring pair is disabled, and otherwise changes only REFUSED. A write of CMD_RING_SIZE sets the fields of the disabled pairs, keeps those of the enabled ones, and sets REFUSED when a pair is enabled. -/
def Obligations.RingRegistersGuardTheirRings : Prop :=
  let quiet := fun (s : State) => s.cmd.waiting = [] ∧ s.cmd.unread = []
  (∀ dt cmdEn s, powered s = true → quiet s → Completes (.cmdEnWrite dt cmdEn false) s fun t =>
      getB t Reg.cmdCtrl 0 = cmdEn ∧ getB t Reg.cmdCtrl 1 = false ∧ RegsOnly [Reg.cmdCtrl] dt s t)
  ∧ (∀ dt cmdEn s, powered s = true → quiet s → (∀ g, (ethTrack s g).hostq = []) → Completes (.cmdEnWrite dt cmdEn true) s fun t =>
      getB t Reg.cmdCtrl 0 = cmdEn ∧ getB t Reg.cmdCtrl 1 = true ∧ RegsBut [Reg.cmdCtrl] s t
        ∧ t = { tick dt s with regs := t.regs, free := t.free })
  ∧ (∀ dt s, powered s = true → s.cmd.waiting = [] → getB s Reg.cmdCtrl 0 = false → getB s Reg.cmdCtrl 1 = false →
      Completes (.cmdCtrlReset dt false false) s fun t =>
        (∀ a ∈ [Reg.cmdTail, Reg.cmdHead, Reg.replyHead, Reg.replyTail, Reg.htxTail, Reg.htxHead, Reg.hrxTail, Reg.hrxHead], rd t a = 0)
          ∧ t.cmd = { s.cmd with expSeq := none, replyPass := 1, hrxPass := 1, unread := [], htx := [] }
          ∧ getB t Reg.cmdCtrl 0 = false ∧ getB t Reg.cmdCtrl 1 = false
          ∧ t = { tick dt s with regs := t.regs, cmd := t.cmd, evq := t.evq }
          ∧ RegsBut [Reg.cmdCtrl, Reg.cmdTail, Reg.cmdHead, Reg.replyHead, Reg.replyTail, Reg.htxTail, Reg.htxHead, Reg.hrxTail, Reg.hrxHead] s t)
  ∧ (∀ dt cmdEn s, powered s = true → quiet s → getB s Reg.cmdCtrl 0 = true ∨ getB s Reg.cmdCtrl 1 = true ∨ cmdEn = true →
      Completes (.cmdCtrlReset dt cmdEn false) s fun t => getB t Reg.cmdStatus 7 = true ∧ getB t Reg.cmdCtrl 0 = cmdEn
        ∧ getB t Reg.cmdCtrl 1 = false ∧ RegsOnly [Reg.cmdCtrl, Reg.cmdStatus] dt s t)
  ∧ (∀ dt (offset : Nat) (value : Word) s, powered s = true → 8 ≤ offset → offset ≤ 0x24 → offset % 4 = 0 →
      Completes (.cmdRingConfigWrite dt offset value) s fun t =>
        if getB s Reg.cmdCtrl (if offset < 0x18 then 0 else 1) = true then getB t Reg.cmdStatus 7 = true ∧ RegsOnly [Reg.cmdStatus] dt s t
        else rd t (Reg.cmdCtrl + offset) = value ∧ RegsOnly [Reg.cmdCtrl + offset] dt s t)
  ∧ (∀ dt (value : Word) s, powered s = true → Completes (.cmdRingConfigWrite dt 0x28 value) s fun t =>
      getF t Reg.cmdRingSize 0 8 = (if getB s Reg.cmdCtrl 0 = true then getF s Reg.cmdRingSize 0 8 else fld value 0 8)
        ∧ getF t Reg.cmdRingSize 8 8 = (if getB s Reg.cmdCtrl 1 = true then getF s Reg.cmdRingSize 8 8 else fld value 8 8)
        ∧ getF t Reg.cmdRingSize 16 16 = getF s Reg.cmdRingSize 16 16
        ∧ ((getB s Reg.cmdCtrl 0 = true ∨ getB s Reg.cmdCtrl 1 = true) → getB t Reg.cmdStatus 7 = true)
        ∧ RegsOnly [Reg.cmdRingSize, Reg.cmdStatus] dt s t)

/-- R816. When the read of the next command ring entry fails, CMD_HEAD advances past it and it completes with CMD_DMA; the reply carries OPCODE, TAG and SEQ zero and does not enter the result table; the expected SEQ, where one is held, advances by one; DMA_ERR_SEEN is set; CMD_REFUSED counts the entry; nothing else changes. -/
def Obligations.UnreadableEntryCompletesWithDmaError : Prop :=
  ∀ dt s, powered s = true → reads s = true → s.cmd.unread = [] → Completes (.descriptorReadError dt) s fun t =>
    (∃ r, t.cmd.waiting = s.cmd.waiting ++ [r] ∧ r.opcode = 0 ∧ r.tag = 0 ∧ r.seq = 0 ∧ r.status = 0x000C ∧ r.result = [])
      ∧ t.cmd.results = s.cmd.results ∧ t.cmd.expSeq = s.cmd.expSeq.map (fun e => (e + 1) % 2 ^ 32)
      ∧ getF t Reg.cmdHead 0 12 = (getF s Reg.cmdHead 0 12 + 1) % ringSize s 0
      ∧ getF t Reg.cmdTail 0 12 = (getF s Reg.cmdTail 0 12 + 1) % ringSize s 0
      ∧ getB t Reg.cmdStatus 4 = true ∧ (rd t Reg.cmdRefused).toNat = min (2 ^ 32 - 1) ((rd s Reg.cmdRefused).toNat + 1)
      ∧ t = { tick dt s with regs := t.regs, cmd := { s.cmd with waiting := t.cmd.waiting, expSeq := t.cmd.expSeq } }
      ∧ RegsBut [Reg.cmdTail, Reg.cmdHead, Reg.cmdRefused, Reg.cmdStatus] s t

/-! ## Supplies, start and firmware (18_start_and_update.md, 21_supplies_and_thermal.md) -/

/-- COLD_START. With VDD_LINE good, at a rise of PWR_GOOD with RESET_N high, or a rise of RESET_N with PWR_GOOD high, the logic side starts from cleared: the firmware banks and the staging area, the plan, HBM, the result table and the rings, takes, flows, engines, the pair and the service state are as at reset, every register of a quadrant is at its reset value, the boot ROM serves, mode Id 0 is in force, STAGING_READY is set, and the time of the timebase counts from 0. RESCUE_N low, or START_FAILS at 3, starts RESCUE instead: mode 6. HBM stack 0 has its boot training (R659 by 04_frame_stores.md R198), and the rows that repair has replaced stay replaced. KEY_OK is set exactly where the device certificate of OTP carries the public key of the private key that the PUF gives, and CERT_OK where it parses and its serial number is the unit's (R690, R691). OTP, the flash and the cages of the line side are as before, and the straps are those sampled. That the time starts from 0 and that STAGING_READY is set at once are the model's choices (log 31, log 101). -/
def Obligations.ColdStartClearsTheLogicSide : Prop :=
  ∀ dt cause pairSel rescueN puf s, s.pins.vddLine = true →
    (cause = .powerUp → s.pins.resetN = true) → (cause = .resetN → s.pins.pwrGood = true) →
    Completes (.coldStart dt cause pairSel rescueN puf) s fun t =>
      powered t = true ∧ t.now = 0 ∧ t.mono = s.mono + dt
        ∧ t.plan = plan0 ∧ t.cmd = cmd0 ∧ t.fw = fw0 ∧ t.mem = { mem0 with repaired := s.mem.repaired } ∧ t.take = take0 ∧ t.sched = [] ∧ t.comp = comp0 ∧ t.aud = aud0
        ∧ t.ibx = ibx0 ∧ t.pair = pair0 ∧ t.svc = svc0 ∧ t.flow = State.reset.flow ∧ t.trk = State.reset.trk ∧ t.port = State.reset.port
        ∧ (∀ a, a < 0x400000 → a ≠ Reg.memStatus 0 → AtReset a t) ∧ getB t (Reg.memStatus 0) 0 = true
        ∧ getF t Reg.cmdStatus 0 2 = 0 ∧ getB t Reg.fwStatus 7 = true ∧ t.sec = { s.sec with key := puf }
        ∧ (getB t Reg.idStatus 0 = true ↔ ∃ c, certParse s.otp.cert = some c ∧ c.key = ecPublic puf)
        ∧ (getB t Reg.idStatus 1 = true ↔ ∃ c, certParse s.otp.cert = some c ∧ c.serial = s.otp.serial)
        ∧ getB t Reg.pairStatus 10 = pairSel ∧ t.pins.pairSel = pairSel ∧ t.pins.rescueN = rescueN
        ∧ (if rescueN = false ∨ 3 ≤ getF s Reg.fwBoot 0 2 then modeNow t = 6 ∧ getF t Reg.fwStatus 0 3 = 5 ∧ getF t Reg.fwBoot 0 2 = 0
          else modeNow t = 0 ∧ getF t Reg.fwStatus 0 3 = 1 ∧ getF t Reg.fwBoot 0 2 = getF s Reg.fwBoot 0 2)
        ∧ t.otp = s.otp ∧ t.flash = s.flash ∧ t.mods.cages = s.mods.cages ∧ t.pending = s.pending

/-- PWR_GOOD_FALL stops the logic side, takes the PCIe link down and saves the event state; VDD_LINE_FALL leaves every register, of the line side too, at its reset value; VDD_LINE_RISE starts the line side with the flash that is fitted and leaves the rest; RESET_N_ASSERTED clears a powered logic side and holds it. With no write of the flash or of OTP under way, none of them touches OTP, and none but VDD_LINE_RISE the flash; a write under way is cut off by the first three (R683), and OTP then still only gains. -/
def Obligations.SuppliesAndResetStopTheLogicSide : Prop :=
  let kept := fun (s t : State) => OtpKept s.otp t.otp ∧ (s.flash.ops = [] → t.flash = s.flash) ∧ (s.otp.rising = [] → t.otp = s.otp)
  (∀ dt s, s.pins.vddLine = true → s.pins.pwrGood = true → Completes (.pwrGoodFall dt) s fun t =>
      powered t = false ∧ t.pins = { s.pins with pwrGood := false, pcieUp := false } ∧ t.evq.lineSaved = true
        ∧ t = { tick dt s with regs := t.regs, evq := t.evq, pins := t.pins, otp := t.otp, flash := t.flash } ∧ kept s t ∧ RegsBut [Reg.pwrQuad, Reg.cmdStatus] s t)
  ∧ (∀ dt s, s.pins.vddLine = true → s.pins.pwrGood = false → Completes (.pwrGoodFall dt) s fun t => t = tick dt s)
  ∧ (∀ dt s, s.pins.vddLine = true → Completes (.vddLineFall dt) s fun t =>
      powered t = false ∧ t.pins.vddLine = false ∧ (∀ a, AtReset a t) ∧ t.therm = therm0 ∧ t.mods = State.reset.mods
        ∧ kept s t ∧ t.pending = s.pending)
  ∧ (∀ dt mib s, s.pins.vddLine = false → Completes (.vddLineRise dt mib) s fun t =>
      t = { tick dt s with pins := { s.pins with vddLine := true }, flash := { s.flash with mib := mib } })
  ∧ (∀ dt s, powered s = true → Completes (.resetNAsserted dt) s fun t =>
      powered t = false ∧ t.pins = { s.pins with resetN := false, pcieUp := false } ∧ t.plan = plan0 ∧ t.cmd = cmd0 ∧ t.fw = fw0 ∧ t.mem = { mem0 with repaired := s.mem.repaired }
        ∧ t.mods.cages = s.mods.cages ∧ kept s t ∧ (∀ a, a < 0x400000 → AtReset a t)
        ∧ rd t Reg.fwBoot = rd s Reg.fwBoot)

/-- R663 with the mark of R664. An accepted FW_LOAD clears the verified mark. With a bundle staged it answers FW_FORMAT where the format rules of R660 and R661 fail or FLOOR is above VERSION, else FW_VARIANT where VARIANT is not 0x00B1, else FW_SIGNATURE where a section digest is not the SHA-384 of the section's bytes or the ECDSA signature does not verify under the ROM key that KEY_ID names, else FW_ROLLBACK where VERSION is below the OTP floor; else it answers OK with VERSION and the digest, and STAGED_OK and FW_VER_STAGED show the verified bundle. An empty staging area has no bundle header: FW_FORMAT. -/
def Obligations.FwLoadStopsAtTheFirstFailure : Prop :=
  let formatOk := fun (i : FwImage) (len : Nat) => i.magic = 0x4257465A ∧ i.fmtMajor = 1 ∧ i.hdrLen = 256 ∧ i.bundleLen = len ∧ i.reservedZero = true
    ∧ len ≤ 48 * 2 ^ 20 ∧ i.sectionCount = 5 ∧ i.sections.length = 5 ∧ i.sectTableOfs % 64 = 0 ∧ 256 ≤ i.sectTableOfs ∧ i.sectTableOfs + 320 ≤ i.sigOfs
    ∧ i.sigLen = 112 ∧ i.sigOfs + 112 ≤ len ∧ i.keyId < 4 ∧ (∀ k ∈ [1, 2, 3, 4, 5], (i.sections.filter fun x => decide (x.type = k)).length = 1)
    ∧ (∀ x ∈ i.sections, fwSectionOk i x = true) ∧ fwDisjoint i.sections = true ∧ i.floor ≤ i.version
  let status := fun (s : State) (i : FwImage) (len floor : Nat) => if ¬ formatOk i len then 0x0101 else if i.variant ≠ 0x00B1 then 0x0102
    else if ¬ ((∀ x ∈ i.sections, x.digest = sha384 x.length (x.bytes % 2 ^ (8 * x.length)))
        ∧ (nth? s.sec.fwKeys i.keyId).any (fun k => ecdsaOver k i.sigR i.sigS i.digest) = true) then 0x0103 else if i.version < floor then 0x0104 else 0
  ∀ dt h len s, Ready h (.fwLoad len) s →
    (s.fw.staging = none → Completes (.fwLoad dt h len) s fun t => Answered h (.fwLoad len) 0x0101 0 (houseFrame (tick dt s)) [] s t
        ∧ t.fw.staged = none ∧ getB t Reg.fwStatus 6 = false)
    ∧ (∀ i, s.fw.staging = some i → Completes (.fwLoad dt h len) s fun t =>
        (if status s i len (otpFloor (tick dt s)) = 0 then
            Answered h (.fwLoad len) 0 0 (houseFrame (tick dt s)) [(4, i.version), (48, i.digest)] s t ∧ t.fw.staged = some i
              ∧ getB t Reg.fwStatus 6 = true ∧ rd t Reg.fwVerStaged = BitVec.ofNat 32 i.version
          else Answered h (.fwLoad len) (status s i len (otpFloor (tick dt s))) 0 (houseFrame (tick dt s)) [] s t ∧ t.fw.staged = none
              ∧ getB t Reg.fwStatus 6 = false ∧ rd t Reg.fwVerStaged = 0)
          ∧ t = { tick dt s with regs := t.regs, cmd := t.cmd, fw := { s.fw with staged := t.fw.staged } }
          ∧ RegsBut ([Reg.fwStatus, Reg.fwVerStaged] ++ (List.range 12).map Reg.fwDigestStaged ++ ringRegs) s t)

/-- FW_ACTIVATE needs a verified bundle (FW_NONE) that still has its digests; otherwise it waits while the firmware is away: SERVER 2, FW_AWAY set, the window 120 s for WINDOW 0, and the target the bank that is not running, or A with no firmware running. FW_RESTART waits likewise, with the running bank as target. FW_CONFIRM of an unconfirmed firmware writes the OTP floor up to its FLOOR where that is higher, over an open time (log 30), clears START_FAILS, sets CONFIRMED, ends the window and answers OK; of a confirmed one it answers FW_NOT_PENDING and changes nothing. -/
def Obligations.FirmwareCommandsRestartAndConfirm : Prop :=
  let away := fun (cause : Nat) (t : State) => getF t Reg.cmdStatus 0 2 = 2 ∧ getB t Reg.planState 15 = true ∧ getF t Reg.fwStatus 0 3 = 3
    ∧ getF t Reg.fwBoot 4 4 = cause
  (∀ dt h window s, Ready h (.fwActivate window) s →
      (s.fw.staged = none → Completes (.fwActivate dt h window) s (AnswersWith dt h (.fwActivate window) 0x0105 [] s))
      ∧ (∀ i, s.fw.staged = some i → stagingIntact s = true → s.pins.rescueN = true → Completes (.fwActivate dt h window) s fun t =>
          Waits h s t ∧ away 2 t ∧ t.fw.windowEnd = none
            ∧ t.fw.target = (decide (getF s Reg.cmdStatus 0 2 ≠ 0) && !getB s Reg.fwStatus 3)
            ∧ (if t.fw.target = true then t.fw.bankB = some i ∧ t.fw.bankA = s.fw.bankA else t.fw.bankA = some i ∧ t.fw.bankB = s.fw.bankB)
            ∧ t.fw.act.map Activation.window = some (if window = 0 then 120 else window) ∧ t.otp = s.otp ∧ t.flash = s.flash))
  ∧ (∀ dt h s, Ready h .fwRestart s → Completes (.fwRestart dt h) s fun t =>
      Waits h s t ∧ away 3 t ∧ t.fw.target = getB s Reg.fwStatus 3 ∧ t.fw.restart.map (fun c => c.pkt.hdr) = some h ∧ t.otp = s.otp ∧ t.flash = s.flash)
  ∧ (∀ dt h s, Ready h .fwConfirm s →
      (getB s Reg.fwStatus 4 = true → Completes (.fwConfirm dt h) s (AnswersWith dt h .fwConfirm 0x0106 [] s))
      ∧ (getB s Reg.fwStatus 4 = false → Completes (.fwConfirm dt h) s fun t =>
          Answered h .fwConfirm 0 0 (houseFrame (tick dt s)) [] s t ∧ getB t Reg.fwStatus 4 = true ∧ getF t Reg.fwBoot 0 2 = 0
            ∧ t.fw = { s.fw with windowEnd := none }
            ∧ (∀ i, runImage s = some i → s.otp.rising = [] → if i.floor ≤ s.otp.floor then t.otp = s.otp
                else ∃ e, s.mono + dt ≤ e ∧ t.otp = { s.otp with rising := [(e, i.floor)] }) ∧ OtpKept s.otp t.otp
            ∧ (flashOk s = true → slotConfirmed t.flash.slotA ≠ slotConfirmed t.flash.slotB)
            ∧ t = { tick dt s with regs := t.regs, cmd := t.cmd, evq := t.evq, fw := t.fw, otp := t.otp, flash := t.flash, free := t.free }
            ∧ RegsBut ([Reg.fwStatus, Reg.fwBoot, Reg.setStatus] ++ ringRegs) s t))

/-- START_OK of a firmware that was away: SERVER 1, FW_AWAY cleared, STAGE 4 with START_OK set, FW_VER_RUN names the bundle of the target bank, RESCUE ends in mode 0, and the FW_ACTIVATE whose bank this is has its OK reply among the waiting replies. START_OK_TIMEOUT counts one more start failure, up to 3: after a warm activation the old bank is the target again with FALLBACK_SEEN set, and after a start from the boot ROM the ROM serves alone and the FW_ACTIVATE is answered FW_ABORTED. CONFIRM_WINDOW_EXPIRY of an unconfirmed firmware counts a failure likewise and sends a warm one into the other bank. SUPERVISOR_LOCKSTEP_FAIL restarts the running bank, and counts a failure only while the firmware is away. -/
def Obligations.FirmwareStartsEndAsTheManualSays : Prop :=
  let away := fun (t : State) => getF t Reg.cmdStatus 0 2 = 2 ∧ getB t Reg.planState 15 = true
  (∀ dt accepts s, powered s = true → getF s Reg.cmdStatus 0 2 = 2 → keepAlive s 92 = false → s.svc.tests = [] → ∀ i, bankImage s s.fw.target = some i →
      Completes (.startOk dt accepts) s fun t => getF t Reg.cmdStatus 0 2 = 1 ∧ getB t Reg.planState 15 = false ∧ getF t Reg.fwStatus 0 3 = 4
        ∧ getB t Reg.fwStatus 5 = true ∧ getB t Reg.fwStatus 3 = s.fw.target ∧ rd t Reg.fwVerRun = BitVec.ofNat 32 i.version
        ∧ t.fw.act = none ∧ t.fw.restart = none ∧ t.fw.owed = [] ∧ modeNow t ≠ 6
        ∧ (∀ a, s.fw.act = some a → a.cmd.origin = .host → b2n s.fw.target = a.bank →
            ∃ r, r ∈ t.cmd.waiting ∧ r.tag = a.cmd.pkt.hdr.tag ∧ r.status = 0))
  ∧ (∀ dt s, powered s = true → getF s Reg.cmdStatus 0 2 = 2 → s.svc.tests = [] → ∀ a, s.fw.act = some a → b2n s.fw.target = a.bank →
      (a.cold = false → (bankImage s (!s.fw.target)).isSome = true → Completes (.startOkTimeout dt) s fun t =>
          away t ∧ getF t Reg.fwBoot 0 2 = min 3 (getF s Reg.fwBoot 0 2 + 1) ∧ getB t Reg.fwStatus 8 = true ∧ t.fw.target = !s.fw.target
            ∧ t.plan = s.plan ∧ t.otp = s.otp)
      ∧ (a.cold = true → modeNow s ≠ 6 → s.fw.restart = none → a.cmd.origin = .host → s.cmd.fwq = [] → Completes (.startOkTimeout dt) s fun t =>
          getF t Reg.cmdStatus 0 2 = 0 ∧ getB t Reg.planState 15 = false ∧ getF t Reg.fwBoot 0 2 = min 3 (getF s Reg.fwBoot 0 2 + 1)
            ∧ (∃ r, t.cmd.waiting = s.cmd.waiting ++ [r] ∧ r.tag = a.cmd.pkt.hdr.tag ∧ r.status = 0x000B) ∧ t.plan = s.plan ∧ t.otp = s.otp))
  ∧ (∀ dt s, powered s = true → getB s Reg.fwStatus 4 = false → s.fw.warm = true → (bankImage s (!getB s Reg.fwStatus 3)).isSome = true →
      ∀ e, s.fw.windowEnd = some e → e ≤ s.mono + dt → Completes (.confirmWindowExpiry dt) s fun t =>
        away t ∧ getF t Reg.fwBoot 0 2 = min 3 (getF s Reg.fwBoot 0 2 + 1) ∧ getB t Reg.fwStatus 8 = true
          ∧ t.fw.target = !getB s Reg.fwStatus 3 ∧ t.fw.windowEnd = none ∧ t.otp = s.otp)
  ∧ (∀ dt s, powered s = true → s.fw.windowEnd = none → Completes (.confirmWindowExpiry dt) s fun t => t = tick dt s)
  ∧ (∀ dt s, powered s = true → getF s Reg.cmdStatus 0 2 = 1 → Completes (.supervisorLockstepFail dt) s fun t =>
      away t ∧ getF t Reg.fwBoot 4 4 = 4 ∧ getF t Reg.fwBoot 0 2 = getF s Reg.fwBoot 0 2 ∧ t.fw.target = getB s Reg.fwStatus 3 ∧ t.otp = s.otp)
  ∧ (∀ dt s, powered s = true → getF s Reg.cmdStatus 0 2 = 2 → Completes (.supervisorLockstepFail dt) s fun t =>
      getF t Reg.fwBoot 0 2 = min 3 (getF s Reg.fwBoot 0 2 + 1) ∧ getF t Reg.fwBoot 4 4 = 4)

/-! ## Identity (19_identity.md) -/

/-- Where the dispatcher is ready for them, each of the four completes. FW_QUERY answers OK with the running, ROM and staged versions, the anti-rollback floor, the bank, CONFIRMED, zero, and the seconds left of the confirmation window, rounded up (the rounding is the model’s, log 223), 0 where there is no window or the firmware is confirmed. ID_INFO answers OK with the serial number, VARIANT 0x00B1, the floor, one bit for each owner slot in use, the policy bits and zeros. ID_CERT_READ answers OK with the bytes of the device certificate, at most 2,048. ID_ATTEST with KEY_OK answers OK with the 264 bytes of R704, the statement sampled at the command and an ECDSA signature of its first 168 bytes with the device key, whose random number is open (log 3), and ID_ATTESTS counts it; with KEY_OK 0 it is refused with CMD_MODE. None changes anything else. -/
def Obligations.IdentityQueriesAnswer : Prop :=
  let policy := fun (s : State) => b2n s.otp.ownerOnly + b2n s.fw.settings.allowOn * 2
  let bits := fun (s : State) (p : OwnerSlot → Bool) => b2n (p (ownerSlot s 0)) + b2n (p (ownerSlot s 1)) * 2 + b2n (p (ownerSlot s 2)) * 4 + b2n (p (ownerSlot s 3)) * 8
  let used := fun (x : OwnerSlot) => decide (x.hash ≠ 0) || x.valid || x.revoked
  let left := fun (u : State) => match u.fw.windowEnd with
    | some e => if getB u Reg.fwStatus 4 = true then 0 else (e - u.mono + (tickSec - 1)) / tickSec
    | none => 0
  let flags := fun (s : State) => b2n (getB s Reg.fwStatus 4) + b2n (getB s Reg.planState 12) * 2 + b2n (getB s Reg.pairStatus 0) * 4 + b2n (getB s Reg.pairStatus 1) * 8
  (∀ dt h s, Ready h .fwQuery s → Completes (.fwQuery dt h) s (AnswersWith dt h .fwQuery 0
      [(4, (rd s Reg.fwVerRun).toNat), (4, s.sec.romVersion % 2 ^ 32), (4, (rd s Reg.fwVerStaged).toNat), (4, otpFloor (tick dt s)),
        (1, b2n (getB s Reg.fwStatus 3)), (1, b2n (getB s Reg.fwStatus 4)), (2, 0), (4, left (tick dt s))] s))
  ∧ (∀ dt h s, Ready h .idCertRead s → s.otp.cert.length ≤ 2048 → Completes (.idCertRead dt h) s (AnswersWith dt h .idCertRead 0 [(s.otp.cert.length, bytesNum s.otp.cert)] s))
  ∧ (∀ dt h s, Ready h .idCertRead s → 2048 < s.otp.cert.length → Completes (.idCertRead dt h) s (AnswersWith dt h .idCertRead 0 [(2048, bytesNum (s.otp.cert.take 2048))] s))
  ∧ (∀ dt h s, Ready h .idInfo s → Completes (.idInfo dt h) s (AnswersWith dt h .idInfo 0
      [(8, s.otp.serial), (2, 0x00B1), (2, 0), (4, otpFloor (tick dt s)), (1, bits s used), (1, policy s), (2, 0)] s))
  ∧ (∀ dt h nonce s, Ready h (.idAttest nonce) s →
      (getB s Reg.idStatus 0 = false → Completes (.idAttest dt h nonce) s (AnswersWith dt h (.idAttest nonce) 0x0005 [] s))
      ∧ (getB s Reg.idStatus 0 = true → Completes (.idAttest dt h nonce) s fun t =>
          let body := [(4, 0x5441535A), (2, 1), (2, 0x00B1), (8, s.otp.serial), (4, (rd s Reg.fwVerRun).toNat), (4, otpFloor (tick dt s)), (1, modeNow s),
            (1, flags s), (1, policy s), (1, bits s (fun x => x.valid && !x.revoked) + bits s (fun x => x.revoked) * 16), (4, (rd s Reg.planPatchGen).toNat),
            (8, houseFrame (tick dt s)), (32, nonce), (48, digestOf s (Reg.fwDigestRun 0)), (48, digestOf s (Reg.planDigestCommitted 0))]
          (∃ k, let sig := ecdsaSign s.sec.key k (sha384 168 (packLe body))
            Answered h (.idAttest nonce) 0 0 (houseFrame (tick dt s)) (body ++ [(48, revBytes 48 sig.1), (48, revBytes 48 sig.2)]) s t)
          ∧ (rd t Reg.idAttests).toNat = min (2 ^ 32 - 1) ((rd s Reg.idAttests).toNat + 1)
          ∧ t = { tick dt s with regs := t.regs, cmd := t.cmd, free := t.free } ∧ RegsBut (Reg.idAttests :: ringRegs) s t))

/-- R695 and R697. ID_OWNER_KEY with a hash other than 48 bytes of 0xFF: into a slot with no bit set it programs the hash and VALID and answers OK, and otherwise it is refused with ID_SLOT_USED. With the revoking hash it sets every hash bit and REVOKED of the slot, always possible unless owner-signed plans only is set and no other slot would stay valid, where it is refused with ID_RANGE. A SLOT above 3 is refused with ID_RANGE. ID_POLICY_SET with bit 0 while no slot is valid is refused with ID_RANGE; otherwise bit 0 sets the OTP bit and, written as 0, leaves it; bit 1 becomes the allowlist policy of the settings. Where the OTP write fails the command ends with ID_OTP_FAIL, and no bit is ever cleared. -/
def Obligations.OwnerKeysAndPolicyAreGuarded : Prop :=
  let good := fun (s : State) (n : Nat) => (ownerSlot s n).valid = true ∧ (ownerSlot s n).revoked = false
  (∀ dt h slot hash ok s, Ready h (.idOwnerKey slot hash ok) s → s.otp.slots.length = 4 → slot < 4 ∧
      (hash ≠ 2 ^ 384 - 1 →
        (ownerSlot s slot ≠ { hash := 0, valid := false, revoked := false } →
          Completes (.idOwnerKey dt h slot hash ok) s (AnswersWith dt h (.idOwnerKey slot hash ok) 0x0D02 [] s))
        ∧ (ownerSlot s slot = { hash := 0, valid := false, revoked := false } → ok = true → Completes (.idOwnerKey dt h slot hash ok) s fun t =>
            AnswersWith dt h (.idOwnerKey slot hash ok) 0 [] s { t with otp := s.otp }
              ∧ t.otp = { s.otp with slots := setNth { hash := hash, valid := true, revoked := false } s.otp.slots slot })
        ∧ (ownerSlot s slot = { hash := 0, valid := false, revoked := false } → ok = false → Completes (.idOwnerKey dt h slot hash ok) s fun t =>
            (∃ r, t.cmd.waiting = s.cmd.waiting ++ [r] ∧ r.tag = h.tag ∧ r.status = 0x0D03) ∧ getB t Reg.idStatus 3 = true
              ∧ OtpKept s.otp t.otp ∧ (ownerSlot t slot).valid = false))
      ∧ (hash = 2 ^ 384 - 1 →
        (s.otp.ownerOnly = true → (∀ n < 4, n ≠ slot → ¬ good s n) →
          Completes (.idOwnerKey dt h slot hash ok) s (AnswersWith dt h (.idOwnerKey slot hash ok) 0x0D01 [] s))
        ∧ (s.otp.ownerOnly = false ∨ (good s 0 ∧ slot ≠ 0 ∨ good s 1 ∧ slot ≠ 1 ∨ good s 2 ∧ slot ≠ 2 ∨ good s 3 ∧ slot ≠ 3) → ok = true →
          Completes (.idOwnerKey dt h slot hash ok) s fun t => Answered h (.idOwnerKey slot hash ok) 0 0 (houseFrame (tick dt s)) [] s t
            ∧ t.otp = { s.otp with slots := setNth { (ownerSlot s slot) with hash := (ownerSlot s slot).hash ||| hash, revoked := true } s.otp.slots slot })))
  ∧ (∀ dt h (slot hash : Nat) ok s, powered s = true → reads s = true → s.cmd.unread = [] → 4 ≤ slot →
      dispatchCheck s { hdr := h, body := .idOwnerKey slot hash ok } = some (0x0D01, 0) → Completes (.idOwnerKey dt h slot hash ok) s fun t =>
        (∃ r, t.cmd.waiting = s.cmd.waiting ++ [r] ∧ r.tag = h.tag ∧ r.status = 0x0D01) ∧ t.otp = s.otp)
  ∧ (∀ dt h policy ok s, Ready h (.idPolicySet policy ok) s → s.otp.slots.length = 4 →
      (policy % 2 = 1 → (∀ n < 4, ¬ good s n) → Completes (.idPolicySet dt h policy ok) s (AnswersWith dt h (.idPolicySet policy ok) 0x0D01 [] s))
      ∧ (policy % 2 = 0 ∨ (good s 0 ∨ good s 1 ∨ good s 2 ∨ good s 3) ∧ ok = true → Completes (.idPolicySet dt h policy ok) s fun t =>
          (∃ r, t.cmd.waiting = s.cmd.waiting ++ [r] ∧ r.tag = h.tag ∧ r.status = 0)
            ∧ t.otp = { s.otp with ownerOnly := s.otp.ownerOnly || decide (policy % 2 = 1) }
            ∧ t.fw.settings.allowOn = decide (policy / 2 % 2 = 1))
      ∧ (policy % 2 = 1 → good s 0 ∨ good s 1 ∨ good s 2 ∨ good s 3 → s.otp.ownerOnly = false → ok = false →
          Completes (.idPolicySet dt h policy ok) s fun t =>
            (∃ r, t.cmd.waiting = s.cmd.waiting ++ [r] ∧ r.tag = h.tag ∧ r.status = 0x0D03) ∧ t.otp = s.otp ∧ getB t Reg.idStatus 3 = true))

/-! ## The event queue (17_event_queue.md) -/

/-- R640 with R642 and R645, for EVENT_COMMIT. The latch committed is the one with the earliest stamp, and of equal stamps the lowest source, among those whose mask bit is clear. With EN set and a free entry its record goes into the entry at the tail, with the ring's next SEQ, the latch's stamp, count, instance and data, HELD where a mask has held it, and PHASE 1 on odd passes; the latch goes, the tail moves on and EVQ_COMMITTED counts; where the ring was empty the MSI-X message is sent, or its pending bit set while the vector is masked. A write that fails leaves the record to be written again into the same entry, and DMA_ERR_SEEN is set. A full ring sets RING_FULL_SEEN and keeps every latch, and with EN 0 nothing is committed. No other register and nothing outside the event queue changes. -/
def Obligations.EventsCommitInStampOrder : Prop :=
  let open_ := fun (s : State) => s.evq.host.pend.filter fun p => !getB s (Reg.evqMask (p.src / 32)) (p.src % 32)
  let size := fun (s : State) => 2 ^ max 4 (min 12 (getF s Reg.evqRingSize 0 4))
  let is := fun (s : State) (p : Pend) (r : Record) => r.src = p.src ∧ r.type = p.type ∧ r.stamp = p.stamp ∧ r.coalesced = p.coalesced
    ∧ r.inst = p.inst ∧ r.d0 = p.d0 ∧ r.d1 = p.d1 ∧ r.d2 = p.d2 ∧ r.held = p.held ∧ r.seq = s.evq.host.seq
    ∧ r.phase = decide (s.evq.host.pass % 2 = 1) ∧ (isLevel p.src = true → r.state = decide (p.src ∈ s.evq.level))
  (∀ dt ok s, powered s = true → ∀ p, firstPend (open_ s) = some p →
    (∀ q, q ∈ open_ s → p.stamp < q.stamp ∨ p.stamp = q.stamp ∧ p.src ≤ q.src)
    ∧ (getB s Reg.evqCtrl 0 = true → s.evq.failed = none → (s.evq.host.tail + 1) % size s ≠ s.evq.host.head % size s →
        Completes (.eventCommit dt ok) s fun t =>
          t.evq.host.tail = (s.evq.host.tail + 1) % size s ∧ t.evq.host.head = s.evq.host.head ∧ t.evq.host.seq = (s.evq.host.seq + 1) % 2 ^ 32
            ∧ t.evq.host.pend = s.evq.host.pend.filter (fun x => decide (x.src ≠ p.src)) ∧ t.evq.level = s.evq.level
            ∧ (rd t Reg.evqCommitted).toNat = min (2 ^ 32 - 1) ((rd s Reg.evqCommitted).toNat + 1)
            ∧ (if ok = true then (∃ r, tabFind s.evq.host.tail t.evq.host.ring = some r ∧ is s p r) ∧ t.evq.failed = none
                  ∧ getB t Reg.evqStatus 5 = getB s Reg.evqStatus 5
                  ∧ (if s.evq.host.tail = s.evq.host.head then
                      (if s.evq.msixMask = true then t.evq.msixPend = true ∧ t.evq.msixSent = s.evq.msixSent else t.evq.msixSent = s.evq.msixSent + 1)
                    else t.evq.msixPend = s.evq.msixPend ∧ t.evq.msixSent = s.evq.msixSent)
              else t.evq.failed.map (fun x => x.1) = some s.evq.host.tail ∧ (∃ x, t.evq.failed = some x ∧ is s p x.2.1) ∧ getB t Reg.evqStatus 5 = true
                  ∧ t.evq.msixSent = s.evq.msixSent)
            ∧ RegsEvents [Reg.evqCommitted, Reg.evqStatus] dt s t)
    ∧ (getB s Reg.evqCtrl 0 = true → s.evq.failed = none → (s.evq.host.tail + 1) % size s = s.evq.host.head % size s →
        Completes (.eventCommit dt ok) s fun t => t.evq.host = s.evq.host ∧ getB t Reg.evqStatus 2 = true ∧ RegsEvents [Reg.evqStatus] dt s t))
  ∧ (∀ dt ok s, powered s = true → getB s Reg.evqCtrl 0 = false ∨ s.evq.failed ≠ none ∨ open_ s = [] →
      Completes (.eventCommit dt ok) s fun t => t.evq.host = s.evq.host ∧ RegsEvents [] dt s t)

/-- EVQ_HEAD_WRITE beyond the tail is ignored and sets REFUSED; else the head takes the value, the level sources whose records it completes are sampled again, one still asserted being pending again with the present stamp and one that has cleared not, and a ring left non-empty sends the message again. EVENT_RECORD_RETRY writes the same record into the same entry, or keeps it where the write fails again. EVQ_EN_WRITE sets EN and PIN_EN. EVQ_CTRL_RESET with EN 0 before and in the write clears head, tail, pass count and SEQ and keeps masks and latches; otherwise it sets REFUSED and the other fields take effect. EVQ_RING_CONFIG_WRITE acts only with EN 0 and sets REFUSED otherwise; a base of any alignment reads back as written, which is the model's choice (log 161). EVQ_MASK_WRITE sets the mask word, and latches whose bit it sets are held. MSIX_VECTOR_UNMASK sends exactly one message where the pending bit is set. -/
def Obligations.EventRingRegistersFollowTheirRules : Prop :=
  let size := fun (s : State) => 2 ^ max 4 (min 12 (getF s Reg.evqRingSize 0 4))
  (∀ dt head s, powered s = true → let h := head % 4096
      (size s ≤ h ∨ (s.evq.host.tail + size s - s.evq.host.head) % size s < (h + size s - s.evq.host.head) % size s →
        Completes (.evqHeadWrite dt head) s fun t => getB t Reg.evqStatus 3 = true ∧ RegsOnly [Reg.evqStatus] dt s t)
      ∧ (h < size s → (h + size s - s.evq.host.head) % size s ≤ (s.evq.host.tail + size s - s.evq.host.head) % size s → s.evq.host.head < size s →
          (s.evq.host.outst = [] → Completes (.evqHeadWrite dt head) s fun t => t.evq.host = { s.evq.host with head := h }
            ∧ (if s.evq.host.tail = h then t.evq.msixSent = s.evq.msixSent ∧ t.evq.msixPend = s.evq.msixPend
              else if s.evq.msixMask = true then t.evq.msixSent = s.evq.msixSent ∧ t.evq.msixPend = true else t.evq.msixSent = s.evq.msixSent + 1)
            ∧ RegsEvents [] dt s t)
          ∧ (∀ o, s.evq.host.outst = [o] → o.2 = s.evq.host.head → h ≠ s.evq.host.head → (∀ p, p ∈ s.evq.host.pend → p.src ≠ o.1) →
              Completes (.evqHeadWrite dt head) s fun t => t.evq.host.outst = [] ∧ t.evq.host.head = h
                ∧ (if o.1 ∈ s.evq.level then ∃ p, t.evq.host.pend = s.evq.host.pend ++ [p] ∧ p.src = o.1 ∧ p.stamp = s.now + dt
                  else t.evq.host.pend = s.evq.host.pend)
                ∧ RegsEvents [] dt s t)))
  ∧ (∀ dt ok s, powered s = true → ∀ x, s.evq.failed = some x → Completes (.eventRecordRetry dt ok) s fun t =>
      (if ok = true then tabFind x.1 t.evq.host.ring = some x.2.1 ∧ t.evq.failed = none else t.evq = s.evq ∧ getB t Reg.evqStatus 5 = true)
        ∧ RegsEvents [Reg.evqStatus] dt s t)
  ∧ (∀ dt en pin s, powered s = true → Completes (.evqEnWrite dt en pin) s fun t =>
      getB t Reg.evqCtrl 0 = en ∧ getB t Reg.evqCtrl 1 = pin ∧ RegsOnly [Reg.evqCtrl] dt s t)
  ∧ (∀ dt pin s, powered s = true → getB s Reg.evqCtrl 0 = false → Completes (.evqCtrlReset dt false pin) s fun t =>
      t.evq.host.head = 0 ∧ t.evq.host.tail = 0 ∧ t.evq.host.seq = 0 ∧ t.evq.host.pass = 1
        ∧ (∀ p, p ∈ s.evq.host.pend → p ∈ t.evq.host.pend) ∧ (s.evq.host.outst = [] → t.evq.host.pend = s.evq.host.pend)
        ∧ getB t Reg.evqCtrl 0 = false ∧ getB t Reg.evqCtrl 1 = pin ∧ RegsEvents [Reg.evqCtrl] dt s t)
  ∧ (∀ dt en pin s, powered s = true → getB s Reg.evqCtrl 0 = true ∨ en = true → Completes (.evqCtrlReset dt en pin) s fun t =>
      t.evq = s.evq ∧ getB t Reg.evqStatus 3 = true ∧ getB t Reg.evqCtrl 0 = en ∧ getB t Reg.evqCtrl 1 = pin ∧ RegsOnly [Reg.evqCtrl, Reg.evqStatus] dt s t)
  ∧ (∀ dt (value : Word) s, powered s = true → ∀ offset, offset ∈ [0x8, 0xC, 0x10] → Completes (.evqRingConfigWrite dt offset value) s fun t =>
      if getB s Reg.evqCtrl 0 = true then getB t Reg.evqStatus 3 = true ∧ RegsOnly [Reg.evqStatus] dt s t
      else rd t (Reg.evqCtrl + offset) = (if offset = 0x10 then value &&& 0xF else value)
        ∧ RegsOnly [Reg.evqCtrl + offset] dt s t)
  ∧ (∀ dt (value : Word) s, powered s = true → ∀ word, word < 64 → Completes (.evqMaskWrite dt word value) s fun t =>
      rd t (Reg.evqMask word) = value ∧ RegsEvents [Reg.evqMask word] dt s t
        ∧ t.evq = { s.evq with host := { s.evq.host with pend := s.evq.host.pend.map fun p =>
            { p with held := p.held || (decide (p.src / 32 = word) && decide (value.toNat / 2 ^ (p.src % 32) % 2 = 1)) } } })
  ∧ (∀ dt s, powered s = true → Completes (.msixVectorUnmask dt) s fun t =>
      t = { tick dt s with evq := { s.evq with msixMask := false, msixPend := false, msixSent := s.evq.msixSent + (if s.evq.msixPend = true then 1 else 0) } })

/-! ## Register accesses (00_scope.md R14 to R17, 22_supervisor_interconnect.md) -/

/-- A host read that no rule refuses, of a register with a row. RC_FIELD_READ of a hub register returns its value and clears its RC bits and no others. LATCHED_PAIR_READ and STAT_COUNTER_LO_READ of the low register of a value in two registers return the low word and latch the high half for the next register's reads; where the value is RC, as every statistics counter is, both halves are then 0; a read of the high register returns the latched half and changes nothing. TMB_NOW_NS_READ returns the nanoseconds of the present time and latches its seconds and fraction. CAP_NS_READ returns the nanoseconds of the channel's last edge. A refused read returns 0, clears nothing, and is counted in SIC_ERR_CNT. -/
def Obligations.ReadsClearAndLatch : Prop :=
  let served := fun (s : State) (a : Nat) => refusalCause s .pcie (a + 0x10000000) 4 false = none
  (∀ dt s, powered s = true → ∀ a d, regRow a = some d → 0x400000 ≤ a → a < 0x800000 → d.rc ≠ 0 → d.pair = false → d.stat = false → lowRow a = none →
      served s a → Completes (.rcFieldRead dt a) s fun t => t.readData = regValue (tick dt s) a ∧ rd t a = rd s a &&& ~~~d.rc
        ∧ t = { tick dt s with regs := t.regs, readData := t.readData } ∧ RegsBut [a] s t)
  ∧ (∀ dt s, powered s = true → ∀ a d, regRow a = some d → d.pair = true → a ≠ Reg.tmbNowNs → ¬ (Reg.capCtrl 0 ≤ a ∧ a < Reg.capCtrl 16 ∧ a % 16 = 4) →
      0x400000 ≤ a → served s a → Completes (.latchedPairRead dt a) s fun t => let u := regSettle a (tick dt s)
        t.readData = regValue u a ∧ t.latch = tabPut (a + 4) (regValue u (a + 4)) s.latch
          ∧ (if d.rc = 0 then RegsBut [] u t else rd t a = rd u a &&& ~~~d.rc ∧ rd t (a + 4) = 0 ∧ RegsBut [a, a + 4] u t))
  ∧ (∀ dt s, powered s = true → ∀ a d, regRow a = some d → d.pair = false → d.stat = false → 0x400000 ≤ a → a < 0x800000 →
      a ≠ Reg.tmbNowNs → ¬ (Reg.capCtrl 0 ≤ a ∧ a < Reg.capCtrl 16 ∧ a % 16 = 4) → (lowRow a).isSome = true → served s a →
      ∀ v, tabFind a s.latch = some v → Completes (.latchedPairRead dt a) s fun t => t = { tick dt s with readData := v })
  ∧ (∀ dt s, powered s = true → ∀ a d, regRow a = some d → d.stat = true → d.rc ≠ 0 → a < 0x400000 → ¬ (0x36000 ≤ a % 0x100000 ∧ a % 0x100000 < 0x36240) →
      served s a → Completes (.statCounterLoRead dt a) s fun t => let u := regSettle a (tick dt s)
        t.readData = regValue u a ∧ t.latch = tabPut (a + 4) (regValue u (a + 4)) u.latch ∧ rd t a = rd u a &&& ~~~d.rc ∧ rd t (a + 4) = 0
          ∧ RegsBut [a, a + 4] u t)
  ∧ (∀ dt a s c, powered s = true → refusalCause s .pcie (a + 0x10000000) 4 false = some c →
      (Completes (.rcFieldRead dt a) s fun t => t.readData = 0 ∧ (rd t Reg.sicErrCnt).toNat = min (2 ^ 32 - 1) ((rd s Reg.sicErrCnt).toNat + 1)
        ∧ getF t Reg.sicErrInfo 4 3 = c ∧ RegsBut [Reg.sicErrInfo, Reg.sicErrAddrLo, Reg.sicErrAddrHi, Reg.sicErrCnt, Reg.sicStatus] s t))
  ∧ (∀ dt s, powered s = true → Completes (.tmbNowNsRead dt) s fun t =>
      t.readData = BitVec.ofNat 32 ((s.now + dt) % 297000000000 / 297)
        ∧ rd t Reg.tmbNowSecLo = BitVec.ofNat 32 ((s.now + dt) / 297000000000)
        ∧ rd t (Reg.tmbNowSecLo + 4) = BitVec.ofNat 32 ((s.now + dt) / 297000000000 / 2 ^ 32)
        ∧ t = { tick dt s with regs := t.regs, readData := t.readData } ∧ RegsBut [Reg.tmbNowSecLo, Reg.tmbNowSecLo + 4, Reg.tmbNowFrac] s t)
  ∧ (∀ dt s, powered s = true → ∀ channel, channel < 16 → Completes (.capNsRead dt channel) s fun t =>
      t.readData = BitVec.ofNat 32 (capFields (capTrack s channel).time).2.1 ∧ rd t (Reg.capNs channel) = t.readData
        ∧ rd t (Reg.capSec channel) = BitVec.ofNat 32 (capFields (capTrack s channel).time).1
        ∧ t = { tick dt s with regs := t.regs, readData := t.readData } ∧ RegsBut [Reg.capNs channel, Reg.capSec channel, Reg.capFrac channel] s t)

/-- REGISTER_WRITE of a register of the line side, or of a status register of the hub, that the hub serves sets its RW bits, clears the RW1C bits written as 1, and keeps every other bit; a refused write changes only the log of R769. SIC_MAP_WRITE sets REMAP and BANK for the supervisor while REMAP is 0, and otherwise only REFUSED. JTAG_INSTRUCTION outside SERVICE, RESCUE and manufacturing test gives BYPASS for everything but SAMPLE/PRELOAD. PCIE_LINK_DOWN sets LINK_DOWN_SEEN and keeps the rings, the result table and the waiting replies; PCIE_LINK_UP brings the link back while its PLL runs. -/
def Obligations.WritesFollowTheirAccessCodes : Prop :=
  (∀ dt (value : Word) s, powered s = true → ∀ a d, regRow a = some d →
      0x800000 ≤ a ∨ a ∈ [Reg.cmdStatus, Reg.evqStatus, Reg.idStatus, Reg.fwStatus, Reg.setStatus, Reg.planState, Reg.refStatus] →
      refusalCause s .pcie (a + 0x10000000) 4 true = none → Completes (.registerWrite dt a value) s fun t =>
        rd t a = ((rd s a &&& ~~~d.rw) ||| (value &&& d.rw)) &&& ~~~(value &&& d.w1c) ∧ RegsOnly [a] dt s t)
  ∧ (∀ dt a (value : Word) s, powered s = true → ∀ c, refusalCause s .pcie (a + 0x10000000) 4 true = some c → Completes (.registerWrite dt a value) s fun t =>
      (rd t Reg.sicErrCnt).toNat = min (2 ^ 32 - 1) ((rd s Reg.sicErrCnt).toNat + 1) ∧ getF t Reg.sicErrInfo 4 3 = c ∧ getB t Reg.sicErrInfo 3 = true
        ∧ RegsEvents [Reg.sicErrInfo, Reg.sicErrAddrLo, Reg.sicErrAddrHi, Reg.sicErrCnt, Reg.sicStatus] dt s t)
  ∧ (∀ dt (value : Word) s, powered s = true → getB s Reg.sicMap 0 = false → Completes (.sicMapWrite dt .supervisor value) s fun t =>
      getF t Reg.sicMap 0 2 = value.toNat % 4 ∧ RegsOnly [Reg.sicMap] dt s t)
  ∧ (∀ dt m (value : Word) s, powered s = true → m ≠ .supervisor ∨ getB s Reg.sicMap 0 = true → Completes (.sicMapWrite dt m value) s fun t =>
      getB t Reg.sicStatus 0 = true ∧ RegsOnly [Reg.sicStatus] dt s t)
  ∧ (∀ dt i s, powered s = true → Completes (.jtagInstruction dt i) s fun t =>
      t = { tick dt s with jtag := if i = .samplePreload ∨ modeNow s = 5 ∨ modeNow s = 6 ∨ s.pins.testMode = true then i else .bypass })
  ∧ (∀ dt s, powered s = true → s.pins.pcieUp = true → Completes (.pcieLinkDown dt) s fun t =>
      getB t Reg.cmdStatus 6 = true ∧ t.pins = { s.pins with pcieUp := false } ∧ t.cmd.results = s.cmd.results ∧ t.cmd.waiting = s.cmd.waiting
        ∧ t.cmd.ring = s.cmd.ring ∧ t.cmd.fwq = s.cmd.fwq ∧ t = { tick dt s with regs := t.regs, pins := t.pins, cmd := t.cmd } ∧ RegsBut [Reg.cmdStatus] s t)
  ∧ (∀ dt s, powered s = true → keepAlive s 93 = false → Completes (.pcieLinkUp dt) s fun t => t = { tick dt s with pins := { s.pins with pcieUp := true } })

/-- REFUSED_ACCESS for which a cause of R775 holds: SIC_ERR_INFO shows master, direction and cause, SIC_ERR_ADDR the address, SIC_ERR_CNT counts it, ERR_SEEN is set, and a read returns 0; an access with no such cause changes nothing. MASTER_RESET with no burst under way changes nothing. With one it counts the reset, and logs a write, or a read that was issued, with cause 5; the read has cleared the RC bits of its register, which sets RC_LOST_SEEN where any of them was set; a read that was not issued is only dropped. BAR2_WRITE of a bundle to the staging area stores it once STAGING_READY is set, and before that discards it as BUSY with a log; a write to the load slot while LOAD is 1 or a change is PENDING is discarded as BUSY likewise, and otherwise it is stored, and a load slot that was valid or rejected becomes empty. -/
def Obligations.RefusedAccessesAreLogged : Prop :=
  let errRegs := [Reg.sicErrInfo, Reg.sicErrAddrLo, Reg.sicErrAddrHi, Reg.sicErrCnt, Reg.sicStatus]
  let counted := fun (s t : State) => (rd t Reg.sicErrCnt).toNat = min (2 ^ 32 - 1) ((rd s Reg.sicErrCnt).toNat + 1) ∧ getB t Reg.sicStatus 2 = true
  (∀ dt m a size w s, powered s = true → (∀ c, refusalCause s m a size w = some c → Completes (.refusedAccess dt m a size w) s fun t =>
        getF t Reg.sicErrInfo 0 3 = masterCode m ∧ getB t Reg.sicErrInfo 3 = w ∧ getF t Reg.sicErrInfo 4 3 = c ∧ rd t Reg.sicErrAddrLo = BitVec.ofNat 32 a
          ∧ counted s t ∧ (w = false → t.readData = 0) ∧ (w = true → t.readData = s.readData)
          ∧ t = { tick dt s with regs := t.regs, evq := t.evq, readData := t.readData } ∧ RegsBut errRegs s t)
      ∧ (refusalCause s m a size w = none → Completes (.refusedAccess dt m a size w) s fun t => t = tick dt s))
  ∧ (∀ dt m s, powered s = true → Completes (.masterReset dt m []) s fun t => t = tick dt s)
  ∧ (∀ dt m s, powered s = true → ∀ b : SicBurst, b.write = true ∨ b.issued = false → Completes (.masterReset dt m [b]) s fun t =>
      (rd t Reg.sicResetCnt).toNat = min (2 ^ 32 - 1) ((rd s Reg.sicResetCnt).toNat + 1)
        ∧ (if b.write = true then getF t Reg.sicErrInfo 4 3 = 5 ∧ getB t Reg.sicErrInfo 3 = true ∧ counted s t ∧ RegsEvents (Reg.sicResetCnt :: errRegs) dt s t
          else RegsOnly [Reg.sicResetCnt] dt s t))
  ∧ (∀ dt m n s, powered s = true → ∀ a d, regRow a = some d → let b : SicBurst := { addr := a + 0x10000000, size := n, write := false, issued := true }
      a ∉ Reg.sicResetCnt :: errRegs → Completes (.masterReset dt m [b]) s fun t =>
      rd t a = rd s a &&& ~~~d.rc ∧ (rd t Reg.sicResetCnt).toNat = min (2 ^ 32 - 1) ((rd s Reg.sicResetCnt).toNat + 1)
        ∧ (d.rc &&& rd s a ≠ 0 → getB t Reg.sicStatus 1 = true) ∧ getF t Reg.sicErrInfo 4 3 = 5 ∧ getB t Reg.sicErrInfo 3 = false ∧ counted s t
        ∧ RegsEvents (a :: Reg.sicResetCnt :: errRegs) dt s t)
  ∧ (∀ dt i s, powered s = true → s.pins.pcieUp = true → Completes (.bar2Write dt (.staging i)) s fun t =>
      if getB s Reg.fwStatus 7 = true then t = { tick dt s with fw := { s.fw with staging := some i } }
      else t.fw = s.fw ∧ counted s t ∧ getF t Reg.sicErrInfo 4 3 = 6 ∧ t = { tick dt s with regs := t.regs, evq := t.evq, free := t.free } ∧ RegsBut errRegs s t)
  ∧ (∀ dt b s, powered s = true → s.pins.pcieUp = true → modeNow s ≠ 6 → Completes (.bar2Write dt (.loadSlot b)) s fun t =>
      if getF s Reg.planState 8 2 = 1 ∨ getB s Reg.planState 10 = true then t.plan = s.plan ∧ counted s t ∧ getF t Reg.sicErrInfo 4 3 = 6
          ∧ t = { tick dt s with regs := t.regs, evq := t.evq, free := t.free } ∧ RegsBut errRegs s t
      else t.plan = { s.plan with slot := some b } ∧ getF t Reg.planState 8 2 = 0 ∧ t = { tick dt s with regs := t.regs, evq := t.evq, plan := t.plan })
  ∧ (∀ dt s, powered s = true → s.pins.pcieUp = true → Completes (.bar2Write dt .beyond) s fun t => t = tick dt s)

/-! ## Trunks (05_trunk_lanes.md, 06_trunk_framing.md) -/

/-- The events of a link pair's ladder; link pair 72 is the mirror link. TX_STEP_CHANGE takes the transmitter to the step acknowledged, once a follower has sent ACK in 16 frames, and the receive direction starts again at CK_WAIT. LADDER_RUN_ENTRY enters RUN once DONE has been accepted and sent in 16 frames, with BELOW_REQ where the step is below the one required. LADDER_FOLLOWER_TIMEOUT sets CONFLICT at a follower whose time of R221 has passed. STEP_READY_TIMEOUT falls back to the step below with NAK and SHORT. LADDER_RESTART_TIMEOUT sends RESTART and starts again from step 0. LINK_FAILED_RETRY leaves FAILED after 10 s. Outside its condition each event changes nothing. CK_MONITOR_WINDOW sets CK_OK in a window whose frequency lies within 1,000 ppm of that of the expected step, and clears it otherwise, the island then running on keep-alive; a wander of CK beyond 8 blocks takes the alignment of every lane of the link pair in RUN (R207). No other link pair changes, but for the frame timer of its group. -/
def Obligations.LadderEventsMoveOneLinkPair : Prop :=
  let regs := fun (n : Nat) => [linkStA n, linkMsgA n, if n = 72 then Reg.pairStatus else Reg.trkLinkCnt n]
  let restarted := fun (byte n dt : Nat) (s t : State) => linkPhase t n = 1 ∧ linkStep t n = 0 ∧ getF t (linkStA n) 16 16 = 0 ∧ getB t (linkStA n) 9 = false
    ∧ getF t (linkMsgA n) 0 8 = byte ∧ getF t (linkMsgA n) 16 8 = 0x10 + linkMaxStep s n ∧ (linkTrack t n).since = s.mono + dt
    ∧ (linkTrack t n).txq = (linkTrack s n).txq
    ∧ (if n = 72 then getB t Reg.pairStatus 3 = false else getF t (Reg.trkLinkCnt n) 0 16 = min (2 ^ 16 - 1) (getF s (Reg.trkLinkCnt n) 0 16 + 1))
    ∧ LinkOnly n (regs n) dt s t
  let fellBack := fun (n dt : Nat) (s t : State) => linkStep t n = linkStep s n - 1 ∧ getF t (linkStA n) 6 2 = linkStep s n - 1 ∧ linkPhase t n = 1
    ∧ getB t (linkStA n) 10 = true ∧ getF t (linkMsgA n) 0 8 = 0x50 + linkStep s n ∧ (linkTrack t n).since = s.mono + dt ∧ LinkOnly n (regs n) dt s t
  ∀ (dt : Nat) (s : State), powered s = true → ∀ n, n < 73 → let q := linkTrack s n
    (∀ k, q.txTo = some k → k < 4 → (linkFollower s n = true → 16 ≤ q.sent) → Completes (.txStepChange dt n) s fun t =>
        linkStep t n = k ∧ getF t (linkStA n) 6 2 = k ∧ linkPhase t n = 1 ∧ getB t (linkStA n) 8 = false ∧ getB t (linkStA n) 9 = false
          ∧ getF t (linkStA n) 16 8 = 0 ∧ getF t (linkMsgA n) 0 8 = 0 ∧ (linkTrack t n).txTo = none ∧ (linkTrack t n).since = s.mono + dt ∧ LinkOnly n (regs n) dt s t)
    ∧ (q.txTo = none ∨ linkFollower s n = true ∧ q.sent < 16 → Completes (.txStepChange dt n) s fun t => t = tick dt s)
    ∧ (let req := if n = 72 then 3 else getF s (Reg.trkLinkCtrl n) 8 2
       if q.doneAcc = true ∧ 16 ≤ q.sent ∧ getF s (linkMsgA n) 0 8 = 0x70 + linkStep s n ∧ linkPhase s n = 6 then
        Completes (.ladderRunEntry dt n) s fun t => linkPhase t n = 7 ∧ linkStep t n = linkStep s n ∧ (linkStep s n < req → getB t (linkStA n) 12 = true)
          ∧ (req ≤ linkStep s n → getB t (linkStA n) 12 = getB s (linkStA n) 12 ∧ t.evq = s.evq)
          ∧ (n = 72 → getB t Reg.pairStatus 3 = decide (linkStep s n = 3)) ∧ LinkOnly n (regs n) dt s t
       else Completes (.ladderRunEntry dt n) s fun t => t = tick dt s)
    ∧ (if linkFollower s n = true ∧ (q.bothReady.any fun t0 => decide (t0 + 100 * tickMs ≤ s.mono + dt)) = true then
        Completes (.ladderFollowerTimeout dt n) s fun t => getB t (linkStA n) 11 = true ∧ linkPhase t n = linkPhase s n
          ∧ linkTrack t n = { q with bothReady := none } ∧ LinkOnly n [linkStA n] dt s t
       else Completes (.ladderFollowerTimeout dt n) s fun t => t = tick dt s)
    ∧ (if ladderRuns s n = true ∧ 0 < linkStep s n ∧ 1 ≤ linkPhase s n ∧ linkPhase s n ≤ 5 ∧ q.since + 100 * tickMs ≤ s.mono + dt then
        Completes (.stepReadyTimeout dt n) s (fellBack n dt s)
       else Completes (.stepReadyTimeout dt n) s fun t => t = tick dt s)
    ∧ (if ladderRuns s n = true ∧ 1 ≤ linkPhase s n ∧ linkPhase s n ≤ 5 ∧ q.since + 500 * tickMs ≤ s.mono + dt then
        Completes (.ladderRestartTimeout dt n) s (restarted 0x60 n dt s)
       else Completes (.ladderRestartTimeout dt n) s fun t => t = tick dt s)
    ∧ (if ladderRuns s n = true ∧ getB s (linkStA n) 3 = true ∧ q.failedAt + 10 * tickSec ≤ s.mono + dt then
        Completes (.linkFailedRetry dt n) s fun t => getB t (linkStA n) 3 = false ∧ restarted 0 n dt s t
       else Completes (.linkFailedRetry dt n) s fun t => t = tick dt s)
    ∧ (∀ freq : Nat, let a := linkStA n; let step := getF s a 6 2; let off : Int := (freq : Int) - 830078125 * 2 ^ step
       let near := fun (k : Nat) => ((freq : Int) - 830078125 * 2 ^ k).natAbs * 1000 ≤ 830078125 * 2 ^ k
       let laneRegs := (List.range 8).map fun l => Reg.trkLaneStatus (8 * n + l)
       (near step → q.ckLost = none → n = 72 ∨ getB s (Reg.trkLinkCtrl n) 6 = false → (q.wander + off).natAbs ≤ 8 * 165000 →
          Completes (.ckMonitorWindow dt n freq) s fun t => getB t a 8 = true ∧ keepAlive t (rxIsland n) = false
            ∧ linkTrack t n = { q with wander := q.wander + off } ∧ LinkOnly n [a, Reg.islKeepalive (rxIsland n / 32)] dt s t)
       ∧ (near step → q.ckLost = none → n = 72 ∨ getB s (Reg.trkLinkCtrl n) 6 = false → 8 * 165000 < (q.wander + off).natAbs →
          Completes (.ckMonitorWindow dt n freq) s fun t => getB t a 8 = true ∧ (linkTrack t n).wander = 0
            ∧ (linkRun s n = true → ∀ l, l < lanesOf n → getB s a (24 + l) = false → (laneTrack s (8 * n + l)).searching = false → getB t a (16 + l) = false)
            ∧ (linkRun s n = false → getF t a 16 16 = getF s a 16 16)
            ∧ LinkOnly n ([a, Reg.islKeepalive (rxIsland n / 32)] ++ (if n = 72 then [] else Reg.trkLinkCnt n :: laneRegs)) dt s t)
       ∧ (¬ near step → linkRun s n = false → ¬ near 0 ∨ linkStep s n = 0 → Completes (.ckMonitorWindow dt n freq) s fun t =>
          getB t a 8 = false ∧ keepAlive t (rxIsland n) = true ∧ getB t (Reg.islSeen (rxIsland n / 32)) (rxIsland n % 32) = true
            ∧ LinkOnly n [a, Reg.islKeepalive (rxIsland n / 32), Reg.islSeen (rxIsland n / 32)] dt s t)
       ∧ (∀ k, k < 4 → k ≠ step → near k → linkRun s n = true → Completes (.ckMonitorWindow dt n freq) s fun t =>
          linkPhase t n = 1 ∧ linkStep t n = 0 ∧ getF t (linkMsgA n) 0 8 = 0x60 ∧ getB t a 8 = false)
       ∧ (step ≠ 0 → near 0 → linkRun s n = false → 0 < linkStep s n → ladderRuns s n = true → 1 ≤ linkPhase s n → Completes (.ckMonitorWindow dt n freq) s fun t =>
          linkPhase t n = 1 ∧ linkStep t n = 0 ∧ getF t (linkMsgA n) 0 8 = 0x60 ∧ getB t a 8 = false))

/-- RX_BRINGUP_PHASE_DONE while the firmware runs the ladder; its operand holds, lane by lane, the 512 edge counts of a sweep. CK_WAIT ends with CK_OK. SWEEP gives every lane the position and CTLE of its cached entry that still holds, or of the largest eye, that is the longest circular run of positions with at most EDGE_LIMIT edges, at least W_MIN long, and keeps it in the cache. SLIP ends with four frames in place on every lane. DESKEW ends with a header on every lane: the skew is the shortest arc of the timer of 1,024 positions that holds every arrival; up to 63 blocks, with frames that leave with equal counters, every lane is aligned, WSLIP of each lane being the latest arrival less its own; otherwise SKEW_OVF is set and the step fails. QUALIFY ends with 4,096 frames passed, in READY at the step sent. 65 slips without HDR_OK in SLIP, and a third restart in QUALIFY, fail the step: at step 0 it is retried, the third failure in a row entering FAILED; above step 0 it falls back. Otherwise the event changes nothing. The statement is of the 72 trunks' link pairs. -/
def Obligations.BringUpGoesFromPhaseToPhase : Prop :=
  let arc := fun (as : List Nat) (x : Nat) => (as.map fun y => (x + 1024 - y % 1024) % 1024).foldl max 0
  let lanes := fun (n : Nat) => (List.range 8).map fun l => 8 * n + l
  let laneRegs := fun (n : Nat) => (lanes n).flatMap fun m => [Reg.trkLaneCtrl m, Reg.trkLaneSkew m, Reg.trkLaneStatus m]
  let noCache := fun (s t : State) => { t with flash := s.flash }
  (∀ sweep limit wMin p c, eyeSweep sweep limit wMin = some (p, c) →
    let good := fun (c i : Nat) => ∃ x, nth? sweep (64 * c + i % 64) = some x ∧ x ≤ limit
    c < 8 ∧ ∃ start len, wMin ≤ len ∧ p = (start + len / 2) % 64 ∧ (∀ i, i < len → good c (start + i))
      ∧ ∀ c' start' len', c' < 8 → len' ≤ 64 → (∀ i, i < len' → good c' (start' + i)) → len' ≤ len)
  ∧ ∀ (dt : Nat) (s : State), powered s = true → ∀ n, n < 72 → ∀ edges : List (List Nat),
    (ladderRuns s n = true → let a := linkStA n; let q := fun (l : Nat) => laneTrack s (8 * n + l)
      let fails := (linkPhase s n = 3 ∧ ∃ l, l < 8 ∧ (q l).okRun < 4 ∧ 65 ≤ (q l).slips ∧ 4 ≤ (q l).slipWait)
        ∨ (linkPhase s n = 5 ∧ (∃ l, l < 8 ∧ (q l).passed < 4096) ∧ ∃ l, l < 8 ∧ 3 ≤ (q l).restarts)
      (linkPhase s n = 1 → getB s a 8 = true → Completes (.rxBringupPhaseDone dt n edges) s fun t => linkPhase t n = 2 ∧ LinkOnly n [a] dt s t)
      ∧ (linkPhase s n = 1 → getB s a 8 = false → Completes (.rxBringupPhaseDone dt n edges) s fun t => t = tick dt s)
      ∧ (linkPhase s n = 2 → edges.length = 8 → ∀ f : Nat → Nat × Nat, (∀ l x, nth? edges l = some x → laneEye s (8 * n + l) x = some (f l)) →
          Completes (.rxBringupPhaseDone dt n edges) s fun t => linkPhase t n = 3
            ∧ (∀ l, l < 8 → getF t (Reg.trkLaneCtrl (8 * n + l)) 0 6 = (f l).1 % 64 ∧ getF t (Reg.trkLaneCtrl (8 * n + l)) 8 3 = (f l).2 % 8
                ∧ tabFind (1024 * linkStep s n + 8 * n + l) t.flash.eq = some (f l) ∧ (laneTrack t (8 * n + l)).slips = 0)
            ∧ LinkOnly n (a :: laneRegs n) dt s (noCache s t))
      ∧ (linkPhase s n = 2 → edges.length = 8 → (∃ l x, nth? edges l = some x ∧ laneEye s (8 * n + l) x = none) → Completes (.rxBringupPhaseDone dt n edges) s fun t =>
          linkPhase t n ≠ 3 ∧ (0 < linkStep s n → getB t a 10 = true ∧ getF t (linkMsgA n) 0 8 = 0x50 + linkStep s n)
            ∧ LinkOnly n (a :: linkMsgA n :: laneRegs n) dt s (noCache s t))
      ∧ (linkPhase s n = 3 → (∀ l, l < 8 → 4 ≤ (q l).okRun) → Completes (.rxBringupPhaseDone dt n edges) s fun t => linkPhase t n = 4 ∧ LinkOnly n [a] dt s t)
      ∧ (linkPhase s n = 4 → (∀ l, l < 8 → ∃ h, (q l).pend = some h ∧ h.valid = true) → let as := (List.range 8).map fun l => laneArrival (q l)
          ∀ late, late ∈ as → (∀ x, x ∈ as → arc as late < arc as x ∨ x = late) →
          let slip := fun (l : Nat) => (late + 1024 - laneArrival (q l)) % 1024
          let leaves := fun (l : Nat) => (((q l).arrived + slip l : Nat) : Int) - (256 * ((q l).pend.elim 0 RxHdr.cnt) : Nat)
          let ok := arc as late ≤ 63 ∧ ∀ l, l < 8 → leaves l = leaves 0
          Completes (.rxBringupPhaseDone dt n edges) s fun t =>
            (ok → linkPhase t n = 5 ∧ getF t a 16 8 = 255 ∧ getB t a 9 = true
                ∧ (∀ l, l < 8 → getF t (Reg.trkLaneSkew (8 * n + l)) 0 10 = laneArrival (q l) ∧ getF t (Reg.trkLaneSkew (8 * n + l)) 16 6 = slip l
                    ∧ (laneTrack t (8 * n + l)).wslip = slip l ∧ (laneTrack t (8 * n + l)).passed = 0)
                ∧ LinkOnly n (a :: laneRegs n) dt s t)
            ∧ (¬ ok → getB t a 13 = true ∧ linkPhase t n ≠ 5 ∧ LinkOnly n (a :: linkMsgA n :: laneRegs n) dt s t))
      ∧ (linkPhase s n = 5 → (∀ l, l < 8 → 4096 ≤ (q l).passed) → getF s (linkMsgA n) 8 8 ≠ 0x20 + linkStep s n → Completes (.rxBringupPhaseDone dt n edges) s fun t =>
          linkPhase t n = 6 ∧ getF t (linkMsgA n) 0 8 = 0x20 + linkStep s n ∧ (linkTrack t n).fails0 = 0 ∧ LinkOnly n [a, linkMsgA n] dt s t)
      ∧ (fails →
          (linkStep s n = 0 → (linkTrack s n).fails0 < 2 → Completes (.rxBringupPhaseDone dt n edges) s fun t => linkPhase t n = 1
            ∧ (linkTrack t n).fails0 = (linkTrack s n).fails0 + 1 ∧ t.evq = s.evq ∧ LinkOnly n [a] dt s t)
          ∧ (linkStep s n = 0 → (linkTrack s n).fails0 = 2 → Completes (.rxBringupPhaseDone dt n edges) s fun t => linkPhase t n = 0 ∧ getB t a 3 = true
            ∧ (linkTrack t n).failedAt = s.mono + dt ∧ LinkOnly n [a] dt s t)
          ∧ (0 < linkStep s n → Completes (.rxBringupPhaseDone dt n edges) s fun t => linkPhase t n = 1 ∧ linkStep t n = linkStep s n - 1
            ∧ getB t a 10 = true ∧ getF t (linkMsgA n) 0 8 = 0x50 + linkStep s n ∧ LinkOnly n [a, linkMsgA n] dt s t))
      ∧ (¬ fails → (linkPhase s n = 3 ∧ ∃ l, l < 8 ∧ (q l).okRun < 4) ∨ (linkPhase s n = 4 ∧ ∃ l, l < 8 ∧ ∀ h, (q l).pend = some h → h.valid = false)
          ∨ (linkPhase s n = 5 ∧ ∃ l, l < 8 ∧ (q l).passed < 4096) ∨ (linkPhase s n = 7 ∧ ∀ l, l < 8 → (q l).searching = false ∨ (q l).slips < 65) →
          Completes (.rxBringupPhaseDone dt n edges) s fun t => t = tick dt s))
    ∧ (ladderRuns s n = false ∨ linkPhase s n = 0 ∨ linkPhase s n = 6 → Completes (.rxBringupPhaseDone dt n edges) s fun t => t = tick dt s)

/-- A trunk frame arrives with its 254 data blocks and the next header, scrambled. One whose header is not valid counts in the lane's header errors, and one whose DCRC does not match the data before it in its DCRC errors; it changes only the tracks and registers of its lane and link pair, the frame timer of its group, and reference selection where the trunk is a candidate; while the link pair is idle it changes nothing. A ladder byte is accepted with the fourth valid header in a row that carries it. A lane that has met R235 in RUN leaves the aligned lanes, LANE_LOST counting it, and it rejoins after 16 passed frames while the firmware serves; a third failed search within 10 s marks it LANE_FAILED, until when it does not rejoin. The claim is sampled for a trunk in RUN and is 0 on the ladder. A frame that starts, at an instant of R264, carries the sampled claim, the trunk state and QL, and with each lane's scrambled blocks the words of its streams. At a group's release each lane takes the member with the higher claim, the current one on equal claims, or the other where that frame is not good; the streams of the lane take the words of that frame, or none, marked invalid. EDGE_WINDOW_DONE gives its count, and the checker of PRBS_CHECKER_LOCK counts bits and errors while it is locked. -/
def Obligations.LanesFramesAndGroupsInService : Prop :=
  (∀ dt s, powered s = true → ∀ lane, lane < 576 → let n := lane / 8; let a := linkStA n; let q := laneTrack s lane
    (∀ f : LaneFrame, linkPhase s n ≠ 0 → let g := laneInput s lane f; let d := (descrambleAll q.descr (g.map Blk.payload)).1
        let b0 := (nth? d 254).getD 0; let b1 := (nth? d 255).getD 0
        let valid := ((g.drop 254).all fun b => decide (b.sync = 1)) = true ∧ b0.toNat % 256 = 0xB8 ∧ b1.toNat % 256 = 0x47 ∧ b0.toNat / 2 ^ 56 = hcrc b0 b1
          ∧ b1.toNat / 2 ^ 28 % 8 = lane % 8 ∧ b1.toNat / 2 ^ 32 % 4 = getF s a 6 2
        let sound := b1.toNat / 2 ^ 48 = dcrc (d.take 254) ∨ q.pend = none
        (Completes (.trunkFrameReceived dt lane f) s fun t =>
          getF t (laneFrmA lane) 16 16 = (if valid then getF s (laneFrmA lane) 16 16 else min (2 ^ 16 - 1) (getF s (laneFrmA lane) 16 16 + 1))
            ∧ getF t (laneFrmA lane) 0 16 = (if sound then getF s (laneFrmA lane) 0 16 else min (2 ^ 16 - 1) (getF s (laneFrmA lane) 0 16 + 1))
            ∧ (laneTrack t lane).okRun ≤ 4
            ∧ t.cmd = s.cmd ∧ t.plan = s.plan ∧ t.port = s.port ∧ t.pins = s.pins ∧ t.trk.streams = s.trk.streams ∧ (∀ m, m / 8 ≠ n → laneTrack t m = laneTrack s m))
        ∧ (linkRun s n = false → lane % 2 = 0 → valid → 3 ≤ q.run → q.byte = b1.toNat / 2 ^ 40 % 256 → b1.toNat / 2 ^ 44 % 16 ≠ 6 →
          Completes (.trunkFrameReceived dt lane f) s fun t => getF t (linkMsgA n) 8 8 = b1.toNat / 2 ^ 40 % 256))
    ∧ ((∀ k, k ∈ [4, 5] → refTrunk s k ≠ some n) → ∀ f : LaneFrame,
        (linkPhase s n = 0 → Completes (.trunkFrameReceived dt lane f) s fun t => t = tick dt s)
        ∧ (linkPhase s n ≠ 0 → Completes (.trunkFrameReceived dt lane f) s fun t =>
            LinkOnly n [a, linkMsgA n, laneFrmA lane, Reg.trkLaneSherr lane, Reg.trkLaneStatus lane, Reg.trkLaneSkew lane, Reg.trkRxHdr n, Reg.trkRxFcntLo n, Reg.trkRxFcntHi n,
              Reg.trkMbxStatus n, Reg.trkLinkCnt n, Reg.trkGrpStatus (groupHead s n)] dt s t))
    ∧ (q.lossDue = false → q.searching = false → Completes (.laneAlignmentLoss dt lane) s fun t => t = tick dt s)
    ∧ (linkRun s n = true → getB s a (24 + lane % 8) = false → q.searching = false → q.lossDue = true → getB s a (16 + lane % 8) = true → Completes (.laneAlignmentLoss dt lane) s fun t =>
        getB t a (16 + lane % 8) = false ∧ (∀ l, l < 8 → l ≠ lane % 8 → getB t a (16 + l) = getB s a (16 + l)) ∧ (laneTrack t lane).searching = true
          ∧ getF t (Reg.trkLinkCnt n) 16 16 = min (2 ^ 16 - 1) (getF s (Reg.trkLinkCnt n) 16 16 + 1) ∧ linkPhase t n = 7
          ∧ LinkOnly n [a, Reg.trkLaneStatus lane, Reg.trkLinkCnt n] dt s t)
    ∧ (linkRun s n = true → getB s a (24 + lane % 8) = false → q.searching = true → q.lossDue = true ∨ q.swept = true ∧ 65 ≤ q.slips → Completes (.laneAlignmentLoss dt lane) s fun t =>
        let within := (q.failTimes.filter fun x => decide (s.mono + dt < x + 10 * tickSec)).length
        getB t a (24 + lane % 8) = decide (2 ≤ within) ∧ (laneTrack t lane).searching = decide (within < 2) ∧ (within < 2 → t.evq = s.evq) ∧ LinkOnly n [a] dt s t)
    ∧ (if q.searching = true ∧ 16 ≤ q.passed ∧ server s = 1 ∧ linkRun s n = true then
        Completes (.laneRejoin dt lane) s fun t => getB t a (16 + lane % 8) = true ∧ getB t (Reg.trkLaneStatus lane) 0 = true
          ∧ (laneTrack t lane).searching = false ∧ t.evq = s.evq ∧ LinkOnly n [a, Reg.trkLaneStatus lane] dt s t
      else Completes (.laneRejoin dt lane) s fun t => t = tick dt s)
    ∧ (∀ cnt, Completes (.edgeWindowDone dt lane cnt) s fun t => getB t (Reg.trkLaneStatus lane) 1 = true
        ∧ getF t (Reg.trkLaneEdge lane) 0 17 = min 65536 cnt ∧ RegsOnly [Reg.trkLaneStatus lane, Reg.trkLaneEdge lane] dt s t)
    ∧ (∀ bits, if getB s (Reg.trkPrbsRx lane) 0 = true ∧ getB s (Reg.trkLinkCtrl n) 6 = true then
        (laneLoop s lane ≠ 1 → laneLoop s lane ≠ 2 → Completes (.prbsCheckerLock dt lane bits) s fun t =>
          let r := bits.foldl (prbsCheck (getF s (Reg.trkPrbsRx lane) 1 2)) (q.prbs, 0, 0)
          getB t (Reg.trkPrbsRx lane) 8 = r.1.locked ∧ laneTrack t lane = { q with prbs := r.1 }
            ∧ get64 t (Reg.trkPrbsErrLo lane) = min (2 ^ 48 - 1) (get64 s (Reg.trkPrbsErrLo lane) + r.2.2)
            ∧ get64 t (Reg.trkPrbsBitsLo lane) = min (2 ^ 48 - 1) (get64 s (Reg.trkPrbsBitsLo lane) + r.2.1)
            ∧ LinkOnly n [Reg.trkPrbsRx lane, Reg.trkPrbsErrLo lane, Reg.trkPrbsErrLo lane + 4, Reg.trkPrbsBitsLo lane, Reg.trkPrbsBitsLo lane + 4] dt s t)
      else Completes (.prbsCheckerLock dt lane bits) s fun t => t = tick dt s))
  ∧ (∀ pattern k (x : PrbsRx), x.locked = true → x.errAt = [] → let r := (prbsBits pattern x.hist k).1.foldl (prbsCheck pattern) (x, 0, 0)
      r.1.locked = true ∧ r.2.1 = k ∧ r.2.2 = 0)
  ∧ (∀ dt s, powered s = true → Completes (.claimSample dt .mirror) s fun t =>
      getF t Reg.pairClaim 0 16 = claimOf s % 2 ^ 16 ∧ t.pair = { s.pair with claim := claimOf s } ∧ t = { tick dt s with regs := t.regs, pair := t.pair } ∧ RegsBut [Reg.pairClaim] s t)
  ∧ (∀ dt s, powered s = true → ∀ n, n < 72 → let q := linkTrack s n
    (Completes (.claimSample dt (.trunk n)) s fun t => linkTrack t n = { q with claim := if linkRun s n = true then claimOf s else 0 } ∧ LinkOnly n [] dt s t)
    ∧ (∀ words, (linkPhase s n = 0 ∧ modeNow s ≠ 6) ∨ keepAlive s (23 * (n / 18) + 18) = true ∨ frameStarts (getF s (linkStA n) 4 2) (s.now + dt) = false →
        Completes (.trunkFrameStart dt n words) s fun t => t = tick dt s)
    ∧ (∀ words, linkPhase s n ≠ 0 ∨ modeNow s = 6 → keepAlive s (23 * (n / 18) + 18) = false → q.txq = [] → q.claim < 2 ^ 16 →
        let step := getF s (linkStA n) 4 2; let st := if linkPhase s n ≠ 7 ∧ modeNow s ≠ 6 then 1 else if modeNow s = 0 ∨ modeNow s = 6 then 0 else 2
        let cl := if st = 2 then q.claim else 0; let cnt := (s.now + dt) * (425 * 2 ^ step) / 642318336 % 2 ^ 48
        frameStarts step (s.now + dt) = true → Completes (.trunkFrameStart dt n words) s fun t =>
          getF t (Reg.trkTxHdr n) 0 16 = cl ∧ getF t (Reg.trkTxHdr n) 16 4 = getF s Reg.refStatus 8 4
            ∧ getF t (Reg.trkTxHdr n) 22 3 = st ∧ (linkTrack t n).sent = min 16 (q.sent + 1) ∧ (linkTrack t n).txCnt = some cnt
            ∧ (∀ l, l < 8 → let m := 8 * n + l; laneLoop s m ≠ 3 → getB s (Reg.trkLinkCtrl n) 6 = false →
                let es := if linkRun s n = true ∧ getB s (linkStA n) 12 = false then laneStreams s n 1 l else []
                let data := if st ≠ 2 then List.replicate 254 0
                  else carryData (es.map fun e => unitBits e.w6) (es.map fun e => ((words.find? fun w => decide (w.1 = streamPort s n e)).map Prod.snd).getD [])
                let h := headBlocks cnt cl (getF s Reg.refStatus 8 4) l step st (txMsg s n l) ((laneTrack s m).txCrc.getD 0)
                (laneTrack t m).tx.map Blk.sync = 1 :: 1 :: List.replicate 254 2
                  ∧ (laneTrack t m).tx.map Blk.payload = (scrambleAll ((laneTrack s m).scr.getD (Config.scramblerStart m)) (h.1 :: h.2 :: data)).1
                  ∧ (laneTrack t m).txCrc = some (dcrc data))
            ∧ LinkOnly n [Reg.trkTxHdr n] dt s t)
    ∧ (getB s (Reg.trkGrpStatus n) 5 = false ∨ getB s (Reg.trkGrpStatus n) 6 = false →
        let paired := getB s (Reg.trkGrpStatus n) 5; let p := n / 18 * 18 + getF s (Reg.trkGrpStatus n) 0 5; let step := getF s (linkStA n) 6 2
        let due := q.grp.bind (groupDue step (getF s (Reg.trkGrpStatus n) 16 4) (s.mono + dt))
        (due = none ∨ q.released = due → Completes (.groupFrameRelease dt n) s fun t => t = tick dt s)
        ∧ (∀ k, due = some k → q.released ≠ some k → p ≠ n ∨ paired = false →
          let units := fun (l : Nat) => (laneStreams s n 0 l).map fun e => unitBits e.w6
          let frame := fun (x l : Nat) => laneFrameOf (laneTrack s (8 * x + l)) k
          let good := fun (x l : Nat) => match frame x l with
            | none => false
            | some f => linkRun s x && !getB s (linkStA x) 12 && getB s (linkStA x) (16 + l) && f.hdr.valid && f.next && decide (f.hdr.state = 2) && decide (f.hdr.claim ≠ 0)
                && f.hdr.clean && f.clean && f.dcrc && decide (dataAt f.data 250 = unitMap (units l))
                && (List.range 16).all fun i => decide (countOf f.data i ≤ 25 * ((nth? (units l) i).getD []).length)
          let claim : Nat → Nat → Int := fun x l => match frame x l with | some f => (if f.hdr.valid = true then (f.hdr.claim : Int) else -1) | none => -1
          let pref := fun (l : Nat) => if paired = false then false else if claim n l > claim p l then false else if claim p l > claim n l then true else getB s (Reg.trkGrpStatus n) (8 + l)
          let ok := fun (l : Nat) (b : Bool) => if b = true then paired && good p l else good n l
          let taken := fun (l : Nat) => if ok l (pref l) = true then some (pref l) else if ok l (!pref l) = true then some (!pref l) else none
          let lanesWith := fun (f : Nat → Bool) => ((List.range 8).filter f).length
          Completes (.groupFrameRelease dt n) s fun t => (linkTrack t n).released = some k
            ∧ (paired = true → (∀ l, l < 8 → getB t (Reg.trkGrpStatus n) (8 + l) = (taken l).getD (getB s (Reg.trkGrpStatus n) (8 + l)))
                ∧ getF t (Reg.trkGrpCnt n) 0 16 = min (2 ^ 16 - 1) (getF s (Reg.trkGrpCnt n) 0 16 + lanesWith fun l => !ok l (pref l) && ok l (!pref l))
                ∧ getF t (Reg.trkGrpCnt n) 16 16 = min (2 ^ 16 - 1) (getF s (Reg.trkGrpCnt n) 16 16 + lanesWith fun l => !ok l (pref l) && !ok l (!pref l)))
            ∧ (paired = false → ∀ x, rd t (Reg.trkGrpStatus x) = rd s (Reg.trkGrpStatus x) ∧ rd t (Reg.trkGrpCnt x) = rd s (Reg.trkGrpCnt x))
            ∧ (∀ l, l < 8 → ∀ i e, nth? (laneStreams s n 0 l) i = some e → ∀ c, inCfg? s (streamPort s n e) = some c →
                (∀ l', l' < 8 → ∀ i' e', nth? (laneStreams s n 0 l') i' = some e' → streamPort s n e' = streamPort s n e → l' = l ∧ i' = i) →
                ∃ b, tabFind (streamPort s n e) t.trk.streams = some b
                  ∧ (∀ who, taken l = some who → b.valid = true ∧ (frame (if who = true then p else n) l).map (fun f => streamWords f.data (units l) i) = some b.words)
                  ∧ (taken l = none → b.valid = false ∧ b.words = []))
            ∧ LinkOnly n ([Reg.trkGrpStatus n, Reg.trkGrpStatus p, Reg.trkGrpCnt n] ++ (List.range 8).flatMap fun l => [Reg.trkLaneMaperr (8 * n + l), Reg.trkLaneMaperr (8 * p + l)]) dt s
                { t with trk := { t.trk with streams := s.trk.streams } })))

/-- TRK_QUERY returns the five registers of a trunk of the mode. TRK_RESTART starts an enabled link pair's ladder again from step 0. TRK_MBX_SEND puts its bytes, END on the last, at the end of the transmit queue and completes when they have left; it is refused TRK_NOT_RUN outside RUN and TRK_MBX_FULL where they do not fit. A trunk that the mode does not use is refused TRK_RANGE (with no plan committed every trunk may be used: log 21). A mailbox write appends a byte, or sets TX_OVF on a full queue of 256; a read takes the oldest byte with END and VALID, or returns VALID 0. ENABLE 1 starts the ladder and 0 stops the link pair; RESTART and a write of ROLE start an enabled pair's ladder again. MANUAL is accepted in SERVICE or on an unused pair, and otherwise sets REFUSED; SLIP and ERR_INJECT act only with MANUAL set, and otherwise set REFUSED. EDGE_START clears EDGE_DONE. -/
def Obligations.TrunkCommandsAndRegisterWrites : Prop :=
  let served := fun (s : State) (a : Nat) (w : Bool) => refusalCause s .pcie (a + 0x10000000) 4 w = none
  let ok := fun (s : State) (n : Nat) => n < 72 ∧ (s.plan.committed = none ∨ linkUsed s n = true)
  let restarted := fun (byte n : Nat) (t : State) => linkPhase t n = 1 ∧ linkStep t n = 0 ∧ getF t (linkMsgA n) 0 8 = byte ∧ getF t (linkStA n) 16 16 = 0
  let linkRegs := fun (n : Nat) => [Reg.trkLinkCtrl n, linkStA n, linkMsgA n, Reg.trkLinkCnt n]
  (∀ dt h n s, Ready h (.trkQuery n) s →
      (ok s n → Completes (.trkQuery dt h n) s (AnswersWith dt h (.trkQuery n) 0
        ([linkStA n, linkMsgA n, Reg.trkRxHdr n, Reg.trkGrpStatus n, Reg.trkTxHdr n].map fun a => (4, (rd s a).toNat)) s))
      ∧ (¬ ok s n → Completes (.trkQuery dt h n) s (AnswersWith dt h (.trkQuery n) 0x0501 [] s)))
  ∧ (∀ dt h n s, Ready h (.trkRestart n) s →
      (ok s n → getB s (Reg.trkLinkCtrl n) 0 = true → Completes (.trkRestart dt h n) s fun t => Replied dt h (.trkRestart n) 0 s t ∧ restarted 0x60 n t
        ∧ t = { tick dt s with regs := t.regs, cmd := t.cmd, trk := t.trk } ∧ RegsBut (ringRegs ++ linkRegs n) s t
        ∧ (∀ m, m ≠ n → m ≠ groupHead s n → linkTrack t m = linkTrack s m) ∧ (∀ m, m / 8 ≠ n → laneTrack t m = laneTrack s m) ∧ t.trk.streams = s.trk.streams)
      ∧ (ok s n → getB s (Reg.trkLinkCtrl n) 0 = false → Completes (.trkRestart dt h n) s (AnswersWith dt h (.trkRestart n) 0 [] s))
      ∧ (¬ ok s n → Completes (.trkRestart dt h n) s (AnswersWith dt h (.trkRestart n) 0x0501 [] s)))
  ∧ (∀ dt h n len bytes s, Ready h (.trkMbxSend n len bytes) s →
      (¬ ok s n → n < 72 → Completes (.trkMbxSend dt h n len bytes) s (AnswersWith dt h (.trkMbxSend n len bytes) 0x0501 [] s))
      ∧ (ok s n → linkRun s n = false → Completes (.trkMbxSend dt h n len bytes) s (AnswersWith dt h (.trkMbxSend n len bytes) 0x0502 [] s))
      ∧ (ok s n → linkRun s n = true → 256 < (linkTrack s n).txq.length + bytes.length →
          Completes (.trkMbxSend dt h n len bytes) s (AnswersWith dt h (.trkMbxSend n len bytes) 0x0503 [] s))
      ∧ (ok s n → linkRun s n = true → ∀ last, bytes.getLast? = some last → (∀ b, b ∈ bytes → b < 256) → (linkTrack s n).txq.length + bytes.length ≤ 256 →
          Completes (.trkMbxSend dt h n len bytes) s fun t => Waits h s t
            ∧ (linkTrack t n).txq = (linkTrack s n).txq ++ bytes.dropLast.map (fun b => (b, false)) ++ [(last, true)]
            ∧ t = { tick dt s with regs := t.regs, cmd := t.cmd, trk := t.trk } ∧ RegsBut (Reg.trkMbxStatus n :: ringRegs) s t
            ∧ (∀ m, m ≠ n → linkTrack t m = linkTrack s m)))
  ∧ (∀ dt s, powered s = true → ∀ n, n < 72 → let q := linkTrack s n
    (served s (Reg.trkMbxData n) true → ∀ value : Word, if q.txq.length < 256 then
          Completes (.trkMbxDataWrite dt n value) s fun t => linkTrack t n = { q with txq := q.txq ++ [(value.toNat % 256, decide (value.toNat / 256 % 2 = 1))] }
            ∧ LinkOnly n [Reg.trkMbxStatus n] dt s t
        else Completes (.trkMbxDataWrite dt n value) s fun t => getB t (Reg.trkMbxStatus n) 10 = true ∧ RegsOnly [Reg.trkMbxStatus n] dt s t)
    ∧ (served s (Reg.trkMbxData n) false →
        (q.rxq = [] → Completes (.trkMbxDataRead dt n) s fun t => t = { tick dt s with readData := 0 })
        ∧ (∀ b rest, q.rxq = b :: rest → b.1 < 256 → Completes (.trkMbxDataRead dt n) s fun t =>
            t.readData = BitVec.ofNat 32 (b.1 + (if b.2 = true then 256 else 0) + 512) ∧ linkTrack t n = { q with rxq := rest }
              ∧ LinkOnly n [Reg.trkMbxStatus n] dt s { t with readData := s.readData }))
    ∧ (served s (Reg.trkLinkCtrl n) true →
        (getB s (Reg.trkLinkCtrl n) 0 = false → Completes (.trkLinkEnable dt n true) s fun t => getB t (Reg.trkLinkCtrl n) 0 = true ∧ restarted 0 n t ∧ LinkOnly n (linkRegs n) dt s t)
        ∧ (getB s (Reg.trkLinkCtrl n) 0 = true → Completes (.trkLinkEnable dt n true) s fun t => getB t (Reg.trkLinkCtrl n) 0 = true ∧ RegsOnly [Reg.trkLinkCtrl n] dt s t)
        ∧ (Completes (.trkLinkEnable dt n false) s fun t => getB t (Reg.trkLinkCtrl n) 0 = false ∧ linkPhase t n = 0 ∧ getF t (linkStA n) 16 16 = 0
            ∧ LinkOnly n (linkRegs n) dt s t)
        ∧ (getB s (Reg.trkLinkCtrl n) 0 = true → Completes (.trkLinkRestart dt n) s fun t => restarted 0x60 n t ∧ LinkOnly n (linkRegs n) dt s t)
        ∧ (getB s (Reg.trkLinkCtrl n) 0 = false → Completes (.trkLinkRestart dt n) s fun t => t = tick dt s)
        ∧ (∀ follower, Completes (.trkRoleWrite dt n follower) s fun t => linkFollower t n = follower
            ∧ (getB s (Reg.trkLinkCtrl n) 0 = true → restarted 0x60 n t) ∧ (getB s (Reg.trkLinkCtrl n) 0 = false → RegsOnly [Reg.trkLinkCtrl n] dt s t)
            ∧ LinkOnly n (linkRegs n) dt s t)
        ∧ (∀ manual, if modeNow s = 5 ∨ linkUsed s n = false then
              Completes (.trkManualWrite dt n manual) s fun t => getB t (Reg.trkLinkCtrl n) 6 = manual ∧ RegsOnly [Reg.trkLinkCtrl n] dt s t
            else Completes (.trkManualWrite dt n manual) s fun t => getB t (linkStA n) 14 = true ∧ RegsOnly [linkStA n] dt s t)))
  ∧ (∀ dt s, powered s = true → ∀ lane, lane < 576 → let n := lane / 8; let q := laneTrack s lane
    (served s (Reg.trkLaneCtrl lane) true →
      (Completes (.edgeStart dt lane) s fun t => getB t (Reg.trkLaneStatus lane) 1 = false ∧ RegsOnly [Reg.trkLaneStatus lane] dt s t)
      ∧ (getB s (Reg.trkLinkCtrl n) 6 = true → Completes (.trkLaneSlip dt lane) s fun t => laneTrack t lane = { q with slips := q.slips + 1, slipWait := 0, okRun := 0 }
          ∧ getB t (Reg.trkLaneStatus lane) 0 = false ∧ LinkOnly n [Reg.trkLaneStatus lane] dt s t)
      ∧ (getB s (Reg.trkLinkCtrl n) 6 = false → Completes (.trkLaneSlip dt lane) s fun t => getB t (linkStA n) 14 = true ∧ RegsOnly [linkStA n] dt s t))
    ∧ (served s (Reg.trkTxCtrl lane) true →
      (getB s (Reg.trkLinkCtrl n) 6 = true → Completes (.trkErrInject dt lane) s fun t =>
          laneTrack t lane = { q with injected := q.injected + (if getB s (Reg.trkTxCtrl lane) 0 = true then 1 else 0) } ∧ LinkOnly n [] dt s t)
      ∧ (getB s (Reg.trkLinkCtrl n) 6 = false → Completes (.trkErrInject dt lane) s fun t => getB t (linkStA n) 14 = true ∧ RegsOnly [linkStA n] dt s t)))

/-! ## Engines and probes (09_ibex_engines.md) -/

/-- An engine that is powered passes a self-test whose signature is that of the task library; another signature, one forced by INJECT among them, is counted and is a fault, as is a memory word with two changed bits; one with a single changed bit is corrected and only counted (of more changed bits the manual says nothing: log 184). A fault of an engine in service sets STATE FAULT, or FAILED at the third within one hour, FAULT_SEEN and the engine's bit of the summary, starts the reload while the firmware serves, and takes an AIR_PATH penalty where a task serves a port on air. ENGINE_RELOAD_DONE ends the reload. ENGINE_RETURN brings a reloaded engine back after four passes in a row, while the firmware serves, and restarts its probes. RESET and INJECT act in SERVICE and otherwise set REFUSED. No other engine's state changes. -/
def Obligations.EnginesFaultReloadAndReturn : Prop :=
  let others := fun (e : Nat) (s t : State) => ∀ x, x ≠ e → engTrack t x = engTrack s x
  let changed := fun (x : BitVec 72) => ((List.range 72).filter fun i => x.toNat / 2 ^ i % 2 = 1).length
  let recent := fun (e : Nat) (dt : Nat) (s : State) => ((engTrack s e).faults.filter fun x => decide (s.mono + dt < x + 3600 * tickSec)).length
  let faulted := fun (e dt : Nat) (cnt : Nat) (s t : State) => engState t e = (if 2 ≤ recent e dt s then 3 else 2) ∧ getB t (Reg.ibxStatus e) 4 = true
    ∧ getB t (Reg.ibxStatus e) 3 = (decide (recent e dt s < 2) && decide (server s = 1)) ∧ getB t (Reg.ibxStatus e) 7 = engineAir s e
    ∧ getF t (Reg.ibxStatus e) 8 4 = min 15 (recent e dt s + 1) ∧ getB t (Reg.ibxSummary (e / 32)) (e % 32) = true
    ∧ (engTrack t e).passes = 0 ∧ (engTrack t e).reloaded = false ∧ (engTrack t e).back = none ∧ others e s t
    ∧ (engineAir s e = true → getB t Reg.pairHealth 16 = true)
    ∧ (engineAir s e = false → t = { tick dt s with regs := t.regs, evq := t.evq, ibx := t.ibx } ∧ RegsBut [Reg.ibxStatus e, Reg.ibxSummary (e / 32), cnt] s t)
  (∀ dt s, powered s = true → ∀ e, e < 128 → let q := engTrack s e
    (∀ sign, engPowered s e = false → Completes (.engineSelfTest dt e sign) s fun t => t = tick dt s)
    ∧ (engPowered s e = true → q.inject = false → Completes (.engineSelfTest dt e Config.engineSignature) s fun t =>
        getB t (Reg.ibxStatus e) 2 = true ∧ engTrack t e = { q with passes := q.passes + 1 } ∧ others e s t
          ∧ t = { tick dt s with regs := t.regs, ibx := t.ibx } ∧ RegsBut [Reg.ibxStatus e] s t)
    ∧ (∀ sign, engPowered s e = true → sign ≠ Config.engineSignature ∨ q.inject = true → engState s e < 2 → Completes (.engineSelfTest dt e sign) s fun t =>
        getB t (Reg.ibxStatus e) 2 = false ∧ (rd t (Reg.ibxStFails (e / 32))).toNat = min (2 ^ 32 - 1) ((rd s (Reg.ibxStFails (e / 32))).toNat + 1)
          ∧ (engTrack t e).inject = false ∧ faulted e dt (Reg.ibxStFails (e / 32)) s t)
    ∧ (∀ sign, engPowered s e = true → sign ≠ Config.engineSignature ∨ q.inject = true → 2 ≤ engState s e → Completes (.engineSelfTest dt e sign) s fun t =>
        engState t e = engState s e ∧ (engTrack t e).passes = 0 ∧ t.evq = s.evq ∧ others e s t ∧ RegsBut [Reg.ibxStatus e, Reg.ibxStFails (e / 32)] s t)
    ∧ (Completes (.engineMemoryEccError dt e 0) s fun t => t = tick dt s)
    ∧ (∀ flips : BitVec 72, changed flips = 1 → Completes (.engineMemoryEccError dt e flips) s fun t => getB t (Reg.ibxStatus e) 5 = true
        ∧ getF t (Reg.ibxEcc e) 0 16 = min (2 ^ 16 - 1) (getF s (Reg.ibxEcc e) 0 16 + 1) ∧ RegsOnly [Reg.ibxStatus e, Reg.ibxEcc e] dt s t)
    ∧ (∀ flips : BitVec 72, changed flips = 2 → engState s e < 2 → Completes (.engineMemoryEccError dt e flips) s fun t =>
        getF t (Reg.ibxEcc e) 16 16 = min (2 ^ 16 - 1) (getF s (Reg.ibxEcc e) 16 16 + 1) ∧ faulted e dt (Reg.ibxEcc e) s t)
    ∧ (getB s (Reg.ibxStatus e) 3 = true → Completes (.engineReloadDone dt e) s fun t => getB t (Reg.ibxStatus e) 3 = false
        ∧ engTrack t e = { q with passes := 0, reloaded := true } ∧ others e s t ∧ t = { tick dt s with regs := t.regs, ibx := t.ibx } ∧ RegsBut [Reg.ibxStatus e] s t)
    ∧ (getB s (Reg.ibxStatus e) 3 = false → Completes (.engineReloadDone dt e) s fun t => t = tick dt s)
    ∧ (if engState s e = 2 ∧ q.reloaded = true ∧ 4 ≤ q.passes ∧ server s = 1 then
        Completes (.engineReturn dt e) s fun t => engState t e = (if (tasksOf s e).isEmpty = true then 0 else 1) ∧ getB t (Reg.ibxSummary (e / 32)) (e % 32) = false
          ∧ (engTrack t e).reloaded = false ∧ (engTrack t e).back = some (s.now + dt) ∧ others e s t ∧ (∀ k, k ∈ tasksOf s e → k.probe < 512 → getB t (Reg.prbStatus k.probe) 6 = true
              ∧ getF t (Reg.prbStatus k.probe) 8 12 = 0 ∧ (probeTrack t k.probe).black = 0 ∧ (probeTrack t k.probe).frozen = 0)
          ∧ t = { tick dt s with regs := t.regs, ibx := t.ibx }
          ∧ RegsBut ([Reg.ibxStatus e, Reg.ibxSummary (e / 32)] ++ (tasksOf s e).flatMap fun k => [Reg.prbStatus k.probe, Reg.prbInteg k.probe]) s t
      else Completes (.engineReturn dt e) s fun t => t = tick dt s)
    ∧ (refusalCause s .pcie (Reg.ibxCtrl e + 0x10000000) 4 true = none →
        (modeNow s = 5 → (Completes (.ibxCtrlReset dt e) s fun t => getB t (Reg.ibxStatus e) 3 = true ∧ engTrack t e = { q with passes := 0, reloaded := false } ∧ others e s t
              ∧ t = { tick dt s with regs := t.regs, ibx := t.ibx } ∧ RegsBut [Reg.ibxStatus e] s t)
            ∧ Completes (.ibxCtrlInject dt e) s fun t => engTrack t e = { q with inject := true } ∧ others e s t ∧ t = { tick dt s with ibx := t.ibx })
        ∧ (modeNow s ≠ 5 → (Completes (.ibxCtrlReset dt e) s fun t => getB t (Reg.ibxStatus e) 6 = true ∧ RegsOnly [Reg.ibxStatus e] dt s t)
            ∧ Completes (.ibxCtrlInject dt e) s fun t => getB t (Reg.ibxStatus e) 6 = true ∧ RegsOnly [Reg.ibxStatus e] dt s t)))

/-- PROBE_FRAME_EVAL at a probe of kind 1 that runs, with the luma samples of the frame's active lines: the black count goes on while at most one sample in 1,024 exceeds BLACK_LEVEL and the freeze count while the mean absolute difference of every fourth sample of every fourth line from the frame before is at most FREEZE_MAD sixteenths of a code (a first frame is not frozen: log 203), each starting again otherwise; BLACK and FROZEN show that the count has reached the probe's setting, and the register shows the larger count, saturated. LOUDNESS_BLOCK at a probe of kind 2 that runs: the four values in their register form, not below -70.00, and the alarms ST and TP while the short-term value or the true peak exceeds its limit. A probe of another kind, or one that does not run, keeps its last results. -/
def Obligations.ProbesCountAndMeasure : Prop :=
  let form := fun (v : Int) => ((min 32767 (max (-7000) v)) % 65536).toNat
  let total := fun (l : List Nat) => l.foldl (fun a b => a + b) 0
  let dist := fun (x : Nat × Nat) => ((x.1 : Int) - x.2).natAbs
  (∀ (α : Type) (l : List α) k, nth? (fourths l) k = nth? l (4 * k))
  ∧ (∀ dt s, powered s = true → ∀ p, p < 512 → ∀ luma : List (List Nat), let q := probeTrack s p; let a := Reg.prbStatus p
    let now := (fourths luma).flatMap fourths
    (getF s a 0 2 ≠ 1 ∨ probeRuns s p = false → Completes (.probeFrameEval dt p luma) s fun t => t = tick dt s)
    ∧ (getF s a 0 2 = 1 → probeRuns s p = true → Completes (.probeFrameEval dt p luma) s fun t =>
        let b := if (luma.flatten.filter fun y => decide (q.conf.blackLevel < y)).length * 1024 ≤ luma.flatten.length then q.black + 1 else 0
        let f := if now ≠ [] ∧ q.last.length = now.length ∧ 16 * total ((q.last.zip now).map dist) ≤ q.conf.freezeMad * now.length then q.frozen + 1 else 0
        probeTrack t p = { q with black := b, frozen := f, last := now } ∧ getF t a 8 12 = min 4095 (max b f) ∧ getB t a 2 = decide (q.conf.blackFrames ≤ b)
          ∧ getB t a 3 = decide (q.conf.freezeFrames ≤ f) ∧ (getB t a 2 = getB s a 2 → getB t a 3 = getB s a 3 → t.evq = s.evq)
          ∧ (∀ x, x ≠ p → probeTrack t x = probeTrack s x) ∧ t = { tick dt s with regs := t.regs, evq := t.evq, ibx := t.ibx } ∧ RegsBut [a] s t))
  ∧ (∀ dt s, powered s = true → ∀ p, p < 512 → ∀ info : LoudInfo, let q := probeTrack s p; let a := Reg.prbStatus p
    (getF s a 0 2 ≠ 2 ∨ probeRuns s p = false → Completes (.loudnessBlock dt p info) s fun t => t = tick dt s)
    ∧ (getF s a 0 2 = 2 → probeRuns s p = true → Completes (.loudnessBlock dt p info) s fun t =>
        getF t (Reg.prbLoud p) 0 16 = form info.momentary ∧ getF t (Reg.prbLoud p) 16 16 = form info.shortTerm
          ∧ getF t (Reg.prbInteg p) 0 16 = form info.integrated ∧ getF t (Reg.prbInteg p) 16 16 = form info.truePeak
          ∧ getB t a 4 = decide (q.conf.stLimit < info.shortTerm) ∧ getB t a 5 = decide (q.conf.tpLimit < info.truePeak)
          ∧ (info.shortTerm ≤ q.conf.stLimit → info.truePeak ≤ q.conf.tpLimit → t.evq = s.evq) ∧ (probeTrack t p).conf = q.conf
          ∧ (∀ x, x ≠ p → probeTrack t x = probeTrack s x) ∧ t = { tick dt s with regs := t.regs, evq := t.evq, ibx := t.ibx }
          ∧ RegsBut [a, Reg.prbLoud p, Reg.prbInteg p] s t))

/-! ## Ethernet ports and media flows (07_ethernet_ports.md, 08_media_flows.md) -/

/-- ETH_FRAME_RECEIVED on a channel that is up. The checks of R305 stand in a list in their order, each with its counter: FCS or FEC, runt, oversize, control frame of another opcode, malformed, more than one VLAN tag or no filter, malformed RTP header on a media match, host queue full. The first that applies increments its counter and none of the others. A PAUSE frame of order 4 is counted, sets PAUSE_SEEN, and with quanta stops the transmitter for that many pause quanta, reloading a running timer, while zero ends a pause. A frame that no check stops counts in RX_FRAMES and, with its length, in RX_BYTES. On a channel that is down nothing changes. -/
def Obligations.ReceivedFramesTakeTheFirstCheck : Prop :=
  let stat := fun (s : State) (g k : Nat) => get64 s (Reg.ethStatLo g k)
  let up1 := fun (n v : Nat) => min (2 ^ 64 - 1) (n + v)
  let sup := fun (s : State) (g : Nat) (f : EthFrame) => (ptpOn s g).isSome && decide (f.hostClass = some 4)
  let ipBad : IpHead → Bool := fun h => (if h.v6 = true then decide (h.version ≠ 6) || h.otherExt else decide (h.version ≠ 4) || decide (h.ihl < 5) || !h.sumOk || h.fragment)
    || decide (h.space < h.ipLen)
    || (h.udp && (decide (h.udpLen ≠ h.udpIpLen) || ((h.v6 || decide (h.udpSum ≠ 0)) && (!h.udpSumOk || decide (h.udpSum = 0)))))
  let checks : State → Nat → EthFrame → List (Bool × Nat) := fun s g f =>
    [(!f.fcsOk || !f.fecOk, 4), (decide (f.len < 64), 5), (decide (9216 < f.len), 6), (decide (f.etherType = 0x8808), 10), (f.ip.any ipBad, 8),
     (decide (1 < f.vlanTags) || ((flowMatch s g f).isNone && (hostClassOf s g f (flowMatch s g f).isSome).isNone && !sup s g f), 7),
     ((flowMatch s g f).isSome && (decide (f.rtp.version ≠ 2) || decide (f.rtp.udpLen < f.rtp.headerLen)), 8),
     (((hostClassOf s g f (flowMatch s g f).isSome).isSome || sup s g f) && decide (262144 < sumL ((ethTrack s g).hostq.map fun e => e.1.len) + f.len), 11)]
  ∀ (dt : Nat) (s : State), powered s = true → ∀ g, g < 64 → ∀ f : EthFrame,
    (ethUp s g = false → Completes (.ethFrameReceived dt g f) s fun t => t = tick dt s)
    ∧ (ethUp s g = true →
      (∀ c, ((checks (tick dt s) g f).find? fun c => c.1) = some c → ¬ (c.2 = 10 ∧ f.opcode = 1) → Completes (.ethFrameReceived dt g f) s fun t =>
          stat t g c.2 = up1 (stat s g c.2) 1 ∧ RegsBut [Reg.ethStatLo g c.2, Reg.ethStatLo g c.2 + 4] s t ∧ t = { tick dt s with regs := t.regs, eth := t.eth }
            ∧ (∀ x, x ≠ g → ethTrack t x = ethTrack s x) ∧ (ethTrack t g).pbuf = (ethTrack s g).pbuf ∧ (ethTrack t g).hostq = (ethTrack s g).hostq
            ∧ (ethTrack t g).pauseEnd = (ethTrack s g).pauseEnd)
      ∧ (∀ c, ((checks (tick dt s) g f).find? fun c => c.1) = some c → c.2 = 10 ∧ f.opcode = 1 → (ethTrack s g).pbuf = [] → Completes (.ethFrameReceived dt g f) s fun t =>
          stat t g 9 = up1 (stat s g 9) 1 ∧ getB t (Reg.ethChStatus g) 2 = true
            ∧ (ethTrack t g).pauseEnd = (if f.quanta = 0 then none else some ((s.mono + dt) * 100 + f.quanta * ethQuantum s g))
            ∧ getB t (Reg.ethChStatus g) 0 = decide (f.quanta ≠ 0) ∧ (ethTrack t g).pbuf = [] ∧ (∀ x, x ≠ g → ethTrack t x = ethTrack s x)
            ∧ t = { tick dt s with regs := t.regs, eth := t.eth, evq := t.evq }
            ∧ RegsBut [Reg.ethStatLo g 9, Reg.ethStatLo g 9 + 4, Reg.ethChStatus g, Reg.ethPbufLevel g, Reg.ethPbufHigh g] s t)
      ∧ (((checks (tick dt s) g f).find? fun c => c.1) = none → Completes (.ethFrameReceived dt g f) s fun t =>
          stat t g 0 = up1 (stat s g 0) 1 ∧ stat t g 1 = up1 (stat s g 1) f.len ∧ (∀ k, k ∈ [2, 4, 5, 6, 7, 8, 9, 10, 11] → stat t g k = stat s g k)
            ∧ (flowMatch (tick dt s) g f = none → getB s Reg.cmdCtrl 1 = false → server s ≠ 1 ∨ sup s g f = false →
                ∃ e, (ethTrack t g).hostq = (ethTrack s g).hostq ++ [e] ∧ e.1 = f)))

/-- SEND_FRAME_DUE of a host frame leaves at once on a channel that is up, not paused and not draining, counted in TX_FRAMES and TX_BYTES; with TS_INSERT its correctionField has grown by the time since T0, known to 2 ns, and its UDP checksum is 0 for IPv4. While paused it joins the end of the pause buffer; where the buffer would overflow, whole frames are discarded until it fits, each counted in PBUF_DROP, the arriving frame alone where its class is lower than that of every queued frame and that is enough. On a channel that is down it is discarded, counted in TX_LINK_DISCARD. A packet of a send leg whose essence has passed the emission point leaves likewise in a frame with the leg's addresses, or is only counted as held where this unit does not send the leg, its engine is down or the line was withheld. When the pause timer expires the buffer drains in order, each frame in its own time on the wire and counted in PBUF_SENT; before that nothing starts. HTX_TAIL_WRITE sends the announced frames so and writes their STATUS; HRX_TAIL_WRITE posts buffers, and a waiting frame goes into the first. Nothing of another channel changes. -/
def Obligations.DueFramesAreSentHeldOrDiscarded : Prop :=
  let stat := fun (s : State) (g k : Nat) => get64 s (Reg.ethStatLo g k)
  let more := fun (s t : State) (g k v : Nat) => stat t g k = min (2 ^ 64 - 1) (stat s g k + v)
  let same := fun (s t : State) (g : Nat) (ks : List Nat) => ∀ k, k < 15 → k ∉ ks → stat t g k = stat s g k
  let bytes := fun (l : List QFrame) => (l.map fun q => q.frame.len).foldr (· + ·) 0
  let chOnly := fun (g : Nat) (s t : State) => ∀ x, x ≠ g → ethTrack t x = ethTrack s x
  let own := fun (f : SendFrame) => { f with cls := 3, leg := none, media := none }
  let drained := fun (g at_ now : Nat) (s t : State) => let l := (ethTrack s g).pbuf
    let start := fun (k : Nat) => at_ + (bytes (l.take k) + 20 * k) * ethByte s g
    ∃ k, k ≤ l.length ∧ (∀ j, j < k → start j ≤ now) ∧ (k < l.length → now < start k) ∧ (ethTrack t g).pbuf = l.drop k ∧ (ethTrack t g).pauseEnd = none
      ∧ (ethTrack t g).drainAt = start k ∧ more s t g 13 k ∧ more s t g 2 k ∧ more s t g 3 (bytes (l.take k)) ∧ same s t g [2, 3, 13]
      ∧ ((ethTrack t g).sent.map SendFrame.len = if k = 0 then (ethTrack s g).sent.map SendFrame.len else (nth? l (k - 1)).map fun q => q.frame.len)
      ∧ getB t (Reg.ethChStatus g) 0 = false ∧ getB t (Reg.ethChStatus g) 1 = decide (k < l.length) ∧ getF t (Reg.ethPbufLevel g) 0 22 = bytes (l.drop k) % 2 ^ 22 ∧ chOnly g s t
  (∀ dt s, powered s = true → ∀ g, g < 64 → let q := ethTrack s g; ∀ f : SendFrame,
    (ethUp s g = true → q.pauseEnd = none → q.pbuf = [] → Completes (.sendFrameDue dt g (.host f)) s fun t =>
        more s t g 2 1 ∧ more s t g 3 f.len ∧ same s t g [2, 3] ∧ (ethTrack t g).pbuf = [] ∧ chOnly g s t
          ∧ (f.tsInsert = false → (ethTrack t g).sent = some (own f) ∧ t = { tick dt s with regs := t.regs, eth := t.eth })
          ∧ (f.tsInsert = true → ∃ x, (ethTrack t g).sent = some x ∧ ∃ j : Int, j.natAbs ≤ 131072 ∧ let d := ((((s.now + dt) * 65536 / 297 : Nat) : Int) + j - f.t0) % 2 ^ 48
              x.correction = (if 2 ^ 47 ≤ d then f.correction else min (2 ^ 63 - 1) (f.correction + d)) ∧ (f.v6 = false → x.udpSum = 0) ∧ (f.v6 = true → x.udpSum = f.udpSum)
              ∧ (2 ^ 47 ≤ d → getB t Reg.tmbStatus 3 = true) ∧ own { x with correction := f.correction, udpSum := f.udpSum, pad := f.pad } = own f
              ∧ t = { tick dt s with regs := t.regs, eth := t.eth, free := t.free }))
    ∧ (ethUp s g = false → q.pauseEnd = none → q.pbuf = [] → Completes (.sendFrameDue dt g (.host f)) s fun t =>
        more s t g 14 1 ∧ same s t g [14] ∧ (ethTrack t g).sent = q.sent ∧ chOnly g s t ∧ t = { tick dt s with regs := t.regs, eth := t.eth })
    ∧ (ethUp s g = true → ∀ e, q.pauseEnd = some e → (s.mono + dt) * 100 < e → bytes q.pbuf ≤ ethPbufSize s g →
        let new : QFrame := { frame := own f, htx := none }
        (bytes q.pbuf + f.len ≤ ethPbufSize s g → Completes (.sendFrameDue dt g (.host f)) s fun t => (ethTrack t g).pbuf = q.pbuf ++ [new]
            ∧ (ethTrack t g).sent = q.sent ∧ getB t (Reg.ethChStatus g) 0 = true ∧ same s t g [] ∧ t.evq = s.evq ∧ chOnly g s t)
        ∧ (ethPbufSize s g < bytes q.pbuf + f.len → Completes (.sendFrameDue dt g (.host f)) s fun t => bytes (ethTrack t g).pbuf ≤ ethPbufSize s g
            ∧ ((ethTrack t g).pbuf).Sublist (q.pbuf ++ [new]) ∧ getB t (Reg.ethChStatus g) 3 = true
            ∧ more s t g 12 (q.pbuf.length + 1 - (ethTrack t g).pbuf.length) ∧ same s t g [12] ∧ (ethTrack t g).sent = q.sent
            ∧ ((∀ x, x ∈ q.pbuf → 3 < x.frame.cls) → (ethTrack t g).pbuf = q.pbuf)))
    ∧ (∀ fl blue index stream e, flowEntry? (tick dt s) fl = some e → fl < 2304 → legChannel (if blue = true then e.blue else e.red) = g →
        let c : Instr := .sendFrameDue dt g (.packet fl blue index stream); let a := Reg.flowStatus fl; let tx := if blue = true then 13 else 12
        (mediaSilent s = true → Completes c s fun t => getB t a 12 = false ∧ getB t a 13 = false ∧ RegsOnly [a] dt s t)
        ∧ (mediaSilent s = false → duePacket (tick dt s) fl e blue index stream = none → Completes c s fun t => t = tick dt s)
        ∧ (mediaSilent s = false → ∀ r w, duePacket (tick dt s) fl e blue index stream = some (r, w) →
            (flowEngineDown (tick dt s) fl = true ∨ w = true ∨ getB s a tx = false → Completes c s fun t =>
              (rd t (Reg.flowTxHeld fl)).toNat = min (2 ^ 32 - 1) ((rd s (Reg.flowTxHeld fl)).toNat + 1)
                ∧ t = { tick dt s with regs := t.regs, free := t.free } ∧ RegsBut [Reg.flowTxHeld fl] s t)
            ∧ (flowEngineDown (tick dt s) fl = false → w = false → getB s a tx = true → ethUp s g = true → q.pauseEnd = none → q.pbuf = [] → Completes c s fun t =>
              (∃ x, (ethTrack t g).sent = some x ∧ 64 ≤ x.len ∧ x.cls = e.cls ∧ more s t g 3 x.len
                  ∧ x.media = some { v6 := decide (e.flags / 2 % 2 = 1), leg := if blue = true then e.blue else e.red, rtp := r })
                ∧ more s t g 2 1 ∧ get64 t (Reg.flowStatLo fl (if blue = true then 1 else 0)) = min (2 ^ 64 - 1) (get64 s (Reg.flowStatLo fl (if blue = true then 1 else 0)) + 1)
                ∧ r.version = 2 ∧ r.pt = e.pt ∧ r.ssrc = e.ssrc ∧ r.seq < 65536 ∧ r.timestamp < 2 ^ 32 ∧ chOnly g s t))))
  ∧ (∀ dt s, powered s = true → ∀ g, g < 64 → let q := ethTrack s g; let now := (s.mono + dt) * 100; let regs := [Reg.ethChStatus g, Reg.ethPbufLevel g, Reg.ethPbufHigh g]
    (∀ e, q.pauseEnd = some e → now < e → (Completes (.pauseTimerExpiry dt g) s fun t => t.eth = s.eth ∧ getB t (Reg.ethChStatus g) 0 = true
          ∧ getB t (Reg.ethChStatus g) 1 = false ∧ RegsOnly regs dt s t) ∧ (Completes (.pauseBufferEmpty dt g) s fun t => t.eth = s.eth ∧ RegsOnly regs dt s t))
    ∧ ((∀ x, x ∈ q.pbuf → ∀ l, x.frame.leg = some l → l.1 < 4608) →
        (∀ e, q.pauseEnd = some e → e ≤ now → (Completes (.pauseTimerExpiry dt g) s (drained g e now s)) ∧ Completes (.pauseBufferEmpty dt g) s (drained g e now s))
        ∧ (q.pauseEnd = none → (Completes (.pauseTimerExpiry dt g) s (drained g q.drainAt now s)) ∧ Completes (.pauseBufferEmpty dt g) s (drained g q.drainAt now s)))
    ∧ (q.pauseEnd = none → ∀ x r, q.pbuf = x :: r → now < q.drainAt → Completes (.pauseBufferEmpty dt g) s fun t => t.eth = s.eth ∧ getB t (Reg.ethChStatus g) 1 = true
          ∧ RegsOnly regs dt s t))
  ∧ (∀ dt tail s, powered s = true → ∀ d : HtxDesc, s.cmd.htx = [] → let i := getF s Reg.htxHead 0 12 % ringSize s 8; let g := d.channel
    (∀ ds, Completes (.htxTailWrite dt tail ds) s fun t => getF t Reg.htxTail 0 12 = tail % 4096)
    ∧ (getB s Reg.cmdCtrl 1 = false ∨ s.pins.pcieUp = false → ∀ ds, Completes (.htxTailWrite dt tail ds) s fun t => getF t Reg.htxTail 0 12 = tail % 4096 ∧ RegsOnly [Reg.htxTail] dt s t)
    ∧ (getB s Reg.cmdCtrl 1 = true → s.pins.pcieUp = true → 64 ≤ g → Completes (.htxTailWrite dt tail [d]) s fun t =>
        tabFind i t.cmd.htxStatus = some 1 ∧ t.cmd.htx = [] ∧ t.eth = s.eth)
    ∧ (getB s Reg.cmdCtrl 1 = true → s.pins.pcieUp = true → g < 64 → (ethTrack s g).pauseEnd = none → (ethTrack s g).pbuf = [] →
        Completes (.htxTailWrite dt tail [d]) s fun t => tabFind i t.cmd.htxStatus = some (if ethUp s g = true then 0 else 1) ∧ t.cmd.htx = []
          ∧ (getF s Reg.htxHead 0 12 < ringSize s 8 → getF t Reg.htxHead 0 12 = (i + 1) % ringSize s 8)
          ∧ (if ethUp s g = true then more s t g 2 1 ∧ more s t g 3 (d.len + 4) ∧ same s t g [2, 3] else more s t g 14 1 ∧ same s t g [14])
          ∧ chOnly g s t)
    ∧ (getB s Reg.cmdCtrl 1 = true → s.pins.pcieUp = true → g < 64 → ethUp s g = true → ∀ e, (ethTrack s g).pauseEnd = some e → (s.mono + dt) * 100 < e →
        bytes (ethTrack s g).pbuf + d.len + 4 ≤ ethPbufSize s g → Completes (.htxTailWrite dt tail [d]) s fun t =>
          t.cmd.htx = [(i, false)] ∧ (∃ x, (ethTrack t g).pbuf = (ethTrack s g).pbuf ++ [x] ∧ x.htx = some i ∧ x.frame.len = d.len + 4 ∧ x.frame.cls = 3)
            ∧ getF t Reg.htxHead 0 12 = getF s Reg.htxHead 0 12 ∧ same s t g [] ∧ chOnly g s t))
  ∧ (∀ dt tail s, powered s = true → Completes (.hrxTailWrite dt tail) s fun t => getF t Reg.hrxTail 0 12 = tail % 4096)
  ∧ (∀ dt tail s, powered s = true → (∀ e, e ∈ s.eth.ch → e.2.hostq = []) → Completes (.hrxTailWrite dt tail) s fun t =>
      getF t Reg.hrxTail 0 12 = tail % 4096 ∧ t = { tick dt s with regs := t.regs, free := s.free + 1 } ∧ RegsBut [Reg.hrxTail] s t)
  ∧ (∀ dt tail s, powered s = true → getB s Reg.cmdCtrl 1 = true → s.pins.pcieUp = true → ∀ g q, s.eth.ch = [(g, q)] → ∀ x, q.hostq = [x] → x.2.1 ≠ 16 →
      getF s Reg.hrxHead 0 12 ≠ tail % 4096 % ringSize s 12 → Completes (.hrxTailWrite dt tail) s fun t => (ethTrack t g).hostq = []
        ∧ (∃ e, tabFind (getF s Reg.hrxHead 0 12) t.cmd.hrx = some e ∧ e.channel = g ∧ e.len = x.1.len - 4 ∧ e.cls = x.2.1 ∧ e.phase = decide (s.cmd.hrxPass % 2 = 1))
        ∧ getF t Reg.hrxHead 0 12 = (getF s Reg.hrxHead 0 12 + 1) % ringSize s 12)

/-- ETH_LINK_UP sets LINK_UP where the port may run, and changes nothing elsewhere. ETH_LINK_DOWN of a channel that is up clears LINK_UP, sets its sticky flag, discards the pause buffer, each frame counted in TX_LINK_DISCARD, and clears a running pause; of a channel that is down it changes nothing. Which condition of R303 failed is open: FEC_LOCK and HI_SER take free values (log 3). ETH_LOOPBACK_WRITE acts in SERVICE and otherwise sets REFUSED. ETH_HOST_SET sets the host classes and OWN_MAC of a channel that the mode runs, and is refused ETH_RANGE elsewhere. -/
def Obligations.LinksAndPortRegisters : Prop :=
  (∀ dt s, powered s = true → ∀ g, g < 64 → let a := Reg.ethPortStatus (g / 4); let q := ethTrack s g
    (ethAllowed s g = true → Completes (.ethLinkUp dt g) s fun t => ethUp t g = true ∧ (∀ x, x < 4 → x ≠ g % 4 → getB t a (4 + x) = getB s a (4 + x)) ∧ RegsEvents [a] dt s t)
    ∧ (ethAllowed s g = false → Completes (.ethLinkUp dt g) s fun t => t = tick dt s)
    ∧ (ethUp s g = false → Completes (.ethLinkDown dt g) s fun t => t = tick dt s)
    ∧ (ethUp s g = true → q.pauseEnd = none → q.pbuf = [] → Completes (.ethLinkDown dt g) s fun t => ethUp t g = false ∧ getB t (Reg.ethChStatus g) 4 = true
        ∧ (∀ x, x < 4 → x ≠ g % 4 → getB t a (4 + x) = getB s a (4 + x)) ∧ (∀ x, x ≠ g → ethTrack t x = ethTrack s x)
        ∧ t = { tick dt s with regs := t.regs, evq := t.evq, eth := t.eth, free := s.free + 1 } ∧ RegsBut [a, Reg.ethChStatus g, Reg.ethPbufLevel g, Reg.ethPbufHigh g] s t)
    ∧ (ethUp s g = true → ∀ e, q.pauseEnd = some e → (s.mono + dt) * 100 < e → (∀ x, x ∈ q.pbuf → x.htx = none) → Completes (.ethLinkDown dt g) s fun t => ethUp t g = false
        ∧ (ethTrack t g).pbuf = [] ∧ (ethTrack t g).pauseEnd = none ∧ get64 t (Reg.ethStatLo g 14) = min (2 ^ 64 - 1) (get64 s (Reg.ethStatLo g 14) + q.pbuf.length)
        ∧ getB t (Reg.ethChStatus g) 0 = false ∧ getB t (Reg.ethChStatus g) 1 = false))
  ∧ (∀ dt on s, powered s = true → ∀ p, p < 16 → refusalCause s .pcie (Reg.ethPortCtrl p + 0x10000000) 4 true = none → Completes (.ethLoopbackWrite dt p on) s fun t =>
      if modeNow s = 5 then getB t (Reg.ethPortCtrl p) 1 = on ∧ RegsOnly [Reg.ethPortCtrl p] dt s t
      else getB t (Reg.ethPortStatus p) 3 = true ∧ RegsOnly [Reg.ethPortStatus p] dt s t)
  ∧ (∀ dt h g classes mac s, Ready h (.ethHostSet g classes mac) s →
      (channelRun s g = true → Completes (.ethHostSet dt h g classes mac) s fun t => Replied dt h (.ethHostSet g classes mac) 0 s t
        ∧ ethTrack t g = { ethTrack s g with classes := classes, ownMac := mac } ∧ (∀ x, x ≠ g → ethTrack t x = ethTrack s x)
        ∧ t = { tick dt s with regs := t.regs, cmd := t.cmd, eth := t.eth } ∧ RegsBut ringRegs s t)
      ∧ (channelRun s g = false → Completes (.ethHostSet dt h g classes mac) s (AnswersWith dt h (.ethHostSet g classes mac) 0x0602 [] s)))

/-- FLOW_QUERY returns 16 bytes for each used flow asked for, and FLOW_STATS the nine counters, which CLEAR then clears; an index above 4,607 or an unused entry is refused FLOW_RANGE. FLOW_LINE_DEADLINE of a receive flow with network timing counts in FLOW_LOST each position in the gaps between those received in time, up to the last whose deadline has passed, that neither leg has supplied, and sets LOSS_SEEN. FLOW_LEG_STATE_EVAL sets each leg's state: OFF where it is disabled or its channel is not run, else LATE, ACTIVE or SILENT. COLOUR_SEND_CHANGE starts a colour that the unit is to send and that needs no agreement, and stops what a silent unit must not send. COLOUR_HANDBACK at or after the agreed frame sets both colours to what the unit is to send. The frame after which the colours change is log 35. -/
def Obligations.FlowsAreCountedEvaluatedAndSent : Prop :=
  let isOk := fun (s : State) (f : Nat) => decide (f ≤ 4607) && (flowEntry? s f).isSome
  let legs := fun (f : Nat) (e : FlowEntry) (red blue : Bool) (t : State) => getB t (Reg.flowStatus f) 12 = (red && flowRedEn e) ∧ getB t (Reg.flowStatus f) 13 = (blue && flowBlueEn e)
  (∀ dt h first cnt s, Ready h (.flowQuery first cnt) s →
      (((List.range cnt).all fun i => isOk (tick dt s) (first + i)) = true → Completes (.flowQuery dt h first cnt) s (AnswersWith dt h (.flowQuery first cnt) 0
        ((List.range cnt).flatMap fun i => [(2, first + i), (4, (rd s (Reg.flowStatus (first + i))).toNat), (4, (rd s (Reg.flowDiff (first + i))).toNat),
          (4, (rd s (Reg.flowSlack (first + i))).toNat), (2, 0)]) s))
      ∧ (((List.range cnt).all fun i => isOk (tick dt s) (first + i)) = false → 1 ≤ cnt → cnt ≤ 64 →
          Completes (.flowQuery dt h first cnt) s (AnswersWith dt h (.flowQuery first cnt) 0x0601 [] s)))
  ∧ (∀ dt h f clear s, Ready h (.flowStats f clear) s → let lo := Reg.flowStatLo f
      (isOk (tick dt s) f = true → Completes (.flowStats dt h f clear) s fun t =>
        Answered h (.flowStats f clear) 0 0 (houseFrame (tick dt s)) ([get64 s (lo 0), get64 s (lo 1), get64 s (lo 2), (rd s (Reg.flowLate f)).toNat, (rd s (Reg.flowLost f)).toNat,
            (rd s (Reg.flowEarly f)).toNat, getF s (Reg.flowReject f) 0 16, getF s (Reg.flowReject f) 16 16, (rd s (Reg.flowTxHeld f)).toNat].map fun v => (8, v)) s t
          ∧ t = { tick dt s with regs := t.regs, cmd := t.cmd }
          ∧ (if clear % 2 = 0 then RegsBut ringRegs s t else (∀ a, a ∈ [lo 0, lo 0 + 4, lo 1, lo 1 + 4, lo 2, lo 2 + 4, Reg.flowLate f, Reg.flowLost f, Reg.flowEarly f,
              Reg.flowReject f, Reg.flowTxHeld f] → rd t a = 0) ∧ RegsBut (ringRegs ++ [lo 0, lo 0 + 4, lo 1, lo 1 + 4, lo 2, lo 2 + 4, Reg.flowLate f, Reg.flowLost f,
              Reg.flowEarly f, Reg.flowReject f, Reg.flowTxHeld f]) s t))
      ∧ (isOk (tick dt s) f = false → clear < 2 → Completes (.flowStats dt h f clear) s (AnswersWith dt h (.flowStats f clear) 0x0601 [] s)))
  ∧ (∀ dt s, powered s = true → ∀ f, f < 4608 → let a := Reg.flowStatus f; let q := flowTrack s f
    (flowEntry? (tick dt s) f = none → (Completes (.flowLegStateEval dt f) s fun t => t = tick dt s) ∧ (Completes (.colourSendChange dt f) s fun t => t = tick dt s)
        ∧ (Completes (.flowLineDeadline dt f) s fun t => t = tick dt s) ∧ Completes (.colourHandback dt f) s fun t => t = tick dt s)
    ∧ (∀ e, flowEntry? (tick dt s) f = some e → 2304 ≤ f →
        (flowFree f e = false → let due := (q.got.filter fun p => decide (p.deadline ≤ ((s.now + dt : Nat) : Int))).map FlowPos.pos
          let n := posSpace e; let last := q.counted.getD ((due.headD 0 + n - 1) % n)
          let ahead := (due.map fun p => (p + n - last) % n).filter fun d => decide (0 < d) && decide (d < n / 2); let far := ahead.foldl max 0
          let lost := (List.range far).filter fun d => !ahead.contains (d + 1)
          Completes (.flowLineDeadline dt f) s fun t => (rd t (Reg.flowLost f)).toNat = min (2 ^ 32 - 1) ((rd s (Reg.flowLost f)).toNat + lost.length)
            ∧ (lost ≠ [] → getB t a 15 = true) ∧ (lost = [] → getB t a 15 = getB s a 15)
            ∧ flowTrack t f = { q with counted := if due = [] then q.counted else some ((last + far) % n) } ∧ (∀ x, x ≠ f → flowTrack t x = flowTrack s x)
            ∧ t = { tick dt s with regs := t.regs, flow := t.flow } ∧ RegsBut [Reg.flowLost f, a] s t)
        ∧ (flowFree f e = true → Completes (.flowLineDeadline dt f) s fun t => t = tick dt s)
        ∧ (let due := q.got.filter fun p => decide (p.deadline ≤ ((s.now + dt : Nat) : Int))
           let st := fun (on seen late : Bool) => if on = true then (if late = true then 3 else if seen = true then 2 else 1) else 0
           Completes (.flowLegStateEval dt f) s fun t =>
            getF t a 8 2 = st (flowRedEn e && channelRun s (legChannel e.red)) ((due.any fun p => p.red.isSome) || q.redOther) q.redLate
            ∧ getF t a 10 2 = st (flowBlueEn e && channelRun s (legChannel e.blue)) ((due.any fun p => p.blue.isSome) || q.blueOther) q.blueLate
            ∧ (∀ p, p ∈ (flowTrack t f).got → ((s.now + dt : Nat) : Int) < p.deadline) ∧ (flowTrack t f).redLate = false ∧ (flowTrack t f).blueLate = false
            ∧ (∀ x, x ≠ f → flowTrack t x = flowTrack s x) ∧ t = { tick dt s with regs := t.regs, evq := t.evq, flow := t.flow }
            ∧ RegsBut [a, Reg.flowSlack f, Reg.flowDiff f] s t)
        ∧ (Completes (.colourSendChange dt f) s fun t => t = tick dt s) ∧ Completes (.colourHandback dt f) s fun t => t = tick dt s)
    ∧ (∀ e, flowEntry? (tick dt s) f = some e → f < 2304 →
        (Completes (.flowLineDeadline dt f) s fun t => t = tick dt s)
        ∧ (mediaSilent s = true → Completes (.colourSendChange dt f) s fun t => legs f e false false t ∧ RegsOnly [a] dt s t)
        ∧ (mediaSilent s = false → partnerSends s = false → paired s = false ∨ getB s Reg.pairStatus 4 = false →
            Completes (.colourSendChange dt f) s fun t => legs f e true true t ∧ RegsOnly [a] dt s t)
        ∧ (mediaSilent s = false → partnerSends s = false → paired s = true → getB s Reg.pairStatus 4 = true → Completes (.colourSendChange dt f) s fun t =>
            getB t a (if s.pins.pairSel = true then 12 else 13) = (if s.pins.pairSel = true then flowRedEn e else flowBlueEn e)
              ∧ getB t a (if s.pins.pairSel = true then 13 else 12) = getB s a (if s.pins.pairSel = true then 13 else 12) ∧ RegsOnly [a] dt s t)
        ∧ (mediaSilent s = false → partnerSends s = true → Completes (.colourSendChange dt f) s fun t => t = tick dt s)
        ∧ (∀ fr, s.pair.colourAt = some fr → frameStart s fr ≤ s.now + dt → Completes (.colourHandback dt f) s fun t =>
            legs f e (colourWanted s false) (colourWanted s true) t ∧ RegsOnly [a] dt s t)
        ∧ (s.pair.colourAt = none → Completes (.colourHandback dt f) s fun t => t = tick dt s)))

/-! ## The word fabric and takes (02_word_fabric_and_takes.md) -/

/-- TAKE. Outside modes 1 to 4 it is refused PLAN_NONE; an entry whose destination, source, levels, group or format fails is refused with that status; an APPLY_AT more than 65,535 house frames ahead is TAKE_RANGE; one that cannot be met is TAKE_LATE with NO_SLIP; one for which the table of 8,192 has no room is TAKE_FULL. Each refusal is counted in TAKE_REFUSED and changes nothing else. Otherwise the take is counted and waits: each member of its destination's group has an entry at the first switch point at or after APPLY_AT, or at least 150 microseconds ahead where that is not met, never earlier than that lead; its job is marked slipped where APPLY_AT was not met; and the entry goes to the partner while the unit forwards. In the 1/1.001 family the row of a switch point within the manual's bounds is open (log 5), and the statement holds for every choice. -/
def Obligations.TakesAreCheckedAndWait : Prop :=
  let lead := 150 * 297000
  let refused := fun (dt : Nat) (h : Hdr) (b : Body) (st : Nat) (s t : State) => Replied dt h b st s t
    ∧ (rd t Reg.takeRefused).toNat = min (2 ^ 32 - 1) ((rd s Reg.takeRefused).toNat + 1) ∧ t = { tick dt s with regs := t.regs, cmd := t.cmd }
    ∧ RegsBut (Reg.takeRefused :: ringRegs) s t ∧ RingKept s t
  ∀ dt h e flags s, Ready h (.take e flags) s → let u := tick dt s; let d := entDest e; let b := Body.take e flags
    (modeNow s < 1 ∨ 4 < modeNow s → Completes (.take dt h e flags) s (refused dt h b 0x020C s))
    ∧ (1 ≤ modeNow s → modeNow s ≤ 4 → entryCheck u (takeFrom u h.applyAt) e ≠ 0 → Completes (.take dt h e flags) s (refused dt h b (entryCheck u (takeFrom u h.applyAt) e) s))
    ∧ (1 ≤ modeNow s → modeNow s ≤ 4 → entryCheck u (takeFrom u h.applyAt) e = 0 →
        (houseFrame u + 65535 < h.applyAt → Completes (.take dt h e flags) s (refused dt h b 0x0303 s))
        ∧ (h.applyAt ≤ houseFrame u + 65535 →
            let onTime := h.applyAt = 0 ∨ u.now + lead ≤ firstSp u d (frameStart u h.applyAt)
            let sp := if h.applyAt ≠ 0 ∧ u.now + lead ≤ firstSp u d (frameStart u h.applyAt) then firstSp u d (frameStart u h.applyAt) else firstSp u d (u.now + lead)
            let ts := expandEntry (cfgOf u d) d (entSrc e)
            (¬ onTime → flags % 2 = 1 → Completes (.take dt h e flags) s (refused dt h b 0x0302 s))
            ∧ (onTime ∨ flags % 2 = 0 → 8192 < takePending s + ts.length → Completes (.take dt h e flags) s (refused dt h b 0x0308 s))
            ∧ (onTime ∨ flags % 2 = 0 → takePending s + ts.length ≤ 8192 → Completes (.take dt h e flags) s fun t => Waits h s t
                ∧ t.take.pend = s.take.pend ++ ts.map (fun x => { job := s.take.nextJob, entry := 0, dest := x.1, source := x.2, levels := entLevels e, sp := sp })
                ∧ (∃ j, t.take.jobs = s.take.jobs ++ [j] ∧ j.id = s.take.nextJob ∧ j.cmd.pkt.hdr.tag = h.tag ∧ j.slipped = !decide onTime ∧ j.expanded = ts.length
                    ∧ j.firstSp = sp ∧ j.results = []) ∧ t.take.nextJob = s.take.nextJob + 1 ∧ t.take.salvos = s.take.salvos
                ∧ u.now + lead ≤ sp ∧ (rd t Reg.takeAccepted).toNat = min (2 ^ 32 - 1) ((rd s Reg.takeAccepted).toNat + 1)
                ∧ (if forwards s = true then t.pair = { s.pair with outbox := s.pair.outbox ++ [(s.pair.txSeq, .take e flags (rateFrame (houseRate s) sp) h.tag)], txSeq := s.pair.txSeq + 1 }
                   else t.pair = s.pair)
                ∧ t = { u with regs := t.regs, cmd := t.cmd, take := t.take, pair := t.pair } ∧ RegsBut (Reg.takeAccepted :: ringRegs) s t)))

/-- TAKE_COMMIT of a destination without a group and with no plan change pending, outside MIRROR. With one entry due that names video, ANC or both: its levels take the source, every other route stays, TAKE_COMMITTED, the last destination and its house frame are written, and the take completes OK, or TAKE_SLIPPED, at that house frame. With two entries due at the same switch point for the same level, the later accepted one sets it, and the earlier completes TAKE_SUPERSEDED. With nothing due nothing changes. TAKE_CANCEL withdraws a take whose switch point is at least 150 microseconds ahead: that take completes TAKE_CANCELLED and the command OK; later it is refused TAKE_LATE, and TAG_UNKNOWN for a tag with no pending take. ROUTE_QUERY returns 32 bytes for each destination. -/
def Obligations.TakesCommitCancelAndShow : Prop :=
  let ringOnly := Reg.takeCommitted :: Reg.takeLastDest :: Reg.takeLastFrameLo :: (Reg.takeLastFrameLo + 4) :: [Reg.takeSlipped, Reg.takeSuperseded, Reg.cmdStatus]
  let lone := fun (s : State) (d : Nat) => s.plan.pending = none ∧ modeNow s ≠ 2 ∧ membersOf s.plan.cfg d = [d]
  (∀ dt s, powered s = true → ∀ d, d < 1408 → s.plan.pending = none → (s.take.pend.any fun p => decide (p.sp ≤ s.now + dt)) = false →
      Completes (.takeCommit dt d) s fun t => t = tick dt s)
  ∧ (∀ dt s, powered s = true → ∀ p, s.take.pend = [p] → ∀ j, s.take.jobs = [j] → lone s p.dest → p.dest < 1152 → p.sp ≤ s.now + dt → p.levels ∈ [1, 512, 513] →
      p.job = j.id → j.expanded = 1 → j.results = [] → j.forwarded = false → j.salvo = none → j.cmd.origin = .host → entryLives (tick dt s) p = true →
      Completes (.takeCommit dt p.dest) s fun t =>
        (∀ l, l < 10 → routeOf t p.dest l = if p.levels / 2 ^ l % 2 = 1 then p.source % 2048 else routeOf s p.dest l)
          ∧ (rd t Reg.takeCommitted).toNat = min (2 ^ 32 - 1) ((rd s Reg.takeCommitted).toNat + 1) ∧ getF t Reg.takeLastDest 0 11 = p.dest
          ∧ get64 t Reg.takeLastFrameLo = rateFrame (houseRate s) p.sp % 2 ^ 64 ∧ t.take.pend = [] ∧ t.take.jobs = []
          ∧ tabFind p.dest t.take.lastFrame = some (rateFrame (houseRate s) p.sp)
          ∧ (∃ r, t.cmd.waiting = s.cmd.waiting ++ [r] ∧ r.tag = j.cmd.pkt.hdr.tag ∧ r.status = (if j.slipped = true then 0x0301 else 0) ∧ r.frame = rateFrame (houseRate s) p.sp)
          ∧ t = { tick dt s with regs := t.regs, cmd := t.cmd, take := t.take } ∧ RegsBut (Reg.takeRoute p.dest 0 :: Reg.takeRoute p.dest 9 :: ringOnly) s t)
  ∧ (∀ dt s, powered s = true → ∀ p q, s.take.pend = [p, q] → ∀ j k, s.take.jobs = [j, k] → lone s p.dest → p.dest < 1152 → p.dest = q.dest → p.sp = q.sp → p.sp ≤ s.now + dt →
      p.levels = 1 → q.levels = 1 → p.job = j.id → q.job = k.id → j.id ≠ k.id → j.expanded = 1 → k.expanded = 1 → j.results = [] → k.results = [] →
      j.forwarded = false → k.forwarded = false → j.salvo = none → k.salvo = none → j.slipped = false → k.slipped = false →
      j.cmd.origin = .host → k.cmd.origin = .host → entryLives (tick dt s) p = true → entryLives (tick dt s) q = true →
      Completes (.takeCommit dt p.dest) s fun t => routeOf t p.dest 0 = q.source % 2048 ∧ (∀ l, 1 ≤ l → l < 10 → routeOf t p.dest l = routeOf s p.dest l)
        ∧ (t.cmd.waiting.drop s.cmd.waiting.length).map (fun r => (r.tag, r.status)) = [(j.cmd.pkt.hdr.tag, 0x0309), (k.cmd.pkt.hdr.tag, 0)]
        ∧ (rd t Reg.takeSuperseded).toNat = min (2 ^ 32 - 1) ((rd s Reg.takeSuperseded).toNat + 1) ∧ t.take.pend = [])
  ∧ (∀ dt h s, ∀ x, s.take.jobs = [x] → let tag := x.cmd.pkt.hdr.tag
      Ready h (.takeCancel tag) s → x.cmd.origin = .host → forwards s = false → server s = 1 →
        (s.now + dt + 150 * 297000 ≤ x.firstSp → Completes (.takeCancel dt h tag) s fun t => t.take = { s.take with pend := s.take.pend.filter (fun p => decide (p.job ≠ x.id)), jobs := [] }
          ∧ (t.cmd.waiting.drop s.cmd.waiting.length).map (fun r => (r.tag, r.status)) = [(h.tag, 0), (tag, 0x030B)]
          ∧ t = { tick dt s with regs := t.regs, cmd := t.cmd, take := t.take } ∧ RegsBut ringRegs s t)
        ∧ (x.firstSp < s.now + dt + 150 * 297000 → Completes (.takeCancel dt h tag) s (AnswersWith dt h (.takeCancel tag) 0x0302 [] s)))
  ∧ (∀ dt h tag s, Ready h (.takeCancel tag) s → (∀ x, x ∈ s.take.jobs → x.cmd.pkt.hdr.tag ≠ tag) → Completes (.takeCancel dt h tag) s (AnswersWith dt h (.takeCancel tag) 0x0008 [] s))
  ∧ (∀ dt h first cnt s, Ready h (.routeQuery first cnt) s → Completes (.routeQuery dt h first cnt) s fun t => ∃ r, t.cmd.waiting = s.cmd.waiting ++ [r] ∧ r.status = 0
      ∧ r.resultLen = 32 * cnt ∧ t = { tick dt s with regs := t.regs, cmd := t.cmd } ∧ RegsBut ringRegs s t)
  ∧ (∀ dt h d s, Ready h (.routeQuery d 1) s → d < 1408 → groupOf (cfgOf s d).groups false d = none → Completes (.routeQuery dt h d 1) s (AnswersWith dt h (.routeQuery d 1) 0
      ([(2, d), (2, if (s.take.pend.any fun p => decide (p.dest = d)) = true then 1 else 0)] ++ (List.range 10).map (fun l => (2, routeOf s d l)) ++ [(8, tabGet 0 d s.take.lastFrame)]) s))

/-- SALVO. Outside modes 1 to 4 it is refused PLAN_NONE; the kinds of part of R106 are refused CMD_RANGE, and a fifth open salvo TAKE_FULL, in that order (log 171); a part that fails as a whole gives index 0 (log 173); an entry at fault gives its status; the index stands in DETAIL and in a body of two bytes. A part 0 that is not final opens the salvo, completes OK and commits nothing. A final part, with the open part's entries before its own, waits where they pass: every destination of every entry has an entry at its first switch point at or after the start of the salvo frame, for which each of them lies at least 150 microseconds ahead; its job is slipped where that is later than APPLY_AT, which with NO_SLIP is refused TAKE_LATE instead; and the open part goes. Refusals are counted in TAKE_REFUSED, and a refused part 1 discards the open part 0, whose tag completes a second time, TAKE_ABORTED. SALVO_OPEN_TIMEOUT discards a salvo open for one second with that completion, and changes nothing before. -/
def Obligations.SalvosOpenCommitAndExpire : Prop :=
  let replies := fun (s t : State) => (t.cmd.waiting.drop s.cmd.waiting.length).map fun r => (r.tag, r.status, r.detail)
  (∀ dt h id part flags cnt es s, Ready h (.salvo id part flags cnt es) s → let u := tick dt s; let c : Instr := .salvo dt h id part flags cnt es; let b := Body.salvo id part flags cnt es
    let kept := fun (t : State) => RegsBut (Reg.takeRefused :: ringRegs) s t ∧ (rd t Reg.takeRefused).toNat = min (2 ^ 32 - 1) ((rd s Reg.takeRefused).toNat + 1)
    let refused := fun (st i : Nat) => Completes c s fun t => Answered h b st i (houseFrame u) [(2, i)] s t ∧ kept t ∧ t = { u with regs := t.regs, cmd := t.cmd }
    let dropped := fun (o : OpenSalvo) (st i : Nat) => Completes c s fun t => replies s t = [(h.tag, st, i), (o.cmd.pkt.hdr.tag, 0x030A, 0)] ∧ kept t
      ∧ t = { u with regs := t.regs, cmd := t.cmd, take := { s.take with salvos := s.take.salvos.filter fun x => decide (x.id ≠ id) } }
    let bad := 1 < part ∨ (part = 1 ∧ (flags % 2 = 0 ∨ openSalvo s id = none)) ∨ (part = 0 ∧ openSalvo s id ≠ none)
    let all := ((openSalvo s id).map OpenSalvo.entries).getD [] ++ es
    let ts := targetsOf u all
    let dests := distinctDests ((targetsOf u (all.filter fun e => destUsed (cfgOf u (entDest e)) (modeNow s) (entDest e))).map fun x => (x.2.1, 0)); let f := salvoFrame u dests h.applyAt
    let late := h.applyAt ≠ 0 ∧ h.applyAt < f
    (∀ st, st = (if inMode s = false then 0x020C else 0x000E) → inMode s = false ∨ bad →
      (part ≠ 1 ∨ openSalvo s id = none → refused st 0) ∧ (part = 1 → ∀ o, openSalvo s id = some o → o.cmd.origin = .host → dropped o st 0))
    ∧ (part = 0 → inMode s = true → ¬ bad → flags % 2 = 0 → s.take.salvos.length < 4 →
        (salvoBad u (u.now + 150 * 297000) es = none → Completes c s fun t => (∃ r, t.cmd.waiting = s.cmd.waiting ++ [r] ∧ r.tag = h.tag ∧ r.status = 0 ∧ r.frame = 0)
          ∧ (∃ o, t.take.salvos = s.take.salvos ++ [o] ∧ o.id = id ∧ o.entries = es ∧ o.opened = s.mono + dt ∧ o.cmd.pkt.hdr.tag = h.tag) ∧ t.take.pend = s.take.pend ∧ t.take.jobs = s.take.jobs
          ∧ t = { u with regs := t.regs, cmd := t.cmd, take := t.take } ∧ RegsBut ringRegs s t)
        ∧ (∀ i st, salvoBad u (u.now + 150 * 297000) es = some (i, st) → refused st i))
    ∧ (part = 0 → inMode s = true → ¬ bad → flags % 2 = 0 → 4 ≤ s.take.salvos.length → refused 0x0308 0)
    ∧ (inMode s = true → ¬ bad → flags % 2 = 1 →
        let gone := fun (st i : Nat) => (part = 0 → refused st i) ∧ (∀ o, openSalvo s id = some o → part = 1 → o.cmd.origin = .host → dropped o st i)
        (∀ i st, salvoBad u (frameStart u f) all = some (i, st) → gone st i)
        ∧ (salvoBad u (frameStart u f) all = none →
          (houseFrame u + 65535 < h.applyAt → gone 0x0303 0)
          ∧ (h.applyAt ≤ houseFrame u + 65535 → late → flags / 2 % 2 = 1 →
              gone 0x0302 (entryOf ts fun d => decide (firstSp u d (frameStart u h.applyAt) < u.now + 150 * 297000)))
          ∧ (h.applyAt ≤ houseFrame u + 65535 → ¬ (late ∧ flags / 2 % 2 = 1) → 8192 < takePending s + dests.length → gone 0x0308 (overfull ts (8192 - takePending s)))
          ∧ (h.applyAt ≤ houseFrame u + 65535 → ¬ (late ∧ flags / 2 % 2 = 1) → takePending s + dests.length ≤ 8192 → Completes c s fun t => Waits h s t
              ∧ t.take.pend = s.take.pend ++ ts.map (fun x => { job := s.take.nextJob, entry := x.1, dest := x.2.1, source := x.2.2.1, levels := x.2.2.2, sp := firstSp u x.2.1 (frameStart u f) })
              ∧ (∃ j, t.take.jobs = s.take.jobs ++ [j] ∧ j.id = s.take.nextJob ∧ j.salvo = some (id, f) ∧ j.slipped = decide late ∧ j.expanded = ts.length ∧ j.entries = all)
              ∧ t.take.salvos = s.take.salvos.filter (fun x => decide (x.id ≠ id))
              ∧ (∀ d, d ∈ dests → u.now + 150 * 297000 ≤ firstSp u d (frameStart u f)) ∧ (h.applyAt ≤ f)
              ∧ (rd t Reg.takeAccepted).toNat = min (2 ^ 32 - 1) ((rd s Reg.takeAccepted).toNat + all.length)
              ∧ t = { u with regs := t.regs, cmd := t.cmd, take := t.take, pair := t.pair } ∧ RegsBut (Reg.takeAccepted :: ringRegs) s t))))
  ∧ (∀ dt s, powered s = true → ∀ o, s.take.salvos = [o] → o.cmd.origin = .host →
      (o.opened + tickSec ≤ s.mono + dt → Completes (.salvoOpenTimeout dt o.id) s fun t => t.take = { s.take with salvos := [] }
        ∧ replies s t = [(o.cmd.pkt.hdr.tag, 0x030A, 0)] ∧ t = { tick dt s with regs := t.regs, cmd := t.cmd, take := t.take } ∧ RegsBut [Reg.cmdStatus] s t)
      ∧ (s.mono + dt < o.opened + tickSec → Completes (.salvoOpenTimeout dt o.id) s fun t => t = tick dt s))
  ∧ (∀ dt id s, powered s = true → openSalvo s id = none → Completes (.salvoOpenTimeout dt id) s fun t => t = tick dt s)

/-- FABRIC_WORD_VERIFY at a destination acts in the cycle of its slot, in a row that its source's format uses, while its quadrant's clock runs; otherwise, and with no source, it changes nothing. The word is the one that the interchange buffer holds for the source in this row; on the first read of the row it enters there, with the check code of the source's number, the row and the content where the source has a valid word, and with its complement where it has none. As it reaches the destination, `flips` changed: a code that passes leaves it; the complement marks it invalid, counted in the destination's and the quadrant's invalid counts, and an output's line is marked; any other code is a failure, counted at the destination, in the quadrant and by the source's quadrant, with FAB_LAST_FAIL naming both, CHK_SEEN, the mark of an internal fault, and an AIR_PATH penalty where the output is on air. EGRESS_WORD_SELECT in MIRROR compares the rails: two good words that agree change no count, two that disagree count as a disagreement, one bad word counts as masked, two bad words as lost, and mark the output's line; the word selected is the home rail's, else the twin's, else none. -/
def Obligations.WordsAreVerifiedAndSelected : Prop :=
  let up := fun (n k : Nat) => min (2 ^ k - 1) (n + 1)
  let outs := fun (d : Nat) (s t : State) => t.port = { s.port with outs := t.port.outs } ∧ ∀ x, x ≠ d → outTrack t x = outTrack s x
  (∀ dt s, powered s = true → ∀ d, d < 1408 → ∀ (content : BitVec 40) (flips : BitVec 48), let u := tick dt s; let src := routeOf s d 0; let q := quadOf d
    let row := (s.now + dt) % tickSec / 1000; let held := if s.take.xRow = (s.now + dt) / 1000 + 1 then tabFind src s.take.xWords else none
    let code := checkCode src row content.toNat
    let w0 := held.getD (BitVec.ofNat 48 (content.toNat + (if sourceValid u src = true then code else 255 - code) * 2 ^ 40))
    let w := (w0 ^^^ flips).toNat; let right := checkCode src row (w % 2 ^ 40); let got := w / 2 ^ 40
    let acts := src ≠ 0x7FF ∧ (s.now + dt) % 1000 / 250 = localOf d % 4 ∧ sourceUses u src = true ∧ fabricUp s q = true
    let c : Instr := .fabricWordVerify dt d content flips
    let buffered := fun (t : State) => tabFind src t.take.xWords = some w0 ∧ t.take.xRow = (s.now + dt) / 1000 + 1
      ∧ (s.take.xRow = (s.now + dt) / 1000 + 1 → ∀ x, x ≠ src → tabFind x t.take.xWords = tabFind x s.take.xWords)
      ∧ (∀ x, fsTrack t x = if x = src ∧ held = none then { fsTrack s x with spoilt := false } else fsTrack s x)
      ∧ t.take = { s.take with xRow := t.take.xRow, xWords := t.take.xWords, sendBad := t.take.sendBad, chkEpoch := t.take.chkEpoch } ∧ t.mem = { s.mem with fs := t.mem.fs }
    let marked := fun (fault : Bool) (t : State) => outs d s t ∧ (d < 1152 → outTrack t d = { outTrack s d with invalid := true, internal := (outTrack s d).internal || fault })
      ∧ (1152 ≤ d → outTrack t d = outTrack s d) ∧ (sendActive u d = true → 1152 ≤ d → tabFind d t.take.sendBad = some (s.now + dt + 1))
    (¬ acts → Completes c s fun t => t = u)
    ∧ (acts → got = right → Completes c s fun t => buffered t ∧ t.take.sendBad = s.take.sendBad ∧ t = { u with take := t.take, mem := t.mem })
    ∧ (acts → got ≠ right → got = 255 - right → Completes c s fun t => buffered t ∧ marked (sourceFault u src) t
        ∧ getB t (Reg.fabStatus q) 9 = true ∧ getF t (Reg.fabDestCnt q (localOf d)) 16 16 = up (getF s (Reg.fabDestCnt q (localOf d)) 16 16) 16
        ∧ (rd t (Reg.fabInvalidTotal q)).toNat = up (rd s (Reg.fabInvalidTotal q)).toNat 32
        ∧ t = { u with regs := t.regs, take := t.take, mem := t.mem, port := t.port } ∧ RegsBut [Reg.fabStatus q, Reg.fabDestCnt q (localOf d), Reg.fabInvalidTotal q] s t)
    ∧ (acts → got ≠ right → got ≠ 255 - right → Completes c s fun t => buffered t ∧ marked true t
        ∧ getB t (Reg.fabStatus q) 8 = true ∧ getF t (Reg.fabDestCnt q (localOf d)) 0 16 = up (getF s (Reg.fabDestCnt q (localOf d)) 0 16) 16
        ∧ (rd t (Reg.fabChkTotal q)).toNat = up (rd s (Reg.fabChkTotal q)).toNat 32
        ∧ (rd t (Reg.fabPassChk q (quadOf src))).toNat = up (rd s (Reg.fabPassChk q (quadOf src))).toNat 32
        ∧ getF t (Reg.fabLastFail q) 0 16 = d ∧ getF t (Reg.fabLastFail q) 16 16 = src
        ∧ (d < 1152 → airOut s (if modeNow s = 2 then d % 576 else d) = true → getB t Reg.pairHealth 16 = true)
        ∧ (1152 ≤ d ∨ airOut s (if modeNow s = 2 then d % 576 else d) = false → t = { u with regs := t.regs, evq := t.evq, take := t.take, mem := t.mem, port := t.port }
            ∧ RegsBut [Reg.fabStatus q, Reg.fabDestCnt q (localOf d), Reg.fabChkTotal q, Reg.fabPassChk q (quadOf src), Reg.fabLastFail q] s t)))
  ∧ (∀ dt s, powered s = true → modeNow s = 2 → ∀ n, n < 576 → ∀ (home twin : RailWord), let k := n / 288; let row := (s.now + dt) % tickSec / 1000
    let recv := fun (w : RailWord) => BitVec.ofNat 48 (w.word.toNat + checkCode n row w.word.toNat * 2 ^ 40) ^^^ w.flips
    let word := fun (w : RailWord) => BitVec.ofNat 40 (recv w).toNat
    let fault := fun (x : Bool) (w : RailWord) => decide ((recv w).toNat / 2 ^ 40 ≠ checkCode n row ((recv w).toNat % 2 ^ 40))
      || ((outTrack s (if x = true then n + 576 else n)).sent.elim false SentLine.internal)
      || getB s (Reg.mirRailState k) (if x = true then 17 else 16) || getB s (Reg.mirRailState k) (if x = true then 19 else 18)
    let bad := fun (x : Bool) (w : RailWord) => fault x w || ((outTrack s (if x = true then n + 576 else n)).sent.elim false SentLine.invalid)
    let picks := fun (p : Option (BitVec 40)) (t : State) => tabFind n t.pair.egress = some p ∧ ∀ x, x ≠ n → tabFind x t.pair.egress = tabFind x s.pair.egress
    let only := fun (t : State) => t = { tick dt s with regs := t.regs, pair := { s.pair with egress := t.pair.egress } }
    (bad false home = false → bad true twin = false → word home = word twin → Completes (.egressWordSelect dt n home twin) s fun t => picks (some (word home)) t ∧ only t ∧ RegsBut [] s t)
    ∧ (bad false home = false → bad true twin = false → word home ≠ word twin → Completes (.egressWordSelect dt n home twin) s fun t => picks (some (word home)) t
        ∧ getF t (Reg.mirRailCnt k) 16 16 = up (getF s (Reg.mirRailCnt k) 16 16) 16
        ∧ t = { tick dt s with regs := t.regs, evq := t.evq, pair := { s.pair with egress := t.pair.egress, railRec := t.pair.railRec } } ∧ RegsBut [Reg.mirRailCnt k] s t)
    ∧ (bad false home ≠ bad true twin → Completes (.egressWordSelect dt n home twin) s fun t => picks (some (if bad false home = false then word home else word twin)) t
        ∧ getF t (Reg.mirRailCnt k) 0 16 = up (getF s (Reg.mirRailCnt k) 0 16) 16 ∧ only t ∧ RegsBut [Reg.mirRailCnt k] s t)
    ∧ (bad false home = true → bad true twin = true → Completes (.egressWordSelect dt n home twin) s fun t => picks none t ∧ outs n s t
        ∧ outTrack t n = { outTrack s n with invalid := true, internal := (outTrack s n).internal || fault false home || fault true twin }
        ∧ getF t (Reg.mirRailState k) 0 16 = up (getF s (Reg.mirRailState k) 0 16) 16
        ∧ t = { tick dt s with regs := t.regs, port := t.port, pair := { s.pair with egress := t.pair.egress } } ∧ RegsBut [Reg.mirRailState k] s t))

/-! ## The compiled plan (01_compiled_plan.md) -/

/-- PLAN_LOAD while a commit is pending or another load runs is refused PLAN_BUSY. Otherwise LOAD shows validating and the verdict is that of the first failing step, the steps standing in a list in the order of R33, with the index of a section at fault: header; VARIANT; MIN_FW; section table; digests; signature and policy; contents; and then each mode of MODE_MASK in ascending order: capacity, line buffers, memory. PLAN_LOAD_COMPLETE on a unit that does not forward answers with that status, sets LOAD to valid or rejected, notes status and section in PLAN_LAST_STATUS, gives generation and digest of the slot, and leaves the committed plan as it is. PLAN_QUERY returns five registers and two digests, and notes its OK. PLAN_READ returns entries of a section of the committed plan, or is refused PLAN_NONE or PLAN_FORMAT, which is noted and counted. -/
def Obligations.PlanLoadStopsAtTheFirstFailure : Prop :=
  let fault := fun (ok : Section → Bool) (b : Bundle) => (findIdx? (fun x => !ok x) b.sections)
  let at_ := fun (o : Option Nat) => o.getD 0xFF
  let steps : State → Bundle → Nat → List (Bool × Nat × Nat) := fun s b len =>
    [(headerOk b len, 0x0201, 0xFF), (decide (b.variant = 0x00B1), 0x0202, 0xFF), (decide (b.minFw ≤ (rd s Reg.fwVerRun).toNat), 0x0203, 0xFF),
     ((fault (sectionOk b) b).isNone, 0x0201, at_ (fault (sectionOk b) b)), (tableOk b, 0x0201, 0xFF),
     ((fault (fun x => decide (x.digest = sha384 x.length x.bytes)) b).isNone, 0x0204, at_ (fault (fun x => decide (x.digest = sha384 x.length x.bytes)) b)),
     (decide (sigStatus s b = 0), sigStatus s b, 0xFF), ((fault (contentOk b) b).isNone, 0x0201, at_ (fault (contentOk b) b))]
      ++ b.modeIds.flatMap fun m => [(capacityOk b m, 0x0207, 0xFF), (planLinebufOk b m, 0x020E, 0xFF),
        (memAllocOk m (memEntries (some b) m) && trafficOk m (b.cfg m).heads (memEntries (some b) m), 0x0208, 0xFF)]
  let verdict := fun (s : State) (len : Nat) => match s.plan.slot with
    | none => (0x0201, 0xFF)
    | some b => (((steps s b len).find? fun x => !x.1).map Prod.snd).getD (0, 0xFF)
  (∀ dt h len s, Ready h (.planLoad len) s →
      (commitPending s = true ∨ s.plan.loading.isSome = true → Completes (.planLoad dt h len) s fun t => Replied dt h (.planLoad len) 0x020A s t
        ∧ (rd t Reg.planLastStatus).toNat = 0x00FF020A ∧ (rd t Reg.planRejects).toNat = min (2 ^ 32 - 1) ((rd s Reg.planRejects).toNat + 1)
        ∧ t = { tick dt s with regs := t.regs, cmd := t.cmd } ∧ RegsBut (Reg.planLastStatus :: Reg.planRejects :: ringRegs) s t)
      ∧ (commitPending s = false → s.plan.loading = none → forwards s = false ∨ (verdict s len).1 ≠ 0 ∨ modeNow s = 5 → Completes (.planLoad dt h len) s fun t => Waits h s t
          ∧ getF t Reg.planState 8 2 = 1 ∧ (∃ l, t.plan.loading = some l ∧ l.cmd.pkt.hdr.tag = h.tag ∧ (l.status, l.sect) = verdict s len ∧ l.partner = some 0)
          ∧ t.plan = { s.plan with loading := t.plan.loading } ∧ t = { tick dt s with regs := t.regs, cmd := t.cmd, evq := t.evq, plan := t.plan }
          ∧ RegsBut (Reg.planState :: ringRegs) s t)
      ∧ (commitPending s = false → s.plan.loading = none → forwards s = true → (verdict s len).1 = 0 → modeNow s ≠ 5 → Completes (.planLoad dt h len) s fun t => Waits h s t
          ∧ (∃ l, t.plan.loading = some l ∧ l.partner = none) ∧ (∃ b, s.plan.slot = some b ∧ t.pair.outbox = s.pair.outbox ++ [(s.pair.txSeq, .plan b)])))
  ∧ (∀ dt s, powered s = true → ∀ l, s.plan.loading = some l → l.cmd.origin = .host → server s = 1 → forwards s = false → l.partner.getD 0 = 0 →
      Completes (.planLoadComplete dt) s fun t => (∃ r, t.cmd.waiting = s.cmd.waiting ++ [r] ∧ r.tag = l.cmd.pkt.hdr.tag ∧ r.status = l.status ∧ r.resultLen = 52)
        ∧ getF t Reg.planState 8 2 = (if l.status = 0 then 2 else 3) ∧ getF t Reg.planLastStatus 0 16 = l.status % 65536 ∧ (l.status < 65536 → getF t Reg.planLastStatus 16 8 = l.sect % 256)
        ∧ (∀ b, s.plan.slot = some b → rd t Reg.planGenLoaded = BitVec.ofNat 32 b.generation ∧ rd t (Reg.planDigestLoaded 0) = BitVec.ofNat 32 (sha384 b.sigOfs (b.image % 2 ^ (8 * b.sigOfs))))
        ∧ t.plan = { s.plan with loading := none } ∧ t = { tick dt s with regs := t.regs, cmd := t.cmd, evq := t.evq, plan := t.plan })
  ∧ (∀ dt s, powered s = true → s.plan.loading = none → Completes (.planLoadComplete dt) s fun t => t = tick dt s)
  ∧ (∀ dt h s, Ready h .planQuery s → Completes (.planQuery dt h) s fun t => (∃ r, t.cmd.waiting = s.cmd.waiting ++ [r] ∧ r.tag = h.tag ∧ r.status = 0 ∧ r.resultLen = 116
        ∧ (h.flags % 2 = 0 → 116 ≤ h.resultLen → r.result.take 5 = [Reg.planState, Reg.planLastStatus, Reg.planGenCommitted, Reg.planGenLoaded, Reg.planPatchGen].map fun a => (4, (rd s a).toNat)))
      ∧ (rd t Reg.planLastStatus).toNat = 0x00FF0000 ∧ t = { tick dt s with regs := t.regs, cmd := t.cmd } ∧ RegsBut (Reg.planLastStatus :: ringRegs) s t)
  ∧ (∀ dt h type mode first cnt s, Ready h (.planRead type mode first cnt) s → let b := Body.planRead type mode first cnt; let c : Instr := .planRead dt h type mode first cnt
      let refused := fun (st : Nat) => Completes c s fun t => Replied dt h b st s t ∧ (rd t Reg.planLastStatus).toNat = 0x00FF0000 + st
        ∧ (rd t Reg.planRejects).toNat = min (2 ^ 32 - 1) ((rd s Reg.planRejects).toNat + 1) ∧ t = { tick dt s with regs := t.regs, cmd := t.cmd }
        ∧ RegsBut (Reg.planLastStatus :: Reg.planRejects :: ringRegs) s t
      (s.plan.committed = none → refused 0x020C)
      ∧ (∀ x, s.plan.committed = some x →
          (∀ es, sectionEntries (tick dt s) x type mode = some es → first + cnt ≤ es.length → Completes c s fun t =>
            Answered h b 0 0 (houseFrame (tick dt s)) ((es.drop first).take cnt) s t ∧ (rd t Reg.planLastStatus).toNat = 0x00FF0000
              ∧ t = { tick dt s with regs := t.regs, cmd := t.cmd } ∧ RegsBut (Reg.planLastStatus :: ringRegs) s t)
          ∧ (sectionEntries (tick dt s) x type mode = none ∨ (∃ es, sectionEntries (tick dt s) x type mode = some es ∧ es.length < first + cnt) → refused 0x0201)))

/-- PLAN_COMMIT is refused by the first check of R40 that fails: no valid plan, the mode not in MODE_MASK, another change pending, line buffers; and PLAN_LATE for an APPLY_AT that is too early. Accepted, it is pending with its mode and apply frame, the first house frame that starts at least 10 ms ahead with APPLY_AT 0; a first commit with the timebase FREERUN and a candidate in HOLDOFF is held without one. MODE_SET does the same with 2 ms, and outside modes 1 to 4 it is PLAN_NONE. PLAN_ARM sets ARMED once, while the firmware serves and the change is not held. COMMIT_HOLD_RELEASE gives a held commit its frame once no candidate holds it. PLAN_DISCARD with no commit pending empties the load slot; with one pending it ends it with PLAN_ABORTED before the frame before the apply frame, and is PLAN_LATE afterwards. Refusals are noted and counted. -/
def Obligations.ChangesAreCheckedAndPend : Prop :=
  let refused := fun (dt : Nat) (h : Hdr) (b : Body) (st : Nat) (s t : State) => Replied dt h b st s t ∧ getF t Reg.planLastStatus 0 16 = st
    ∧ (rd t Reg.planRejects).toNat = min (2 ^ 32 - 1) ((rd s Reg.planRejects).toNat + 1) ∧ t = { tick dt s with regs := t.regs, cmd := t.cmd }
    ∧ RegsBut (Reg.planLastStatus :: Reg.planRejects :: ringRegs) s t ∧ RingKept s t
  let frameFor := fun (u : State) (lead applyAt : Nat) => if applyAt = 0 then rateFirst (houseRate u) (u.now + lead) else applyAt
  let pends := fun (h : Hdr) (kind : ChangeKind) (mode f : Nat) (u t : State) => Waits h u t ∧ getB t Reg.planState 10 = true ∧ getB t Reg.planState 11 = false
    ∧ getF t Reg.planState 4 3 = mode % 8 ∧ get64 t Reg.planApplyFrameLo = f % 2 ^ 64
    ∧ (∃ p, t.plan.pending = some p ∧ p.kind = kind ∧ p.mode = mode ∧ p.frame = f ∧ p.armed = false ∧ p.applied = false ∧ p.cmd.pkt.hdr.tag = h.tag)
    ∧ t.plan.committed = u.plan.committed ∧ modeNow t = modeNow u ∧ t.take = u.take
  (∀ dt h flags mode s, Ready h (.planCommit flags mode) s → let u := tick dt s; let b := Body.planCommit flags mode; let c : Instr := .planCommit dt h flags mode
    (getF s Reg.planState 8 2 ≠ 2 ∨ s.plan.slot = none → Completes c s (refused dt h b 0x020C s))
    ∧ (getF s Reg.planState 8 2 = 2 → ∀ x, s.plan.slot = some x → let m := if mode = 0 then x.defaultMode else mode
        (x.modeMask / 2 ^ m % 2 = 0 → Completes c s (refused dt h b 0x020D s))
        ∧ (x.modeMask / 2 ^ m % 2 = 1 →
          (s.plan.pending.isSome = true → Completes c s (refused dt h b 0x020A s))
          ∧ (s.plan.pending = none → linebufOk (x.cfg m) (planGeometry x m) = false → Completes c s (refused dt h b 0x020E s))
          ∧ (s.plan.pending = none → linebufOk (x.cfg m) (planGeometry x m) = true →
            (modeNow s = 0 ∧ commitHolds s = true → Completes c s fun t => pends h .base m 0 u t ∧ ∃ p, t.plan.pending = some p ∧ p.held = true)
            ∧ (modeNow s ≠ 0 ∨ commitHolds s = false → h.applyAt ≠ 0 → h.applyAt < rateFirst (houseRate u) (u.now + 10 * tickMs) → Completes c s (refused dt h b 0x020B s))
            ∧ (modeNow s ≠ 0 ∨ commitHolds s = false → h.applyAt = 0 ∨ rateFirst (houseRate u) (u.now + 10 * tickMs) ≤ h.applyAt → Completes c s fun t =>
                pends h .base m (frameFor u (10 * tickMs) h.applyAt) u t ∧ u.now + 10 * tickMs ≤ frameStart u (frameFor u (10 * tickMs) h.applyAt))))))
  ∧ (∀ dt h mode s, Ready h (.modeSet mode) s → let u := tick dt s; let b := Body.modeSet mode; let c : Instr := .modeSet dt h mode
    (s.plan.committed = none ∨ modeNow s < 1 ∨ 4 < modeNow s → Completes c s (refused dt h b 0x020C s))
    ∧ (1 ≤ modeNow s → modeNow s ≤ 4 → ∀ x, s.plan.committed = some x →
        (x.modeMask / 2 ^ mode % 2 = 0 → Completes c s (refused dt h b 0x020D s))
        ∧ (x.modeMask / 2 ^ mode % 2 = 1 → s.plan.pending.isSome = true → Completes c s (refused dt h b 0x020A s))
        ∧ (x.modeMask / 2 ^ mode % 2 = 1 → s.plan.pending = none → linebufOk (x.cfg mode) (geoAfter u mode) = true →
            (h.applyAt ≠ 0 → h.applyAt < rateFirst (houseRate u) (u.now + 2 * tickMs) → Completes c s (refused dt h b 0x020B s))
            ∧ (h.applyAt = 0 ∨ rateFirst (houseRate u) (u.now + 2 * tickMs) ≤ h.applyAt → Completes c s fun t => pends h .modeSet mode (frameFor u (2 * tickMs) h.applyAt) u t))))
  ∧ (∀ dt s, powered s = true → (∀ p, s.plan.pending = some p →
      (server s = 1 → p.held = false → p.armed = false → p.cmd.origin ≠ .forward → Completes (.planArm dt) s fun t => getB t Reg.planState 11 = true
        ∧ t.plan = { s.plan with pending := some { p with armed := true } } ∧ t = { tick dt s with regs := t.regs, plan := t.plan } ∧ RegsBut [Reg.planState] s t)
      ∧ (server s ≠ 1 ∨ p.held = true ∨ p.armed = true → Completes (.planArm dt) s fun t => t = tick dt s)
      ∧ (p.held = false ∨ commitHolds s = true → Completes (.commitHoldRelease dt) s fun t => t = tick dt s)
      ∧ (p.held = true → commitHolds s = false → let f := max p.asked (rateFirst (houseRate s) (s.now + dt + 10 * tickMs))
          Completes (.commitHoldRelease dt) s fun t => t.plan = { s.plan with pending := some { p with held := false, frame := f, start := frameStart s f } }
            ∧ get64 t Reg.planApplyFrameLo = f % 2 ^ 64 ∧ t = { tick dt s with regs := t.regs, plan := t.plan, pair := t.pair } ∧ RegsBut [Reg.planApplyFrameLo, Reg.planApplyFrameLo + 4] s t))
    ∧ (s.plan.pending = none → (Completes (.planArm dt) s fun t => t = tick dt s) ∧ Completes (.commitHoldRelease dt) s fun t => t = tick dt s))
  ∧ (∀ dt h s, Ready h .planDiscard s →
      (s.plan.pending = none → s.plan.loading = none → Completes (.planDiscard dt h) s fun t => Replied dt h .planDiscard 0 s t ∧ getF t Reg.planState 8 2 = 0
        ∧ t.plan = { s.plan with slot := none } ∧ rd t Reg.planGenLoaded = 0 ∧ rd t (Reg.planDigestLoaded 0) = 0 ∧ t = { tick dt s with regs := t.regs, cmd := t.cmd, evq := t.evq, plan := t.plan })
      ∧ (∀ p, s.plan.pending = some p → p.kind = .base → p.cmd.origin = .host → server s = 1 → forwards s = false →
          (p.applied = false → p.held = true ∨ s.now + dt < frameStart s (p.frame - 1) → Completes (.planDiscard dt h) s fun t => t.plan = { s.plan with pending := none }
            ∧ (t.cmd.waiting.drop s.cmd.waiting.length).map (fun r => (r.tag, r.status)) = [(p.cmd.pkt.hdr.tag, 0x0210), (h.tag, 0)] ∧ getF t Reg.planState 4 3 = 0
            ∧ getF t Reg.planState 10 2 = 0 ∧ modeNow t = modeNow s)
          ∧ (p.applied = true ∨ (p.held = false ∧ frameStart s (p.frame - 1) ≤ s.now + dt) → Completes (.planDiscard dt h) s (refused dt h .planDiscard 0x020B s))))

/-- HOUSE_FRAME_START with nothing due changes nothing. With a scheduled command due, the command completes OK with its frame and result. With a pending change whose frame has started: one that is armed, here and at the partner, comes into force, and the mode and, for a commit, the bundle of the load slot are those in force from then on; one that is not armed is cancelled with PLAN_ABORTED, and mode and plan stay. DESTINATION_CHANGEOVER of an output without a group, at or after its switch point under the new plan, takes it off the destinations that remain; the last one completes the command with OK at the apply frame and clears PENDING. Before the switch point nothing changes. EPOCH_BOUNDARY, while the units compare, keeps and sends the CRC-32 of each used output's and input's words whose nominal house position lies in the epoch just closed; words of later epochs wait; and it leaves plan, takes, routes, ports and stores as they are. -/
def Obligations.ChangesApplyFrameByFrame : Prop :=
  (∀ dt s, powered s = true → s.time.utcNext = none → s.plan.pending = none → s.plan.patches = [] →
      (s.sched = [] → s.mem.fs = [] → Completes (.houseFrameStart dt) s fun t => t = tick dt s)
      ∧ (∀ x, s.sched = [x] → s.mem.fs = [] → x.cmd.origin = .host → server s ≠ 2 → ownEvent x.cmd.pkt.body = false →
          (x.start ≤ s.now + dt → Completes (.houseFrameStart dt) s fun t => t.sched = [] ∧ ∃ r, t.cmd.waiting = s.cmd.waiting ++ [r] ∧ r.tag = x.cmd.pkt.hdr.tag ∧ r.status = 0 ∧ r.frame = x.frame)
          ∧ (s.now + dt < x.start → Completes (.houseFrameStart dt) s fun t => t = tick dt s)))
  ∧ (∀ dt s, powered s = true → s.time.utcNext = none → ∀ p, s.plan.pending = some p → p.held = false → p.applied = false → p.start ≤ s.now + dt → p.partnerArmed = true →
      s.plan.patches = [] → s.sched = [] → s.mem.fs = [] →
      (p.armed = true → p.kind = .base → p.mode < 8 → ∀ b, s.plan.slot = some b → Completes (.houseFrameStart dt) s fun t => modeNow t = p.mode ∧ t.plan.committed = some b)
      ∧ (p.armed = false → p.cmd.origin = .host → server s = 1 → Completes (.houseFrameStart dt) s fun t => t.plan = { s.plan with pending := none } ∧ modeNow t = modeNow s
          ∧ getF t Reg.planState 10 2 = 0 ∧ ∃ r, t.cmd.waiting = s.cmd.waiting ++ [r] ∧ r.tag = p.cmd.pkt.hdr.tag ∧ r.status = 0x0210))
  ∧ (∀ dt s, powered s = true → (∀ p, s.plan.pending = some p → p.applied = true → ∀ d, d < 1152 →
      (d ∉ p.remaining ∨ s.now + dt < changeSp s p d → Completes (.destinationChangeover dt d) s fun t => t = tick dt s)
      ∧ (d ∈ p.remaining → changeSp s p d ≤ s.now + dt → membersOf s.plan.cfg (leadOf s.plan.cfg d) = [d] →
          (p.remaining ≠ [d] → Completes (.destinationChangeover dt d) s fun t => (∃ q, t.plan.pending = some q ∧ q.remaining = setDel d p.remaining ∧ q.frame = p.frame)
            ∧ modeNow t = modeNow s ∧ t.plan.cfg = s.plan.cfg ∧ t.cmd = s.cmd ∧ t.take = s.take)
          ∧ (p.remaining = [d] → p.cmd.origin = .host → server s = 1 → Completes (.destinationChangeover dt d) s fun t => t.plan.pending = none ∧ getF t Reg.planState 10 2 = 0
            ∧ get64 t Reg.planCommitFrameLo = p.frame % 2 ^ 64 ∧ ∃ r, t.cmd.waiting = s.cmd.waiting ++ [r] ∧ r.tag = p.cmd.pkt.hdr.tag ∧ r.status = 0 ∧ r.frame = p.frame)))
    ∧ (s.plan.pending = none → ∀ d, Completes (.destinationChangeover dt d) s fun t => t = tick dt s))
  ∧ (∀ dt words s, powered s = true → joinStep s ≠ 7 → let u := tick dt s; let e := epochNow u - 1; Completes (.epochBoundary dt words) s fun t =>
      (comparing u = true → ∃ d, (e, d) ∈ t.pair.own ∧ (s.pair.txSeq, .digests e d) ∈ t.pair.outbox
          ∧ d.outputs = (digestOutputs u).map (fun p => (p.1, crc32 (((portWords p.1 (s.pair.ahead.outputs ++ words.outputs)).filter fun w => decide (outEpoch p.2 w = e)).flatMap fun w => bytesLe w.word.toNat 5 ++ [0])))
          ∧ d.inputs = (digestInputs u).map (fun p => (p.1, crc32 (((portWords p.1 (s.pair.ahead.inputs ++ words.inputs)).filter fun w => decide (inEpoch p.2 w = e)).flatMap fun w =>
              bytesLe w.word.toNat 5 ++ [if w.invalid = true then 0xFF else 0]))))
        ∧ (∀ p, p ∈ digestOutputs u → ∀ w, w ∈ portWords p.1 (s.pair.ahead.outputs ++ words.outputs) → e < outEpoch p.2 w → w ∈ portWords p.1 t.pair.ahead.outputs)
        ∧ getB t Reg.thmStatus 2 = decide (1100 ≤ s.therm.tj) ∧ (1100 ≤ s.therm.tj → getB t Reg.pairHealth 19 = true)
        ∧ t.plan = s.plan ∧ t.take = s.take ∧ t.port = s.port ∧ t.mem = s.mem ∧ t.sched = s.sched ∧ t.trk = s.trk ∧ t.cmd = s.cmd ∧ (∀ d l, d < 1408 → l < 10 → routeOf t d l = routeOf s d l))

/-- PLAN_PATCH is refused PLAN_NONE without a committed plan, PLAN_LOCKED where the plan refuses patches whatever the records hold, PLAN_FORMAT for a wrong structure, PLAN_FORMAT with the index of the first record that fails in DETAIL, and PLAN_LATE; the checks are made in that order, and a refused patch changes nothing else. Accepted, it waits for its house frame, the first that starts at least 1 ms ahead with APPLY_AT 0. PATCH_APPLY at or after that frame's start replaces the entries of all its records together, counts in PLAN_PATCH_GEN and completes the command OK at that frame; before it nothing changes. A record is checked against the tables as the patches accepted before leave them (log 59). -/
def Obligations.PatchesAreCheckedAndApplied : Prop :=
  (∀ dt h rs structOk s, Ready h (.planPatch rs structOk) s → let u := tick dt s; let b := Body.planPatch rs structOk; let c : Instr := .planPatch dt h rs structOk
    let refused := fun (st detail : Nat) (t : State) => Answered h b st detail (houseFrame u) [] s t ∧ getF t Reg.planLastStatus 0 16 = st
      ∧ (rd t Reg.planRejects).toNat = min (2 ^ 32 - 1) ((rd s Reg.planRejects).toNat + 1) ∧ t = { u with regs := t.regs, cmd := t.cmd } ∧ RegsBut (Reg.planLastStatus :: Reg.planRejects :: ringRegs) s t
    let f := if h.applyAt = 0 then rateFirst (houseRate u) (u.now + tickMs) else h.applyAt
    let late := h.applyAt ≠ 0 ∧ h.applyAt < rateFirst (houseRate u) (u.now + tickMs)
    (s.plan.committed = none → Completes c s (refused 0x020C 0))
    ∧ (∀ x, s.plan.committed = some x →
        (getB s Reg.planState 13 = true → Completes c s (refused 0x0211 0))
        ∧ (getB s Reg.planState 13 = false →
            let wrong := structOk = false ∨ rs = [] ∨ ∃ r ∈ rs, r.count = 0 ∨ r.entries.length ≠ r.count
            (wrong → Completes c s (refused 0x0201 0))
            ∧ (¬ wrong → ¬ late → (∀ k, patchBad x (tablesAt u f) 0 rs = some k → Completes c s (refused 0x0201 k))
                ∧ (patchBad x (tablesAt u f) 0 rs = none → Completes c s fun t => Waits h s t ∧ (∃ p, p ∈ t.plan.patches ∧ p.records = rs ∧ p.frame = f ∧ p.start = frameStart u f ∧ p.cmd.pkt.hdr.tag = h.tag)
                    ∧ t.plan.patches.length = s.plan.patches.length + 1 ∧ t.plan = { s.plan with patches := t.plan.patches } ∧ u.now + tickMs ≤ frameStart u f
                    ∧ t = { u with regs := t.regs, cmd := t.cmd, plan := t.plan, pair := t.pair } ∧ RegsBut ringRegs s t))
            ∧ (¬ wrong → late → patchBad x (tablesAt u (rateFirst (houseRate u) (u.now + tickMs))) 0 rs = none → Completes c s (refused 0x020B 0)))))
  ∧ (∀ dt s, powered s = true → s.plan.pending = none → ∀ p, s.plan.patches = [p] → p.cmd.origin = .host → server s = 1 →
      (p.start ≤ s.now + dt → Completes (.patchApply dt) s fun t => t.plan = { s.plan with patches := [], tables := patchTables p.records s.plan.tables }
        ∧ (rd t Reg.planPatchGen).toNat = min (2 ^ 32 - 1) ((rd s Reg.planPatchGen).toNat + 1) ∧ (∃ r, t.cmd.waiting = s.cmd.waiting ++ [r] ∧ r.tag = p.cmd.pkt.hdr.tag ∧ r.status = 0 ∧ r.frame = p.frame))
      ∧ (s.now + dt < p.start → Completes (.patchApply dt) s fun t => t = tick dt s))
  ∧ (∀ dt s, powered s = true → s.plan.pending = none → s.plan.patches = [] → Completes (.patchApply dt) s fun t => t = tick dt s)
  ∧ (∀ (es : List Nat) (first : Nat) (t : Tables), let u := patchTables [{ type := 14, count := es.length, first := first, entries := es }] t
      u.flows = t.flows ∧ u.safe = t.safe ∧ u.colour = t.colour ∧ u.air.length = t.air.length
        ∧ ∀ n, n < t.air.length → u.air[n]? = (if first ≤ n ∧ n < first + es.length then es[n - first]? else t.air[n]?))

/-! ## Ports, frame stores and memory (03_port_pipelines.md, 04_frame_stores.md) -/

/-- INPUT_LINE_ARRIVAL on a used input takes the line of its trunk, its words invalid where the stream's are, or the line that a receive flow presents, if one does. NO_SIGNAL turns into SEARCH, LOCKED into SEARCH on the second line in a row that does not follow the one before (by number and, within 500 ppm, log 187, by EAV), and into MISMATCH on the second frame in a row whose payload ID mismatches. A line is presented valid in LOCKED from line 1 of a frame on, in sequence and with no invalid word; any other counts in PIN_LINES_INVALID, with lines that passed unseen. With a synchroniser it goes into the ring instead. A CRC failure counts and sets CRC_SEEN; a payload ID on its line is held with its match; an ANC packet is extracted, dropped or left by the filter; samples at the plane's rate enter their source channels. INPUT_FRAME_COMPLETE applies the table of states to the frame and reports format and OFFSET. INPUT_EAV_MISSING enters NO_SIGNAL with four lines invalid. An unused input does nothing, and no input touches another one's state. How lines without a signal are counted is DEDUCED (log 103). -/
def Obligations.InputsFollowTheirSignal : Prop :=
  ∀ dt s, powered s = true → ∀ n, n < 1152 → let a := Reg.pinStatus n; let q := inTrack s n; let st := inState s n; let u := tick dt s
    let kept := fun (t : State) => t = { u with regs := t.regs, evq := t.evq, port := { s.port with ins := t.port.ins }, mem := { s.mem with fs := t.mem.fs }, aud := { s.aud with srcs := t.aud.srcs }, trk := { s.trk with streams := t.trk.streams } }
      ∧ RegsBut [a, Reg.pinVpid n, Reg.pinTiming n, Reg.pinAudStatus n, Reg.pinCrcErr n, Reg.pinAncCnt n, Reg.pinLinesInvalid n, Reg.pgrpInStatus (n / 4)] s t
      ∧ ∀ m, m ≠ n → inTrack t m = inTrack s m
    let more := fun (t : State) (r k : Nat) => (rd t r).toNat = min (2 ^ 32 - 1) ((rd s r).toNat + k)
    (inCfg? s n = none → (∀ l, Completes (.inputLineArrival dt n l) s fun t => t = u) ∧ (∀ f, Completes (.inputFrameComplete dt n f) s fun t => t = u)
        ∧ Completes (.inputEavMissing dt n) s fun t => t = u)
    ∧ (∀ c, inCfg? s n = some c → let ring := inRing s n; let period := fmtLineTicks c.fmt
        (∀ l : LineInfo, c.fromFlow = true → flowLine u n c.fmt l = none → Completes (.inputLineArrival dt n l) s fun t => t = u)
        ∧ (∀ l x : LineInfo, (c.fromFlow = true ∧ flowLine u n c.fmt l = some x) ∨ (c.fromFlow = false ∧ x = if streamInvalid s n = true then { l with invalid := true } else l) →
          let st1 := if st = 1 then 2 else st; let gone := s.now + dt - q.eavAt
          let follows := q.lastLine.elim true fun p => decide (x.number = nextLine c.fmt p) && decide (2000 * gone ≤ 2001 * period) && decide (1999 * period ≤ 2000 * gone)
          let st2 := if st1 = 3 ∧ follows = false ∧ 1 ≤ q.oos then 2 else st1
          let wrong := fun (v : Nat) => vpidLine c.fmt x.number && decide (v % 65536 ≠ c.fmt.vpid % 65536)
          let st3 := if st2 = 3 ∧ x.vpid.any wrong = true ∧ (if q.vpidNow = true then 2 else 1) ≤ q.vpidBad then 4 else st2
          let live := (decide (st ≠ 1) && q.live || (decide (st1 = 3) && decide (x.number = 1))) && decide (st2 = st1)
          let valid := live && follows && !x.invalid
          let passed := (if st = 1 then (s.now + dt - q.linesAt) / max 1 period else 0) + if q.lastLine = none then 0 else min 3 ((gone + period / 2) / max 1 period - 1)
          Completes (.inputLineArrival dt n l) s fun t => kept t ∧ inState t n = st3
            ∧ more t (Reg.pinCrcErr n) (if x.crcFail = true then 1 else 0) ∧ getB t a 10 = (getB s a 10 || x.crcFail)
            ∧ more t (Reg.pinLinesInvalid n) (if ring = true then 0 else passed + if valid = true then 0 else 1)
            ∧ (inTrack t n).lastLine = some x.number ∧ (inTrack t n).eavAt = s.now + dt
            ∧ (ring = false → groupOf s.plan.cfg.groups true n = none → (inTrack t n).shown = some { number := x.number, valid := valid, subst := false, pic := x.pic })
            ∧ (ring = true → (inTrack t n).shown = q.shown ∧ t.aud = s.aud ∧ (inTrack t n).ancNow = q.ancNow)
            ∧ (x.vpid.filter (fun _ => vpidLine c.fmt x.number) = none → rd t (Reg.pinVpid n) = rd s (Reg.pinVpid n) ∧ getB t a 9 = getB s a 9)
            ∧ (∀ v, x.vpid = some v → vpidLine c.fmt x.number = true → rd t (Reg.pinVpid n) = BitVec.ofNat 32 v ∧ getB t a 9 = !wrong v)
            ∧ (ring = false → videoFed u c = false → (∀ p, x.anc = [p] → let cnt := fun (w : State) (lo : Nat) => getF w (Reg.pinAncCnt n) lo 16
                let never := (decide (0xE0 ≤ p.did) && decide (p.did ≤ 0xE7)) || (decide (0xA0 ≤ p.did) && decide (p.did ≤ 0xA7)) || (decide (p.did = 0x41) && decide (p.sdid = 1))
                let hit := (c.filter.take 16).any fun r => decide (p.did = r.did) && decide (p.sdid &&& r.mask = r.sdid &&& r.mask)
                let full := decide (8192 < sumL (q.ancNow.map fun y => y.2.bytes) + p.bytes)
                let dropped := !ancGood p || (!never && hit && full)
                let taken := !never && ancGood p && hit && !full
                cnt t 16 = min 65535 (cnt s 16 + if dropped = true then 1 else 0) ∧ cnt t 0 = min 65535 (cnt s 0 + if taken = true then 1 else 0)
                  ∧ getB t a 11 = (getB s a 11 || dropped) ∧ (inTrack t n).ancNow = q.ancNow ++ if taken = true then [(x.number, p)] else [])
              ∧ (∀ p, x.audio = [p] → ∀ g, p.did = (if g ≤ 4 then 0xE8 - g else 0xAC - g) → 1 ≤ g → g ≤ 8 → groupOf s.plan.cfg.groups true n = none → audDeclared q g = planeRate s →
                  tabGet 0 g q.audCount < audioSamples c.fmt (planeRate s) (if x.number = 1 then fmtFrameNear c.fmt (s.now + dt) else q.frameNo) → ∀ i, i < 4 → ∀ y, nth? p.samples i = some y →
                    (tabGet audSrc0 (32 * n + 4 * (g - 1) + i) t.aud.srcs).queue = (tabGet audSrc0 (32 * n + 4 * (g - 1) + i) s.aud.srcs).queue ++ [audSlotOf y])))
        ∧ (∀ f : FrameInfo, let rows : Int := (period / 1000 : Nat); let offset := if c.fromFlow = true ∧ flowLocked u n = true then 0 else f.offset
          let inTime := if inSync s n = true then decide (f.periodPpm10.natAbs ≤ 1000) else decide (24 - rows ≤ offset) && decide (offset ≤ rows - 24)
          let alike := decide (f.format = c.fmt.id) && decide (f.lines = c.fmt.lines) && decide (f.scan = c.fmt.scan) && decide (f.rateNum * c.fmt.rateDen = c.fmt.rateNum * f.rateDen)
          let seen := if q.vpidNow = true then getB s a 9 else !c.requireVpid
          Completes (.inputFrameComplete dt n f) s fun t => kept t ∧ getF t a 4 4 = f.format % 16 ∧ getB t a 8 = q.vpidNow
            ∧ getF t (Reg.pinTiming n) 0 16 = (offset % 65536).toNat ∧ getB t (Reg.pinTiming n) 16 = (inTime || inSync s n)
            ∧ (st = 0 ∨ st = 1 → inState t n = st)
            ∧ (2 ≤ st → st ≠ 3 → inState t n = (if f.whole = true ∧ alike = true ∧ seen = true ∧ inTime = true then 3
                else if st = 2 ∧ f.whole = true then (if alike = true ∧ seen = true then 5 else 4) else st))
            ∧ (st = 3 → (q.vpidNow = true ∨ c.requireVpid = false) →
                inState t n = (if f.whole = true ∧ alike = false then 4 else if inTime = false then 5 else 3))
            ∧ (st = 3 → q.vpidNow = false → c.requireVpid = true → 1 ≤ q.vpidBad → inState t n = 4)
            ∧ (ring = false → (inTrack t n).ancNow = [] ∧ (inTrack t n).ancLast = q.ancNow))
        ∧ (st ≠ 1 → Completes (.inputEavMissing dt n) s fun t => kept t ∧ inState t n = 1 ∧ (inTrack t n).live = false ∧ more t (Reg.pinLinesInvalid n) (if ring = true then 0 else 4))
        ∧ (st = 1 → Completes (.inputEavMissing dt n) s fun t => t = u))

/-- OUTPUT_LINE_EMIT on an output that the mode uses: a line in which a word arrived marked invalid, outside safe content over the whole frame, counts in POUT_LINES_REPL and sets REPL_SEEN, and the frame has a replaced line; any other line leaves both; the marks are spent. Line 1 takes the colour set that the frame uses and shows whether it is enabled. Cross-routed ANC counts those packets that fit the line's room and those dropped. The line sent carries its source's words unless it is safe or replaced, the output's payload ID on the lines of ST 352, and the slots of its destination channels, which are zero in safe content. The last line of a frame sets STATE to safe, replacing or normal, and a frame without a replaced line becomes the good frame of an output frame store; other lines leave STATE. Nothing but this output's registers, its track, the event queue and its delay line changes, but for the penalty of an internal fault on air. An output that the mode does not use emits nothing. -/
def Obligations.OutputLinesAreReplacedWhole : Prop :=
  ∀ dt s, powered s = true → ∀ n, n < 1152 → ∀ l : OutLine, let a := Reg.poutStatus n; let u := tick dt s; let q := outTrack s n; let safe := outSafe u n; let repl := q.invalid && !safe
    let cross := decide (getF s (Reg.takeRoute n 9) 0 11 ≠ getF s (Reg.takeRoute n 0) 0 11) && decide (getF s (Reg.takeRoute n 9) 0 11 ≠ 0x7FF)
    let cnt := fun (x : State) (lo : Nat) => getF x (Reg.poutAncCnt n) lo 16
    (outCfg? s n = none → Completes (.outputLineEmit dt n l) s fun t => t = u)
    ∧ (∀ c, outCfg? s n = some c → let last := decide (c.fmt.lines ≤ l.number)
      let due := ((inTrack s (getF s (Reg.takeRoute n 9) 0 11)).ancLast.filter fun p => decide (p.1 = l.number)).map Prod.snd
      let fit := ancFit l.room due
      Completes (.outputLineEmit dt n l) s fun t =>
        (rd t (Reg.poutLinesRepl n)).toNat = min (2 ^ 32 - 1) ((rd s (Reg.poutLinesRepl n)).toNat + if repl = true then 1 else 0)
        ∧ getB t a 6 = (getB s a 6 || repl) ∧ (outTrack t n).invalid = false ∧ (outTrack t n).internal = false
        ∧ (l.number = 1 → (outTrack t n).colour = outColour s n ∧ getB t a 5 = (outColour s n).any fun e => decide (e.flags % 2 = 1))
        ∧ (l.number ≠ 1 → (outTrack t n).colour = q.colour ∧ getB t a 5 = getB s a 5)
        ∧ (c.timecode = false → cross = false → cnt t 0 = cnt s 0 ∧ cnt t 16 = cnt s 16 ∧ getB t a 7 = getB s a 7)
        ∧ (c.timecode = false → cross = true → cnt t 0 = min 65535 (cnt s 0 + fit.1.length) ∧ cnt t 16 = min 65535 (cnt s 16 + fit.2.length) ∧ getB t a 7 = (getB s a 7 || decide (fit.2 ≠ [])))
        ∧ (delayNow s n = 0 → ∃ y, (outTrack t n).sent = some y ∧ y.number = l.number ∧ y.invalid = q.spoilt ∧ y.internal = (repl && q.internal)
            ∧ y.vpid = (if vpidLine c.fmt l.number = true then some c.fmt.vpid else none)
            ∧ y.audio = ((List.range 8).filter fun g => decide (c.embed / 2 ^ g % 2 = 1)).map (fun g =>
                (g + 1, (List.range 4).map fun i => if safe = true then 0 else tabGet 0 (32 * n + 4 * g + i) s.aud.out))
            ∧ (modeNow s ≠ 5 → repl = true ∨ safe = true → y.kind = .black ∨ y.kind = .slate (safeEntry s n / 16 % 4096) ∨ y.kind = .freeze)
            ∧ (modeNow s ≠ 5 → repl = true ∨ safe = true → safeEntry s n % 4 = 0 ∨ q.dark = true → y.kind = .black)
            ∧ (modeNow s ≠ 5 → repl = false → safe = false → srcTask s n = none → y.kind = .words)
            ∧ (y.kind ≠ .words → c.timecode = false → cross = false → y.anc = []))
        ∧ (last = false → getF t a 0 2 = getF s a 0 2 ∧ getB t a 4 = getB s a 4 ∧ (outTrack t n).replNow = (q.replNow || repl) ∧ t.sched = s.sched ∧ t.cmd = s.cmd)
        ∧ (last = true → getF t a 0 2 = (if safe = true then 3 else if (q.replNow || repl) = true then 2 else 1)
            ∧ getB t a 4 = (getB s a 4 || (outStore s n && !(q.replNow || repl) && !safe)) ∧ (outTrack t n).replNow = false)
        ∧ (outTrack t n).pattern = q.pattern ∧ (∀ m, m ≠ n → outTrack t m = outTrack s m) ∧ t.port.ins = s.port.ins ∧ t.plan = s.plan ∧ t.take = s.take ∧ t.mem.fs = s.mem.fs
        ∧ (s.sched = [] → t.mem = s.mem)
        ∧ (s.sched = [] → q.internal = false ∨ airOut s n = false → t = { u with regs := t.regs, evq := t.evq, port := t.port }
            ∧ RegsBut [a, Reg.poutLinesRepl n, Reg.poutAncCnt n, Reg.pgrpOutStatus (n / 4), Reg.dlyStatus n] s t))

/-- FS_RING_FRAME_COMPLETE of a frame for the whole of which the input was LOCKED adds it to the complete ones; the writer goes on in one of the three buffers that holds neither it nor the frame being read; after a loss the ring starts again from it. FS_READ takes the frame selected for it; a selection that is not complete falls back to the newest complete frame and is counted. The same frame as at the last read counts a repeat, a later one the frames passed over as drops, either starts a crossfade, and STATE runs; LATENCY is the age of the frame in rows. While the input is lost, LOSS_MODE 1 reads a newest complete frame not read yet, then holds the last for HOLD_FRAMES frames, HOLD_LEFT counting down; otherwise the words are marked invalid and an input's lines count in PIN_LINES_INVALID. FS_HOLD_EXPIRY ends a hold. A source without a synchroniser does nothing. -/
def Obligations.SynchronisersReadTheirRings : Prop :=
  ∀ dt s, powered s = true → ∀ n, n < 1408 → let a := fsA n; let st := getF s a 0 2; let now := s.now + dt; let u := tick dt s
    let others := fun (t : State) => ∀ m, m ≠ n → fsTrack t m = fsTrack s m ∧ inTrack t m = inTrack s m
    let kept := fun (t : State) => t = { u with regs := t.regs, evq := t.evq, mem := { s.mem with fs := t.mem.fs }, port := { s.port with ins := t.port.ins }, aud := { s.aud with srcs := t.aud.srcs } }
      ∧ RegsBut [a, a + 4, a + 8, a + 12, Reg.pinStatus n, Reg.pinAudStatus n, Reg.pinAncCnt n, Reg.pinLinesInvalid n] s t ∧ others t
      ∧ (inRing s n = false → t.port = s.port ∧ t.aud = s.aud ∧ RegsBut [a, a + 4, a + 8, a + 12] s t)
    let lines := fun (t : State) (k : Nat) => ∀ c, inCfg? s n = some c → inRing s n = true → (rd t (Reg.pinLinesInvalid n)).toNat = min (2 ^ 32 - 1) ((rd s (Reg.pinLinesInvalid n)).toNat + k)
    let dark := fun (t : State) => kept t ∧ ∀ c, inCfg? s n = some c → lines t c.fmt.lines
    (tabFind n s.mem.fs = none → (Completes (.fsRingFrameComplete dt n) s fun t => t = u) ∧ (Completes (.fsRead dt n) s fun t => t = u)
        ∧ Completes (.fsHoldExpiry dt n) s fun t => t = u)
    ∧ (∀ x, tabFind n s.mem.fs = some x → let shed := isShed s 4 n
        let whole := decide (1152 ≤ n) || (x.whole && decide (x.lockedAt + ((srcFmt? s n).elim 0 fun f => fmtFrameTicks f - fmtLineTicks f) ≤ s.mono + dt) && decide (x.lockedAt < s.mono + dt))
        let taken := fun (f : RingFrame) (late : Bool) (t : State) => let rep := decide (x.last = some f.num); let drops := (x.last.map fun k => f.num - k - 1).getD 0
          kept t ∧ getF t a 0 2 = 2 ∧ getF t a 16 16 = 0
            ∧ (rd t (a + 4)).toNat = min (2 ^ 32 - 1) ((rd s (a + 4)).toNat + if rep = true then 1 else 0)
            ∧ (rd t (a + 8)).toNat = min (2 ^ 32 - 1) ((rd s (a + 8)).toNat + drops) ∧ getF t (a + 12) 0 24 = ((now - f.doneAt) / 1000) % 2 ^ 24
            ∧ getF t (a + 12) 24 8 = min 255 (getF s (a + 12) 24 8 + if late = true then 1 else 0) ∧ getB t a 5 = (getB s a 5 || late)
            ∧ lines t (f.lines.filter LineInfo.invalid).length
            ∧ fsTrack t n = { x with last := some f.num, lastBuf := f.buf, sel := none, fadeUntil := if rep = true ∨ 0 < drops then s.mono + dt + 64 * tickSec / planeRate s else x.fadeUntil }
        (shed = true → (Completes (.fsRingFrameComplete dt n) s fun t => t = u) ∧ Completes (.fsRead dt n) s fun t => dark t ∧ getF t a 0 2 = 1 ∧ fsTrack t n = x)
        ∧ (shed = false → whole = false → Completes (.fsRingFrameComplete dt n) s fun t => t = { u with mem := { s.mem with fs := t.mem.fs } } ∧ others t ∧ fsTrack t n = { x with writing := [] })
        ∧ (shed = false → whole = true → Completes (.fsRingFrameComplete dt n) s fun t => kept t ∧ t.port = s.port ∧ t.aud = s.aud ∧ getB t a 3 = true ∧ getF t a 0 2 = (if x.lost = true ∧ st = 3 then 1 else st)
            ∧ ∃ next, next < 3 ∧ next ≠ x.buf ∧ (x.lost = false → next ≠ x.lastBuf)
            ∧ fsTrack t n = { x with frames := { num := x.nextNum, buf := x.buf, doneAt := now, lines := x.writing.reverse } :: (if x.lost = true then [] else x.frames.filter fun g => decide (g.buf ≠ next)),
                                     nextNum := x.nextNum + 1, buf := next, writing := [], times := (s.mono + dt) :: (if x.lost = true then [] else x.times.take 64), lost := false, last := if x.lost = true then none else x.last })
        ∧ (shed = false → x.lost = false → let chosen := x.sel.bind fun k => x.frames.find? fun f => decide (f.num = k)
            let f? := match x.sel with
              | some _ => if chosen.isSome = true then chosen else x.frames.head?
              | none => x.frames.find? fun f => decide (f.doneAt + srcLine s n ≤ now)
            (f? = none → Completes (.fsRead dt n) s fun t => dark t ∧ RegsBut [Reg.pinLinesInvalid n] s t ∧ fsTrack t n = x)
            ∧ (∀ f, f? = some f → Completes (.fsRead dt n) s (taken f (x.sel.isSome && chosen.isNone))))
        ∧ (shed = false → x.lost = true → let left := getF s a 16 16; let frame := x.frames.find? fun f => decide (f.doneAt + srcLine s n ≤ now)
            (getB s a 2 = false ∨ frame = none → Completes (.fsRead dt n) s fun t => dark t ∧ getF t a 0 2 = 1 ∧ getF t a 16 16 = 0 ∧ fsTrack t n = x)
            ∧ (getB s a 2 = true → ∀ f, frame = some f →
              (st ≠ 3 → x.last ≠ some f.num → Completes (.fsRead dt n) s (taken f false))
              ∧ (st = 3 → left ≤ 1 → Completes (.fsRead dt n) s fun t => dark t ∧ getF t a 0 2 = 1 ∧ getF t a 16 16 = 0 ∧ fsTrack t n = x)
              ∧ (st = 3 → 1 < left → Completes (.fsRead dt n) s fun t => kept t ∧ getF t a 0 2 = 3 ∧ getF t a 16 16 = left - 1 ∧ fsTrack t n = x)
              ∧ (st ≠ 3 → x.last = some f.num → x.hold = 0 ∨ st = 1 → Completes (.fsRead dt n) s fun t => dark t ∧ getF t a 0 2 = 1 ∧ fsTrack t n = x)
              ∧ (st ≠ 3 → x.last = some f.num → x.hold ≠ 0 → st ≠ 1 → Completes (.fsRead dt n) s fun t => kept t ∧ getF t a 0 2 = 3 ∧ getF t a 16 16 = x.hold % 65536 ∧ fsTrack t n = x)))
        ∧ (x.lost = true → st = 3 → Completes (.fsHoldExpiry dt n) s fun t => kept t ∧ getF t a 0 2 = 1 ∧ getF t a 16 16 = 0 ∧ fsTrack t n = x)
        ∧ (x.lost = false ∨ st ≠ 3 → Completes (.fsHoldExpiry dt n) s fun t => t = u))

/-- FS_CONTROL without a ring, and DELAY_SET without a delay line, are refused MEM_NO_STORE; DELAY_SET above its allocation MEM_RANGE; SLATE_LOAD of a picture that does not fill LENGTH SLATE_FORMAT, one that its store cannot hold SLATE_SPACE, one during a copy COMP_BUSY; each of them with an APPLY_AT less than 1 ms ahead PLAN_LATE. Accepted, each waits for its house frame with its result body, and DELAY_SET shows it. MEM_QUERY answers pages used and free of the nine region kinds (free pages: log 20). HBM_WORD_READ of a word with no changed bit changes nothing; one changed bit of the 72 is corrected, counts, gives its address, and is found stuck at its third correction within an hour; two changed bits, a word of another address, or a lost clock of the stack make it uncorrectable: counted, with the loss of what its region held, or the plan-memory penalty outside every region. SCRUB_PASS counts a pass PERIOD or more after the last one, PERIOD from 4 to 64 seconds, while the scrubber runs. -/
def Obligations.StoresAnswerAndCheckTheirWords : Prop :=
  (∀ dt h source loss hold s, Ready h (.fsControl source loss hold) s → let b := Body.fsControl source loss hold; let u := tick dt s
    (ringEntry? s source = none → Completes (.fsControl dt h source loss hold) s (AnswersWith dt h b 0x0220 [] s))
    ∧ (ringEntry? s source ≠ none → TooLate tickMs h u → Completes (.fsControl dt h source loss hold) s (AnswersWith dt h b 0x020B [] s))
    ∧ (ringEntry? s source ≠ none → ¬ TooLate tickMs h u → Completes (.fsControl dt h source loss hold) s fun t => Scheduled dt tickMs h (fun _ => []) s t
        ∧ t = { u with regs := t.regs, cmd := t.cmd, sched := t.sched, pair := t.pair } ∧ RegsBut ringRegs s t))
  ∧ (∀ dt h n d s, Ready h (.delaySet n d) s → let b := Body.delaySet n d; let u := tick dt s
    (memEntry? s 2 n = none → Completes (.delaySet dt h n d) s (AnswersWith dt h b 0x0220 [] s))
    ∧ (∀ e, memEntry? s 2 n = some e → (e.frames < d → Completes (.delaySet dt h n d) s (AnswersWith dt h b 0x0221 [] s))
        ∧ (d ≤ e.frames → TooLate tickMs h u → Completes (.delaySet dt h n d) s (AnswersWith dt h b 0x020B [] s))
        ∧ (d ≤ e.frames → ¬ TooLate tickMs h u → Completes (.delaySet dt h n d) s fun t => Scheduled dt tickMs h (fun f => [(8, f)]) s t ∧ getB t (Reg.dlyStatus n) 13 = true
            ∧ getF t (Reg.dlyStatus n) 8 5 = getF s (Reg.dlyStatus n) 8 5 ∧ t = { u with regs := t.regs, cmd := t.cmd, sched := t.sched, pair := t.pair } ∧ RegsBut (Reg.dlyStatus n :: ringRegs) s t)))
  ∧ (∀ dt h i w ht sc len s, Ready h (.slateLoad i w ht sc len) s → let b := Body.slateLoad i w ht sc len; let u := tick dt s; let c : Instr := .slateLoad dt h i w ht sc len
    let pages := (len + 2097151) / 2097152
    let wrong := len ≠ 0 ∧ len ≠ (4 * ((2 * w + 2) / 3) + 127) / 128 * 128 * ht
    let space := 256 < slatePages (tabErase i s.mem.slates) + pages
    (wrong → Completes c s (AnswersWith dt h b 0x0222 [] s)) ∧ (¬ wrong → space → Completes c s (AnswersWith dt h b 0x0223 [] s))
    ∧ (¬ wrong → ¬ space → s.mono + dt < s.comp.uploadEnd → Completes c s (AnswersWith dt h b 0x0803 [] s))
    ∧ (¬ wrong → ¬ space → s.comp.uploadEnd ≤ s.mono + dt → TooLate tickMs h u → Completes c s (AnswersWith dt h b 0x020B [] s))
    ∧ (¬ wrong → ¬ space → s.comp.uploadEnd ≤ s.mono + dt → ¬ TooLate tickMs h u → Completes c s fun t => Scheduled dt tickMs h (fun _ => [(4, pages)]) s t
        ∧ t.mem = { s.mem with staged := s.mem.staged ++ [(i, applyFor tickMs h u, s.mem.upload.take (len / 4))] }
        ∧ t = { u with regs := t.regs, cmd := t.cmd, sched := t.sched, pair := t.pair, mem := t.mem, comp := { s.comp with uploadEnd := t.comp.uploadEnd } } ∧ RegsBut ringRegs s t))
  ∧ (∀ dt h q s, Ready h (.memQuery q) s → Completes (.memQuery dt h q) s fun t => t = { tick dt s with regs := t.regs, cmd := t.cmd } ∧ RegsBut ringRegs s t
      ∧ ∃ r, t.cmd.waiting = s.cmd.waiting ++ [r] ∧ r.status = 0 ∧ r.resultLen = 72 ∧ (h.flags % 2 = 0 → 72 ≤ h.resultLen → ∀ k, k < 9 →
          r.result[2 * k]? = some (4, memPagesUsed s (k + 1) q) ∧ r.result[2 * k + 1]? = some (4, memPagesOf s (k + 1) - memPagesUsed s (k + 1) q)))
  ∧ (∀ dt s, powered s = true → ∀ q, q < 4 → ∀ addr : Nat, let st := Reg.memStatus q; let same := fun (x : Corrected) => decide (x.stack = q) && decide (x.addr = addr) && decide (s.mono + dt ≤ x.at_ + 3600 * tickSec)
    let n := (s.mem.corrected.filter same).length; let known := decide ((q, addr) ∈ s.mem.stuck)
    ∀ r : HbmRead, let lost := keepAlive s (23 * q + 20); let bits := flipCount r.flips
    (lost = false → r.from_ = addr → bits = 0 → Completes (.hbmWordRead dt q addr r) s fun t => t = tick dt s)
    ∧ (lost = false → r.from_ = addr → bits = 1 → Completes (.hbmWordRead dt q addr r) s fun t => (rd t (Reg.memCeCnt q)).toNat = min (2 ^ 32 - 1) ((rd s (Reg.memCeCnt q)).toNat + 1) ∧ getB t st 2 = true
        ∧ rd t (Reg.memLastErrLo q) = BitVec.ofNat 32 addr ∧ (rd t (Reg.memLastErrHi q)).toNat = addr / 2 ^ 32 % 8
        ∧ (2 ≤ n → known = false ∨ getB s st 4 = false → (q, addr) ∈ t.mem.stuck ∧ getB t st 4 = true) ∧ (n < 2 ∨ (known = true ∧ getB s st 4 = true) → t.mem.stuck = s.mem.stuck ∧ getB t st 4 = getB s st 4)
        ∧ t = { tick dt s with regs := t.regs, evq := t.evq, mem := { s.mem with corrected := t.mem.corrected, stuck := t.mem.stuck } }
        ∧ RegsBut [st, Reg.memCeCnt q, Reg.memLastErrLo q, Reg.memLastErrHi q] s t)
    ∧ (lost = true ∨ r.from_ ≠ addr ∨ bits = 2 → Completes (.hbmWordRead dt q addr r) s fun t => (rd t (Reg.memUeCnt q)).toNat = min (2 ^ 32 - 1) ((rd s (Reg.memUeCnt q)).toNat + 1) ∧ getB t st 3 = true
        ∧ rd t (Reg.memLastErrLo q) = BitVec.ofNat 32 addr ∧ (rd t (Reg.memLastErrHi q)).toNat = addr / 2 ^ 32 % 8 + 256 ∧ t.mem.stuck = s.mem.stuck
        ∧ (memAt s q addr = none → getB t Reg.pairHealth 17 = true)
        ∧ (∀ e, memAt s q addr = some e → (e.kind = 1 → (fsTrack t e.owner).spoilt = true ∧ (∀ f, f ∈ (fsTrack t e.owner).frames → f.buf ≠ (addr - e.base) / max 1 (e.length / 3)))
            ∧ (e.kind = 2 → (outTrack t e.owner).spoilt = true) ∧ (e.kind = 3 → e.owner < 1152 → (outTrack t e.owner).good = none ∧ getB t (Reg.poutStatus e.owner) 4 = false)
            ∧ (e.kind = 7 → (outTrack t r.reader).dark = true) ∧ (e.kind = 8 → ∀ x, x ∈ (flowTrack t e.owner).held → x.pos ≠ r.reader) ∧ (e.kind = 9 → getB t Reg.pairHealth 17 = true)))
    ∧ (let due := getB s (Reg.memScrubCtrl q) 0 && awake s q && decide (tabGet 0 q s.mem.scrubAt + max 4 (min 64 (getF s (Reg.memScrubCtrl q) 8 8)) * tickSec ≤ s.mono + dt);
        (due = false → Completes (.scrubPass dt q) s fun t => t = tick dt s)
        ∧ (due = true → Completes (.scrubPass dt q) s fun t => t = { tick dt s with regs := t.regs, mem := { s.mem with scrubAt := t.mem.scrubAt } } ∧ RegsBut [Reg.memScrubPasses q] s t
            ∧ rd t (Reg.memScrubPasses q) = rd s (Reg.memScrubPasses q) + 1 ∧ tabGet 0 q t.mem.scrubAt = s.mono + dt ∧ ∀ x, x ≠ q → tabGet 0 x t.mem.scrubAt = tabGet 0 x s.mem.scrubAt)))

/-! ## Ibex commands and composition (09_ibex_engines.md, 10_composition.md) -/

/-- IBX_TASK_QUERY answers 16 bytes for each task asked for, with its cost by the library and the highest state of its engines, and IBX_RANGE if one of them does not exist. IBX_TABLE_SET, IBX_COLOUR_SET and IBX_PATTERN_SET are refused IBX_RANGE for a task that the mode does not have (its status: log 104) and IBX_KIND for one of another kind. A table stands in the shadow of its colour task and what is in force stays. A colour set waits for the first frame boundary of the task's format at or after its house frame; with COMMIT the whole shadow, tables and matrix, is armed for it, and without it only the shadow changes. IBX_PATTERN_SET waits for its house frame. IBX_PROBE_SET sets the limits of one probe; IBX_PROBE_READ answers its three registers; IBX_LOUD_RESET of a loudness probe waits for its frame, and of another it is IBX_KIND. An APPLY_AT less than 1 ms ahead is PLAN_LATE. -/
def Obligations.IbexCommandsCheckTaskAndKind : Prop :=
  let kind := fun (s : State) (n k : Nat) => match s.plan.cfg.tasks.find? fun t => decide (t.task = n) with
    | none => 0x0701
    | some t => if t.kind = k then 0 else 0x0702
  let others := fun (s t : State) (n : Nat) => ∀ m, m ≠ n → colourTask t m = colourTask s m
  (∀ dt h n cnt s, Ready h (.ibxTaskQuery n cnt) s → let b := Body.ibxTaskQuery n cnt; let missing := (List.range cnt).any fun k => (taskCfg? s (n + k)).isNone
    (missing = true → Completes (.ibxTaskQuery dt h n cnt) s (AnswersWith dt h b 0x0701 [] s))
    ∧ (missing = false → Completes (.ibxTaskQuery dt h n cnt) s (AnswersWith dt h b 0 ((List.range cnt).flatMap fun k => match taskCfg? s (n + k) with
        | some t => [(2, n + k), (1, t.kind), (1, t.engine), (2, taskCost s.plan.cfg s.plan.tables.flows t), (2, t.send), (2, t.ret), (1, ((if t.engine = 255 then t.split else [t.engine]).map (engState s)).foldl max 0), (5, 0)]
        | none => []) s)))
  ∧ (∀ dt h n tb es s, Ready h (.ibxTableSet n tb es) s → let b := Body.ibxTableSet n tb es
    (kind s n 5 ≠ 0 → Completes (.ibxTableSet dt h n tb es) s (AnswersWith dt h b (kind s n 5) [] s))
    ∧ (kind s n 5 = 0 → Completes (.ibxTableSet dt h n tb es) s fun t => Replied dt h b 0 s t ∧ tabFind tb (colourTask t n).shadow.tables = some es
        ∧ (∀ k, k < 6 → k ≠ tb → tabFind k (colourTask t n).shadow.tables = tabFind k (colourTask s n).shadow.tables) ∧ (colourTask t n).shadow.matrix = (colourTask s n).shadow.matrix
        ∧ (colourTask t n).live = (colourTask s n).live ∧ (colourTask t n).armed = (colourTask s n).armed ∧ others s t n
        ∧ t = { tick dt s with regs := t.regs, cmd := t.cmd, pair := t.pair, ibx := { s.ibx with colour := t.ibx.colour } } ∧ RegsBut ringRegs s t))
  ∧ (∀ dt h n flags e s, Ready h (.ibxColourSet n flags e) s → let b := Body.ibxColourSet n flags e; let u := tick dt s; let c : Instr := .ibxColourSet dt h n flags e
    (kind s n 5 ≠ 0 → Completes c s (AnswersWith dt h b (kind s n 5) [] s))
    ∧ (kind s n 5 = 0 → TooLate tickMs h u → Completes c s (AnswersWith dt h b 0x020B [] s))
    ∧ (kind s n 5 = 0 → ¬ TooLate tickMs h u → let f := applyFor tickMs h u; let at_ := taskBoundary s n (frameStart u f); let q := colourTask s n
        Completes c s fun t => Waits h s t ∧ (∃ x, t.sched = s.sched ++ [x] ∧ x.frame = f ∧ x.start = at_ ∧ x.result = [(8, f)] ∧ x.cmd.pkt.hdr = h) ∧ (taskCfg? s n ≠ none → frameStart u f ≤ at_)
          ∧ (colourTask t n).live = q.live ∧ others s t n
          ∧ (flags = 0 → (colourTask t n).shadow = { q.shadow with matrix := some e } ∧ (colourTask t n).armed = q.armed)
          ∧ (flags = 1 → (colourTask t n).shadow = colourSet0 ∧ ∃ x, (colourTask t n).armed = q.armed ++ [x] ∧ x.2 = at_ ∧ x.1.matrix = some e
              ∧ ∀ k, k < 6 → tabFind k x.1.tables = match tabFind k q.shadow.tables with
                | some v => some v
                | none => tabFind k (match q.armed.getLast? with
                  | some y => y.1
                  | none => q.live).tables)
          ∧ t = { u with regs := t.regs, cmd := t.cmd, sched := t.sched, pair := t.pair, ibx := { s.ibx with colour := t.ibx.colour } } ∧ RegsBut ringRegs s t))
  ∧ (∀ dt h n p sl s, Ready h (.ibxPatternSet n p sl) s → let b := Body.ibxPatternSet n p sl; let u := tick dt s; let c : Instr := .ibxPatternSet dt h n p sl
    (kind s n 6 ≠ 0 → Completes c s (AnswersWith dt h b (kind s n 6) [] s))
    ∧ (kind s n 6 = 0 → TooLate tickMs h u → Completes c s (AnswersWith dt h b 0x020B [] s))
    ∧ (kind s n 6 = 0 → ¬ TooLate tickMs h u → Completes c s fun t => Scheduled dt tickMs h (fun f => [(8, f)]) s t
        ∧ t = { u with regs := t.regs, cmd := t.cmd, sched := t.sched, pair := t.pair } ∧ RegsBut ringRegs s t))
  ∧ (∀ dt h p bl bf fm ff st tp s, Ready h (.ibxProbeSet p bl bf fm ff st tp) s → let b := Body.ibxProbeSet p bl bf fm ff st tp; let c : Instr := .ibxProbeSet dt h p bl bf fm ff st tp
    (probeTask? s p = none → Completes c s (AnswersWith dt h b 0x0702 [] s))
    ∧ (probeTask? s p ≠ none → Completes c s fun t => Replied dt h b 0 s t
        ∧ probeTrack t p = { probeTrack s p with conf := { blackLevel := bl, blackFrames := bf, freezeMad := fm, freezeFrames := ff, stLimit := st, tpLimit := tp } }
        ∧ (∀ m, m ≠ p → probeTrack t m = probeTrack s m)
        ∧ t = { tick dt s with regs := t.regs, cmd := t.cmd, pair := t.pair, ibx := { s.ibx with probes := t.ibx.probes } } ∧ RegsBut ringRegs s t))
  ∧ (∀ dt h p s, Ready h (.ibxProbeRead p) s →
      Completes (.ibxProbeRead dt h p) s (AnswersWith dt h (.ibxProbeRead p) 0 [(4, (rd s (Reg.prbStatus p)).toNat), (4, (rd s (Reg.prbLoud p)).toNat), (4, (rd s (Reg.prbInteg p)).toNat)] s))
  ∧ (∀ dt h p s, Ready h (.ibxLoudReset p) s → let u := tick dt s; let loud := getF s (Reg.prbStatus p) 0 2 = 2
    (¬ loud → Completes (.ibxLoudReset dt h p) s (AnswersWith dt h (.ibxLoudReset p) 0x0702 [] s))
    ∧ (loud → TooLate tickMs h u → Completes (.ibxLoudReset dt h p) s (AnswersWith dt h (.ibxLoudReset p) 0x020B [] s))
    ∧ (loud → ¬ TooLate tickMs h u → Completes (.ibxLoudReset dt h p) s fun t => Scheduled dt tickMs h (fun f => [(8, f)]) s t
        ∧ t = { u with regs := t.regs, cmd := t.cmd, sched := t.sched, pair := t.pair } ∧ RegsBut ringRegs s t))

/-- COMP_LAYER_SET: each entry is checked, in order, for its head, layer, quadrant, table set and send (COMP_RANGE), its geometry (COMP_GEOMETRY) and its line buffers (LINEBUF_SHORT, which also sets the layer's flag); the first entry that fails gives the status and its index. COMP_INPUT_FORMAT is refused COMP_RANGE for a send that is no layer input and COMP_GEOMETRY for a format that R402 does not admit (its raster: log 28), never for a longer need of line buffers. COMP_SURFACE_LOAD is refused COMP_RANGE, COMP_GEOMETRY or, while a copy runs, COMP_BUSY; its rectangle waits as the upload area holds it, and its frame leaves room for the copy (log 27). COMP_TABLE_SET without COMMIT writes the shadow of the head and completes at once; with COMMIT the shadow is armed for its frame. COMP_QUERY answers the status of the head and its 21 layers. A frame too early is PLAN_LATE; what is accepted waits for its frame, and what is in force stays until then. -/
def Obligations.CompositionCommandsAreChecked : Prop :=
  let head? := fun (s : State) (n : Nat) => s.plan.cfg.heads.find? fun k => decide (k.head = n)
  let status := fun (s : State) (quad t : Nat) (e : LayerEntry) =>
    let on := decide (e.flags % 2 = 1) && decide (e.layer < 20)
    ([((head? s e.head).isNone, 0x0801), (decide (20 < e.layer) || decide (e.head / 24 ≠ quad), 0x0801), (decide (7 < e.tset) && decide (e.tset ≠ 255), 0x0801),
      (decide (e.layer < 16) && !layerSend s e.head e.send, 0x0801), (decide (16 ≤ e.layer) && decide (e.layer < 20) && decide (e.send ≠ 0xFFFF), 0x0801),
      (on && (head? s e.head).any fun c => !geometryOk c (sendRaster s e.send t) e, 0x0802),
      (on && decide (e.layer < 16) && (head? s e.head).any fun c => decide (c.lbAlloc[e.layer]?.getD 0 < lbNeed e), 0x0804)].find? fun x => x.1).map Prod.snd
  (∀ dt h cnt es s, Ready h (.compLayerSet cnt es) s → let b := Body.compLayerSet cnt es; let u := tick dt s; let c : Instr := .compLayerSet dt h cnt es
    let quad := (es.head?.map LayerEntry.head).getD 0 / 24
    let at_ := frameStart u (if h.applyAt ≠ 0 ∧ h.applyAt < rateFirst (houseRate u) (u.now + tickMs) then houseFrame u else applyFor tickMs h u)
    (∀ e post, (es.dropWhile fun x => (status u quad at_ x).isNone) = e :: post → Completes c s fun t =>
          Answered h b ((status u quad at_ e).getD 0) (es.length - post.length - 1) (houseFrame u) [] s t ∧ t = { u with regs := t.regs, cmd := t.cmd }
            ∧ (status u quad at_ e = some 0x0804 → (∀ k, k ∈ headsOf s e.head → getB t (Reg.compLayerStatus k e.layer) 6 = true) ∧ RegsBut (((headsOf s e.head).map fun k => Reg.compLayerStatus k e.layer) ++ ringRegs) s t)
            ∧ (status u quad at_ e ≠ some 0x0804 → RegsBut ringRegs s t))
    ∧ ((es.all fun e => (status u quad at_ e).isNone) = true → (TooLate tickMs h u → Completes c s (AnswersWith dt h b 0x020B [] s))
          ∧ (¬ TooLate tickMs h u → Completes c s fun t => Scheduled dt tickMs h (fun f => [(8, f)]) s t ∧ t = { u with regs := t.regs, cmd := t.cmd, sched := t.sched, pair := t.pair } ∧ RegsBut ringRegs s t)))
  ∧ (∀ dt h send id sc num den s, Ready h (.compInputFormat send id sc num den) s → let b := Body.compInputFormat send id sc num den; let u := tick dt s; let c : Instr := .compInputFormat dt h send id sc num den
    (sendCfg? s send = none → Completes c s (AnswersWith dt h b 0x0801 [] s))
    ∧ (∀ x, sendCfg? s send = some x → (inputFormat id sc num den x.fmt.vpid = none → Completes c s (AnswersWith dt h b 0x0802 [] s))
        ∧ (∀ f, inputFormat id sc num den x.fmt.vpid = some f → (TooLate tickMs h u → Completes c s (AnswersWith dt h b 0x020B [] s))
            ∧ (¬ TooLate tickMs h u → Completes c s fun t => Scheduled dt tickMs h (fun f => [(8, f)]) s t ∧ (send, f, frameStart u (applyFor tickMs h u)) ∈ t.comp.fmtNext
                ∧ t.comp.fmts = s.comp.fmts ∧ t.plan = s.plan ∧ t = { u with regs := t.regs, cmd := t.cmd, sched := t.sched, pair := t.pair, comp := { s.comp with fmtNext := t.comp.fmtNext } } ∧ RegsBut ringRegs s t))))
  ∧ (∀ dt h hd l fm x y w ht sr s, Ready h (.compSurfaceLoad hd l fm x y w ht sr) s → let b := Body.compSurfaceLoad hd l fm x y w ht sr; let u := tick dt s; let c : Instr := .compSurfaceLoad dt h hd l fm x y w ht sr
    let lead := copyTicks u (4 * w * ht) + tickMs
    (head? s hd = none → Completes c s (AnswersWith dt h b 0x0801 [] s))
    ∧ (∀ k, head? s hd = some k → let wrong := k.fmt.width < x + w ∨ k.fmt.height < y + ht ∨ (fm = 1 ∧ (x % 2 ≠ 0 ∨ w % 2 ≠ 0))
        (wrong → Completes c s (AnswersWith dt h b 0x0802 [] s)) ∧ (¬ wrong → s.mono + dt < s.comp.uploadEnd → Completes c s (AnswersWith dt h b 0x0803 [] s))
        ∧ (¬ wrong → s.comp.uploadEnd ≤ s.mono + dt → TooLate lead h u → Completes c s (AnswersWith dt h b 0x020B [] s))
        ∧ (¬ wrong → s.comp.uploadEnd ≤ s.mono + dt → ¬ TooLate lead h u → Completes c s fun t => Scheduled dt lead h (fun f => [(8, f)]) s t ∧ t.comp.uploadEnd = s.mono + dt + copyTicks u (4 * w * ht)
            ∧ t.comp.surfNext = s.comp.surfNext ++ [(21 * hd + l, applyFor lead h u, { fmt := fm, x := x, y := y, rows := uploadRows s.mem.upload w ht sr })]
            ∧ t = { u with regs := t.regs, cmd := t.cmd, sched := t.sched, pair := t.pair, comp := { s.comp with uploadEnd := t.comp.uploadEnd, surfNext := t.comp.surfNext } } ∧ RegsBut ringRegs s t)))
  ∧ (∀ dt h hd set tb fl es s, Ready h (.compTableSet hd set tb fl es) s → let b := Body.compTableSet hd set tb fl es; let u := tick dt s; let c : Instr := .compTableSet dt h hd set tb fl es
    let kept := fun (t : State) => t = { u with regs := t.regs, cmd := t.cmd, sched := t.sched, pair := t.pair, comp := { s.comp with heads := t.comp.heads } } ∧ ∀ k, k ∉ headsOf s hd → headTrack t k = headTrack s k
    (head? s hd = none → Completes c s (AnswersWith dt h b 0x0801 [] s))
    ∧ (∀ k, head? s hd = some k →
        (fl = 0 → Completes c s fun t => Answered h b 0 0 (houseFrame u) [(8, 0)] s t ∧ t.sched = s.sched ∧ kept t ∧ RegsBut ringRegs s t
          ∧ ∀ j, j ∈ headsOf s hd → headTrack t j = { headTrack s j with shadow := tabPut (6 * set + tb) es (headTrack s j).shadow })
        ∧ (fl = 1 → TooLate tickMs h u → Completes c s (AnswersWith dt h b 0x020B [] s))
        ∧ (fl = 1 → ¬ TooLate tickMs h u → let f := applyFor tickMs h u; Completes c s fun t => Waits h s t ∧ kept t ∧ RegsBut ((headsOf s hd).map Reg.compHeadStatus ++ ringRegs) s t
          ∧ (∃ x, t.sched = s.sched ++ [x] ∧ x.frame = f ∧ x.start = headStart k (frameStart u f) ∧ frameStart u f ≤ x.start ∧ x.result = [(8, f)])
          ∧ ∀ j, j ∈ headsOf s hd → getB t (Reg.compHeadStatus j) 5 = true
              ∧ headTrack t j = { headTrack s j with shadow := [], armed := (headTrack s j).armed ++ [(tabPut (6 * set + tb) es (headTrack s j).shadow, frameStart u f)] })))
  ∧ (∀ dt h hd s, Ready h (.compQuery hd) s →
      (head? s hd = none → Completes (.compQuery dt h hd) s (AnswersWith dt h (.compQuery hd) 0x0801 [] s))
      ∧ (head? s hd ≠ none → Completes (.compQuery dt h hd) s fun t => t = { tick dt s with regs := t.regs, cmd := t.cmd } ∧ RegsBut ringRegs s t
          ∧ ∃ r, t.cmd.waiting = s.cmd.waiting ++ [r] ∧ r.status = 0 ∧ r.resultLen = 88
            ∧ (h.flags % 2 = 0 → 88 ≤ h.resultLen → ∀ l, l < 21 → r.result[l + 1]? = some (4, (rd s (Reg.compLayerStatus hd l)).toNat))))

/-- LAYER_FRAME_COMPLETE of a source frame in which no word of its send was marked invalid since the frame before makes it the layer's newest; of any other it marks the frame bad; without a head it does nothing. HEAD_FRAME_BOUNDARY of a head that the mode lacks, or that is shed, does nothing. Otherwise, for each video layer: disabled; fill because its entry does not fit; fill because it has no source or no frame of its geometry; fill that stays until a new frame; repeat after a bad frame, fill at the ninth in a row; or live. A picture shown again counts a repeat, an entry into fill counts a fill, and NEED, ALLOC and the run of bad frames are shown. Graphic layers show whether they are enabled. A change that is due replaces the layer's entry, and one that is not waits. The colour entries of the head's layers come into force. A backdrop that is due is rebuilt and counted, and the one rebuilt during the last frame is shown. Only this head's layers and registers and its quadrant's rebuild count change. -/
def Obligations.HeadsJudgeTheirLayers : Prop :=
  ∀ dt s, powered s = true → ∀ h, h < 96 → let c? := s.plan.cfg.heads.find? fun c => decide (c.head = if modeNow s = 2 ∧ 48 ≤ h then h - 48 else h)
    let now := s.now + dt
    (∀ l, l < 16 → let q := layerTrack s h l; let ok := decide (tabGet 0 q.entry.send s.take.sendBad ≤ q.doneAt)
      (c? = none → Completes (.layerFrameComplete dt h l) s fun t => t = tick dt s)
      ∧ (c? ≠ none → Completes (.layerFrameComplete dt h l) s fun t => (layerTrack t h l = if ok = true then { q with newest := some (q.num, now), num := q.num + 1, bad := false, doneAt := now } else { q with bad := true, doneAt := now })
          ∧ (∀ g, g < 96 → ∀ k, k < 21 → g ≠ h ∨ k ≠ l → layerTrack t g k = layerTrack s g k) ∧ t = { tick dt s with comp := { s.comp with layers := t.comp.layers } }))
    ∧ (c? = none ∨ (headTrack s h).shed = true → Completes (.headFrameBoundary dt h) s fun t => t = tick dt s)
    ∧ (∀ c, c? = some c → (headTrack s h).shed = false → Completes (.headFrameBoundary dt h) s fun t =>
        t = { tick dt s with regs := t.regs, evq := t.evq, comp := { s.comp with layers := t.comp.layers, heads := t.comp.heads } }
        ∧ RegsBut (Reg.compHeadStatus h :: Reg.compHeadLb h :: Reg.compRebuilds (h / 24) :: (List.range 21).map (Reg.compLayerStatus h) ++ (List.range 21).map (Reg.compLayerCnt h)) s t
        ∧ (∀ k, k ≠ h → headTrack t k = headTrack s k) ∧ (headTrack t h).dirty = false ∧ (headTrack t h).drop = (headTrack s h).dropNext ∧ (headTrack t h).colour = (s.plan.tables.colour.drop (1152 + 21 * c.head)).take 21 ∧ getB t (Reg.compHeadStatus h) 3 = false
        ∧ (getB t (Reg.compHeadStatus h) 4 = true → (rd t (Reg.compRebuilds (h / 24))).toNat = min (2 ^ 32 - 1) ((rd s (Reg.compRebuilds (h / 24))).toNat + 1))
        ∧ ((headTrack s h).dirty = true → getB t (Reg.compHeadStatus h) 4 = true)
        ∧ (∀ l, l < 21 → ∀ x, (layerTrack s h l).steps = [x] → ∀ e, x.entry = some e →
            (if x.at_ < now ∨ (x.strict = false ∧ x.at_ = now) then (layerTrack t h l).entry = e ∧ (layerTrack t h l).steps = [] else (layerTrack t h l).entry = (layerTrack s h l).entry ∧ (layerTrack t h l).steps = [x]))
        ∧ (∀ l, l < 21 → (layerTrack s h l).steps = [] → (layerTrack t h l).entry = (layerTrack s h l).entry)
        ∧ (∀ l, 16 ≤ l → l < 20 → getF t (Reg.compLayerStatus h l) 0 2 = b2n (decide ((layerTrack t h l).entry.flags % 2 = 1 ∧ (layerTrack t h l).entry.layer < 20)))
        ∧ (getB s (Reg.compHeadStatus h) 3 = false → ∀ l, l < 16 → (layerTrack s h l).steps = [] →
            let q := layerTrack s h l; let a := Reg.compLayerStatus h l; let cnt := Reg.compLayerCnt h l
            let again := decide (q.newest.map Prod.fst = q.shown ∧ q.newest ≠ none)
            let run := getF s a 24 4 + 1
            let fits := geometryOk c (sendRaster (tick dt s) q.entry.send now) q.entry && decide (lbNeed q.entry ≤ c.lbAlloc[l]?.getD 0)
            let src := decide (getF s (Reg.takeRoute q.entry.send 0) 0 11 ≠ 0x7FF) && q.newest.any fun f => decide (q.since < f.2)
            let v : Nat × Nat := if entryOn q.entry = false then (0, 0) else if fits = false then (3, 2) else if src = false then (3, 3)
              else if getF s a 0 2 = 3 ∧ getF s a 2 2 = 1 ∧ again = true then (3, 1)
              else if q.bad = true then (if 9 ≤ run then (3, 1) else (2, 0)) else (1, 0)
            (q.entry.layer = l → getF t a 0 2 = v.1 ∧ getF t a 2 2 = v.2
              ∧ getF t a 24 4 = (if q.bad = true ∧ v.1 ≠ 0 then min 15 run else 0)
              ∧ getF t a 8 8 = lbNeed q.entry % 256 ∧ getF t a 16 8 = c.lbAlloc[l]?.getD 0 % 256 ∧ (layerTrack t h l).bad = false
              ∧ getF t cnt 16 16 = min 65535 (getF s cnt 16 16 + if v.1 = 3 ∧ getF s a 0 2 ≠ 3 then 1 else 0)
              ∧ getF t cnt 0 16 = min 65535 (getF s cnt 0 16 + if v.1 = 2 ∨ (v.1 = 1 ∧ again = true) then 1 else 0))))

/-! ## Audio (11_audio_plane.md) -/

/-- AUD_TAKE outside modes 1 to 4 is PLAN_NONE, with an entry whose channels the mode does not use AUD_RANGE with its index, and with too early a frame PLAN_LATE; none of its entries then takes effect. Accepted, every entry waits for the commit sample of its destination, TAKE_PEND reads 1 and no route changes. AUDIO_CHANNEL_COMMIT does nothing before a change is due; then the destination takes the new source and a fade from the old one starts on top of those that run. A command whose last entry commits completes OK with frame, first and last sample, and PLAN_CHANGED where a channel is used no more. CROSSFADE_END ends the fades whose 128 samples have passed. AUDIO_SLOT_VERIFY takes the slot that the source presents for the present plane sample, with the check code of source, sample and word; one whose code fits passes, and one that does not is zero and counted; during a fade the samples mix; two destinations of one source read one slot. AUD_ROUTE_QUERY answers source and flags of each destination. -/
def Obligations.AudioTakesCommitAtTheirSamples : Prop :=
  let bad := fun (s : State) (e : AudEntry) => !(audChanUsed s false e.dest && (decide (e.flags % 2 = 1) || audChanUsed s true e.source))
  let source := fun (e : AudEntry) => if e.flags % 2 = 1 then none else some e.source
  (∀ dt h cnt es s, Ready h (.audTake cnt es) s → let b := Body.audTake cnt es; let u := tick dt s; let c : Instr := .audTake dt h cnt es
    (modeNow s < 1 ∨ 4 < modeNow s → Completes c s (AnswersWith dt h b 0x020C [] s))
    ∧ (1 ≤ modeNow s → modeNow s ≤ 4 →
        (∀ e post, (es.dropWhile fun x => !bad u x) = e :: post → Completes c s fun t =>
            Answered h b 0x0901 (es.length - post.length - 1) (houseFrame u) [] s t ∧ t = { u with regs := t.regs, cmd := t.cmd } ∧ RegsBut ringRegs s t)
        ∧ (es.any (bad u) = false → TooLate tickMs h u → Completes c s (AnswersWith dt h b 0x020B [] s))
        ∧ (es.any (bad u) = false → ¬ TooLate tickMs h u → Completes c s fun t => Waits h s t ∧ getB t Reg.audPlaneStatus 3 = true ∧ t.aud.routes = s.aud.routes ∧ t.aud.fades = s.aud.fades
            ∧ (∃ j, t.aud.jobs = s.aud.jobs ++ [j] ∧ j.frame = applyFor tickMs h u ∧ j.first ≤ j.last ∧ j.changed = false ∧ j.cmd.pkt.hdr = h)
            ∧ (∀ e, es = [e] → modeNow s ≠ 2 → ∃ p, t.aud.pend = s.aud.pend ++ [p] ∧ p.dest = e.dest ∧ p.source = source e ∧ p.sample = audSample u e.dest (applyFor tickMs h u) ∧ p.at_ = p.sample * sampleTicks s)
            ∧ t = { u with regs := t.regs, cmd := t.cmd, pair := t.pair, take := { s.take with nextJob := t.take.nextJob }, aud := { s.aud with pend := t.aud.pend, jobs := t.aud.jobs } }
            ∧ RegsBut (Reg.audPlaneStatus :: ringRegs) s t)))
  ∧ (∀ dt s, powered s = true → ∀ d, d < 65536 → let now := s.now + dt; let fresh := fun (t : State) => t.plan = s.plan ∧ t.take = s.take ∧ t.port = s.port ∧ t.ref = s.ref
      ((s.aud.pend.all fun p => decide (p.dest ≠ d) || decide (now < p.at_)) = true → Completes (.audioChannelCommit dt d) s fun t => t = tick dt s)
      ∧ (∀ p, s.aud.pend = [p] → p.dest = d → p.at_ ≤ now →
          let ok := p.job.isNone || !bad (tick dt s) { dest := p.dest, source := p.source.getD 0, flags := b2n p.source.isNone, zeroOk := true }
          Completes (.audioChannelCommit dt d) s fun t => t.aud.pend = [] ∧ (∀ x, x < 65536 → x ≠ d → audRoute t x = audRoute s x ∧ audFades t x = audFades s x) ∧ fresh t
            ∧ (ok = true → audRoute t d = p.source ∧ (rd t Reg.audXfades).toNat = min (2 ^ 32 - 1) ((rd s Reg.audXfades).toNat + 1)
                ∧ audFades t d = { old := audRoute s d, start := p.sample } :: (audFades s d).filter fun x => decide (p.sample < x.start + 128))
            ∧ (ok = false → audRoute t d = audRoute s d ∧ audFades t d = audFades s d ∧ rd t Reg.audXfades = rd s Reg.audXfades)
            ∧ (p.job = none → t.cmd = s.cmd ∧ t.aud.jobs = s.aud.jobs)
            ∧ (∀ j, s.aud.jobs = [j] → p.job = some j.id → j.changed = false → j.cmd.origin = .host → t.aud.jobs = [] ∧ getB t Reg.audPlaneStatus 3 = false
                ∧ ∃ r, t.cmd.waiting = s.cmd.waiting ++ [r] ∧ r.tag = j.cmd.pkt.hdr.tag ∧ r.frame = j.frame ∧ r.status = (if ok = true then 0 else 0x020F)
                  ∧ (ok = true → r.resultLen = 24 ∧ (r.inline = true → r.result = [(8, j.frame), (8, j.first), (8, j.last)])))))
  ∧ (∀ dt s, powered s = true → ∀ d, d < 65536 → let now := (s.now + dt) / sampleTicks s
      Completes (.crossfadeEnd dt d) s fun t => t = { tick dt s with aud := { s.aud with fades := t.aud.fades } }
        ∧ audFades t d = ((audFades s d).filter fun x => decide (now < x.start + 128)) ∧ ∀ x, x < 65536 → x ≠ d → audFades t x = audFades s x)
  ∧ (∀ dt s, powered s = true → ∀ d, d < 65536 → ∀ flips : List (BitVec 40), let u := tick dt s; let k := (s.now + dt) / sampleTicks s
      let out := fun (t : State) => tabGet 0 d t.aud.out
      let word := fun (n : Nat) => let x := tabGet audSrc0 n s.aud.srcs
        if 36864 ≤ n ∧ n < 37120 then audPortSlot u n k else if x.at_ = k + 1 then x.slot else (tabFind k x.timed).getD (x.queue.headD 0)
      let kept := fun (t : State) => t.aud = { s.aud with out := t.aud.out, past := t.aud.past, srcs := t.aud.srcs, chkEpoch := t.aud.chkEpoch } ∧ t.cmd = s.cmd ∧ t.plan = s.plan
        ∧ (∀ x, x < 65536 → x ≠ d → tabGet 0 x t.aud.out = tabGet 0 x s.aud.out) ∧ (∀ x, audRoute s d ≠ some x → (∀ f, f ∈ audFades s d → f.old ≠ some x) → tabFind x t.aud.srcs = tabFind x s.aud.srcs)
      let quiet := fun (t : State) => t = { u with aud := t.aud }
      let code := fun (n : Nat) (w : Word) => crc8 0xFF (bitsMsb n 16 ++ bitsMsb (k % 16) 4 ++ bitsMsb w.toNat 32)
      (audFades s d = [] →
        (audRoute s d = none → Completes (.audioSlotVerify dt d flips) s fun t => out t = 0 ∧ kept t ∧ quiet t)
        ∧ (∀ n, audRoute s d = some n → let x := flips.headD 0; let w := word n ^^^ x.setWidth 32
            (code n w = code n (word n) ^^^ x.toNat / 2 ^ 32 → Completes (.audioSlotVerify dt d flips) s fun t => out t = w ∧ kept t ∧ quiet t
                ∧ (n < 36864 → (tabGet audSrc0 n t.aud.srcs).slot = word n ∧ (tabGet audSrc0 n t.aud.srcs).at_ = k + 1
                  ∧ (tabGet audSrc0 n t.aud.srcs).queue = if (tabGet audSrc0 n s.aud.srcs).at_ = k + 1 then (tabGet audSrc0 n s.aud.srcs).queue else (tabGet audSrc0 n s.aud.srcs).queue.tail))
            ∧ (code n w ≠ code n (word n) ^^^ x.toNat / 2 ^ 32 → Completes (.audioSlotVerify dt d flips) s fun t => out t = 0 ∧ kept t ∧ getB t Reg.audPlaneStatus 2 = true
                ∧ (rd t Reg.audChkTotal).toNat = min (2 ^ 32 - 1) ((rd s Reg.audChkTotal).toNat + 1) ∧ (rd t Reg.audChkLast).toNat = d + n % 65536 * 65536)))
      ∧ (∀ f, audFades s d = [f] → ∀ n, audRoute s d = some n → ∀ m, f.old = some m → f.start ≤ k →
          Completes (.audioSlotVerify dt d []) s fun t => kept t ∧ quiet t ∧ (out t).toNat % 256 = (word n).toNat % 256
            ∧ let j := min (k - f.start) 127; let sample := fun (x : Word) => (x.sshiftRight 8).toInt
              sample (out t) = (sample (word m) * (127 - (j : Int)) + sample (word n) * ((j : Int) + 1) + 64) / 128))
  ∧ (∀ dt h first cnt s, Ready h (.audRouteQuery first cnt) s → let b := Body.audRouteQuery first cnt
      Completes (.audRouteQuery dt h first cnt) s (AnswersWith dt h b 0 ((List.range cnt).flatMap fun k => let d := first + k
          [(2, (audRoute s d).getD 0xFFFF), (2, b2n (audRoute s d).isNone + 2 * b2n (s.aud.pend.any fun x => decide (x.dest = d)) + 4 * b2n (!(audFades s d).isEmpty))]) s))

/-- AUD_PORT_CONFIG_WRITE changes the settings only while both directions are disabled and only to what R440 and R441 allow; otherwise REFUSED is set and they stay. The enables take effect: a disabled direction is OFF, an enabled one NO_CLOCK, or, for a transmitter on the timebase, RUNNING (log 25), but OFF in SERVICE. COMMIT, or AUD_PORT_COMMIT, arms both masks, and AUD_MASK_COMMIT, a frame boundary of a direction, copies an armed one whole; an enabled receiver then takes the frame's channels, zero where the mask bit or an AES10 channel-active bit is clear, and an enabled transmitter sends zero, or high impedance, on channels off. AUDIO_CLOCK_FOUND takes a direction that needs a clock from NO_CLOCK to ACQUIRING, SRC_ACQUIRE_DONE after 50 ms to RAMPING, SRC_RAMP_DONE 127 samples later to RUNNING, AUDIO_NO_CLOCK back. SRC_RATIO_WINDOW applies the ratio, unless the partner's is in force, and sets RATE_ERR above 1,000 ppm. SRC_XRUN counts. AUD_PORT_SET that breaks R440 or R441 is AUD_CONFIG, too early PLAN_LATE, and otherwise waits; AUD_PORT_QUERY answers. No port changes another one. -/
def Obligations.AudioPortsFollowTheirClocks : Prop :=
  let lo := fun (d : AudDir) => match d with
    | .rx => 0
    | .tx => 3
  let evs := fun (as : List Nat) (dt : Nat) (s t : State) (p : Nat) => t = { tick dt s with regs := t.regs, evq := t.evq, aud := { s.aud with ports := t.aud.ports } } ∧ RegsBut as s t ∧ ∀ x, x < 4 → x ≠ p → audPort t x = audPort s x
  let broken := fun (v : Nat) => decide (v / 4 % 2 = 0) && decide (v / 512 % 2 = 1) && decide (v / 16 % 4 = 3)
  (∀ dt s, powered s = true → ∀ p, p < 4 → let c := Reg.audPortCtrl p; let st := Reg.audPortStatus p
    (∀ v : Word, let differs := decide (getF s c 2 10 ≠ v.toNat / 4 % 1024); let free := decide (getF s c 0 2 = 0) && !broken v.toNat; let x := fun b => decide (v.toNat / 2 ^ b % 2 = 1)
      Completes (.audPortConfigWrite dt p v) s fun t => evs [c, st] dt s t p ∧ getF t c 0 2 = v.toNat % 4 ∧ getF t c 12 20 = getF s c 12 20
        ∧ (if differs = true ∧ free = false then getF t c 2 10 = getF s c 2 10 ∧ getB t st 12 = true else getF t c 2 10 = v.toNat / 4 % 1024 ∧ getB t st 12 = getB s st 12)
        ∧ getF t st 6 2 = (if x 16 = true then 3 else getF s st 6 2)
        ∧ getF t st 0 3 = (if getB s c 0 = x 0 then getF s st 0 3 else if x 0 = true ∧ modeNow s ≠ 5 then 1 else 0)
        ∧ getF t st 3 3 = (if getB s c 1 = x 1 then getF s st 3 3 else if x 1 = true ∧ modeNow s ≠ 5 then (if getB t c 3 = true then 1 else 4) else 0))
    ∧ (Completes (.audPortCommit dt p) s fun t => RegsOnly [st] dt s t ∧ rd t st = rd s st ||| 0xC0)
    ∧ (∀ d : AudDir, let l := lo d; let now := getF s st l 3; let t0 := s.mono + dt; let since := match d with
          | .rx => (audPort s p).rxSince
          | .tx => (audPort s p).txSince
        let clocked := d = .rx ∨ getB s c 3 = true
        (now = 1 → clocked → Completes (.audioClockFound dt p d) s fun t => evs [st] dt s t p ∧ getF t st l 3 = 2 ∧ getF t st (3 - l) 3 = getF s st (3 - l) 3 ∧ (d = .tx → getB t st 11 = true)
            ∧ audPort t p = match d with
              | .rx => { audPort s p with rxSince := t0 }
              | .tx => { audPort s p with txSince := t0 })
        ∧ (now ≠ 1 ∨ ¬ clocked → Completes (.audioClockFound dt p d) s fun t => t = tick dt s)
        ∧ (now = 2 → since + 50 * tickMs ≤ t0 → Completes (.srcAcquireDone dt p d) s fun t => evs [st] dt s t p ∧ getF t st l 3 = 3 ∧ getF t st (3 - l) 3 = getF s st (3 - l) 3
            ∧ audPort t p = match d with
              | .rx => { audPort s p with rxSince := t0 }
              | .tx => { audPort s p with txSince := t0 })
        ∧ (now ≠ 2 ∨ t0 < since + 50 * tickMs → Completes (.srcAcquireDone dt p d) s fun t => t = tick dt s)
        ∧ (now = 3 → since + 127 * sampleTicks s ≤ t0 → Completes (.srcRampDone dt p d) s fun t => RegsEvents [st] dt s t ∧ getF t st l 3 = 4 ∧ getF t st (3 - l) 3 = getF s st (3 - l) 3)
        ∧ (now ≠ 3 ∨ t0 < since + 127 * sampleTicks s → Completes (.srcRampDone dt p d) s fun t => t = tick dt s)
        ∧ (clocked → Completes (.audioNoClock dt p d) s fun t => RegsEvents [st] dt s t ∧ getF t st l 3 = (if 2 ≤ now then 1 else now) ∧ getF t st (3 - l) 3 = getF s st (3 - l) 3 ∧ (d = .tx → getB t st 11 = false))
        ∧ (¬ clocked → Completes (.audioNoClock dt p d) s fun t => t = tick dt s)
        ∧ (∀ k : Nat, let a := match d with
              | .rx => Reg.audRxXrun p
              | .tx => Reg.audTxXrun p
            let b := match d with
              | .rx => 8
              | .tx => 9
            Completes (.srcXrun dt p d k) s fun t => evs [st, a] dt s t p ∧ audPort t p = (match d with
              | .rx => { audPort s p with rxZero := (s.now + dt) / sampleTicks s + k }
              | .tx => { audPort s p with txZero := (s.now + dt) / sampleTicks s + k }) ∧ (rd t a).toNat = min (2 ^ 32 - 1) ((rd s a).toNat + k) ∧ getB t st b = true ∧ rd t st = setBit (rd s st) b true)
        ∧ (∀ (ratio : Nat) (ppm : Int), let a := match d with
              | .rx => Reg.audRxRatio p
              | .tx => Reg.audTxRatio p
            let err := decide (1000 < ppm) || decide (ppm < -1000)
            let other := match d with
              | .rx => (audPort s p).txErr
              | .tx => (audPort s p).rxErr
            (now < 2 → Completes (.srcRatioWindow dt p d ratio ppm) s fun t => t = tick dt s)
            ∧ (2 ≤ now → Completes (.srcRatioWindow dt p d ratio ppm) s fun t => evs [st, a] dt s t p ∧ t.evq = s.evq ∧ getB t st 10 = (err || other) ∧ rd t st = setBit (rd s st) 10 (err || other)
                ∧ rd t a = if d = .rx ∧ getB s st 13 = true then rd s a else BitVec.ofNat 32 ratio))
        ∧ (∀ frame : List (BitVec 32), let m := match d with
              | .rx => (Reg.audRxMaskLo p, Reg.audRxActLo p, 6)
              | .tx => (Reg.audTxMaskLo p, Reg.audTxActLo p, 7)
            let mask := if getB s st m.2.2 = true then get64 s m.1 else get64 s m.2.1
            let n := audChannels (rd s c).toNat
            Completes (.audMaskCommit dt p d frame) s fun t => evs [st, m.2.1, m.2.1 + 4] dt s t p ∧ t.evq = s.evq ∧ get64 t m.2.1 = mask ∧ getB t st m.2.2 = false
              ∧ (now = 0 → audPort t p = audPort s p ∧ rd t st = setBit (rd s st) m.2.2 false)
              ∧ (now ≠ 0 → d = .rx → (audPort t p).sent = (audPort s p).sent ∧ ∃ slots, (audPort t p).rx.head? = some slots ∧ slots.length = min n frame.length
                  ∧ (∀ i w, i < n → nth? frame i = some w → nth? slots i = some (if mask / 2 ^ i % 2 = 0 then 0 else if getB s c 2 = false then BitVec.ofNat 32 (w.toNat / 256 % 2 ^ 24 * 256)
                      else if w.toNat / 2 % 2 = 0 then 0 else audReceived true true w))
                  ∧ (getB s c 2 = true → getF t st 16 7 = ((frame.take n).countP fun w => decide (w.toNat / 2 % 2 = 1)) % 128))
              ∧ (now ≠ 0 → d = .tx → (audPort t p).rx = (audPort s p).rx ∧ (audPort t p).sent.length = n
                  ∧ (getB s c 2 = false → ∀ i, i < n → mask / 2 ^ i % 2 = 0 → nth? (audPort t p).sent i = some (if getB s c 11 = true then none else some 0))))))
  ∧ (∀ dt h p dir ctrl rm tm s, Ready h (.audPortSet p dir ctrl rm tm) s → let b := Body.audPortSet p dir ctrl rm tm; let u := tick dt s; let c : Instr := .audPortSet dt h p dir ctrl rm tm
      (broken ctrl = true → Completes c s (AnswersWith dt h b 0x0902 [] s)) ∧ (broken ctrl = false → TooLate tickMs h u → Completes c s (AnswersWith dt h b 0x020B [] s))
      ∧ (broken ctrl = false → ¬ TooLate tickMs h u → Completes c s fun t => Scheduled dt tickMs h (fun f => [(8, f)]) s t
          ∧ t = { u with regs := t.regs, cmd := t.cmd, sched := t.sched, pair := t.pair } ∧ RegsBut ringRegs s t))
  ∧ (∀ dt h p s, Ready h (.audPortQuery p) s → Completes (.audPortQuery dt h p) s (AnswersWith dt h (.audPortQuery p) 0
      [(4, (rd s (Reg.audPortStatus p)).toNat), (4, (rd s (Reg.audRxRatio p)).toNat), (4, (rd s (Reg.audTxRatio p)).toNat), (8, get64 s (Reg.audRxActLo p)), (8, get64 s (Reg.audTxActLo p))] s))

/-! ## Reference selection (12_reference_selection.md) -/

/-- REF_CANDIDATE_PRESENT, while the firmware runs, starts the hold-off of an absent candidate; LOST makes it absent, sets LOSS_SEEN and ends its hold-off; HOLDOFF_EXPIRY qualifies it; REF_JUMP of a qualified or held-off one starts its hold-off and sets JUMP_SEEN; DRIFT_EVALUATION shows each present candidate's averages and counts its evaluations outside DRIFT, which restart a hold-off, disqualify after DRIFT_TIME, and end a disqualification when one lies inside. Afterwards the timebase has selected none where none is usable or XO is absent; else the forced one if usable; else the highest QL, then the lowest PRIO, or the one it had where REVERTIVE is 0 and no usable QL is higher. A new selection counts, sets SWITCH_SEEN, starts the loop at ACQ_BW and takes O = Δ without moving the time: LOCKED, or WAITING beyond REALIGN with ABOVE_WAIT or from 0.5 s; the first one in mode 0 moves the time by Δ. A selection lost with none usable enters HOLDOVER with the mean rate, or FREERUN below ten samples. -/
def Obligations.CandidatesQualifyAndAreSelected : Prop :=
  let usable := fun (s : State) (k : Nat) => decide (k < 7) && decide (candState s k = 3) && decide (1 ≤ qlUse s k) && (decide (k ≠ 6) || mirrorUsable s)
  let best := fun (t : State) (k : Nat) => (List.range 7).all fun j => !usable t j || decide (qlUse t j < qlUse t k) || (decide (qlUse t j = qlUse t k) && decide ((refEntry t (k + 1)).holdoff ≤ (refEntry t (j + 1)).holdoff))
  let stay := fun (s t : State) (k : Nat) => usable t k && decide (s.ref.sel = some k) && decide ((refEntry t 0).flags % 2 = 0) && (List.range 7).all fun j => !usable t j || decide (qlUse t j ≤ qlUse t k)
  let settled := fun (s t : State) => if t.pins.xoOk = false ∨ (List.range 7).all (fun j => !usable t j) = true then t.ref.sel = none
    else ∃ k, t.ref.sel = some k ∧ usable t k = true ∧ (if t.ref.force.any (usable t) = true then t.ref.force = some k
      else if (List.range 7).any (stay s t) = true then stay s t k = true else best t k = true)
  let sat := fun (v : Int) => max (-2147483648) (min 2147483647 v)
  let moved := fun (s u t : State) (ph : List Int) => let g := refEntry s 0
    (t.ref.sel = s.ref.sel → t.now = u.now ∧ refState t = refState s ∧ t.ref.ofs = s.ref.ofs ∧ rd t Reg.refSwitches = rd s Reg.refSwitches)
    ∧ (s.ref.sel ≠ none → t.ref.sel = none → t.now = u.now ∧ getB t Reg.refStatus 2 = false ∧ refState t = (if t.ref.freqs.length < 10 then 0 else 2)
        ∧ (10 ≤ t.ref.freqs.length → (rd t Reg.refHoFreq).toInt = sat (meanOf (t.ref.freqs.take 100))))
    ∧ ∀ k, t.ref.sel = some k → s.ref.sel ≠ some k → (rd t Reg.refSwitches).toNat = min (2 ^ 32 - 1) ((rd s Reg.refSwitches).toNat + 1) ∧ getB t Reg.refStatus 16 = true
        ∧ getF t Reg.refStatus 12 2 = 0 ∧ getF t Reg.refStatus 4 3 = k ∧ (rd t Reg.refBw).toNat = (refEntry s (k + 1)).slew % 2 ^ 28
        ∧ let ns := (ph[k]?).getD 0; let d := refDelta u k ns; let p : Int := max 1 (refPeriod u (refEntry s (k + 1)).driftTime)
          (2 ≤ k → d = ns * ofsNs) ∧ (k < 2 → -p < 2 * d ∧ 2 * d ≤ p ∧ (ns * ofsNs - d) % p = 0)
          ∧ (if modeNow s = 0 ∧ s.ref.everSel = false then refState t = 1 ∧ t.now = ((u.now : Int) + d / 10000000000).toNat ∧ getB t Reg.refStatus 2 = false
             else t.now = u.now ∧ t.ref.ofs = d ∧ getB t Reg.refStatus 2 = decide (d ≠ 0)
               ∧ refState t = (if (d.natAbs : Int) ≤ g.realign * ofsNs ∨ (g.flags / 2 % 2 = 0 ∧ (d.natAbs : Int) < 500000000 * ofsNs) then 1 else 3))
  ∀ dt s, powered s = true → let u := tick dt s
    let kept := fun (t : State) => t = { u with now := t.now, regs := t.regs, evq := t.evq, ref := t.ref } ∧ t.ref.conf = s.ref.conf ∧ t.ref.force = s.ref.force
      ∧ RegsBut ([Reg.refStatus, Reg.refBw, Reg.refSwitches, Reg.refHoFreq, Reg.tmbStatus] ++ (List.range 8).flatMap fun k => [Reg.refCandStatus k, Reg.refCandTimer k, Reg.refCandOfs k, Reg.refCandXo k]) s t
    let secs := if s.ref.leftFree = true then (refEntry s 0).holdoff else 1
    (∀ ph : List Int, (∀ k, k < 7 → let a := Reg.refCandStatus k; let st := candState s k; let here := decide (k ∈ s.ref.present)
        (here = true ∨ (k = 6 ∧ (mirrorUsable s && getB s Reg.pairStatus 4) = false) → Completes (.refCandidatePresent dt k) s fun t => t = u)
        ∧ (here = false → k ≠ 6 ∨ (mirrorUsable s && getB s Reg.pairStatus 4) = true → Completes (.refCandidatePresent dt k) s fun t => kept t ∧ k ∈ t.ref.present ∧ t.ref.sel = s.ref.sel ∧ t.now = u.now
            ∧ (server s = 1 → st = 1 → candState t k = 2 ∧ tabFind k t.ref.holdEnd = some (s.mono + dt + secs * tickSec)) ∧ (server s ≠ 1 ∨ st ≠ 1 → candState t k = st))
        ∧ (here = false ∨ ((k = 2 ∨ k = 3) ∧ server s ≠ 1) → Completes (.refCandidateLost dt k ph) s fun t => t = u)
        ∧ (here = true → (k ≠ 2 ∧ k ≠ 3) ∨ server s = 1 → Completes (.refCandidateLost dt k ph) s fun t => kept t ∧ k ∉ t.ref.present ∧ candState t k = (if st = 0 then 0 else 1)
            ∧ getB t a 16 = true ∧ tabFind k t.ref.holdEnd = none ∧ settled s t ∧ moved s u t ph)
        ∧ (∀ e, tabFind k s.ref.holdEnd = some e → st = 2 → e ≤ s.mono + dt → server s = 1 → Completes (.holdoffExpiry dt k ph) s fun t => kept t ∧ candState t k = 3 ∧ settled s t ∧ moved s u t ph)
        ∧ (tabFind k s.ref.holdEnd = none ∨ st ≠ 2 ∨ server s ≠ 1 → Completes (.holdoffExpiry dt k ph) s fun t => t = u)
        ∧ (let quiet := here = false ∨ (st ≠ 2 ∧ st ≠ 3) ∨ (server s ≠ 1 ∧ s.ref.sel ≠ some k)
           (quiet → Completes (.refJump dt k ph) s fun t => t = u)
           ∧ (¬ quiet → Completes (.refJump dt k ph) s fun t => kept t ∧ candState t k = 2 ∧ getB t a 18 = true ∧ (s.ref.sel = some k → getB t a 16 = true)
                ∧ tabFind k t.ref.holdEnd = some (s.mono + dt + secs * tickSec) ∧ settled s t ∧ moved s u t ph)))
      ∧ (server s ≠ 1 → Completes (.driftEvaluation dt ph ph 0 ph) s fun t => t = u)
      ∧ (∀ (ofs xo : List Int) (freq : Int), server s = 1 → Completes (.driftEvaluation dt ofs xo freq ph) s fun t => kept t ∧ settled s t ∧ moved s u t ph
          ∧ ∀ k, k < 7 → let st := candState s k
            (k ∉ s.ref.present → candState t k = st ∧ rd t (Reg.refCandOfs k) = rd s (Reg.refCandOfs k))
            ∧ (k ∈ s.ref.present → let own := s.ref.sel = some k ∨ refState s = 2 ∨ refState s = 0; let v := fun (l : List Int) => (l[k]?).getD 0
                let out := decide ((refEntry s 0).drift * 10000 < (if own then v xo else v ofs).natAbs); let n := if out = true then min 65535 (getF s (Reg.refCandTimer k) 16 16 + 1) else 0
                (rd t (Reg.refCandOfs k)).toInt = sat (v ofs) ∧ (rd t (Reg.refCandXo k)).toInt = sat (v xo) ∧ getF t (Reg.refCandTimer k) 16 16 = n
                ∧ candState t k = (if st = 3 ∧ (refEntry s 0).driftTime ≤ n then 4 else if st = 4 ∧ out = false then 2 else st)
                ∧ (st = 3 → (refEntry s 0).driftTime ≤ n → getB t (Reg.refCandStatus k) 17 = true)
                ∧ (st = 2 → out = true → tabFind k t.ref.holdEnd = some (s.mono + dt + secs * tickSec)))))

/-- REF_SET that would leave a configuration against R498 is refused REF_INVALID; otherwise its entry is in force and saved, and no other entry changes. REF_FORCE sets or releases the force and shows it, and a usable forced candidate is selected while XO is there. REF_QUERY answers 28 registers. REF_SNAP outside WAITING is REF_NO_SNAP, with a frame under 10 ms ahead PLAN_LATE; otherwise it waits with its result. REF_SNAP_STEP in WAITING steps the time by O, takes back what synchronisers had selected, enters LOCKED with O = 0, sets SNAP_DONE and completes the command; where WAITING has ended it completes with REF_NO_SNAP and the time stays. LOOP_BW_STEP shows the phase error; beyond 500 ns a narrowed loop returns to ACQ_BW, within its window for 4/B seconds it halves, down to TRK_BW. SLEW_COMPLETE clears SLEWING once O is zero. HOLDOVER_LIMIT_EXPIRY shows the output QL: in HOLDOVER the lower of the last QL and HO_QL, after HO_LIMIT XO_QL. -/
def Obligations.ReferenceCommandsSnapsAndLoop : Prop :=
  let blocks := fun (s t : State) => t.plan = s.plan ∧ t.port = s.port ∧ t.mem = s.mem ∧ t.trk = s.trk ∧ t.flow = s.flow ∧ t.ibx = s.ibx ∧ t.comp = s.comp ∧ t.aud = s.aud ∧ t.plls = s.plls ∧ t.mods = s.mods ∧ t.therm = s.therm ∧ t.svc = s.svc ∧ t.otp = s.otp ∧ t.take = s.take
  (∀ dt h n e s, Ready h (.refSet n e) s → let b := Body.refSet n e
    let ok := refConfOk (getF s Reg.planHouseRate 16 16) (refTrunks (trunkEntries s.plan.committed s.plan.cfg.mode)) s.plan.cfg (tabSet (refDefault n) n e s.ref.conf)
    (ok = false → Completes (.refSet dt h n e) s (AnswersWith dt h b 0x0402 [] s))
    ∧ (ok = true → Completes (.refSet dt h n e) s fun t => (∃ r, t.cmd.waiting = s.cmd.waiting ++ [r] ∧ r.tag = h.tag ∧ r.status = 0 ∧ r.resultLen = 0) ∧ blocks s t
        ∧ refEntry t n = e ∧ (∀ m, m < 9 → m ≠ n → refEntry t m = refEntry s m) ∧ t.fw.settings.refs = some t.ref.conf ∧ t.ref.force = s.ref.force))
  ∧ (∀ dt h k s, Ready h (.refForce k) s → Completes (.refForce dt h k) s fun t => (∃ r, t.cmd.waiting = s.cmd.waiting ++ [r] ∧ r.tag = h.tag ∧ r.status = 0 ∧ r.resultLen = 0) ∧ blocks s t ∧ t.fw = s.fw
      ∧ t.ref.force = (if k = 0xFF then none else some k) ∧ getB t Reg.refStatus 3 = decide (k ≠ 0xFF) ∧ t.ref.conf = s.ref.conf
      ∧ (s.pins.xoOk = true → candUsable s k = true → t.ref.sel = some k) ∧ (∀ j, j < 7 → candState t j = candState s j))
  ∧ (∀ dt h s, Ready h .refQuery s → Completes (.refQuery dt h) s fun t => t = { tick dt s with regs := t.regs, cmd := t.cmd } ∧ RegsBut ringRegs s t
      ∧ ∃ r, t.cmd.waiting = s.cmd.waiting ++ [r] ∧ r.status = 0 ∧ r.resultLen = 112 ∧ (h.flags % 2 = 0 → 112 ≤ h.resultLen →
          r.result[0]? = some (4, (rd s Reg.refStatus).toNat) ∧ ∀ k, k < 8 → r.result[4 + 3 * k]? = some (4, (rd s (Reg.refCandStatus k)).toNat) ∧ r.result[5 + 3 * k]? = some (4, (rd s (Reg.refCandOfs k)).toNat)
            ∧ r.result[6 + 3 * k]? = some (4, (rd s (Reg.refCandXo k)).toNat)))
  ∧ (∀ dt h s, Ready h .refSnap s → let u := tick dt s
      (refState s ≠ 3 → Completes (.refSnap dt h) s (AnswersWith dt h .refSnap 0x0403 [] s))
      ∧ (refState s = 3 → TooLate (10 * tickMs) h u → Completes (.refSnap dt h) s (AnswersWith dt h .refSnap 0x020B [] s))
      ∧ (refState s = 3 → ¬ TooLate (10 * tickMs) h u → Completes (.refSnap dt h) s fun t => Scheduled dt (10 * tickMs) h (fun f => [(8, f), (8, ((s.ref.ofs.tdiv ofsNs) % 2 ^ 64).toNat)]) s t
          ∧ t = { u with regs := t.regs, cmd := t.cmd, sched := t.sched, pair := t.pair } ∧ RegsBut ringRegs s t))
  ∧ (∀ dt s, powered s = true → let u := tick dt s
      (s.sched = [] → Completes (.refSnapStep dt) s fun t => t = u)
      ∧ (∀ x, s.sched = [x] → x.cmd.pkt.body = .refSnap → x.cmd.origin = .host → server s = 1 →
          (u.now < x.start → Completes (.refSnapStep dt) s fun t => t = u)
          ∧ (x.start ≤ u.now → refState s = 3 → Completes (.refSnapStep dt) s fun t => t.now = ((u.now : Int) + s.ref.ofs / 10000000000).toNat ∧ refState t = 1 ∧ getB t Reg.refStatus 2 = false ∧ getB t Reg.refStatus 17 = true
              ∧ t.ref.sel = s.ref.sel ∧ t.sched = [] ∧ t.take.pend.length = s.take.pend.length ∧ t.plan.cfg = s.plan.cfg ∧ t.mem = { s.mem with fs := t.mem.fs }
              ∧ (∀ n, fsTrack t n = { fsTrack s n with sel := none, selNext := none }) ∧ (∀ p, s.plan.pending = some p → t.plan.pending = some { p with start := max p.start t.now })
              ∧ ∃ r, t.cmd.waiting = s.cmd.waiting ++ [r] ∧ r.tag = x.cmd.pkt.hdr.tag ∧ r.status = 0 ∧ r.frame = x.frame)
          ∧ (x.start ≤ u.now → refState s ≠ 3 → Completes (.refSnapStep dt) s fun t => t.now = u.now ∧ t.ref = s.ref ∧ t.sched = [] ∧ t.take = s.take ∧ ∃ r, t.cmd.waiting = s.cmd.waiting ++ [r] ∧ r.tag = x.cmd.pkt.hdr.tag ∧ r.status = 0x0403)))
  ∧ (∀ dt s, powered s = true → let u := tick dt s; let loop := getF s Reg.refStatus 12 2
      (s.ref.sel = none → ∀ e : Int, Completes (.loopBwStep dt e) s fun t => t = u)
      ∧ (∀ k, s.ref.sel = some k → ∀ e : Int, let c := refEntry s (k + 1); let n := s.ref.bw.2; let held := decide (s.ref.bwAt + bwHold s ≤ s.mono + dt)
          Completes (.loopBwStep dt e) s fun t => (rd t Reg.refPhaseErr).toInt = max (-2147483648) (min 2147483647 e)
            ∧ t = { u with regs := t.regs, ref := { s.ref with bw := t.ref.bw, bwAt := t.ref.bwAt } } ∧ RegsBut [Reg.refPhaseErr, Reg.refStatus, Reg.refBw] s t
            ∧ (if 500 < e.natAbs ∧ loop ≠ 0 then getF t Reg.refStatus 12 2 = 0 ∧ (rd t Reg.refBw).toNat = c.slew % 2 ^ 28 ∧ t.ref.bw = (c.slew, 0)
               else if 50 < e.natAbs ∧ loop = 0 then getF t Reg.refStatus 12 2 = 0 ∧ t.ref.bw = s.ref.bw ∧ t.ref.bwAt = s.mono + dt
               else if held = true ∧ loop ≠ 2 then t.ref.bw = (s.ref.bw.1, n + 1) ∧ t.ref.bwAt = s.mono + dt
                 ∧ (if s.ref.bw.1 < c.realign * 2 ^ (n + 1) then getF t Reg.refStatus 12 2 = 2 ∧ (rd t Reg.refBw).toNat = c.realign % 2 ^ 28
                    else getF t Reg.refStatus 12 2 = 1 ∧ (rd t Reg.refBw).toNat = s.ref.bw.1 / 2 ^ (n + 1) % 2 ^ 28)
               else getF t Reg.refStatus 12 2 = loop ∧ t.ref.bw = s.ref.bw)))
  ∧ (∀ dt s, powered s = true → let u := tick dt s; let left : Int := (s.ref.ofs.natAbs : Int) - ((s.mono + dt - s.ref.ofsAt) * (refEntry s 0).slew : Nat)
      (refState s = 1 → left ≤ 0 → Completes (.slewComplete dt) s fun t => getB t Reg.refStatus 2 = false ∧ t.ref.ofs = 0 ∧ t = { u with regs := t.regs, ref := { s.ref with ofs := 0, ofsAt := t.ref.ofsAt } } ∧ RegsBut [Reg.refStatus] s t)
      ∧ (refState s ≠ 1 ∨ 0 < left → Completes (.slewComplete dt) s fun t => t = u)
      ∧ Completes (.holdoverLimitExpiry dt) s fun t => t = { u with regs := t.regs } ∧ RegsBut (Reg.refStatus :: (List.range 8).map Reg.refCandStatus) s t
          ∧ (refState s = 2 → getF t Reg.refStatus 8 4 = (if s.ref.hoAt + (refEntry s 0).hoLimit * tickSec ≤ s.mono + dt then (refEntry s 0).xoQl else min s.ref.lastQl (refEntry s 0).hoQl) % 16)
          ∧ (refState s = 0 → getF t Reg.refStatus 8 4 = (refEntry s 0).xoQl % 16))

/-! ## Timebase and PTP (14_timebase_and_ptp.md) -/

/-- TIME_SET with a plan in force, or with a full-time candidate selected, is refused TIME_STATE. Otherwise the time is the one given; with REF_A or REF_B selected it is moved by at most half a period of the reference, so that the frame phase is kept. TIME_SET reads 1, O is zero, and the reply holds the time in seconds, nanoseconds and fraction. TIME_CONF waits for its frame and is PLAN_LATE when that is too early. TIME_QUERY answers the time and ten registers. CAP_SET writes EDGE and CAP_OFS of one channel. UTC_OFFSET_CHANGE puts an announced offset into force once its time has come, and not before. CAPTURE_EDGE of an edge that is not selected changes nothing; the first of an epoch is recorded with its polarity and an event record, at a time of whole fabric cycles within one cycle of the edge, less CAP_OFS (which cycle is open: log 3); later ones of the epoch count in MISSED. -/
def Obligations.TimeIsSetConfiguredAndCaptured : Prop :=
  (∀ dt h sec ns s, Ready h (.timeSet sec ns) s → let b := Body.timeSet sec ns; let u := tick dt s; let full := s.ref.sel.any fun k => decide (2 ≤ k)
    (modeNow s ≠ 0 ∨ full = true → Completes (.timeSet dt h sec ns) s (AnswersWith dt h b 0x0410 [] s))
    ∧ (modeNow s = 0 → full = false → Completes (.timeSet dt h sec ns) s fun t => let set := sec * tickSec + ns * tickNs
        (s.ref.sel = none → t.now = set) ∧ (∀ k, s.ref.sel = some k → let p := max 1 (refPeriod u (refEntry s (k + 1)).driftTime)
          2 * ((t.now : Int) - (set : Int)).natAbs * 10000000000 ≤ p + 2 * 10000000000
            ∧ (let phase := ((u.now : Int) - (t.now : Int)) * 10000000000 + refOfs u; phase % p < 10000000000 ∨ (p : Int) - 10000000000 < phase % p))
        ∧ getB t Reg.tmbStatus 0 = true ∧ t.ref.ofs = 0 ∧ getB t Reg.refStatus 2 = false
        ∧ Answered h b 0 0 (houseFrame t) [(8, t.now / tickSec), (4, t.now % tickSec / tickNs), (2, t.now % tickNs * 65536 / tickNs), (2, 0)] s t
        ∧ t = { u with now := t.now, regs := t.regs, cmd := t.cmd, evq := t.evq, pair := t.pair, ref := { s.ref with ofs := 0, ofsAt := s.mono + dt } }
        ∧ RegsBut (Reg.tmbStatus :: Reg.refStatus :: ringRegs) s t))
  ∧ (∀ dt h utc loc fl jam s, Ready h (.timeConf utc loc fl jam) s → let b := Body.timeConf utc loc fl jam; let u := tick dt s
    (TooLate tickMs h u → Completes (.timeConf dt h utc loc fl jam) s (AnswersWith dt h b 0x020B [] s))
    ∧ (¬ TooLate tickMs h u → Completes (.timeConf dt h utc loc fl jam) s fun t => Scheduled dt tickMs h (fun f => [(8, f)]) s t
        ∧ t = { u with regs := t.regs, cmd := t.cmd, sched := t.sched, pair := t.pair } ∧ RegsBut ringRegs s t))
  ∧ (∀ dt h s, Ready h .timeQuery s → let u := tick dt s; Completes (.timeQuery dt h) s (AnswersWith dt h .timeQuery 0
      ([(8, u.now / tickSec), (4, u.now % tickSec / tickNs), (2, u.now % tickNs * 65536 / tickNs), (2, 0)] ++ [Reg.tmbUtc, Reg.tmbStatus, Reg.ptpStatus 0, Reg.ptpOffset 0, Reg.ptpPath 0, Reg.ptpCnt 0,
        Reg.ptpStatus 1, Reg.ptpOffset 1, Reg.ptpPath 1, Reg.ptpCnt 1].map fun a => (4, (rd s a).toNat)) s))
  ∧ (∀ dt h ch edge (ofs : Int) s, Ready h (.capSet ch edge ofs) s → let a := Reg.capCtrl ch; Completes (.capSet dt h ch edge ofs) s fun t => Replied dt h (.capSet ch edge ofs) 0 s t
      ∧ getF t a 0 2 = edge ∧ getB t a 2 = getB s a 2 ∧ getF t a 16 16 = (ofs % 65536).toNat ∧ t = { tick dt s with regs := t.regs, cmd := t.cmd } ∧ RegsBut (a :: ringRegs) s t)
  ∧ (∀ dt s, powered s = true → let u := tick dt s
      (s.time.utcNext = none → Completes (.utcOffsetChange dt) s fun t => t = u)
      ∧ (∀ v at_, s.time.utcNext = some (v, at_) →
          (u.now < at_ → Completes (.utcOffsetChange dt) s fun t => t = u)
          ∧ (at_ ≤ u.now → Completes (.utcOffsetChange dt) s fun t => t.time = { s.time with ptpUtc := some v, utcNext := none, leapEnd := none } ∧ getB t Reg.tmbStatus 2 = false
              ∧ (getB t Reg.tmbStatus 1 = true → getF t Reg.tmbUtc 0 16 = (v % 65536).toNat) ∧ t = { u with regs := t.regs, evq := t.evq, time := t.time } ∧ RegsBut [Reg.tmbUtc, Reg.tmbStatus] s t)))
  ∧ (∀ dt s, powered s = true → ∀ c, c < 16 → ∀ falling : Bool, let u := tick dt s; let a := Reg.capCtrl c; let q := capTrack s c; let picked := getB s a (if falling = true then 1 else 0)
      let others := fun (t : State) => t.now = u.now ∧ ∀ x, x < 16 → x ≠ c → capTrack t x = capTrack s x
      (picked = false → Completes (.captureEdge dt c falling) s fun t => t = u)
      ∧ (picked = true → q.epoch = epochNow u + 1 → Completes (.captureEdge dt c falling) s fun t => getF t (Reg.capFrac c) 16 16 = min 65535 (getF s (Reg.capFrac c) 16 16 + 1)
          ∧ capTrack t c = { q with missed := min 65535 (q.missed + 1) } ∧ others t ∧ t = { u with regs := t.regs, time := { s.time with cap := t.time.cap } } ∧ RegsBut [Reg.capFrac c] s t)
      ∧ (picked = true → q.epoch ≠ epochNow u + 1 → Completes (.captureEdge dt c falling) s fun t => (capTrack t c).epoch = epochNow u + 1 ∧ (capTrack t c).missed = 0 ∧ getB t a 2 = falling ∧ others t
          ∧ (let field := getF s a 16 16; let ofs : Int := if field < 32768 then field else field - 65536; let at_ := fun (k : Int) => (k * 250 * 65536 / 297 - ofs * 65536 / 1000).toNat
              at_ ((u.now / tickCycle : Nat) - 1) ≤ (capTrack t c).time ∧ (capTrack t c).time ≤ at_ ((u.now / tickCycle : Nat) + 1))
          ∧ Latched (Src.capture c) noInst 4 t ∧ t = { u with regs := t.regs, evq := t.evq, time := { s.time with cap := t.time.cap }, free := s.free + 1 } ∧ RegsBut [a] s t))

/-- PTP_SET restarts the port without a master, in LISTENING where its candidate is enabled, and a candidate that had a master is lost. PTP_ANNOUNCE is ignored while the firmware is away, on a disabled port, or from another domain; otherwise the sender is kept with its last Announce; of the senders qualified by two Announces within four intervals, with ptpTimescale (log 210), and the chosen one, the port takes one that none precedes in the data-set comparison (given that all agree on each grandmaster), its class and accuracy are shown, its QL is mapped under R465 once two Announces in a row agree, and 0 without ptpTimescale; a change of master sets MASTER_CHG_SEEN and loses the candidate. An announce time-out removes the master. PTP_SYNC with a receive timestamp shows the offset less the mean path delay and counts (whole ns: log 211); PTP_DELAY_RESP adds the delay measured to the request of its number to the last 16 and shows their mean; PTP_DELAY_REQ_SEND keeps number and time of the request. PTP_SFD_EVENT gives a timestamp within 4 ns of the calibrated one, or, within 60 ns of an earlier event, TS_LATE, counted. None of them acts while the firmware is away. Which error and handling time occur is open (log 3). -/
def Obligations.PtpPortsFollowTheirMasters : Prop :=
  let sat := fun (v : Int) => max (-2147483648) (min 2147483647 v)
  let quality := fun (cls acc : Nat) => if cls = 6 then (if acc = 0x20 ∨ acc = 0x21 then 15 else if acc = 0x22 ∨ acc = 0x23 then 14 else 13) else if cls = 7 then 12 else if cls = 52 ∨ cls = 58 then 8
    else if cls = 187 ∨ cls = 193 then 4 else if cls = 248 then 2 else if cls = 13 ∨ cls = 14 ∨ cls = 255 then 0 else 1
  let lost := fun (t : State) (k : Nat) => k + 2 ∉ t.ref.present ∧ candState t (k + 2) < 2
  (∀ dt h c dom fl dscp vlan ip s, Ready h (.ptpSet c dom fl dscp vlan ip) s → let k := c - 2; Completes (.ptpSet dt h c dom fl dscp vlan ip) s fun t => (∃ r, t.cmd.waiting = s.cmd.waiting ++ [r] ∧ r.tag = h.tag ∧ r.status = 0 ∧ r.resultLen = 0)
      ∧ ptpPort t k = { ptpPort0 with domain := dom, flags := fl, dscp := dscp, vlan := vlan, ownIp := ip, seq := (ptpPort s k).seq } ∧ ptpPort t (1 - k) = ptpPort s (1 - k)
      ∧ getF t (Reg.ptpStatus k) 0 3 = b2n (candE s c).enabled ∧ getB t (Reg.ptpStatus k) 25 = decide (fl / 2 % 2 = 1) ∧ get64 t (Reg.ptpGmLo k) = 0
      ∧ ((ptpPort s k).chosen ≠ none → server s = 1 → c ∈ s.ref.present → lost t k) ∧ t.plan = s.plan ∧ t.eth = s.eth ∧ t.flow = s.flow)
  ∧ (∀ dt s, powered s = true → ∀ k, k < 2 → let u := tick dt s; let q := ptpPort s k; let st := Reg.ptpStatus k; let on := (candE s (k + 2)).enabled; let away := decide (server s ≠ 1); let other := fun (t : State) => ptpPort t (1 - k) = ptpPort s (1 - k)
    let qualifies := fun (x : Foreign) => (x.prev.elim false fun p => decide (u.mono - p ≤ if x.msg.interval < 0 then 4 * tickSec / 2 ^ x.msg.interval.natAbs else 4 * tickSec * 2 ^ x.msg.interval.natAbs))
      && x.msg.ptpTimescale && decide (x.msg.steps < 255)
    let dataset := fun (x : AnnounceMsg) => [x.priority1, x.clockClass, x.clockAccuracy, x.variance, x.priority2, x.grandmaster]
    let best := fun (t : State) (l : List AnnounceMsg) => (l = [] → (ptpPort t k).chosen = none) ∧ (l ≠ [] → ∃ x, x ∈ l ∧ (ptpPort t k).chosen = some x.identity
      ∧ ((∀ y, y ∈ l → ∀ z, z ∈ l → y.grandmaster = z.grandmaster → dataset y = dataset z) → ∀ y, y ∈ l → lexLt (dataset y ++ [y.steps, y.identity]) (dataset x ++ [x.steps, x.identity]) = false))
    (∀ m : AnnounceMsg, let quiet := away || !on || decide (m.domain ≠ q.domain)
      let ms : List Foreign := { msg := m, at_ := u.mono, prev := (q.masters.find? fun x => decide (x.msg.identity = m.identity)).map Foreign.at_ } :: q.masters.filter fun x => decide (x.msg.identity ≠ m.identity)
      let fit := (ms.filter fun x => qualifies x || decide (q.chosen = some x.msg.identity)).map Foreign.msg
      (quiet = true → Completes (.ptpAnnounce dt k m) s fun t => t = u)
      ∧ (quiet = false → Completes (.ptpAnnounce dt k m) s fun t => other t ∧ (ptpPort t k).masters = ms ∧ (ptpPort t k).domain = q.domain ∧ best t fit
          ∧ ((ptpPort t k).chosen = q.chosen → (ptpPort t k).paths = q.paths ∧ (ptpPort t k).sync = q.sync ∧ (getF t st 0 3 = getF s st 0 3))
          ∧ ((ptpPort t k).chosen ≠ q.chosen → (ptpPort t k).paths = [] ∧ (ptpPort t k).sync = none ∧ getF t st 0 3 = (if fit = [] then 1 else 2)
              ∧ (q.chosen ≠ none → (fit ≠ [] → getB t st 24 = true) ∧ (k + 2 ∈ s.ref.present → lost t k)))
          ∧ ((ptpPort t k).chosen = some m.identity → getF t st 8 8 = m.clockClass % 256 ∧ getF t st 16 8 = m.clockAccuracy % 256 ∧ (ptpPort t k).lastAnn = some (m.clockClass, m.clockAccuracy, m.ptpTimescale)
              ∧ (m.ptpTimescale = false → getF t st 4 4 = 0)
              ∧ (m.ptpTimescale = true → q.chosen = some m.identity → getF t st 4 4 = (if q.lastAnn = some (m.clockClass, m.clockAccuracy, true) then quality m.clockClass m.clockAccuracy else getF s st 4 4)))))
    ∧ (away = true ∨ q.chosen = none → Completes (.ptpAnnounceTimeout dt k) s fun t => t = u)
    ∧ (away = false → ∀ id, q.chosen = some id → Completes (.ptpAnnounceTimeout dt k) s fun t => other t ∧ (ptpPort t k).masters = (q.masters.filter fun x => decide (x.msg.identity ≠ id)) ∧ best t (((q.masters.filter fun x => decide (x.msg.identity ≠ id)).filter qualifies).map Foreign.msg) ∧ (ptpPort t k).chosen ≠ some id
        ∧ (ptpPort t k).lastAnn = none ∧ (ptpPort t k).paths = [] ∧ getF t st 0 3 = (if (ptpPort t k).chosen = none then 1 else 2) ∧ (k + 2 ∈ s.ref.present → lost t k))
    ∧ (∀ t1 c : Int, ∀ two : Bool,
        (away = true ∨ q.chosen = none ∨ q.stamp.bind id = none → Completes (.ptpSync dt k t1 c two) s fun t => other t ∧ ptpPort t k = { q with stamp := none } ∧ t = { u with time := t.time })
        ∧ (away = false → q.chosen ≠ none → ∀ rx, q.stamp = some (some rx) → let t2 : Int := (rx / 297 : Nat); Completes (.ptpSync dt k t1 c two) s fun t => other t ∧ ptpPort t k = { q with sync := some (t1, t2, c), stamp := none }
            ∧ (rd t (Reg.ptpOffset k)).toInt = sat (t2 - t1 - c - q.paths.foldl (· + ·) 0 / max 1 (q.paths.length : Int)) ∧ getF t (Reg.ptpCnt k) 0 16 = min 65535 (getF s (Reg.ptpCnt k) 0 16 + 1)
            ∧ getF t st 0 3 = (if q.paths = [] then 2 else 3) ∧ getB t st 3 = two
            ∧ (s.ref.sel ≠ some (k + 2) → t = { u with regs := t.regs, evq := t.evq, time := t.time } ∧ RegsBut [Reg.ptpOffset k, Reg.ptpCnt k, st] s t)))
    ∧ (∀ (seq : Nat) (t4 c : Int), (away = true ∨ q.sync = none ∨ (∀ y, y ∈ q.reqs → y.1 ≠ seq) → Completes (.ptpDelayResp dt k seq t4 c) s fun t => t = u)
        ∧ (away = false → ∀ t3, (q.reqs.find? fun y => decide (y.1 = seq)) = some (seq, t3) → ∀ y, q.sync = some y → let paths := (((y.2.1 - y.1 - y.2.2) + (t4 - t3 - c)) / 2 :: q.paths).take 16
            Completes (.ptpDelayResp dt k seq t4 c) s fun t => other t ∧ ptpPort t k = { q with reqs := q.reqs.filter fun z => decide (z.1 ≠ seq), paths := paths }
              ∧ (rd t (Reg.ptpPath k)).toNat = min (2 ^ 32 - 1) (paths.foldl (· + ·) 0 / (paths.length : Int)).toNat ∧ t = { u with regs := t.regs, time := t.time } ∧ RegsBut [Reg.ptpPath k] s t))
    ∧ (away = true ∨ q.chosen = none → Completes (.ptpDelayReqSend dt k) s fun t => t = u)
    ∧ (away = false → q.chosen ≠ none → Completes (.ptpDelayReqSend dt k) s fun t => other t ∧ ptpPort t k = { q with reqs := q.reqs ++ [(q.seq, ((u.now / 297 : Nat) : Int))], seq := (q.seq + 1) % 65536 } ∧ t = { u with time := t.time })
    ∧ (let g := (candE s (k + 2)).channel % 16 * 4 + (candE s (k + 2)).channel / 16 % 4
       let slow := s.plan.cfg.eths.any fun e => decide (e.port = g / 4) && e.breakout
       let cal : Nat := match runImage s with
         | some i => (i.rxOfs[2 * g + if slow = true then 1 else 0]?).getD 0
         | none => 0
       (on = false ∨ away = true → Completes (.ptpSfdEvent dt k) s fun t => t = u)
       ∧ (on = true → away = false → u.mono < s.time.sfdBusy → Completes (.ptpSfdEvent dt k) s fun t => (ethTrack t g).sfd = some none ∧ ptpPort t k = { q with stamp := some none } ∧ other t
          ∧ getF t (Reg.ptpCnt k) 16 16 = min 65535 (getF s (Reg.ptpCnt k) 16 16 + 1) ∧ t.time.sfdBusy = s.time.sfdBusy)
       ∧ (on = true → away = false → s.time.sfdBusy ≤ u.mono → 2 * tickSec < u.now → cal < 1000000 → Completes (.ptpSfdEvent dt k) s fun t => (∃ x, (ethTrack t g).sfd = some (some x) ∧ ptpPort t k = { q with stamp := some (some x) }
            ∧ (((x : Int) - ((u.now : Int) + ((cal : Int) - (getF s (Reg.ptpRxOfs k) 0 20 : Nat)) * 297 / 1000)).natAbs ≤ 4 * tickNs))
          ∧ other t ∧ t.time = { s.time with sfdBusy := t.time.sfdBusy, ptp := t.time.ptp } ∧ t.time.sfdBusy ≤ u.mono + 60 * tickNs ∧ t.regs = s.regs)))

/-! ## PLLs and clock islands (13_plls_and_clock_islands.md) -/

/-- An attempt shows its band by six comparisons (log 209), unless the PLL is locked, its reference has not 8 periods within 1 %, its quadrant is off, or the wait of R507 has not passed. LOCK_N cycles within W set LOCKED, clears FAIL, records the duration, and sets SYNCED at once with SYNC_SRC 0. An attempt fails no earlier than 200 µs after its band search: it is counted, the next waits 1 ms, or 100 ms from the third on, which sets FAIL with a record. A loss of lock, 8 cycles beyond 2W or without edges, clears LOCKED and SYNCED, sets LOSS_SEEN, is counted with a record, starts a new attempt and puts every island of the PLL on keep-alive; with the timebase PLL every other PLL loses lock. Its further effects are those of R520: links of the quadrant, the PCIe link, the firmware, health. A sync edge sets SYNCED at the first after lock, and a difference at a later one sets PHASE_ERR_SEEN with a record. RELOCK acts in SERVICE, and sets REFUSED alone elsewhere. An island returns at the first epoch boundary at least 1 µs after lock and SYNCED, a receive island while CK_OK is set, HUB.LINE while XO_27 is present. XO_27's absence puts HUB.LINE on keep-alive, unlocks the timebase PLL and leaves no reference; its return starts that PLL's attempt. FRAME_SYNC is valid after four edges in a row within ±500 ns of the nearest house-frame start, and FS_DIFF holds the last. -/
def Obligations.PllsLockLoseAndReturn : Prop :=
  let islands := fun (j : Nat) => if j = 16 then [94] else if j = 17 then [92, 98] else if j = 18 then [93] else if j = 19 then [97] else if j % 4 = 3 then [23 * (j / 4) + 21, 23 * (j / 4) + 22] else [23 * (j / 4) + 18 + j % 4]
  let dead := fun (j : Nat) (s t : State) => getF t (Reg.pllStatus j) 0 3 = 4 ∧ getB t (Reg.pllStatus j) 4 = true ∧ getF t (Reg.pllCnt j) 0 16 = min 65535 (getF s (Reg.pllCnt j) 0 16 + 1)
    ∧ (∀ x, x ∈ islands j → keepAlive t x = true ∧ getB t (Reg.islSeen (x / 32)) (x % 32) = true)
  let hold := fun (s t : State) => t.plan = s.plan ∧ t.take = s.take ∧ t.port = s.port ∧ t.otp = s.otp ∧ t.flash = s.flash ∧ t.time = s.time ∧ t.mods = s.mods ∧ t.therm = s.therm ∧ t.now = (tick 0 s).now
  (∀ dt s, powered s = true → ∀ j, j < 20 → let u := tick dt s; let q := pllTrack s j; let a := Reg.pllStatus j; let locked := getB s a 0
    let src := getF s (Reg.pllCtrl j) 24 2; let synced := decide (src = 0) == false; let mine := fun (t : State) => ∀ k, k < 20 → k ≠ j → pllTrack t k = pllTrack s k
    let nominal := if j = 16 then 270 else 1485
    let within := fun (es : List Int) => decide (q.lockN ≤ es.length) && (es.drop (es.length - q.lockN)).all fun e => decide (e.natAbs ≤ 4 * q.win)
    let slipped := fun (es : List (Option Int)) => let l := es.drop (es.length - 8); decide (8 ≤ es.length) && ((l.all fun e => e.any fun v => decide (8 * q.win < v.natAbs)) || l.all Option.isNone)
    (∀ (edges : List Nat) (slow : List Bool), let present := decide (8 ≤ edges.length) && (edges.drop (edges.length - 8)).all fun p => decide (990000000 ≤ 100 * p * nominal) && decide (100 * p * nominal ≤ 1010000000)
      let idle := locked || !present || decide (u.mono < q.since) || (if j = 16 then s.pins.xoOk == false else getB s (Reg.pllStatus 16) 0 == false) || (decide (j < 16) && getB s Reg.pwrQuad (j / 4) == false)
      (idle = true → Completes (.pllLockAttempt dt j edges slow) s fun t => t = u)
      ∧ (idle = false → Completes (.pllLockAttempt dt j edges slow) s fun t => getF t a 8 6 = (slow.take 6).foldl (fun b x => 2 * b + if x = true then 1 else 0) 0 ∧ getB t a 2 = true
          ∧ pllTrack t j = { q with closedAt := some u.mono, lockN := max 16 (min 4096 (getF s (Reg.pllCtrl j) 0 13)), win := max 2 (getF s (Reg.pllCtrl j) 16 7) } ∧ mine t ∧ t = { u with regs := t.regs, plls := { s.plls with pll := t.plls.pll } } ∧ RegsBut [a] s t))
    ∧ (∀ es, q.closedAt = none ∨ within es = false → Completes (.pllLock dt j es) s fun t => t = u)
    ∧ (∀ c es, q.closedAt = some c → within es = true → Completes (.pllLock dt j es) s fun t => getF t a 0 4 = (if synced = true then 1 else 3) ∧ (rd t (Reg.pllLockTime j)).toNat = min (2 ^ 24 - 1) ((u.mono - q.since) * 1000 / 297000)
        ∧ pllTrack t j = { pllTrack0 with lockN := q.lockN, win := q.win, readyAt := if synced = true then none else some u.mono } ∧ mine t ∧ t = { u with regs := t.regs, plls := { s.plls with pll := t.plls.pll } } ∧ RegsBut [a, Reg.pllLockTime j] s t)
    ∧ (q.closedAt = none → Completes (.pllAttemptFail dt j) s fun t => t = u)
    ∧ (∀ c, q.closedAt = some c → (u.mono < c + 200 * tickUs → Completes (.pllAttemptFail dt j) s fun t => t = u)
        ∧ (c + 200 * tickUs ≤ u.mono → Completes (.pllAttemptFail dt j) s fun t => getF t (Reg.pllCnt j) 16 16 = min 65535 (getF s (Reg.pllCnt j) 16 16 + 1) ∧ getB t a 2 = false ∧ (getB t a 3 = true ↔ getB s a 3 = true ∨ q.fails = 2)
            ∧ (q.fails = 2 → Latched (Src.pll j) noInst 2 t) ∧ (pllTrack t j).fails = q.fails + 1 ∧ (pllTrack t j).closedAt = none ∧ (pllTrack t j).since = u.mono + (if q.fails < 2 then tickMs else 100 * tickMs)
            ∧ mine t ∧ t = { u with regs := t.regs, evq := t.evq, plls := { s.plls with pll := t.plls.pll } } ∧ RegsBut [a, Reg.pllCnt j] s t))
    ∧ (∀ es, locked = false ∨ slipped es = false → Completes (.pllLossOfLock dt j es) s fun t => t = u)
    ∧ (∀ es, locked = true → slipped es = true → Completes (.pllLossOfLock dt j es) s fun t => dead j s t ∧ Latched (Src.pll j) noInst 2 t ∧ (pllTrack t j).closedAt = none ∧ (pllTrack t j).since = u.mono
        ∧ (j ≠ 16 → mine t ∧ ∀ k, k < 20 → k ≠ j → rd t (Reg.pllStatus k) = rd s (Reg.pllStatus k) ∧ rd t (Reg.pllCnt k) = rd s (Reg.pllCnt k)) ∧ (j = 16 → ∀ k, k < 20 → k ≠ 16 → if getB s (Reg.pllStatus k) 0 = true then dead k s t else rd t (Reg.pllStatus k) = rd s (Reg.pllStatus k))
        ∧ (j = 18 ∨ (j = 16 ∧ getB s (Reg.pllStatus 18) 0 = true) → t.pins.pcieUp = false ∧ (s.pins.pcieUp = true → getB t Reg.cmdStatus 6 = true ∧ t.cmd.headFresh = false)) ∧ (j = 17 → server s = 1 → server t = 2 ∧ getB t Reg.planState 15 = true)
        ∧ (j < 16 → let i := j % 4; (i = 0 → trunkAir u (j / 4) = true → getB t Reg.pairHealth 16 = true) ∧ (i = 3 → portAir u (j / 4) = true → getB t Reg.pairHealth 16 = true)
            ∧ (i = 1 → (flowAir u (j / 4) = true → getB t Reg.pairHealth 16 = true) ∧ ∀ g, g < 16 → ethUp t (16 * (j / 4) + g) = false) ∧ (i = 2 → ∀ n, n < 1408 → quadOf n = j / 4 → fsTrack s n ≠ fsTrack0 → (fsTrack t n).lockedAt = u.mono)
            ∧ (i = 2 → t = { u with regs := t.regs, evq := t.evq, plls := t.plls, mem := t.mem } ∧ RegsBut [a, Reg.pllCnt j, Reg.islSeen 0, Reg.islSeen 1, Reg.islSeen 2, Reg.islSeen 3, Reg.islKeepalive 0, Reg.islKeepalive 1, Reg.islKeepalive 2, Reg.islKeepalive 3] s t))
        ∧ (j ≠ 16 → j ≠ 17 → hold u t))
    ∧ (∀ shifted, (locked = false ∨ synced = false → Completes (.pllDividerSync dt j shifted) s fun t => t = u)
        ∧ (locked = true → synced = true → getB s a 1 = false → Completes (.pllDividerSync dt j shifted) s fun t => getB t a 1 = true ∧ pllTrack t j = { q with readyAt := some u.mono } ∧ mine t ∧ t = { u with regs := t.regs, plls := { s.plls with pll := t.plls.pll } } ∧ RegsBut [a] s t)
        ∧ (locked = true → synced = true → getB s a 1 = true → Completes (.pllDividerSync dt j shifted) s fun t => (shifted = false → t = u) ∧ (shifted = true → getB t a 5 = true ∧ Latched (Src.pll j) noInst 2 t ∧ RegsEvents [a] dt s t)))
    ∧ (modeNow s ≠ 5 → Completes (.pllRelock dt j) s fun t => getB t a 6 = true ∧ RegsOnly [a] dt s t)
    ∧ (modeNow s = 5 → locked = true → Completes (.pllRelock dt j) s fun t => dead j s t ∧ ∀ es, slipped es = true → exec (.pllLossOfLock dt j es) s = .next t)
    ∧ (modeNow s = 5 → locked = false → Completes (.pllRelock dt j) s fun t => getB t a 2 = true ∧ pllTrack t j = { pllTrack0 with since := u.mono } ∧ mine t ∧ t = { u with regs := t.regs, plls := { s.plls with pll := t.plls.pll } } ∧ RegsBut [a] s t))
  ∧ (∀ dt s, powered s = true → ∀ x, x < 99 → let u := tick dt s; let ka := Reg.islKeepalive (x / 32); let boundary := u.mono - u.now % tickEpoch
      let fed := fun (j : Nat) => match (pllTrack s j).readyAt with
        | some r => decide (r + tickUs ≤ boundary)
        | none => false
      let ready := if x = 96 then s.pins.xoOk else if x = 95 then getB s Reg.mirLinkStatus 8 else if x < 92 ∧ x % 23 < 18 then getB s (Reg.trkLinkStatus (18 * (x / 23) + x % 23)) 8
        else (upto 0 20).any fun j => decide (x ∈ islands j) && fed j
      (keepAlive s x = false ∨ ready = false → Completes (.islandClockReturn dt x) s fun t => t = u)
      ∧ (keepAlive s x = true → ready = true → Completes (.islandClockReturn dt x) s fun t => keepAlive t x = false ∧ (∀ y, y < 100 → y ≠ x → keepAlive t y = keepAlive s y) ∧ t.plls = s.plls ∧ t.plan = s.plan ∧ t.take = s.take ∧ t.otp = s.otp ∧ t.flash = s.flash
          ∧ ((x < 92 ∧ x % 23 < 18) ∨ 95 ≤ x ∧ x ≤ 96 ∨ 92 ≤ x ∧ x < 94 → RegsOnly [ka] dt s t)))
  ∧ (∀ dt s, s.pins.vddLine = true → let u := tick dt s
      (s.pins.xoOk = false → Completes (.xoFail dt) s fun t => t = u)
      ∧ (s.pins.xoOk = true → Completes (.xoFail dt) s fun t => t.pins.xoOk = false ∧ getB t Reg.pllSyncStatus 1 = true ∧ keepAlive t 96 = true ∧ t.ref.sel = none ∧ t.ref.freqs = [] ∧ getF t Reg.refStatus 0 2 = 0 ∧ (getB s (Reg.pllStatus 16) 0 = true → dead 16 s t) ∧ t.plan.cfg = s.plan.cfg ∧ t.otp = s.otp ∧ t.flash = s.flash)
      ∧ (s.pins.xoOk = true → Completes (.xo27Return dt) s fun t => t = u)
      ∧ (s.pins.xoOk = false → Completes (.xo27Return dt) s fun t => keepAlive t 96 = false ∧ getB t Reg.pllSyncStatus 1 = false ∧ (getB s (Reg.pllStatus 16) 0 = false → getB t (Reg.pllStatus 16) 2 = true ∧ pllTrack t 16 = { pllTrack0 with since := u.mono })
          ∧ t = { u with pins := { s.pins with xoOk := true }, regs := t.regs, evq := t.evq, plls := t.plls } ∧ RegsBut [Reg.pllSyncStatus, Reg.pllStatus 16, Reg.islKeepalive 3] s t))
  ∧ (∀ dt s, powered s = true → let a := Reg.pllSyncStatus; let r := houseRate s; let now := s.now + dt
      let d : Int := ((now : Int) - (rateStart r (rateFrame r (now + r.2 * tickSec / (2 * r.1))) : Nat)) / 297
      let n := if -500 ≤ d ∧ d ≤ 500 then min 4 (s.plls.fsGood + 1) else 0; let valid := decide (4 ≤ n); let changed := getB s a 0 != valid
      Completes (.frameSyncEdge dt) s fun t => getB t a 0 = valid ∧ getF t a 16 16 = ((max (-32768) (min 32767 d)) % 65536).toNat ∧ (changed = true → getB t a 2 = true) ∧ (changed = false → t.evq = s.evq ∧ getB t a 2 = getB s a 2)
        ∧ t = { tick dt s with regs := t.regs, evq := t.evq, plls := { s.plls with fsGood := n } } ∧ RegsBut [a] s t)

/-! ## The pair (15_the_pair.md) -/

/-- In RUN a new valid mirror header gives the partner's claim, flags, mode and offset and sets HB_OK; from join step 4 on the unit is active exactly while its claim exceeds the partner's, and SOLO otherwise; a change sets SWITCH_SEEN with a record. A heartbeat that returns enters join step 1, unless the unit is held; CAP becomes 128, but for a SOLO unit in modes 1 to 4 with CAP 255. Without a valid header for 16 mirror frames, or an advance of the heartbeat in 3 epochs, the unit is unpaired and SOLO. A message is acted on with keys and in RUN; one that fails authentication is counted and discarded, a number already received is not acted on again; a DELTA that differs from the headers ends the pairing. Pairing takes the partner's certificate and nonce, proves certificate, variant and pinned serial number, signs and sends its own ephemeral key (taken at random: log 3), and verifies the partner's signature; a step that fails sets AUTH_FAIL_SEEN and is counted, and pairing starts again 1 s later; the last one gives the keys, and moves an equal TIE in slot 1. Join steps follow one another under R569, step 3 with a version that both units accept; INCOMPAT leaves SOLO; a plan refused by the standby holds step 5. JOIN_STEP reads 0 once PAIRED is set: the model's choice. -/
def Obligations.MirrorLinkGivesRolesAndJoins : Prop :=
  let ps := Reg.pairStatus
  let ruled := fun (s t : State) => let role := if ((getB t ps 0 || decide (4 ≤ getF t ps 20 3)) && getB t ps 4) = true then b2n (decide (getF t Reg.pairClaim 16 16 < t.pair.claim)) else 3
    getF t ps 1 2 = role ∧ (getF s ps 1 2 ≠ role → getB t ps 12 = true ∧ Latched Src.role noInst 1 t)
  let mostly := fun (u t : State) => t = { u with regs := t.regs, evq := t.evq, pair := t.pair, ref := t.ref, cmd := t.cmd, fw := t.fw, free := t.free, now := t.now }
  let entered := fun (u t : State) => if getB u Reg.pairCtrl 6 = true then getF t ps 20 3 = 0 else getF t ps 20 3 = 1 ∧ (if getB u ps 2 = true ∧ 1 ≤ modeNow u ∧ modeNow u ≤ 4 ∧ capNow u = 255 then capNow t = 255 else capNow t = 128 ∧ getB t ps 6 = true)
  let apart := fun (t : State) => getF t ps 0 1 = 0 ∧ getF t ps 1 2 = 3 ∧ getF t ps 5 2 = 0 ∧ t.pair.keyed = false ∧ t.pair.tieMoved = false ∧ t.pair.resyncCmds = []
  (∀ dt s, powered s = true → let u := tick dt s; let run := decide (getF s Reg.mirLinkStatus 0 3 = 7); let k := getF s ps 20 3; let held := getB s Reg.pairCtrl 6; let away := decide (server s ≠ 1); let alone := fun (t : State) => t = { u with pair := t.pair } 
    let heard := ((List.range 4).filterMap fun l => (laneTrack s (576 + l)).pend).find? fun h => h.valid && decide (s.pair.hdrAt ≠ some h.since); let flags := tabGet 0 0 s.pair.msg; let beat := tabGet 0 1 s.pair.msg
    ((run = false → Completes (.mirrorFrameReceived dt) s fun t => t = u)
      ∧ (run = true → heard = none → Completes (.mirrorFrameReceived dt) s fun t => ruled s t ∧ mostly u t)
      ∧ (run = true → ∀ h, heard = some h → Completes (.mirrorFrameReceived dt) s fun t => ruled s t ∧ mostly u t ∧ getF t Reg.pairClaim 16 16 = h.claim % 65536 ∧ getF t ps 16 3 = flags / 16 % 8 ∧ getB t ps 19 = decide (flags / 128 % 2 = 1)
          ∧ getB t ps 9 = decide (flags / 8 % 2 = 1) ∧ getB t ps 4 = true ∧ (rd t Reg.pairOffset).toInt = max (-2147483648) (min 2147483647 (mirrorOffset u h.since)) ∧ t.pair.hbAt = u.mono ∧ t.pair.hdrAt = some h.since
          ∧ (beat ≠ s.pair.hbByte ∨ getB s ps 4 = false → t.pair.hbAdv = u.mono) ∧ (getB s ps 4 = false → k = 0 → entered u t)
          ∧ (getB s ps 4 = true → paired s = true → s.pair.peerFlags / 4 % 2 = 1 → flags / 4 % 2 = 0 → apart { t with regs := (putF ps 6 1 0 t).regs } ∧ getF t ps 20 3 = b2n (!held))
          ∧ (getB s ps 4 = true → paired s = false ∨ flags / 4 % 2 = 1 → getF t ps 20 3 = k ∧ getB t ps 0 = getB s ps 0)))
    ∧ (let dead := getB s ps 4 && (decide (s.pair.hbAt + 10177 * tickNs ≤ u.mono) || decide (s.pair.hbAdv + 3 * tickEpoch ≤ u.mono))
       (dead = false → Completes (.heartbeatLoss dt) s fun t => t = u)
       ∧ (dead = true → Completes (.heartbeatLoss dt) s fun t => apart t ∧ ruled s t ∧ mostly u t ∧ getF t ps 20 3 = 0 ∧ getB t ps 4 = false ∧ getB t ps 9 = false ∧ getF t ps 16 4 = 0))
    ∧ (∀ seq m, let deaf := !run || !s.pair.keyed; let got := (seq :: s.pair.rxGot).take 1024; let u1 := { u with pair := { u.pair with rxGot := got } }
        (deaf = true → ∀ au, Completes (.mirrorMessageReceived dt seq au m) s fun t => t = u)
        ∧ (deaf = false → Completes (.mirrorMessageReceived dt seq false m) s fun t => getF t Reg.pairMirAuth 16 16 = min 65535 (getF s Reg.pairMirAuth 16 16 + 1) ∧ RegsOnly [Reg.pairMirAuth] dt s t)
        ∧ (deaf = false → seq ∈ s.pair.rxGot → Completes (.mirrorMessageReceived dt seq true m) s fun t => t = u)
        ∧ (deaf = false → seq ∉ s.pair.rxGot → Completes (.mirrorMessageReceived dt seq true m) s fun t => t.pair.rxGot = got)
        ∧ (deaf = false → seq ∉ s.pair.rxGot → ∀ e d, Completes (.mirrorMessageReceived dt seq true (.digests e d)) s fun t => t = { u1 with pair := { u1.pair with peer := ((e, d) :: s.pair.peer).take 4 } })
        ∧ (deaf = false → seq ∉ s.pair.rxGot → Completes (.mirrorMessageReceived dt seq true .armed) s fun t => t = { u1 with plan := { u1.plan with pending := u1.plan.pending.map fun p => { p with partnerArmed := true } } })
        ∧ (deaf = false → seq ∉ s.pair.rxGot → ∀ f, Completes (.mirrorMessageReceived dt seq true (.colour f)) s fun t => t = { u1 with pair := { u1.pair with colourAt := some f } })
        ∧ (deaf = false → seq ∉ s.pair.rxGot → isStandby s = false → ∀ b f, Completes (.mirrorMessageReceived dt seq true (.command b f)) s fun t => t = u1)
        ∧ (deaf = false → seq ∉ s.pair.rxGot → isStandby s = false → s.pair.grace = 0 → ∀ e fl f tag, Completes (.mirrorMessageReceived dt seq true (.take e fl f tag)) s fun t => t = u1)
        ∧ (deaf = false → seq ∉ s.pair.rxGot → Completes (.mirrorMessageReceived dt seq true .resyncRequest) s fun t => getB t ps 7 = false ∧ getB t ps 6 = true ∧ t.pair.resyncDone = none
            ∧ (getB s ps 1 = true → t.pair.snapDue = true) ∧ (getB s ps 1 = false → capNow t = 128 ∧ t.pair.outbox = s.pair.outbox ++ [(s.pair.txSeq, .resyncRequest)]) ∧ t = { u with regs := t.regs, evq := t.evq, pair := t.pair } ∧ RegsBut [ps, Reg.pairHealth] s t)
        ∧ (deaf = false → seq ∉ s.pair.rxGot → ∀ c fl x, let same := s.pair.hdrs = [] ∨ (c, fl) ∈ s.pair.hdrs
            (same → Completes (.mirrorMessageReceived dt seq true (.delta c fl x)) s fun t => t = { u1 with pair := { u1.pair with hdrs := u1.pair.hdrs.drop (u1.pair.hdrs.length - 1), snap := match x, s.pair.snap with
              | some y, some (b, _) => some (b, y)
              | _, z => z } })
            ∧ (¬ same → Completes (.mirrorMessageReceived dt seq true (.delta c fl x)) s fun t => paired t = false ∧ t.pair.keyed = false ∧ getF t ps 20 3 = b2n (!held) ∧ ruled s t ∧ mostly u t)))
    ∧ (∀ seq, Completes (.mirrorRetransmit dt seq) s fun t => alone t ∧ t.pair = { s.pair with outbox := s.pair.outbox ++ ((s.pair.outbox.find? fun x => decide (x.1 = seq)).toList) })
    ∧ (let due := run && getB s Reg.mirLinkStatus 12 && !away && decide ((linkTrack s 72).since + 10 * tickSec ≤ u.mono)
       (due = false → Completes (.mirrorLadderRetry dt) s fun t => t = u)
       ∧ (due = true → Completes (.mirrorLadderRetry dt) s fun t => linkPhase t 72 = 1 ∧ linkStep t 72 = 0 ∧ getB t ps 3 = false ∧ (linkTrack t 72).since = u.mono ∧ t = { u with regs := t.regs, trk := t.trk }))
    ∧ (let p := s.pair.pairStep; let idle := decide (k ≠ 2) || away; let x := s.pair.exch; let c? := certParse x.cert
        let failed := fun (m : PairMsg) => Completes (.pairingStep dt m) s fun t => getB t ps 11 = true ∧ Latched Src.joining noInst 2 t ∧ getF t Reg.pairMirAuth 0 16 = min 65535 (getF s Reg.pairMirAuth 0 16 + 1)
            ∧ t.pair = { s.pair with pairStep := 0, authAt := some u.mono, keyed := false } ∧ t = { u with regs := t.regs, evq := t.evq, pair := t.pair } ∧ RegsBut [ps, Reg.pairMirAuth] s t
        let proven := getB s Reg.idStatus 0 && c?.any fun c => certSigned s.sec.root c && decide (c.variant = variantName) && (!getB s Reg.pairCtrl 5 || decide (c.serial = get64 s Reg.pairPinSnLo))
        (∀ m, idle = true ∨ p = 0 ∨ 4 < p → Completes (.pairingStep dt m) s fun t => t = u)
        ∧ (idle = false → p = 1 → ∀ cert nonce, Completes (.pairingStep dt (.hello cert nonce)) s fun t => alone t ∧ t.pair = { s.pair with pairStep := 2, exch := { x with cert := cert, nonce := nonce } })
        ∧ (idle = false → p = 2 → proven = false → failed .check)
        ∧ (idle = false → p = 2 → proven = true → Completes (.pairingStep dt .check) s fun t => (∀ c, c? = some c → get64 t Reg.pairPartnerSnLo = c.serial % 2 ^ 64)
            ∧ (∃ r sg, t.pair = { s.pair with pairStep := 3, outbox := s.pair.outbox ++ [(s.pair.txSeq, .exchange (ecPublic x.ownKey) r sg)], txSeq := s.pair.txSeq + 1 })
            ∧ t = { u with regs := t.regs, pair := t.pair, free := t.free } ∧ RegsBut [Reg.pairPartnerSnLo, Reg.pairPartnerSnLo + 4] s t)
        ∧ (idle = false → p = 3 → ∀ pub r sg, let ok := c?.any fun c => ecdsaOver c.key r sg (transcript x.cert x.nonce s.otp.cert x.ownNonce pub)
            (ok = false → failed (.key pub r sg)) ∧ (ok = true → Completes (.pairingStep dt (.key pub r sg)) s fun t => alone t ∧ t.pair = { s.pair with pairStep := 4, exch := { x with key := pub } }))
        ∧ (idle = false → p = 4 → Completes (.pairingStep dt .derive) s fun t => alone t
            ∧ t.pair = { s.pair with pairStep := 0, keyed := true, keyAt := u.mono, tieMoved := s.pins.pairSel && decide (s.otp.serial % 14 = get64 s Reg.pairPartnerSnLo % 14) }))
    ∧ (let due := (match s.pair.authAt with
         | some a => decide (a + tickSec ≤ u.mono)
         | none => false) && decide (k = 2) && !away
       (due = false → Completes (.pairingRetry dt) s fun t => t = u)
       ∧ (due = true → Completes (.pairingRetry dt) s fun t => t = { u with pair := t.pair, free := t.free } ∧ t.pair.pairStep = 1 ∧ t.pair.authAt = none ∧ t.pair.keyed = false
           ∧ t.pair.outbox = s.pair.outbox ++ [(s.pair.txSeq, .hello s.otp.cert t.pair.exch.ownNonce)] ∧ t.pair.exch.cert = []))
    ∧ (let due := s.pair.keyed && !away && decide (s.pair.keyAt + 24 * 3600 * tickSec ≤ u.mono)
       Completes (.keyRenewal dt) s fun t => alone t ∧ t.pair = (if due = true then { s.pair with keyAt := u.mono, renewals := s.pair.renewals + 1 } else s.pair))
    ∧ (let stay := fun (r : JoinResult) => Completes (.joinStepAdvance dt r) s fun t => t = u; let moves := fun (n : Nat) => Completes (.joinStepAdvance dt .ok) s fun t => getF t ps 20 3 = n ∧ Latched Src.joining noInst 1 t ∧ mostly u t ∧ getB t ps 0 = false ∧ (n = 4 → ruled s t) ∧ (n = 2 → t.pair.pairStep = 1 ∧ t.pair.keyed = false)
       (held = true ∨ away = true → ∀ r, stay r)
       ∧ (held = false → away = false → paired s = false →
          (k = 0 ∨ (k = 1 ∧ (getB s ps 3 && getB s ps 4) = false) ∨ (k = 2 ∧ s.pair.keyed = false) ∨ k = 3 ∨ (k = 6 ∧ getB s ps 6 = true) ∨ (k = 7 ∧ u.now % tickEpoch ≠ 0) → stay .ok)
          ∧ (k = 1 → (getB s ps 3 && getB s ps 4) = true → moves 2) ∧ (k = 2 → s.pair.keyed = true → moves 3) ∧ (k = 4 → moves 5) ∧ (k = 6 → getB s ps 6 = false → moves 7)
          ∧ (∀ v acc, let fits := acc && decide (v ∈ ((runImage s).map FwImage.accepts).getD [])
              (k ≠ 3 → stay (.version v acc)) ∧ (k = 3 → fits = true → Completes (.joinStepAdvance dt (.version v acc)) s fun t => getF t ps 20 3 = 4 ∧ Latched Src.joining noInst 1 t ∧ ruled s t ∧ mostly u t ∧ t.pair.peerVersion = some v)
              ∧ (k = 3 → fits = false → Completes (.joinStepAdvance dt (.version v acc)) s fun t => getB t ps 13 = true ∧ apart t ∧ getF t ps 20 3 = 0 ∧ mostly u t))
          ∧ (k = 4 ∨ k = 5 → Completes (.joinStepAdvance dt .planMatch) s fun t => let same := getB s ps 4 && decide (getF s ps 16 3 = modeNow s); getB t Reg.planState 14 = same ∧ getF t ps 20 3 = (if same = true then 6 else 5) ∧ mostly u t)
          ∧ (k = 7 → u.now % tickEpoch = 0 → Completes (.joinStepAdvance dt .ok) s fun t => getB t ps 0 = true ∧ getF t ps 20 3 = 0 ∧ ruled s t ∧ mostly u t)
          ∧ (1 ≤ k → k ≤ 3 → Completes (.joinStepAdvance dt .incompatible) s fun t => getB t ps 13 = true ∧ apart t ∧ getF t ps 20 3 = 0 ∧ mostly u t)
          ∧ (k = 0 ∨ 4 ≤ k → stay .incompatible)
          ∧ (∀ st, (k ≠ 5 → stay (.planRefused st)) ∧ (k = 5 → Completes (.joinStepAdvance dt (.planRefused st)) s fun t => getF t ps 20 3 = 5 ∧ t.pair.held = true ∧ getB t Reg.planState 14 = false ∧ Latched Src.joining noInst 2 t
              ∧ (getB s ps 1 = false → getF t Reg.planLastStatus 0 16 = st % 65536) ∧ t.plan = s.plan ∧ mostly u t)))))

/-! ## Comparison, resync and the commands of the pair (15_the_pair.md) -/

/-- PAIR_DIGESTS past the last output is PAIR_RANGE, and PAIR_RESYNC and PAIR_DIGESTS without a partner PAIR_NO_PARTNER; each otherwise has its effect and reply, and PAIR_SET is saved. An epoch whose digests both units have is compared: every mismatching output counts by its kind of R574, OWN where a block on its path had an event of R554, the state digest as STATE, and shows the last; a STATE mismatch within 8 epochs of a resync sets DIVERGED, another one starts a resync in the standby, with CAP 128; in MIRROR a rail that disagrees with the other and the partner is excluded. A skipped epoch is counted and is not clean; the 64th clean epoch returns CAP to 255. The standby asks for a snapshot, the active unit owes one; a resync completes at an epoch boundary two epochs or more after the snapshot and leaves its routes, audio routes, patchable tables and generation in the standby, clears RESYNC and answers PAIR_RESYNC. A penalty ends after 64 epochs without an event, and HEALTH is min(CAP, max(1, 255 - penalties)). Which output an unattributed STATE mismatch names, and digests before any comparison, are open (log 3). -/
def Obligations.PairComparesAndResynchronises : Prop :=
  let ps := Reg.pairStatus
  let health := fun (t : State) => let p := getF t Reg.pairHealth 16 4; let sum := 64 * (p % 2) + 64 * (p / 2 % 2) + 32 * (p / 4 % 2) + 192 * (p / 8); let cap := getF t Reg.pairHealth 8 8
    getF t Reg.pairHealth 0 8 = min (if cap = 0 then 255 else cap) (max 1 (255 - sum)) ∧ (getB t ps 8 = true ↔ p % 4 ≠ 0 ∨ 8 ≤ p)
  let judged := fun (e : Nat) (good : Bool) (s t : State) => let clean := good && (decide (e < s.pair.penFrom) || decide (s.pair.penTo ≤ e)); getF t Reg.pairHealth 24 7 = (if clean = true then min 64 (getF s Reg.pairHealth 24 7 + 1) else 0)
    ∧ (clean = false → t.pair.capClean = 0) ∧ (clean = true → getF s Reg.pairHealth 8 8 = 128 → getB s ps 6 = false → s.pair.capFrom ≤ e → t.pair.capClean = s.pair.capClean + 1 ∧ (63 ≤ s.pair.capClean → capNow t = 255 ∧ health t))
  (∀ dt h prio fl sn s, Ready h (.pairSet prio fl sn) s → let i := Instr.pairSet dt h prio fl sn
    Completes i s fun t => Replied dt h (.pairSet prio fl sn) 0 s t ∧ getF t Reg.pairCtrl 0 4 = prio ∧ getF t Reg.pairCtrl 4 2 = fl ∧ getB t Reg.pairCtrl 6 = getB s Reg.pairCtrl 6 ∧ get64 t Reg.pairPinSnLo = sn % 2 ^ 64
        ∧ t.fw.settings = { s.fw.settings with pairCtrl := prio + fl * 16, pinSn := sn } ∧ t = { tick dt s with regs := t.regs, cmd := t.cmd, fw := t.fw, flash := t.flash, free := t.free } ∧ RegsBut (Reg.pairCtrl :: Reg.pairPinSnLo :: (Reg.pairPinSnLo + 4) :: Reg.setStatus :: ringRegs) s t)
  ∧ (∀ dt h s, Ready h .pairQuery s → Completes (.pairQuery dt h) s (AnswersWith dt h .pairQuery 0 ((4, (rd s ps).toNat) :: (4, (rd s Reg.pairClaim).toNat) :: (4, (rd s Reg.pairHealth).toNat) :: (4, (rd s Reg.pairOffset).toNat) :: [(8, get64 s Reg.pairPartnerSnLo)]) s))
  ∧ (∀ dt h s, Ready h .pairResync s → let linked := getB s ps 0 && getB s ps 4
      (linked = false → Completes (.pairResync dt h) s (AnswersWith dt h .pairResync 0x0A02 [] s))
      ∧ (linked = true → Completes (.pairResync dt h) s fun t => Waits h s t ∧ t.pair.resyncCmds.length = s.pair.resyncCmds.length + 1 ∧ getB t ps 7 = false ∧ t.pair.outbox = s.pair.outbox ++ [(s.pair.txSeq, .resyncRequest)]
          ∧ (getB s ps 1 = false → getB t ps 6 = true ∧ capNow t = 128 ∧ health t) ∧ t = { tick dt s with regs := t.regs, evq := t.evq, cmd := t.cmd, pair := t.pair } ∧ RegsBut (ps :: Reg.pairHealth :: ringRegs) s t))
  ∧ (∀ dt h a s, Ready h (.pairLink a) s →
      (a = 0 → Completes (.pairLink dt h a) s fun t => getB t Reg.pairCtrl 6 = true ∧ getB t ps 0 = false ∧ getF t ps 20 3 = 0 ∧ getF t ps 1 2 = 3 ∧ t.pair.keyed = false ∧ (tagHeld h.tag t).bind (ResEntry.reply) ≠ none)
      ∧ (a = 1 → Completes (.pairLink dt h a) s fun t => Replied dt h (.pairLink a) 0 s t ∧ getB t Reg.pairCtrl 6 = false ∧ getB t ps 0 = getB s ps 0 ∧ (getF s ps 20 3 = 0 → getB s ps 0 = false → getB s ps 4 = true → getF t ps 20 3 = 1) ∧ (getF s ps 20 3 = 5 → t.pair.held = false) ∧ (getF s ps 20 3 ≠ 0 ∨ getB s ps 4 = false → getF t ps 20 3 = getF s ps 20 3)))
  ∧ (∀ dt h first cnt s, Ready h (.pairDigests first cnt) s → let b := Body.pairDigests first cnt; let i := Instr.pairDigests dt h first cnt; let bad := decide (1152 < first + cnt)
      (bad = true → Completes i s (AnswersWith dt h b 0x0A01 [] s)) ∧ (bad = false → getB s ps 0 = false → Completes i s (AnswersWith dt h b 0x0A02 [] s))
      ∧ (bad = false → getB s ps 0 = true → Completes i s fun t => t = { tick dt s with regs := t.regs, cmd := t.cmd, free := t.free } ∧ RegsBut ringRegs s t ∧ ∃ r, t.cmd.waiting = s.cmd.waiting ++ [r] ∧ r.status = 0 ∧ r.resultLen = 8 + 8 * cnt
          ∧ (∀ c, s.pair.lastCmp = some c → bodyLen r.result = r.resultLen → r.result.head? = some (8, c.1) ∧ ∀ n, n < cnt → (∀ v, tabFind (first + n) c.2.1.outputs = some v → nth? r.result (1 + 2 * n) = some (4, v)) ∧ (∀ v, tabFind (first + n) c.2.2.outputs = some v → nth? r.result (2 + 2 * n) = some (4, v)))))
  ∧ (∀ dt s, powered s = true → let u := tick dt s; let mode := modeNow s; let pm := getF s ps 16 3; let standby := (getB s ps 0 || decide (4 ≤ getF s ps 20 3)) && getB s ps 1 == false
      let comparing := getB s ps 0 && getB s ps 4 && s.pair.svcSync == false && decide (1 ≤ mode ∧ mode ≤ 4 ∧ 1 ≤ pm ∧ pm ≤ 4)
      (∀ e, let own := s.pair.own.find? fun x => decide (x.1 = e); let peer := s.pair.peer.find? fun x => decide (x.1 = e)
        (own = none ∨ peer = none ∨ comparing = false → Completes (.digestComparison dt e) s fun t => t = u)
        ∧ (comparing = true → ∀ o p, own = some o → peer = some p → Completes (.digestComparison dt e) s fun t => let partner := p.2
            let bad := (o.2.inputs.filter fun x => decide (tabFind x.1 partner.inputs ≠ some x.2)).map Prod.fst; let near := bad ++ (if s.pair.badInputs.1 + 1 = e then s.pair.badInputs.2 else []); let stateBad := decide (o.2.state ≠ partner.state)
            let outs := (o.2.outputs.filter fun x => decide (tabFind x.1 partner.outputs ≠ some x.2) && decide (x.1 < if mode = 2 then 576 else 1152)).map Prod.fst; let kind := fun d => if (o.2.hits ++ partner.hits).any (onPath u d) = true then 1 else if (closureOf u d).any (fun x => decide (x ∈ near)) = true then 2 else 3
            let n := fun k => (outs.filter fun d => decide (kind d = k)).length; let sys := decide (0 < n 3) || stateBad; let again := sys && getB s ps 7 == false && (match s.pair.resyncDone with
              | some r => decide (r + 8 ≤ e)
              | none => true)
            let soon := sys && getB s ps 7 == false && (match s.pair.resyncDone with
              | some r => decide (r ≤ e ∧ e < r + 8)
              | none => false)
            getF t Reg.pairCmpOwn 0 16 = min 65535 (getF s Reg.pairCmpOwn 0 16 + n 1) ∧ getF t Reg.pairCmpCnt 16 16 = min 65535 (getF s Reg.pairCmpCnt 16 16 + n 2) ∧ getF t Reg.pairCmpCnt 0 16 = min 65535 (getF s Reg.pairCmpCnt 0 16 + n 3 + b2n stateBad)
            ∧ (stateBad = false → ∀ d, outs.getLast? = some d → (rd t Reg.pairLastMis).toNat = d % 2048 + kind d * 4096 + e % 65536 * 65536) ∧ (stateBad = true → getF t Reg.pairLastMis 12 4 = 3 ∧ getF t Reg.pairLastMis 16 16 = e % 65536)
            ∧ (0 < outs.length ∨ stateBad = true → Latched Src.compare noInst 2 t) ∧ (getB t ps 7 = (getB s ps 7 || soon)) ∧ (getB t ps 6 = (getB s ps 6 || again && standby))
            ∧ ((again && standby && getB s ps 6 == false) = true → capNow t = 128) ∧ ((again && standby && getB s ps 6 == false) = false → judged e (outs.isEmpty && !stateBad) s t) ∧ t.pair.lastCmp = some (e, o.2, partner) ∧ t.pair.badInputs = (e, bad)
            ∧ (mode = 2 → ∀ d, d < 576 → ∀ a, tabFind d o.2.outputs = some a → ∀ b, tabFind (d + 576) o.2.outputs = some b → ∀ c, tabFind d partner.outputs = some c → a ≠ b → (b = c → getB t (Reg.mirRailState (d / 288)) 18 = true) ∧ (a = c → getB t (Reg.mirRailState (d / 288)) 19 = true))
            ∧ t = { u with regs := t.regs, evq := t.evq, pair := t.pair, free := t.free } ∧ RegsBut ([ps, Reg.pairHealth, Reg.pairCmpOwn, Reg.pairCmpCnt, Reg.pairLastMis] ++ (if mode = 2 then [Reg.mirRailState 0, Reg.mirRailState 1] else [])) s t))
      ∧ (∀ e, let skip := comparing && decide (e + 3 ≤ epochNow u) && (s.pair.own.any fun x => decide (x.1 = e))
          (skip = false → Completes (.digestSkip dt e) s fun t => t = u)
          ∧ (skip = true → Completes (.digestSkip dt e) s fun t => getF t Reg.pairCmpOwn 16 16 = min 65535 (getF s Reg.pairCmpOwn 16 16 + 1) ∧ judged e false s t ∧ t.pair.own = (s.pair.own.filter fun x => decide (x.1 ≠ e)) ∧ t = { u with regs := t.regs, evq := t.evq, pair := t.pair } ∧ RegsBut [Reg.pairCmpOwn, Reg.pairHealth] s t))
      ∧ (let joined := (getB s ps 0 || decide (4 ≤ getF s ps 20 3)) && getB s ps 4; let asks := joined && decide (server s = 1) && (getB s ps 1 || getB s ps 6 || decide (getF s ps 20 3 = 6))
          (asks = false → Completes (.resyncRequest dt) s fun t => t = u)
          ∧ (asks = true → Completes (.resyncRequest dt) s fun t => getB t ps 6 = true ∧ (getB s ps 1 = true → t.pair = { s.pair with snapDue := true }) ∧ (getB s ps 1 = false → capNow t = 128 ∧ t.pair.outbox = s.pair.outbox ++ [(s.pair.txSeq, .resyncRequest)])
              ∧ t = { u with regs := t.regs, evq := t.evq, pair := t.pair } ∧ RegsBut [ps, Reg.pairHealth] s t))
      ∧ (let idle := getB s ps 6 == false || (getB s ps 0 == false && decide (getF s ps 20 3 ≠ 6)) || (getB s ps 1 == false && !s.pair.snap.any fun x => decide (x.1 + 2 ≤ epochNow u) && decide (u.now % tickEpoch = 0));
          (idle = true → Completes (.resyncComplete dt) s fun t => t = u)
          ∧ (idle = false → Completes (.resyncComplete dt) s fun t => getB t ps 6 = false ∧ t.pair.resyncDone = some (epochNow u) ∧ t.pair.capFrom = epochNow u + 1 ∧ t.pair.resyncCmds = [] ∧ t.pair.svcSync = false
              ∧ (getB s ps 1 = true → t.cmd.waiting.length + t.fw.owed.length = s.cmd.waiting.length + s.fw.owed.length + s.pair.resyncCmds.length ∧ t = { u with regs := t.regs, cmd := t.cmd, fw := t.fw, pair := t.pair } ∧ RegsBut [ps, Reg.planState, Reg.cmdStatus] s t)
              ∧ (getB s ps 1 = false → ∀ b x, s.pair.snap = some (b, x) → (∀ d, d < 1408 → ∀ l, l < 10 → routeOf t d l = (match x.routes.reverse.find? fun r => decide (r.1 = d) && decide (r.2.1 = l) with
                    | some r => r.2.2 % 2048
                    | none => 0x7FF))
                  ∧ t.aud.routes = x.audio ∧ t.plan.tables = { flows := x.flows, safe := x.safe, colour := x.colour, air := x.air } ∧ (rd t Reg.planPatchGen).toNat = x.patchGen % 2 ^ 32 ∧ (s.plan.committed ≠ none → t.plan.patches.length = x.patches.length) ∧ t.ibx.gen = x.generators ∧ t.comp.fmts = x.fmts
                  ∧ t.otp = s.otp ∧ (x.commands = [] → t.ref = s.ref ∧ t.trk = s.trk ∧ t.flash = s.flash ∧ t.mods = s.mods ∧ t.therm = s.therm))))
      ∧ (∀ cls, cls < 4 → let ends := match tabFind cls s.pair.penEpoch with
            | some e => decide (e + 65 ≤ epochNow u)
            | none => false
          (ends = false → Completes (.penaltyRemoval dt cls) s fun t => t = u)
          ∧ (ends = true → Completes (.penaltyRemoval dt cls) s fun t => getB t Reg.pairHealth (16 + cls) = false ∧ health t ∧ tabFind cls t.pair.penEpoch = none ∧ getF t Reg.pairHealth 8 8 = getF s Reg.pairHealth 8 8 ∧ t = { u with regs := t.regs, evq := t.evq, pair := t.pair } ∧ RegsBut [Reg.pairHealth, ps] s t)))

/-! ## Optical modules (20_optical_modules.md) -/

/-- PRESENT leads to IDENT with RESET_N low, released after 10 ms. A module identified by the serving firmware takes its ledger entry, or a new one with the hours it reports, and its cage HELD, IDLE, SERVICE or FAWN by allowlist, mode and baseline. No answer within 2 s in IDENT, or 60 s out of it, a fault flag (kept until the firmware serves), or three samples with access errors fail the cage; a removal empties it. Lines follow the state. A sample adds LASER_SEC since the last one, and life by the acceleration factor at the last temperature read, to the entry; the flags of R720 and R722 are set and stay. The baseline is complete after 600 s of laser time in FAWN, is the mean of the samples of that time, and leads to SERVICE. A copy of the ledger goes to the next of 16 flash slots under the next GEN; one that fails is written to the slot after it. MOD_QUERY, MOD_CONTROL of an empty cage is MOD_ABSENT, of one in IDENT MOD_BUSY; MOD_LEDGER_READ beyond 512 is MOD_RANGE; MOD_PROFILE_SET and MOD_ALLOW_SET save their settings. The exponential's arithmetic is log 40; logs 218 and 219 name the open temperature and baseline. -/
def Obligations.CagesFollowTheirModules : Prop :=
  let st := fun (s : State) (e : Nat) => getF s (Reg.modCageStatus e) 4 3
  let lines := fun (t : State) (e v : Nat) => getF t (Reg.modCageStatus e) 4 3 = v ∧ getB t (Reg.modCageStatus e) 2 = decide (v ≠ 2 ∧ v ≠ 3) ∧ getB t (Reg.modCageStatus e) 3 = decide (v < 2) ∧ (cage t e).tx = decide (v = 2 ∨ v = 3)
  let others := fun (s t : State) (e : Nat) => ∀ f, f < 16 → f ≠ e → cage t f = cage s f ∧ ((cage s f).entry = none ∨ (cage s f).entry ≠ (cage t e).entry → rd t (Reg.modCageStatus f) = rd s (Reg.modCageStatus f))
  let failed := fun (s t : State) (e : Nat) => lines t e 5 ∧ getB t (Reg.modCageStatus e) 13 = true ∧ others s t e ∧ (cageAir s e = true → getB t Reg.pairHealth 16 = true) ∧ (∀ g, g < 4 → st s e = 2 ∨ st s e = 3 → ethUp t (4 * e + g) = false) ∧ t.plan = s.plan ∧ t.take = s.take ∧ t.flash = s.flash ∧ t.otp = s.otp
  let changed := fun (s t : State) (e : Nat) => rd s (Reg.modCageStatus e) ≠ rd t (Reg.modCageStatus e) → st s e ≠ st t e → Latched (Src.module e) noInst 1 t
  let keep := fun (s t : State) => t.plan = s.plan ∧ t.take = s.take ∧ t.otp = s.otp ∧ t.flash = s.flash ∧ t.mem = s.mem ∧ t.ref = s.ref
  (∀ dt s, s.pins.vddLine = true → ∀ e, e < 16 → let u := tick dt s; let a := Reg.modCageStatus e; let here := getB s a 0; let fw := decide (server s = 1); let c := cage s e
    (here = true → Completes (.modulePresent dt e) s fun t => t = u)
    ∧ (here = false → Completes (.modulePresent dt e) s fun t => getB t a 0 = true ∧ lines t e 1 ∧ changed s t e ∧ others s t e ∧ (cage t e).since = u.mono ∧ keep s t)
    ∧ (let ready := decide (st s e = 1) && getB s a 3 && decide (c.since + 10 * tickMs ≤ u.mono)
       (ready = false → Completes (.moduleResetRelease dt e) s fun t => t = u)
       ∧ (ready = true → Completes (.moduleResetRelease dt e) s fun t => getB t a 3 = false ∧ cage t e = { c with since := u.mono } ∧ others s t e ∧ t = { u with regs := t.regs, mods := t.mods } ∧ RegsBut [a] s t))
    ∧ (let late := fw && (decide (st s e = 1) && !getB s a 3 && decide (c.since + 2 * tickSec ≤ u.mono) || decide (st s e = 2 ∨ st s e = 3) && decide (c.since + 60 * tickSec ≤ u.mono))
       (late = false → Completes (.moduleReadyTimeout dt e) s fun t => t = u) ∧ (late = true → Completes (.moduleReadyTimeout dt e) s fun t => failed u t e))
    ∧ (∀ mf tf, let fault := c.fault || mf || tf; let flat := fun (t : State) => t = { u with regs := t.regs, mods := t.mods } ∧ RegsBut [a] s t ∧ others s t e
        (here = false → Completes (.moduleInterrupt dt e mf tf) s fun t => t = u) ∧ (here = true → fw = false → Completes (.moduleInterrupt dt e mf tf) s fun t => getB t a 1 = true ∧ cage t e = { c with fault := fault } ∧ flat t)
        ∧ (here = true → fw = true → fault = false ∨ st s e = 5 → Completes (.moduleInterrupt dt e mf tf) s fun t => getB t a 1 = false ∧ cage t e = { c with fault := false } ∧ flat t)
        ∧ (here = true → fw = true → fault = true → st s e ≠ 5 → Completes (.moduleInterrupt dt e mf tf) s fun t => failed u t e ∧ getB t a 1 = false ∧ (cage t e).fault = false))
    ∧ (here = false → Completes (.moduleRemoved dt e) s fun t => t = u)
    ∧ (here = true → Completes (.moduleRemoved dt e) s fun t => getB t a 0 = false ∧ getB t a 1 = false ∧ lines t e 0 ∧ (∀ g, g < 4 → ethUp t (4 * e + g) = false) ∧ (cage t e).entry = none ∧ (cage t e).fault = false ∧ (cage t e).temp = none ∧ getF t a 16 9 = 0 ∧ getF t a 7 5 = 0 ∧ (rd t (Reg.modLife e)).toNat = 0
        ∧ t.mods.ledger = s.mods.ledger ∧ others s t e ∧ keep s t)
    ∧ (∀ m : ModIdent, let idle := decide (st s e ≠ 1) || getB s a 3 || !fw; let own := fun (x : Nat × LedgerEntry) => decide (x.2.oui = m.oui) && decide (x.2.part = m.part) && decide (x.2.serial = m.serial)
        (idle = true → Completes (.moduleIdentified dt e m) s fun t => t = u)
        ∧ (idle = false → Completes (.moduleIdentified dt e m) s fun t => ∃ i, (cage t e).entry = some i ∧ ∃ x, ledgerEntry? t i = some x ∧ x.cage = e ∧ i < 512 ∧ getF t a 16 9 = i % 512
            ∧ (∀ y, s.mods.ledger.find? own = some y → i = y.1 ∧ x = { y.2 with cage := e, vendor := m.vendor, flags := x.flags } ∧ y.2.flags % 8 = x.flags % 8)
            ∧ (s.mods.ledger.find? own = none → x = { fawnEntry m e with flags := x.flags } ∧ nbit x.flags 0 = true ∧ nbit x.flags 1 = m.hours.isNone ∧ x.life = m.hours.getD 0 * 1000000000000 ∧ x.reported = m.hours.getD 0 * 100)
            ∧ (let passes := !s.fw.settings.allowOn || (s.fw.settings.allow.any fun y => decide (y.2 = (x.oui, x.part))); let used := s.plan.cfg.eths.any fun y => decide (y.port = e)
               lines t e (if passes = false then 4 else if used = false ∨ c.forced = true then 6 else if nbit x.flags 7 = true then 3 else 2)) ∧ changed s t e ∧ others s t e ∧ keep s t))
    ∧ (∀ nacks temp bias, (c.entry.bind (ledgerEntry? s) = none ∨ fw = false → Completes (.moduleLifeSample dt e nacks temp bias) s fun t => t = u)
        ∧ (fw = true → ∀ i, c.entry = some i → ∀ x, ledgerEntry? s i = some x → let bad := decide (3 ≤ nacks); let got := if bad = true then none else temp; let known := got.or c.temp
          Completes (.moduleLifeSample dt e nacks temp bias) s fun t => ∃ y, ledgerEntry? t i = some y ∧ (cage t e).sampled = (rd t (Reg.modLaserSec e)).toNat
            ∧ (let d := ((rd t (Reg.modLaserSec e)).toNat + 2 ^ 32 - c.sampled) % 2 ^ 32; y.laserSec = x.laserSec + d ∧ (∀ v, known = some v → y.life = x.life + lifeStep s.fw.settings.ea d v) ∧ (known = none → ∃ v, y.life = x.life + lifeStep s.fw.settings.ea d v)) ∧ y.lastSeen = u.now / tickSec % 2 ^ 32
            ∧ (∀ k, 3 ≤ k → k ≤ 5 → nbit y.flags k = (nbit x.flags k || decide (s.fw.settings.eol * (if k = 3 then 80 else if k = 4 then 95 else 100) * 10000000000 ≤ y.life)))
            ∧ (cage t e).temp = known ∧ (∀ v, got = some v → y.tempMax = max x.tempMax v) ∧ (got = none → y.tempMax = x.tempMax) ∧ y.base = x.base
            ∧ (bad = false → (cage t e).errRun = 0 ∧ st t e = st s e) ∧ (bad = true → getB t a 12 = true ∧ (c.errRun < 2 → (cage t e).errRun = c.errRun + 1 ∧ st t e = st s e) ∧ (2 ≤ c.errRun → st s e ≠ 5 → failed u t e))
            ∧ (bad = false → (st s e = 2 → ((rd t (Reg.modLaserSec e)).toNat + 2 ^ 32 - c.fawnAt) % 2 ^ 32 ≤ 600 → (cage t e).biasN = c.biasN + 1 ∧ (cage t e).biasSum = if c.biasSum = [] then bias else (c.biasSum.zip bias).map fun z => z.1 + z.2) ∧ (st s e ≠ 2 → (cage t e).biasSum = c.biasSum))
            ∧ (bad = false → st s e = 3 → (∀ z ∈ x.base, 0 < z) → let worse := ((x.base.zip bias).any fun z => decide (3 * z.1 < 2 * z.2)) && decide (9 ≤ c.wornRun); nbit y.flags 2 = (nbit x.flags 2 || worse) ∧ (worse = true → nbit x.flags 2 = false → getB t a 8 = true))
            ∧ others s t e ∧ keep s t))
    ∧ ((c.entry.bind (ledgerEntry? s) = none → Completes (.biasBaselineComplete dt e) s fun t => t = u)
        ∧ (∀ i, c.entry = some i → ∀ x, ledgerEntry? s i = some x → Completes (.biasBaselineComplete dt e) s fun t => let due := decide (st s e = 2) && fw && decide (600 ≤ ((rd t (Reg.modLaserSec e)).toNat + 2 ^ 32 - c.fawnAt) % 2 ^ 32)
            (due = true → lines t e 3 ∧ changed s t e ∧ ∃ y, ledgerEntry? t i = some y ∧ nbit y.flags 7 = true ∧ y.life = x.life ∧ (0 < c.biasN → y.base = c.biasSum.map fun v => v / c.biasN)) ∧ (due = false → t.mods.ledger = s.mods.ledger ∧ RegsBut [Reg.modLaserSec e] s t) ∧ others s t e ∧ keep s t)))
  ∧ (∀ dt s, s.pins.vddLine = true → ∀ ok, let u := tick dt s; let able := decide (server s = 1) && decide (32 ≤ s.flash.mib ∧ s.flash.mib ≤ 256)
      (able = false → Completes (.lifeLedgerCopy dt ok) s fun t => t = u)
      ∧ (able = true → Completes (.lifeLedgerCopy dt ok) s fun t => let last := newestLife s.flash; let k := (last.elim 15 Prod.fst + 1) % 16; let x : LifeCopy := { gen := last.elim 0 (fun y => y.2.gen) + 1, entries := s.mods.ledger, whole := true }
          (∀ j, tabFind j t.flash.life = if ok = true then (if j = k then some x else tabFind j s.flash.life) else if j = (k + 1) % 16 then some x else if j = k then some { x with whole := false } else tabFind j s.flash.life) ∧ t.flash = { s.flash with life := t.flash.life } ∧ getB t Reg.modLedgerStatus 17 = (getB s Reg.modLedgerStatus 17 || !ok)
          ∧ t = { u with regs := t.regs, flash := t.flash } ∧ RegsBut [Reg.modLedgerStatus] s t))
  ∧ (∀ dt h e s, Ready h (.modQuery e) s → let a := Reg.modCageStatus e; let here := getB s a 0
      (here = false → Completes (.modQuery dt h e) s (AnswersWith dt h (.modQuery e) 0x0B02 [] s))
      ∧ (here = true → ∀ i, (cage s e).entry = some i → ∀ x, ledgerEntry? s i = some x → let mon := (rd s (Reg.modMon e)).toNat
          Completes (.modQuery dt h e) s (AnswersWith dt h (.modQuery e) 0 [(4, st s e), (16, x.vendor), (16, x.part), (16, x.serial), (4, (rd s (Reg.modLife e)).toNat), (2, mon % 65536), (2, mon / 65536), (4, (rd s a).toNat)] s)))
  ∧ (∀ dt h eol ea s, Ready h (.modProfileSet eol ea) s → Completes (.modProfileSet dt h eol ea) s fun t => Replied dt h (.modProfileSet eol ea) 0 s t ∧ getF t Reg.modEol 0 20 = eol % 2 ^ 20 ∧ getF t Reg.modEa 0 11 = ea % 2 ^ 11 ∧ t.fw.settings = { s.fw.settings with eol := eol, ea := ea }
      ∧ (forwards s = true → t.pair.outbox = s.pair.outbox ++ [(s.pair.txSeq, .command (.modProfileSet eol ea) (houseFrame (tick dt s)))])
      ∧ (∀ i, i < 512 → (ledgerEntry? t i).map LedgerEntry.life = (ledgerEntry? s i).map LedgerEntry.life) ∧ t = { tick dt s with regs := t.regs, evq := t.evq, cmd := t.cmd, fw := t.fw, flash := t.flash, mods := t.mods, pair := t.pair, free := t.free })
  ∧ (∀ dt h first cnt s, Ready h (.modLedgerRead first cnt) s → let b := Body.modLedgerRead first cnt
      (512 < first + cnt → Completes (.modLedgerRead dt h first cnt) s (AnswersWith dt h b 0x0B01 [] s))
      ∧ (first + cnt ≤ 512 → Completes (.modLedgerRead dt h first cnt) s (AnswersWith dt h b 0 ((upto first cnt).flatMap fun i => match ledgerEntry? s i with
          | some x => if nbit x.flags 0 = true then ledgerBytes x else [(64, 0)]
          | none => [(64, 0)]) s)))
  ∧ (∀ dt h e act s, Ready h (.modControl e act) s → let b := Body.modControl e act; let v := st s e
      (getB s (Reg.modCageStatus e) 0 = false → Completes (.modControl dt h e act) s (AnswersWith dt h b 0x0B02 [] s)) ∧ (getB s (Reg.modCageStatus e) 0 = true → v = 1 → Completes (.modControl dt h e act) s (AnswersWith dt h b 0x0B03 [] s))
      ∧ (getB s (Reg.modCageStatus e) 0 = true → v ≠ 1 → Completes (.modControl dt h e act) s fun t => Replied dt h b 0 s t ∧ others s t e ∧ (act = 0 → lines t e 1 ∧ (cage t e).forced = false) ∧ (act ≠ 0 → (cage t e).forced = decide (act = 1)) ∧ (act ≠ 0 → v = 0 ∨ v = 4 ∨ v = 5 → st t e = v)
          ∧ (act = 1 → v = 2 ∨ v = 3 → fitted? s e ≠ none → (st t e = 6 ∨ st t e = 4) ∧ ∀ g, g < 4 → ethUp t (4 * e + g) = false) ∧ t.flash = s.flash ∧ t.plan = s.plan ∧ t.mods.ledger = s.mods.ledger))
  ∧ (∀ dt h idx fl oui part s, Ready h (.modAllowSet idx fl oui part) s → Completes (.modAllowSet dt h idx fl oui part) s fun t => let allow := if fl % 2 = 1 then tabPut idx (oui, part) s.fw.settings.allow else tabErase idx s.fw.settings.allow
      Replied dt h (.modAllowSet idx fl oui part) 0 s t ∧ t.fw.settings = { s.fw.settings with allow := allow } ∧ (forwards s = true → t.pair.outbox = s.pair.outbox ++ [(s.pair.txSeq, .command (.modAllowSet idx fl oui part) (houseFrame (tick dt s)))])
      ∧ (∀ e, e < 16 → ∀ i, (cage s e).entry = some i → ∀ x, ledgerEntry? s i = some x → let passes := !s.fw.settings.allowOn || (allow.any fun y => decide (y.2 = (x.oui, x.part)))
          (st s e = 4 → st t e = if passes = true then 1 else 4) ∧ (st s e = 2 ∨ st s e = 3 ∨ st s e = 6 → passes = false → st t e = 4 ∧ getB t (Reg.modCageStatus e) 2 = true) ∧ (st s e < 2 ∨ st s e = 5 → st t e = st s e)) ∧ t.mods.ledger = s.mods.ledger)

/-! ## Supplies, sleep and heat (21_supplies_and_thermal.md) -/

/-- A sample keeps each awake sensor's reading, marks one that gives none, or one beyond -40 or 150 °C, FAIL for good, and T_J is the highest working reading of the awake dies and stacks, at least 105 °C where one has none. Level source 0x6F5 stands from 100 °C until below 97 °C; 105 °C calls for the shed list; 110 °C is a THERMAL penalty; 120 °C trips: PLLs off, logic side isolated, THERM_ALERT_N driven, the trip counted once. The list put in force sheds what the committed plan names but nothing on the route to an output on air, none in SERVICE, and asserts 0x6F6; it is lifted after 60 s below 100 °C. Entering sleep turns the quadrant's PLLs, links and Ethernet channels off, saves its latches and sets SLEEP; a wake with PLL 16 locked undoes it; one later than 10 ms plus a house frame sets WAKE_LATE_SEEN with its record. A powered second adds wear by the Arrhenius factor: exactly 1/3600 h at 95 °C, 2.39 to 2.40 of that at 105 °C. The copy to flash goes to the next of 4 slots under the next GEN. TEL_SENSORS clears THM_MAX. The exponential is log 40, THM_POWER is open (log 3), and the order of TEL_WEAR_READ is log 41. -/
def Obligations.HeatSleepAndWear : Prop :=
  (∀ dt h s, Ready h .telSensors s → Completes (.telSensors dt h) s fun t => Answered h .telSensors 0 0 (houseFrame (tick dt s))
      (((upto 0 64).map fun n => (2, if getB s (Reg.thmSensor n) 16 then 0x8000 else getF s (Reg.thmSensor n) 0 16)) ++ [(2, getF s Reg.thmMax 0 16), (1, getF s Reg.thmShed 2 3), (1, 0), (4, getF s Reg.thmPower 0 16)]) s t
      ∧ (rd t Reg.thmMax).toNat = 0 ∧ t = { tick dt s with regs := t.regs, cmd := t.cmd } ∧ RegsBut (Reg.thmMax :: ringRegs) s t ∧ RingKept s t)
  ∧ (∀ dt h s, Ready h .telWearRead s → let w := s.therm.wear
      Completes (.telWearRead dt h) s (AnswersWith dt h .telWearRead 0 [(8, w.wear / 10000000000), (4, w.hot95 / 3600), (4, w.hot105 / 3600), (4, w.starts), (12, 0)] s))
  ∧ (∀ dt s, s.pins.vddLine = true → ∀ l : List (Nat × Option Int), let u := tick dt s; let on := powered s; let trip := s.therm.trip
      Completes (.thermalSample dt l) s fun t => let j := t.therm.tj; let force := getB s Reg.thmShed 0
        let lives := fun n => if n < 48 then awake s (n / 12) else if n < 56 then true else awake s ((n - 56) / 2)
        let works := fun n => lives n && !getB t (Reg.thmSensor n) 16
        (∀ n, n < 64 → ((∀ x, x ∈ l → x.1 ≠ n) ∨ lives n = false → rd t (Reg.thmSensor n) = rd s (Reg.thmSensor n)) ∧ (getB s (Reg.thmSensor n) 16 = true → getB t (Reg.thmSensor n) 16 = true)
            ∧ ((l.filter fun x => decide (x.1 = n)).length = 1 → lives n = true → ∀ x, (l.find? fun x => decide (x.1 = n)) = some x → (∀ v, x.2 = some v → getF t (Reg.thmSensor n) 0 16 = satTwos 16 v ∧ getB t (Reg.thmSensor n) 16 = (getB s (Reg.thmSensor n) 16 || decide (v < -400 ∨ 1500 < v)))
                ∧ (x.2 = none → getF t (Reg.thmSensor n) 0 16 = getF s (Reg.thmSensor n) 0 16 ∧ getB t (Reg.thmSensor n) 16 = true))
            ∧ (works n = true → untwos 16 (getF t (Reg.thmSensor n) 0 16) ≤ j))
        ∧ (∀ q, q < 4 → awake s q = true → ((upto (12 * q) 12).all (fun n => !works n) = true ∨ (upto (56 + 2 * q) 2).all (fun n => !works n) = true → 1050 ≤ j))
        ∧ (((upto 0 64).any fun n => works n && decide (untwos 16 (getF t (Reg.thmSensor n) 0 16) = j)) = false → j = 1050)
        ∧ (1000 ≤ j → getB t Reg.thmStatus 0 = true ∧ Src.hot ∈ t.evq.level) ∧ (j < 970 → getB t Reg.thmStatus 0 = false ∧ Src.hot ∉ t.evq.level) ∧ (970 ≤ j → j < 1000 → getB t Reg.thmStatus 0 = getB s Reg.thmStatus 0 ∧ (Src.hot ∈ t.evq.level ↔ Src.hot ∈ s.evq.level))
        ∧ t.therm.shedDue = (s.therm.shedDue || (decide (1050 ≤ j) && !force)) ∧ t.therm.below = (if force = true ∧ j < 1000 then some (s.therm.below.getD u.mono) else none) ∧ t.therm.items = s.therm.items
        ∧ (1100 ≤ j → on = true → getB t Reg.pairHealth 19 = true ∧ tabFind 3 t.pair.penEpoch = some (epochNow u)) ∧ (j < 1100 ∨ on = false → t.pair = s.pair)
        ∧ (1200 ≤ j → trip = false → (∀ p, p < 20 → getF t (Reg.pllStatus p) 0 3 = 0) ∧ (rd t Reg.cmdStatus).toNat = 0 ∧ getF t Reg.pwrQuad 0 12 = 0 ∧ t.pins.pcieUp = false ∧ t.pins.thermAlert = true ∧ t.therm.wear.trips = s.therm.wear.trips + 1 ∧ t.evq.lineSaved = true)
        ∧ (j < 1200 ∨ trip = true → t.pins = s.pins ∧ t.plls = s.plls ∧ t.therm.wear.trips = s.therm.wear.trips ∧ rd t Reg.cmdStatus = rd s Reg.cmdStatus ∧ rd t Reg.pwrQuad = rd s Reg.pwrQuad) ∧ t.therm.trip = (trip || decide (1200 ≤ j))
        ∧ t.therm.wear.peak = max s.therm.wear.peak j ∧ (let m := untwos 16 (getF s Reg.thmMax 0 16); (m < j → untwos 16 (getF t Reg.thmMax 0 16) = min j 32767) ∧ (j ≤ m → rd t Reg.thmMax = rd s Reg.thmMax))
        ∧ t = { u with regs := t.regs, evq := t.evq, pair := t.pair, therm := t.therm, pins := t.pins, plls := t.plls, free := t.free })
  ∧ (∀ dt s, powered s = true → let u := tick dt s; let idle := !s.therm.shedDue || getB s Reg.thmShed 0
      (idle = true → Completes (.shedListApply dt) s fun t => t = u)
      ∧ (idle = false → Completes (.shedListApply dt) s fun t => getB t Reg.thmShed 0 = true ∧ getB t Reg.thmStatus 1 = true ∧ Src.shed ∈ t.evq.level ∧ t.therm.shedDue = false ∧ t.therm.below = none
          ∧ (let own := fun (m : Nat) => ((s.plan.committed.map Bundle.sections).getD []).find? fun x => decide (x.type = 18) && decide (x.mode = m); let m := s.plan.cfg.mode
             let all := match (own m <|> own 0).map Section.content with | some (.shed es) => es | _ => []
             t.therm.items = (if modeNow s = 5 then [] else all.filter fun e => !(decide (e.kind = 1) && ((headCfg? s e.index).any fun h => decide (h.ret ∈ airRoute s))) && !(decide (e.kind = 4) && ((groupMembers s.plan.cfg.groups true e.index).any fun n => decide (n < 1152) && airIn s n || decide (n ∈ airRoute s))) && !(decide (e.kind = 3) && !channelIdle s e.index)))
          ∧ getF t Reg.thmShed 8 8 = min 255 t.therm.items.length ∧ getF t Reg.thmShed 16 16 = (sumL (t.therm.items.map ShedEntry.power)) % 65536
          ∧ (∀ e, e ∈ t.therm.items → (∀ x, x ∈ s.therm.items → x.kind ≠ e.kind ∨ x.index ≠ e.index) → (e.kind = 1 → ∀ k, k ∈ headsOf s e.index → getB t (Reg.compHeadStatus k) 3 = true ∧ (headTrack t k).shed = true) ∧ (e.kind = 3 → ethUp t e.index = false)
              ∧ (e.kind = 4 → ∀ x, tabFind e.index s.mem.fs = some x → getF t (fsA e.index) 0 2 = 1)) ∧ t.plan = s.plan ∧ t.take = s.take ∧ t.pair = s.pair ∧ t.pins = s.pins))
  ∧ (∀ dt s, powered s = true → let u := tick dt s; let due := getB s Reg.thmShed 0 && s.therm.below.any fun b => decide (b + 60 * tickSec ≤ u.mono)
      (due = false → Completes (.shedListLift dt) s fun t => t = u)
      ∧ (due = true → Completes (.shedListLift dt) s fun t => (rd t Reg.thmShed).toNat = 0 ∧ getB t Reg.thmStatus 1 = false ∧ Src.shed ∉ t.evq.level ∧ t.therm = { s.therm with below := none, items := [] }
          ∧ (∀ e, e ∈ s.therm.items → (e.kind = 1 → ∀ k, k ∈ headsOf s e.index → (headTrack t k).shed = false) ∧ (e.kind = 2 → e.index < 512 → getB t (Reg.prbStatus e.index) 6 = true)) ∧ t.plan = s.plan ∧ t.take = s.take ∧ t.pair = s.pair ∧ t.pins = s.pins))
  ∧ (∀ dt s, powered s = true → ∀ q, q < 4 → let u := tick dt s; let others := fun (t : State) => (∀ p, p < 4 → p ≠ q → awake t p = awake s p) ∧ (∀ j, j < 20 → j / 4 ≠ q → rd t (Reg.pllStatus j) = rd s (Reg.pllStatus j)) ∧ t.plan = s.plan ∧ t.take = s.take ∧ t.otp = s.otp ∧ t.flash = s.flash ∧ t.therm.wear = s.therm.wear
      (getB s Reg.pwrQuad (8 + q) = false → Completes (.quadrantSleepEntry dt q) s fun t => t = u)
      ∧ (getB s Reg.pwrQuad (8 + q) = true → Completes (.quadrantSleepEntry dt q) s fun t => awake t q = false ∧ getB t Reg.pwrQuad (8 + q) = false ∧ getB t (Reg.memStatus q) 5 = true ∧ getB t (Reg.memStatus q) 0 = false ∧ others t
          ∧ (∀ j, j < 4 → getF t (Reg.pllStatus (4 * q + j)) 0 3 = 0) ∧ (∀ g, g < 16 → ethUp t (16 * q + g) = false) ∧ (∀ n, n < 18 → getF t (Reg.trkLinkStatus (18 * q + n)) 0 3 = 0)
          ∧ (∀ p, p ∈ t.evq.host.pend → srcQuad p.src ≠ some q) ∧ (∀ p, p ∈ s.evq.host.pend → srcQuad p.src = some q → ∃ r ∈ tabGet [] q t.evq.saved, r.src = p.src))
      ∧ (getB s Reg.pwrQuad (4 + q) = false ∨ pllLocked s 16 = false → Completes (.quadrantWake dt q) s fun t => t = u)
      ∧ (getB s Reg.pwrQuad (4 + q) = true → pllLocked s 16 = true → Completes (.quadrantWake dt q) s fun t => awake t q = true ∧ getB t Reg.pwrQuad (4 + q) = false ∧ getB t (Reg.memStatus q) 5 = false ∧ getB t (Reg.memStatus q) 0 = true ∧ others t ∧ tabFind q t.therm.wakeAt = none
          ∧ (∀ j, j < 4 → getF t (Reg.pllStatus (4 * q + j)) 0 4 = 3) ∧ (∀ n, n < 18 → getB s (Reg.trkLinkCtrl (18 * q + n)) 0 = true → getF t (Reg.trkLinkStatus (18 * q + n)) 0 8 = 1 ∧ (linkTrack t (18 * q + n)).since = u.mono)
          ∧ t.evq.host.pend = s.evq.host.pend ++ tabGet [] q s.evq.saved ∧ tabFind q t.evq.saved = none)
      ∧ (let r := houseRate s; let late := (tabFind q s.therm.wakeAt).any fun b => decide (b + 10 * tickMs + (r.2 * tickSec + r.1 - 1) / r.1 ≤ u.mono)
         (late = false → Completes (.wakeLate dt q) s fun t => t = u) ∧ (late = true → Completes (.wakeLate dt q) s fun t => getB t Reg.pwrQuad 12 = true ∧ (getB s Reg.pwrQuad 12 = false → canLatch s (Src.quad q 7) = true → Latched (Src.quad q 7) noInst 2 t) ∧ RegsEvents [Reg.pwrQuad] dt s t)))
  ∧ (∀ dt s, s.pins.vddLine = true → let u := tick dt s; let w := s.therm.wear; let j := s.therm.tj
      (powered s = false → Completes (.wearAccrual dt) s fun t => t = u)
      ∧ (powered s = true → Completes (.wearAccrual dt) s fun t => let d := t.therm.wear.wear - w.wear; t.therm = { s.therm with wear := { w with wear := w.wear + d, hot95 := w.hot95 + (if 950 < j then 1 else 0), hot105 := w.hot105 + (if 1050 < j then 1 else 0) } }
          ∧ (j = 950 → d = 277777777) ∧ (j = 1050 → 277777777 * 239 ≤ 100 * d ∧ 100 * d ≤ 277777777 * 241) ∧ get64 t Reg.wearLo = (w.wear + d) / 10000000000 % 2 ^ 64 ∧ getF t Reg.wearHot 0 16 = min 65535 (t.therm.wear.hot95 / 3600)
          ∧ t = { u with regs := t.regs, therm := t.therm } ∧ RegsBut [Reg.wearLo, Reg.wearLo + 4, Reg.wearHot, Reg.wearEvents] s t)
      ∧ ∀ ok, let able := decide (server s = 1) && decide (32 ≤ s.flash.mib ∧ s.flash.mib ≤ 256)
        (able = false → Completes (.wearLedgerCopy dt ok) s fun t => t = u)
        ∧ (able = true → Completes (.wearLedgerCopy dt ok) s fun t => t = { u with flash := { s.flash with wear := t.flash.wear } } ∧ let last := newestWear s.flash; let k := (last.elim 3 Prod.fst + 1) % 4
            ∃ x, tabFind k t.flash.wear = some x ∧ x.whole = ok ∧ x.gen = last.elim 0 (fun y => y.2.gen) + 1 ∧ x.wear.wear = w.wear - w.wear % 10000000000 ∧ x.wear.hot95 / 3600 = w.hot95 / 3600 ∧ x.wear.hot105 / 3600 = w.hot105 / 3600 ∧ x.wear.starts = w.starts ∧ x.wear.trips = w.trips ∧ x.wear.peak = w.peak
              ∧ ∀ j, j ≠ k → tabFind j t.flash.wear = tabFind j s.flash.wear))

/-! ## SERVICE (24_service_mode.md) -/

/-- SVC_ENTER outside SERVICE is armed at once for the first house frame 2 ms ahead, or APPLY_AT, and forces role priority 0; SVC_LEAVE in SERVICE does so 10 ms ahead towards the mode at entry, and ends every test with SVC_STATE. Elsewhere both are SVC_STATE, and PLAN_LATE too early. SVC_TEST starts unless a test of its unit runs, when it waits; SVC_STATE outside SERVICE and SVC_RANGE for a UNIT or PARAM outside the table. A test that ends, while its firmware serves, answers OK or SVC_FAIL with the head of R808 and the fields of R809, and leaves the others; the memory, logic and engine tests pass when nothing is found, the others as the operand says (log 220); the next of its unit starts; an ENGINE test that passes brings a failed engine back and clears its faults; a PATTERN test sets its output. SVC_REPAIR replaces stuck addresses of its stack, no others, and counts them. TEL_COUNTERS answers TEL_RANGE outside R813, or every counting field in ascending order, eight bytes each, and clears exactly these with CLEAR. A pending commit is SVC_STATE (log 60); the number of spare rows is open (log 62). -/
def Obligations.ServiceTestsAndCounters : Prop :=
  let refused := fun (dt : Nat) (h : Hdr) (b : Body) (st : Nat) (s t : State) => Replied dt h b st s t ∧ getF t Reg.planLastStatus 0 16 = st ∧ t = { tick dt s with regs := t.regs, cmd := t.cmd } ∧ RegsBut (Reg.planLastStatus :: Reg.planRejects :: ringRegs) s t
  let moving := fun (dt lead : Nat) (h : Hdr) (k : ChangeKind) (mode : Nat) (s t : State) => let f := applyFor lead h (tick dt s)
    getB t Reg.planState 11 = true ∧ getF t Reg.planState 10 2 = 3 ∧ getF t Reg.planState 4 3 = mode % 8 ∧ get64 t Reg.planApplyFrameLo = f % 2 ^ 64 ∧ modeNow t = modeNow s
      ∧ t.plan = { s.plan with pending := t.plan.pending } ∧ ∃ p, t.plan.pending = some p ∧ p.kind = k ∧ p.mode = mode ∧ p.frame = f ∧ p.start = frameStart (tick dt s) f ∧ p.armed = true ∧ p.partnerArmed = true ∧ p.applied = false ∧ p.held = false ∧ p.cmd.pkt.hdr = h
  let serving := fun (s : State) => decide (modeNow s = 5) && s.plan.pending.isNone
  let key := fun (test unit : Nat) => if test = 6 then (5, unit / 8) else (test, unit)
  let units := fun (test : Nat) => ((nth? [0, 4, 2, 4, 128, 72, 576, 16, 1152, 20] test).getD 0)
  let paramOk := fun (test p : Nat) => if test = 4 then decide (1 ≤ p ∧ p < 65536) else if test = 5 then decide (p < 65536 ∧ p / 64 % 4 = 0 ∧ 256 ≤ p) else if test = 6 then decide (p / 64 % 4 = 0 ∧ p / 2048 % 32 = 0 ∧ 16 ≤ p / 65536 ∧ p / 65536 < 32)
    else if test = 7 then decide (p < 2) else if test = 8 then decide (p < 2 ^ 28 ∧ p % 256 < 7 ∧ p / 256 % 256 = 0) else decide (p = 0)
  (∀ dt h s, Ready h .svcEnter s → let u := tick dt s; let no := decide (5 ≤ modeNow s) || s.plan.pending.isSome
      (no = true → Completes (.svcEnter dt h) s (refused dt h .svcEnter 0x0E02 s)) ∧ (no = false → TooLate (2 * tickMs) h u → Completes (.svcEnter dt h) s (refused dt h .svcEnter 0x020B s))
      ∧ (no = false → ¬ TooLate (2 * tickMs) h u → Completes (.svcEnter dt h) s fun t => Waits h s t ∧ t.pair = { s.pair with prioZero := true } ∧ moving dt (2 * tickMs) h .svcEnter 5 s t ∧ t.svc = s.svc ∧ t.take = s.take))
  ∧ (∀ dt h s, Ready h .svcLeave s → let u := tick dt s
      (serving s = false → Completes (.svcLeave dt h) s (refused dt h .svcLeave 0x0E02 s)) ∧ (serving s = true → TooLate (10 * tickMs) h u → Completes (.svcLeave dt h) s (refused dt h .svcLeave 0x020B s))
      ∧ (serving s = true → ¬ TooLate (10 * tickMs) h u → s.svc.mode < 6 → Completes (.svcLeave dt h) s fun t => t.svc = { s.svc with tests := [] } ∧ moving dt (10 * tickMs) h .svcLeave s.svc.mode s t ∧ t.take = s.take ∧ t.pair.prioZero = s.pair.prioZero
          ∧ (∀ j, j ∈ s.svc.tests → j.cmd.origin = .host → ∃ r ∈ t.cmd.waiting, r.tag = j.cmd.pkt.hdr.tag ∧ r.status = 0x0E02) ∧ (s.svc.tests = [] → t.cmd.waiting = s.cmd.waiting)
          ∧ (∀ n, n < 72 → getB t (Reg.trkLinkCtrl n) 6 = false ∧ (getB s (Reg.trkLinkCtrl n) 6 = true → ∀ m, m < 8 → getF t (Reg.trkLaneCtrl (8 * n + m)) 12 2 = 0 ∧ getB t (Reg.trkPrbsRx (8 * n + m)) 0 = false ∧ getB t (Reg.trkTxCtrl (8 * n + m)) 0 = false))
          ∧ (∀ p, p < 16 → getB t (Reg.ethPortCtrl p) 1 = false)))
  ∧ (∀ dt h test unit param s, Ready h (.svcTest test unit param) s → let u := tick dt s; let b := Body.svcTest test unit param; let ok := decide (unit < units test) && paramOk test param
      (serving s = false → Completes (.svcTest dt h test unit param) s (AnswersWith dt h b 0x0E02 [] s)) ∧ (serving s = true → ok = false → Completes (.svcTest dt h test unit param) s (AnswersWith dt h b 0x0E01 [] s))
      ∧ (serving s = true → ok = true → Completes (.svcTest dt h test unit param) s fun t => t.take = s.take ∧ (test ≠ 2 → Waits h s t ∧ t.plan = s.plan ∧ ∃ j, t.svc.tests = s.svc.tests ++ [j] ∧ j.test = test ∧ j.unit = unit ∧ j.param = param ∧ j.start = u.mono ∧ j.cmd.pkt = { hdr := h, body := b }) ∧ (test = 2 → ∃ j ∈ t.svc.tests, j.test = 2 ∧ j.unit = unit ∧ j.cmd.pkt = { hdr := h, body := b })
          ∧ (let busy := s.svc.tests.any fun x => decide (key x.test x.unit = key test unit)
             (busy = true → t.trk = s.trk ∧ t.fw = s.fw ∧ RegsBut ringRegs s t) ∧ (busy = false → test = 7 → getB t (Reg.ethPortCtrl unit) 1 = true) ∧ (busy = false → test = 2 → server t = 2)
             ∧ (busy = false → test = 5 → getB t (Reg.trkLinkCtrl unit) 6 = true ∧ ∀ m, m < 8 → getB t (Reg.trkPrbsRx (8 * unit + m)) 0 = true ∧ getF t (Reg.trkLaneCtrl (8 * unit + m)) 12 2 = param / 16 % 4)
             ∧ (busy = false → test = 6 → getB t (Reg.trkLinkCtrl (unit / 8)) 6 = true ∧ getF t (Reg.trkLaneCtrl unit) 8 3 = param / 256 % 8)
             ∧ (busy = false → test = 3 → unit ∈ t.svc.tested ∧ (∀ n, n < 18 → getF t (Reg.trkLinkStatus (18 * unit + n)) 0 3 = 0) ∧ (unit = 0 → getF t Reg.mirLinkStatus 0 3 = 0)))))
  ∧ (∀ dt test unit r s, powered s = true → let u := tick dt s; let here := fun (x : SvcJob) => decide (key x.test x.unit = key test unit); let due := (s.svc.tests.find? here).any fun j => decide (j.test = test ∧ j.unit = unit ∧ server s = (if test = 2 then 2 else 1))
      (due = false → Completes (.svcTestComplete dt test unit r) s fun t => t = u)
      ∧ (due = true → ∀ j, s.svc.tests.find? here = some j → Completes (.svcTestComplete dt test unit r) s fun t => t.svc.tests.length + 1 = s.svc.tests.length ∧ (∀ x, x ∈ s.svc.tests → here x = false → x ∈ t.svc.tests)
          ∧ t.plan = s.plan ∧ t.take = s.take ∧ t.otp = s.otp ∧ t.flash = s.flash
          ∧ (∀ n, ((s.svc.tests.filter here).drop 1).head? = some n → { n with start := u.mono } ∈ t.svc.tests)
          ∧ (let bad := fun (l : List Nat) => (l.filter fun x => decide (x ≠ Config.engineSignature)).length; let sent := fun (k : Nat) => if k = 0 ∨ nbit j.param 0 = true then 1000000 else 0; let lanes := (upto 0 8).map fun m => (get64 s (Reg.trkPrbsErrLo (8 * unit + m)), get64 s (Reg.trkPrbsBitsLo (8 * unit + m)))
             let errs := match r.data with
               | .memory l => l.length
               | .logic v => ((upto 0 32).filter fun k => nbit v k).length
               | .engine l ue => bad l + ue
               | .eye l => sumL l
               | .eth l => sumL (((upto 0 l.length).zip l).map fun x => sent x.1 - x.2.1)
               | .plain => if test = 5 then sumL (lanes.map Prod.fst) else 0;
             let pass := if test ≤ 4 then decide (errs = 0) else r.pass
             let fields := match r.data with
               | .memory l => (4, l.length) :: (l.take 64).map fun a => (8, a)
               | .logic v => [(4, v)]
               | .engine l ue => [(4, l.length), (4, bad l), (4, ue)]
               | .eye l => l.map fun v => (4, min (2 ^ 32 - 1) v)
               | .eth l => ((upto 0 l.length).zip l).flatMap fun x => [(8, sent x.1), (8, x.2.1), (8, x.2.2)]
               | .plain => if test = 5 then lanes.flatMap fun x => [(8, x.1), (8, x.2)] else if test = 9 then [(4, getF s (Reg.pllLockTime unit) 0 24), (1, getF s (Reg.pllStatus unit) 8 6), (3, 0)] else [];
             let body := [(2, j.test), (2, j.unit), (1, if pass = true then 0 else 1), (3, 0), (4, min (2 ^ 32 - 1) ((u.mono - j.start) / 297000)), (4, min (2 ^ 32 - 1) errs)] ++ fields; let st := if pass = true then 0 else 0x0E03
             (test ≠ 2 → j.cmd.origin = .host → ∃ x ∈ t.cmd.waiting, x.tag = j.cmd.pkt.hdr.tag ∧ x.status = st ∧ x.resultLen = bodyLen body) ∧ (test = 2 → ∃ x ∈ t.fw.owed, x.cmd = j.cmd ∧ x.status = st ∧ x.result = body)
          ∧ (test = 4 → pass = true → getF t (Reg.ibxStatus unit) 8 4 = 0 ∧ getF t (Reg.ibxStatus unit) 0 2 < 3 ∧ (engTrack t unit).faults = []) ∧ (test = 4 → pass = false → t.ibx = s.ibx ∧ getF t (Reg.ibxStatus unit) 0 2 = getF s (Reg.ibxStatus unit) 0 2)
          ∧ (test = 8 → pass = true → (outTrack t unit).pattern = some j.param) ∧ (test = 8 → pass = false → t.port = s.port)
          ∧ (test = 1 → (∀ a x, tabFind a s.mem.slates = some x → (tabFind a t.mem.slates).map Slate.zeroed = some (setIns unit x.zeroed)) ∧ t.mem.stuck = s.mem.stuck) ∧ (test ≠ 1 → t.mem = s.mem))))
  ∧ (∀ dt h stack s, Ready h (.svcRepair stack) s → let b := Body.svcRepair stack
      (serving s = false → Completes (.svcRepair dt h stack) s (AnswersWith dt h b 0x0E02 [] s))
      ∧ (serving s = true → Completes (.svcRepair dt h stack) s fun t => let n := t.mem.repaired.length - s.mem.repaired.length; let due := (s.mem.stuck.filter fun x => decide (x.1 = stack)).length
          n = min due (Config.spareRows stack - (s.mem.repaired.filter fun x => decide (x.1 = stack)).length) ∧ Answered h b (if n = due then 0 else 0x0E03) 0 (houseFrame (tick dt s)) [(4, n)] s t ∧ n ≤ due ∧ t.mem = { s.mem with stuck := t.mem.stuck, repaired := t.mem.repaired } ∧ t.mem.repaired.take s.mem.repaired.length = s.mem.repaired
          ∧ (t.mem.repaired.drop s.mem.repaired.length).all (fun x => decide (x ∈ s.mem.stuck) && decide (x.1 = stack) && decide (x ∉ t.mem.stuck)) = true ∧ (∀ x, x ∈ s.mem.stuck → x.1 ≠ stack → x ∈ t.mem.stuck) ∧ (∀ x, x ∈ t.mem.stuck → x ∈ s.mem.stuck)
          ∧ t = { tick dt s with regs := t.regs, cmd := t.cmd, mem := t.mem } ∧ RegsBut ringRegs s t))
  ∧ (∀ dt h block index clear s, Ready h (.telCounters block index clear) s → let b := Body.telCounters block index clear; let n := (nth? [0, 4, 1152, 1152, 4, 1408, 72, 64, 4608, 128, 96, 4, 20, 1, 1, 1, 1] block).getD 0
      (n ≤ index → Completes (.telCounters dt h block index clear) s (AnswersWith dt h b 0x0C01 [] s))
      ∧ (index < n → let v := blockSettle block index (taken h (tick dt s)); let l := blockCounters block index
          (l.map fun x => x.addr * 32 + x.lo).Pairwise (· < ·) ∧ (clear % 2 = 0 → Completes (.telCounters dt h block index clear) s fun t => Answered h b 0 0 (houseFrame v) (l.map fun x => (8, counterGet v x)) s t ∧ t = { v with regs := t.regs, cmd := t.cmd } ∧ RegsBut ringRegs v t)
          ∧ (clear % 2 = 1 → Completes (.telCounters dt h block index clear) s fun t => Answered h b 0 0 (houseFrame v) (l.map fun x => (8, counterGet v x)) s t ∧ (∀ x, x ∈ l → counterGet t x = 0) ∧ t = { v with regs := t.regs, cmd := t.cmd } ∧ RegsBut (ringRegs ++ l.flatMap fun x => [x.addr, x.addr + 4]) v t)))

/-! ## The whole machine -/

/-- Whatever command a step takes, from every state whose OTP holds four owner-key slots, one of them valid while the owner policy bit is set, the next state has these again. No OTP bit is cleared: the serial number stays, the anti-rollback floor only rises, a set owner policy stays set, and of each slot every hash bit, VALID and REVOKED stay set once they are set. -/
def Obligations.EveryStepKeepsTheOneTimeMemory : Prop :=
  ∀ s t : State, OtpSound s.otp → step s = .next t → OtpSound t.otp ∧ OtpKept s.otp t.otp

/-- The four owner-key slots are there and no owner policy is set. That a slot of a new unit holds no bit, and the serial number, are the model's choice (log 97 and log 3). -/
def Obligations.OneTimeMemoryIsSoundAtReset : Prop := OtpSound State.reset.otp ∧ State.reset.otp.ownerOnly = false

/-- While the logic side is not powered, let every waiting command be one that does not belong to the line side, the supplies or the reference clocks. Every run of such commands goes through, and after any number of its steps nothing has changed but the time and the queue: no register, no route, no store, no reply, no event, no OTP bit. That a command given to an unpowered logic side lets its time pass and has no other effect is log 6. -/
def Obligations.LogicSideIsStillWhileOff : Prop :=
  ∀ (s : State) (n : Nat), powered s = false → (∀ c ∈ s.pending, lineCommand c = false) →
    ∃ t, stepsFrom n s = some t ∧ t = { s with now := t.now, mono := t.mono, pending := s.pending.drop n } ∧ powered t = false
end

