-- ==== Sys2Proof/Laws/State.lean ====
section
/-! SUPPORT. What the shared updates of the state leave as it was: one lemma per field. -/

namespace Sys2Proof.Machine

/-! ## `tick` -/

@[simp] theorem tick_pins (dt : Nat) (s : State) : (tick dt s).pins = s.pins := rfl
@[simp] theorem tick_regs (dt : Nat) (s : State) : (tick dt s).regs = s.regs := rfl
@[simp] theorem tick_latch (dt : Nat) (s : State) : (tick dt s).latch = s.latch := rfl
@[simp] theorem tick_readData (dt : Nat) (s : State) : (tick dt s).readData = s.readData := rfl
@[simp] theorem tick_cmd (dt : Nat) (s : State) : (tick dt s).cmd = s.cmd := rfl
@[simp] theorem tick_evq (dt : Nat) (s : State) : (tick dt s).evq = s.evq := rfl
@[simp] theorem tick_plan (dt : Nat) (s : State) : (tick dt s).plan = s.plan := rfl
@[simp] theorem tick_take (dt : Nat) (s : State) : (tick dt s).take = s.take := rfl
@[simp] theorem tick_port (dt : Nat) (s : State) : (tick dt s).port = s.port := rfl
@[simp] theorem tick_mem (dt : Nat) (s : State) : (tick dt s).mem = s.mem := rfl
@[simp] theorem tick_sched (dt : Nat) (s : State) : (tick dt s).sched = s.sched := rfl
@[simp] theorem tick_trk (dt : Nat) (s : State) : (tick dt s).trk = s.trk := rfl
@[simp] theorem tick_eth (dt : Nat) (s : State) : (tick dt s).eth = s.eth := rfl
@[simp] theorem tick_flow (dt : Nat) (s : State) : (tick dt s).flow = s.flow := rfl
@[simp] theorem tick_ibx (dt : Nat) (s : State) : (tick dt s).ibx = s.ibx := rfl
@[simp] theorem tick_comp (dt : Nat) (s : State) : (tick dt s).comp = s.comp := rfl
@[simp] theorem tick_aud (dt : Nat) (s : State) : (tick dt s).aud = s.aud := rfl
@[simp] theorem tick_ref (dt : Nat) (s : State) : (tick dt s).ref = s.ref := rfl
@[simp] theorem tick_plls (dt : Nat) (s : State) : (tick dt s).plls = s.plls := rfl
@[simp] theorem tick_time (dt : Nat) (s : State) : (tick dt s).time = s.time := rfl
@[simp] theorem tick_pair (dt : Nat) (s : State) : (tick dt s).pair = s.pair := rfl
@[simp] theorem tick_fw (dt : Nat) (s : State) : (tick dt s).fw = s.fw := rfl
@[simp] theorem tick_flash (dt : Nat) (s : State) : (tick dt s).flash = s.flash := rfl
@[simp] theorem tick_otp (dt : Nat) (s : State) : (tick dt s).otp = s.otp := rfl
@[simp] theorem tick_sec (dt : Nat) (s : State) : (tick dt s).sec = s.sec := rfl
@[simp] theorem tick_mods (dt : Nat) (s : State) : (tick dt s).mods = s.mods := rfl
@[simp] theorem tick_therm (dt : Nat) (s : State) : (tick dt s).therm = s.therm := rfl
@[simp] theorem tick_svc (dt : Nat) (s : State) : (tick dt s).svc = s.svc := rfl
@[simp] theorem tick_jtag (dt : Nat) (s : State) : (tick dt s).jtag = s.jtag := rfl
@[simp] theorem tick_free (dt : Nat) (s : State) : (tick dt s).free = s.free := rfl
@[simp] theorem tick_pending (dt : Nat) (s : State) : (tick dt s).pending = s.pending := rfl

/-! ## `wr` -/

@[simp] theorem wr_now (a : Nat) (v : Word) (s : State) : (wr a v s).now = s.now := rfl
@[simp] theorem wr_mono (a : Nat) (v : Word) (s : State) : (wr a v s).mono = s.mono := rfl
@[simp] theorem wr_pins (a : Nat) (v : Word) (s : State) : (wr a v s).pins = s.pins := rfl
@[simp] theorem wr_latch (a : Nat) (v : Word) (s : State) : (wr a v s).latch = s.latch := rfl
@[simp] theorem wr_readData (a : Nat) (v : Word) (s : State) : (wr a v s).readData = s.readData := rfl
@[simp] theorem wr_cmd (a : Nat) (v : Word) (s : State) : (wr a v s).cmd = s.cmd := rfl
@[simp] theorem wr_evq (a : Nat) (v : Word) (s : State) : (wr a v s).evq = s.evq := rfl
@[simp] theorem wr_plan (a : Nat) (v : Word) (s : State) : (wr a v s).plan = s.plan := rfl
@[simp] theorem wr_take (a : Nat) (v : Word) (s : State) : (wr a v s).take = s.take := rfl
@[simp] theorem wr_port (a : Nat) (v : Word) (s : State) : (wr a v s).port = s.port := rfl
@[simp] theorem wr_mem (a : Nat) (v : Word) (s : State) : (wr a v s).mem = s.mem := rfl
@[simp] theorem wr_sched (a : Nat) (v : Word) (s : State) : (wr a v s).sched = s.sched := rfl
@[simp] theorem wr_trk (a : Nat) (v : Word) (s : State) : (wr a v s).trk = s.trk := rfl
@[simp] theorem wr_eth (a : Nat) (v : Word) (s : State) : (wr a v s).eth = s.eth := rfl
@[simp] theorem wr_flow (a : Nat) (v : Word) (s : State) : (wr a v s).flow = s.flow := rfl
@[simp] theorem wr_ibx (a : Nat) (v : Word) (s : State) : (wr a v s).ibx = s.ibx := rfl
@[simp] theorem wr_comp (a : Nat) (v : Word) (s : State) : (wr a v s).comp = s.comp := rfl
@[simp] theorem wr_aud (a : Nat) (v : Word) (s : State) : (wr a v s).aud = s.aud := rfl
@[simp] theorem wr_ref (a : Nat) (v : Word) (s : State) : (wr a v s).ref = s.ref := rfl
@[simp] theorem wr_plls (a : Nat) (v : Word) (s : State) : (wr a v s).plls = s.plls := rfl
@[simp] theorem wr_time (a : Nat) (v : Word) (s : State) : (wr a v s).time = s.time := rfl
@[simp] theorem wr_pair (a : Nat) (v : Word) (s : State) : (wr a v s).pair = s.pair := rfl
@[simp] theorem wr_fw (a : Nat) (v : Word) (s : State) : (wr a v s).fw = s.fw := rfl
@[simp] theorem wr_flash (a : Nat) (v : Word) (s : State) : (wr a v s).flash = s.flash := rfl
@[simp] theorem wr_otp (a : Nat) (v : Word) (s : State) : (wr a v s).otp = s.otp := rfl
@[simp] theorem wr_sec (a : Nat) (v : Word) (s : State) : (wr a v s).sec = s.sec := rfl
@[simp] theorem wr_mods (a : Nat) (v : Word) (s : State) : (wr a v s).mods = s.mods := rfl
@[simp] theorem wr_therm (a : Nat) (v : Word) (s : State) : (wr a v s).therm = s.therm := rfl
@[simp] theorem wr_svc (a : Nat) (v : Word) (s : State) : (wr a v s).svc = s.svc := rfl
@[simp] theorem wr_jtag (a : Nat) (v : Word) (s : State) : (wr a v s).jtag = s.jtag := rfl
@[simp] theorem wr_free (a : Nat) (v : Word) (s : State) : (wr a v s).free = s.free := rfl
@[simp] theorem wr_pending (a : Nat) (v : Word) (s : State) : (wr a v s).pending = s.pending := rfl

/-! ## `putF` -/

@[simp] theorem putF_now (a lo n v : Nat) (s : State) : (putF a lo n v s).now = s.now := rfl
@[simp] theorem putF_mono (a lo n v : Nat) (s : State) : (putF a lo n v s).mono = s.mono := rfl
@[simp] theorem putF_pins (a lo n v : Nat) (s : State) : (putF a lo n v s).pins = s.pins := rfl
@[simp] theorem putF_latch (a lo n v : Nat) (s : State) : (putF a lo n v s).latch = s.latch := rfl
@[simp] theorem putF_readData (a lo n v : Nat) (s : State) : (putF a lo n v s).readData = s.readData := rfl
@[simp] theorem putF_cmd (a lo n v : Nat) (s : State) : (putF a lo n v s).cmd = s.cmd := rfl
@[simp] theorem putF_evq (a lo n v : Nat) (s : State) : (putF a lo n v s).evq = s.evq := rfl
@[simp] theorem putF_plan (a lo n v : Nat) (s : State) : (putF a lo n v s).plan = s.plan := rfl
@[simp] theorem putF_take (a lo n v : Nat) (s : State) : (putF a lo n v s).take = s.take := rfl
@[simp] theorem putF_port (a lo n v : Nat) (s : State) : (putF a lo n v s).port = s.port := rfl
@[simp] theorem putF_mem (a lo n v : Nat) (s : State) : (putF a lo n v s).mem = s.mem := rfl
@[simp] theorem putF_sched (a lo n v : Nat) (s : State) : (putF a lo n v s).sched = s.sched := rfl
@[simp] theorem putF_trk (a lo n v : Nat) (s : State) : (putF a lo n v s).trk = s.trk := rfl
@[simp] theorem putF_eth (a lo n v : Nat) (s : State) : (putF a lo n v s).eth = s.eth := rfl
@[simp] theorem putF_flow (a lo n v : Nat) (s : State) : (putF a lo n v s).flow = s.flow := rfl
@[simp] theorem putF_ibx (a lo n v : Nat) (s : State) : (putF a lo n v s).ibx = s.ibx := rfl
@[simp] theorem putF_comp (a lo n v : Nat) (s : State) : (putF a lo n v s).comp = s.comp := rfl
@[simp] theorem putF_aud (a lo n v : Nat) (s : State) : (putF a lo n v s).aud = s.aud := rfl
@[simp] theorem putF_ref (a lo n v : Nat) (s : State) : (putF a lo n v s).ref = s.ref := rfl
@[simp] theorem putF_plls (a lo n v : Nat) (s : State) : (putF a lo n v s).plls = s.plls := rfl
@[simp] theorem putF_time (a lo n v : Nat) (s : State) : (putF a lo n v s).time = s.time := rfl
@[simp] theorem putF_pair (a lo n v : Nat) (s : State) : (putF a lo n v s).pair = s.pair := rfl
@[simp] theorem putF_fw (a lo n v : Nat) (s : State) : (putF a lo n v s).fw = s.fw := rfl
@[simp] theorem putF_flash (a lo n v : Nat) (s : State) : (putF a lo n v s).flash = s.flash := rfl
@[simp] theorem putF_otp (a lo n v : Nat) (s : State) : (putF a lo n v s).otp = s.otp := rfl
@[simp] theorem putF_sec (a lo n v : Nat) (s : State) : (putF a lo n v s).sec = s.sec := rfl
@[simp] theorem putF_mods (a lo n v : Nat) (s : State) : (putF a lo n v s).mods = s.mods := rfl
@[simp] theorem putF_therm (a lo n v : Nat) (s : State) : (putF a lo n v s).therm = s.therm := rfl
@[simp] theorem putF_svc (a lo n v : Nat) (s : State) : (putF a lo n v s).svc = s.svc := rfl
@[simp] theorem putF_jtag (a lo n v : Nat) (s : State) : (putF a lo n v s).jtag = s.jtag := rfl
@[simp] theorem putF_free (a lo n v : Nat) (s : State) : (putF a lo n v s).free = s.free := rfl
@[simp] theorem putF_pending (a lo n v : Nat) (s : State) : (putF a lo n v s).pending = s.pending := rfl

/-! ## `putB` -/

@[simp] theorem putB_now (a b : Nat) (v : Bool) (s : State) : (putB a b v s).now = s.now := rfl
@[simp] theorem putB_mono (a b : Nat) (v : Bool) (s : State) : (putB a b v s).mono = s.mono := rfl
@[simp] theorem putB_pins (a b : Nat) (v : Bool) (s : State) : (putB a b v s).pins = s.pins := rfl
@[simp] theorem putB_latch (a b : Nat) (v : Bool) (s : State) : (putB a b v s).latch = s.latch := rfl
@[simp] theorem putB_readData (a b : Nat) (v : Bool) (s : State) : (putB a b v s).readData = s.readData := rfl
@[simp] theorem putB_cmd (a b : Nat) (v : Bool) (s : State) : (putB a b v s).cmd = s.cmd := rfl
@[simp] theorem putB_evq (a b : Nat) (v : Bool) (s : State) : (putB a b v s).evq = s.evq := rfl
@[simp] theorem putB_plan (a b : Nat) (v : Bool) (s : State) : (putB a b v s).plan = s.plan := rfl
@[simp] theorem putB_take (a b : Nat) (v : Bool) (s : State) : (putB a b v s).take = s.take := rfl
@[simp] theorem putB_port (a b : Nat) (v : Bool) (s : State) : (putB a b v s).port = s.port := rfl
@[simp] theorem putB_mem (a b : Nat) (v : Bool) (s : State) : (putB a b v s).mem = s.mem := rfl
@[simp] theorem putB_sched (a b : Nat) (v : Bool) (s : State) : (putB a b v s).sched = s.sched := rfl
@[simp] theorem putB_trk (a b : Nat) (v : Bool) (s : State) : (putB a b v s).trk = s.trk := rfl
@[simp] theorem putB_eth (a b : Nat) (v : Bool) (s : State) : (putB a b v s).eth = s.eth := rfl
@[simp] theorem putB_flow (a b : Nat) (v : Bool) (s : State) : (putB a b v s).flow = s.flow := rfl
@[simp] theorem putB_ibx (a b : Nat) (v : Bool) (s : State) : (putB a b v s).ibx = s.ibx := rfl
@[simp] theorem putB_comp (a b : Nat) (v : Bool) (s : State) : (putB a b v s).comp = s.comp := rfl
@[simp] theorem putB_aud (a b : Nat) (v : Bool) (s : State) : (putB a b v s).aud = s.aud := rfl
@[simp] theorem putB_ref (a b : Nat) (v : Bool) (s : State) : (putB a b v s).ref = s.ref := rfl
@[simp] theorem putB_plls (a b : Nat) (v : Bool) (s : State) : (putB a b v s).plls = s.plls := rfl
@[simp] theorem putB_time (a b : Nat) (v : Bool) (s : State) : (putB a b v s).time = s.time := rfl
@[simp] theorem putB_pair (a b : Nat) (v : Bool) (s : State) : (putB a b v s).pair = s.pair := rfl
@[simp] theorem putB_fw (a b : Nat) (v : Bool) (s : State) : (putB a b v s).fw = s.fw := rfl
@[simp] theorem putB_flash (a b : Nat) (v : Bool) (s : State) : (putB a b v s).flash = s.flash := rfl
@[simp] theorem putB_otp (a b : Nat) (v : Bool) (s : State) : (putB a b v s).otp = s.otp := rfl
@[simp] theorem putB_sec (a b : Nat) (v : Bool) (s : State) : (putB a b v s).sec = s.sec := rfl
@[simp] theorem putB_mods (a b : Nat) (v : Bool) (s : State) : (putB a b v s).mods = s.mods := rfl
@[simp] theorem putB_therm (a b : Nat) (v : Bool) (s : State) : (putB a b v s).therm = s.therm := rfl
@[simp] theorem putB_svc (a b : Nat) (v : Bool) (s : State) : (putB a b v s).svc = s.svc := rfl
@[simp] theorem putB_jtag (a b : Nat) (v : Bool) (s : State) : (putB a b v s).jtag = s.jtag := rfl
@[simp] theorem putB_free (a b : Nat) (v : Bool) (s : State) : (putB a b v s).free = s.free := rfl
@[simp] theorem putB_pending (a b : Nat) (v : Bool) (s : State) : (putB a b v s).pending = s.pending := rfl

/-! ## `bump` -/

@[simp] theorem bump_now (a lo n k : Nat) (s : State) : (bump a lo n k s).now = s.now := rfl
@[simp] theorem bump_mono (a lo n k : Nat) (s : State) : (bump a lo n k s).mono = s.mono := rfl
@[simp] theorem bump_pins (a lo n k : Nat) (s : State) : (bump a lo n k s).pins = s.pins := rfl
@[simp] theorem bump_latch (a lo n k : Nat) (s : State) : (bump a lo n k s).latch = s.latch := rfl
@[simp] theorem bump_readData (a lo n k : Nat) (s : State) : (bump a lo n k s).readData = s.readData := rfl
@[simp] theorem bump_cmd (a lo n k : Nat) (s : State) : (bump a lo n k s).cmd = s.cmd := rfl
@[simp] theorem bump_evq (a lo n k : Nat) (s : State) : (bump a lo n k s).evq = s.evq := rfl
@[simp] theorem bump_plan (a lo n k : Nat) (s : State) : (bump a lo n k s).plan = s.plan := rfl
@[simp] theorem bump_take (a lo n k : Nat) (s : State) : (bump a lo n k s).take = s.take := rfl
@[simp] theorem bump_port (a lo n k : Nat) (s : State) : (bump a lo n k s).port = s.port := rfl
@[simp] theorem bump_mem (a lo n k : Nat) (s : State) : (bump a lo n k s).mem = s.mem := rfl
@[simp] theorem bump_sched (a lo n k : Nat) (s : State) : (bump a lo n k s).sched = s.sched := rfl
@[simp] theorem bump_trk (a lo n k : Nat) (s : State) : (bump a lo n k s).trk = s.trk := rfl
@[simp] theorem bump_eth (a lo n k : Nat) (s : State) : (bump a lo n k s).eth = s.eth := rfl
@[simp] theorem bump_flow (a lo n k : Nat) (s : State) : (bump a lo n k s).flow = s.flow := rfl
@[simp] theorem bump_ibx (a lo n k : Nat) (s : State) : (bump a lo n k s).ibx = s.ibx := rfl
@[simp] theorem bump_comp (a lo n k : Nat) (s : State) : (bump a lo n k s).comp = s.comp := rfl
@[simp] theorem bump_aud (a lo n k : Nat) (s : State) : (bump a lo n k s).aud = s.aud := rfl
@[simp] theorem bump_ref (a lo n k : Nat) (s : State) : (bump a lo n k s).ref = s.ref := rfl
@[simp] theorem bump_plls (a lo n k : Nat) (s : State) : (bump a lo n k s).plls = s.plls := rfl
@[simp] theorem bump_time (a lo n k : Nat) (s : State) : (bump a lo n k s).time = s.time := rfl
@[simp] theorem bump_pair (a lo n k : Nat) (s : State) : (bump a lo n k s).pair = s.pair := rfl
@[simp] theorem bump_fw (a lo n k : Nat) (s : State) : (bump a lo n k s).fw = s.fw := rfl
@[simp] theorem bump_flash (a lo n k : Nat) (s : State) : (bump a lo n k s).flash = s.flash := rfl
@[simp] theorem bump_otp (a lo n k : Nat) (s : State) : (bump a lo n k s).otp = s.otp := rfl
@[simp] theorem bump_sec (a lo n k : Nat) (s : State) : (bump a lo n k s).sec = s.sec := rfl
@[simp] theorem bump_mods (a lo n k : Nat) (s : State) : (bump a lo n k s).mods = s.mods := rfl
@[simp] theorem bump_therm (a lo n k : Nat) (s : State) : (bump a lo n k s).therm = s.therm := rfl
@[simp] theorem bump_svc (a lo n k : Nat) (s : State) : (bump a lo n k s).svc = s.svc := rfl
@[simp] theorem bump_jtag (a lo n k : Nat) (s : State) : (bump a lo n k s).jtag = s.jtag := rfl
@[simp] theorem bump_free (a lo n k : Nat) (s : State) : (bump a lo n k s).free = s.free := rfl
@[simp] theorem bump_pending (a lo n k : Nat) (s : State) : (bump a lo n k s).pending = s.pending := rfl

/-! ## `count` -/

@[simp] theorem count_now (a : Nat) (s : State) : (count a s).now = s.now := rfl
@[simp] theorem count_mono (a : Nat) (s : State) : (count a s).mono = s.mono := rfl
@[simp] theorem count_pins (a : Nat) (s : State) : (count a s).pins = s.pins := rfl
@[simp] theorem count_latch (a : Nat) (s : State) : (count a s).latch = s.latch := rfl
@[simp] theorem count_readData (a : Nat) (s : State) : (count a s).readData = s.readData := rfl
@[simp] theorem count_cmd (a : Nat) (s : State) : (count a s).cmd = s.cmd := rfl
@[simp] theorem count_evq (a : Nat) (s : State) : (count a s).evq = s.evq := rfl
@[simp] theorem count_plan (a : Nat) (s : State) : (count a s).plan = s.plan := rfl
@[simp] theorem count_take (a : Nat) (s : State) : (count a s).take = s.take := rfl
@[simp] theorem count_port (a : Nat) (s : State) : (count a s).port = s.port := rfl
@[simp] theorem count_mem (a : Nat) (s : State) : (count a s).mem = s.mem := rfl
@[simp] theorem count_sched (a : Nat) (s : State) : (count a s).sched = s.sched := rfl
@[simp] theorem count_trk (a : Nat) (s : State) : (count a s).trk = s.trk := rfl
@[simp] theorem count_eth (a : Nat) (s : State) : (count a s).eth = s.eth := rfl
@[simp] theorem count_flow (a : Nat) (s : State) : (count a s).flow = s.flow := rfl
@[simp] theorem count_ibx (a : Nat) (s : State) : (count a s).ibx = s.ibx := rfl
@[simp] theorem count_comp (a : Nat) (s : State) : (count a s).comp = s.comp := rfl
@[simp] theorem count_aud (a : Nat) (s : State) : (count a s).aud = s.aud := rfl
@[simp] theorem count_ref (a : Nat) (s : State) : (count a s).ref = s.ref := rfl
@[simp] theorem count_plls (a : Nat) (s : State) : (count a s).plls = s.plls := rfl
@[simp] theorem count_time (a : Nat) (s : State) : (count a s).time = s.time := rfl
@[simp] theorem count_pair (a : Nat) (s : State) : (count a s).pair = s.pair := rfl
@[simp] theorem count_fw (a : Nat) (s : State) : (count a s).fw = s.fw := rfl
@[simp] theorem count_flash (a : Nat) (s : State) : (count a s).flash = s.flash := rfl
@[simp] theorem count_otp (a : Nat) (s : State) : (count a s).otp = s.otp := rfl
@[simp] theorem count_sec (a : Nat) (s : State) : (count a s).sec = s.sec := rfl
@[simp] theorem count_mods (a : Nat) (s : State) : (count a s).mods = s.mods := rfl
@[simp] theorem count_therm (a : Nat) (s : State) : (count a s).therm = s.therm := rfl
@[simp] theorem count_svc (a : Nat) (s : State) : (count a s).svc = s.svc := rfl
@[simp] theorem count_jtag (a : Nat) (s : State) : (count a s).jtag = s.jtag := rfl
@[simp] theorem count_free (a : Nat) (s : State) : (count a s).free = s.free := rfl
@[simp] theorem count_pending (a : Nat) (s : State) : (count a s).pending = s.pending := rfl

/-! ## `put64` -/

@[simp] theorem put64_now (a v : Nat) (s : State) : (put64 a v s).now = s.now := (wr_now _ _ _).trans (wr_now _ _ _)
@[simp] theorem put64_mono (a v : Nat) (s : State) : (put64 a v s).mono = s.mono := (wr_mono _ _ _).trans (wr_mono _ _ _)
@[simp] theorem put64_pins (a v : Nat) (s : State) : (put64 a v s).pins = s.pins := (wr_pins _ _ _).trans (wr_pins _ _ _)
@[simp] theorem put64_latch (a v : Nat) (s : State) : (put64 a v s).latch = s.latch := (wr_latch _ _ _).trans (wr_latch _ _ _)
@[simp] theorem put64_readData (a v : Nat) (s : State) : (put64 a v s).readData = s.readData := (wr_readData _ _ _).trans (wr_readData _ _ _)
@[simp] theorem put64_cmd (a v : Nat) (s : State) : (put64 a v s).cmd = s.cmd := (wr_cmd _ _ _).trans (wr_cmd _ _ _)
@[simp] theorem put64_evq (a v : Nat) (s : State) : (put64 a v s).evq = s.evq := (wr_evq _ _ _).trans (wr_evq _ _ _)
@[simp] theorem put64_plan (a v : Nat) (s : State) : (put64 a v s).plan = s.plan := (wr_plan _ _ _).trans (wr_plan _ _ _)
@[simp] theorem put64_take (a v : Nat) (s : State) : (put64 a v s).take = s.take := (wr_take _ _ _).trans (wr_take _ _ _)
@[simp] theorem put64_port (a v : Nat) (s : State) : (put64 a v s).port = s.port := (wr_port _ _ _).trans (wr_port _ _ _)
@[simp] theorem put64_mem (a v : Nat) (s : State) : (put64 a v s).mem = s.mem := (wr_mem _ _ _).trans (wr_mem _ _ _)
@[simp] theorem put64_sched (a v : Nat) (s : State) : (put64 a v s).sched = s.sched := (wr_sched _ _ _).trans (wr_sched _ _ _)
@[simp] theorem put64_trk (a v : Nat) (s : State) : (put64 a v s).trk = s.trk := (wr_trk _ _ _).trans (wr_trk _ _ _)
@[simp] theorem put64_eth (a v : Nat) (s : State) : (put64 a v s).eth = s.eth := (wr_eth _ _ _).trans (wr_eth _ _ _)
@[simp] theorem put64_flow (a v : Nat) (s : State) : (put64 a v s).flow = s.flow := (wr_flow _ _ _).trans (wr_flow _ _ _)
@[simp] theorem put64_ibx (a v : Nat) (s : State) : (put64 a v s).ibx = s.ibx := (wr_ibx _ _ _).trans (wr_ibx _ _ _)
@[simp] theorem put64_comp (a v : Nat) (s : State) : (put64 a v s).comp = s.comp := (wr_comp _ _ _).trans (wr_comp _ _ _)
@[simp] theorem put64_aud (a v : Nat) (s : State) : (put64 a v s).aud = s.aud := (wr_aud _ _ _).trans (wr_aud _ _ _)
@[simp] theorem put64_ref (a v : Nat) (s : State) : (put64 a v s).ref = s.ref := (wr_ref _ _ _).trans (wr_ref _ _ _)
@[simp] theorem put64_plls (a v : Nat) (s : State) : (put64 a v s).plls = s.plls := (wr_plls _ _ _).trans (wr_plls _ _ _)
@[simp] theorem put64_time (a v : Nat) (s : State) : (put64 a v s).time = s.time := (wr_time _ _ _).trans (wr_time _ _ _)
@[simp] theorem put64_pair (a v : Nat) (s : State) : (put64 a v s).pair = s.pair := (wr_pair _ _ _).trans (wr_pair _ _ _)
@[simp] theorem put64_fw (a v : Nat) (s : State) : (put64 a v s).fw = s.fw := (wr_fw _ _ _).trans (wr_fw _ _ _)
@[simp] theorem put64_flash (a v : Nat) (s : State) : (put64 a v s).flash = s.flash := (wr_flash _ _ _).trans (wr_flash _ _ _)
@[simp] theorem put64_otp (a v : Nat) (s : State) : (put64 a v s).otp = s.otp := (wr_otp _ _ _).trans (wr_otp _ _ _)
@[simp] theorem put64_sec (a v : Nat) (s : State) : (put64 a v s).sec = s.sec := (wr_sec _ _ _).trans (wr_sec _ _ _)
@[simp] theorem put64_mods (a v : Nat) (s : State) : (put64 a v s).mods = s.mods := (wr_mods _ _ _).trans (wr_mods _ _ _)
@[simp] theorem put64_therm (a v : Nat) (s : State) : (put64 a v s).therm = s.therm := (wr_therm _ _ _).trans (wr_therm _ _ _)
@[simp] theorem put64_svc (a v : Nat) (s : State) : (put64 a v s).svc = s.svc := (wr_svc _ _ _).trans (wr_svc _ _ _)
@[simp] theorem put64_jtag (a v : Nat) (s : State) : (put64 a v s).jtag = s.jtag := (wr_jtag _ _ _).trans (wr_jtag _ _ _)
@[simp] theorem put64_free (a v : Nat) (s : State) : (put64 a v s).free = s.free := (wr_free _ _ _).trans (wr_free _ _ _)
@[simp] theorem put64_pending (a v : Nat) (s : State) : (put64 a v s).pending = s.pending := (wr_pending _ _ _).trans (wr_pending _ _ _)

/-! ## `bump64` -/

@[simp] theorem bump64_now (a k : Nat) (s : State) : (bump64 a k s).now = s.now := put64_now _ _ _
@[simp] theorem bump64_mono (a k : Nat) (s : State) : (bump64 a k s).mono = s.mono := put64_mono _ _ _
@[simp] theorem bump64_pins (a k : Nat) (s : State) : (bump64 a k s).pins = s.pins := put64_pins _ _ _
@[simp] theorem bump64_latch (a k : Nat) (s : State) : (bump64 a k s).latch = s.latch := put64_latch _ _ _
@[simp] theorem bump64_readData (a k : Nat) (s : State) : (bump64 a k s).readData = s.readData := put64_readData _ _ _
@[simp] theorem bump64_cmd (a k : Nat) (s : State) : (bump64 a k s).cmd = s.cmd := put64_cmd _ _ _
@[simp] theorem bump64_evq (a k : Nat) (s : State) : (bump64 a k s).evq = s.evq := put64_evq _ _ _
@[simp] theorem bump64_plan (a k : Nat) (s : State) : (bump64 a k s).plan = s.plan := put64_plan _ _ _
@[simp] theorem bump64_take (a k : Nat) (s : State) : (bump64 a k s).take = s.take := put64_take _ _ _
@[simp] theorem bump64_port (a k : Nat) (s : State) : (bump64 a k s).port = s.port := put64_port _ _ _
@[simp] theorem bump64_mem (a k : Nat) (s : State) : (bump64 a k s).mem = s.mem := put64_mem _ _ _
@[simp] theorem bump64_sched (a k : Nat) (s : State) : (bump64 a k s).sched = s.sched := put64_sched _ _ _
@[simp] theorem bump64_trk (a k : Nat) (s : State) : (bump64 a k s).trk = s.trk := put64_trk _ _ _
@[simp] theorem bump64_eth (a k : Nat) (s : State) : (bump64 a k s).eth = s.eth := put64_eth _ _ _
@[simp] theorem bump64_flow (a k : Nat) (s : State) : (bump64 a k s).flow = s.flow := put64_flow _ _ _
@[simp] theorem bump64_ibx (a k : Nat) (s : State) : (bump64 a k s).ibx = s.ibx := put64_ibx _ _ _
@[simp] theorem bump64_comp (a k : Nat) (s : State) : (bump64 a k s).comp = s.comp := put64_comp _ _ _
@[simp] theorem bump64_aud (a k : Nat) (s : State) : (bump64 a k s).aud = s.aud := put64_aud _ _ _
@[simp] theorem bump64_ref (a k : Nat) (s : State) : (bump64 a k s).ref = s.ref := put64_ref _ _ _
@[simp] theorem bump64_plls (a k : Nat) (s : State) : (bump64 a k s).plls = s.plls := put64_plls _ _ _
@[simp] theorem bump64_time (a k : Nat) (s : State) : (bump64 a k s).time = s.time := put64_time _ _ _
@[simp] theorem bump64_pair (a k : Nat) (s : State) : (bump64 a k s).pair = s.pair := put64_pair _ _ _
@[simp] theorem bump64_fw (a k : Nat) (s : State) : (bump64 a k s).fw = s.fw := put64_fw _ _ _
@[simp] theorem bump64_flash (a k : Nat) (s : State) : (bump64 a k s).flash = s.flash := put64_flash _ _ _
@[simp] theorem bump64_otp (a k : Nat) (s : State) : (bump64 a k s).otp = s.otp := put64_otp _ _ _
@[simp] theorem bump64_sec (a k : Nat) (s : State) : (bump64 a k s).sec = s.sec := put64_sec _ _ _
@[simp] theorem bump64_mods (a k : Nat) (s : State) : (bump64 a k s).mods = s.mods := put64_mods _ _ _
@[simp] theorem bump64_therm (a k : Nat) (s : State) : (bump64 a k s).therm = s.therm := put64_therm _ _ _
@[simp] theorem bump64_svc (a k : Nat) (s : State) : (bump64 a k s).svc = s.svc := put64_svc _ _ _
@[simp] theorem bump64_jtag (a k : Nat) (s : State) : (bump64 a k s).jtag = s.jtag := put64_jtag _ _ _
@[simp] theorem bump64_free (a k : Nat) (s : State) : (bump64 a k s).free = s.free := put64_free _ _ _
@[simp] theorem bump64_pending (a k : Nat) (s : State) : (bump64 a k s).pending = s.pending := put64_pending _ _ _

/-! ## `useFree` -/

@[simp] theorem useFree_now (s : State) : (useFree s).now = s.now := rfl
@[simp] theorem useFree_mono (s : State) : (useFree s).mono = s.mono := rfl
@[simp] theorem useFree_pins (s : State) : (useFree s).pins = s.pins := rfl
@[simp] theorem useFree_regs (s : State) : (useFree s).regs = s.regs := rfl
@[simp] theorem useFree_latch (s : State) : (useFree s).latch = s.latch := rfl
@[simp] theorem useFree_readData (s : State) : (useFree s).readData = s.readData := rfl
@[simp] theorem useFree_cmd (s : State) : (useFree s).cmd = s.cmd := rfl
@[simp] theorem useFree_evq (s : State) : (useFree s).evq = s.evq := rfl
@[simp] theorem useFree_plan (s : State) : (useFree s).plan = s.plan := rfl
@[simp] theorem useFree_take (s : State) : (useFree s).take = s.take := rfl
@[simp] theorem useFree_port (s : State) : (useFree s).port = s.port := rfl
@[simp] theorem useFree_mem (s : State) : (useFree s).mem = s.mem := rfl
@[simp] theorem useFree_sched (s : State) : (useFree s).sched = s.sched := rfl
@[simp] theorem useFree_trk (s : State) : (useFree s).trk = s.trk := rfl
@[simp] theorem useFree_eth (s : State) : (useFree s).eth = s.eth := rfl
@[simp] theorem useFree_flow (s : State) : (useFree s).flow = s.flow := rfl
@[simp] theorem useFree_ibx (s : State) : (useFree s).ibx = s.ibx := rfl
@[simp] theorem useFree_comp (s : State) : (useFree s).comp = s.comp := rfl
@[simp] theorem useFree_aud (s : State) : (useFree s).aud = s.aud := rfl
@[simp] theorem useFree_ref (s : State) : (useFree s).ref = s.ref := rfl
@[simp] theorem useFree_plls (s : State) : (useFree s).plls = s.plls := rfl
@[simp] theorem useFree_time (s : State) : (useFree s).time = s.time := rfl
@[simp] theorem useFree_pair (s : State) : (useFree s).pair = s.pair := rfl
@[simp] theorem useFree_fw (s : State) : (useFree s).fw = s.fw := rfl
@[simp] theorem useFree_flash (s : State) : (useFree s).flash = s.flash := rfl
@[simp] theorem useFree_otp (s : State) : (useFree s).otp = s.otp := rfl
@[simp] theorem useFree_sec (s : State) : (useFree s).sec = s.sec := rfl
@[simp] theorem useFree_mods (s : State) : (useFree s).mods = s.mods := rfl
@[simp] theorem useFree_therm (s : State) : (useFree s).therm = s.therm := rfl
@[simp] theorem useFree_svc (s : State) : (useFree s).svc = s.svc := rfl
@[simp] theorem useFree_jtag (s : State) : (useFree s).jtag = s.jtag := rfl
@[simp] theorem useFree_pending (s : State) : (useFree s).pending = s.pending := rfl

/-! ## `putCmd` -/

@[simp] theorem putCmd_now (f : CmdState → CmdState) (s : State) : (putCmd f s).now = s.now := rfl
@[simp] theorem putCmd_mono (f : CmdState → CmdState) (s : State) : (putCmd f s).mono = s.mono := rfl
@[simp] theorem putCmd_pins (f : CmdState → CmdState) (s : State) : (putCmd f s).pins = s.pins := rfl
@[simp] theorem putCmd_regs (f : CmdState → CmdState) (s : State) : (putCmd f s).regs = s.regs := rfl
@[simp] theorem putCmd_latch (f : CmdState → CmdState) (s : State) : (putCmd f s).latch = s.latch := rfl
@[simp] theorem putCmd_readData (f : CmdState → CmdState) (s : State) : (putCmd f s).readData = s.readData := rfl
@[simp] theorem putCmd_evq (f : CmdState → CmdState) (s : State) : (putCmd f s).evq = s.evq := rfl
@[simp] theorem putCmd_plan (f : CmdState → CmdState) (s : State) : (putCmd f s).plan = s.plan := rfl
@[simp] theorem putCmd_take (f : CmdState → CmdState) (s : State) : (putCmd f s).take = s.take := rfl
@[simp] theorem putCmd_port (f : CmdState → CmdState) (s : State) : (putCmd f s).port = s.port := rfl
@[simp] theorem putCmd_mem (f : CmdState → CmdState) (s : State) : (putCmd f s).mem = s.mem := rfl
@[simp] theorem putCmd_sched (f : CmdState → CmdState) (s : State) : (putCmd f s).sched = s.sched := rfl
@[simp] theorem putCmd_trk (f : CmdState → CmdState) (s : State) : (putCmd f s).trk = s.trk := rfl
@[simp] theorem putCmd_eth (f : CmdState → CmdState) (s : State) : (putCmd f s).eth = s.eth := rfl
@[simp] theorem putCmd_flow (f : CmdState → CmdState) (s : State) : (putCmd f s).flow = s.flow := rfl
@[simp] theorem putCmd_ibx (f : CmdState → CmdState) (s : State) : (putCmd f s).ibx = s.ibx := rfl
@[simp] theorem putCmd_comp (f : CmdState → CmdState) (s : State) : (putCmd f s).comp = s.comp := rfl
@[simp] theorem putCmd_aud (f : CmdState → CmdState) (s : State) : (putCmd f s).aud = s.aud := rfl
@[simp] theorem putCmd_ref (f : CmdState → CmdState) (s : State) : (putCmd f s).ref = s.ref := rfl
@[simp] theorem putCmd_plls (f : CmdState → CmdState) (s : State) : (putCmd f s).plls = s.plls := rfl
@[simp] theorem putCmd_time (f : CmdState → CmdState) (s : State) : (putCmd f s).time = s.time := rfl
@[simp] theorem putCmd_pair (f : CmdState → CmdState) (s : State) : (putCmd f s).pair = s.pair := rfl
@[simp] theorem putCmd_fw (f : CmdState → CmdState) (s : State) : (putCmd f s).fw = s.fw := rfl
@[simp] theorem putCmd_flash (f : CmdState → CmdState) (s : State) : (putCmd f s).flash = s.flash := rfl
@[simp] theorem putCmd_otp (f : CmdState → CmdState) (s : State) : (putCmd f s).otp = s.otp := rfl
@[simp] theorem putCmd_sec (f : CmdState → CmdState) (s : State) : (putCmd f s).sec = s.sec := rfl
@[simp] theorem putCmd_mods (f : CmdState → CmdState) (s : State) : (putCmd f s).mods = s.mods := rfl
@[simp] theorem putCmd_therm (f : CmdState → CmdState) (s : State) : (putCmd f s).therm = s.therm := rfl
@[simp] theorem putCmd_svc (f : CmdState → CmdState) (s : State) : (putCmd f s).svc = s.svc := rfl
@[simp] theorem putCmd_jtag (f : CmdState → CmdState) (s : State) : (putCmd f s).jtag = s.jtag := rfl
@[simp] theorem putCmd_free (f : CmdState → CmdState) (s : State) : (putCmd f s).free = s.free := rfl
@[simp] theorem putCmd_pending (f : CmdState → CmdState) (s : State) : (putCmd f s).pending = s.pending := rfl

/-! ## `putPlan` -/

@[simp] theorem putPlan_now (f : PlanState → PlanState) (s : State) : (putPlan f s).now = s.now := rfl
@[simp] theorem putPlan_mono (f : PlanState → PlanState) (s : State) : (putPlan f s).mono = s.mono := rfl
@[simp] theorem putPlan_pins (f : PlanState → PlanState) (s : State) : (putPlan f s).pins = s.pins := rfl
@[simp] theorem putPlan_regs (f : PlanState → PlanState) (s : State) : (putPlan f s).regs = s.regs := rfl
@[simp] theorem putPlan_latch (f : PlanState → PlanState) (s : State) : (putPlan f s).latch = s.latch := rfl
@[simp] theorem putPlan_readData (f : PlanState → PlanState) (s : State) : (putPlan f s).readData = s.readData := rfl
@[simp] theorem putPlan_cmd (f : PlanState → PlanState) (s : State) : (putPlan f s).cmd = s.cmd := rfl
@[simp] theorem putPlan_evq (f : PlanState → PlanState) (s : State) : (putPlan f s).evq = s.evq := rfl
@[simp] theorem putPlan_take (f : PlanState → PlanState) (s : State) : (putPlan f s).take = s.take := rfl
@[simp] theorem putPlan_port (f : PlanState → PlanState) (s : State) : (putPlan f s).port = s.port := rfl
@[simp] theorem putPlan_mem (f : PlanState → PlanState) (s : State) : (putPlan f s).mem = s.mem := rfl
@[simp] theorem putPlan_sched (f : PlanState → PlanState) (s : State) : (putPlan f s).sched = s.sched := rfl
@[simp] theorem putPlan_trk (f : PlanState → PlanState) (s : State) : (putPlan f s).trk = s.trk := rfl
@[simp] theorem putPlan_eth (f : PlanState → PlanState) (s : State) : (putPlan f s).eth = s.eth := rfl
@[simp] theorem putPlan_flow (f : PlanState → PlanState) (s : State) : (putPlan f s).flow = s.flow := rfl
@[simp] theorem putPlan_ibx (f : PlanState → PlanState) (s : State) : (putPlan f s).ibx = s.ibx := rfl
@[simp] theorem putPlan_comp (f : PlanState → PlanState) (s : State) : (putPlan f s).comp = s.comp := rfl
@[simp] theorem putPlan_aud (f : PlanState → PlanState) (s : State) : (putPlan f s).aud = s.aud := rfl
@[simp] theorem putPlan_ref (f : PlanState → PlanState) (s : State) : (putPlan f s).ref = s.ref := rfl
@[simp] theorem putPlan_plls (f : PlanState → PlanState) (s : State) : (putPlan f s).plls = s.plls := rfl
@[simp] theorem putPlan_time (f : PlanState → PlanState) (s : State) : (putPlan f s).time = s.time := rfl
@[simp] theorem putPlan_pair (f : PlanState → PlanState) (s : State) : (putPlan f s).pair = s.pair := rfl
@[simp] theorem putPlan_fw (f : PlanState → PlanState) (s : State) : (putPlan f s).fw = s.fw := rfl
@[simp] theorem putPlan_flash (f : PlanState → PlanState) (s : State) : (putPlan f s).flash = s.flash := rfl
@[simp] theorem putPlan_otp (f : PlanState → PlanState) (s : State) : (putPlan f s).otp = s.otp := rfl
@[simp] theorem putPlan_sec (f : PlanState → PlanState) (s : State) : (putPlan f s).sec = s.sec := rfl
@[simp] theorem putPlan_mods (f : PlanState → PlanState) (s : State) : (putPlan f s).mods = s.mods := rfl
@[simp] theorem putPlan_therm (f : PlanState → PlanState) (s : State) : (putPlan f s).therm = s.therm := rfl
@[simp] theorem putPlan_svc (f : PlanState → PlanState) (s : State) : (putPlan f s).svc = s.svc := rfl
@[simp] theorem putPlan_jtag (f : PlanState → PlanState) (s : State) : (putPlan f s).jtag = s.jtag := rfl
@[simp] theorem putPlan_free (f : PlanState → PlanState) (s : State) : (putPlan f s).free = s.free := rfl
@[simp] theorem putPlan_pending (f : PlanState → PlanState) (s : State) : (putPlan f s).pending = s.pending := rfl

/-! ## `putFw` -/

@[simp] theorem putFw_now (f : FwState → FwState) (s : State) : (putFw f s).now = s.now := rfl
@[simp] theorem putFw_mono (f : FwState → FwState) (s : State) : (putFw f s).mono = s.mono := rfl
@[simp] theorem putFw_pins (f : FwState → FwState) (s : State) : (putFw f s).pins = s.pins := rfl
@[simp] theorem putFw_regs (f : FwState → FwState) (s : State) : (putFw f s).regs = s.regs := rfl
@[simp] theorem putFw_latch (f : FwState → FwState) (s : State) : (putFw f s).latch = s.latch := rfl
@[simp] theorem putFw_readData (f : FwState → FwState) (s : State) : (putFw f s).readData = s.readData := rfl
@[simp] theorem putFw_cmd (f : FwState → FwState) (s : State) : (putFw f s).cmd = s.cmd := rfl
@[simp] theorem putFw_evq (f : FwState → FwState) (s : State) : (putFw f s).evq = s.evq := rfl
@[simp] theorem putFw_plan (f : FwState → FwState) (s : State) : (putFw f s).plan = s.plan := rfl
@[simp] theorem putFw_take (f : FwState → FwState) (s : State) : (putFw f s).take = s.take := rfl
@[simp] theorem putFw_port (f : FwState → FwState) (s : State) : (putFw f s).port = s.port := rfl
@[simp] theorem putFw_mem (f : FwState → FwState) (s : State) : (putFw f s).mem = s.mem := rfl
@[simp] theorem putFw_sched (f : FwState → FwState) (s : State) : (putFw f s).sched = s.sched := rfl
@[simp] theorem putFw_trk (f : FwState → FwState) (s : State) : (putFw f s).trk = s.trk := rfl
@[simp] theorem putFw_eth (f : FwState → FwState) (s : State) : (putFw f s).eth = s.eth := rfl
@[simp] theorem putFw_flow (f : FwState → FwState) (s : State) : (putFw f s).flow = s.flow := rfl
@[simp] theorem putFw_ibx (f : FwState → FwState) (s : State) : (putFw f s).ibx = s.ibx := rfl
@[simp] theorem putFw_comp (f : FwState → FwState) (s : State) : (putFw f s).comp = s.comp := rfl
@[simp] theorem putFw_aud (f : FwState → FwState) (s : State) : (putFw f s).aud = s.aud := rfl
@[simp] theorem putFw_ref (f : FwState → FwState) (s : State) : (putFw f s).ref = s.ref := rfl
@[simp] theorem putFw_plls (f : FwState → FwState) (s : State) : (putFw f s).plls = s.plls := rfl
@[simp] theorem putFw_time (f : FwState → FwState) (s : State) : (putFw f s).time = s.time := rfl
@[simp] theorem putFw_pair (f : FwState → FwState) (s : State) : (putFw f s).pair = s.pair := rfl
@[simp] theorem putFw_flash (f : FwState → FwState) (s : State) : (putFw f s).flash = s.flash := rfl
@[simp] theorem putFw_otp (f : FwState → FwState) (s : State) : (putFw f s).otp = s.otp := rfl
@[simp] theorem putFw_sec (f : FwState → FwState) (s : State) : (putFw f s).sec = s.sec := rfl
@[simp] theorem putFw_mods (f : FwState → FwState) (s : State) : (putFw f s).mods = s.mods := rfl
@[simp] theorem putFw_therm (f : FwState → FwState) (s : State) : (putFw f s).therm = s.therm := rfl
@[simp] theorem putFw_svc (f : FwState → FwState) (s : State) : (putFw f s).svc = s.svc := rfl
@[simp] theorem putFw_jtag (f : FwState → FwState) (s : State) : (putFw f s).jtag = s.jtag := rfl
@[simp] theorem putFw_free (f : FwState → FwState) (s : State) : (putFw f s).free = s.free := rfl
@[simp] theorem putFw_pending (f : FwState → FwState) (s : State) : (putFw f s).pending = s.pending := rfl

/-! ## `putTherm` -/

@[simp] theorem putTherm_now (f : ThermState → ThermState) (s : State) : (putTherm f s).now = s.now := rfl
@[simp] theorem putTherm_mono (f : ThermState → ThermState) (s : State) : (putTherm f s).mono = s.mono := rfl
@[simp] theorem putTherm_pins (f : ThermState → ThermState) (s : State) : (putTherm f s).pins = s.pins := rfl
@[simp] theorem putTherm_regs (f : ThermState → ThermState) (s : State) : (putTherm f s).regs = s.regs := rfl
@[simp] theorem putTherm_latch (f : ThermState → ThermState) (s : State) : (putTherm f s).latch = s.latch := rfl
@[simp] theorem putTherm_readData (f : ThermState → ThermState) (s : State) : (putTherm f s).readData = s.readData := rfl
@[simp] theorem putTherm_cmd (f : ThermState → ThermState) (s : State) : (putTherm f s).cmd = s.cmd := rfl
@[simp] theorem putTherm_evq (f : ThermState → ThermState) (s : State) : (putTherm f s).evq = s.evq := rfl
@[simp] theorem putTherm_plan (f : ThermState → ThermState) (s : State) : (putTherm f s).plan = s.plan := rfl
@[simp] theorem putTherm_take (f : ThermState → ThermState) (s : State) : (putTherm f s).take = s.take := rfl
@[simp] theorem putTherm_port (f : ThermState → ThermState) (s : State) : (putTherm f s).port = s.port := rfl
@[simp] theorem putTherm_mem (f : ThermState → ThermState) (s : State) : (putTherm f s).mem = s.mem := rfl
@[simp] theorem putTherm_sched (f : ThermState → ThermState) (s : State) : (putTherm f s).sched = s.sched := rfl
@[simp] theorem putTherm_trk (f : ThermState → ThermState) (s : State) : (putTherm f s).trk = s.trk := rfl
@[simp] theorem putTherm_eth (f : ThermState → ThermState) (s : State) : (putTherm f s).eth = s.eth := rfl
@[simp] theorem putTherm_flow (f : ThermState → ThermState) (s : State) : (putTherm f s).flow = s.flow := rfl
@[simp] theorem putTherm_ibx (f : ThermState → ThermState) (s : State) : (putTherm f s).ibx = s.ibx := rfl
@[simp] theorem putTherm_comp (f : ThermState → ThermState) (s : State) : (putTherm f s).comp = s.comp := rfl
@[simp] theorem putTherm_aud (f : ThermState → ThermState) (s : State) : (putTherm f s).aud = s.aud := rfl
@[simp] theorem putTherm_ref (f : ThermState → ThermState) (s : State) : (putTherm f s).ref = s.ref := rfl
@[simp] theorem putTherm_plls (f : ThermState → ThermState) (s : State) : (putTherm f s).plls = s.plls := rfl
@[simp] theorem putTherm_time (f : ThermState → ThermState) (s : State) : (putTherm f s).time = s.time := rfl
@[simp] theorem putTherm_pair (f : ThermState → ThermState) (s : State) : (putTherm f s).pair = s.pair := rfl
@[simp] theorem putTherm_fw (f : ThermState → ThermState) (s : State) : (putTherm f s).fw = s.fw := rfl
@[simp] theorem putTherm_flash (f : ThermState → ThermState) (s : State) : (putTherm f s).flash = s.flash := rfl
@[simp] theorem putTherm_otp (f : ThermState → ThermState) (s : State) : (putTherm f s).otp = s.otp := rfl
@[simp] theorem putTherm_sec (f : ThermState → ThermState) (s : State) : (putTherm f s).sec = s.sec := rfl
@[simp] theorem putTherm_mods (f : ThermState → ThermState) (s : State) : (putTherm f s).mods = s.mods := rfl
@[simp] theorem putTherm_svc (f : ThermState → ThermState) (s : State) : (putTherm f s).svc = s.svc := rfl
@[simp] theorem putTherm_jtag (f : ThermState → ThermState) (s : State) : (putTherm f s).jtag = s.jtag := rfl
@[simp] theorem putTherm_free (f : ThermState → ThermState) (s : State) : (putTherm f s).free = s.free := rfl
@[simp] theorem putTherm_pending (f : ThermState → ThermState) (s : State) : (putTherm f s).pending = s.pending := rfl

/-! ## `putPair` -/

@[simp] theorem putPair_now (f : PairState → PairState) (s : State) : (putPair f s).now = s.now := rfl
@[simp] theorem putPair_mono (f : PairState → PairState) (s : State) : (putPair f s).mono = s.mono := rfl
@[simp] theorem putPair_pins (f : PairState → PairState) (s : State) : (putPair f s).pins = s.pins := rfl
@[simp] theorem putPair_regs (f : PairState → PairState) (s : State) : (putPair f s).regs = s.regs := rfl
@[simp] theorem putPair_latch (f : PairState → PairState) (s : State) : (putPair f s).latch = s.latch := rfl
@[simp] theorem putPair_readData (f : PairState → PairState) (s : State) : (putPair f s).readData = s.readData := rfl
@[simp] theorem putPair_cmd (f : PairState → PairState) (s : State) : (putPair f s).cmd = s.cmd := rfl
@[simp] theorem putPair_evq (f : PairState → PairState) (s : State) : (putPair f s).evq = s.evq := rfl
@[simp] theorem putPair_plan (f : PairState → PairState) (s : State) : (putPair f s).plan = s.plan := rfl
@[simp] theorem putPair_take (f : PairState → PairState) (s : State) : (putPair f s).take = s.take := rfl
@[simp] theorem putPair_port (f : PairState → PairState) (s : State) : (putPair f s).port = s.port := rfl
@[simp] theorem putPair_mem (f : PairState → PairState) (s : State) : (putPair f s).mem = s.mem := rfl
@[simp] theorem putPair_sched (f : PairState → PairState) (s : State) : (putPair f s).sched = s.sched := rfl
@[simp] theorem putPair_trk (f : PairState → PairState) (s : State) : (putPair f s).trk = s.trk := rfl
@[simp] theorem putPair_eth (f : PairState → PairState) (s : State) : (putPair f s).eth = s.eth := rfl
@[simp] theorem putPair_flow (f : PairState → PairState) (s : State) : (putPair f s).flow = s.flow := rfl
@[simp] theorem putPair_ibx (f : PairState → PairState) (s : State) : (putPair f s).ibx = s.ibx := rfl
@[simp] theorem putPair_comp (f : PairState → PairState) (s : State) : (putPair f s).comp = s.comp := rfl
@[simp] theorem putPair_aud (f : PairState → PairState) (s : State) : (putPair f s).aud = s.aud := rfl
@[simp] theorem putPair_ref (f : PairState → PairState) (s : State) : (putPair f s).ref = s.ref := rfl
@[simp] theorem putPair_plls (f : PairState → PairState) (s : State) : (putPair f s).plls = s.plls := rfl
@[simp] theorem putPair_time (f : PairState → PairState) (s : State) : (putPair f s).time = s.time := rfl
@[simp] theorem putPair_fw (f : PairState → PairState) (s : State) : (putPair f s).fw = s.fw := rfl
@[simp] theorem putPair_flash (f : PairState → PairState) (s : State) : (putPair f s).flash = s.flash := rfl
@[simp] theorem putPair_otp (f : PairState → PairState) (s : State) : (putPair f s).otp = s.otp := rfl
@[simp] theorem putPair_sec (f : PairState → PairState) (s : State) : (putPair f s).sec = s.sec := rfl
@[simp] theorem putPair_mods (f : PairState → PairState) (s : State) : (putPair f s).mods = s.mods := rfl
@[simp] theorem putPair_therm (f : PairState → PairState) (s : State) : (putPair f s).therm = s.therm := rfl
@[simp] theorem putPair_svc (f : PairState → PairState) (s : State) : (putPair f s).svc = s.svc := rfl
@[simp] theorem putPair_jtag (f : PairState → PairState) (s : State) : (putPair f s).jtag = s.jtag := rfl
@[simp] theorem putPair_free (f : PairState → PairState) (s : State) : (putPair f s).free = s.free := rfl
@[simp] theorem putPair_pending (f : PairState → PairState) (s : State) : (putPair f s).pending = s.pending := rfl

/-! ## `putIn` -/

@[simp] theorem putIn_now (n : Nat) (t : InTrack) (s : State) : (putIn n t s).now = s.now := rfl
@[simp] theorem putIn_mono (n : Nat) (t : InTrack) (s : State) : (putIn n t s).mono = s.mono := rfl
@[simp] theorem putIn_pins (n : Nat) (t : InTrack) (s : State) : (putIn n t s).pins = s.pins := rfl
@[simp] theorem putIn_regs (n : Nat) (t : InTrack) (s : State) : (putIn n t s).regs = s.regs := rfl
@[simp] theorem putIn_latch (n : Nat) (t : InTrack) (s : State) : (putIn n t s).latch = s.latch := rfl
@[simp] theorem putIn_readData (n : Nat) (t : InTrack) (s : State) : (putIn n t s).readData = s.readData := rfl
@[simp] theorem putIn_cmd (n : Nat) (t : InTrack) (s : State) : (putIn n t s).cmd = s.cmd := rfl
@[simp] theorem putIn_evq (n : Nat) (t : InTrack) (s : State) : (putIn n t s).evq = s.evq := rfl
@[simp] theorem putIn_plan (n : Nat) (t : InTrack) (s : State) : (putIn n t s).plan = s.plan := rfl
@[simp] theorem putIn_take (n : Nat) (t : InTrack) (s : State) : (putIn n t s).take = s.take := rfl
@[simp] theorem putIn_mem (n : Nat) (t : InTrack) (s : State) : (putIn n t s).mem = s.mem := rfl
@[simp] theorem putIn_sched (n : Nat) (t : InTrack) (s : State) : (putIn n t s).sched = s.sched := rfl
@[simp] theorem putIn_trk (n : Nat) (t : InTrack) (s : State) : (putIn n t s).trk = s.trk := rfl
@[simp] theorem putIn_eth (n : Nat) (t : InTrack) (s : State) : (putIn n t s).eth = s.eth := rfl
@[simp] theorem putIn_flow (n : Nat) (t : InTrack) (s : State) : (putIn n t s).flow = s.flow := rfl
@[simp] theorem putIn_ibx (n : Nat) (t : InTrack) (s : State) : (putIn n t s).ibx = s.ibx := rfl
@[simp] theorem putIn_comp (n : Nat) (t : InTrack) (s : State) : (putIn n t s).comp = s.comp := rfl
@[simp] theorem putIn_aud (n : Nat) (t : InTrack) (s : State) : (putIn n t s).aud = s.aud := rfl
@[simp] theorem putIn_ref (n : Nat) (t : InTrack) (s : State) : (putIn n t s).ref = s.ref := rfl
@[simp] theorem putIn_plls (n : Nat) (t : InTrack) (s : State) : (putIn n t s).plls = s.plls := rfl
@[simp] theorem putIn_time (n : Nat) (t : InTrack) (s : State) : (putIn n t s).time = s.time := rfl
@[simp] theorem putIn_pair (n : Nat) (t : InTrack) (s : State) : (putIn n t s).pair = s.pair := rfl
@[simp] theorem putIn_fw (n : Nat) (t : InTrack) (s : State) : (putIn n t s).fw = s.fw := rfl
@[simp] theorem putIn_flash (n : Nat) (t : InTrack) (s : State) : (putIn n t s).flash = s.flash := rfl
@[simp] theorem putIn_otp (n : Nat) (t : InTrack) (s : State) : (putIn n t s).otp = s.otp := rfl
@[simp] theorem putIn_sec (n : Nat) (t : InTrack) (s : State) : (putIn n t s).sec = s.sec := rfl
@[simp] theorem putIn_mods (n : Nat) (t : InTrack) (s : State) : (putIn n t s).mods = s.mods := rfl
@[simp] theorem putIn_therm (n : Nat) (t : InTrack) (s : State) : (putIn n t s).therm = s.therm := rfl
@[simp] theorem putIn_svc (n : Nat) (t : InTrack) (s : State) : (putIn n t s).svc = s.svc := rfl
@[simp] theorem putIn_jtag (n : Nat) (t : InTrack) (s : State) : (putIn n t s).jtag = s.jtag := rfl
@[simp] theorem putIn_free (n : Nat) (t : InTrack) (s : State) : (putIn n t s).free = s.free := rfl
@[simp] theorem putIn_pending (n : Nat) (t : InTrack) (s : State) : (putIn n t s).pending = s.pending := rfl

/-! ## `putOut` -/

@[simp] theorem putOut_now (n : Nat) (t : OutTrack) (s : State) : (putOut n t s).now = s.now := rfl
@[simp] theorem putOut_mono (n : Nat) (t : OutTrack) (s : State) : (putOut n t s).mono = s.mono := rfl
@[simp] theorem putOut_pins (n : Nat) (t : OutTrack) (s : State) : (putOut n t s).pins = s.pins := rfl
@[simp] theorem putOut_regs (n : Nat) (t : OutTrack) (s : State) : (putOut n t s).regs = s.regs := rfl
@[simp] theorem putOut_latch (n : Nat) (t : OutTrack) (s : State) : (putOut n t s).latch = s.latch := rfl
@[simp] theorem putOut_readData (n : Nat) (t : OutTrack) (s : State) : (putOut n t s).readData = s.readData := rfl
@[simp] theorem putOut_cmd (n : Nat) (t : OutTrack) (s : State) : (putOut n t s).cmd = s.cmd := rfl
@[simp] theorem putOut_evq (n : Nat) (t : OutTrack) (s : State) : (putOut n t s).evq = s.evq := rfl
@[simp] theorem putOut_plan (n : Nat) (t : OutTrack) (s : State) : (putOut n t s).plan = s.plan := rfl
@[simp] theorem putOut_take (n : Nat) (t : OutTrack) (s : State) : (putOut n t s).take = s.take := rfl
@[simp] theorem putOut_mem (n : Nat) (t : OutTrack) (s : State) : (putOut n t s).mem = s.mem := rfl
@[simp] theorem putOut_sched (n : Nat) (t : OutTrack) (s : State) : (putOut n t s).sched = s.sched := rfl
@[simp] theorem putOut_trk (n : Nat) (t : OutTrack) (s : State) : (putOut n t s).trk = s.trk := rfl
@[simp] theorem putOut_eth (n : Nat) (t : OutTrack) (s : State) : (putOut n t s).eth = s.eth := rfl
@[simp] theorem putOut_flow (n : Nat) (t : OutTrack) (s : State) : (putOut n t s).flow = s.flow := rfl
@[simp] theorem putOut_ibx (n : Nat) (t : OutTrack) (s : State) : (putOut n t s).ibx = s.ibx := rfl
@[simp] theorem putOut_comp (n : Nat) (t : OutTrack) (s : State) : (putOut n t s).comp = s.comp := rfl
@[simp] theorem putOut_aud (n : Nat) (t : OutTrack) (s : State) : (putOut n t s).aud = s.aud := rfl
@[simp] theorem putOut_ref (n : Nat) (t : OutTrack) (s : State) : (putOut n t s).ref = s.ref := rfl
@[simp] theorem putOut_plls (n : Nat) (t : OutTrack) (s : State) : (putOut n t s).plls = s.plls := rfl
@[simp] theorem putOut_time (n : Nat) (t : OutTrack) (s : State) : (putOut n t s).time = s.time := rfl
@[simp] theorem putOut_pair (n : Nat) (t : OutTrack) (s : State) : (putOut n t s).pair = s.pair := rfl
@[simp] theorem putOut_fw (n : Nat) (t : OutTrack) (s : State) : (putOut n t s).fw = s.fw := rfl
@[simp] theorem putOut_flash (n : Nat) (t : OutTrack) (s : State) : (putOut n t s).flash = s.flash := rfl
@[simp] theorem putOut_otp (n : Nat) (t : OutTrack) (s : State) : (putOut n t s).otp = s.otp := rfl
@[simp] theorem putOut_sec (n : Nat) (t : OutTrack) (s : State) : (putOut n t s).sec = s.sec := rfl
@[simp] theorem putOut_mods (n : Nat) (t : OutTrack) (s : State) : (putOut n t s).mods = s.mods := rfl
@[simp] theorem putOut_therm (n : Nat) (t : OutTrack) (s : State) : (putOut n t s).therm = s.therm := rfl
@[simp] theorem putOut_svc (n : Nat) (t : OutTrack) (s : State) : (putOut n t s).svc = s.svc := rfl
@[simp] theorem putOut_jtag (n : Nat) (t : OutTrack) (s : State) : (putOut n t s).jtag = s.jtag := rfl
@[simp] theorem putOut_free (n : Nat) (t : OutTrack) (s : State) : (putOut n t s).free = s.free := rfl
@[simp] theorem putOut_pending (n : Nat) (t : OutTrack) (s : State) : (putOut n t s).pending = s.pending := rfl

/-! ## `putFs` -/

@[simp] theorem putFs_now (n : Nat) (t : FsTrack) (s : State) : (putFs n t s).now = s.now := rfl
@[simp] theorem putFs_mono (n : Nat) (t : FsTrack) (s : State) : (putFs n t s).mono = s.mono := rfl
@[simp] theorem putFs_pins (n : Nat) (t : FsTrack) (s : State) : (putFs n t s).pins = s.pins := rfl
@[simp] theorem putFs_regs (n : Nat) (t : FsTrack) (s : State) : (putFs n t s).regs = s.regs := rfl
@[simp] theorem putFs_latch (n : Nat) (t : FsTrack) (s : State) : (putFs n t s).latch = s.latch := rfl
@[simp] theorem putFs_readData (n : Nat) (t : FsTrack) (s : State) : (putFs n t s).readData = s.readData := rfl
@[simp] theorem putFs_cmd (n : Nat) (t : FsTrack) (s : State) : (putFs n t s).cmd = s.cmd := rfl
@[simp] theorem putFs_evq (n : Nat) (t : FsTrack) (s : State) : (putFs n t s).evq = s.evq := rfl
@[simp] theorem putFs_plan (n : Nat) (t : FsTrack) (s : State) : (putFs n t s).plan = s.plan := rfl
@[simp] theorem putFs_take (n : Nat) (t : FsTrack) (s : State) : (putFs n t s).take = s.take := rfl
@[simp] theorem putFs_port (n : Nat) (t : FsTrack) (s : State) : (putFs n t s).port = s.port := rfl
@[simp] theorem putFs_sched (n : Nat) (t : FsTrack) (s : State) : (putFs n t s).sched = s.sched := rfl
@[simp] theorem putFs_trk (n : Nat) (t : FsTrack) (s : State) : (putFs n t s).trk = s.trk := rfl
@[simp] theorem putFs_eth (n : Nat) (t : FsTrack) (s : State) : (putFs n t s).eth = s.eth := rfl
@[simp] theorem putFs_flow (n : Nat) (t : FsTrack) (s : State) : (putFs n t s).flow = s.flow := rfl
@[simp] theorem putFs_ibx (n : Nat) (t : FsTrack) (s : State) : (putFs n t s).ibx = s.ibx := rfl
@[simp] theorem putFs_comp (n : Nat) (t : FsTrack) (s : State) : (putFs n t s).comp = s.comp := rfl
@[simp] theorem putFs_aud (n : Nat) (t : FsTrack) (s : State) : (putFs n t s).aud = s.aud := rfl
@[simp] theorem putFs_ref (n : Nat) (t : FsTrack) (s : State) : (putFs n t s).ref = s.ref := rfl
@[simp] theorem putFs_plls (n : Nat) (t : FsTrack) (s : State) : (putFs n t s).plls = s.plls := rfl
@[simp] theorem putFs_time (n : Nat) (t : FsTrack) (s : State) : (putFs n t s).time = s.time := rfl
@[simp] theorem putFs_pair (n : Nat) (t : FsTrack) (s : State) : (putFs n t s).pair = s.pair := rfl
@[simp] theorem putFs_fw (n : Nat) (t : FsTrack) (s : State) : (putFs n t s).fw = s.fw := rfl
@[simp] theorem putFs_flash (n : Nat) (t : FsTrack) (s : State) : (putFs n t s).flash = s.flash := rfl
@[simp] theorem putFs_otp (n : Nat) (t : FsTrack) (s : State) : (putFs n t s).otp = s.otp := rfl
@[simp] theorem putFs_sec (n : Nat) (t : FsTrack) (s : State) : (putFs n t s).sec = s.sec := rfl
@[simp] theorem putFs_mods (n : Nat) (t : FsTrack) (s : State) : (putFs n t s).mods = s.mods := rfl
@[simp] theorem putFs_therm (n : Nat) (t : FsTrack) (s : State) : (putFs n t s).therm = s.therm := rfl
@[simp] theorem putFs_svc (n : Nat) (t : FsTrack) (s : State) : (putFs n t s).svc = s.svc := rfl
@[simp] theorem putFs_jtag (n : Nat) (t : FsTrack) (s : State) : (putFs n t s).jtag = s.jtag := rfl
@[simp] theorem putFs_free (n : Nat) (t : FsTrack) (s : State) : (putFs n t s).free = s.free := rfl
@[simp] theorem putFs_pending (n : Nat) (t : FsTrack) (s : State) : (putFs n t s).pending = s.pending := rfl

/-! ## `putLink` -/

@[simp] theorem putLink_now (n : Nat) (t : LinkTrack) (s : State) : (putLink n t s).now = s.now := rfl
@[simp] theorem putLink_mono (n : Nat) (t : LinkTrack) (s : State) : (putLink n t s).mono = s.mono := rfl
@[simp] theorem putLink_pins (n : Nat) (t : LinkTrack) (s : State) : (putLink n t s).pins = s.pins := rfl
@[simp] theorem putLink_regs (n : Nat) (t : LinkTrack) (s : State) : (putLink n t s).regs = s.regs := rfl
@[simp] theorem putLink_latch (n : Nat) (t : LinkTrack) (s : State) : (putLink n t s).latch = s.latch := rfl
@[simp] theorem putLink_readData (n : Nat) (t : LinkTrack) (s : State) : (putLink n t s).readData = s.readData := rfl
@[simp] theorem putLink_cmd (n : Nat) (t : LinkTrack) (s : State) : (putLink n t s).cmd = s.cmd := rfl
@[simp] theorem putLink_evq (n : Nat) (t : LinkTrack) (s : State) : (putLink n t s).evq = s.evq := rfl
@[simp] theorem putLink_plan (n : Nat) (t : LinkTrack) (s : State) : (putLink n t s).plan = s.plan := rfl
@[simp] theorem putLink_take (n : Nat) (t : LinkTrack) (s : State) : (putLink n t s).take = s.take := rfl
@[simp] theorem putLink_port (n : Nat) (t : LinkTrack) (s : State) : (putLink n t s).port = s.port := rfl
@[simp] theorem putLink_mem (n : Nat) (t : LinkTrack) (s : State) : (putLink n t s).mem = s.mem := rfl
@[simp] theorem putLink_sched (n : Nat) (t : LinkTrack) (s : State) : (putLink n t s).sched = s.sched := rfl
@[simp] theorem putLink_eth (n : Nat) (t : LinkTrack) (s : State) : (putLink n t s).eth = s.eth := rfl
@[simp] theorem putLink_flow (n : Nat) (t : LinkTrack) (s : State) : (putLink n t s).flow = s.flow := rfl
@[simp] theorem putLink_ibx (n : Nat) (t : LinkTrack) (s : State) : (putLink n t s).ibx = s.ibx := rfl
@[simp] theorem putLink_comp (n : Nat) (t : LinkTrack) (s : State) : (putLink n t s).comp = s.comp := rfl
@[simp] theorem putLink_aud (n : Nat) (t : LinkTrack) (s : State) : (putLink n t s).aud = s.aud := rfl
@[simp] theorem putLink_ref (n : Nat) (t : LinkTrack) (s : State) : (putLink n t s).ref = s.ref := rfl
@[simp] theorem putLink_plls (n : Nat) (t : LinkTrack) (s : State) : (putLink n t s).plls = s.plls := rfl
@[simp] theorem putLink_time (n : Nat) (t : LinkTrack) (s : State) : (putLink n t s).time = s.time := rfl
@[simp] theorem putLink_pair (n : Nat) (t : LinkTrack) (s : State) : (putLink n t s).pair = s.pair := rfl
@[simp] theorem putLink_fw (n : Nat) (t : LinkTrack) (s : State) : (putLink n t s).fw = s.fw := rfl
@[simp] theorem putLink_flash (n : Nat) (t : LinkTrack) (s : State) : (putLink n t s).flash = s.flash := rfl
@[simp] theorem putLink_otp (n : Nat) (t : LinkTrack) (s : State) : (putLink n t s).otp = s.otp := rfl
@[simp] theorem putLink_sec (n : Nat) (t : LinkTrack) (s : State) : (putLink n t s).sec = s.sec := rfl
@[simp] theorem putLink_mods (n : Nat) (t : LinkTrack) (s : State) : (putLink n t s).mods = s.mods := rfl
@[simp] theorem putLink_therm (n : Nat) (t : LinkTrack) (s : State) : (putLink n t s).therm = s.therm := rfl
@[simp] theorem putLink_svc (n : Nat) (t : LinkTrack) (s : State) : (putLink n t s).svc = s.svc := rfl
@[simp] theorem putLink_jtag (n : Nat) (t : LinkTrack) (s : State) : (putLink n t s).jtag = s.jtag := rfl
@[simp] theorem putLink_free (n : Nat) (t : LinkTrack) (s : State) : (putLink n t s).free = s.free := rfl
@[simp] theorem putLink_pending (n : Nat) (t : LinkTrack) (s : State) : (putLink n t s).pending = s.pending := rfl

/-! ## `putLane` -/

@[simp] theorem putLane_now (n : Nat) (t : LaneTrack) (s : State) : (putLane n t s).now = s.now := rfl
@[simp] theorem putLane_mono (n : Nat) (t : LaneTrack) (s : State) : (putLane n t s).mono = s.mono := rfl
@[simp] theorem putLane_pins (n : Nat) (t : LaneTrack) (s : State) : (putLane n t s).pins = s.pins := rfl
@[simp] theorem putLane_regs (n : Nat) (t : LaneTrack) (s : State) : (putLane n t s).regs = s.regs := rfl
@[simp] theorem putLane_latch (n : Nat) (t : LaneTrack) (s : State) : (putLane n t s).latch = s.latch := rfl
@[simp] theorem putLane_readData (n : Nat) (t : LaneTrack) (s : State) : (putLane n t s).readData = s.readData := rfl
@[simp] theorem putLane_cmd (n : Nat) (t : LaneTrack) (s : State) : (putLane n t s).cmd = s.cmd := rfl
@[simp] theorem putLane_evq (n : Nat) (t : LaneTrack) (s : State) : (putLane n t s).evq = s.evq := rfl
@[simp] theorem putLane_plan (n : Nat) (t : LaneTrack) (s : State) : (putLane n t s).plan = s.plan := rfl
@[simp] theorem putLane_take (n : Nat) (t : LaneTrack) (s : State) : (putLane n t s).take = s.take := rfl
@[simp] theorem putLane_port (n : Nat) (t : LaneTrack) (s : State) : (putLane n t s).port = s.port := rfl
@[simp] theorem putLane_mem (n : Nat) (t : LaneTrack) (s : State) : (putLane n t s).mem = s.mem := rfl
@[simp] theorem putLane_sched (n : Nat) (t : LaneTrack) (s : State) : (putLane n t s).sched = s.sched := rfl
@[simp] theorem putLane_eth (n : Nat) (t : LaneTrack) (s : State) : (putLane n t s).eth = s.eth := rfl
@[simp] theorem putLane_flow (n : Nat) (t : LaneTrack) (s : State) : (putLane n t s).flow = s.flow := rfl
@[simp] theorem putLane_ibx (n : Nat) (t : LaneTrack) (s : State) : (putLane n t s).ibx = s.ibx := rfl
@[simp] theorem putLane_comp (n : Nat) (t : LaneTrack) (s : State) : (putLane n t s).comp = s.comp := rfl
@[simp] theorem putLane_aud (n : Nat) (t : LaneTrack) (s : State) : (putLane n t s).aud = s.aud := rfl
@[simp] theorem putLane_ref (n : Nat) (t : LaneTrack) (s : State) : (putLane n t s).ref = s.ref := rfl
@[simp] theorem putLane_plls (n : Nat) (t : LaneTrack) (s : State) : (putLane n t s).plls = s.plls := rfl
@[simp] theorem putLane_time (n : Nat) (t : LaneTrack) (s : State) : (putLane n t s).time = s.time := rfl
@[simp] theorem putLane_pair (n : Nat) (t : LaneTrack) (s : State) : (putLane n t s).pair = s.pair := rfl
@[simp] theorem putLane_fw (n : Nat) (t : LaneTrack) (s : State) : (putLane n t s).fw = s.fw := rfl
@[simp] theorem putLane_flash (n : Nat) (t : LaneTrack) (s : State) : (putLane n t s).flash = s.flash := rfl
@[simp] theorem putLane_otp (n : Nat) (t : LaneTrack) (s : State) : (putLane n t s).otp = s.otp := rfl
@[simp] theorem putLane_sec (n : Nat) (t : LaneTrack) (s : State) : (putLane n t s).sec = s.sec := rfl
@[simp] theorem putLane_mods (n : Nat) (t : LaneTrack) (s : State) : (putLane n t s).mods = s.mods := rfl
@[simp] theorem putLane_therm (n : Nat) (t : LaneTrack) (s : State) : (putLane n t s).therm = s.therm := rfl
@[simp] theorem putLane_svc (n : Nat) (t : LaneTrack) (s : State) : (putLane n t s).svc = s.svc := rfl
@[simp] theorem putLane_jtag (n : Nat) (t : LaneTrack) (s : State) : (putLane n t s).jtag = s.jtag := rfl
@[simp] theorem putLane_free (n : Nat) (t : LaneTrack) (s : State) : (putLane n t s).free = s.free := rfl
@[simp] theorem putLane_pending (n : Nat) (t : LaneTrack) (s : State) : (putLane n t s).pending = s.pending := rfl

/-! ## `putEth` -/

@[simp] theorem putEth_now (n : Nat) (t : EthTrack) (s : State) : (putEth n t s).now = s.now := rfl
@[simp] theorem putEth_mono (n : Nat) (t : EthTrack) (s : State) : (putEth n t s).mono = s.mono := rfl
@[simp] theorem putEth_pins (n : Nat) (t : EthTrack) (s : State) : (putEth n t s).pins = s.pins := rfl
@[simp] theorem putEth_regs (n : Nat) (t : EthTrack) (s : State) : (putEth n t s).regs = s.regs := rfl
@[simp] theorem putEth_latch (n : Nat) (t : EthTrack) (s : State) : (putEth n t s).latch = s.latch := rfl
@[simp] theorem putEth_readData (n : Nat) (t : EthTrack) (s : State) : (putEth n t s).readData = s.readData := rfl
@[simp] theorem putEth_cmd (n : Nat) (t : EthTrack) (s : State) : (putEth n t s).cmd = s.cmd := rfl
@[simp] theorem putEth_evq (n : Nat) (t : EthTrack) (s : State) : (putEth n t s).evq = s.evq := rfl
@[simp] theorem putEth_plan (n : Nat) (t : EthTrack) (s : State) : (putEth n t s).plan = s.plan := rfl
@[simp] theorem putEth_take (n : Nat) (t : EthTrack) (s : State) : (putEth n t s).take = s.take := rfl
@[simp] theorem putEth_port (n : Nat) (t : EthTrack) (s : State) : (putEth n t s).port = s.port := rfl
@[simp] theorem putEth_mem (n : Nat) (t : EthTrack) (s : State) : (putEth n t s).mem = s.mem := rfl
@[simp] theorem putEth_sched (n : Nat) (t : EthTrack) (s : State) : (putEth n t s).sched = s.sched := rfl
@[simp] theorem putEth_trk (n : Nat) (t : EthTrack) (s : State) : (putEth n t s).trk = s.trk := rfl
@[simp] theorem putEth_flow (n : Nat) (t : EthTrack) (s : State) : (putEth n t s).flow = s.flow := rfl
@[simp] theorem putEth_ibx (n : Nat) (t : EthTrack) (s : State) : (putEth n t s).ibx = s.ibx := rfl
@[simp] theorem putEth_comp (n : Nat) (t : EthTrack) (s : State) : (putEth n t s).comp = s.comp := rfl
@[simp] theorem putEth_aud (n : Nat) (t : EthTrack) (s : State) : (putEth n t s).aud = s.aud := rfl
@[simp] theorem putEth_ref (n : Nat) (t : EthTrack) (s : State) : (putEth n t s).ref = s.ref := rfl
@[simp] theorem putEth_plls (n : Nat) (t : EthTrack) (s : State) : (putEth n t s).plls = s.plls := rfl
@[simp] theorem putEth_time (n : Nat) (t : EthTrack) (s : State) : (putEth n t s).time = s.time := rfl
@[simp] theorem putEth_pair (n : Nat) (t : EthTrack) (s : State) : (putEth n t s).pair = s.pair := rfl
@[simp] theorem putEth_fw (n : Nat) (t : EthTrack) (s : State) : (putEth n t s).fw = s.fw := rfl
@[simp] theorem putEth_flash (n : Nat) (t : EthTrack) (s : State) : (putEth n t s).flash = s.flash := rfl
@[simp] theorem putEth_otp (n : Nat) (t : EthTrack) (s : State) : (putEth n t s).otp = s.otp := rfl
@[simp] theorem putEth_sec (n : Nat) (t : EthTrack) (s : State) : (putEth n t s).sec = s.sec := rfl
@[simp] theorem putEth_mods (n : Nat) (t : EthTrack) (s : State) : (putEth n t s).mods = s.mods := rfl
@[simp] theorem putEth_therm (n : Nat) (t : EthTrack) (s : State) : (putEth n t s).therm = s.therm := rfl
@[simp] theorem putEth_svc (n : Nat) (t : EthTrack) (s : State) : (putEth n t s).svc = s.svc := rfl
@[simp] theorem putEth_jtag (n : Nat) (t : EthTrack) (s : State) : (putEth n t s).jtag = s.jtag := rfl
@[simp] theorem putEth_free (n : Nat) (t : EthTrack) (s : State) : (putEth n t s).free = s.free := rfl
@[simp] theorem putEth_pending (n : Nat) (t : EthTrack) (s : State) : (putEth n t s).pending = s.pending := rfl

/-! ## `putFlow` -/

@[simp] theorem putFlow_now (n : Nat) (t : FlowTrack) (s : State) : (putFlow n t s).now = s.now := rfl
@[simp] theorem putFlow_mono (n : Nat) (t : FlowTrack) (s : State) : (putFlow n t s).mono = s.mono := rfl
@[simp] theorem putFlow_pins (n : Nat) (t : FlowTrack) (s : State) : (putFlow n t s).pins = s.pins := rfl
@[simp] theorem putFlow_regs (n : Nat) (t : FlowTrack) (s : State) : (putFlow n t s).regs = s.regs := rfl
@[simp] theorem putFlow_latch (n : Nat) (t : FlowTrack) (s : State) : (putFlow n t s).latch = s.latch := rfl
@[simp] theorem putFlow_readData (n : Nat) (t : FlowTrack) (s : State) : (putFlow n t s).readData = s.readData := rfl
@[simp] theorem putFlow_cmd (n : Nat) (t : FlowTrack) (s : State) : (putFlow n t s).cmd = s.cmd := rfl
@[simp] theorem putFlow_evq (n : Nat) (t : FlowTrack) (s : State) : (putFlow n t s).evq = s.evq := rfl
@[simp] theorem putFlow_plan (n : Nat) (t : FlowTrack) (s : State) : (putFlow n t s).plan = s.plan := rfl
@[simp] theorem putFlow_take (n : Nat) (t : FlowTrack) (s : State) : (putFlow n t s).take = s.take := rfl
@[simp] theorem putFlow_port (n : Nat) (t : FlowTrack) (s : State) : (putFlow n t s).port = s.port := rfl
@[simp] theorem putFlow_mem (n : Nat) (t : FlowTrack) (s : State) : (putFlow n t s).mem = s.mem := rfl
@[simp] theorem putFlow_sched (n : Nat) (t : FlowTrack) (s : State) : (putFlow n t s).sched = s.sched := rfl
@[simp] theorem putFlow_trk (n : Nat) (t : FlowTrack) (s : State) : (putFlow n t s).trk = s.trk := rfl
@[simp] theorem putFlow_eth (n : Nat) (t : FlowTrack) (s : State) : (putFlow n t s).eth = s.eth := rfl
@[simp] theorem putFlow_ibx (n : Nat) (t : FlowTrack) (s : State) : (putFlow n t s).ibx = s.ibx := rfl
@[simp] theorem putFlow_comp (n : Nat) (t : FlowTrack) (s : State) : (putFlow n t s).comp = s.comp := rfl
@[simp] theorem putFlow_aud (n : Nat) (t : FlowTrack) (s : State) : (putFlow n t s).aud = s.aud := rfl
@[simp] theorem putFlow_ref (n : Nat) (t : FlowTrack) (s : State) : (putFlow n t s).ref = s.ref := rfl
@[simp] theorem putFlow_plls (n : Nat) (t : FlowTrack) (s : State) : (putFlow n t s).plls = s.plls := rfl
@[simp] theorem putFlow_time (n : Nat) (t : FlowTrack) (s : State) : (putFlow n t s).time = s.time := rfl
@[simp] theorem putFlow_pair (n : Nat) (t : FlowTrack) (s : State) : (putFlow n t s).pair = s.pair := rfl
@[simp] theorem putFlow_fw (n : Nat) (t : FlowTrack) (s : State) : (putFlow n t s).fw = s.fw := rfl
@[simp] theorem putFlow_flash (n : Nat) (t : FlowTrack) (s : State) : (putFlow n t s).flash = s.flash := rfl
@[simp] theorem putFlow_otp (n : Nat) (t : FlowTrack) (s : State) : (putFlow n t s).otp = s.otp := rfl
@[simp] theorem putFlow_sec (n : Nat) (t : FlowTrack) (s : State) : (putFlow n t s).sec = s.sec := rfl
@[simp] theorem putFlow_mods (n : Nat) (t : FlowTrack) (s : State) : (putFlow n t s).mods = s.mods := rfl
@[simp] theorem putFlow_therm (n : Nat) (t : FlowTrack) (s : State) : (putFlow n t s).therm = s.therm := rfl
@[simp] theorem putFlow_svc (n : Nat) (t : FlowTrack) (s : State) : (putFlow n t s).svc = s.svc := rfl
@[simp] theorem putFlow_jtag (n : Nat) (t : FlowTrack) (s : State) : (putFlow n t s).jtag = s.jtag := rfl
@[simp] theorem putFlow_free (n : Nat) (t : FlowTrack) (s : State) : (putFlow n t s).free = s.free := rfl
@[simp] theorem putFlow_pending (n : Nat) (t : FlowTrack) (s : State) : (putFlow n t s).pending = s.pending := rfl

/-! ## `putEng` -/

@[simp] theorem putEng_now (n : Nat) (t : EngTrack) (s : State) : (putEng n t s).now = s.now := rfl
@[simp] theorem putEng_mono (n : Nat) (t : EngTrack) (s : State) : (putEng n t s).mono = s.mono := rfl
@[simp] theorem putEng_pins (n : Nat) (t : EngTrack) (s : State) : (putEng n t s).pins = s.pins := rfl
@[simp] theorem putEng_regs (n : Nat) (t : EngTrack) (s : State) : (putEng n t s).regs = s.regs := rfl
@[simp] theorem putEng_latch (n : Nat) (t : EngTrack) (s : State) : (putEng n t s).latch = s.latch := rfl
@[simp] theorem putEng_readData (n : Nat) (t : EngTrack) (s : State) : (putEng n t s).readData = s.readData := rfl
@[simp] theorem putEng_cmd (n : Nat) (t : EngTrack) (s : State) : (putEng n t s).cmd = s.cmd := rfl
@[simp] theorem putEng_evq (n : Nat) (t : EngTrack) (s : State) : (putEng n t s).evq = s.evq := rfl
@[simp] theorem putEng_plan (n : Nat) (t : EngTrack) (s : State) : (putEng n t s).plan = s.plan := rfl
@[simp] theorem putEng_take (n : Nat) (t : EngTrack) (s : State) : (putEng n t s).take = s.take := rfl
@[simp] theorem putEng_port (n : Nat) (t : EngTrack) (s : State) : (putEng n t s).port = s.port := rfl
@[simp] theorem putEng_mem (n : Nat) (t : EngTrack) (s : State) : (putEng n t s).mem = s.mem := rfl
@[simp] theorem putEng_sched (n : Nat) (t : EngTrack) (s : State) : (putEng n t s).sched = s.sched := rfl
@[simp] theorem putEng_trk (n : Nat) (t : EngTrack) (s : State) : (putEng n t s).trk = s.trk := rfl
@[simp] theorem putEng_eth (n : Nat) (t : EngTrack) (s : State) : (putEng n t s).eth = s.eth := rfl
@[simp] theorem putEng_flow (n : Nat) (t : EngTrack) (s : State) : (putEng n t s).flow = s.flow := rfl
@[simp] theorem putEng_comp (n : Nat) (t : EngTrack) (s : State) : (putEng n t s).comp = s.comp := rfl
@[simp] theorem putEng_aud (n : Nat) (t : EngTrack) (s : State) : (putEng n t s).aud = s.aud := rfl
@[simp] theorem putEng_ref (n : Nat) (t : EngTrack) (s : State) : (putEng n t s).ref = s.ref := rfl
@[simp] theorem putEng_plls (n : Nat) (t : EngTrack) (s : State) : (putEng n t s).plls = s.plls := rfl
@[simp] theorem putEng_time (n : Nat) (t : EngTrack) (s : State) : (putEng n t s).time = s.time := rfl
@[simp] theorem putEng_pair (n : Nat) (t : EngTrack) (s : State) : (putEng n t s).pair = s.pair := rfl
@[simp] theorem putEng_fw (n : Nat) (t : EngTrack) (s : State) : (putEng n t s).fw = s.fw := rfl
@[simp] theorem putEng_flash (n : Nat) (t : EngTrack) (s : State) : (putEng n t s).flash = s.flash := rfl
@[simp] theorem putEng_otp (n : Nat) (t : EngTrack) (s : State) : (putEng n t s).otp = s.otp := rfl
@[simp] theorem putEng_sec (n : Nat) (t : EngTrack) (s : State) : (putEng n t s).sec = s.sec := rfl
@[simp] theorem putEng_mods (n : Nat) (t : EngTrack) (s : State) : (putEng n t s).mods = s.mods := rfl
@[simp] theorem putEng_therm (n : Nat) (t : EngTrack) (s : State) : (putEng n t s).therm = s.therm := rfl
@[simp] theorem putEng_svc (n : Nat) (t : EngTrack) (s : State) : (putEng n t s).svc = s.svc := rfl
@[simp] theorem putEng_jtag (n : Nat) (t : EngTrack) (s : State) : (putEng n t s).jtag = s.jtag := rfl
@[simp] theorem putEng_free (n : Nat) (t : EngTrack) (s : State) : (putEng n t s).free = s.free := rfl
@[simp] theorem putEng_pending (n : Nat) (t : EngTrack) (s : State) : (putEng n t s).pending = s.pending := rfl

/-! ## `putProbe` -/

@[simp] theorem putProbe_now (n : Nat) (t : ProbeTrack) (s : State) : (putProbe n t s).now = s.now := rfl
@[simp] theorem putProbe_mono (n : Nat) (t : ProbeTrack) (s : State) : (putProbe n t s).mono = s.mono := rfl
@[simp] theorem putProbe_pins (n : Nat) (t : ProbeTrack) (s : State) : (putProbe n t s).pins = s.pins := rfl
@[simp] theorem putProbe_regs (n : Nat) (t : ProbeTrack) (s : State) : (putProbe n t s).regs = s.regs := rfl
@[simp] theorem putProbe_latch (n : Nat) (t : ProbeTrack) (s : State) : (putProbe n t s).latch = s.latch := rfl
@[simp] theorem putProbe_readData (n : Nat) (t : ProbeTrack) (s : State) : (putProbe n t s).readData = s.readData := rfl
@[simp] theorem putProbe_cmd (n : Nat) (t : ProbeTrack) (s : State) : (putProbe n t s).cmd = s.cmd := rfl
@[simp] theorem putProbe_evq (n : Nat) (t : ProbeTrack) (s : State) : (putProbe n t s).evq = s.evq := rfl
@[simp] theorem putProbe_plan (n : Nat) (t : ProbeTrack) (s : State) : (putProbe n t s).plan = s.plan := rfl
@[simp] theorem putProbe_take (n : Nat) (t : ProbeTrack) (s : State) : (putProbe n t s).take = s.take := rfl
@[simp] theorem putProbe_port (n : Nat) (t : ProbeTrack) (s : State) : (putProbe n t s).port = s.port := rfl
@[simp] theorem putProbe_mem (n : Nat) (t : ProbeTrack) (s : State) : (putProbe n t s).mem = s.mem := rfl
@[simp] theorem putProbe_sched (n : Nat) (t : ProbeTrack) (s : State) : (putProbe n t s).sched = s.sched := rfl
@[simp] theorem putProbe_trk (n : Nat) (t : ProbeTrack) (s : State) : (putProbe n t s).trk = s.trk := rfl
@[simp] theorem putProbe_eth (n : Nat) (t : ProbeTrack) (s : State) : (putProbe n t s).eth = s.eth := rfl
@[simp] theorem putProbe_flow (n : Nat) (t : ProbeTrack) (s : State) : (putProbe n t s).flow = s.flow := rfl
@[simp] theorem putProbe_comp (n : Nat) (t : ProbeTrack) (s : State) : (putProbe n t s).comp = s.comp := rfl
@[simp] theorem putProbe_aud (n : Nat) (t : ProbeTrack) (s : State) : (putProbe n t s).aud = s.aud := rfl
@[simp] theorem putProbe_ref (n : Nat) (t : ProbeTrack) (s : State) : (putProbe n t s).ref = s.ref := rfl
@[simp] theorem putProbe_plls (n : Nat) (t : ProbeTrack) (s : State) : (putProbe n t s).plls = s.plls := rfl
@[simp] theorem putProbe_time (n : Nat) (t : ProbeTrack) (s : State) : (putProbe n t s).time = s.time := rfl
@[simp] theorem putProbe_pair (n : Nat) (t : ProbeTrack) (s : State) : (putProbe n t s).pair = s.pair := rfl
@[simp] theorem putProbe_fw (n : Nat) (t : ProbeTrack) (s : State) : (putProbe n t s).fw = s.fw := rfl
@[simp] theorem putProbe_flash (n : Nat) (t : ProbeTrack) (s : State) : (putProbe n t s).flash = s.flash := rfl
@[simp] theorem putProbe_otp (n : Nat) (t : ProbeTrack) (s : State) : (putProbe n t s).otp = s.otp := rfl
@[simp] theorem putProbe_sec (n : Nat) (t : ProbeTrack) (s : State) : (putProbe n t s).sec = s.sec := rfl
@[simp] theorem putProbe_mods (n : Nat) (t : ProbeTrack) (s : State) : (putProbe n t s).mods = s.mods := rfl
@[simp] theorem putProbe_therm (n : Nat) (t : ProbeTrack) (s : State) : (putProbe n t s).therm = s.therm := rfl
@[simp] theorem putProbe_svc (n : Nat) (t : ProbeTrack) (s : State) : (putProbe n t s).svc = s.svc := rfl
@[simp] theorem putProbe_jtag (n : Nat) (t : ProbeTrack) (s : State) : (putProbe n t s).jtag = s.jtag := rfl
@[simp] theorem putProbe_free (n : Nat) (t : ProbeTrack) (s : State) : (putProbe n t s).free = s.free := rfl
@[simp] theorem putProbe_pending (n : Nat) (t : ProbeTrack) (s : State) : (putProbe n t s).pending = s.pending := rfl

/-! ## `putColour` -/

@[simp] theorem putColour_now (n : Nat) (t : ColourTask) (s : State) : (putColour n t s).now = s.now := rfl
@[simp] theorem putColour_mono (n : Nat) (t : ColourTask) (s : State) : (putColour n t s).mono = s.mono := rfl
@[simp] theorem putColour_pins (n : Nat) (t : ColourTask) (s : State) : (putColour n t s).pins = s.pins := rfl
@[simp] theorem putColour_regs (n : Nat) (t : ColourTask) (s : State) : (putColour n t s).regs = s.regs := rfl
@[simp] theorem putColour_latch (n : Nat) (t : ColourTask) (s : State) : (putColour n t s).latch = s.latch := rfl
@[simp] theorem putColour_readData (n : Nat) (t : ColourTask) (s : State) : (putColour n t s).readData = s.readData := rfl
@[simp] theorem putColour_cmd (n : Nat) (t : ColourTask) (s : State) : (putColour n t s).cmd = s.cmd := rfl
@[simp] theorem putColour_evq (n : Nat) (t : ColourTask) (s : State) : (putColour n t s).evq = s.evq := rfl
@[simp] theorem putColour_plan (n : Nat) (t : ColourTask) (s : State) : (putColour n t s).plan = s.plan := rfl
@[simp] theorem putColour_take (n : Nat) (t : ColourTask) (s : State) : (putColour n t s).take = s.take := rfl
@[simp] theorem putColour_port (n : Nat) (t : ColourTask) (s : State) : (putColour n t s).port = s.port := rfl
@[simp] theorem putColour_mem (n : Nat) (t : ColourTask) (s : State) : (putColour n t s).mem = s.mem := rfl
@[simp] theorem putColour_sched (n : Nat) (t : ColourTask) (s : State) : (putColour n t s).sched = s.sched := rfl
@[simp] theorem putColour_trk (n : Nat) (t : ColourTask) (s : State) : (putColour n t s).trk = s.trk := rfl
@[simp] theorem putColour_eth (n : Nat) (t : ColourTask) (s : State) : (putColour n t s).eth = s.eth := rfl
@[simp] theorem putColour_flow (n : Nat) (t : ColourTask) (s : State) : (putColour n t s).flow = s.flow := rfl
@[simp] theorem putColour_comp (n : Nat) (t : ColourTask) (s : State) : (putColour n t s).comp = s.comp := rfl
@[simp] theorem putColour_aud (n : Nat) (t : ColourTask) (s : State) : (putColour n t s).aud = s.aud := rfl
@[simp] theorem putColour_ref (n : Nat) (t : ColourTask) (s : State) : (putColour n t s).ref = s.ref := rfl
@[simp] theorem putColour_plls (n : Nat) (t : ColourTask) (s : State) : (putColour n t s).plls = s.plls := rfl
@[simp] theorem putColour_time (n : Nat) (t : ColourTask) (s : State) : (putColour n t s).time = s.time := rfl
@[simp] theorem putColour_pair (n : Nat) (t : ColourTask) (s : State) : (putColour n t s).pair = s.pair := rfl
@[simp] theorem putColour_fw (n : Nat) (t : ColourTask) (s : State) : (putColour n t s).fw = s.fw := rfl
@[simp] theorem putColour_flash (n : Nat) (t : ColourTask) (s : State) : (putColour n t s).flash = s.flash := rfl
@[simp] theorem putColour_otp (n : Nat) (t : ColourTask) (s : State) : (putColour n t s).otp = s.otp := rfl
@[simp] theorem putColour_sec (n : Nat) (t : ColourTask) (s : State) : (putColour n t s).sec = s.sec := rfl
@[simp] theorem putColour_mods (n : Nat) (t : ColourTask) (s : State) : (putColour n t s).mods = s.mods := rfl
@[simp] theorem putColour_therm (n : Nat) (t : ColourTask) (s : State) : (putColour n t s).therm = s.therm := rfl
@[simp] theorem putColour_svc (n : Nat) (t : ColourTask) (s : State) : (putColour n t s).svc = s.svc := rfl
@[simp] theorem putColour_jtag (n : Nat) (t : ColourTask) (s : State) : (putColour n t s).jtag = s.jtag := rfl
@[simp] theorem putColour_free (n : Nat) (t : ColourTask) (s : State) : (putColour n t s).free = s.free := rfl
@[simp] theorem putColour_pending (n : Nat) (t : ColourTask) (s : State) : (putColour n t s).pending = s.pending := rfl

/-! ## `putLayer` -/

@[simp] theorem putLayer_now (h l : Nat) (t : LayerTrack) (s : State) : (putLayer h l t s).now = s.now := rfl
@[simp] theorem putLayer_mono (h l : Nat) (t : LayerTrack) (s : State) : (putLayer h l t s).mono = s.mono := rfl
@[simp] theorem putLayer_pins (h l : Nat) (t : LayerTrack) (s : State) : (putLayer h l t s).pins = s.pins := rfl
@[simp] theorem putLayer_regs (h l : Nat) (t : LayerTrack) (s : State) : (putLayer h l t s).regs = s.regs := rfl
@[simp] theorem putLayer_latch (h l : Nat) (t : LayerTrack) (s : State) : (putLayer h l t s).latch = s.latch := rfl
@[simp] theorem putLayer_readData (h l : Nat) (t : LayerTrack) (s : State) : (putLayer h l t s).readData = s.readData := rfl
@[simp] theorem putLayer_cmd (h l : Nat) (t : LayerTrack) (s : State) : (putLayer h l t s).cmd = s.cmd := rfl
@[simp] theorem putLayer_evq (h l : Nat) (t : LayerTrack) (s : State) : (putLayer h l t s).evq = s.evq := rfl
@[simp] theorem putLayer_plan (h l : Nat) (t : LayerTrack) (s : State) : (putLayer h l t s).plan = s.plan := rfl
@[simp] theorem putLayer_take (h l : Nat) (t : LayerTrack) (s : State) : (putLayer h l t s).take = s.take := rfl
@[simp] theorem putLayer_port (h l : Nat) (t : LayerTrack) (s : State) : (putLayer h l t s).port = s.port := rfl
@[simp] theorem putLayer_mem (h l : Nat) (t : LayerTrack) (s : State) : (putLayer h l t s).mem = s.mem := rfl
@[simp] theorem putLayer_sched (h l : Nat) (t : LayerTrack) (s : State) : (putLayer h l t s).sched = s.sched := rfl
@[simp] theorem putLayer_trk (h l : Nat) (t : LayerTrack) (s : State) : (putLayer h l t s).trk = s.trk := rfl
@[simp] theorem putLayer_eth (h l : Nat) (t : LayerTrack) (s : State) : (putLayer h l t s).eth = s.eth := rfl
@[simp] theorem putLayer_flow (h l : Nat) (t : LayerTrack) (s : State) : (putLayer h l t s).flow = s.flow := rfl
@[simp] theorem putLayer_ibx (h l : Nat) (t : LayerTrack) (s : State) : (putLayer h l t s).ibx = s.ibx := rfl
@[simp] theorem putLayer_aud (h l : Nat) (t : LayerTrack) (s : State) : (putLayer h l t s).aud = s.aud := rfl
@[simp] theorem putLayer_ref (h l : Nat) (t : LayerTrack) (s : State) : (putLayer h l t s).ref = s.ref := rfl
@[simp] theorem putLayer_plls (h l : Nat) (t : LayerTrack) (s : State) : (putLayer h l t s).plls = s.plls := rfl
@[simp] theorem putLayer_time (h l : Nat) (t : LayerTrack) (s : State) : (putLayer h l t s).time = s.time := rfl
@[simp] theorem putLayer_pair (h l : Nat) (t : LayerTrack) (s : State) : (putLayer h l t s).pair = s.pair := rfl
@[simp] theorem putLayer_fw (h l : Nat) (t : LayerTrack) (s : State) : (putLayer h l t s).fw = s.fw := rfl
@[simp] theorem putLayer_flash (h l : Nat) (t : LayerTrack) (s : State) : (putLayer h l t s).flash = s.flash := rfl
@[simp] theorem putLayer_otp (h l : Nat) (t : LayerTrack) (s : State) : (putLayer h l t s).otp = s.otp := rfl
@[simp] theorem putLayer_sec (h l : Nat) (t : LayerTrack) (s : State) : (putLayer h l t s).sec = s.sec := rfl
@[simp] theorem putLayer_mods (h l : Nat) (t : LayerTrack) (s : State) : (putLayer h l t s).mods = s.mods := rfl
@[simp] theorem putLayer_therm (h l : Nat) (t : LayerTrack) (s : State) : (putLayer h l t s).therm = s.therm := rfl
@[simp] theorem putLayer_svc (h l : Nat) (t : LayerTrack) (s : State) : (putLayer h l t s).svc = s.svc := rfl
@[simp] theorem putLayer_jtag (h l : Nat) (t : LayerTrack) (s : State) : (putLayer h l t s).jtag = s.jtag := rfl
@[simp] theorem putLayer_free (h l : Nat) (t : LayerTrack) (s : State) : (putLayer h l t s).free = s.free := rfl
@[simp] theorem putLayer_pending (h l : Nat) (t : LayerTrack) (s : State) : (putLayer h l t s).pending = s.pending := rfl

/-! ## `putHead` -/

@[simp] theorem putHead_now (h : Nat) (t : HeadTrack) (s : State) : (putHead h t s).now = s.now := rfl
@[simp] theorem putHead_mono (h : Nat) (t : HeadTrack) (s : State) : (putHead h t s).mono = s.mono := rfl
@[simp] theorem putHead_pins (h : Nat) (t : HeadTrack) (s : State) : (putHead h t s).pins = s.pins := rfl
@[simp] theorem putHead_regs (h : Nat) (t : HeadTrack) (s : State) : (putHead h t s).regs = s.regs := rfl
@[simp] theorem putHead_latch (h : Nat) (t : HeadTrack) (s : State) : (putHead h t s).latch = s.latch := rfl
@[simp] theorem putHead_readData (h : Nat) (t : HeadTrack) (s : State) : (putHead h t s).readData = s.readData := rfl
@[simp] theorem putHead_cmd (h : Nat) (t : HeadTrack) (s : State) : (putHead h t s).cmd = s.cmd := rfl
@[simp] theorem putHead_evq (h : Nat) (t : HeadTrack) (s : State) : (putHead h t s).evq = s.evq := rfl
@[simp] theorem putHead_plan (h : Nat) (t : HeadTrack) (s : State) : (putHead h t s).plan = s.plan := rfl
@[simp] theorem putHead_take (h : Nat) (t : HeadTrack) (s : State) : (putHead h t s).take = s.take := rfl
@[simp] theorem putHead_port (h : Nat) (t : HeadTrack) (s : State) : (putHead h t s).port = s.port := rfl
@[simp] theorem putHead_mem (h : Nat) (t : HeadTrack) (s : State) : (putHead h t s).mem = s.mem := rfl
@[simp] theorem putHead_sched (h : Nat) (t : HeadTrack) (s : State) : (putHead h t s).sched = s.sched := rfl
@[simp] theorem putHead_trk (h : Nat) (t : HeadTrack) (s : State) : (putHead h t s).trk = s.trk := rfl
@[simp] theorem putHead_eth (h : Nat) (t : HeadTrack) (s : State) : (putHead h t s).eth = s.eth := rfl
@[simp] theorem putHead_flow (h : Nat) (t : HeadTrack) (s : State) : (putHead h t s).flow = s.flow := rfl
@[simp] theorem putHead_ibx (h : Nat) (t : HeadTrack) (s : State) : (putHead h t s).ibx = s.ibx := rfl
@[simp] theorem putHead_aud (h : Nat) (t : HeadTrack) (s : State) : (putHead h t s).aud = s.aud := rfl
@[simp] theorem putHead_ref (h : Nat) (t : HeadTrack) (s : State) : (putHead h t s).ref = s.ref := rfl
@[simp] theorem putHead_plls (h : Nat) (t : HeadTrack) (s : State) : (putHead h t s).plls = s.plls := rfl
@[simp] theorem putHead_time (h : Nat) (t : HeadTrack) (s : State) : (putHead h t s).time = s.time := rfl
@[simp] theorem putHead_pair (h : Nat) (t : HeadTrack) (s : State) : (putHead h t s).pair = s.pair := rfl
@[simp] theorem putHead_fw (h : Nat) (t : HeadTrack) (s : State) : (putHead h t s).fw = s.fw := rfl
@[simp] theorem putHead_flash (h : Nat) (t : HeadTrack) (s : State) : (putHead h t s).flash = s.flash := rfl
@[simp] theorem putHead_otp (h : Nat) (t : HeadTrack) (s : State) : (putHead h t s).otp = s.otp := rfl
@[simp] theorem putHead_sec (h : Nat) (t : HeadTrack) (s : State) : (putHead h t s).sec = s.sec := rfl
@[simp] theorem putHead_mods (h : Nat) (t : HeadTrack) (s : State) : (putHead h t s).mods = s.mods := rfl
@[simp] theorem putHead_therm (h : Nat) (t : HeadTrack) (s : State) : (putHead h t s).therm = s.therm := rfl
@[simp] theorem putHead_svc (h : Nat) (t : HeadTrack) (s : State) : (putHead h t s).svc = s.svc := rfl
@[simp] theorem putHead_jtag (h : Nat) (t : HeadTrack) (s : State) : (putHead h t s).jtag = s.jtag := rfl
@[simp] theorem putHead_free (h : Nat) (t : HeadTrack) (s : State) : (putHead h t s).free = s.free := rfl
@[simp] theorem putHead_pending (h : Nat) (t : HeadTrack) (s : State) : (putHead h t s).pending = s.pending := rfl

/-! ## `putAudPort` -/

@[simp] theorem putAudPort_now (p : Nat) (t : AudPort) (s : State) : (putAudPort p t s).now = s.now := rfl
@[simp] theorem putAudPort_mono (p : Nat) (t : AudPort) (s : State) : (putAudPort p t s).mono = s.mono := rfl
@[simp] theorem putAudPort_pins (p : Nat) (t : AudPort) (s : State) : (putAudPort p t s).pins = s.pins := rfl
@[simp] theorem putAudPort_regs (p : Nat) (t : AudPort) (s : State) : (putAudPort p t s).regs = s.regs := rfl
@[simp] theorem putAudPort_latch (p : Nat) (t : AudPort) (s : State) : (putAudPort p t s).latch = s.latch := rfl
@[simp] theorem putAudPort_readData (p : Nat) (t : AudPort) (s : State) : (putAudPort p t s).readData = s.readData := rfl
@[simp] theorem putAudPort_cmd (p : Nat) (t : AudPort) (s : State) : (putAudPort p t s).cmd = s.cmd := rfl
@[simp] theorem putAudPort_evq (p : Nat) (t : AudPort) (s : State) : (putAudPort p t s).evq = s.evq := rfl
@[simp] theorem putAudPort_plan (p : Nat) (t : AudPort) (s : State) : (putAudPort p t s).plan = s.plan := rfl
@[simp] theorem putAudPort_take (p : Nat) (t : AudPort) (s : State) : (putAudPort p t s).take = s.take := rfl
@[simp] theorem putAudPort_port (p : Nat) (t : AudPort) (s : State) : (putAudPort p t s).port = s.port := rfl
@[simp] theorem putAudPort_mem (p : Nat) (t : AudPort) (s : State) : (putAudPort p t s).mem = s.mem := rfl
@[simp] theorem putAudPort_sched (p : Nat) (t : AudPort) (s : State) : (putAudPort p t s).sched = s.sched := rfl
@[simp] theorem putAudPort_trk (p : Nat) (t : AudPort) (s : State) : (putAudPort p t s).trk = s.trk := rfl
@[simp] theorem putAudPort_eth (p : Nat) (t : AudPort) (s : State) : (putAudPort p t s).eth = s.eth := rfl
@[simp] theorem putAudPort_flow (p : Nat) (t : AudPort) (s : State) : (putAudPort p t s).flow = s.flow := rfl
@[simp] theorem putAudPort_ibx (p : Nat) (t : AudPort) (s : State) : (putAudPort p t s).ibx = s.ibx := rfl
@[simp] theorem putAudPort_comp (p : Nat) (t : AudPort) (s : State) : (putAudPort p t s).comp = s.comp := rfl
@[simp] theorem putAudPort_ref (p : Nat) (t : AudPort) (s : State) : (putAudPort p t s).ref = s.ref := rfl
@[simp] theorem putAudPort_plls (p : Nat) (t : AudPort) (s : State) : (putAudPort p t s).plls = s.plls := rfl
@[simp] theorem putAudPort_time (p : Nat) (t : AudPort) (s : State) : (putAudPort p t s).time = s.time := rfl
@[simp] theorem putAudPort_pair (p : Nat) (t : AudPort) (s : State) : (putAudPort p t s).pair = s.pair := rfl
@[simp] theorem putAudPort_fw (p : Nat) (t : AudPort) (s : State) : (putAudPort p t s).fw = s.fw := rfl
@[simp] theorem putAudPort_flash (p : Nat) (t : AudPort) (s : State) : (putAudPort p t s).flash = s.flash := rfl
@[simp] theorem putAudPort_otp (p : Nat) (t : AudPort) (s : State) : (putAudPort p t s).otp = s.otp := rfl
@[simp] theorem putAudPort_sec (p : Nat) (t : AudPort) (s : State) : (putAudPort p t s).sec = s.sec := rfl
@[simp] theorem putAudPort_mods (p : Nat) (t : AudPort) (s : State) : (putAudPort p t s).mods = s.mods := rfl
@[simp] theorem putAudPort_therm (p : Nat) (t : AudPort) (s : State) : (putAudPort p t s).therm = s.therm := rfl
@[simp] theorem putAudPort_svc (p : Nat) (t : AudPort) (s : State) : (putAudPort p t s).svc = s.svc := rfl
@[simp] theorem putAudPort_jtag (p : Nat) (t : AudPort) (s : State) : (putAudPort p t s).jtag = s.jtag := rfl
@[simp] theorem putAudPort_free (p : Nat) (t : AudPort) (s : State) : (putAudPort p t s).free = s.free := rfl
@[simp] theorem putAudPort_pending (p : Nat) (t : AudPort) (s : State) : (putAudPort p t s).pending = s.pending := rfl

/-! ## `putPll` -/

@[simp] theorem putPll_now (j : Nat) (t : PllTrack) (s : State) : (putPll j t s).now = s.now := rfl
@[simp] theorem putPll_mono (j : Nat) (t : PllTrack) (s : State) : (putPll j t s).mono = s.mono := rfl
@[simp] theorem putPll_pins (j : Nat) (t : PllTrack) (s : State) : (putPll j t s).pins = s.pins := rfl
@[simp] theorem putPll_regs (j : Nat) (t : PllTrack) (s : State) : (putPll j t s).regs = s.regs := rfl
@[simp] theorem putPll_latch (j : Nat) (t : PllTrack) (s : State) : (putPll j t s).latch = s.latch := rfl
@[simp] theorem putPll_readData (j : Nat) (t : PllTrack) (s : State) : (putPll j t s).readData = s.readData := rfl
@[simp] theorem putPll_cmd (j : Nat) (t : PllTrack) (s : State) : (putPll j t s).cmd = s.cmd := rfl
@[simp] theorem putPll_evq (j : Nat) (t : PllTrack) (s : State) : (putPll j t s).evq = s.evq := rfl
@[simp] theorem putPll_plan (j : Nat) (t : PllTrack) (s : State) : (putPll j t s).plan = s.plan := rfl
@[simp] theorem putPll_take (j : Nat) (t : PllTrack) (s : State) : (putPll j t s).take = s.take := rfl
@[simp] theorem putPll_port (j : Nat) (t : PllTrack) (s : State) : (putPll j t s).port = s.port := rfl
@[simp] theorem putPll_mem (j : Nat) (t : PllTrack) (s : State) : (putPll j t s).mem = s.mem := rfl
@[simp] theorem putPll_sched (j : Nat) (t : PllTrack) (s : State) : (putPll j t s).sched = s.sched := rfl
@[simp] theorem putPll_trk (j : Nat) (t : PllTrack) (s : State) : (putPll j t s).trk = s.trk := rfl
@[simp] theorem putPll_eth (j : Nat) (t : PllTrack) (s : State) : (putPll j t s).eth = s.eth := rfl
@[simp] theorem putPll_flow (j : Nat) (t : PllTrack) (s : State) : (putPll j t s).flow = s.flow := rfl
@[simp] theorem putPll_ibx (j : Nat) (t : PllTrack) (s : State) : (putPll j t s).ibx = s.ibx := rfl
@[simp] theorem putPll_comp (j : Nat) (t : PllTrack) (s : State) : (putPll j t s).comp = s.comp := rfl
@[simp] theorem putPll_aud (j : Nat) (t : PllTrack) (s : State) : (putPll j t s).aud = s.aud := rfl
@[simp] theorem putPll_ref (j : Nat) (t : PllTrack) (s : State) : (putPll j t s).ref = s.ref := rfl
@[simp] theorem putPll_time (j : Nat) (t : PllTrack) (s : State) : (putPll j t s).time = s.time := rfl
@[simp] theorem putPll_pair (j : Nat) (t : PllTrack) (s : State) : (putPll j t s).pair = s.pair := rfl
@[simp] theorem putPll_fw (j : Nat) (t : PllTrack) (s : State) : (putPll j t s).fw = s.fw := rfl
@[simp] theorem putPll_flash (j : Nat) (t : PllTrack) (s : State) : (putPll j t s).flash = s.flash := rfl
@[simp] theorem putPll_otp (j : Nat) (t : PllTrack) (s : State) : (putPll j t s).otp = s.otp := rfl
@[simp] theorem putPll_sec (j : Nat) (t : PllTrack) (s : State) : (putPll j t s).sec = s.sec := rfl
@[simp] theorem putPll_mods (j : Nat) (t : PllTrack) (s : State) : (putPll j t s).mods = s.mods := rfl
@[simp] theorem putPll_therm (j : Nat) (t : PllTrack) (s : State) : (putPll j t s).therm = s.therm := rfl
@[simp] theorem putPll_svc (j : Nat) (t : PllTrack) (s : State) : (putPll j t s).svc = s.svc := rfl
@[simp] theorem putPll_jtag (j : Nat) (t : PllTrack) (s : State) : (putPll j t s).jtag = s.jtag := rfl
@[simp] theorem putPll_free (j : Nat) (t : PllTrack) (s : State) : (putPll j t s).free = s.free := rfl
@[simp] theorem putPll_pending (j : Nat) (t : PllTrack) (s : State) : (putPll j t s).pending = s.pending := rfl

/-! ## `putPtp` -/

@[simp] theorem putPtp_now (k : Nat) (t : PtpPort) (s : State) : (putPtp k t s).now = s.now := rfl
@[simp] theorem putPtp_mono (k : Nat) (t : PtpPort) (s : State) : (putPtp k t s).mono = s.mono := rfl
@[simp] theorem putPtp_pins (k : Nat) (t : PtpPort) (s : State) : (putPtp k t s).pins = s.pins := rfl
@[simp] theorem putPtp_regs (k : Nat) (t : PtpPort) (s : State) : (putPtp k t s).regs = s.regs := rfl
@[simp] theorem putPtp_latch (k : Nat) (t : PtpPort) (s : State) : (putPtp k t s).latch = s.latch := rfl
@[simp] theorem putPtp_readData (k : Nat) (t : PtpPort) (s : State) : (putPtp k t s).readData = s.readData := rfl
@[simp] theorem putPtp_cmd (k : Nat) (t : PtpPort) (s : State) : (putPtp k t s).cmd = s.cmd := rfl
@[simp] theorem putPtp_evq (k : Nat) (t : PtpPort) (s : State) : (putPtp k t s).evq = s.evq := rfl
@[simp] theorem putPtp_plan (k : Nat) (t : PtpPort) (s : State) : (putPtp k t s).plan = s.plan := rfl
@[simp] theorem putPtp_take (k : Nat) (t : PtpPort) (s : State) : (putPtp k t s).take = s.take := rfl
@[simp] theorem putPtp_port (k : Nat) (t : PtpPort) (s : State) : (putPtp k t s).port = s.port := rfl
@[simp] theorem putPtp_mem (k : Nat) (t : PtpPort) (s : State) : (putPtp k t s).mem = s.mem := rfl
@[simp] theorem putPtp_sched (k : Nat) (t : PtpPort) (s : State) : (putPtp k t s).sched = s.sched := rfl
@[simp] theorem putPtp_trk (k : Nat) (t : PtpPort) (s : State) : (putPtp k t s).trk = s.trk := rfl
@[simp] theorem putPtp_eth (k : Nat) (t : PtpPort) (s : State) : (putPtp k t s).eth = s.eth := rfl
@[simp] theorem putPtp_flow (k : Nat) (t : PtpPort) (s : State) : (putPtp k t s).flow = s.flow := rfl
@[simp] theorem putPtp_ibx (k : Nat) (t : PtpPort) (s : State) : (putPtp k t s).ibx = s.ibx := rfl
@[simp] theorem putPtp_comp (k : Nat) (t : PtpPort) (s : State) : (putPtp k t s).comp = s.comp := rfl
@[simp] theorem putPtp_aud (k : Nat) (t : PtpPort) (s : State) : (putPtp k t s).aud = s.aud := rfl
@[simp] theorem putPtp_ref (k : Nat) (t : PtpPort) (s : State) : (putPtp k t s).ref = s.ref := rfl
@[simp] theorem putPtp_plls (k : Nat) (t : PtpPort) (s : State) : (putPtp k t s).plls = s.plls := rfl
@[simp] theorem putPtp_pair (k : Nat) (t : PtpPort) (s : State) : (putPtp k t s).pair = s.pair := rfl
@[simp] theorem putPtp_fw (k : Nat) (t : PtpPort) (s : State) : (putPtp k t s).fw = s.fw := rfl
@[simp] theorem putPtp_flash (k : Nat) (t : PtpPort) (s : State) : (putPtp k t s).flash = s.flash := rfl
@[simp] theorem putPtp_otp (k : Nat) (t : PtpPort) (s : State) : (putPtp k t s).otp = s.otp := rfl
@[simp] theorem putPtp_sec (k : Nat) (t : PtpPort) (s : State) : (putPtp k t s).sec = s.sec := rfl
@[simp] theorem putPtp_mods (k : Nat) (t : PtpPort) (s : State) : (putPtp k t s).mods = s.mods := rfl
@[simp] theorem putPtp_therm (k : Nat) (t : PtpPort) (s : State) : (putPtp k t s).therm = s.therm := rfl
@[simp] theorem putPtp_svc (k : Nat) (t : PtpPort) (s : State) : (putPtp k t s).svc = s.svc := rfl
@[simp] theorem putPtp_jtag (k : Nat) (t : PtpPort) (s : State) : (putPtp k t s).jtag = s.jtag := rfl
@[simp] theorem putPtp_free (k : Nat) (t : PtpPort) (s : State) : (putPtp k t s).free = s.free := rfl
@[simp] theorem putPtp_pending (k : Nat) (t : PtpPort) (s : State) : (putPtp k t s).pending = s.pending := rfl

/-! ## `putCap` -/

@[simp] theorem putCap_now (c : Nat) (t : CapTrack) (s : State) : (putCap c t s).now = s.now := rfl
@[simp] theorem putCap_mono (c : Nat) (t : CapTrack) (s : State) : (putCap c t s).mono = s.mono := rfl
@[simp] theorem putCap_pins (c : Nat) (t : CapTrack) (s : State) : (putCap c t s).pins = s.pins := rfl
@[simp] theorem putCap_regs (c : Nat) (t : CapTrack) (s : State) : (putCap c t s).regs = s.regs := rfl
@[simp] theorem putCap_latch (c : Nat) (t : CapTrack) (s : State) : (putCap c t s).latch = s.latch := rfl
@[simp] theorem putCap_readData (c : Nat) (t : CapTrack) (s : State) : (putCap c t s).readData = s.readData := rfl
@[simp] theorem putCap_cmd (c : Nat) (t : CapTrack) (s : State) : (putCap c t s).cmd = s.cmd := rfl
@[simp] theorem putCap_evq (c : Nat) (t : CapTrack) (s : State) : (putCap c t s).evq = s.evq := rfl
@[simp] theorem putCap_plan (c : Nat) (t : CapTrack) (s : State) : (putCap c t s).plan = s.plan := rfl
@[simp] theorem putCap_take (c : Nat) (t : CapTrack) (s : State) : (putCap c t s).take = s.take := rfl
@[simp] theorem putCap_port (c : Nat) (t : CapTrack) (s : State) : (putCap c t s).port = s.port := rfl
@[simp] theorem putCap_mem (c : Nat) (t : CapTrack) (s : State) : (putCap c t s).mem = s.mem := rfl
@[simp] theorem putCap_sched (c : Nat) (t : CapTrack) (s : State) : (putCap c t s).sched = s.sched := rfl
@[simp] theorem putCap_trk (c : Nat) (t : CapTrack) (s : State) : (putCap c t s).trk = s.trk := rfl
@[simp] theorem putCap_eth (c : Nat) (t : CapTrack) (s : State) : (putCap c t s).eth = s.eth := rfl
@[simp] theorem putCap_flow (c : Nat) (t : CapTrack) (s : State) : (putCap c t s).flow = s.flow := rfl
@[simp] theorem putCap_ibx (c : Nat) (t : CapTrack) (s : State) : (putCap c t s).ibx = s.ibx := rfl
@[simp] theorem putCap_comp (c : Nat) (t : CapTrack) (s : State) : (putCap c t s).comp = s.comp := rfl
@[simp] theorem putCap_aud (c : Nat) (t : CapTrack) (s : State) : (putCap c t s).aud = s.aud := rfl
@[simp] theorem putCap_ref (c : Nat) (t : CapTrack) (s : State) : (putCap c t s).ref = s.ref := rfl
@[simp] theorem putCap_plls (c : Nat) (t : CapTrack) (s : State) : (putCap c t s).plls = s.plls := rfl
@[simp] theorem putCap_pair (c : Nat) (t : CapTrack) (s : State) : (putCap c t s).pair = s.pair := rfl
@[simp] theorem putCap_fw (c : Nat) (t : CapTrack) (s : State) : (putCap c t s).fw = s.fw := rfl
@[simp] theorem putCap_flash (c : Nat) (t : CapTrack) (s : State) : (putCap c t s).flash = s.flash := rfl
@[simp] theorem putCap_otp (c : Nat) (t : CapTrack) (s : State) : (putCap c t s).otp = s.otp := rfl
@[simp] theorem putCap_sec (c : Nat) (t : CapTrack) (s : State) : (putCap c t s).sec = s.sec := rfl
@[simp] theorem putCap_mods (c : Nat) (t : CapTrack) (s : State) : (putCap c t s).mods = s.mods := rfl
@[simp] theorem putCap_therm (c : Nat) (t : CapTrack) (s : State) : (putCap c t s).therm = s.therm := rfl
@[simp] theorem putCap_svc (c : Nat) (t : CapTrack) (s : State) : (putCap c t s).svc = s.svc := rfl
@[simp] theorem putCap_jtag (c : Nat) (t : CapTrack) (s : State) : (putCap c t s).jtag = s.jtag := rfl
@[simp] theorem putCap_free (c : Nat) (t : CapTrack) (s : State) : (putCap c t s).free = s.free := rfl
@[simp] theorem putCap_pending (c : Nat) (t : CapTrack) (s : State) : (putCap c t s).pending = s.pending := rfl

/-! ## `putCage` -/

@[simp] theorem putCage_now (e : Nat) (c : Cage) (s : State) : (putCage e c s).now = s.now := rfl
@[simp] theorem putCage_mono (e : Nat) (c : Cage) (s : State) : (putCage e c s).mono = s.mono := rfl
@[simp] theorem putCage_pins (e : Nat) (c : Cage) (s : State) : (putCage e c s).pins = s.pins := rfl
@[simp] theorem putCage_regs (e : Nat) (c : Cage) (s : State) : (putCage e c s).regs = s.regs := rfl
@[simp] theorem putCage_latch (e : Nat) (c : Cage) (s : State) : (putCage e c s).latch = s.latch := rfl
@[simp] theorem putCage_readData (e : Nat) (c : Cage) (s : State) : (putCage e c s).readData = s.readData := rfl
@[simp] theorem putCage_cmd (e : Nat) (c : Cage) (s : State) : (putCage e c s).cmd = s.cmd := rfl
@[simp] theorem putCage_evq (e : Nat) (c : Cage) (s : State) : (putCage e c s).evq = s.evq := rfl
@[simp] theorem putCage_plan (e : Nat) (c : Cage) (s : State) : (putCage e c s).plan = s.plan := rfl
@[simp] theorem putCage_take (e : Nat) (c : Cage) (s : State) : (putCage e c s).take = s.take := rfl
@[simp] theorem putCage_port (e : Nat) (c : Cage) (s : State) : (putCage e c s).port = s.port := rfl
@[simp] theorem putCage_mem (e : Nat) (c : Cage) (s : State) : (putCage e c s).mem = s.mem := rfl
@[simp] theorem putCage_sched (e : Nat) (c : Cage) (s : State) : (putCage e c s).sched = s.sched := rfl
@[simp] theorem putCage_trk (e : Nat) (c : Cage) (s : State) : (putCage e c s).trk = s.trk := rfl
@[simp] theorem putCage_eth (e : Nat) (c : Cage) (s : State) : (putCage e c s).eth = s.eth := rfl
@[simp] theorem putCage_flow (e : Nat) (c : Cage) (s : State) : (putCage e c s).flow = s.flow := rfl
@[simp] theorem putCage_ibx (e : Nat) (c : Cage) (s : State) : (putCage e c s).ibx = s.ibx := rfl
@[simp] theorem putCage_comp (e : Nat) (c : Cage) (s : State) : (putCage e c s).comp = s.comp := rfl
@[simp] theorem putCage_aud (e : Nat) (c : Cage) (s : State) : (putCage e c s).aud = s.aud := rfl
@[simp] theorem putCage_ref (e : Nat) (c : Cage) (s : State) : (putCage e c s).ref = s.ref := rfl
@[simp] theorem putCage_plls (e : Nat) (c : Cage) (s : State) : (putCage e c s).plls = s.plls := rfl
@[simp] theorem putCage_time (e : Nat) (c : Cage) (s : State) : (putCage e c s).time = s.time := rfl
@[simp] theorem putCage_pair (e : Nat) (c : Cage) (s : State) : (putCage e c s).pair = s.pair := rfl
@[simp] theorem putCage_fw (e : Nat) (c : Cage) (s : State) : (putCage e c s).fw = s.fw := rfl
@[simp] theorem putCage_flash (e : Nat) (c : Cage) (s : State) : (putCage e c s).flash = s.flash := rfl
@[simp] theorem putCage_otp (e : Nat) (c : Cage) (s : State) : (putCage e c s).otp = s.otp := rfl
@[simp] theorem putCage_sec (e : Nat) (c : Cage) (s : State) : (putCage e c s).sec = s.sec := rfl
@[simp] theorem putCage_therm (e : Nat) (c : Cage) (s : State) : (putCage e c s).therm = s.therm := rfl
@[simp] theorem putCage_svc (e : Nat) (c : Cage) (s : State) : (putCage e c s).svc = s.svc := rfl
@[simp] theorem putCage_jtag (e : Nat) (c : Cage) (s : State) : (putCage e c s).jtag = s.jtag := rfl
@[simp] theorem putCage_free (e : Nat) (c : Cage) (s : State) : (putCage e c s).free = s.free := rfl
@[simp] theorem putCage_pending (e : Nat) (c : Cage) (s : State) : (putCage e c s).pending = s.pending := rfl

/-! ## `putSlot` -/

@[simp] theorem putSlot_now (n : Nat) (x : OwnerSlot) (s : State) : (putSlot n x s).now = s.now := rfl
@[simp] theorem putSlot_mono (n : Nat) (x : OwnerSlot) (s : State) : (putSlot n x s).mono = s.mono := rfl
@[simp] theorem putSlot_pins (n : Nat) (x : OwnerSlot) (s : State) : (putSlot n x s).pins = s.pins := rfl
@[simp] theorem putSlot_regs (n : Nat) (x : OwnerSlot) (s : State) : (putSlot n x s).regs = s.regs := rfl
@[simp] theorem putSlot_latch (n : Nat) (x : OwnerSlot) (s : State) : (putSlot n x s).latch = s.latch := rfl
@[simp] theorem putSlot_readData (n : Nat) (x : OwnerSlot) (s : State) : (putSlot n x s).readData = s.readData := rfl
@[simp] theorem putSlot_cmd (n : Nat) (x : OwnerSlot) (s : State) : (putSlot n x s).cmd = s.cmd := rfl
@[simp] theorem putSlot_evq (n : Nat) (x : OwnerSlot) (s : State) : (putSlot n x s).evq = s.evq := rfl
@[simp] theorem putSlot_plan (n : Nat) (x : OwnerSlot) (s : State) : (putSlot n x s).plan = s.plan := rfl
@[simp] theorem putSlot_take (n : Nat) (x : OwnerSlot) (s : State) : (putSlot n x s).take = s.take := rfl
@[simp] theorem putSlot_port (n : Nat) (x : OwnerSlot) (s : State) : (putSlot n x s).port = s.port := rfl
@[simp] theorem putSlot_mem (n : Nat) (x : OwnerSlot) (s : State) : (putSlot n x s).mem = s.mem := rfl
@[simp] theorem putSlot_sched (n : Nat) (x : OwnerSlot) (s : State) : (putSlot n x s).sched = s.sched := rfl
@[simp] theorem putSlot_trk (n : Nat) (x : OwnerSlot) (s : State) : (putSlot n x s).trk = s.trk := rfl
@[simp] theorem putSlot_eth (n : Nat) (x : OwnerSlot) (s : State) : (putSlot n x s).eth = s.eth := rfl
@[simp] theorem putSlot_flow (n : Nat) (x : OwnerSlot) (s : State) : (putSlot n x s).flow = s.flow := rfl
@[simp] theorem putSlot_ibx (n : Nat) (x : OwnerSlot) (s : State) : (putSlot n x s).ibx = s.ibx := rfl
@[simp] theorem putSlot_comp (n : Nat) (x : OwnerSlot) (s : State) : (putSlot n x s).comp = s.comp := rfl
@[simp] theorem putSlot_aud (n : Nat) (x : OwnerSlot) (s : State) : (putSlot n x s).aud = s.aud := rfl
@[simp] theorem putSlot_ref (n : Nat) (x : OwnerSlot) (s : State) : (putSlot n x s).ref = s.ref := rfl
@[simp] theorem putSlot_plls (n : Nat) (x : OwnerSlot) (s : State) : (putSlot n x s).plls = s.plls := rfl
@[simp] theorem putSlot_time (n : Nat) (x : OwnerSlot) (s : State) : (putSlot n x s).time = s.time := rfl
@[simp] theorem putSlot_pair (n : Nat) (x : OwnerSlot) (s : State) : (putSlot n x s).pair = s.pair := rfl
@[simp] theorem putSlot_fw (n : Nat) (x : OwnerSlot) (s : State) : (putSlot n x s).fw = s.fw := rfl
@[simp] theorem putSlot_flash (n : Nat) (x : OwnerSlot) (s : State) : (putSlot n x s).flash = s.flash := rfl
@[simp] theorem putSlot_sec (n : Nat) (x : OwnerSlot) (s : State) : (putSlot n x s).sec = s.sec := rfl
@[simp] theorem putSlot_mods (n : Nat) (x : OwnerSlot) (s : State) : (putSlot n x s).mods = s.mods := rfl
@[simp] theorem putSlot_therm (n : Nat) (x : OwnerSlot) (s : State) : (putSlot n x s).therm = s.therm := rfl
@[simp] theorem putSlot_svc (n : Nat) (x : OwnerSlot) (s : State) : (putSlot n x s).svc = s.svc := rfl
@[simp] theorem putSlot_jtag (n : Nat) (x : OwnerSlot) (s : State) : (putSlot n x s).jtag = s.jtag := rfl
@[simp] theorem putSlot_free (n : Nat) (x : OwnerSlot) (s : State) : (putSlot n x s).free = s.free := rfl
@[simp] theorem putSlot_pending (n : Nat) (x : OwnerSlot) (s : State) : (putSlot n x s).pending = s.pending := rfl

/-! ## `send` -/

@[simp] theorem send_now (m : MirMsg) (s : State) : (send m s).now = s.now := rfl
@[simp] theorem send_mono (m : MirMsg) (s : State) : (send m s).mono = s.mono := rfl
@[simp] theorem send_pins (m : MirMsg) (s : State) : (send m s).pins = s.pins := rfl
@[simp] theorem send_regs (m : MirMsg) (s : State) : (send m s).regs = s.regs := rfl
@[simp] theorem send_latch (m : MirMsg) (s : State) : (send m s).latch = s.latch := rfl
@[simp] theorem send_readData (m : MirMsg) (s : State) : (send m s).readData = s.readData := rfl
@[simp] theorem send_cmd (m : MirMsg) (s : State) : (send m s).cmd = s.cmd := rfl
@[simp] theorem send_evq (m : MirMsg) (s : State) : (send m s).evq = s.evq := rfl
@[simp] theorem send_plan (m : MirMsg) (s : State) : (send m s).plan = s.plan := rfl
@[simp] theorem send_take (m : MirMsg) (s : State) : (send m s).take = s.take := rfl
@[simp] theorem send_port (m : MirMsg) (s : State) : (send m s).port = s.port := rfl
@[simp] theorem send_mem (m : MirMsg) (s : State) : (send m s).mem = s.mem := rfl
@[simp] theorem send_sched (m : MirMsg) (s : State) : (send m s).sched = s.sched := rfl
@[simp] theorem send_trk (m : MirMsg) (s : State) : (send m s).trk = s.trk := rfl
@[simp] theorem send_eth (m : MirMsg) (s : State) : (send m s).eth = s.eth := rfl
@[simp] theorem send_flow (m : MirMsg) (s : State) : (send m s).flow = s.flow := rfl
@[simp] theorem send_ibx (m : MirMsg) (s : State) : (send m s).ibx = s.ibx := rfl
@[simp] theorem send_comp (m : MirMsg) (s : State) : (send m s).comp = s.comp := rfl
@[simp] theorem send_aud (m : MirMsg) (s : State) : (send m s).aud = s.aud := rfl
@[simp] theorem send_ref (m : MirMsg) (s : State) : (send m s).ref = s.ref := rfl
@[simp] theorem send_plls (m : MirMsg) (s : State) : (send m s).plls = s.plls := rfl
@[simp] theorem send_time (m : MirMsg) (s : State) : (send m s).time = s.time := rfl
@[simp] theorem send_fw (m : MirMsg) (s : State) : (send m s).fw = s.fw := rfl
@[simp] theorem send_flash (m : MirMsg) (s : State) : (send m s).flash = s.flash := rfl
@[simp] theorem send_otp (m : MirMsg) (s : State) : (send m s).otp = s.otp := rfl
@[simp] theorem send_sec (m : MirMsg) (s : State) : (send m s).sec = s.sec := rfl
@[simp] theorem send_mods (m : MirMsg) (s : State) : (send m s).mods = s.mods := rfl
@[simp] theorem send_therm (m : MirMsg) (s : State) : (send m s).therm = s.therm := rfl
@[simp] theorem send_svc (m : MirMsg) (s : State) : (send m s).svc = s.svc := rfl
@[simp] theorem send_jtag (m : MirMsg) (s : State) : (send m s).jtag = s.jtag := rfl
@[simp] theorem send_free (m : MirMsg) (s : State) : (send m s).free = s.free := rfl
@[simp] theorem send_pending (m : MirMsg) (s : State) : (send m s).pending = s.pending := rfl

/-! ## `newJob` -/

@[simp] theorem newJob_now (j : TakeJob) (s : State) : (newJob j s).now = s.now := rfl
@[simp] theorem newJob_mono (j : TakeJob) (s : State) : (newJob j s).mono = s.mono := rfl
@[simp] theorem newJob_pins (j : TakeJob) (s : State) : (newJob j s).pins = s.pins := rfl
@[simp] theorem newJob_regs (j : TakeJob) (s : State) : (newJob j s).regs = s.regs := rfl
@[simp] theorem newJob_latch (j : TakeJob) (s : State) : (newJob j s).latch = s.latch := rfl
@[simp] theorem newJob_readData (j : TakeJob) (s : State) : (newJob j s).readData = s.readData := rfl
@[simp] theorem newJob_cmd (j : TakeJob) (s : State) : (newJob j s).cmd = s.cmd := rfl
@[simp] theorem newJob_evq (j : TakeJob) (s : State) : (newJob j s).evq = s.evq := rfl
@[simp] theorem newJob_plan (j : TakeJob) (s : State) : (newJob j s).plan = s.plan := rfl
@[simp] theorem newJob_port (j : TakeJob) (s : State) : (newJob j s).port = s.port := rfl
@[simp] theorem newJob_mem (j : TakeJob) (s : State) : (newJob j s).mem = s.mem := rfl
@[simp] theorem newJob_sched (j : TakeJob) (s : State) : (newJob j s).sched = s.sched := rfl
@[simp] theorem newJob_trk (j : TakeJob) (s : State) : (newJob j s).trk = s.trk := rfl
@[simp] theorem newJob_eth (j : TakeJob) (s : State) : (newJob j s).eth = s.eth := rfl
@[simp] theorem newJob_flow (j : TakeJob) (s : State) : (newJob j s).flow = s.flow := rfl
@[simp] theorem newJob_ibx (j : TakeJob) (s : State) : (newJob j s).ibx = s.ibx := rfl
@[simp] theorem newJob_comp (j : TakeJob) (s : State) : (newJob j s).comp = s.comp := rfl
@[simp] theorem newJob_aud (j : TakeJob) (s : State) : (newJob j s).aud = s.aud := rfl
@[simp] theorem newJob_ref (j : TakeJob) (s : State) : (newJob j s).ref = s.ref := rfl
@[simp] theorem newJob_plls (j : TakeJob) (s : State) : (newJob j s).plls = s.plls := rfl
@[simp] theorem newJob_time (j : TakeJob) (s : State) : (newJob j s).time = s.time := rfl
@[simp] theorem newJob_pair (j : TakeJob) (s : State) : (newJob j s).pair = s.pair := rfl
@[simp] theorem newJob_fw (j : TakeJob) (s : State) : (newJob j s).fw = s.fw := rfl
@[simp] theorem newJob_flash (j : TakeJob) (s : State) : (newJob j s).flash = s.flash := rfl
@[simp] theorem newJob_otp (j : TakeJob) (s : State) : (newJob j s).otp = s.otp := rfl
@[simp] theorem newJob_sec (j : TakeJob) (s : State) : (newJob j s).sec = s.sec := rfl
@[simp] theorem newJob_mods (j : TakeJob) (s : State) : (newJob j s).mods = s.mods := rfl
@[simp] theorem newJob_therm (j : TakeJob) (s : State) : (newJob j s).therm = s.therm := rfl
@[simp] theorem newJob_svc (j : TakeJob) (s : State) : (newJob j s).svc = s.svc := rfl
@[simp] theorem newJob_jtag (j : TakeJob) (s : State) : (newJob j s).jtag = s.jtag := rfl
@[simp] theorem newJob_free (j : TakeJob) (s : State) : (newJob j s).free = s.free := rfl
@[simp] theorem newJob_pending (j : TakeJob) (s : State) : (newJob j s).pending = s.pending := rfl

/-! ## `schedule` -/

@[simp] theorem schedule_now (c : Cmd) (f : Nat) (r : List (Nat × Nat)) (s : State) : (schedule c f r s).now = s.now := rfl
@[simp] theorem schedule_mono (c : Cmd) (f : Nat) (r : List (Nat × Nat)) (s : State) : (schedule c f r s).mono = s.mono := rfl
@[simp] theorem schedule_pins (c : Cmd) (f : Nat) (r : List (Nat × Nat)) (s : State) : (schedule c f r s).pins = s.pins := rfl
@[simp] theorem schedule_regs (c : Cmd) (f : Nat) (r : List (Nat × Nat)) (s : State) : (schedule c f r s).regs = s.regs := rfl
@[simp] theorem schedule_latch (c : Cmd) (f : Nat) (r : List (Nat × Nat)) (s : State) : (schedule c f r s).latch = s.latch := rfl
@[simp] theorem schedule_readData (c : Cmd) (f : Nat) (r : List (Nat × Nat)) (s : State) : (schedule c f r s).readData = s.readData := rfl
@[simp] theorem schedule_cmd (c : Cmd) (f : Nat) (r : List (Nat × Nat)) (s : State) : (schedule c f r s).cmd = s.cmd := rfl
@[simp] theorem schedule_evq (c : Cmd) (f : Nat) (r : List (Nat × Nat)) (s : State) : (schedule c f r s).evq = s.evq := rfl
@[simp] theorem schedule_plan (c : Cmd) (f : Nat) (r : List (Nat × Nat)) (s : State) : (schedule c f r s).plan = s.plan := rfl
@[simp] theorem schedule_take (c : Cmd) (f : Nat) (r : List (Nat × Nat)) (s : State) : (schedule c f r s).take = s.take := rfl
@[simp] theorem schedule_port (c : Cmd) (f : Nat) (r : List (Nat × Nat)) (s : State) : (schedule c f r s).port = s.port := rfl
@[simp] theorem schedule_mem (c : Cmd) (f : Nat) (r : List (Nat × Nat)) (s : State) : (schedule c f r s).mem = s.mem := rfl
@[simp] theorem schedule_trk (c : Cmd) (f : Nat) (r : List (Nat × Nat)) (s : State) : (schedule c f r s).trk = s.trk := rfl
@[simp] theorem schedule_eth (c : Cmd) (f : Nat) (r : List (Nat × Nat)) (s : State) : (schedule c f r s).eth = s.eth := rfl
@[simp] theorem schedule_flow (c : Cmd) (f : Nat) (r : List (Nat × Nat)) (s : State) : (schedule c f r s).flow = s.flow := rfl
@[simp] theorem schedule_ibx (c : Cmd) (f : Nat) (r : List (Nat × Nat)) (s : State) : (schedule c f r s).ibx = s.ibx := rfl
@[simp] theorem schedule_comp (c : Cmd) (f : Nat) (r : List (Nat × Nat)) (s : State) : (schedule c f r s).comp = s.comp := rfl
@[simp] theorem schedule_aud (c : Cmd) (f : Nat) (r : List (Nat × Nat)) (s : State) : (schedule c f r s).aud = s.aud := rfl
@[simp] theorem schedule_ref (c : Cmd) (f : Nat) (r : List (Nat × Nat)) (s : State) : (schedule c f r s).ref = s.ref := rfl
@[simp] theorem schedule_plls (c : Cmd) (f : Nat) (r : List (Nat × Nat)) (s : State) : (schedule c f r s).plls = s.plls := rfl
@[simp] theorem schedule_time (c : Cmd) (f : Nat) (r : List (Nat × Nat)) (s : State) : (schedule c f r s).time = s.time := rfl
@[simp] theorem schedule_pair (c : Cmd) (f : Nat) (r : List (Nat × Nat)) (s : State) : (schedule c f r s).pair = s.pair := rfl
@[simp] theorem schedule_fw (c : Cmd) (f : Nat) (r : List (Nat × Nat)) (s : State) : (schedule c f r s).fw = s.fw := rfl
@[simp] theorem schedule_flash (c : Cmd) (f : Nat) (r : List (Nat × Nat)) (s : State) : (schedule c f r s).flash = s.flash := rfl
@[simp] theorem schedule_otp (c : Cmd) (f : Nat) (r : List (Nat × Nat)) (s : State) : (schedule c f r s).otp = s.otp := rfl
@[simp] theorem schedule_sec (c : Cmd) (f : Nat) (r : List (Nat × Nat)) (s : State) : (schedule c f r s).sec = s.sec := rfl
@[simp] theorem schedule_mods (c : Cmd) (f : Nat) (r : List (Nat × Nat)) (s : State) : (schedule c f r s).mods = s.mods := rfl
@[simp] theorem schedule_therm (c : Cmd) (f : Nat) (r : List (Nat × Nat)) (s : State) : (schedule c f r s).therm = s.therm := rfl
@[simp] theorem schedule_svc (c : Cmd) (f : Nat) (r : List (Nat × Nat)) (s : State) : (schedule c f r s).svc = s.svc := rfl
@[simp] theorem schedule_jtag (c : Cmd) (f : Nat) (r : List (Nat × Nat)) (s : State) : (schedule c f r s).jtag = s.jtag := rfl
@[simp] theorem schedule_free (c : Cmd) (f : Nat) (r : List (Nat × Nat)) (s : State) : (schedule c f r s).free = s.free := rfl
@[simp] theorem schedule_pending (c : Cmd) (f : Nat) (r : List (Nat × Nat)) (s : State) : (schedule c f r s).pending = s.pending := rfl

/-! ## `tagPending` -/

@[simp] theorem tagPending_now (tag : Nat) (s : State) : (tagPending tag s).now = s.now := rfl
@[simp] theorem tagPending_mono (tag : Nat) (s : State) : (tagPending tag s).mono = s.mono := rfl
@[simp] theorem tagPending_pins (tag : Nat) (s : State) : (tagPending tag s).pins = s.pins := rfl
@[simp] theorem tagPending_regs (tag : Nat) (s : State) : (tagPending tag s).regs = s.regs := rfl
@[simp] theorem tagPending_latch (tag : Nat) (s : State) : (tagPending tag s).latch = s.latch := rfl
@[simp] theorem tagPending_readData (tag : Nat) (s : State) : (tagPending tag s).readData = s.readData := rfl
@[simp] theorem tagPending_evq (tag : Nat) (s : State) : (tagPending tag s).evq = s.evq := rfl
@[simp] theorem tagPending_plan (tag : Nat) (s : State) : (tagPending tag s).plan = s.plan := rfl
@[simp] theorem tagPending_take (tag : Nat) (s : State) : (tagPending tag s).take = s.take := rfl
@[simp] theorem tagPending_port (tag : Nat) (s : State) : (tagPending tag s).port = s.port := rfl
@[simp] theorem tagPending_mem (tag : Nat) (s : State) : (tagPending tag s).mem = s.mem := rfl
@[simp] theorem tagPending_sched (tag : Nat) (s : State) : (tagPending tag s).sched = s.sched := rfl
@[simp] theorem tagPending_trk (tag : Nat) (s : State) : (tagPending tag s).trk = s.trk := rfl
@[simp] theorem tagPending_eth (tag : Nat) (s : State) : (tagPending tag s).eth = s.eth := rfl
@[simp] theorem tagPending_flow (tag : Nat) (s : State) : (tagPending tag s).flow = s.flow := rfl
@[simp] theorem tagPending_ibx (tag : Nat) (s : State) : (tagPending tag s).ibx = s.ibx := rfl
@[simp] theorem tagPending_comp (tag : Nat) (s : State) : (tagPending tag s).comp = s.comp := rfl
@[simp] theorem tagPending_aud (tag : Nat) (s : State) : (tagPending tag s).aud = s.aud := rfl
@[simp] theorem tagPending_ref (tag : Nat) (s : State) : (tagPending tag s).ref = s.ref := rfl
@[simp] theorem tagPending_plls (tag : Nat) (s : State) : (tagPending tag s).plls = s.plls := rfl
@[simp] theorem tagPending_time (tag : Nat) (s : State) : (tagPending tag s).time = s.time := rfl
@[simp] theorem tagPending_pair (tag : Nat) (s : State) : (tagPending tag s).pair = s.pair := rfl
@[simp] theorem tagPending_fw (tag : Nat) (s : State) : (tagPending tag s).fw = s.fw := rfl
@[simp] theorem tagPending_flash (tag : Nat) (s : State) : (tagPending tag s).flash = s.flash := rfl
@[simp] theorem tagPending_otp (tag : Nat) (s : State) : (tagPending tag s).otp = s.otp := rfl
@[simp] theorem tagPending_sec (tag : Nat) (s : State) : (tagPending tag s).sec = s.sec := rfl
@[simp] theorem tagPending_mods (tag : Nat) (s : State) : (tagPending tag s).mods = s.mods := rfl
@[simp] theorem tagPending_therm (tag : Nat) (s : State) : (tagPending tag s).therm = s.therm := rfl
@[simp] theorem tagPending_svc (tag : Nat) (s : State) : (tagPending tag s).svc = s.svc := rfl
@[simp] theorem tagPending_jtag (tag : Nat) (s : State) : (tagPending tag s).jtag = s.jtag := rfl
@[simp] theorem tagPending_free (tag : Nat) (s : State) : (tagPending tag s).free = s.free := rfl
@[simp] theorem tagPending_pending (tag : Nat) (s : State) : (tagPending tag s).pending = s.pending := rfl

/-! ## `raise` -/

@[simp] theorem raise_now (src inst type : Nat) (d0 d1 d2 : Word) (s : State) : (raise src inst type d0 d1 d2 s).now = s.now := by
  unfold raise
  split <;> rfl
@[simp] theorem raise_mono (src inst type : Nat) (d0 d1 d2 : Word) (s : State) : (raise src inst type d0 d1 d2 s).mono = s.mono := by
  unfold raise
  split <;> rfl
@[simp] theorem raise_pins (src inst type : Nat) (d0 d1 d2 : Word) (s : State) : (raise src inst type d0 d1 d2 s).pins = s.pins := by
  unfold raise
  split <;> rfl
@[simp] theorem raise_regs (src inst type : Nat) (d0 d1 d2 : Word) (s : State) : (raise src inst type d0 d1 d2 s).regs = s.regs := by
  unfold raise
  split <;> rfl
@[simp] theorem raise_latch (src inst type : Nat) (d0 d1 d2 : Word) (s : State) : (raise src inst type d0 d1 d2 s).latch = s.latch := by
  unfold raise
  split <;> rfl
@[simp] theorem raise_readData (src inst type : Nat) (d0 d1 d2 : Word) (s : State) : (raise src inst type d0 d1 d2 s).readData = s.readData := by
  unfold raise
  split <;> rfl
@[simp] theorem raise_cmd (src inst type : Nat) (d0 d1 d2 : Word) (s : State) : (raise src inst type d0 d1 d2 s).cmd = s.cmd := by
  unfold raise
  split <;> rfl
@[simp] theorem raise_plan (src inst type : Nat) (d0 d1 d2 : Word) (s : State) : (raise src inst type d0 d1 d2 s).plan = s.plan := by
  unfold raise
  split <;> rfl
@[simp] theorem raise_take (src inst type : Nat) (d0 d1 d2 : Word) (s : State) : (raise src inst type d0 d1 d2 s).take = s.take := by
  unfold raise
  split <;> rfl
@[simp] theorem raise_port (src inst type : Nat) (d0 d1 d2 : Word) (s : State) : (raise src inst type d0 d1 d2 s).port = s.port := by
  unfold raise
  split <;> rfl
@[simp] theorem raise_mem (src inst type : Nat) (d0 d1 d2 : Word) (s : State) : (raise src inst type d0 d1 d2 s).mem = s.mem := by
  unfold raise
  split <;> rfl
@[simp] theorem raise_sched (src inst type : Nat) (d0 d1 d2 : Word) (s : State) : (raise src inst type d0 d1 d2 s).sched = s.sched := by
  unfold raise
  split <;> rfl
@[simp] theorem raise_trk (src inst type : Nat) (d0 d1 d2 : Word) (s : State) : (raise src inst type d0 d1 d2 s).trk = s.trk := by
  unfold raise
  split <;> rfl
@[simp] theorem raise_eth (src inst type : Nat) (d0 d1 d2 : Word) (s : State) : (raise src inst type d0 d1 d2 s).eth = s.eth := by
  unfold raise
  split <;> rfl
@[simp] theorem raise_flow (src inst type : Nat) (d0 d1 d2 : Word) (s : State) : (raise src inst type d0 d1 d2 s).flow = s.flow := by
  unfold raise
  split <;> rfl
@[simp] theorem raise_ibx (src inst type : Nat) (d0 d1 d2 : Word) (s : State) : (raise src inst type d0 d1 d2 s).ibx = s.ibx := by
  unfold raise
  split <;> rfl
@[simp] theorem raise_comp (src inst type : Nat) (d0 d1 d2 : Word) (s : State) : (raise src inst type d0 d1 d2 s).comp = s.comp := by
  unfold raise
  split <;> rfl
@[simp] theorem raise_aud (src inst type : Nat) (d0 d1 d2 : Word) (s : State) : (raise src inst type d0 d1 d2 s).aud = s.aud := by
  unfold raise
  split <;> rfl
@[simp] theorem raise_ref (src inst type : Nat) (d0 d1 d2 : Word) (s : State) : (raise src inst type d0 d1 d2 s).ref = s.ref := by
  unfold raise
  split <;> rfl
@[simp] theorem raise_plls (src inst type : Nat) (d0 d1 d2 : Word) (s : State) : (raise src inst type d0 d1 d2 s).plls = s.plls := by
  unfold raise
  split <;> rfl
@[simp] theorem raise_time (src inst type : Nat) (d0 d1 d2 : Word) (s : State) : (raise src inst type d0 d1 d2 s).time = s.time := by
  unfold raise
  split <;> rfl
@[simp] theorem raise_pair (src inst type : Nat) (d0 d1 d2 : Word) (s : State) : (raise src inst type d0 d1 d2 s).pair = s.pair := by
  unfold raise
  split <;> rfl
@[simp] theorem raise_fw (src inst type : Nat) (d0 d1 d2 : Word) (s : State) : (raise src inst type d0 d1 d2 s).fw = s.fw := by
  unfold raise
  split <;> rfl
@[simp] theorem raise_flash (src inst type : Nat) (d0 d1 d2 : Word) (s : State) : (raise src inst type d0 d1 d2 s).flash = s.flash := by
  unfold raise
  split <;> rfl
@[simp] theorem raise_otp (src inst type : Nat) (d0 d1 d2 : Word) (s : State) : (raise src inst type d0 d1 d2 s).otp = s.otp := by
  unfold raise
  split <;> rfl
@[simp] theorem raise_sec (src inst type : Nat) (d0 d1 d2 : Word) (s : State) : (raise src inst type d0 d1 d2 s).sec = s.sec := by
  unfold raise
  split <;> rfl
@[simp] theorem raise_mods (src inst type : Nat) (d0 d1 d2 : Word) (s : State) : (raise src inst type d0 d1 d2 s).mods = s.mods := by
  unfold raise
  split <;> rfl
@[simp] theorem raise_therm (src inst type : Nat) (d0 d1 d2 : Word) (s : State) : (raise src inst type d0 d1 d2 s).therm = s.therm := by
  unfold raise
  split <;> rfl
@[simp] theorem raise_svc (src inst type : Nat) (d0 d1 d2 : Word) (s : State) : (raise src inst type d0 d1 d2 s).svc = s.svc := by
  unfold raise
  split <;> rfl
@[simp] theorem raise_jtag (src inst type : Nat) (d0 d1 d2 : Word) (s : State) : (raise src inst type d0 d1 d2 s).jtag = s.jtag := by
  unfold raise
  split <;> rfl
@[simp] theorem raise_free (src inst type : Nat) (d0 d1 d2 : Word) (s : State) : (raise src inst type d0 d1 d2 s).free = s.free := by
  unfold raise
  split <;> rfl
@[simp] theorem raise_pending (src inst type : Nat) (d0 d1 d2 : Word) (s : State) : (raise src inst type d0 d1 d2 s).pending = s.pending := by
  unfold raise
  split <;> rfl

/-! ## `setLevel` -/

@[simp] theorem setLevel_now (src a : Nat) (on : Bool) (s : State) : (setLevel src a on s).now = s.now := by
  unfold setLevel
  (repeat' split) <;> rfl
@[simp] theorem setLevel_mono (src a : Nat) (on : Bool) (s : State) : (setLevel src a on s).mono = s.mono := by
  unfold setLevel
  (repeat' split) <;> rfl
@[simp] theorem setLevel_pins (src a : Nat) (on : Bool) (s : State) : (setLevel src a on s).pins = s.pins := by
  unfold setLevel
  (repeat' split) <;> rfl
@[simp] theorem setLevel_regs (src a : Nat) (on : Bool) (s : State) : (setLevel src a on s).regs = s.regs := by
  unfold setLevel
  (repeat' split) <;> rfl
@[simp] theorem setLevel_latch (src a : Nat) (on : Bool) (s : State) : (setLevel src a on s).latch = s.latch := by
  unfold setLevel
  (repeat' split) <;> rfl
@[simp] theorem setLevel_readData (src a : Nat) (on : Bool) (s : State) : (setLevel src a on s).readData = s.readData := by
  unfold setLevel
  (repeat' split) <;> rfl
@[simp] theorem setLevel_cmd (src a : Nat) (on : Bool) (s : State) : (setLevel src a on s).cmd = s.cmd := by
  unfold setLevel
  (repeat' split) <;> rfl
@[simp] theorem setLevel_plan (src a : Nat) (on : Bool) (s : State) : (setLevel src a on s).plan = s.plan := by
  unfold setLevel
  (repeat' split) <;> rfl
@[simp] theorem setLevel_take (src a : Nat) (on : Bool) (s : State) : (setLevel src a on s).take = s.take := by
  unfold setLevel
  (repeat' split) <;> rfl
@[simp] theorem setLevel_port (src a : Nat) (on : Bool) (s : State) : (setLevel src a on s).port = s.port := by
  unfold setLevel
  (repeat' split) <;> rfl
@[simp] theorem setLevel_mem (src a : Nat) (on : Bool) (s : State) : (setLevel src a on s).mem = s.mem := by
  unfold setLevel
  (repeat' split) <;> rfl
@[simp] theorem setLevel_sched (src a : Nat) (on : Bool) (s : State) : (setLevel src a on s).sched = s.sched := by
  unfold setLevel
  (repeat' split) <;> rfl
@[simp] theorem setLevel_trk (src a : Nat) (on : Bool) (s : State) : (setLevel src a on s).trk = s.trk := by
  unfold setLevel
  (repeat' split) <;> rfl
@[simp] theorem setLevel_eth (src a : Nat) (on : Bool) (s : State) : (setLevel src a on s).eth = s.eth := by
  unfold setLevel
  (repeat' split) <;> rfl
@[simp] theorem setLevel_flow (src a : Nat) (on : Bool) (s : State) : (setLevel src a on s).flow = s.flow := by
  unfold setLevel
  (repeat' split) <;> rfl
@[simp] theorem setLevel_ibx (src a : Nat) (on : Bool) (s : State) : (setLevel src a on s).ibx = s.ibx := by
  unfold setLevel
  (repeat' split) <;> rfl
@[simp] theorem setLevel_comp (src a : Nat) (on : Bool) (s : State) : (setLevel src a on s).comp = s.comp := by
  unfold setLevel
  (repeat' split) <;> rfl
@[simp] theorem setLevel_aud (src a : Nat) (on : Bool) (s : State) : (setLevel src a on s).aud = s.aud := by
  unfold setLevel
  (repeat' split) <;> rfl
@[simp] theorem setLevel_ref (src a : Nat) (on : Bool) (s : State) : (setLevel src a on s).ref = s.ref := by
  unfold setLevel
  (repeat' split) <;> rfl
@[simp] theorem setLevel_plls (src a : Nat) (on : Bool) (s : State) : (setLevel src a on s).plls = s.plls := by
  unfold setLevel
  (repeat' split) <;> rfl
@[simp] theorem setLevel_time (src a : Nat) (on : Bool) (s : State) : (setLevel src a on s).time = s.time := by
  unfold setLevel
  (repeat' split) <;> rfl
@[simp] theorem setLevel_pair (src a : Nat) (on : Bool) (s : State) : (setLevel src a on s).pair = s.pair := by
  unfold setLevel
  (repeat' split) <;> rfl
@[simp] theorem setLevel_fw (src a : Nat) (on : Bool) (s : State) : (setLevel src a on s).fw = s.fw := by
  unfold setLevel
  (repeat' split) <;> rfl
@[simp] theorem setLevel_flash (src a : Nat) (on : Bool) (s : State) : (setLevel src a on s).flash = s.flash := by
  unfold setLevel
  (repeat' split) <;> rfl
@[simp] theorem setLevel_otp (src a : Nat) (on : Bool) (s : State) : (setLevel src a on s).otp = s.otp := by
  unfold setLevel
  (repeat' split) <;> rfl
@[simp] theorem setLevel_sec (src a : Nat) (on : Bool) (s : State) : (setLevel src a on s).sec = s.sec := by
  unfold setLevel
  (repeat' split) <;> rfl
@[simp] theorem setLevel_mods (src a : Nat) (on : Bool) (s : State) : (setLevel src a on s).mods = s.mods := by
  unfold setLevel
  (repeat' split) <;> rfl
@[simp] theorem setLevel_therm (src a : Nat) (on : Bool) (s : State) : (setLevel src a on s).therm = s.therm := by
  unfold setLevel
  (repeat' split) <;> rfl
@[simp] theorem setLevel_svc (src a : Nat) (on : Bool) (s : State) : (setLevel src a on s).svc = s.svc := by
  unfold setLevel
  (repeat' split) <;> rfl
@[simp] theorem setLevel_jtag (src a : Nat) (on : Bool) (s : State) : (setLevel src a on s).jtag = s.jtag := by
  unfold setLevel
  (repeat' split) <;> rfl
@[simp] theorem setLevel_free (src a : Nat) (on : Bool) (s : State) : (setLevel src a on s).free = s.free := by
  unfold setLevel
  (repeat' split) <;> rfl
@[simp] theorem setLevel_pending (src a : Nat) (on : Bool) (s : State) : (setLevel src a on s).pending = s.pending := by
  unfold setLevel
  (repeat' split) <;> rfl

/-! ## `queueReply` -/

@[simp] theorem queueReply_now (r : Reply) (s : State) : (queueReply r s).now = s.now := by
  unfold queueReply
  simp only []
  split <;> rfl
@[simp] theorem queueReply_mono (r : Reply) (s : State) : (queueReply r s).mono = s.mono := by
  unfold queueReply
  simp only []
  split <;> rfl
@[simp] theorem queueReply_pins (r : Reply) (s : State) : (queueReply r s).pins = s.pins := by
  unfold queueReply
  simp only []
  split <;> rfl
@[simp] theorem queueReply_latch (r : Reply) (s : State) : (queueReply r s).latch = s.latch := by
  unfold queueReply
  simp only []
  split <;> rfl
@[simp] theorem queueReply_readData (r : Reply) (s : State) : (queueReply r s).readData = s.readData := by
  unfold queueReply
  simp only []
  split <;> rfl
@[simp] theorem queueReply_evq (r : Reply) (s : State) : (queueReply r s).evq = s.evq := by
  unfold queueReply
  simp only []
  split <;> rfl
@[simp] theorem queueReply_plan (r : Reply) (s : State) : (queueReply r s).plan = s.plan := by
  unfold queueReply
  simp only []
  split <;> rfl
@[simp] theorem queueReply_take (r : Reply) (s : State) : (queueReply r s).take = s.take := by
  unfold queueReply
  simp only []
  split <;> rfl
@[simp] theorem queueReply_port (r : Reply) (s : State) : (queueReply r s).port = s.port := by
  unfold queueReply
  simp only []
  split <;> rfl
@[simp] theorem queueReply_mem (r : Reply) (s : State) : (queueReply r s).mem = s.mem := by
  unfold queueReply
  simp only []
  split <;> rfl
@[simp] theorem queueReply_sched (r : Reply) (s : State) : (queueReply r s).sched = s.sched := by
  unfold queueReply
  simp only []
  split <;> rfl
@[simp] theorem queueReply_trk (r : Reply) (s : State) : (queueReply r s).trk = s.trk := by
  unfold queueReply
  simp only []
  split <;> rfl
@[simp] theorem queueReply_eth (r : Reply) (s : State) : (queueReply r s).eth = s.eth := by
  unfold queueReply
  simp only []
  split <;> rfl
@[simp] theorem queueReply_flow (r : Reply) (s : State) : (queueReply r s).flow = s.flow := by
  unfold queueReply
  simp only []
  split <;> rfl
@[simp] theorem queueReply_ibx (r : Reply) (s : State) : (queueReply r s).ibx = s.ibx := by
  unfold queueReply
  simp only []
  split <;> rfl
@[simp] theorem queueReply_comp (r : Reply) (s : State) : (queueReply r s).comp = s.comp := by
  unfold queueReply
  simp only []
  split <;> rfl
@[simp] theorem queueReply_aud (r : Reply) (s : State) : (queueReply r s).aud = s.aud := by
  unfold queueReply
  simp only []
  split <;> rfl
@[simp] theorem queueReply_ref (r : Reply) (s : State) : (queueReply r s).ref = s.ref := by
  unfold queueReply
  simp only []
  split <;> rfl
@[simp] theorem queueReply_plls (r : Reply) (s : State) : (queueReply r s).plls = s.plls := by
  unfold queueReply
  simp only []
  split <;> rfl
@[simp] theorem queueReply_time (r : Reply) (s : State) : (queueReply r s).time = s.time := by
  unfold queueReply
  simp only []
  split <;> rfl
@[simp] theorem queueReply_pair (r : Reply) (s : State) : (queueReply r s).pair = s.pair := by
  unfold queueReply
  simp only []
  split <;> rfl
@[simp] theorem queueReply_fw (r : Reply) (s : State) : (queueReply r s).fw = s.fw := by
  unfold queueReply
  simp only []
  split <;> rfl
@[simp] theorem queueReply_flash (r : Reply) (s : State) : (queueReply r s).flash = s.flash := by
  unfold queueReply
  simp only []
  split <;> rfl
@[simp] theorem queueReply_otp (r : Reply) (s : State) : (queueReply r s).otp = s.otp := by
  unfold queueReply
  simp only []
  split <;> rfl
@[simp] theorem queueReply_sec (r : Reply) (s : State) : (queueReply r s).sec = s.sec := by
  unfold queueReply
  simp only []
  split <;> rfl
@[simp] theorem queueReply_mods (r : Reply) (s : State) : (queueReply r s).mods = s.mods := by
  unfold queueReply
  simp only []
  split <;> rfl
@[simp] theorem queueReply_therm (r : Reply) (s : State) : (queueReply r s).therm = s.therm := by
  unfold queueReply
  simp only []
  split <;> rfl
@[simp] theorem queueReply_svc (r : Reply) (s : State) : (queueReply r s).svc = s.svc := by
  unfold queueReply
  simp only []
  split <;> rfl
@[simp] theorem queueReply_jtag (r : Reply) (s : State) : (queueReply r s).jtag = s.jtag := by
  unfold queueReply
  simp only []
  split <;> rfl
@[simp] theorem queueReply_free (r : Reply) (s : State) : (queueReply r s).free = s.free := by
  unfold queueReply
  simp only []
  split <;> rfl
@[simp] theorem queueReply_pending (r : Reply) (s : State) : (queueReply r s).pending = s.pending := by
  unfold queueReply
  simp only []
  split <;> rfl

/-! ## `resultError` -/

@[simp] theorem resultError_now (c : Packet) (r : List (Nat × Nat)) (s : State) : (resultError c r s).now = s.now := by
  unfold resultError
  split <;> rfl
@[simp] theorem resultError_mono (c : Packet) (r : List (Nat × Nat)) (s : State) : (resultError c r s).mono = s.mono := by
  unfold resultError
  split <;> rfl
@[simp] theorem resultError_pins (c : Packet) (r : List (Nat × Nat)) (s : State) : (resultError c r s).pins = s.pins := by
  unfold resultError
  split <;> rfl
@[simp] theorem resultError_latch (c : Packet) (r : List (Nat × Nat)) (s : State) : (resultError c r s).latch = s.latch := by
  unfold resultError
  split <;> rfl
@[simp] theorem resultError_readData (c : Packet) (r : List (Nat × Nat)) (s : State) : (resultError c r s).readData = s.readData := by
  unfold resultError
  split <;> rfl
@[simp] theorem resultError_cmd (c : Packet) (r : List (Nat × Nat)) (s : State) : (resultError c r s).cmd = s.cmd := by
  unfold resultError
  split <;> rfl
@[simp] theorem resultError_evq (c : Packet) (r : List (Nat × Nat)) (s : State) : (resultError c r s).evq = s.evq := by
  unfold resultError
  split <;> rfl
@[simp] theorem resultError_plan (c : Packet) (r : List (Nat × Nat)) (s : State) : (resultError c r s).plan = s.plan := by
  unfold resultError
  split <;> rfl
@[simp] theorem resultError_take (c : Packet) (r : List (Nat × Nat)) (s : State) : (resultError c r s).take = s.take := by
  unfold resultError
  split <;> rfl
@[simp] theorem resultError_port (c : Packet) (r : List (Nat × Nat)) (s : State) : (resultError c r s).port = s.port := by
  unfold resultError
  split <;> rfl
@[simp] theorem resultError_mem (c : Packet) (r : List (Nat × Nat)) (s : State) : (resultError c r s).mem = s.mem := by
  unfold resultError
  split <;> rfl
@[simp] theorem resultError_sched (c : Packet) (r : List (Nat × Nat)) (s : State) : (resultError c r s).sched = s.sched := by
  unfold resultError
  split <;> rfl
@[simp] theorem resultError_trk (c : Packet) (r : List (Nat × Nat)) (s : State) : (resultError c r s).trk = s.trk := by
  unfold resultError
  split <;> rfl
@[simp] theorem resultError_eth (c : Packet) (r : List (Nat × Nat)) (s : State) : (resultError c r s).eth = s.eth := by
  unfold resultError
  split <;> rfl
@[simp] theorem resultError_flow (c : Packet) (r : List (Nat × Nat)) (s : State) : (resultError c r s).flow = s.flow := by
  unfold resultError
  split <;> rfl
@[simp] theorem resultError_ibx (c : Packet) (r : List (Nat × Nat)) (s : State) : (resultError c r s).ibx = s.ibx := by
  unfold resultError
  split <;> rfl
@[simp] theorem resultError_comp (c : Packet) (r : List (Nat × Nat)) (s : State) : (resultError c r s).comp = s.comp := by
  unfold resultError
  split <;> rfl
@[simp] theorem resultError_aud (c : Packet) (r : List (Nat × Nat)) (s : State) : (resultError c r s).aud = s.aud := by
  unfold resultError
  split <;> rfl
@[simp] theorem resultError_ref (c : Packet) (r : List (Nat × Nat)) (s : State) : (resultError c r s).ref = s.ref := by
  unfold resultError
  split <;> rfl
@[simp] theorem resultError_plls (c : Packet) (r : List (Nat × Nat)) (s : State) : (resultError c r s).plls = s.plls := by
  unfold resultError
  split <;> rfl
@[simp] theorem resultError_time (c : Packet) (r : List (Nat × Nat)) (s : State) : (resultError c r s).time = s.time := by
  unfold resultError
  split <;> rfl
@[simp] theorem resultError_pair (c : Packet) (r : List (Nat × Nat)) (s : State) : (resultError c r s).pair = s.pair := by
  unfold resultError
  split <;> rfl
@[simp] theorem resultError_fw (c : Packet) (r : List (Nat × Nat)) (s : State) : (resultError c r s).fw = s.fw := by
  unfold resultError
  split <;> rfl
@[simp] theorem resultError_flash (c : Packet) (r : List (Nat × Nat)) (s : State) : (resultError c r s).flash = s.flash := by
  unfold resultError
  split <;> rfl
@[simp] theorem resultError_otp (c : Packet) (r : List (Nat × Nat)) (s : State) : (resultError c r s).otp = s.otp := by
  unfold resultError
  split <;> rfl
@[simp] theorem resultError_sec (c : Packet) (r : List (Nat × Nat)) (s : State) : (resultError c r s).sec = s.sec := by
  unfold resultError
  split <;> rfl
@[simp] theorem resultError_mods (c : Packet) (r : List (Nat × Nat)) (s : State) : (resultError c r s).mods = s.mods := by
  unfold resultError
  split <;> rfl
@[simp] theorem resultError_therm (c : Packet) (r : List (Nat × Nat)) (s : State) : (resultError c r s).therm = s.therm := by
  unfold resultError
  split <;> rfl
@[simp] theorem resultError_svc (c : Packet) (r : List (Nat × Nat)) (s : State) : (resultError c r s).svc = s.svc := by
  unfold resultError
  split <;> rfl
@[simp] theorem resultError_jtag (c : Packet) (r : List (Nat × Nat)) (s : State) : (resultError c r s).jtag = s.jtag := by
  unfold resultError
  split <;> rfl
@[simp] theorem resultError_free (c : Packet) (r : List (Nat × Nat)) (s : State) : (resultError c r s).free = s.free := by
  unfold resultError
  split <;> rfl
@[simp] theorem resultError_pending (c : Packet) (r : List (Nat × Nat)) (s : State) : (resultError c r s).pending = s.pending := by
  unfold resultError
  split <;> rfl

/-! ## Equality -/

/-- Two states are equal when every field is: with the lemmas above, the way to show what an update leaves alone. -/
theorem State.eq_of {s t : State} (h0 : t.now = s.now) (h1 : t.mono = s.mono) (h2 : t.pins = s.pins) (h3 : t.regs = s.regs) (h4 : t.latch = s.latch) (h5 : t.readData = s.readData) (h6 : t.cmd = s.cmd) (h7 : t.evq = s.evq) (h8 : t.plan = s.plan) (h9 : t.take = s.take) (h10 : t.port = s.port) (h11 : t.mem = s.mem) (h12 : t.sched = s.sched) (h13 : t.trk = s.trk) (h14 : t.eth = s.eth) (h15 : t.flow = s.flow) (h16 : t.ibx = s.ibx) (h17 : t.comp = s.comp) (h18 : t.aud = s.aud) (h19 : t.ref = s.ref) (h20 : t.plls = s.plls) (h21 : t.time = s.time) (h22 : t.pair = s.pair) (h23 : t.fw = s.fw) (h24 : t.flash = s.flash) (h25 : t.otp = s.otp) (h26 : t.sec = s.sec) (h27 : t.mods = s.mods) (h28 : t.therm = s.therm) (h29 : t.svc = s.svc) (h30 : t.jtag = s.jtag) (h31 : t.free = s.free) (h32 : t.pending = s.pending) : t = s := by
  cases s
  cases t
  simp only at *
  subst h0 h1 h2 h3 h4 h5 h6 h7 h8 h9 h10 h11 h12 h13 h14 h15 h16 h17 h18 h19 h20 h21 h22 h23 h24 h25 h26 h27 h28 h29 h30 h31 h32
  rfl

end Sys2Proof.Machine
end

