-- ==== Sys2Proof/Laws/Tab.lean ====
section
/-! SUPPORT. The laws of sparse tables: what an entry reads as after a write, and the canonical form. -/

namespace Sys2Proof.Machine

@[simp] theorem tabFind_erase_same {α : Type} (k : Nat) (t : Tab α) : tabFind k (tabErase k t) = none := by
  induction t with
  | nil => rfl
  | cons p r ih =>
    obtain ⟨a, v⟩ := p
    by_cases h : a = k <;> simp [tabErase, tabFind, h, ih]

theorem tabFind_erase_ne {α : Type} {j k : Nat} (h : j ≠ k) (t : Tab α) : tabFind j (tabErase k t) = tabFind j t := by
  induction t with
  | nil => rfl
  | cons p r ih =>
    obtain ⟨a, v⟩ := p
    by_cases hk : a = k
    · have : ¬ k = j := fun e => h e.symm
      simp [tabErase, tabFind, hk, ih, this]
    · by_cases hj : a = j
      · subst hj
        simp [tabErase, tabFind, hk]
      · simp [tabErase, tabFind, hk, hj, ih]

@[simp] theorem tabFind_ins_same {α : Type} (k : Nat) (v : α) (t : Tab α) (h : tabFind k t = none) : tabFind k (tabIns k v t) = some v := by
  induction t with
  | nil => simp [tabIns, tabFind]
  | cons p r ih =>
    obtain ⟨a, w⟩ := p
    by_cases hlt : k < a
    · simp [tabIns, tabFind, hlt]
    · have ha : ¬ a = k := by
        intro e
        simp [tabFind, e] at h
      simp [tabFind, ha] at h
      simp [tabIns, tabFind, hlt, ha, ih h]

theorem tabFind_ins_ne {α : Type} {j k : Nat} (h : j ≠ k) (v : α) (t : Tab α) : tabFind j (tabIns k v t) = tabFind j t := by
  have hk : ¬ k = j := fun e => h e.symm
  induction t with
  | nil => simp [tabIns, tabFind, hk]
  | cons p r ih =>
    obtain ⟨a, w⟩ := p
    by_cases hlt : k < a
    · simp [tabIns, tabFind, hlt, hk]
    · by_cases hj : a = j
      · subst hj
        simp [tabIns, tabFind, hlt]
      · simp [tabIns, tabFind, hlt, hj, ih]

/-- The entry just put is the one found. -/
@[simp] theorem tabFind_put_same {α : Type} (k : Nat) (v : α) (t : Tab α) : tabFind k (tabPut k v t) = some v :=
  tabFind_ins_same k v _ (tabFind_erase_same k t)

/-- The other entries stay. -/
theorem tabFind_put_ne {α : Type} {j k : Nat} (h : j ≠ k) (v : α) (t : Tab α) : tabFind j (tabPut k v t) = tabFind j t := by
  rw [tabPut, tabFind_ins_ne h, tabFind_erase_ne h]

@[simp] theorem tabGet_put_same {α : Type} (d : α) (k : Nat) (v : α) (t : Tab α) : tabGet d k (tabPut k v t) = v := by
  simp [tabGet]

theorem tabGet_put_ne {α : Type} (d : α) {j k : Nat} (h : j ≠ k) (v : α) (t : Tab α) : tabGet d j (tabPut k v t) = tabGet d j t := by
  simp [tabGet, tabFind_put_ne h]

/-- The value just written is the one read. -/
@[simp] theorem tabGet_set_same {α : Type} [DecidableEq α] (d : α) (k : Nat) (v : α) (t : Tab α) : tabGet d k (tabSet d k v t) = v := by
  by_cases h : v = d <;> simp [tabGet, tabSet, h]

/-- The other values stay, whatever their default. -/
theorem tabGet_set_ne {α : Type} [DecidableEq α] (d e : α) {j k : Nat} (h : j ≠ k) (v : α) (t : Tab α) :
    tabGet e j (tabSet d k v t) = tabGet e j t := by
  by_cases hv : v = d
  · simp [tabGet, tabSet, hv, tabFind_erase_ne h]
  · simp [tabGet, tabSet, hv, tabFind_put_ne h]

/-- Canonical form of a table over a default: the numbers rise strictly, and no entry equals the default of its number. -/
def tabWf {α : Type} (d : Nat → α) : Tab α → Prop
  | [] => True
  | (k, v) :: r => v ≠ d k ∧ (∀ p ∈ r, k < p.1) ∧ tabWf d r

theorem tabErase_mem {α : Type} {k : Nat} {t : Tab α} {p : Nat × α} (h : p ∈ tabErase k t) : p ∈ t := by
  induction t with
  | nil => simp [tabErase] at h
  | cons q r ih =>
    obtain ⟨a, v⟩ := q
    by_cases hk : a = k
    · simp [tabErase, hk] at h
      exact List.mem_cons_of_mem _ (ih h)
    · simp [tabErase, hk] at h
      rcases h with rfl | h
      · simp
      · exact List.mem_cons_of_mem _ (ih h)

theorem tabErase_wf {α : Type} {d : Nat → α} (k : Nat) {t : Tab α} (h : tabWf d t) : tabWf d (tabErase k t) := by
  induction t with
  | nil => trivial
  | cons q r ih =>
    obtain ⟨a, v⟩ := q
    obtain ⟨h1, h2, h3⟩ := h
    by_cases hk : a = k
    · simpa [tabErase, hk] using ih h3
    · simp only [tabErase, hk, if_false]
      exact ⟨h1, fun p hp => h2 p (tabErase_mem hp), ih h3⟩

theorem tabIns_mem {α : Type} {k : Nat} {v : α} {t : Tab α} {p : Nat × α} (h : p ∈ tabIns k v t) : p = (k, v) ∨ p ∈ t := by
  induction t with
  | nil => simpa [tabIns] using h
  | cons q r ih =>
    obtain ⟨a, w⟩ := q
    by_cases hlt : k < a
    · simpa [tabIns, hlt] using h
    · simp [tabIns, hlt] at h
      rcases h with rfl | h
      · simp
      · rcases ih h with e | e
        · exact .inl e
        · exact .inr (List.mem_cons_of_mem _ e)

theorem tabErase_ne {α : Type} {k : Nat} {t : Tab α} {p : Nat × α} (h : p ∈ tabErase k t) : p.1 ≠ k := by
  induction t with
  | nil => simp [tabErase] at h
  | cons q r ih =>
    obtain ⟨a, v⟩ := q
    by_cases hk : a = k
    · simp [tabErase, hk] at h
      exact ih h
    · simp [tabErase, hk] at h
      rcases h with rfl | h
      · exact hk
      · exact ih h

theorem tabIns_wf {α : Type} {d : Nat → α} {k : Nat} {v : α} {t : Tab α} (hv : v ≠ d k) (hk : ∀ p ∈ t, p.1 ≠ k) (h : tabWf d t) :
    tabWf d (tabIns k v t) := by
  induction t with
  | nil => exact ⟨hv, by simp, trivial⟩
  | cons q r ih =>
    obtain ⟨a, w⟩ := q
    obtain ⟨h1, h2, h3⟩ := h
    by_cases hlt : k < a
    · simp only [tabIns, hlt, if_true]
      refine ⟨hv, fun p hp => ?_, h1, h2, h3⟩
      rcases List.mem_cons.1 hp with rfl | hp
      · exact hlt
      · exact Nat.lt_trans hlt (h2 p hp)
    · simp only [tabIns, hlt, if_false]
      have hak : a < k := Nat.lt_of_le_of_ne (Nat.le_of_not_lt hlt) (hk (a, w) (by simp))
      refine ⟨h1, fun p hp => ?_, ih (fun p hp => hk p (List.mem_cons_of_mem _ hp)) h3⟩
      rcases tabIns_mem hp with rfl | hp
      · exact hak
      · exact h2 p hp

/-- Every write keeps the canonical form. -/
theorem tabSet_wf {α : Type} [DecidableEq α] {d : Nat → α} (k : Nat) (v : α) {t : Tab α} (h : tabWf d t) : tabWf d (tabSet (d k) k v t) := by
  by_cases hv : v = d k
  · simpa [tabSet, hv] using tabErase_wf k h
  · simp only [tabSet, hv, if_false]
    exact tabIns_wf hv (fun _ hp => tabErase_ne hp) (tabErase_wf k h)

/-! ## Lists -/

theorem upto_mem {a n x : Nat} : x ∈ upto a n ↔ a ≤ x ∧ x < a + n := by
  induction n generalizing a with
  | zero => simp [upto]
  | succ n ih =>
    simp only [upto, List.mem_cons, ih]
    omega

@[simp] theorem upto_length (a n : Nat) : (upto a n).length = n := by
  induction n generalizing a with
  | zero => rfl
  | succ n ih => simp [upto, ih]

theorem mem_setIns {k x : Nat} {l : List Nat} : x ∈ setIns k l ↔ x = k ∨ x ∈ l := by
  by_cases h : k ∈ l
  · simp only [setIns, h, if_true]
    exact ⟨.inr, fun e => e.elim (fun e => e ▸ h) id⟩
  · simp only [setIns, h, if_false, List.mem_append, List.mem_singleton]
    tauto

theorem mem_setDel {k x : Nat} {l : List Nat} : x ∈ setDel k l ↔ x ≠ k ∧ x ∈ l := by
  simp only [setDel, List.mem_filter, decide_eq_true_eq]
  tauto

end Sys2Proof.Machine
end

