-- ==== Sys2Proof/Laws/Registers.lean ====
section
/-! SUPPORT. Registers: what one reads as after a write, fields, and the canonical form of the register table. -/

namespace Sys2Proof.Machine

/-- Only the register table decides what a register reads as. -/
theorem rd_congr {s t : State} (h : t.regs = s.regs) (a : Nat) : rd t a = rd s a := by simp [rd, h]

theorem getF_congr {s t : State} (h : t.regs = s.regs) (a lo n : Nat) : getF t a lo n = getF s a lo n := by simp [getF, rd_congr h]

theorem getB_congr {s t : State} (h : t.regs = s.regs) (a b : Nat) : getB t a b = getB s a b := by simp [getB, rd_congr h]

/-- A register reads as the word just written. -/
@[simp] theorem rd_wr_same (a : Nat) (v : Word) (s : State) : rd (wr a v s) a = v := by simp [rd, wr]

/-- A write leaves every other register alone. -/
theorem rd_wr_ne {a b : Nat} (h : b ≠ a) (v : Word) (s : State) : rd (wr a v s) b = rd s b := by simp [rd, wr, tabGet_set_ne _ _ h]

theorem rd_wr (a b : Nat) (v : Word) (s : State) : rd (wr a v s) b = if b = a then v else rd s b := by
  by_cases h : b = a
  · simp [h]
  · simp [h, rd_wr_ne h]

@[simp] theorem rd_putF_same (a lo n v : Nat) (s : State) : rd (putF a lo n v s) a = setFld (rd s a) lo n v := by simp [putF]

theorem rd_putF_ne {a b : Nat} (h : b ≠ a) (lo n v : Nat) (s : State) : rd (putF a lo n v s) b = rd s b := by simp [putF, rd_wr_ne h]

@[simp] theorem rd_putB_same (a b : Nat) (v : Bool) (s : State) : rd (putB a b v s) a = setBit (rd s a) b v := by simp [putB]

theorem rd_putB_ne {a b : Nat} (h : b ≠ a) (k : Nat) (v : Bool) (s : State) : rd (putB a k v s) b = rd s b := by simp [putB, rd_wr_ne h]

@[simp] theorem rd_bump_same (a lo n k : Nat) (s : State) : rd (bump a lo n k s) a = bumpFld (rd s a) lo n k := by simp [bump]

theorem rd_bump_ne {a b : Nat} (h : b ≠ a) (lo n k : Nat) (s : State) : rd (bump a lo n k s) b = rd s b := by simp [bump, rd_wr_ne h]

theorem rd_count_ne {a b : Nat} (h : b ≠ a) (s : State) : rd (count a s) b = rd s b := rd_bump_ne h _ _ _ _

theorem rd_putF (a b lo n v : Nat) (s : State) : rd (putF a lo n v s) b = if b = a then setFld (rd s a) lo n v else rd s b := rd_wr ..

theorem rd_putB (a b k : Nat) (v : Bool) (s : State) : rd (putB a k v s) b = if b = a then setBit (rd s a) k v else rd s b := rd_wr ..

theorem rd_bump (a b lo n k : Nat) (s : State) : rd (bump a lo n k s) b = if b = a then bumpFld (rd s a) lo n k else rd s b := rd_wr ..

theorem rd_count (a b : Nat) (s : State) : rd (count a s) b = if b = a then bumpFld (rd s a) 0 32 1 else rd s b := rd_wr ..

@[simp] theorem rd_tick (dt : Nat) (s : State) (a : Nat) : rd (tick dt s) a = rd s a := rd_congr (tick_regs dt s) a

@[simp] theorem rd_useFree (s : State) (a : Nat) : rd (useFree s) a = rd s a := rd_congr (useFree_regs s) a

@[simp] theorem rd_raise (src inst type : Nat) (d0 d1 d2 : Word) (s : State) (a : Nat) : rd (raise src inst type d0 d1 d2 s) a = rd s a :=
  rd_congr (raise_regs ..) a

@[simp] theorem rd_setLevel (src b : Nat) (on : Bool) (s : State) (a : Nat) : rd (setLevel src b on s) a = rd s a :=
  rd_congr (setLevel_regs ..) a

@[simp] theorem getF_tick (dt : Nat) (s : State) (a lo n : Nat) : getF (tick dt s) a lo n = getF s a lo n := by simp [getF]

@[simp] theorem getB_tick (dt : Nat) (s : State) (a b : Nat) : getB (tick dt s) a b = getB s a b := by simp [getB]

@[simp] theorem powered_tick (dt : Nat) (s : State) : powered (tick dt s) = powered s := rfl

/-! ## Fields -/

theorem fld_lt (w : Word) (lo n : Nat) : fld w lo n < 2 ^ n := Nat.mod_lt _ (Nat.two_pow_pos n)

/-- The word of `setFld` as a number, for a field within the word. -/
theorem setFld_toNat (w : Word) {lo n : Nat} (v : Nat) (h : lo + n ≤ 32) :
    (setFld w lo n v).toNat = w.toNat % 2 ^ lo + v % 2 ^ n * 2 ^ lo + w.toNat / 2 ^ (lo + n) * 2 ^ (lo + n) := by
  have hw : w.toNat < 2 ^ 32 := w.isLt
  generalize hx : w.toNat = x at hw
  have h32 : (2 : Nat) ^ 32 = 2 ^ (lo + n) * 2 ^ (32 - (lo + n)) := by rw [← pow_add]; congr 1; omega
  have hpn : (2 : Nat) ^ (lo + n) = 2 ^ lo * 2 ^ n := pow_add 2 lo n
  have h1 := Nat.div_add_mod x (2 ^ lo)
  have h2 := Nat.div_add_mod (x / 2 ^ lo) (2 ^ n)
  have h3 : x / 2 ^ lo / 2 ^ n = x / 2 ^ (lo + n) := by rw [Nat.div_div_eq_div_mul, hpn]
  have hv : v % 2 ^ n < 2 ^ n := Nat.mod_lt _ (Nat.two_pow_pos n)
  have hm : x % 2 ^ lo < 2 ^ lo := Nat.mod_lt _ (Nat.two_pow_pos lo)
  have hd : x / 2 ^ (lo + n) < 2 ^ (32 - (lo + n)) := by
    rw [Nat.div_lt_iff_lt_mul (Nat.two_pow_pos _), mul_comm, ← h32]; exact hw
  rw [h3] at h2
  have hx' : x = x % 2 ^ lo + (x / 2 ^ lo % 2 ^ n) * 2 ^ lo + x / 2 ^ (lo + n) * 2 ^ (lo + n) := by
    conv_lhs => rw [← h1, ← h2]
    rw [hpn]; ring
  have hlt : x % 2 ^ lo + v % 2 ^ n * 2 ^ lo + x / 2 ^ (lo + n) * 2 ^ (lo + n) < 2 ^ 32 := by
    have a1 : x % 2 ^ lo + v % 2 ^ n * 2 ^ lo < 2 ^ (lo + n) := by
      rw [hpn]
      calc x % 2 ^ lo + v % 2 ^ n * 2 ^ lo < 2 ^ lo + v % 2 ^ n * 2 ^ lo := by omega
        _ = (v % 2 ^ n + 1) * 2 ^ lo := by ring
        _ ≤ 2 ^ n * 2 ^ lo := Nat.mul_le_mul_right _ hv
        _ = 2 ^ lo * 2 ^ n := by ring
    calc _ < 2 ^ (lo + n) + x / 2 ^ (lo + n) * 2 ^ (lo + n) := by omega
      _ = (x / 2 ^ (lo + n) + 1) * 2 ^ (lo + n) := by ring
      _ ≤ 2 ^ (32 - (lo + n)) * 2 ^ (lo + n) := Nat.mul_le_mul_right _ hd
      _ = 2 ^ 32 := by rw [h32]; ring
  have heq : x - x / 2 ^ lo % 2 ^ n * 2 ^ lo + v % 2 ^ n * 2 ^ lo = x % 2 ^ lo + v % 2 ^ n * 2 ^ lo + x / 2 ^ (lo + n) * 2 ^ (lo + n) := by
    omega
  simp only [setFld, fld, hx, BitVec.toNat_ofNat]
  rw [heq, Nat.mod_eq_of_lt hlt]

/-- A field just set reads as the value cut to its width. -/
theorem fld_setFld_same (w : Word) {lo n : Nat} (v : Nat) (h : lo + n ≤ 32) : fld (setFld w lo n v) lo n = v % 2 ^ n := by
  rw [fld, setFld_toNat w v h]
  have hm : w.toNat % 2 ^ lo < 2 ^ lo := Nat.mod_lt _ (Nat.two_pow_pos lo)
  have e : w.toNat % 2 ^ lo + v % 2 ^ n * 2 ^ lo + w.toNat / 2 ^ (lo + n) * 2 ^ (lo + n)
      = w.toNat % 2 ^ lo + 2 ^ lo * (v % 2 ^ n + 2 ^ n * (w.toNat / 2 ^ (lo + n))) := by rw [pow_add]; ring
  rw [e, Nat.add_mul_div_left _ _ (Nat.two_pow_pos lo), Nat.div_eq_of_lt hm, Nat.zero_add, Nat.add_mul_mod_self_left, Nat.mod_mod]

/-- A field that does not overlap the one set stays. -/
theorem fld_setFld_ne (w : Word) {lo n lo' n' : Nat} (v : Nat) (h : lo + n ≤ 32) (hd : lo' + n' ≤ lo ∨ lo + n ≤ lo') :
    fld (setFld w lo n v) lo' n' = fld w lo' n' := by
  have hm : w.toNat % 2 ^ lo < 2 ^ lo := Nat.mod_lt _ (Nat.two_pow_pos lo)
  have hv : v % 2 ^ n < 2 ^ n := Nat.mod_lt _ (Nat.two_pow_pos n)
  rw [fld, setFld_toNat w v h, fld]
  rcases hd with hd | hd
  · obtain ⟨k, rfl⟩ : ∃ k, lo = lo' + n' + k := ⟨lo - (lo' + n'), by omega⟩
    have key : ∀ x y : Nat, (x % 2 ^ (lo' + n' + k) + 2 ^ (lo' + n' + k) * y) / 2 ^ lo' % 2 ^ n' = x / 2 ^ lo' % 2 ^ n' := by
      intro x y
      have h1 : (x % 2 ^ (lo' + n' + k) + 2 ^ (lo' + n' + k) * y) / 2 ^ lo' = x % 2 ^ (lo' + n' + k) / 2 ^ lo' + 2 ^ (n' + k) * y := by
        rw [show 2 ^ (lo' + n' + k) * y = 2 ^ lo' * (2 ^ (n' + k) * y) by rw [add_assoc, pow_add]; ring,
          Nat.add_mul_div_left _ _ (Nat.two_pow_pos lo')]
      rw [h1, show 2 ^ (n' + k) * y = 2 ^ n' * (2 ^ k * y) by rw [pow_add]; ring, Nat.add_mul_mod_self_left]
      rw [← Nat.mod_mul_right_div_self, ← Nat.mod_mul_right_div_self, ← pow_add,
        Nat.mod_mod_of_dvd x (pow_dvd_pow 2 (by omega : lo' + n' ≤ lo' + n' + k))]
    have := key w.toNat (v % 2 ^ n + 2 ^ n * (w.toNat / 2 ^ (lo' + n' + k + n)))
    rw [← this]
    congr 2
    rw [pow_add 2 (lo' + n' + k) n]; ring
  · obtain ⟨k, rfl⟩ : ∃ k, lo' = lo + n + k := ⟨lo' - (lo + n), by omega⟩
    congr 1
    have a1 : w.toNat % 2 ^ lo + v % 2 ^ n * 2 ^ lo < 2 ^ (lo + n) := by
      rw [pow_add]
      calc w.toNat % 2 ^ lo + v % 2 ^ n * 2 ^ lo < 2 ^ lo + v % 2 ^ n * 2 ^ lo := by omega
        _ = (v % 2 ^ n + 1) * 2 ^ lo := by ring
        _ ≤ 2 ^ n * 2 ^ lo := Nat.mul_le_mul_right _ hv
        _ = 2 ^ lo * 2 ^ n := by ring
    rw [pow_add 2 (lo + n) k, ← Nat.div_div_eq_div_mul, ← Nat.div_div_eq_div_mul, mul_comm _ (2 ^ (lo + n)),
      Nat.add_mul_div_left _ _ (Nat.two_pow_pos _), Nat.div_eq_of_lt a1, Nat.zero_add]

@[simp] theorem bit_setBit_same (w : Word) {b : Nat} (v : Bool) (h : b < 32) : bit (setBit w b v) b = v := by
  rw [bit, setBit, fld_setFld_same _ _ (by omega)]
  cases v <;> rfl

theorem bit_setBit_ne (w : Word) {b c : Nat} (v : Bool) (h : b < 32) (hc : c ≠ b) : bit (setBit w b v) c = bit w c := by
  rw [bit, setBit, fld_setFld_ne _ _ (by omega) (by omega), bit]

/-- A register field just put reads as the value cut to its width. -/
theorem getF_putF_same (a : Nat) {lo n : Nat} (v : Nat) (s : State) (h : lo + n ≤ 32) : getF (putF a lo n v s) a lo n = v % 2 ^ n := by
  rw [getF, rd_putF_same, fld_setFld_same _ _ h]

theorem getF_putF_fld (a : Nat) {lo n lo' n' : Nat} (v : Nat) (s : State) (h : lo + n ≤ 32) (hd : lo' + n' ≤ lo ∨ lo + n ≤ lo') :
    getF (putF a lo n v s) a lo' n' = getF s a lo' n' := by
  rw [getF, rd_putF_same, fld_setFld_ne _ _ h hd, getF]

theorem getF_putF_ne {a b : Nat} (hb : b ≠ a) (lo n v lo' n' : Nat) (s : State) : getF (putF a lo n v s) b lo' n' = getF s b lo' n' := by
  rw [getF, rd_putF_ne hb, getF]

theorem getF_putB_ne {a b : Nat} (hb : b ≠ a) (k : Nat) (v : Bool) (lo' n' : Nat) (s : State) : getF (putB a k v s) b lo' n' = getF s b lo' n' := by
  rw [getF, rd_putB_ne hb, getF]

theorem getB_putB_same (a : Nat) {b : Nat} (v : Bool) (s : State) (h : b < 32) : getB (putB a b v s) a b = v := by
  rw [getB, rd_putB_same, bit_setBit_same _ _ h]

theorem getB_putB_bit (a : Nat) {b c : Nat} (v : Bool) (s : State) (h : b < 32) (hc : c ≠ b) : getB (putB a b v s) a c = getB s a c := by
  rw [getB, rd_putB_same, bit_setBit_ne _ _ h hc, getB]

theorem getB_putB_ne {a b : Nat} (hb : b ≠ a) (k : Nat) (v : Bool) (c : Nat) (s : State) : getB (putB a k v s) b c = getB s b c := by
  rw [getB, rd_putB_ne hb, getB]

theorem bumpFld_32 (w : Word) (k : Nat) : (bumpFld w 0 32 k).toNat = min (2 ^ 32 - 1) (w.toNat + k) := by
  have h : w.toNat < 2 ^ 32 := w.isLt
  rw [bumpFld, setFld_toNat _ _ (by omega)]
  simp only [fld, satAdd, pow_zero, Nat.div_one, Nat.mod_one, Nat.zero_add, Nat.mul_one]
  rw [Nat.mod_eq_of_lt h, Nat.div_eq_of_lt h, Nat.zero_mul, Nat.add_zero]
  exact Nat.mod_eq_of_lt (by omega)

/-- A 32-bit count increased by one, up to the all-ones value. -/
theorem rd_count_same (a : Nat) (s : State) : (rd (count a s) a).toNat = min (2 ^ 32 - 1) ((rd s a).toNat + 1) := by
  rw [count, rd_bump_same, bumpFld_32]

/-! ## Canonical form -/

/-- The register table lists rising addresses, and no register at its reset value. -/
def regsWf (s : State) : Prop := tabWf regReset s.regs

theorem wr_regsWf {a : Nat} {v : Word} {s : State} (h : regsWf s) : regsWf (wr a v s) := tabSet_wf (d := regReset) a v h

theorem putF_regsWf {a lo n v : Nat} {s : State} (h : regsWf s) : regsWf (putF a lo n v s) := wr_regsWf h

theorem putB_regsWf {a b : Nat} {v : Bool} {s : State} (h : regsWf s) : regsWf (putB a b v s) := wr_regsWf h

theorem bump_regsWf {a lo n k : Nat} {s : State} (h : regsWf s) : regsWf (bump a lo n k s) := wr_regsWf h

theorem regsWf_congr {s t : State} (e : t.regs = s.regs) (h : regsWf s) : regsWf t := by
  rw [regsWf, e]; exact h

end Sys2Proof.Machine
end

