-- ==== Sys2Proof/Laws/Command.lean ====
section
/-! SUPPORT. A command of the ring: what reaches the dispatcher's state when it is read, accepted and answered. -/

namespace Sys2Proof.Machine

/-- Commands of the powered unit take their effect. -/
theorem only_on {b : Bool} (f : State → State) {s : State} (hb : b = true) (h : powered s = true) : only b f s = f s := by simp [only, hb, h]

theorem only_off {b : Bool} (f : State → State) {s : State} (h : powered s = false) : only b f s = s := by simp [only, h]

theorem lineOnly_on {b : Bool} (f : State → State) {s : State} (hb : b = true) (h : s.pins.vddLine = true) : lineOnly b f s = f s := by
  simp [lineOnly, hb, h]

/-! ## The checks see only what they read -/

theorem reads_congr {s t : State} (hc : rd t Reg.cmdCtrl = rd s Reg.cmdCtrl) (hs : rd t Reg.cmdStatus = rd s Reg.cmdStatus) (hp : t.pins = s.pins) :
    reads t = reads s := by simp [reads, getB, hc, hs, hp]

/-- The checks of a descriptor for this unit read the dispatcher's state, four registers, and nothing else. -/
theorem headCheck_congr {s t : State} {p : Packet} (h0 : p.hdr.target = 0) (hc : t.cmd.expSeq = s.cmd.expSeq) (hr : t.cmd.results = s.cmd.results)
    (h1 : rd t Reg.cmdStatus = rd s Reg.cmdStatus) (h2 : rd t Reg.planState = rd s Reg.planState)
    (h3 : rd t Reg.pairStatus = rd s Reg.pairStatus) : headCheck t p = headCheck s p := by
  simp only [headCheck, seqOk, modeServes, server, modeNow, tagHeld, pendingTags, roleServes, isStandby, paired, joinStep, getF, getB,
    hc, hr, h1, h2, h3, h0, decide_true, Bool.true_and, Bool.true_or]
  rfl

theorem dispatchCheck_congr {s t : State} {p : Packet} (h0 : p.hdr.target = 0) (hc : t.cmd.expSeq = s.cmd.expSeq) (hr : t.cmd.results = s.cmd.results)
    (hq : t.cmd.fwq = s.cmd.fwq) (h1 : rd t Reg.cmdStatus = rd s Reg.cmdStatus) (h2 : rd t Reg.planState = rd s Reg.planState)
    (h3 : rd t Reg.pairStatus = rd s Reg.pairStatus) : dispatchCheck t p = dispatchCheck s p := by
  simp only [dispatchCheck, headCheck_congr h0 hc hr h1 h2 h3, queueOk, hq]
  rfl

theorem fwServes_congr {s t : State} {b : Body} (h1 : rd t Reg.cmdStatus = rd s Reg.cmdStatus) : fwServes b t = fwServes b s := by
  simp only [fwServes, server, getF, h1]
  rfl

theorem ready_tick {h : Hdr} {b : Body} {s : State} (dt : Nat) (hr : Ready h b s) : Ready h b (tick dt s) := by
  obtain ⟨h1, h2, h3, h4, h5, h6⟩ := hr
  refine ⟨h1, h2, h3, h4, ?_, ?_⟩
  · exact (dispatchCheck_congr h4 rfl rfl rfl (rd_tick ..) (rd_tick ..) (rd_tick ..)).trans h5
  · exact h6.imp_right fun e => ⟨e.1, (fwServes_congr (rd_tick ..)).trans e.2⟩

@[simp] theorem tagPending_cmd (tag : Nat) (s : State) : (tagPending tag s).cmd = { s.cmd with
    accCount := s.cmd.accCount + 1
    results := resultsPrune (s.cmd.accCount + 1) s.cmd.results ++ [{ tag := tag, reply := none, phase := false, at_ := s.cmd.accCount + 1 }] } := rfl

@[simp] theorem seqAfter_cmd (n : Nat) (s : State) : (seqAfter n s).cmd = { s.cmd with expSeq := some ((n + 1) % 2 ^ 32) } := rfl

/-- The ring indices after the dispatcher has read the one entry that a doorbell announces (R601). -/
def announced (s : State) : State :=
  let s := putF Reg.cmdTail 0 12 (ringNext (ringSize s 0) (getF s Reg.cmdTail 0 12)) s
  putF Reg.cmdHead 0 12 (ringNext (ringSize s 0) (getF s Reg.cmdHead 0 12)) s

theorem taken_announced (h : Hdr) (s : State) : taken h s = count Reg.cmdAccepted (tagPending h.tag (seqAfter h.seq (announced s))) := by
  simp only [taken, announced]

theorem rd_announced {a : Nat} (s : State) (ha : a ≠ Reg.cmdHead) (hb : a ≠ Reg.cmdTail) : rd (announced s) a = rd s a := by
  simp only [announced]
  rw [rd_putF_ne ha, rd_putF_ne hb]

@[simp] theorem announced_cmd (s : State) : (announced s).cmd = s.cmd := by
  simp only [announced]
  rw [putF_cmd, putF_cmd]

theorem announced_eq (s : State) : announced s = { s with regs := (announced s).regs } := by
  simp only [announced]
  apply State.eq_of <;> simp

/-- A doorbell that announces one entry to a dispatcher that reads (R601): the entry is read at once. -/
theorem doorbell_reads (x : RingEntry) {s : State} (h2 : reads s = true) (h3 : s.cmd.unread = []) :
    doorbell x s = match x with
      | .packet p => arrive p (announced s)
      | .readError => entryUnread (announced s) := by
  have e : putCmd (fun y => { y with unread := [] }) (putCmd (fun y => { y with unread := y.unread ++ [x] })
      (putF Reg.cmdTail 0 12 (ringNext (ringSize s 0) (getF s Reg.cmdTail 0 12)) s))
      = putF Reg.cmdTail 0 12 (ringNext (ringSize s 0) (getF s Reg.cmdTail 0 12)) s := by
    obtain ⟨n, m, pi, re, la, rdd, ⟨c1, c2, c3, c4, c5, c6, c7, c8, c9, c10, c11, c12, c13, c14⟩, rest⟩ := s
    simp only at h3
    subst h3
    rfl
  simp only [announced, doorbell, cmdTailTo, readAll]
  generalize hx : putF Reg.cmdTail 0 12 (ringNext (ringSize s 0) (getF s Reg.cmdTail 0 12)) s = s1 at *
  have hu : (putCmd (fun y => { y with unread := y.unread ++ [x] }) s1).cmd.unread = [x] := by
    rw [← hx]
    show s.cmd.unread ++ _ = _
    rw [h3]; rfl
  have hr1 : reads (putCmd (fun y => { y with unread := y.unread ++ [x] }) s1) = true := by
    rw [← h2]
    refine reads_congr ?_ ?_ ?_
    · rw [rd_congr (putCmd_regs ..), ← hx, rd_putF_ne (by decide)]
    · rw [rd_congr (putCmd_regs ..), ← hx, rd_putF_ne (by decide)]
    · rw [putCmd_pins, ← hx, putF_pins]
  rw [hu]
  simp only [List.length_singleton, readUpTo, readEntry, hu, hr1, if_true]
  have e2 : ringSize (putCmd (fun y => { y with unread := y.unread ++ [x] }) s1) 0 = ringSize s1 0 := rfl
  have e3 : getF (putCmd (fun y => { y with unread := y.unread ++ [x] }) s1) Reg.cmdHead 0 12 = getF s1 Reg.cmdHead 0 12 := rfl
  rw [e, e2, e3] <;> cases x <;> rfl

/-- A command for which the dispatcher is ready is executed in the state `taken`. -/
theorem hostCommand_ready {h : Hdr} {b : Body} {s : State} (hr : Ready h b s) :
    hostCommand h b s = if fastPath b then fastExecute { pkt := { hdr := h, body := b }, origin := .host } (taken h s)
      else fwExecute { pkt := { hdr := h, body := b }, origin := .host } (taken h s) := by
  obtain ⟨h1, h2, h3, h4, h5, h6⟩ := hr
  have hd : dispatchCheck (announced s) { hdr := h, body := b } = none := by
    rw [← h5]
    exact dispatchCheck_congr h4 (by simp) (by simp) (by simp) (rd_announced _ (by decide) (by decide)) (rd_announced _ (by decide) (by decide))
      (rd_announced _ (by decide) (by decide))
  rw [hostCommand, doorbell_reads _ h2 h3]
  simp only [arrive, hd, accept, h4]
  rw [if_neg (by decide), taken_announced]
  generalize hz : count Reg.cmdAccepted (tagPending h.tag (seqAfter h.seq (announced s))) = s3
  cases hf : fastPath b with
  | true => simp
  | false =>
    obtain ⟨hq, hs⟩ := h6.resolve_left (by simp [hf])
    have hq3 : s3.cmd.fwq = [] := by
      rw [← hz, count_cmd, tagPending_cmd, seqAfter_cmd, announced_cmd]
      exact hq
    have hst : rd s3 Reg.cmdStatus = rd s Reg.cmdStatus := by
      rw [← hz, rd_count_ne (by decide), rd_congr (tagPending_regs ..), rd_congr (t := seqAfter _ _) (putCmd_regs ..),
        rd_announced _ (by decide) (by decide)]
    have e4 : putCmd (fun x => { x with fwq := [] }) (putCmd (fun x => { x with fwq := x.fwq ++ [{ pkt := { hdr := h, body := b }, origin := .host }] }) s3) = s3 := by
      obtain ⟨n, m, pi, re, la, rdd, ⟨c1, c2, c3, c4, c5, c6, c7, c8, c9, c10, c11, c12, c13, c14⟩, rest⟩ := s3
      simp only at hq3
      subst hq3
      rfl
    have hq4 : (putCmd (fun x => { x with fwq := x.fwq ++ [{ pkt := { hdr := h, body := b }, origin := .host }] }) s3).cmd.fwq
        = [{ pkt := { hdr := h, body := b }, origin := .host }] := by
      show s3.cmd.fwq ++ _ = _
      rw [hq3]; rfl
    have hs4 : fwServes b (putCmd (fun x => { x with fwq := x.fwq ++ [{ pkt := { hdr := h, body := b }, origin := .host }] }) s3) = true :=
      (fwServes_congr (s := s) ((rd_congr (putCmd_regs ..) _).trans hst)).trans hs
    clear hz
    simp only [fwEnqueue, hq3, List.isEmpty_nil, if_true, fwTake, hq4, hs4, e4]

/-- The rows of the opcode table put their descriptor on the ring and ring the doorbell. -/
theorem hostPacket_exec {i : Instr} {dt : Nat} {p : Packet} (h : hostPacket i = some (dt, p)) (s : State) :
    exec i s = .next (only true (hostCommand p.hdr p.body) (tick dt s)) := by
  cases i <;> simp only [hostPacket, Option.some.injEq, Prod.mk.injEq, reduceCtorEq] at h <;> obtain ⟨rfl, rfl⟩ := h <;> rfl

/-! ## What acceptance does -/

/-- Changes of registers and of the dispatcher's state, one after the other. -/
theorem regsCmd_trans {s u t : State} (h1 : u = { s with regs := u.regs, cmd := u.cmd }) (h2 : t = { u with regs := t.regs, cmd := t.cmd }) :
    t = { s with regs := t.regs, cmd := t.cmd } := by
  rw [h1] at h2
  exact h2

theorem taken_eq (h : Hdr) (s : State) : taken h s = { s with regs := (taken h s).regs, cmd := (taken h s).cmd } := by
  simp only [taken]
  apply State.eq_of <;> simp [seqAfter]

@[simp] theorem taken_cmd (h : Hdr) (s : State) : (taken h s).cmd = { s.cmd with
    expSeq := some ((h.seq + 1) % 2 ^ 32)
    accCount := s.cmd.accCount + 1
    results := resultsPrune (s.cmd.accCount + 1) s.cmd.results ++ [{ tag := h.tag, reply := none, phase := false, at_ := s.cmd.accCount + 1 }] } := by
  simp only [taken]
  rw [count_cmd, tagPending_cmd, seqAfter_cmd, putF_cmd, putF_cmd]

/-- Acceptance moves only the ring registers, and no flag of `CMD_STATUS`. -/
theorem rd_taken {a : Nat} (h : Hdr) (s : State) (ha : a ≠ Reg.cmdTail) (hb : a ≠ Reg.cmdHead) (hc : a ≠ Reg.cmdAccepted) :
    rd (taken h s) a = rd s a := by
  simp only [taken]
  rw [rd_count_ne hc, rd_congr (tagPending_regs ..), rd_congr (t := seqAfter _ _) (putCmd_regs ..), rd_putF_ne hb, rd_putF_ne ha]

/-! ## What a completion does -/

theorem rd_resultError {a : Nat} (c : Packet) (r : List (Nat × Nat)) (s : State) (ha : a ≠ Reg.cmdStatus) : rd (resultError c r s) a = rd s a := by
  unfold resultError
  split
  · exact rd_putB_ne ha _ _ _
  · rfl

theorem server_resultError (c : Packet) (r : List (Nat × Nat)) (s : State) : getF (resultError c r s) Reg.cmdStatus 0 2 = getF s Reg.cmdStatus 0 2 := by
  unfold resultError
  split
  · exact getF_putF_fld _ _ _ (by decide) (by decide)
  · rfl

theorem rd_queueReply {a : Nat} (r : Reply) (s : State) (ha : a ≠ Reg.cmdStatus) : rd (queueReply r s) a = rd s a := by
  simp only [queueReply]
  split
  · rw [rd_putB_ne ha, rd_putB_ne ha]
    rfl
  · rfl

theorem server_queueReply (r : Reply) (s : State) : getF (queueReply r s) Reg.cmdStatus 0 2 = getF s Reg.cmdStatus 0 2 := by
  simp only [queueReply]
  split
  · exact (getF_putF_fld _ _ _ (by decide) (by decide)).trans (getF_putF_fld _ _ _ (by decide) (by decide))
  · rfl

@[simp] theorem queueReply_cmd (r : Reply) (s : State) : (queueReply r s).cmd = { s.cmd with waiting := s.cmd.waiting ++ [r] } := by
  simp only [queueReply]
  split <;> rfl

/-- Everything a completion for the host does. -/
theorem completeAt_host (c : Cmd) (status detail frame : Nat) (result : List (Nat × Nat)) (s : State) (ho : c.origin = .host) :
    let t := completeAt c status detail frame result s
    let r := mkReply c.pkt status detail frame result false
    t = { s with regs := t.regs, cmd := t.cmd }
      ∧ (∃ ph, t.cmd = { s.cmd with results := resultPut r ph s.cmd.accCount s.cmd.results, waiting := s.cmd.waiting ++ [r] })
      ∧ (∀ a, a ≠ Reg.cmdStatus → rd t a = rd s a) ∧ getF t Reg.cmdStatus 0 2 = getF s Reg.cmdStatus 0 2 := by
  have hs : ∀ u : State, ∀ r, queueReply r u = { u with regs := (queueReply r u).regs, cmd := (queueReply r u).cmd } := by
    intro u r
    simp only [queueReply]
    split <;> rfl
  have he : resultError c.pkt result s = { s with regs := (resultError c.pkt result s).regs } := by
    unfold resultError
    split <;> rfl
  simp only [completeAt, ho]
  generalize hu : resultError c.pkt result s = u at *
  refine ⟨?_, ?_, ?_, ?_⟩
  · rw [hs]
    rw [he]
  · refine ⟨replyPhase u, ?_⟩
    rw [queueReply_cmd]
    have : u.cmd = s.cmd := by rw [he]
    simp only [this]
  · intro a ha
    rw [rd_queueReply _ _ ha]
    show rd u a = _
    rw [← hu, rd_resultError _ _ _ ha]
  · rw [server_queueReply]
    show getF u _ _ _ = _
    rw [← hu, server_resultError]

theorem find_append_none {l : List ResEntry} {p : ResEntry → Bool} (h : l.find? p = none) (x : ResEntry) (hx : p x = true) :
    (l ++ [x]).find? p = some x := by
  simp [List.find?_append, h, hx]

/-- The reply put into the result table is the one that the tag then holds. -/
theorem resultPut_find (r : Reply) (ph : Bool) (acc : Nat) (l : List ResEntry) :
    ((resultPut r ph acc l).find? fun e => decide (e.tag = r.tag)).bind ResEntry.reply = some r := by
  unfold resultPut
  split
  · rename_i h
    induction l with
    | nil => simp at h
    | cons x xs ih =>
      by_cases hx : x.tag = r.tag
      · simp [hx]
      · simp [hx] at h
        simpa [hx] using ih (by simpa using h)
  · rename_i h
    have : l.find? (fun e => decide (e.tag = r.tag)) = none := by
      rw [List.find?_eq_none]
      intro x hx e
      exact h (List.any_eq_true.2 ⟨x, hx, e⟩)
    rw [find_append_none this _ (by simp)]
    rfl

theorem cutBody_of_le {n : Nat} {l : List (Nat × Nat)} (h : bodyLen l ≤ n) : cutBody n l = l := by
  have key : ∀ (l : List (Nat × Nat)) (k : Nat), l.foldl (fun a b => a + b.1) k = k + bodyLen l := by
    intro l
    induction l with
    | nil => intro k; rfl
    | cons x xs ih =>
      intro k
      have e1 := ih (k + x.1)
      have e2 := ih (0 + x.1)
      have e3 : bodyLen (x :: xs) = xs.foldl (fun a b => a + b.1) (0 + x.1) := by
        simp [bodyLen, sumL, List.foldl_map]
      simp only [List.foldl_cons]
      omega
  have hc : ∀ (x : Nat × Nat) (xs : List (Nat × Nat)), bodyLen (x :: xs) = x.1 + bodyLen xs := by
    intro x xs
    have e3 : bodyLen (x :: xs) = xs.foldl (fun a b => a + b.1) (0 + x.1) := by
      simp [bodyLen, sumL, List.foldl_map]
    have := key xs (0 + x.1)
    omega
  induction l generalizing n with
  | nil => rfl
  | cons x xs ih =>
    obtain ⟨a, v⟩ := x
    have := hc (a, v) xs
    simp only at this
    have h1 : a ≤ n := by omega
    simp only [cutBody, h1, if_true]
    rw [ih (by omega)]

theorem mkReply_is (p : Packet) (status detail frame : Nat) (result : List (Nat × Nat)) :
    ReplyIs p status detail frame result (mkReply p status detail frame result false) := by
  refine ⟨rfl, rfl, rfl, rfl, rfl, rfl, rfl, rfl, ?_, ?_⟩
  · intro h
    simp [mkReply, h]
  · intro h hf hl
    have h1 : ¬ bodyLen result ≤ 32 := by omega
    simp [mkReply, h1, hf, cutBody_of_le hl, Nat.not_lt.2 hl]

/-- A command that is answered in the state `taken` has answered. -/
theorem answered_of_cmd {h : Hdr} {b : Body} {s u : State} (status detail frame : Nat) (result : List (Nat × Nat)) (hc : u.cmd = (taken h s).cmd) :
    Answered h b status detail frame result s (completeAt { pkt := { hdr := h, body := b }, origin := .host } status detail frame result u) := by
  obtain ⟨-, ⟨ph, h2⟩, -, -⟩ := completeAt_host { pkt := { hdr := h, body := b }, origin := .host } status detail frame result u rfl
  refine ⟨mkReply { hdr := h, body := b } status detail frame result false, ?_, mkReply_is .., ?_, ?_⟩
  · rw [h2, hc]; rfl
  · simp only [tagHeld, h2]
    exact resultPut_find (mkReply { hdr := h, body := b } status detail frame result false) ..
  · rw [h2, hc]; rfl

theorem houseFrame_congr {s t : State} (h1 : rd t Reg.planHouseRate = rd s Reg.planHouseRate) (h2 : t.now = s.now) : houseFrame t = houseFrame s := by
  unfold houseFrame houseRate getF
  rw [h1, h2]

@[simp] theorem taken_now (h : Hdr) (s : State) : (taken h s).now = s.now := by rw [taken_eq]

theorem houseFrame_taken (h : Hdr) (s : State) : houseFrame (taken h s) = houseFrame s :=
  houseFrame_congr (rd_taken h s (by decide) (by decide) (by decide)) (taken_now h s)

/-- What a reply with no further effect leaves: everything but the dispatcher's ring state. -/
theorem ringFrame_of {dt : Nat} {h : Hdr} {b : Body} {s : State} (status detail frame : Nat) (result : List (Nat × Nat)) :
    let t := completeAt { pkt := { hdr := h, body := b }, origin := .host } status detail frame result (taken h (tick dt s))
    t = { tick dt s with regs := t.regs, cmd := t.cmd } ∧ RegsBut ringRegs s t ∧ RingKept s t := by
  obtain ⟨h1, ⟨ph, h2⟩, h3, h4⟩ := completeAt_host { pkt := { hdr := h, body := b }, origin := .host } status detail frame result (taken h (tick dt s)) rfl
  refine ⟨regsCmd_trans (taken_eq h (tick dt s)) h1, ?_, ?_, ?_⟩
  · intro a ha
    simp only [ringRegs, List.mem_cons, List.not_mem_nil, or_false, not_or] at ha
    rw [h3 a ha.2.2.2, rd_taken h _ ha.1 ha.2.1 ha.2.2.1, rd_tick]
  · rw [h2]
    simp
  · rw [h4, getF, rd_taken h _ (by decide) (by decide) (by decide), rd_tick, getF]

/-- A command that is answered with nothing else to do. -/
theorem answersWith_of {dt : Nat} {h : Hdr} {b : Body} {s : State} (status : Nat) (result : List (Nat × Nat)) :
    AnswersWith dt h b status result s (complete { pkt := { hdr := h, body := b }, origin := .host } status 0 result (taken h (tick dt s))) := by
  rw [complete, houseFrame_taken]
  exact ⟨answered_of_cmd (s := tick dt s) _ _ _ _ rfl, ringFrame_of ..⟩

/-- What a fast-path command for which the dispatcher is ready does. -/
theorem exec_fast {dt : Nat} {h : Hdr} {b : Body} {s : State} (hr : Ready h b s) (hf : fastPath b = true) :
    only true (hostCommand h b) (tick dt s) = fastExecute { pkt := { hdr := h, body := b }, origin := .host } (taken h (tick dt s)) := by
  have hp : powered (tick dt s) = true := hr.1
  rw [only_on _ rfl hp, hostCommand_ready (ready_tick dt hr), if_pos hf]

/-- What a firmware command for which the dispatcher and the firmware are ready does. -/
theorem exec_fw {dt : Nat} {h : Hdr} {b : Body} {s : State} (hr : Ready h b s) (hf : fastPath b = false) :
    only true (hostCommand h b) (tick dt s) = fwExecute { pkt := { hdr := h, body := b }, origin := .host } (taken h (tick dt s)) := by
  have hp : powered (tick dt s) = true := hr.1
  rw [only_on _ rfl hp, hostCommand_ready (ready_tick dt hr), hf, if_neg (by decide)]

end Sys2Proof.Machine
end

