-- ==== Sys2Proof/Machine/Package.lean ====
section
/-! DEFINITION. The package's balls (23_package_and_balls.md R776 to R789): the signal or rail that each of the 8,281 balls carries, its name and its place. -/

namespace Sys2Proof.Machine

/-! ## Names and places (R777, R779) -/

/-- The letters of a row name. -/
def rowLetters : List Char := "ABCDEFGHJKLMNPTUVWY".toList

/-- The name of row `r`, 1 to 91. -/
def rowName (r : Nat) : String :=
  let l := rowLetters.getD ((r - 1) % 19) 'A'
  match (r - 1) / 19 with
  | 0 => String.ofList [l]
  | k + 1 => String.ofList [rowLetters.getD k 'A', l]

/-- The name of a ball, as in DT91. -/
def ballName (r c : Nat) : String := rowName r ++ toString c

/-- The centre of a ball from the body centre, in mm, seen from the top. -/
def ballAt (r c : Nat) : Int × Int := ((c : Int) - 46, 46 - (r : Int))

/-! ## Signals (R780) -/

/-- A differential pair: a lane of an input or output trunk (8 is CK), of an Ethernet port, of the mirror link (4 is CK) or of PCIe; `tx` names the outputs. -/
inductive BallPair where
  | trunk (tx : Bool) (trunk lane : Nat)
  | eth (tx : Bool) (port lane : Nat)
  | mirror (tx : Bool) (lane : Nat)
  | pcie (tx : Bool) (lane : Nat)
  deriving DecidableEq, Repr

inductive Rail where
  | core
  | sram
  | vddaTrk
  | vddhTrk
  | vddaEth
  | vddhEth
  | mem
  | vppMem
  | line
  deriving DecidableEq, Repr

/-- What a ball carries; a single signal is named as the manual names it. -/
inductive Ball where
  | pair (p : BallPair) (negative : Bool)
  | signal (name : String)
  | rail (r : Rail)
  | vss
  deriving DecidableEq, Repr

/-- The first or second ball of a site of three. -/
def siteBall (p : Option BallPair) (k : Nat) : Ball :=
  match p with
  | some x => if k = 2 then .vss else .pair x (k == 1)
  | none => .vss

/-! ## SerDes balls (R781 to R783) -/

/-- The pair of site `n` of a quadrant (R781). -/
def quadSite (q n : Nat) : Option BallPair :=
  if n < 162 then some (.trunk false (18 * q + n / 9) (n % 9))
  else if n < 324 then some (.trunk true (18 * q + (n - 162) / 9) ((n - 162) % 9))
  else if n < 340 then some (.eth false (4 * q + (n - 324) / 4) ((n - 324) % 4))
  else if n < 356 then some (.eth true (4 * q + (n - 340) / 4) ((n - 340) % 4))
  else none

/-- The pair of site `n` of the hub on row AF (R782). -/
def hubSite (n : Nat) : Option BallPair :=
  if n < 5 then some (.mirror true n)
  else if n < 10 then some (.mirror false (n - 5))
  else if n < 14 then some (.pcie true (n - 10))
  else if n < 18 then some (.pcie false (n - 14))
  else none

/-- A ball of the corner blocks (R781, R783): column 46 is VSS. -/
def cornerBall (r c : Nat) : Ball :=
  if c = 46 then .vss
  else
    let bottom := decide (68 ≤ r)
    let u := if bottom then 91 - r else r - 1
    let k := if c < 46 then c - 1 else c - 47
    siteBall (quadSite ((if bottom then 2 else 0) + if c < 46 then 0 else 1) (15 * u + k / 3)) (k % 3)

/-- The pair and the half of a ball, from the pair: row and column of its positive ball (R781, R782). -/
def pairBall (p : BallPair) : Nat × Nat :=
  let quad := fun (q n : Nat) => ((if q < 2 then 1 + n / 15 else 91 - n / 15), (if q % 2 = 0 then 1 else 47) + 3 * (n % 15))
  match p with
  | .trunk tx t l => quad (t / 18) ((if tx then 162 else 0) + 9 * (t % 18) + l)
  | .eth tx e j => quad (e / 4) ((if tx then 340 else 324) + 4 * (e % 4) + j)
  | .mirror tx l => (25, 1 + 3 * ((if tx then 0 else 5) + l))
  | .pcie tx l => (25, 1 + 3 * ((if tx then 10 else 14) + l))

/-! ## Power and ground (R784) -/

/-- The rail of a core row. -/
def rowRail (r : Nat) : Rail :=
  if r ∈ [27, 28, 66, 67] then .vddaTrk
  else if r ∈ [29, 65] then .vddhTrk
  else if r ∈ [30, 64] then .vddaEth
  else if r ∈ [31, 63] then .vddhEth
  else if r ∈ [32, 33, 61, 62] then .mem
  else if r = 34 then .vppMem
  else if r ∈ [35, 36, 58, 59] then .sram
  else if r = 60 then .line
  else .core

/-! ## Non-SerDes balls (R785 to R788) -/

/-- A number in two digits. -/
def twoDigits (n : Nat) : String := toString (n / 10) ++ toString (n % 10)

/-- Signals of a cage, by row parity and place (R785). -/
def cageSignal (e : Nat) (second : Bool) (k : Nat) : String :=
  "MOD_" ++ twoDigits e ++ "_" ++ (if second then ["RESET_N", "LPMODE", "PRESENT_N"] else ["SCL", "SDA", "INT_N"]).getD k ""

/-- Signals of an audio port, by row and place (R786). -/
def audSignal (p row k : Nat) : String :=
  "AUD_" ++ toString p ++ "_" ++ (["RBCLK", "RFS", "RXD0", "RXD1", "RXD2", "RXD3", "TBCLK", "TFS", "TXD0", "TXD1", "TXD2", "TXD3"]).getD (3 * row + k) ""

/-- The remaining signals by row from BN on, in the order of the columns 1, 2, 3, 91, 90, 89; an empty name is VSS (R787, R788). -/
def edgeSignals : List (List String) :=
  [["GPIO_0", "GPIO_1", "GPIO_2", "PWR_GOOD", "RESET_N", "EVT_N"],
   ["GPIO_3", "GPIO_4", "GPIO_5", "THERM_ALERT_N", "PAIR_SEL", "RESCUE_N"],
   ["GPIO_6", "GPIO_7", "AUD_WCLK", "FRAME_SYNC", "", "XO_27"],
   ["FLASH_CLK", "FLASH_CS_N", "FLASH_IO0", "REF_A", "", "REF_B"],
   ["FLASH_IO1", "FLASH_IO2", "FLASH_IO3", "", "", ""],
   ["TCK", "TMS", "TDI", "VDD_CORE_SENSE", "VSS_CORE_SENSE", "VDD_MEM_SENSE"],
   ["TDO", "TRST_N", "TEST_MODE", "VSS_MEM_SENSE", "RCAL_HUB", ""],
   ["", "", "", "RCAL_Q0", "RCAL_Q1", "RCAL_Q2"],
   ["", "", "", "RCAL_Q3", "", ""]]

/-- The ball at place `k` of an edge strip's row, on the left or the right (R785 to R788). -/
def edgeBall (r : Nat) (right : Bool) (k : Nat) : Ball :=
  if r < 43 then .signal (cageSignal ((if right then 8 else 0) + (r - 27) / 2) (r % 2 == 0) k)
  else if r < 51 then .signal (audSignal ((if right then 2 else 0) + (r - 43) / 4) ((r - 43) % 4) k)
  else match (edgeSignals.getD (r - 51) []).getD ((if right then 3 else 0) + k) "" with
    | "" => .vss
    | x => .signal x

/-! ## The array -/

/-- What the ball at row `r` and column `c`, both 1 to 91, carries (R780 to R788). -/
def ball (r c : Nat) : Ball :=
  if r ≤ 24 ∨ 68 ≤ r then cornerBall r c
  else if r = 25 then (if c ≤ 54 then siteBall (hubSite ((c - 1) / 3)) ((c - 1) % 3) else .vss)
  else if r = 26 then .vss
  else if c ≤ 3 then edgeBall r false (c - 1)
  else if 89 ≤ c then edgeBall r true (91 - c)
  else if (r + c) % 2 = 0 then .vss
  else .rail (rowRail r)

end Sys2Proof.Machine
end

