-- ==== Sys2Proof/WellFormed.lean ====
section
/-! DEFINITION. Well-formed commands: every field fits the bytes that its layout gives it (16_command_packets.md R603, R628), and every number names a part that the package has. -/

namespace Sys2Proof

/-- A number fits `n` bytes. -/
def fits (n v : Nat) : Bool := decide (v < 2 ^ (8 * n))

/-- A signed number fits `n` bytes. -/
def fitsInt (n : Nat) (v : Int) : Bool := decide (-(2 ^ (8 * n - 1) : Int) ≤ v) && decide (v < (2 ^ (8 * n - 1) : Int))

/-- A word address inside BAR0 (22_supervisor_interconnect.md R764). -/
def regAddr (a : Nat) : Bool := decide (a < 0x1000000) && decide (a % 4 = 0)

/-- The header fields fit the command descriptor (R603). -/
def Hdr.wf (h : Hdr) : Bool :=
  fits 1 h.version && fits 1 h.flags && fits 4 h.tag && fits 2 h.length && fits 1 h.target && fits 4 h.seq && fits 8 h.applyAt && fits 4 h.resultLen

/-- A patch record (01_compiled_plan.md R60): COUNT is the number of its entries. -/
def PatchRec.wf (r : PatchRec) : Bool := fits 2 r.type && fits 4 r.first && decide (r.count = r.entries.length)

/-- A command is well formed. -/
def Instr.wf (i : Instr) : Bool :=
  match i with
  | .coldStart _ _ _ _ puf => fits 48 puf
  | .pwrGoodFall _ => true
  | .vddLineFall _ => true
  | .pcieLinkDown _ => true
  | .pcieLinkUp _ => true
  | .statusQuery _ hdr => hdr.wf
  | .tagQuery _ hdr tag => hdr.wf && fits 4 tag
  | .modeSet _ hdr mode => hdr.wf && fits 1 mode
  | .tagRetire _ hdr tag flags => hdr.wf && fits 4 tag && fits 4 flags
  | .echo _ hdr => hdr.wf
  | .fwLoad _ hdr length => hdr.wf && fits 4 length
  | .fwActivate _ hdr window => hdr.wf && fits 4 window
  | .fwConfirm _ hdr => hdr.wf
  | .fwQuery _ hdr => hdr.wf
  | .fwRestart _ hdr => hdr.wf
  | .startOk _ _ => true
  | .startOkTimeout _ => true
  | .confirmWindowExpiry _ => true
  | .supervisorLockstepFail _ => true
  | .fwCommandTake _ => true
  | .planLoad _ hdr length => hdr.wf && fits 4 length
  | .planLoadComplete _ => true
  | .planCommit _ hdr flags mode => hdr.wf && fits 1 flags && fits 1 mode
  | .planArm _ => true
  | .commitHoldRelease _ => true
  | .destinationChangeover _ dest => decide (dest < 1408)
  | .planDiscard _ hdr => hdr.wf
  | .planQuery _ hdr => hdr.wf
  | .planPatch _ hdr records _ => hdr.wf && records.all PatchRec.wf
  | .patchApply _ => true
  | .planRead _ hdr type mode first count => hdr.wf && fits 2 type && fits 1 mode && fits 4 first && fits 4 count
  | .fsControl _ hdr source lossMode holdFrames => hdr.wf && fits 2 source && fits 1 lossMode && fits 2 holdFrames
  | .delaySet _ hdr output delay => hdr.wf && fits 2 output && fits 1 delay
  | .slateLoad _ hdr index width height scan length => hdr.wf && fits 2 index && fits 2 width && fits 2 height && fits 1 scan && fits 4 length
  | .memQuery _ hdr stack => hdr.wf && fits 1 stack
  | .take _ hdr entry flags => hdr.wf && fits 4 entry && fits 4 flags
  | .salvo _ hdr id part flags count entries => hdr.wf && fits 4 id && fits 1 part && fits 1 flags && fits 2 count && entries.all (fits 4)
  | .salvoOpenTimeout _ _ => true
  | .takeCommit _ dest => decide (dest < 1408)
  | .routeQuery _ hdr first count => hdr.wf && fits 2 first && fits 2 count
  | .takeCancel _ hdr tag => hdr.wf && fits 4 tag
  | .refSet _ hdr entry _ => hdr.wf && fits 1 entry
  | .refQuery _ hdr => hdr.wf
  | .refSnap _ hdr => hdr.wf
  | .refSnapStep _ => true
  | .refForce _ hdr cand => hdr.wf && fits 1 cand
  | .timeSet _ hdr sec ns => hdr.wf && fits 8 sec && fits 4 ns
  | .timeConf _ hdr utcOfs localOfs flags jam => hdr.wf && fitsInt 2 utcOfs && fitsInt 2 localOfs && fits 1 flags && fits 4 jam
  | .ptpSet _ hdr cand domain flags dscp vlan ownIp => hdr.wf && fits 1 cand && fits 1 domain && fits 1 flags && fits 1 dscp && fits 2 vlan && fits 16 ownIp
  | .capSet _ hdr channel edge ofs => hdr.wf && fits 1 channel && fits 1 edge && fitsInt 2 ofs
  | .timeQuery _ hdr => hdr.wf
  | .trkQuery _ hdr trunk => hdr.wf && fits 1 trunk
  | .trkRestart _ hdr trunk => hdr.wf && fits 1 trunk
  | .trkMbxSend _ hdr trunk len bytes => hdr.wf && fits 1 trunk && fits 2 len && bytes.all (fits 1)
  | .flowQuery _ hdr first count => hdr.wf && fits 2 first && fits 2 count
  | .flowStats _ hdr flow clear => hdr.wf && fits 2 flow && fits 1 clear
  | .ethHostSet _ hdr channel classes ownMac => hdr.wf && fits 1 channel && fits 1 classes && fits 6 ownMac
  | .ibxTaskQuery _ hdr task count => hdr.wf && fits 2 task && fits 2 count
  | .ibxTableSet _ hdr task table entries => hdr.wf && fits 2 task && fits 1 table && entries.all (fits 2)
  | .ibxColourSet _ hdr task flags _ => hdr.wf && fits 2 task && fits 1 flags
  | .ibxPatternSet _ hdr task pattern slate => hdr.wf && fits 2 task && fits 1 pattern && fits 2 slate
  | .ibxProbeSet _ hdr probe blackLevel blackFrames freezeMad freezeFrames stLimit tpLimit => hdr.wf && fits 2 probe && fits 2 blackLevel && fits 2 blackFrames && fits 1 freezeMad && fits 2 freezeFrames && fitsInt 2 stLimit && fitsInt 2 tpLimit
  | .ibxProbeRead _ hdr probe => hdr.wf && fits 2 probe
  | .ibxLoudReset _ hdr probe => hdr.wf && fits 2 probe
  | .compLayerSet _ hdr count _ => hdr.wf && fits 2 count
  | .compInputFormat _ hdr send format scan rateNum rateDen => hdr.wf && fits 2 send && fits 1 format && fits 1 scan && fits 2 rateNum && fits 2 rateDen
  | .compSurfaceLoad _ hdr head layer fmt x y w h stride => hdr.wf && fits 2 head && fits 1 layer && fits 1 fmt && fits 2 x && fits 2 y && fits 2 w && fits 2 h && fits 4 stride
  | .compTableSet _ hdr head set table flags entries => hdr.wf && fits 2 head && fits 1 set && fits 1 table && fits 1 flags && entries.all (fits 2)
  | .compQuery _ hdr head => hdr.wf && fits 2 head
  | .audTake _ hdr count _ => hdr.wf && fits 2 count
  | .audioChannelCommit _ dest => decide (dest < 65536)
  | .crossfadeEnd _ dest => decide (dest < 65536)
  | .audRouteQuery _ hdr first count => hdr.wf && fits 2 first && fits 2 count
  | .audPortSet _ hdr port dir ctrl rxMask txMask => hdr.wf && fits 1 port && fits 1 dir && fits 4 ctrl && fits 8 rxMask && fits 8 txMask
  | .audPortQuery _ hdr port => hdr.wf && fits 1 port
  | .pairSet _ hdr rolePrio flags pinSerial => hdr.wf && fits 1 rolePrio && fits 1 flags && fits 8 pinSerial
  | .pairQuery _ hdr => hdr.wf
  | .pairResync _ hdr => hdr.wf
  | .pairLink _ hdr action => hdr.wf && fits 1 action
  | .pairDigests _ hdr first count => hdr.wf && fits 2 first && fits 2 count
  | .modQuery _ hdr module => hdr.wf && fits 1 module
  | .modProfileSet _ hdr eol ea => hdr.wf && fits 4 eol && fits 2 ea
  | .modLedgerRead _ hdr first count => hdr.wf && fits 2 first && fits 2 count
  | .modControl _ hdr module action => hdr.wf && fits 1 module && fits 1 action
  | .modAllowSet _ hdr index flags oui part => hdr.wf && fits 2 index && fits 2 flags && fits 3 oui && fits 16 part
  | .telSensors _ hdr => hdr.wf
  | .telCounters _ hdr block index clear => hdr.wf && fits 2 block && fits 2 index && fits 1 clear
  | .telWearRead _ hdr => hdr.wf
  | .idCertRead _ hdr => hdr.wf
  | .idInfo _ hdr => hdr.wf
  | .idAttest _ hdr nonce => hdr.wf && fits 32 nonce
  | .idOwnerKey _ hdr slot hash _ => hdr.wf && fits 1 slot && fits 48 hash
  | .idPolicySet _ hdr policy _ => hdr.wf && fits 1 policy
  | .svcEnter _ hdr => hdr.wf
  | .svcLeave _ hdr => hdr.wf
  | .svcTest _ hdr test unit param => hdr.wf && fits 2 test && fits 2 unit && fits 4 param
  | .svcRepair _ hdr stack => hdr.wf && fits 1 stack
  | .descriptorReadError _ => true
  | .relayedReply _ _ => true
  | .replyWrite _ => true
  | .cmdTailWrite _ tail _ => decide (tail < 4096)
  | .replyHeadWrite _ head => decide (head < 4096)
  | .htxTailWrite _ tail _ => decide (tail < 4096)
  | .hrxTailWrite _ tail => decide (tail < 4096)
  | .cmdEnWrite _ _ _ => true
  | .cmdRingConfigWrite _ offset _ => decide (offset ∈ [0x8, 0xC, 0x10, 0x14, 0x18, 0x1C, 0x20, 0x24, 0x28])
  | .cmdCtrlReset _ _ _ => true
  | .evqHeadWrite _ head => decide (head < 4096)
  | .evqEnWrite _ _ _ => true
  | .evqCtrlReset _ _ _ => true
  | .evqRingConfigWrite _ offset _ => decide (offset ∈ [0x8, 0xC, 0x10])
  | .evqMaskWrite _ word _ => decide (word < 64)
  | .eventCommit _ _ => true
  | .eventRecordRetry _ _ => true
  | .rcFieldRead _ addr => regAddr addr
  | .latchedPairRead _ addr => regAddr addr
  | .statCounterLoRead _ addr => regAddr addr
  | .tmbNowNsRead _ => true
  | .capNsRead _ channel => decide (channel < 16)
  | .trkMbxDataWrite _ trunk _ => decide (trunk < 72)
  | .trkMbxDataRead _ trunk => decide (trunk < 72)
  | .trkLinkEnable _ trunk _ => decide (trunk < 72)
  | .trkLinkRestart _ trunk => decide (trunk < 72)
  | .trkRoleWrite _ trunk _ => decide (trunk < 72)
  | .trkManualWrite _ trunk _ => decide (trunk < 72)
  | .trkLaneSlip _ lane => decide (lane < 576)
  | .edgeStart _ lane => decide (lane < 576)
  | .edgeWindowDone _ lane _ => decide (lane < 576)
  | .trkErrInject _ lane => decide (lane < 576)
  | .ibxCtrlReset _ engine => decide (engine < 128)
  | .ibxCtrlInject _ engine => decide (engine < 128)
  | .pllRelock _ pll => decide (pll < 20)
  | .audPortCommit _ port => decide (port < 4)
  | .audPortConfigWrite _ port _ => decide (port < 4)
  | .audMaskCommit _ port _ _ => decide (port < 4)
  | .ethLoopbackWrite _ port _ => decide (port < 16)
  | .sicMapWrite _ _ _ => true
  | .bar2Write _ _ => true
  | .registerWrite _ addr _ => regAddr addr
  | .refusedAccess _ _ addr size _ => decide (addr < 2 ^ 40) && decide (size ∈ [1, 2, 4, 8])
  | .masterReset _ _ bursts => bursts.all fun b => decide (b.addr < 2 ^ 40)
  | .epochBoundary _ _ => true
  | .houseFrameStart _ => true
  | .fabricWordVerify _ dest _ _ => decide (dest < 1408)
  | .egressWordSelect _ output _ _ => decide (output < 576)
  | .inputLineArrival _ port _ => decide (port < 1152)
  | .inputFrameComplete _ port _ => decide (port < 1152)
  | .inputEavMissing _ port => decide (port < 1152)
  | .outputLineEmit _ output _ => decide (output < 1152)
  | .fsRingFrameComplete _ source => decide (source < 1408)
  | .fsRead _ source => decide (source < 1408)
  | .fsHoldExpiry _ source => decide (source < 1408)
  | .hbmWordRead _ stack addr _ => decide (stack < 4) && decide (addr < 24576 * 2 ^ 20)
  | .scrubPass _ stack => decide (stack < 4)
  | .ckMonitorWindow _ trunk _ => decide (trunk < 73)
  | .trunkFrameReceived _ lane frame => decide (lane < 580) && decide (frame.length = 256) && frame.all fun b => decide (b.sync < 4)
  | .rxBringupPhaseDone _ trunk _ => decide (trunk < 73)
  | .txStepChange _ trunk => decide (trunk < 73)
  | .ladderRunEntry _ trunk => decide (trunk < 73)
  | .ladderFollowerTimeout _ trunk => decide (trunk < 73)
  | .stepReadyTimeout _ trunk => decide (trunk < 73)
  | .ladderRestartTimeout _ trunk => decide (trunk < 73)
  | .linkFailedRetry _ trunk => decide (trunk < 73)
  | .laneAlignmentLoss _ lane => decide (lane < 580)
  | .laneRejoin _ lane => decide (lane < 580)
  | .prbsCheckerLock _ lane _ => decide (lane < 576)
  | .claimSample _ _ => true
  | .trunkFrameStart _ trunk words => decide (trunk < 73) && words.all fun w => decide (w.1 < 1152)
  | .groupFrameRelease _ trunk => decide (trunk < 72)
  | .ethFrameReceived _ channel _ => decide (channel < 64)
  | .pauseTimerExpiry _ channel => decide (channel < 64)
  | .pauseBufferEmpty _ channel => decide (channel < 64)
  | .sendFrameDue _ channel _ => decide (channel < 64)
  | .ethLinkUp _ channel => decide (channel < 64)
  | .ethLinkDown _ channel => decide (channel < 64)
  | .flowLineDeadline _ flow => decide (flow < 4608)
  | .flowLegStateEval _ flow => decide (flow < 4608)
  | .colourSendChange _ flow => decide (flow < 4608)
  | .colourHandback _ flow => decide (flow < 4608)
  | .ptpSfdEvent _ port => decide (port < 2)
  | .ptpAnnounce _ port _ => decide (port < 2)
  | .ptpSync _ port _ _ _ => decide (port < 2)
  | .ptpDelayResp _ port seq _ _ => decide (port < 2) && fits 2 seq
  | .ptpDelayReqSend _ port => decide (port < 2)
  | .ptpAnnounceTimeout _ port => decide (port < 2)
  | .utcOffsetChange _ => true
  | .captureEdge _ channel _ => decide (channel < 16)
  | .refCandidatePresent _ cand => decide (cand < 7)
  | .refCandidateLost _ cand _ => decide (cand < 7)
  | .holdoffExpiry _ cand _ => decide (cand < 7)
  | .driftEvaluation _ _ _ _ _ => true
  | .refJump _ cand _ => decide (cand < 7)
  | .loopBwStep _ _ => true
  | .slewComplete _ => true
  | .holdoverLimitExpiry _ => true
  | .frameSyncEdge _ => true
  | .pllLockAttempt _ pll _ _ => decide (pll < 20)
  | .pllLock _ pll _ => decide (pll < 20)
  | .pllAttemptFail _ pll => decide (pll < 20)
  | .pllLossOfLock _ pll _ => decide (pll < 20)
  | .pllDividerSync _ pll _ => decide (pll < 20)
  | .xoFail _ => true
  | .islandClockReturn _ island => decide (island < 99)
  | .engineSelfTest _ engine _ => decide (engine < 128)
  | .engineReloadDone _ engine => decide (engine < 128)
  | .engineReturn _ engine => decide (engine < 128)
  | .probeFrameEval _ probe _ => decide (probe < 512)
  | .loudnessBlock _ probe _ => decide (probe < 512)
  | .layerFrameComplete _ head layer => decide (head < 96) && decide (layer < 21)
  | .headFrameBoundary _ head => decide (head < 96)
  | .audioSlotVerify _ dest _ => decide (dest < 65536)
  | .srcRatioWindow _ port _ _ _ => decide (port < 4)
  | .audioClockFound _ port _ => decide (port < 4)
  | .srcAcquireDone _ port _ => decide (port < 4)
  | .srcRampDone _ port _ => decide (port < 4)
  | .srcXrun _ port _ _ => decide (port < 4)
  | .audioNoClock _ port _ => decide (port < 4)
  | .mirrorFrameReceived _ => true
  | .heartbeatLoss _ => true
  | .mirrorMessageReceived _ _ _ _ => true
  | .mirrorRetransmit _ _ => true
  | .mirrorLadderRetry _ => true
  | .pairingStep _ _ => true
  | .pairingRetry _ => true
  | .keyRenewal _ => true
  | .joinStepAdvance _ _ => true
  | .resyncRequest _ => true
  | .resyncComplete _ => true
  | .digestComparison _ _ => true
  | .digestSkip _ _ => true
  | .penaltyRemoval _ cls => decide (cls < 4)
  | .quadrantSleepEntry _ quad => decide (quad < 4)
  | .quadrantWake _ quad => decide (quad < 4)
  | .wakeLate _ quad => decide (quad < 4)
  | .thermalSample _ readings => readings.all fun x => decide (x.1 < 64)
  | .shedListApply _ => true
  | .shedListLift _ => true
  | .wearAccrual _ => true
  | .wearLedgerCopy _ _ => true
  | .modulePresent _ module => decide (module < 16)
  | .moduleResetRelease _ module => decide (module < 16)
  | .moduleIdentified _ module _ => decide (module < 16)
  | .moduleReadyTimeout _ module => decide (module < 16)
  | .moduleInterrupt _ module _ _ => decide (module < 16)
  | .moduleRemoved _ module => decide (module < 16)
  | .moduleLifeSample _ module _ _ bias => decide (module < 16) && decide (bias.length = 4)
  | .biasBaselineComplete _ module => decide (module < 16)
  | .lifeLedgerCopy _ _ => true
  | .resetNAsserted _ => true
  | .vddLineRise _ _ => true
  | .xo27Return _ => true
  | .engineMemoryEccError _ engine _ => decide (engine < 128)
  | .msixVectorUnmask _ => true
  | .svcTestComplete _ _ _ _ => true
  | .jtagInstruction _ _ => true

end Sys2Proof
end

