-- ==== Sys2Proof/Tests/Slice0.lean ====
section
/-! SUPPORT. Tests of single commands with results taken from the manual, the smoke test of the well-formedness checks, and for each statement states that meet its hypotheses. -/

namespace Sys2Proof.Tests

open Sys2Proof.Machine

set_option maxRecDepth 20000
set_option Elab.async false

/-! ## Small states -/

/-- A descriptor header with this body length, in order and with a fresh tag. -/
def hd (len : Nat := 8) : Hdr :=
  { version := 1, flags := 0, tag := 77, length := len, target := 0, seq := 5, applyAt := 0, resultLen := 4096, zeroOk := true, bodyOk := true, bodyZeroOk := true, resultOk := true }

/-- The supplies are up, the command and reply rings run, and the firmware serves. -/
def up : State :=
  wr Reg.cmdStatus 1 (wr Reg.cmdCtrl 3 { State.reset with pins := { State.reset.pins with vddLine := true, pwrGood := true, resetN := true, pcieUp := true } })

/-- The same in a mode. -/
def inMode (m : Nat) : State := putF Reg.planState 0 3 m up

/-! ## States that meet the hypotheses of the statements: commands, firmware, identity -/

/-- Another header of the same command. -/
def hdSeq (n : Nat) : Hdr := { hd with seq := n }

def cmdOf (tag : Nat) (b : Body) (o : Origin := .host) : Cmd := { pkt := { hdr := { hd with tag := tag }, body := b }, origin := o }

def replyOf (tag : Nat) : Reply :=
  { opcode := 5, tag := tag, status := 0, resultLen := 0, seq := 3, frame := 7, detail := 0, inline := true, trunc := false, relayed := false, result := [] }

/-- A completed tag 5 and a pending tag 6 are held. -/
def withTags : State :=
  { up with cmd := { up.cmd with results := [{ tag := 5, reply := some (replyOf 5), phase := true, at_ := 8 }, { tag := 6, reply := none, phase := false, at_ := 9 }] } }

def expecting (n : Nat) : State := { up with cmd := { up.cmd with expSeq := some n } }

/-- The boot ROM serves. -/
def rom : State := putF Reg.cmdStatus 0 2 0 up

/-- The firmware is away. -/
def away : State := putF Reg.cmdStatus 0 2 2 up

/-- The private key whose public key stands in slot 0 of the firmware signing keys of a test. -/
def signer : Nat := 0xABCDEF123

/-- A firmware bundle of five empty sections, without its signature. -/
def unsigned : FwImage :=
  { magic := 0x4257465A, fmtMajor := 1, fmtMinor := 0, hdrLen := 256, bundleLen := 688, version := 0x03040112, floor := 0, variant := 0xB1, sectionCount := 5,
    sectTableOfs := 256, sigOfs := 576, sigLen := 112,
    sections := [1, 2, 3, 4, 5].map fun t => { type := t, zeroA := 0, offset := 576, length := 0, zeroB := 0, digest := sha384 0 0, bytes := 0 },
    extra := 0, keyId := 0, sigZero := 0, sigR := 0, sigS := 0, accepts := [], formats := [1], format := 1, rxOfs := [] }

/-- The bundle, signed. -/
def image : FwImage := { unsigned with sigR := (ecdsaSign signer 99991 unsigned.digest).1, sigS := (ecdsaSign signer 99991 unsigned.digest).2 }

/-- A bundle is in the staging area, verified. -/
def staged : State :=
  { up with fw := { up.fw with staging := some image, staged := some image }, sec := { up.sec with fwKeys := [ecPublic signer, 0, 0, 0] }, otp := { up.otp with floor := 0 } }

/-- The firmware is away for an activation into bank B, with an image in each bank. -/
def activating (cold : Bool) : State :=
  { away with fw := { away.fw with bankA := some image, bankB := some image, target := true, warm := !cold,
                                   act := some { cmd := cmdOf 60 (.fwActivate 0), window := 120, bank := 1, image := image, cold := cold } } }

theorem witness_step : ({ up with pending := [.echo 0 hd] } : State).pending = [.echo 0 hd] ∧ State.reset.pending = [] := by decide +kernel

/-- Each of the first checks fails on some descriptor, and the tenth and eleventh are reached. -/
theorem witness_dispatcher :
    hostPacket (.echo 3 hd) = some (3, { hdr := hd, body := .echo }) ∧ powered up = true ∧ reads up = true ∧ up.cmd.unread = []
      ∧ dispatchCheck up { hdr := { hd with version := 2 }, body := .echo } = some (0x0001, 0)
      ∧ dispatchCheck (expecting 6) { hdr := hd, body := .echo } = some (0x000D, 0)
      ∧ dispatchCheck up { hdr := hd, body := .unassigned 0x77 } = some (0x0003, 0)
      ∧ dispatchCheck rom { hdr := hd, body := .timeQuery } = some (0x0005, 0)
      ∧ dispatchCheck up { hdr := { hd with target := 1 }, body := .modeSet 2 } = some (0x0004, 0)
      ∧ dispatchCheck up { hdr := { hd with target := 1 }, body := .statusQuery } = some (0x0A02, 0)
      ∧ dispatchCheck withTags { hdr := { hd with tag := 6 }, body := .echo } = some (0x0007, 0)
      ∧ dispatchCheck (putF Reg.pairStatus 0 2 1 up) { hdr := hd, body := .modeSet 2 } = some (0x0006, 0)
      ∧ dispatchCheck up { hdr := { hd with bodyOk := false }, body := .echo } = some (0x000C, 0)
      ∧ dispatchCheck up { hdr := hd, body := .modeSet 2 } = none ∧ fastPath (.modeSet 2) = false
      ∧ bodyBad { hdr := hd, body := .modeSet 2 } = none := by decide +kernel

theorem witness_queue_full : ∃ s : State, powered s = true ∧ reads s = true ∧ 256 ≤ s.cmd.fwq.length := by
  refine ⟨{ up with cmd := { up.cmd with fwq := List.replicate 256 (cmdOf 9 .fwQuery) } }, by decide, by decide, ?_⟩
  exact (List.length_replicate ..).ge

theorem witness_fast_path :
    Ready hd .statusQuery up ∧ Ready hd .echo up ∧ Ready hd (.tagQuery 6) withTags ∧ Ready hd (.tagRetire 6 0) withTags ∧ Ready hd (.tagRetire 5 1) withTags
      ∧ tagHeld 4 (taken hd withTags) = none ∧ ((tagHeld 6 (taken hd withTags)).map ResEntry.reply) = some none
      ∧ ((tagHeld 5 (taken hd withTags)).bind ResEntry.reply) = some (replyOf 5) := by
  unfold Ready; decide +kernel

theorem witness_rings :
    reads State.reset = false ∧ replyOpen up = true ∧ replyRoom (putF Reg.cmdRingSize 0 8 1 up) = true ∧ replyOpen State.reset = false
      ∧ fwServes .fwQuery up = true ∧ fwServes (.modeSet 2) away = false ∧ linkRun up 72 = false := by decide +kernel

/-- A command is relayed to the partner. -/
def relaying : State := { up with cmd := { up.cmd with relayed := [cmdOf 31 .statusQuery] } }

theorem witness_relay :
    powered relaying = true ∧ (relaying.cmd.relayed.find? fun c => decide (c.pkt.hdr.tag = 31)) = some (cmdOf 31 .statusQuery) ∧ linkRun relaying 72 = false
      ∧ relaying.cmd.waiting = [] ∧ relaying.eth.ch = [] ∧ getB State.reset Reg.cmdCtrl 0 = false ∧ getB up Reg.cmdCtrl 0 = true
      ∧ ({ up with cmd := { up.cmd with waiting := [replyOf 5] } } : State).cmd.waiting = [replyOf 5] := by decide +kernel

theorem witness_cold_start : State.reset.pins.vddLine = true ∧ State.reset.pins.resetN = true ∧ State.reset.pins.pwrGood = true := by decide +kernel

theorem witness_fw_load : Ready hd (.fwLoad 688) staged ∧ staged.fw.staging = some image ∧ fwCheck staged.sec.fwKeys (otpFloor (tick 0 staged)) image 688 = 0 ∧ Ready hd (.fwLoad 0) up ∧ up.fw.staging = none := by
  unfold Ready; decide +kernel

theorem witness_fw_commands :
    Ready hd (.fwActivate 0) up ∧ up.fw.staged = none ∧ Ready hd (.fwActivate 3600) staged ∧ stagingIntact staged = true ∧ staged.pins.rescueN = true
      ∧ Ready hd .fwRestart up ∧ Ready hd .fwConfirm up ∧ getB up Reg.fwStatus 4 = false ∧ getB (putB Reg.fwStatus 4 true up) Reg.fwStatus 4 = true := by
  unfold Ready; decide +kernel

theorem witness_fw_starts :
    powered (activating false) = true ∧ server (activating false) = 2 ∧ keepAlive (activating false) 92 = false ∧ (activating false).svc.tests = []
      ∧ bankImage (activating false) true = some image ∧ (bankImage (activating false) false).isSome = true ∧ modeNow (activating true) ≠ 6
      ∧ (activating true).cmd.fwq = [] ∧ server up = 1 := by decide +kernel

/-- A device certificate of this many bytes. -/
def certOf (n : Nat) : State := { up with otp := { up.otp with cert := List.replicate n 1 } }

theorem witness_identity :
    Ready hd .fwQuery up ∧ Ready hd .idCertRead (certOf 9) ∧ Ready hd .idCertRead (certOf 2049) ∧ Ready hd .idInfo rom ∧ Ready (hd 32) (.idAttest 9) up ∧ (certOf 9).otp.cert.length ≤ 2048
      ∧ 2048 < (certOf 2049).otp.cert.length ∧ getB up Reg.idStatus 0 = false
      ∧ getB (putB Reg.idStatus 0 true up) Reg.idStatus 0 = true := by
  unfold Ready; decide +kernel

/-- Slot 2 holds a valid key. -/
def keyed : State := putSlot 2 { hash := 9, valid := true, revoked := false } up

theorem witness_owner_keys :
    Ready (hd 56) (.idOwnerKey 3 7 true) keyed ∧ keyed.otp.slots.length = 4 ∧ ownerSlot keyed 3 = { hash := 0, valid := false, revoked := false }
      ∧ ownerSlot keyed 2 ≠ { hash := 0, valid := false, revoked := false }
      ∧ dispatchCheck up { hdr := hd 56, body := .idOwnerKey 4 7 true } = some (0x0D01, 0)
      ∧ Ready hd (.idPolicySet 3 true) keyed ∧ (ownerSlot up 0).valid = false := by
  unfold Ready; decide +kernel

/-! ## Events, registers, trunks -/

def pendOf (src stamp : Nat) : Pend := { src := src, inst := noInst, type := 2, stamp := stamp, d0 := 0, d1 := 0, d2 := 0, coalesced := 0, held := false }

/-- A latch is pending, and the ring runs. -/
def withLatch : State := putF Reg.evqRingSize 0 4 4 <| wr (Reg.evqMask 36) 0 <| wr Reg.evqCtrl 1 { up with evq := { up.evq with host := { up.evq.host with pend := [pendOf 0x486 9] } } }

/-- A committed record waits to be freed. -/
def outstanding : State := { withLatch with evq := { withLatch.evq with host := { withLatch.evq.host with pend := [], tail := 1, outst := [(0x486, 0)] } } }

theorem witness_event_commit :
    powered withLatch = true ∧ firstPend (withLatch.evq.host.pend.filter fun p => !getB withLatch (Reg.evqMask (p.src / 32)) (p.src % 32)) = some (pendOf 0x486 9)
      ∧ getB withLatch Reg.evqCtrl 0 = true ∧ withLatch.evq.failed = none ∧ (withLatch.evq.host.tail + 1) % 16 ≠ withLatch.evq.host.head
      ∧ getF withLatch Reg.evqRingSize 0 4 ≤ 4 ∧ getB up Reg.evqCtrl 0 = false := by decide +kernel

theorem witness_event_ring_full :
    let s : State := { withLatch with evq := { withLatch.evq with host := { withLatch.evq.host with tail := 15 } } }
    (s.evq.host.tail + 1) % 16 = s.evq.host.head % 16 ∧ getB s Reg.evqCtrl 0 = true := by decide +kernel

theorem witness_event_head :
    outstanding.evq.host.outst = [(0x486, outstanding.evq.host.head)] ∧ (1 + 16 - outstanding.evq.host.head) % 16 ≤ (outstanding.evq.host.tail + 16 - outstanding.evq.host.head) % 16
      ∧ outstanding.evq.host.pend = [] ∧ up.evq.host.outst = [] ∧ (0 + 16 - 0) % 16 < (2 + 16 - 0) % 16 := by decide +kernel

/-- An RC register of the hub, a LO and HI pair with its latched HI, a counter of a quadrant, and a register that does not exist. -/
theorem witness_reads :
    (regRow Reg.thmMax).isSome = true ∧ ((regRow Reg.cmdAccepted).map fun d => (decide (d.rc ≠ 0), d.pair, d.stat)) = some (true, false, false)
      ∧ refusalCause up .pcie (Reg.cmdAccepted + 0x10000000) 4 false = none ∧ lowRow Reg.cmdAccepted = none
      ∧ ((regRow Reg.planApplyFrameLo).map RegDef.pair) = some true ∧ (lowRow (Reg.planApplyFrameLo + 4)).isSome = true
      ∧ tabFind (Reg.planApplyFrameLo + 4) ({ up with latch := [(Reg.planApplyFrameLo + 4, 7)] } : State).latch = some 7
      ∧ ((regRow (Reg.ethStatLo 0 0)).map RegDef.stat) = some true ∧ refusalCause up .pcie (Reg.ethStatLo 0 0 + 0x10000000) 4 false = none
      ∧ (refusalCause up .pcie 0x10FFFFFC 4 false).isSome = true := by decide +kernel

theorem witness_writes :
    (regRow Reg.cmdStatus).isSome = true ∧ refusalCause up .pcie (Reg.cmdStatus + 0x10000000) 4 true = none ∧ (regRow Reg.thmStatus).isSome = true
      ∧ (refusalCause up .pcie (Reg.planState + 0x10000001) 4 true).isSome = true ∧ getB (putB Reg.sicMap 0 false up) Reg.sicMap 0 = false
      ∧ Master.pcie ≠ Master.supervisor ∧ keepAlive up 93 = false := by decide +kernel

theorem witness_refused_access :
    (refusalCause up .pcie 3 4 false).isSome = true ∧ modeNow up ≠ 6 ∧ up.pins.pcieUp = true ∧ (regRow Reg.cmdAccepted).isSome = true := by decide +kernel

/-- Link pair `n` at a phase and step, its byte received. -/
def linkAt (n phase step byte : Nat) (t : LinkTrack) : State :=
  putB (Reg.trkLinkCtrl n) 0 true (putF (linkMsgA n) 8 8 byte (putF (linkStA n) 4 2 step (putF (linkStA n) 0 3 phase (putLink n t up))))

theorem witness_ladder :
    (linkTrack (linkAt 5 1 0 0 { linkTrack0 with txTo := some 3, sent := 16 }) 5).txTo = some 3 ∧ linkFollower up 5 = false ∧ (linkTrack up 5).txTo = none
      ∧ (linkTrack (linkAt 5 6 2 0 linkTrack0) 5).ckLost = none ∧ linkRun (linkAt 5 1 2 0 linkTrack0) 5 = false ∧ linkRun (linkAt 5 7 3 0 linkTrack0) 5 = true
      ∧ 3 ≤ linkStep (linkAt 5 7 3 0 linkTrack0) 5 ∧ linkStep up 72 < 3 := by decide +kernel

theorem witness_bring_up :
    ladderRuns (linkAt 5 1 0 0 linkTrack0) 5 = true ∧ linkPhase (linkAt 5 1 0 0 linkTrack0) 5 = 1 ∧ getB (linkAt 5 1 0 0 linkTrack0) (linkStA 5) 8 = false
      ∧ getB (putB (linkStA 5) 8 true (linkAt 5 1 0 0 linkTrack0)) (linkStA 5) 8 = true ∧ ladderRuns (linkAt 5 2 0 0 linkTrack0) 5 = true
      ∧ ladderRuns (linkAt 5 3 0 0 linkTrack0) 5 = true ∧ ladderRuns (linkAt 5 4 0 0 linkTrack0) 5 = true ∧ ladderRuns (linkAt 5 5 1 0x13 linkTrack0) 5 = true
      ∧ linkPhase (linkAt 5 5 1 0x13 linkTrack0) 5 = 5 ∧ getF (linkAt 5 5 1 0x13 linkTrack0) (linkMsgA 5) 8 8 ≠ 0x20 + linkStep (linkAt 5 5 1 0x13 linkTrack0) 5
      ∧ linkStep (linkAt 5 5 0 0 { linkTrack0 with fails0 := 2 }) 5 = 0 ∧ (linkTrack (linkAt 5 5 0 0 { linkTrack0 with fails0 := 2 }) 5).fails0 = 2
      ∧ ladderRuns away 5 = false := by decide +kernel

/-- The latest of eight arrivals across the wrap of the counter: 3 comes 7 after 1020, and the arc it closes is the smallest. -/
theorem witness_arrivals :
    let as := [1020, 1021, 1022, 1023, 0, 1, 2, 3]
    let arc := fun x => (as.map fun y => (x + 1024 - y % 1024) % 1024).foldl max 0
    as.length = 8 ∧ (∀ x, x ∈ as → x < 1024) ∧ 3 ∈ as ∧ (∀ x, x ∈ as → arc 3 < arc x ∨ x = 3) ∧ arc 3 = 7 := by decide +kernel

/-- The blocks of a lane frame of lane 40 with claim 0x1234, this status byte and zero data, its header check as in R253, and the blocks as they come, scrambled from state 0. -/
def blocksOf (byte : Nat) : List (BitVec 64) :=
  let b0 := 0xB8 + 77 * 2 ^ 8
  let b1 := 0x47 + 0x1234 * 2 ^ 8 + 5 * 2 ^ 24 + 2 ^ 34 + byte * 2 ^ 40
  List.replicate 254 0 ++ [BitVec.ofNat 64 (b0 + hcrc (BitVec.ofNat 64 b0) (BitVec.ofNat 64 b1) * 2 ^ 56), BitVec.ofNat 64 b1]

def frameOf (byte : Nat) : LaneFrame :=
  ((List.replicate 254 2 ++ [1, 1]).zip (scrambleAll 0 (blocksOf byte)).1).map fun (x : Nat × BitVec 64) => Blk.mk x.1 x.2

/-- A header stands in the descrambled payloads, and its lane has shown its byte in three frames. -/
theorem witness_frame :
    let s := putLane 40 { laneTrack0 with byte := 0x13, run := 3 } (linkAt 5 3 0 0 linkTrack0)
    let g := laneInput s 40 (frameOf 0x13)
    let d := (descrambleAll (laneTrack s 40).descr (g.map Blk.payload)).1
    let b0 := (nth? d 254).getD 0
    let b1 := (nth? d 255).getD 0
    linkPhase s 5 ≠ 0 ∧ linkRun s 5 = false ∧ ((g.drop 254).all fun b => decide (b.sync = 1)) = true ∧ b0.toNat % 256 = 0xB8 ∧ b1.toNat % 256 = 0x47
      ∧ b0.toNat / 2 ^ 56 = hcrc b0 b1 ∧ b1.toNat / 2 ^ 28 % 8 = 40 % 8 ∧ b1.toNat / 2 ^ 32 % 4 = getF s (linkStA 5) 6 2 ∧ b1.toNat / 2 ^ 40 % 256 = 0x13
      ∧ (laneTrack s 40).byte = 0x13 ∧ 3 ≤ (laneTrack s 40).run := by decide +kernel

theorem witness_lanes :
    (40 : Nat) < 576 ∧ linkPhase (linkAt 5 5 1 0 linkTrack0) 5 ≠ 0 ∧ linkPhase up 5 = 0 ∧ refTrunk up 4 ≠ some 5
      ∧ linkRun (putF (linkStA 5) 16 8 255 (linkAt 5 7 3 0 linkTrack0)) 5 = true ∧ getB (putF (linkStA 5) 16 8 255 (linkAt 5 7 3 0 linkTrack0)) (linkStA 5) 16 = true
      ∧ (laneTrack up 40).searching = false ∧ (laneTrack up 40).lossDue = false
      ∧ (laneTrack (putLane 40 { laneTrack0 with searching := true, swept := true, slips := 65, passed := 16 } up) 40).slips = 65
      ∧ (laneTrack (putLane 40 { laneTrack0 with lossDue := true } up) 40).lossDue = true ∧ server up = 1
      ∧ getB (putB (Reg.trkPrbsRx 40) 0 true up) (Reg.trkPrbsRx 40) 0 = true ∧ laneLoop up 40 = 0 ∧ { prbsRx0 with locked := true }.errAt = [] := by decide +kernel

/-- An eye of 20 positions about 30 with CTLE setting 3, in the counts of a lane. -/
def eye : List Nat := (List.range 512).map fun i => if i / 64 = 3 ∧ 20 ≤ i % 64 ∧ i % 64 < 40 then 0 else 1000

theorem witness_sweep :
    eyeSweep eye (eyeLimit up 5) (eyeMin up 5) = some (30, 3) ∧ laneEye up 40 eye = some (30, 3) ∧ laneEye up 40 [] = none := by decide +kernel

/-- All eight lanes of link pair 5 as given. -/
def lanesAt (t : LaneTrack) (s : State) : State := (List.range 8).foldl (fun s l => putLane (40 + l) t s) s

theorem witness_lane_phases :
    let hdr : RxHdr := { cnt := 7, claim := 0, ql := 0, state := 0, valid := true, clean := true, since := 0 }
    let s := lanesAt { laneTrack0 with okRun := 4, pend := some hdr, passed := 4096 } (linkAt 5 3 0 0 linkTrack0)
    ((List.range 8).all fun l => decide (4 ≤ (laneTrack s (40 + l)).okRun) && decide (4096 ≤ (laneTrack s (40 + l)).passed) && ((laneTrack s (40 + l)).pend.any RxHdr.valid)) = true
      ∧ ladderRuns s 5 = true ∧ linkPhase s 5 = 3 ∧ (laneTrack (lanesAt { laneTrack0 with slips := 65, slipWait := 4, restarts := 3 } up) 40).slips = 65
      ∧ (laneTrack up 40).okRun < 4 ∧ (laneTrack up 40).passed < 4096 ∧ (laneTrack up 40).pend = none := by decide +kernel

theorem witness_groups :
    let s := putF (Reg.trkGrpStatus 5) 0 7 (7 + 32) up
    getB s (Reg.trkGrpStatus 5) 5 = true ∧ getB s (Reg.trkGrpStatus 5) 6 = false ∧ 5 / 18 * 18 + getF s (Reg.trkGrpStatus 5) 0 5 ≠ 5
      ∧ (groupDue 0 0 (3 * frameNum) (0, 9)).isSome = true ∧ (linkTrack up 5).released = none ∧ (linkTrack up 5).grp = none ∧ frameStarts 0 0 = true ∧ frameStarts 0 5 = false
      ∧ keepAlive up 18 = false ∧ (linkTrack up 5).txq = [] ∧ (linkTrack up 5).claim < 2 ^ 16 := by decide +kernel

theorem witness_trunk_commands :
    let s := putF (linkStA 5) 16 8 255 (linkAt 5 7 3 0 linkTrack0)
    Ready hd (.trkQuery 71) up ∧ Ready hd (.trkRestart 5) s ∧ Ready (hd 9) (.trkMbxSend 5 1 [9]) s ∧ linkRun s 5 = true
      ∧ Ready hd (.trkRestart 70) up ∧ refusalCause s .pcie (Reg.trkMbxData 5 + 0x10000000) 4 true = none
      ∧ getB s (Reg.trkLinkCtrl 5) 0 = true ∧ getB up (Reg.trkLinkCtrl 5) 0 = false ∧ getB s (Reg.trkLinkCtrl 5) 6 = false
      ∧ getB (putB (Reg.trkLinkCtrl 5) 6 true s) (Reg.trkLinkCtrl 5) 6 = true := by
  unfold Ready; decide +kernel

/-! ## A unit with a plan: engines, Ethernet, flows, takes, plans -/

def fmt : PortFmt := { id := 2, lines := 1125, scan := 0, rateNum := 60000, rateDen := 1001, width := 1920, height := 1080, vpid := 0 }

def fmt4k : PortFmt := { id := 6, lines := 1125, scan := 0, rateNum := 60, rateDen := 1, width := 3840, height := 2160, vpid := 0 }

def task (k engine : Nat) : TaskCfg :=
  { task := k, kind := k, engine := engine, split := [], send := 1152 + k, ret := 1152 + k, port := 65535, probe := if k = 9 then 0 else if k = 10 then 511 else 65535, flow := 65535,
    channels := [], pattern := (0, 0), matrix := none, edits := [] }

def headCfg : HeadCfg := { head := 0, uhd := false, ret := 1155, fmt := fmt4k, lbAlloc := List.replicate 16 8, storeArea := List.replicate 16 230400 }

/-- The configuration of mode 4 of the test plan: two inputs, two outputs, a task of each kind on engine 7, a head, Ethernet port 0. -/
def cfg : ModeCfg :=
  { emptyCfg with mode := 4, inputs := [⟨0, fmt, false, [], false⟩, ⟨1, fmt, false, [], false⟩], outputs := [⟨0, fmt, 0, [], false⟩, ⟨1, fmt, 0, [], false⟩],
                  tasks := (List.range 10).map fun i => task (i + 1) 7, heads := [headCfg], eths := [⟨0, false⟩],
                  sends := [⟨1160, fmt, true, true⟩], returns := [⟨1155, fmt4k⟩], audioRate := 48000 }

def section_ (t a o l e : Nat) (c : Content) : Section :=
  { type := t, mode := 0, access := a, offset := o, length := l, entries := e, digest := 5, content := c, extra := 0 }

def leg (ch : Nat) : FlowLeg :=
  { dstIp := 0xE0000001, srcIp := 0, dstMac := 5, srcMac := 6, dstPort := 5004, srcPort := 5004, vlan := 0, dscp := 0, channel := ch, hops := 1, zeroOk := true }

def flow : FlowEntry :=
  { flags := 13, essence := 1, cls := 0, port := 0xFFFF, pt := 96, audFirst := 0, audCount := 0, dly := 2, maxDiff := 1, transit := 1, ssrc := 0, payload := 0,
    ptime := 1000, audBase := 0, red := leg 0, blue := leg 1, zeroOk := true }

def colour : ColourEntry := { coef := [1, 2, 3, 4, 5, 6, 7, 8, 9], ofsIn := [1, 2, 3], ofsOut := [-1, -2, 1023], flags := 0, zeroOk := true }

def bundle : Bundle :=
  { magic := 0x4E4C505A, fmtMajor := 1, fmtMinor := 0, hdrLen := 256, bundleLen := 65536, planId := 1, generation := 7, compilerVer := 1, variant := 0xB1, flags := 0,
    minFw := 0, rateNum := 60000, rateDen := 1001, sectionCount := 5, modeMask := 16, defaultMode := 4, predDigest := 0, sectTableOfs := 256, sigOfs := 65536, sigLen := 0,
    sections := [section_ 1 0 1024 64 0 (.slots cfg.sends cfg.returns), section_ 2 0 2048 64 0 .patterns, section_ 3 0 4096 64 0 (.ports cfg.inputs cfg.outputs []),
      section_ 10 1 8192 4 1 (.routes [2048 + 4194304]), section_ 14 2 16384 16 4 (.air [0, 0, 0, 0])],
    extra := 0, sig := none }

/-- The plan is committed and its mode 4 in force, at the house rate 60000/1001; output 0 shows input 1. -/
def station : State :=
  setRoute 0 0 1 <| wr Reg.planHouseRate (BitVec.ofNat 32 (60000 + 1001 * 65536)) <|
    putF Reg.planState 0 3 4 { up with plan := { up.plan with committed := some bundle, cfg := cfg, tables := { flows := [flow], safe := [0, 1], colour := [colour], air := [0, 0] } } }

theorem witness_engines :
    engPowered station 127 = true ∧ engPowered (inMode 6) 0 = false ∧ (engTrack station 7).inject = false ∧ engState station 7 < 2
      ∧ 2 ≤ engState (putF (Reg.ibxStatus 7) 0 2 3 station) 7 ∧ getB (putB (Reg.ibxStatus 7) 3 true station) (Reg.ibxStatus 7) 3 = true
      ∧ getB station (Reg.ibxStatus 7) 3 = false ∧ refusalCause (inMode 5) .pcie (Reg.ibxCtrl 127 + 0x10000000) 4 true = none ∧ modeNow (inMode 5) = 5
      ∧ refusalCause station .pcie (Reg.ibxCtrl 7 + 0x10000000) 4 true = none ∧ modeNow station ≠ 5 ∧ engineAir station 7 = false := by decide +kernel

theorem witness_probes :
    probeRuns station 511 = true ∧ probeRuns station 5 = false ∧ getF (putF (Reg.prbStatus 511) 0 2 1 station) (Reg.prbStatus 511) 0 2 = 1
      ∧ getF (putF (Reg.prbStatus 0) 0 2 2 station) (Reg.prbStatus 0) 0 2 = 2 ∧ (probeTrack station 511).conf.freezeFrames = 120
      ∧ (-2100 : Int) ≤ (probeTrack station 0).conf.stLimit := by decide +kernel

/-- Channel 0 is up; the other state has it paused with a frame in its buffer. -/
def linkUp : State := putB (Reg.ethPortStatus 0) 4 true (putB (Reg.ethPortStatus 0) 2 true (putB (Reg.ethPortCtrl 0) 0 true station))

def sendFrame : SendFrame := { len := 100, cls := 3, leg := none, tsInsert := false, t0 := 0, v6 := false, udpSum := 0, pad := 0, correction := 0, media := none }

def paused : State := putEth 0 { ethTrack linkUp 0 with pauseEnd := some 500, pbuf := [{ frame := sendFrame, htx := none }] } linkUp

/-- An IPv4 and UDP head without fault, and an RTP packet. -/
def ipHead : IpHead :=
  { v6 := false, version := 4, ihl := 5, sumOk := true, fragment := false, otherExt := false, ipLen := 82, space := 82, udp := true, udpLen := 62, udpIpLen := 62, udpSum := 0, udpSumOk := true }

def rtpPkt : RtpPkt := { version := 2, headerLen := 12, udpLen := 62, pt := 96, marker := false, seq := 9, timestamp := 0, ssrc := 0, body := .video 0 [⟨0, false, 0, []⟩] }

def ethFrame : EthFrame :=
  { len := 100, fcsOk := true, fecOk := true, etherType := 0x800, opcode := 1, quanta := 0, ip := some ipHead, vlanTags := 0, vlan := 0, dstIp := 0xE0000009,
    srcIp := 9, udpPort := 5004, rtp := rtpPkt, hostClass := none, dstMac := 0, ptp := none }

theorem witness_received :
    ethUp linkUp 0 = true ∧ ethUp linkUp 63 = false ∧ { ethFrame with etherType := 0x8808 }.opcode = 1 ∧ (ethTrack linkUp 0).pbuf = []
      ∧ flowMatch linkUp 0 ethFrame = none ∧ getB (wr Reg.cmdCtrl 1 linkUp) Reg.cmdCtrl 1 = false ∧ server linkUp = 1 ∧ ptpOn linkUp 0 = none := by decide +kernel

theorem witness_sent :
    sendFrame.tsInsert = false ∧ sendFrame.leg = none ∧ (ethTrack linkUp 0).pauseEnd = none ∧ (ethTrack linkUp 0).pbuf = []
      ∧ (ethTrack paused 0).pauseEnd = some 500 ∧ (paused.mono + 4) * 100 < 500 ∧ 500 ≤ (paused.mono + 5) * 100 ∧ 100 ≤ ethPbufSize paused 0
      ∧ ((ethTrack paused 0).pbuf.map fun x => (x.frame.tsInsert, x.htx, x.frame.leg)) = [(false, none, none)]
      ∧ ethPbufSize paused 0 < 100 + 9000000 ∧ mediaSilent linkUp = false ∧ (flowEntry? linkUp 0).isSome = true
      ∧ getB linkUp (Reg.flowStatus 0) 12 = false ∧ linkUp.cmd.htx = [] ∧ getB linkUp Reg.cmdCtrl 1 = true ∧ getF linkUp Reg.htxHead 0 12 < ringSize linkUp 8
      ∧ linkUp.eth.ch = [] := by decide +kernel

/-- Flow 0 sends audio of output 0, on both legs. -/
def sending : State := { linkUp with plan := { linkUp.plan with tables := { linkUp.plan.tables with flows := [{ flow with essence := 3, port := 0, audCount := 1 }] } } }

theorem witness_media_due :
    flowEntry? (tick 0 sending) 0 = some { flow with essence := 3, port := 0, audCount := 1 } ∧ legChannel flow.red = 0 ∧ mediaSilent sending = false
      ∧ (duePacket (tick 0 sending) 0 { flow with essence := 3, port := 0, audCount := 1 } false 0 []).isSome = true ∧ flowEngineDown (tick 0 sending) 0 = false
      ∧ getB (putB (Reg.flowStatus 0) 12 true sending) (Reg.flowStatus 0) 12 = true ∧ duePacket (tick 0 linkUp) 0 { flow with port := 0 } false 0 [] = none
      ∧ mediaSilent (putB Reg.pairStatus 8 true sending) = true ∧ flowFree 2304 flow = false ∧ flowFree 2304 { flow with cls := 1 } = true := by decide +kernel

theorem witness_host_receive :
    let s := putEth 0 { ethTrack linkUp 0 with hostq := [(ethFrame, 4, none)] } linkUp
    s.eth.ch = [(0, ethTrack s 0)] ∧ (ethTrack s 0).hostq = [(ethFrame, 4, none)] ∧ getF s Reg.hrxHead 0 12 ≠ 3 % 4096 % ringSize s 12 := by decide +kernel

theorem witness_ports :
    ethAllowed linkUp 0 = true ∧ ethAllowed up 63 = false ∧ ethUp paused 0 = true ∧ refusalCause linkUp .pcie (Reg.ethPortCtrl 15 + 0x10000000) 4 true = none
      ∧ Ready (hd 16) (.ethHostSet 0 127 5) linkUp ∧ channelRun linkUp 0 = true ∧ Ready (hd 16) (.ethHostSet 63 0 5) linkUp ∧ channelRun linkUp 63 = false := by
  unfold Ready; decide +kernel

theorem witness_flows :
    Ready hd (.flowQuery 0 1) station ∧ (flowEntry? station 0).isSome = true ∧ Ready hd (.flowQuery 4607 64) station ∧ flowEntry? station 4607 = none
      ∧ Ready hd (.flowStats 0 1) station ∧ Ready hd (.flowStats 9 0) station ∧ mediaSilent (putB Reg.pairStatus 8 true station) = true
      ∧ partnerSends station = false ∧ paired station = false ∧ station.pair.colourAt = none
      ∧ frameStart station 1 ≤ station.now + 10 ^ 12 := by
  unfold Ready; decide +kernel

/-- Receive flow 2304, the first. -/
theorem witness_receive_flow :
    ∃ s : State, powered s = true ∧ flowEntry? (tick 0 s) 2304 = some flow ∧ flow.cls ≠ 1 ∧ (2304 ≤ 2304) := by
  refine ⟨{ station with plan := { station.plan with tables := { station.plan.tables with flows := List.replicate 2304 { flow with flags := 0 } ++ [flow] } } }, by decide, ?_, by decide, le_refl _⟩
  decide +kernel

/-- A take of output 0 level 0 from input 1, and the same from a source that does not exist. -/
theorem witness_takes :
    Ready hd (.take (1 * 2048 + 4194304) 0) station ∧ modeNow up < 1 ∧ modeNow station = 4 ∧ entryCheck (tick 0 station) (takeFrom (tick 0 station) 0) (2048 + 4194304) = 0
      ∧ Ready hd (.take (9 + 4194304) 1) station ∧ entryCheck (tick 0 station) (takeFrom (tick 0 station) 0) (9 + 4194304) ≠ 0
      ∧ takePending station = 0 ∧ houseFrame station + 65535 < 10 ^ 9 := by
  unfold Ready; decide +kernel

def takeCmd (tag : Nat) : Cmd := cmdOf tag (.take (2048 + 4194304) 0)

/-- A take waits for its switch point at 0. -/
def taking : State :=
  { station with take := { station.take with
      pend := [{ job := 1, entry := 0, dest := 0, source := 1, levels := 1, sp := 0 }]
      jobs := [{ id := 1, cmd := takeCmd 61, salvo := none, entries := [2048 + 4194304], expanded := 1, noSlip := false, slipped := false, forwarded := false, acked := false,
                 latePartner := false, frame := 0, firstSp := 0, results := [] }], nextJob := 2 } }

theorem witness_commit :
    taking.plan.pending = none ∧ membersOf taking.plan.cfg 0 = [0] ∧ taking.take.pend.map TakePend.sp = [0] ∧ taking.take.pend.map TakePend.levels = [1] ∧ taking.take.pend.map TakePend.job = [1]
      ∧ taking.take.jobs.map TakeJob.id = [1] ∧ (taking.take.jobs.all fun j => decide (j.expanded = 1) && j.results.isEmpty && !j.forwarded && j.salvo.isNone && decide (j.cmd.origin = .host)) = true
      ∧ taking.take.pend.all (entryLives (tick 0 taking)) = true := by decide +kernel

theorem witness_cancel :
    station.take.pend = [] ∧ Ready hd (.takeCancel 61) taking ∧ forwards taking = false
      ∧ Ready hd (.takeCancel 9) station ∧ Ready hd (.routeQuery 1280 128) station ∧ groupOf (cfgOf station 1407).groups false 1407 = none := by
  unfold Ready; decide +kernel

def salvoOpen : State := { station with take := { station.take with salvos := [{ id := 7, cmd := cmdOf 62 (.salvo 7 0 0 1 [2048 + 4194304]), entries := [2048 + 4194304], opened := 0 }] } }

theorem witness_salvos :
    Ready (hd 20) (.salvo 7 0 1 1 [2048 + 4194304]) station ∧ Machine.inMode station = true ∧ openSalvo station 7 = none ∧ Ready (hd 20) (.salvo 7 1 1 1 [2048 + 4194304]) salvoOpen
      ∧ (openSalvo salvoOpen 7).isSome = true ∧ salvoBad station 0 [2048 + 4194304] = none ∧ (salvoBad station 0 [9 + 4194304]).isSome = true
      ∧ Ready (hd 20) (.salvo 9 0 0 1 [2048 + 4194304]) station ∧ Ready (hd 20) (.salvo 9 2 0 1 [0]) station ∧ Machine.inMode up = false
      ∧ salvoOpen.mono < 0 + tickSec ∧ 0 + tickSec ≤ salvoOpen.mono + tickSec := by
  unfold Ready; decide +kernel

theorem witness_words :
    routeOf station 0 0 = 1 ∧ routeOf up 1407 0 = 0x7FF ∧ checkCode 1 0 0 < 256 ∧ 255 - checkCode 1 0 0 ≠ checkCode 1 0 0 ∧ modeNow (inMode 2) = 2
      ∧ airOut station 0 = false ∧ airOut { station with plan := { station.plan with tables := { station.plan.tables with air := List.replicate 1152 0 ++ [1] } } } 0 = true := by decide +kernel

/-- Output 0 shows input 1 at an integer frame rate, in a cycle and row in which it has a word. -/
def wording : State :=
  { station with plan := { station.plan with cfg := { station.plan.cfg with inputs := [⟨1, { fmt with rateNum := 60, rateDen := 1 }, false, [], false⟩] } } }

theorem witness_row_words :
    routeOf wording 0 0 = 1 ∧ (wording.now + 0) % 1000 / 250 = localOf 0 % 4 ∧ sourceUses (tick 0 wording) 1 = true ∧ fabricUp wording (quadOf 0) = true ∧ sourceUses (tick 1000 wording) 1 = false
      ∧ checkCode 1 0 5 < 256 ∧ (0 : BitVec 48) ≠ 1 := by decide +kernel

/-- The plan's bundle is in the load slot, validated. -/
def loaded : State := putF Reg.planState 8 2 2 { station with plan := { station.plan with slot := some bundle } }

def planCmd : Cmd := cmdOf 63 (.planCommit 0 4)

/-- A commit is pending for house frame 9. -/
def pendingChange : State :=
  { loaded with plan := { loaded.plan with pending := some { newChange planCmd .base 4 9 false false loaded with partnerArmed := true } } }

theorem witness_plan_load :
    Ready hd (.planLoad 65536) loaded ∧ commitPending loaded = false ∧ loaded.plan.loading = none ∧ forwards loaded = false ∧ Ready hd (.planLoad 3) pendingChange
      ∧ commitPending pendingChange = true ∧ Ready hd .planQuery station ∧ Ready (hd 16) (.planRead 14 0 0 4) station
      ∧ (sectionEntries station bundle 14 0).isSome = true ∧ sectionEntries station bundle 99 0 = none ∧ Ready (hd 16) (.planRead 14 0 0 4) up ∧ up.plan.committed = none := by
  unfold Ready; decide +kernel

/-- A section with its digest. -/
def hashed (t a o l e : Nat) (c : Content) : Section := { section_ t a o l e c with digest := (section_ t a o l e c).actual }

/-- A bundle that every check of R33 passes. -/
def sound : Bundle :=
  { bundle with bundleLen := 1088, sectionCount := 6, sigOfs := 1088,
                sections := [hashed 1 0 640 64 0 (.slots [] []), hashed 2 0 704 64 0 .patterns, hashed 3 0 768 64 0 (.ports cfg.inputs cfg.outputs []), hashed 8 0 832 64 0 (.audio 48000 [] []),
                  hashed 10 1 896 4 1 (.routes [2048 + 4194304]), hashed 14 2 960 16 4 (.air [0, 0, 0, 0])] }

/-- The active unit of a synchronised pair. -/
def active (s : State) : State := putB Reg.pairStatus 4 true (putB Reg.pairStatus 1 true (putB Reg.pairStatus 0 true s))

theorem witness_plan_verdict : planVerdict loaded sound 1088 = (0, 255) ∧ planVerdict loaded sound 1089 ≠ (0, 255) := by decide +kernel

theorem witness_plan_forward :
    Ready hd (.planLoad 1088) (active loaded) ∧ forwards (active loaded) = true ∧ commitPending (active loaded) = false ∧ (active loaded).plan.loading = none
      ∧ modeNow (active loaded) ≠ 5 ∧ paired (active station) = true ∧ partnerSends station = false := by
  unfold Ready; decide +kernel

theorem witness_plan_load_complete :
    let s := { loaded with plan := { loaded.plan with loading := some { cmd := cmdOf 64 (.planLoad 65536), status := 0, sect := 0xFF, partner := none } } }
    s.plan.loading.map (fun l => (l.cmd.origin, l.partner.getD 0)) = some (.host, 0) ∧ server s = 1 ∧ forwards s = false := by decide +kernel

theorem witness_changes :
    Ready hd (.planCommit 0 4) loaded ∧ getF loaded Reg.planState 8 2 = 2 ∧ bundle.modeMask / 2 ^ 4 % 2 = 1 ∧ bundle.modeMask / 2 ^ 3 % 2 = 0 ∧ loaded.plan.pending = none
      ∧ linebufOk (bundle.cfg 4) (planGeometry bundle 4) = true ∧ modeNow loaded ≠ 0 ∧ commitHolds loaded = false := by
  unfold Ready; decide +kernel

theorem witness_changes_refused :
    Ready hd (.planCommit 1 0) pendingChange ∧ Ready hd (.planCommit 0 4) station ∧ getF station Reg.planState 8 2 ≠ 2 ∧ Ready hd (.modeSet 4) station ∧ Ready hd (.modeSet 1) station ∧ Ready hd (.modeSet 2) up
      ∧ (pendingChange.plan.pending.any fun p => !p.held && !p.armed && !p.applied && decide (p.cmd.origin = .host)) = true
      ∧ Ready hd .planDiscard station ∧ Ready hd .planDiscard pendingChange ∧ pendingChange.now < frameStart pendingChange 8 := by
  unfold Ready; decide +kernel

theorem witness_frames :
    station.time.utcNext = none ∧ station.plan.patches = [] ∧ station.sched = [] ∧ station.mem.fs = [] ∧ server station ≠ 2
      ∧ (pendingChange.plan.pending.map fun p => (p.partnerArmed, p.kind, decide (p.mode < 8))) = some (true, .base, true) ∧ ownEvent (.refForce 3) = false
      ∧ joinStep station ≠ 7 := by decide +kernel

/-- The switch point of an output that a change is to move lies at some time, and is met when enough time has passed; a take's likewise. -/
theorem witness_switch_point (p : Change) :
    (∃ dt, changeSp station p 0 ≤ station.now + dt) ∧ (∃ dt, firstSp station 0 0 ≤ station.now + dt) ∧ (∃ now, now + 150 * 297000 ≤ 150 * 297000 + firstSp station 0 now) :=
  ⟨⟨_, Nat.le_add_left ..⟩, ⟨_, Nat.le_add_left ..⟩, ⟨0, by omega⟩⟩

def patch : PatchRec := { type := 14, count := 2, first := 0, entries := [1, 0] }

theorem witness_patches :
    Ready hd (.planPatch [patch] true) station ∧ getB station Reg.planState 13 = false ∧ patchBad bundle station.plan.tables 0 [patch] = none
      ∧ patchBad bundle station.plan.tables 0 [{ patch with first := 3 }] = some 0 ∧ Ready hd (.planPatch [] true) station ∧ Ready hd (.planPatch [patch] true) up := by
  unfold Ready; decide +kernel

/-! ## Ports, stores, composition, audio, references, time -/

/-- The plan with frame store areas: a synchroniser for input 0, a delay for output 1. -/
def mem (kind owner frames : Nat) : MemEntry :=
  { kind := kind, owner := owner, stack := 0, frames := frames, eq8 := 0, base := 0, length := 0, userKind := 0, flags := 0, userIndex := 0 }

def stores : State :=
  { station with plan := { station.plan with committed := some { bundle with sections := bundle.sections ++ [section_ 9 0 0 0 0 (.memory [mem 1 0 0, mem 2 1 31])] } },
                 mem := { station.mem with fs := [(0, { fsTrack0 with frames := [{ num := 0, buf := 0, doneAt := 0, lines := [] }], nextNum := 1, whole := true })] } }

/-- A header whose APPLY_AT has passed in `later`. -/
def early (len : Nat := 8) : Hdr := { hd len with applyAt := 1 }

/-- The same unit much later. -/
def later (s : State) : State := { s with now := 10 ^ 13 }

theorem witness_inputs :
    (inCfg? station 0).isSome = true ∧ inCfg? station 1151 = none ∧ inState (putF (Reg.pinStatus 0) 0 3 3 station) 0 = 3 ∧ inState (putF (Reg.pinStatus 0) 0 3 1 station) 0 = 1
      ∧ inSync stores 0 = true ∧ inSync station 0 = false := by decide +kernel

/-- A line with a caption packet and an audio data packet of group 1, and a frame of the format of input 0. -/
def caption : AncPkt := { did := 0x61, sdid := 1, space := 2, data := [1, 2], bytes := 12, parity := true, sum := ancSum 0x61 1 [1, 2] }

def dataPkt : AudPkt := { did := 0xE7, rate := 48000, async := false, samples := List.replicate 4 { value := 5, z := false, v := false, u := false, c := true, parityOk := true } }

def lineIn : LineInfo := { number := 10, crcFail := false, invalid := false, vpid := some 0x1234, pic := [], anc := [caption], audio := [dataPkt] }

def frameIn : FrameInfo := { format := 2, lines := 1125, scan := 0, rateNum := 60000, rateDen := 1001, whole := true, offset := 0, periodPpm10 := 1000 }

/-- Receive flow 2304 feeds input 0. -/
def receiving : State :=
  { station with plan := { station.plan with tables := { station.plan.tables with flows := List.replicate 2304 { flow with flags := 0 } ++ [{ flow with port := 0 }] } } }

theorem witness_input_line :
    (inCfg? station 0).map (fun c => (c.fromFlow, c.fmt, c.requireVpid)) = some (false, fmt, false) ∧ streamInvalid station 0 = false ∧ inRing station 0 = false ∧ inRing stores 0 = true
      ∧ groupOf station.plan.cfg.groups true 0 = none ∧ (inTrack station 0).lastLine = none ∧ vpidLine fmt 10 = true ∧ lineIn.vpid = some 0x1234 ∧ fmt.vpid % 65536 ≠ 0x1234
      ∧ ancGood caption = true ∧ ancNever caption = false ∧ audDeclared (inTrack station 0) 1 = planeRate station ∧ tabGet 0 1 (inTrack station 0).audCount < audioSamples fmt (planeRate station) 0
      ∧ (24 : Int) - (fmtLineTicks fmt / 1000 : Nat) ≤ frameIn.offset ∧ frameIn.format = fmt.id ∧ frameIn.rateNum * fmt.rateDen = fmt.rateNum * frameIn.rateDen
      ∧ (inTrack (putIn 0 { inTrack0 with vpidBad := 1 } station) 0).vpidBad = 1 ∧ flowLine station 0 fmt lineIn = some lineIn ∧ flowLine receiving 0 fmt lineIn = none := by decide +kernel

/-- A line of output 0. -/
def lineOut (n : Nat) : OutLine := { number := n, row := none, pic := [], anc := [caption], room := [0, 0, 100, 0], layers := [] }

theorem witness_output_line :
    fmt.lines ≤ (lineOut 1125).number ∧ (lineOut 1).number = 1 ∧ ¬ fmt.lines ≤ (lineOut 1).number ∧ (outTrack station 0).invalid = false
      ∧ (outTrack (putOut 0 { outTrack0 with invalid := true, internal := true, dark := true } station) 0).internal = true ∧ delayNow station 0 = 0 ∧ srcTask station 0 = none
      ∧ getF (setRoute 0 9 0 station) (Reg.takeRoute 0 9) 0 11 ≠ getF (setRoute 0 9 0 station) (Reg.takeRoute 0 0) 0 11 ∧ station.sched = []
      ∧ (ancFit [0, 0, 100, 0] [caption]).1.length = 1 ∧ safeEntry station 0 % 4 = 0 := by decide +kernel

theorem witness_outputs :
    (outCfg? station 0).isSome = true ∧ outCfg? station 1151 = none ∧ outSafe station 0 = false ∧ outSafe station 1 = true ∧ airOut station 0 = false
      ∧ getF (setRoute 0 9 1 station) (Reg.takeRoute 0 9) 0 11 = 1 ∧ getF station (Reg.takeRoute 0 9) 0 11 = 0x7FF := by decide +kernel

theorem witness_synchronisers :
    (tabFind 0 stores.mem.fs).isSome = true ∧ tabFind 1407 stores.mem.fs = none ∧ isShed stores 4 0 = false
      ∧ isShed { stores with therm := { stores.therm with items := [⟨4, 0, 5, true⟩] } } 4 0 = true ∧ (fsTrack stores 0).whole = true
      ∧ (fsTrack stores 0).lost = false ∧ (fsTrack (putFs 0 { fsTrack0 with lost := true } stores) 0).lost = true
      ∧ getF (putF (fsA 0) 0 2 3 stores) (fsA 0) 0 2 = 3 := by decide +kernel

/-- Source 0 has been good since elapsed time 0, and much time has passed. -/
theorem witness_ring_frames :
    let s := { stores with mono := 10 ^ 13, now := 10 ^ 13 }
    let x := fsTrack s 0
    (x.whole && decide (x.lockedAt + ((srcFmt? s 0).elim 0 fun f => fmtFrameTicks f - fmtLineTicks f) ≤ s.mono) && decide (x.lockedAt < s.mono)) = true
      ∧ (x.frames.find? fun f => decide (f.doneAt + srcLine s 0 ≤ s.now)).map RingFrame.num = some 0 ∧ x.last = none ∧ x.sel = none
      ∧ (fsTrack (putFs 0 { fsTrack0 with sel := some 0, lost := true, last := some 0, hold := 5 } s) 0).hold = 5
      ∧ getF (putF (fsA 0) 16 16 1 s) (fsA 0) 16 16 ≤ 1 ∧ getB (putB (fsA 0) 2 true s) (fsA 0) 2 = true ∧ keepAlive s 20 = false ∧ keepAlive (putB (Reg.islKeepalive 0) 20 true s) 20 = true
      ∧ flipCount 0 = 0 ∧ flipCount 4 = 1 ∧ flipCount 5 = 2
      ∧ (getB s (Reg.memScrubCtrl 0) 0 && awake s 0 && decide (tabGet 0 0 s.mem.scrubAt + max 4 (min 64 (getF s (Reg.memScrubCtrl 0) 8 8)) * tickSec ≤ s.mono)) = true := by decide +kernel

theorem witness_stores :
    Ready hd (.fsControl 0 1 65535) stores ∧ (ringEntry? stores 0).isSome = true ∧ Ready hd (.fsControl 1407 0 0) stores ∧ ringEntry? stores 1407 = none
      ∧ ¬ TooLate tickMs hd stores ∧ TooLate tickMs (early) (later stores) ∧ Ready hd (.delaySet 1 31) stores ∧ (memEntry? stores 2 1).map MemEntry.frames = some 31
      ∧ Ready hd (.delaySet 1 32) stores ∧ Ready hd (.delaySet 0 0) stores ∧ memEntry? stores 2 0 = none := by
  unfold Ready TooLate; decide +kernel

theorem witness_slates :
    Ready (hd 12) (.slateLoad 4095 1920 1080 1 (5120 * 1080)) stores ∧ 5120 = (4 * ((2 * 1920 + 2) / 3) + 127) / 128 * 128
      ∧ Ready (hd 12) (.slateLoad 0 1920 1080 1 7) stores ∧ slatePages stores.mem.slates = 0 ∧ stores.comp.uploadEnd ≤ stores.mono
      ∧ Ready hd (.memQuery 3) stores ∧ stores.mem.stuck = [] ∧ memAt stores 0 0 = none := by
  unfold Ready; decide +kernel

theorem witness_ibex :
    Ready hd (.ibxTaskQuery 1 10) station ∧ Ready hd (.ibxTaskQuery 65535 1) station ∧ taskCfg? station 65535 = none ∧ (taskCfg? station 5).map TaskCfg.kind = some 5
      ∧ (taskCfg? station 6).map TaskCfg.kind = some 6 ∧ Ready (hd 72) (.ibxColourSet 5 1 colour) station ∧ Ready (hd 72) (.ibxColourSet 6 0 colour) station
      ∧ Ready hd (.ibxPatternSet 6 6 4095) station ∧ Ready hd (.ibxPatternSet 5 0 0) station := by
  unfold Ready; decide +kernel

theorem witness_probe_commands :
    Ready (hd 16) (.ibxProbeSet 511 64 4095 255 4095 (-2300) (-100)) station ∧ (probeTask? station 511).isSome = true ∧ Ready (hd 16) (.ibxProbeSet 5 64 1 0 1 0 0) station
      ∧ probeTask? station 5 = none ∧ Ready hd (.ibxProbeRead 511) station ∧ Ready hd (.ibxLoudReset 0) station ∧ getF station (Reg.prbStatus 0) 0 2 ≠ 2
      ∧ getF (putF (Reg.prbStatus 0) 0 2 2 station) (Reg.prbStatus 0) 0 2 = 2 := by
  unfold Ready; decide +kernel

/-- A table of 1,024 equal values. -/
def table : List Nat := List.replicate 1024 5

theorem witness_tables : Ready (hd 2056) (.ibxTableSet 5 3 table) station ∧ Ready (hd 2056) (.compTableSet 0 7 5 1 table) station ∧ Ready (hd 2056) (.compTableSet 95 0 0 0 table) station := by
  unfold Ready; decide +kernel

def layer : LayerEntry :=
  { head := 0, layer := 0, flags := 1, send := 1160, alpha := 1023, cropX := 0, cropY := 0, cropW := 640, cropH := 360, outX := 0, outY := 0, outW := 640, outH := 360, fill := 0,
    tset := 255, zeroOk := true }

theorem witness_composition :
    Ready (hd 40) (.compLayerSet 1 [layer]) station ∧ Ready (hd 40) (.compLayerSet 1 [{ layer with head := 95, layer := 20 }]) station
      ∧ Ready (hd 16) (.compInputFormat 1160 2 1 60 1) station ∧ (sendCfg? station 1160).isSome = true ∧ (inputFormat 2 1 60 1 0).isSome = true ∧ inputFormat 3 1 60 1 0 = none
      ∧ Ready (hd 16) (.compInputFormat 5 2 1 60 1) station ∧ sendCfg? station 5 = none := by
  unfold Ready; decide +kernel

theorem witness_surfaces :
    Ready (hd 20) (.compSurfaceLoad 0 19 1 0 0 3840 2160 (4 * 3840)) station ∧ Ready (hd 20) (.compSurfaceLoad 0 16 1 1 0 10 10 40) station
      ∧ Ready (hd 20) (.compSurfaceLoad 95 16 0 0 0 10 10 40) station ∧ station.comp.uploadEnd ≤ station.mono
      ∧ (headTrack station 0).shed = false ∧ (headTrack (putHead 0 { headTrack0 with shed := true } station) 0).shed = true
      ∧ Ready hd (.compQuery 0) station ∧ Ready hd (.compQuery 95) station ∧ headsOf station 0 = [0] := by
  unfold Ready; decide +kernel

def aud : AudEntry := { dest := 0, source := 32, flags := 0, zeroOk := true }

/-- The route of audio channel 0 has been made, and another change waits. -/
def audio : State :=
  { station with aud := { station.aud with routes := [(0, 33)], pend := [{ job := none, dest := 0, source := some 32, sample := 0, at_ := 0, order := 0 }] } }

theorem witness_audio :
    Ready (hd 16) (.audTake 1 [aud]) station ∧ Ready (hd 16) (.audTake 1 [{ aud with dest := 65535 }]) station ∧ audChanUsed station false 0 = true ∧ audChanUsed station true 32 = true
      ∧ audChanUsed station false 65535 = false ∧ Ready (hd 16) (.audTake 1 [aud]) up ∧ modeNow up < 1
      ∧ (audio.aud.pend.all fun p => decide (p.dest = 0) && decide (p.at_ ≤ audio.now) && p.job.isNone) = true ∧ audRoute audio 0 = some 33 ∧ audRoute audio 1 = none
      ∧ audFades audio 0 = [] ∧ Ready hd (.audRouteQuery 64536 1000) station := by
  unfold Ready; decide +kernel

theorem witness_audio_ports :
    getF (putF (Reg.audPortStatus 3) 0 3 1 station) (Reg.audPortStatus 3) 0 3 = 1 ∧ getB station (Reg.audPortCtrl 3) 3 = false ∧ getB (putB (Reg.audPortCtrl 3) 3 true station) (Reg.audPortCtrl 3) 3 = true
      ∧ (audPort station 3).rxSince + 50 * tickMs ≤ station.mono + 50 * tickMs ∧ Ready (hd 24) (.audPortSet 3 3 0 5 9) station ∧ Ready (hd 24) (.audPortSet 0 0 0x230 0 0) station
      ∧ (0x230 / 4 % 2 = 0 ∧ 0x230 / 512 % 2 = 1 ∧ 0x230 / 16 % 4 = 3) ∧ Ready hd (.audPortQuery 3) station := by
  unfold Ready; decide +kernel

/-- Destination channel 0 crossfades from source 32 to source 33 at sample 0. -/
theorem witness_audio_words :
    let s := { audio with aud := { audio.aud with fades := [(0, [{ old := some 32, start := 0 }])] } }
    (audFades s 0).map (fun f => (f.old, f.start)) = [(some 32, 0)] ∧ audRoute s 0 = some 33 ∧ audRoute audio 0 = some 33 ∧ audFades audio 0 = [] ∧ audRoute audio 1 = none
      ∧ (5 : Word) ^^^ (0 : BitVec 40).setWidth 32 = 5 ∧ crc8 0xFF (bitsMsb 4 8) ≠ crc8 0xFF (bitsMsb 5 8) := by decide +kernel

/-- Candidate 4 is present, qualifying until 5, and enabled. -/
def cand (st : Nat) : State :=
  putF (Reg.refCandStatus 4) 0 3 st { station with ref := { station.ref with present := [4], holdEnd := [(4, 5)], conf := [(5, { refDefault 5 with flags := 1 })] } }

theorem witness_candidates :
    4 ∈ (cand 2).ref.present ∧ 3 ∉ (cand 2).ref.present ∧ candState (cand 2) 4 = 2 ∧ tabFind 4 (cand 2).ref.holdEnd = some 5 ∧ server (cand 2) = 1 ∧ server away ≠ 1
      ∧ tabFind 3 (cand 2).ref.holdEnd = none ∧ mirrorUsable (cand 2) = false ∧ (cand 2).ref.sel = none := by decide +kernel

def snapping : State := putF Reg.refStatus 0 2 3 { station with ref := { station.ref with sel := some 4 } }

theorem witness_references :
    Ready (hd 40) (.refSet 0 (refDefault 0)) station ∧ Ready hd (.refForce 0xFF) station ∧ Ready hd (.refForce 6) station ∧ Ready hd .refQuery station
      ∧ Ready hd .refSnap station ∧ refState station ≠ 3 ∧ Ready hd .refSnap snapping ∧ refState snapping = 3 ∧ snapping.ref.sel = some 4 ∧ station.sched = []
      ∧ refState (putF Reg.refStatus 0 2 1 station) = 1 ∧ ¬ TooLate (10 * tickMs) hd station := by
  unfold Ready TooLate; decide +kernel

/-- Reference entries that the checks take and refuse, and a candidate that is usable. -/
theorem witness_reference_entries :
    refConfOk (getF station Reg.planHouseRate 16 16) (refTrunks (trunkEntries station.plan.committed station.plan.cfg.mode)) station.plan.cfg (tabSet (refDefault 0) 0 (refDefault 0) station.ref.conf) = true
      ∧ refConfOk (getF station Reg.planHouseRate 16 16) (refTrunks (trunkEntries station.plan.committed station.plan.cfg.mode)) station.plan.cfg
          (tabSet (refDefault 0) 0 { refDefault 0 with drift := 0 } station.ref.conf) = false
      ∧ station.pins.xoOk = true ∧ station.ref.bwAt ≤ station.mono := by decide +kernel

theorem witness_snap_due :
    let s := { snapping with sched := [{ cmd := cmdOf 70 .refSnap, frame := 9, start := 3, result := [] }] }
    s.sched.map (fun x => (x.cmd.pkt.body, x.cmd.origin, x.start)) = [(.refSnap, .host, 3)] ∧ s.now + 2 < 3 ∧ 3 ≤ s.now + 3 ∧ server s = 1 := by decide +kernel

theorem witness_time :
    Ready (hd 16) (.timeSet 9 999999999) up ∧ modeNow up = 0 ∧ up.ref.sel = none ∧ Ready (hd 16) (.timeSet 0 0) station ∧ modeNow station ≠ 0
      ∧ Ready (hd 12) (.timeConf 37 (-840) 3 86399) station ∧ ¬ TooLate tickMs hd station ∧ TooLate tickMs (early) (later station) ∧ Ready hd .timeQuery station
      ∧ Ready hd (.capSet 15 3 (-7)) station ∧ getB (putB (Reg.capCtrl 15) 0 true station) (Reg.capCtrl 15) 0 = true ∧ getB station (Reg.capCtrl 15) 1 = false
      ∧ (capTrack station 15).epoch ≠ epochNow station + 1 := by
  unfold Ready TooLate; decide +kernel

theorem witness_leap :
    let s := { station with time := { station.time with utcNext := some (38, 5) } }
    s.time.utcNext = some (38, 5) ∧ s.now + 4 < 5 ∧ 5 ≤ s.now + 5 ∧ station.time.utcNext = none := by decide +kernel

def announce : AnnounceMsg :=
  { domain := 127, identity := 9, grandmaster := 9, priority1 := 128, clockClass := 6, clockAccuracy := 0x21, variance := 100, priority2 := 128, steps := 0, interval := 0, ptpTimescale := true,
    utcOffset := 37, utcValid := true, leap := false }

def ptpUp : State :=
  putPtp 0 { ptpPort0 with masters := [{ msg := announce, at_ := 0, prev := some 0 }], chosen := some 9, sync := some (1, 2, 3), reqs := [(4, 5)], stamp := some (some 700) }
    { station with ref := { station.ref with conf := [(3, { refDefault 3 with flags := 1 })] } }

theorem witness_ptp :
    Ready (hd 24) (.ptpSet 3 127 3 63 0 5) station ∧ (candE ptpUp 2).enabled = true ∧ (ptpPort ptpUp 0).chosen = some 9 ∧ announce.domain = (ptpPort ptpUp 0).domain
      ∧ ((ptpPort ptpUp 0).reqs.find? fun y => decide (y.1 = 4)) = some (4, 5) ∧ (ptpPort ptpUp 0).sync = some (1, 2, 3) ∧ (ptpPort ptpUp 0).stamp = some (some 700) ∧ server ptpUp = 1
      ∧ (ptpPort ptpUp 1).chosen = none ∧ ptpUp.time.sfdBusy ≤ ptpUp.mono ∧ runImage ptpUp = none ∧ powered ptpUp = true ∧ 2 * tickSec < ptpUp.now + (2 * tickSec + 1)
      ∧ ((ptpPort ptpUp 0).masters.filter (qualified ptpUp.mono)).length = 1 := by
  unfold Ready; decide +kernel

/-! ## PLLs, the pair, modules, heat, SERVICE, the whole machine -/

/-- PLL `j` in an attempt whose band search ended at 0, after `n` failures. -/
def attempt (j n : Nat) (s : State) : State := putPll j { pllTrack0 with closedAt := some 0, fails := n } s

/-- PLL `j` is locked. -/
def locked (j : Nat) (s : State) : State := putB (Reg.pllStatus j) 0 true s

/-- Much time has gone by since the supplies came up. -/
def old : State := { up with mono := 10 ^ 14, now := 10 ^ 14 }

theorem witness_pll_attempts :
    powered up = true ∧ getB (locked 16 up) (Reg.pllStatus 16) 0 = true ∧ getB (locked 16 up) (Reg.pllStatus 19) 0 = false ∧ (pllTrack up 19).since ≤ up.mono
      ∧ getB up (Reg.pllStatus 0) 0 = false ∧ (pllTrack up 0).closedAt = none ∧ (pllTrack (attempt 3 2 old) 3).closedAt = some 0 ∧ (pllTrack (attempt 3 2 old) 3).fails = 2
      ∧ (pllTrack (attempt 3 1 old) 3).fails < 2 ∧ 0 + 200 * tickUs ≤ old.mono ∧ (attempt 3 0 up).mono < 0 + 200 * tickUs := by decide +kernel

/-- Edges of the reference at 297 MHz / 2 in units of 4 ps, and of the converter's PLL. -/
theorem witness_pll_edges :
    (let edges := List.replicate 8 6734007; (decide (8 ≤ edges.length) && (edges.drop (edges.length - 8)).all fun p => decide (990000000 ≤ 100 * p * 1485) && decide (100 * p * 1485 ≤ 1010000000)) = false)
      ∧ (let edges := List.replicate 9 6734; (decide (8 ≤ edges.length) && (edges.drop (edges.length - 8)).all fun p => decide (990000000 ≤ 100 * p * 1485) && decide (100 * p * 1485 ≤ 1010000000)) = true)
      ∧ (let edges := List.replicate 8 37037; (decide (8 ≤ edges.length) && (edges.drop (edges.length - 8)).all fun p => decide (990000000 ≤ 100 * p * 270) && decide (100 * p * 270 ≤ 1010000000)) = true)
      ∧ (let q := { pllTrack0 with lockN := 2, win := 5 }; let within := fun (es : List Int) => decide (q.lockN ≤ es.length) && (es.drop (es.length - q.lockN)).all fun e => decide (e.natAbs ≤ 4 * q.win)
         within [99, -20, 20] = true ∧ within [21, 20] = false ∧ within [1] = false)
      ∧ (let q := { pllTrack0 with win := 5 }; let slipped := fun (es : List (Option Int)) => let l := es.drop (es.length - 8); decide (8 ≤ es.length) && ((l.all fun e => e.any fun v => decide (8 * q.win < v.natAbs)) || l.all Option.isNone)
         slipped (List.replicate 8 (some (-41))) = true ∧ slipped (List.replicate 8 none) = true ∧ slipped (List.replicate 8 (some 40)) = false ∧ slipped [] = false) := by decide +kernel

/-- An edge of the house frame within 500 ns of the nominal one, and one outside. -/
theorem witness_frame_edges :
    (let d := fun (now : Nat) => (((now : Int) - (rateStart (houseRate station) (rateFrame (houseRate station) (now + (houseRate station).2 * tickSec / (2 * (houseRate station).1))) : Nat)) / 297 : Int)
     d (rateStart (houseRate station) 7 + 297 * 500) = 500 ∧ d (rateStart (houseRate station) 7 + 297 * 501) = 501) ∧ station.plls.fsGood < 4 := by decide +kernel

theorem witness_pll_loss :
    getB (locked 0 up) (Reg.pllStatus 0) 0 = true ∧ getB (locked 19 (locked 16 up)) (Reg.pllStatus 19) 0 = true ∧ modeNow up ≠ 5 ∧ modeNow (inMode 5) = 5
      ∧ getB (inMode 5) (Reg.pllStatus 19) 0 = false ∧ getB (locked 19 (inMode 5)) (Reg.pllStatus 19) 0 = true
      ∧ (decide (getF (putF (Reg.pllCtrl 19) 24 2 1 (locked 19 up)) (Reg.pllCtrl 19) 24 2 = 0) == false) = true
      ∧ getB (putB (Reg.pllStatus 19) 1 true (locked 19 up)) (Reg.pllStatus 19) 1 = true := by decide +kernel

theorem witness_islands :
    keepAlive (putB (Reg.islKeepalive 3) 0 true up) 96 = true ∧ keepAlive (putB (Reg.islKeepalive 3) 2 true up) 98 = true ∧ keepAlive up 98 = false
      ∧ (pllTrack (putPll 17 { pllTrack0 with readyAt := some 0 } old) 17).readyAt = some 0 ∧ 0 + tickUs ≤ old.mono - old.now % tickEpoch ∧ up.pins.xoOk = true
      ∧ ({ up with pins := { up.pins with xoOk := false } } : State).pins.xoOk = false := by decide +kernel

/-- The mirror link is in RUN, and the pair's keys are there. -/
def pairUp : State :=
  putF Reg.mirLinkStatus 0 3 7 { station with pair := { station.pair with keyed := true } }

/-- The same, paired, with the partner's heartbeat; this unit is the standby. -/
def paired_ : State := putB Reg.pairStatus 0 true (putB Reg.pairStatus 4 true (putF Reg.pairStatus 16 3 4 pairUp))

/-- The join stands at a step. -/
def joinAt (k : Nat) : State := putF Reg.pairStatus 20 3 k pairUp

/-- A mirror lane has a valid header that has not been taken, and one whose header has been. -/
def header : RxHdr := { cnt := 1, claim := 65535, ql := 5, state := 7, valid := true, clean := true, since := 9 }

def hearing : State := putLane 577 { laneTrack pairUp 577 with pend := some header } { pairUp with pair := { pairUp.pair with msg := [(0, 64), (1, 1)] } }

def heardIn (s : State) : Option RxHdr :=
  ((List.range 4).filterMap fun l => (laneTrack s (576 + l)).pend).find? fun h => h.valid && decide (s.pair.hdrAt ≠ some h.since)

theorem witness_mirror :
    getF pairUp Reg.mirLinkStatus 0 3 = 7 ∧ getF station Reg.mirLinkStatus 0 3 ≠ 7 ∧ heardIn hearing = some header ∧ getF hearing Reg.mirLinkStatus 0 3 = 7 ∧ heardIn pairUp = none
      ∧ heardIn { hearing with pair := { hearing.pair with hdrAt := some 9 } } = none ∧ tabGet 0 0 hearing.pair.msg / 4 % 2 = 0 ∧ tabGet 0 1 hearing.pair.msg ≠ hearing.pair.hbByte ∧ getB pairUp Reg.pairStatus 4 = false ∧ getF pairUp Reg.pairStatus 20 3 = 0
      ∧ getB paired_ Reg.pairStatus 4 = true ∧ paired paired_ = true ∧ paired pairUp = false ∧ paired_.pair.hbAt + 3 * tickEpoch ≤ paired_.mono + 3 * tickEpoch
      ∧ pairUp.pair.keyed = true ∧ 9 ∉ pairUp.pair.rxGot ∧ isStandby station = false ∧ station.pair.grace = 0 ∧ pairUp.pair.hdrs = []
      ∧ (1, 2) ∉ ({ pairUp with pair := { pairUp.pair with hdrs := [(1, 3)] } } : State).pair.hdrs
      ∧ nbit 4 2 = true ∧ ({ paired_ with pair := { paired_.pair with peerFlags := 4 } } : State).pair.peerFlags / 4 % 2 = 1
      ∧ getB (putB Reg.mirLinkStatus 12 true pairUp) Reg.mirLinkStatus 12 = true ∧ (linkTrack pairUp 72).since ≤ pairUp.mono := by decide +kernel

/-- The partner's certificate, DER. -/
def partnerCert : List Nat := (List.range 382).map fun i => 0x17DFCA7C8DB83A3F87E66E69AC977578FFBB567653EE5B50C31CF73724C91B14C89D873F37D6B309BAC99E61594D505830022B3003436FFD5058B43F4ED8E4F20075B95DEDC336CD4EA4E8FB08460F24666C1F19E51B07EFC1704C796011DBE1E97A300264300067030303043DCE48862A08060A30800702030404FF01010F1D5503060E30103012A32019FF63FB0BBA3F8193D2BF4B74EEADB3183A7E9D02A9614D3D3D9BF28AAB2B9055D1CB1F1E8B075B48CE207292211FDCFBB3EFD60E2E67F794BED32F4F1D26A07D068D46400510B3AC625C4EF6E7406EB96B9E88F0331D95B19F89930D865F04006203220004812B050601023DCE48862A070610307630304645444342413938373635343332312031422D323531314D5A1A0C03045503062130233125305A39353935333231333231393939390F185A3030303030303130313034320D172030746F6F72040C03045503060B300D310F300303043DCE48862A08060A30F0DEBC9A78563412080202010203A0010182307A018230 / 256 ^ i % 256

/-- The join stands in pairing at a step of R566, with the partner's certificate, and the key of the device root is there. -/
def exchanging (k : Nat) : State :=
  let s := joinAt 2
  { s with sec := { s.sec with root := ecPublic 0xABCDEF }, otp := { s.otp with cert := [1, 2] },
           pair := { s.pair with pairStep := k, exch := { s.pair.exch with cert := partnerCert, nonce := 3, ownNonce := 4 } } }

/-- The signature of the partner over its transcript, with an ephemeral key. -/
def keySigned (key : Nat) : Nat × Nat := ecdsaSign 0x5555 777 (transcript partnerCert 3 [1, 2] 4 key)

theorem witness_pairing :
    getF (joinAt 2) Reg.pairStatus 20 3 = 2 ∧ server (joinAt 2) = 1 ∧ (exchanging 4).pair.pairStep = 4 ∧ (exchanging 1).pair.pairStep = 1
      ∧ ({ joinAt 2 with pair := { (joinAt 2).pair with pairStep := 5, authAt := some 0 } } : State).pair.pairStep = 5
      ∧ getB (putB Reg.idStatus 0 true (joinAt 2)) Reg.idStatus 0 = true ∧ getB (joinAt 2) Reg.idStatus 0 = false ∧ getB (joinAt 2) Reg.pairCtrl 5 = false := by decide +kernel

/-- The certificate proves the partner: it parses, the root has signed it, and it names the part. -/
theorem witness_partner_proven :
    (let s := exchanging 2; (certParse s.pair.exch.cert).any (fun c => certSigned s.sec.root c && decide (c.variant = variantName)) = true) ∧ (certParse [1, 2]).isNone = true := by decide +kernel

theorem witness_key_signed :
    (let s := exchanging 3; let x := s.pair.exch; (certParse x.cert).any (fun c => ecdsaOver c.key (keySigned 8).1 (keySigned 8).2 (transcript x.cert x.nonce s.otp.cert x.ownNonce 8)) = true) := by decide +kernel

theorem witness_join :
    getB (joinAt 1) Reg.pairCtrl 6 = false ∧ paired (joinAt 1) = false ∧ ((getB (joinAt 1) Reg.pairStatus 3 && getB (joinAt 1) Reg.pairStatus 4) = false)
      ∧ (let s := putB Reg.pairStatus 3 true (putB Reg.pairStatus 4 true (joinAt 1)); (getB s Reg.pairStatus 3 && getB s Reg.pairStatus 4) = true ∧ getF s Reg.pairStatus 20 3 = 1)
      ∧ getF (joinAt 7) Reg.pairStatus 20 3 = 7 ∧ (joinAt 7).now % tickEpoch = 0 ∧ getB (joinAt 6) Reg.pairStatus 6 = false ∧ getF (joinAt 5) Reg.pairStatus 20 3 = 5
      ∧ getB (joinAt 5) Reg.pairStatus 1 = false := by decide +kernel

/-- Digests of epoch 7, and what was compared last. -/
def digests (o st : Nat) : Digests := { outputs := [(0, o), (576, 8)], inputs := [(3, 1)], state := st, hits := [] }

def comparing : State := { paired_ with pair := { paired_.pair with own := [(7, digests 5 6)], peer := [(7, digests 4 9)], lastCmp := some (6, digests 1 2, digests 1 2) } }

theorem witness_comparison :
    comparing.pair.own.find? (fun x => decide (x.1 = 7)) = some (7, digests 5 6) ∧ comparing.pair.peer.find? (fun x => decide (x.1 = 7)) = some (7, digests 4 9)
      ∧ (getB comparing Reg.pairStatus 0 && getB comparing Reg.pairStatus 4) = true ∧ comparing.pair.svcSync = false ∧ 1 ≤ modeNow comparing ∧ modeNow comparing ≤ 4
      ∧ getF comparing Reg.pairStatus 16 3 = 4 ∧ comparing.pair.resyncDone = none ∧ (digests 5 6).outputs.filter (fun x => decide (tabFind x.1 (digests 4 9).outputs ≠ some x.2)) = [(0, 5)]
      ∧ (digests 5 6).state ≠ (digests 4 9).state ∧ 7 + 3 ≤ epochNow { comparing with now := 10 ^ 14 } ∧ server comparing = 1 ∧ getB comparing Reg.pairStatus 1 = false
      ∧ getB (putB Reg.pairStatus 1 true comparing) Reg.pairStatus 1 = true ∧ tabFind 0 ({ comparing with pair := { comparing.pair with penEpoch := [(0, 1)] } } : State).pair.penEpoch = some 1 := by decide +kernel

theorem witness_pair_commands :
    Ready (hd 16) (.pairSet 15 3 9) station ∧ Ready hd .pairQuery station ∧ Ready hd .pairResync paired_ ∧ getB station Reg.pairStatus 0 = false := by
  unfold Ready; decide +kernel

theorem witness_pair_link :
    Ready hd .pairResync station ∧ Ready hd (.pairLink 0) station ∧ Ready hd (.pairLink 1) station ∧ Ready hd (.pairDigests 1151 1) comparing := by
  unfold Ready; decide +kernel

theorem witness_pair_digests :
    Ready hd (.pairDigests 1151 2) comparing ∧ comparing.pair.lastCmp = some (6, digests 1 2, digests 1 2) ∧ Ready hd (.pairDigests 0 256) station := by
  unfold Ready; decide +kernel

def snapshot : Snapshot :=
  { routes := [(0, 1, 7), (0, 0, 9)], takes := [], salvos := [], audio := [(5, 6)], fades := [], sync := [], delays := [], commands := [], patches := [], patchGen := 3, flows := [], safe := [],
    colour := [], air := [1], audPorts := [], layers := [], overlays := [], fmts := [], headTables := [], colourTasks := [], generators := [], probes := [] }

theorem witness_resync :
    let s := putB Reg.pairStatus 6 true comparing
    getB s Reg.pairStatus 6 = true ∧ getB s Reg.pairStatus 0 = true ∧ s.plan.committed.isSome = true ∧ snapshot.commands = [] := by decide +kernel

/-- A snapshot of epoch 3 stands ready at the start of epoch 9; what an epoch's pipeline events explain. -/
theorem witness_snapshot :
    (let s : State := putB Reg.pairStatus 6 true { comparing with now := 9 * tickEpoch, pair := { comparing.pair with snap := some (3, snapshot) } }
     s.pair.snap = some (3, snapshot) ∧ (s.pair.snap.any fun x => decide (x.1 + 2 ≤ epochNow s) && decide (s.now % tickEpoch = 0)) = true ∧ getB s Reg.pairStatus 1 = false)
      ∧ onPath comparing 0 (.output 0) = true ∧ onPath comparing 0 (.source 1) = true ∧ onPath comparing 1 (.output 0) = false ∧ (closureOf comparing 0).any (fun x => decide (x ∈ [1])) = true
      ∧ comparing.pair.badInputs.1 + 1 ≠ 7 ∧ snapshot.routes.reverse.find? (fun r => decide (r.1 = 0) && decide (r.2.1 = 1)) = some (0, 1, 7) := by decide +kernel

/-- Cage 5 holds a module with ledger entry 511, in a state. -/
def ledgerOf (flags : Nat) : LedgerEntry :=
  { oui := 1, part := 2, serial := 3, vendor := 4, flags := flags, life := 1000, laserSec := 5, reported := 0, base := [], tempMax := 40, biasPeak := 0, cage := 5, lastSeen := 0 }

def caged (st : Nat) : State :=
  putF (Reg.modCageStatus 5) 4 3 st (putB (Reg.modCageStatus 5) 0 true
    { putCage 5 { cage0 with entry := some 511, errRun := 2 } station with mods := { (putCage 5 { cage0 with entry := some 511, errRun := 2 } station).mods with ledger := [(511, ledgerOf 129)] } })

def ident : ModIdent := { oui := 1, part := 2, serial := 3, vendor := 4, hours := some 7 }

theorem witness_cages :
    station.pins.vddLine = true ∧ getB station (Reg.modCageStatus 15) 0 = false ∧ getB (caged 1) (Reg.modCageStatus 5) 0 = true ∧ getF (caged 1) (Reg.modCageStatus 5) 4 3 = 1 ∧ getB (caged 1) (Reg.modCageStatus 5) 3 = false
      ∧ getB (putB (Reg.modCageStatus 5) 3 true (caged 1)) (Reg.modCageStatus 5) 3 = true ∧ (cage (caged 1) 5).since ≤ (caged 1).mono ∧ server (caged 3) = 1
      ∧ (caged 1).mods.ledger.find? (fun x => decide (x.2.oui = ident.oui) && decide (x.2.part = ident.part) && decide (x.2.serial = ident.serial)) = some (511, ledgerOf 129)
      ∧ ledgerEntry? (caged 2) 511 = some (ledgerOf 129) ∧ (cage (caged 2) 5).entry = some 511 ∧ 2 ≤ (cage (caged 2) 5).errRun ∧ 32 ≤ station.flash.mib ∧ station.flash.mib ≤ 256
      ∧ fitted? (caged 2) 5 ≠ none := by decide +kernel

theorem witness_cage_samples :
    (cage (caged 2) 5).fault = false ∧ (cage (caged 2) 5).temp = none ∧ (ledgerOf 129).base = [] ∧ nbit (ledgerOf 129).flags 2 = false
      ∧ ({ ledgerOf 129 with base := [2, 4] } : LedgerEntry).base.all (fun z => decide (0 < z)) = true ∧ (([2, 4].zip [3, 7]).any fun z => decide (3 * z.1 < 2 * z.2)) = true
      ∧ ((rd (caged 2) (Reg.modLaserSec 5)).toNat + 2 ^ 32 - (cage (caged 2) 5).fawnAt) % 2 ^ 32 ≤ 600 ∧ (caged 2).fw.settings.allowOn = false
      ∧ ((caged 2).plan.cfg.eths.any fun y => decide (y.port = 5)) = false ∧ (caged 2).fw.settings.eol * 100 * 10000000000 ≠ 0 := by decide +kernel

theorem witness_module_commands :
    Ready hd (.modQuery 5) (caged 3) ∧ Ready hd (.modQuery 15) station ∧ Ready hd (.modProfileSet 1048575 2047) station ∧ Ready hd (.modLedgerRead 511 1) (caged 3)
      ∧ Ready hd (.modLedgerRead 511 2) station := by
  unfold Ready; decide +kernel

theorem witness_module_control :
    Ready hd (.modControl 5 0) (caged 1) ∧ Ready hd (.modControl 5 1) (caged 2) ∧ Ready hd (.modControl 5 2) (caged 4)
      ∧ Ready (hd 24) (.modAllowSet 63 1 2 3) (caged 3) := by
  unfold Ready; decide +kernel

theorem witness_heat :
    Ready hd .telSensors station ∧ Ready hd .telWearRead station ∧ station.therm.trip = false ∧ station.therm.shedDue = false ∧ getB station Reg.thmShed 0 = false
      ∧ getB station (Reg.thmSensor 63) 16 = false
      ∧ (let s := putB Reg.thmShed 0 true { station with therm := { station.therm with below := some 0 }, mono := 60 * tickSec }
         getB s Reg.thmShed 0 = true ∧ (s.therm.below.any fun b => decide (b + 60 * tickSec ≤ s.mono)) = true) := by
  unfold Ready; decide +kernel

theorem witness_sleep :
    getB (putB Reg.pwrQuad 11 true station) Reg.pwrQuad (8 + 3) = true ∧ getB (putB Reg.pwrQuad 7 true (locked 16 station)) Reg.pwrQuad (4 + 3) = true
      ∧ pllLocked (locked 16 station) 16 = true ∧ pllLocked station 16 = false ∧ tabFind 3 ({ station with therm := { station.therm with wakeAt := [(3, 0)] } } : State).therm.wakeAt = some 0
      ∧ getB station Reg.pwrQuad 12 = false ∧ ({ station with therm := { station.therm with tj := 950 } } : State).therm.tj = 950 := by decide +kernel

/-- SERVICE, entered from mode 4, and a test of engine 7 running. -/
def service : State := putF Reg.planState 0 3 5 { station with svc := { station.svc with mode := 4 } }

def testing (test unit param : Nat) : State :=
  { service with svc := { service.svc with tests := [{ cmd := cmdOf 71 (.svcTest test unit param), test := test, unit := unit, param := param, start := 0 }] } }

theorem witness_service :
    Ready hd .svcEnter station ∧ modeNow station < 5 ∧ station.plan.pending = none ∧ ¬ TooLate (2 * tickMs) hd station ∧ Ready hd .svcEnter service ∧ TooLate (2 * tickMs) early (later station)
      ∧ Ready hd .svcLeave service ∧ Ready hd .svcLeave station ∧ service.svc.mode < 6 ∧ Ready hd .svcLeave (testing 4 7 1) ∧ ¬ TooLate (10 * tickMs) hd service := by
  unfold Ready TooLate; decide +kernel

theorem witness_tests :
    Ready hd (.svcTest 4 127 1) service ∧ Ready hd (.svcTest 4 128 1) service ∧ Ready hd (.svcTest 4 7 1) (testing 4 7 1) ∧ Ready hd (.svcTest 7 15 1) service ∧ Ready hd (.svcTest 2 0 0) service := by
  unfold Ready; decide +kernel

/-- A test that runs is the first of its unit, and its result is due. -/
theorem witness_test_result :
    ((testing 4 7 1).svc.tests.find? fun x => decide (x.test = 4 ∧ x.unit = 7)).any (fun j => decide (j.test = 4 ∧ j.unit = 7 ∧ j.cmd.origin = .host)) = true
      ∧ ((testing 6 13 0).svc.tests.find? fun x => decide (x.test = 6 ∧ x.unit / 8 = 1)).isSome = true ∧ ((testing 5 1 0).svc.tests.find? fun x => decide (x.test = 4)).isNone = true := by decide +kernel

theorem witness_quadrant_tests :
    Ready hd (.svcTest 5 71 256) service ∧ Ready hd (.svcTest 6 575 (16 * 65536)) service ∧ Ready hd (.svcTest 3 3 0) service ∧ Ready hd (.svcTest 0 0 0) station
      ∧ server (testing 8 1151 6) = 1 ∧ server (putF Reg.cmdStatus 0 2 2 (testing 2 0 0)) = 2 := by
  unfold Ready; decide +kernel

theorem witness_counters :
    Ready hd (.svcRepair 3) { service with mem := { service.mem with stuck := [(3, 64)] } } ∧ Ready hd (.svcRepair 0) station ∧ Ready hd (.telCounters 1 3 1) station
      ∧ Ready hd (.telCounters 16 0 0) station ∧ Ready hd (.telCounters 17 0 0) station ∧ Ready hd (.telCounters 1 4 0) station := by
  unfold Ready; decide +kernel

/-- Only owner-signed plans are taken, by the key of slot 2. -/
theorem witness_one_time_memory :
    (let s := { keyed with otp := { keyed.otp with ownerOnly := true } }; s.otp.slots.length = 4 ∧ s.otp.ownerOnly = true ∧ (s.otp.slots.any fun x => x.valid && !x.revoked) = true) := by decide +kernel

theorem witness_logic_side_off :
    let s := { up with pins := { up.pins with pwrGood := false }, pending := [.echo 5 hd, .houseFrameStart 7] }
    powered s = false ∧ ∀ c ∈ s.pending, lineCommand c = false := by decide +kernel
/-! ## Ill-formed commands are refused -/

/-- Each field of the descriptor header beyond its bytes (R603). -/
theorem test_ill_formed_headers :
    (([{ hd with version := 256 }, { hd with flags := 256 }, { hd with tag := 2 ^ 32 }, { hd with length := 65536 }, { hd with target := 256 }, { hd with seq := 2 ^ 32 }, { hd with applyAt := 2 ^ 64 },
      { hd with resultLen := 2 ^ 32 }] : List Hdr).all fun h => !h.wf && !(Instr.echo 0 h).wf) = true ∧ hd.wf = true ∧ (Instr.echo 0 hd).wf = true := by decide

/-- Every command carries its header. -/
theorem test_ill_formed_tags_1 :
    (([.statusQuery 0 { hd with tag := 2 ^ 32 }, .tagQuery 0 { hd with tag := 2 ^ 32 } 0, .modeSet 0 { hd with tag := 2 ^ 32 } 0, .tagRetire 0 { hd with tag := 2 ^ 32 } 0 0, .echo 0 { hd with tag := 2 ^ 32 },
      .fwLoad 0 { hd with tag := 2 ^ 32 } 0, .fwActivate 0 { hd with tag := 2 ^ 32 } 0, .fwConfirm 0 { hd with tag := 2 ^ 32 }, .fwQuery 0 { hd with tag := 2 ^ 32 }, .fwRestart 0 { hd with tag := 2 ^ 32 },
      .planLoad 0 { hd with tag := 2 ^ 32 } 0, .planCommit 0 { hd with tag := 2 ^ 32 } 0 0, .planDiscard 0 { hd with tag := 2 ^ 32 }, .planQuery 0 { hd with tag := 2 ^ 32 }, .planPatch 0 { hd with tag := 2 ^ 32 } [] false,
      .planRead 0 { hd with tag := 2 ^ 32 } 0 0 0 0, .fsControl 0 { hd with tag := 2 ^ 32 } 0 0 0, .delaySet 0 { hd with tag := 2 ^ 32 } 0 0, .slateLoad 0 { hd with tag := 2 ^ 32 } 0 0 0 0 0, .memQuery 0 { hd with tag := 2 ^ 32 } 0,
      .take 0 { hd with tag := 2 ^ 32 } 0 0, .salvo 0 { hd with tag := 2 ^ 32 } 0 0 0 0 [], .routeQuery 0 { hd with tag := 2 ^ 32 } 0 0, .takeCancel 0 { hd with tag := 2 ^ 32 } 0, .refQuery 0 { hd with tag := 2 ^ 32 },
      .refSnap 0 { hd with tag := 2 ^ 32 }, .refForce 0 { hd with tag := 2 ^ 32 } 0, .timeSet 0 { hd with tag := 2 ^ 32 } 0 0, .timeConf 0 { hd with tag := 2 ^ 32 } 0 0 0 0, .ptpSet 0 { hd with tag := 2 ^ 32 } 0 0 0 0 0 0,
      .capSet 0 { hd with tag := 2 ^ 32 } 0 0 0, .timeQuery 0 { hd with tag := 2 ^ 32 }, .trkQuery 0 { hd with tag := 2 ^ 32 } 0, .trkRestart 0 { hd with tag := 2 ^ 32 } 0, .trkMbxSend 0 { hd with tag := 2 ^ 32 } 0 0 [],
      .flowQuery 0 { hd with tag := 2 ^ 32 } 0 0, .flowStats 0 { hd with tag := 2 ^ 32 } 0 0, .ethHostSet 0 { hd with tag := 2 ^ 32 } 0 0 0, .ibxTaskQuery 0 { hd with tag := 2 ^ 32 } 0 0, .ibxTableSet 0 { hd with tag := 2 ^ 32 } 0 0 [],
      .ibxPatternSet 0 { hd with tag := 2 ^ 32 } 0 0 0, .ibxProbeSet 0 { hd with tag := 2 ^ 32 } 0 0 0 0 0 0 0, .ibxProbeRead 0 { hd with tag := 2 ^ 32 } 0, .ibxLoudReset 0 { hd with tag := 2 ^ 32 } 0, .compLayerSet 0 { hd with tag := 2 ^ 32 } 0 [],
      .compInputFormat 0 { hd with tag := 2 ^ 32 } 0 0 0 0 0, .compSurfaceLoad 0 { hd with tag := 2 ^ 32 } 0 0 0 0 0 0 0 0, .compTableSet 0 { hd with tag := 2 ^ 32 } 0 0 0 0 [], .compQuery 0 { hd with tag := 2 ^ 32 } 0, .audTake 0 { hd with tag := 2 ^ 32 } 0 [],
      .audRouteQuery 0 { hd with tag := 2 ^ 32 } 0 0, .audPortSet 0 { hd with tag := 2 ^ 32 } 0 0 0 0 0, .audPortQuery 0 { hd with tag := 2 ^ 32 } 0, .pairSet 0 { hd with tag := 2 ^ 32 } 0 0 0, .pairQuery 0 { hd with tag := 2 ^ 32 },
      .pairResync 0 { hd with tag := 2 ^ 32 }, .pairLink 0 { hd with tag := 2 ^ 32 } 0, .pairDigests 0 { hd with tag := 2 ^ 32 } 0 0, .modQuery 0 { hd with tag := 2 ^ 32 } 0, .modProfileSet 0 { hd with tag := 2 ^ 32 } 0 0,
      .modLedgerRead 0 { hd with tag := 2 ^ 32 } 0 0, .modControl 0 { hd with tag := 2 ^ 32 } 0 0, .modAllowSet 0 { hd with tag := 2 ^ 32 } 0 0 0 0, .telSensors 0 { hd with tag := 2 ^ 32 }, .telCounters 0 { hd with tag := 2 ^ 32 } 0 0 0,
      .telWearRead 0 { hd with tag := 2 ^ 32 }, .idCertRead 0 { hd with tag := 2 ^ 32 }, .idInfo 0 { hd with tag := 2 ^ 32 }, .idAttest 0 { hd with tag := 2 ^ 32 } 0, .idOwnerKey 0 { hd with tag := 2 ^ 32 } 0 0 false,
      .idPolicySet 0 { hd with tag := 2 ^ 32 } 0 false, .svcEnter 0 { hd with tag := 2 ^ 32 }, .svcLeave 0 { hd with tag := 2 ^ 32 }, .svcTest 0 { hd with tag := 2 ^ 32 } 0 0 0, .svcRepair 0 { hd with tag := 2 ^ 32 } 0] : List Instr).all fun i => !i.wf) = true := by decide

/-- A body field beyond its bytes, or a patch record whose COUNT is not that of its entries. -/
theorem test_ill_formed_bodies_1 :
    (([.tagQuery 0 hd (2 ^ 32), .modeSet 0 hd (2 ^ 8), .tagRetire 0 hd (2 ^ 32) 0, .tagRetire 0 hd 0 (2 ^ 32), .fwLoad 0 hd (2 ^ 32),
      .fwActivate 0 hd (2 ^ 32), .planLoad 0 hd (2 ^ 32), .planCommit 0 hd (2 ^ 8) 0, .planCommit 0 hd 0 (2 ^ 8), .planPatch 0 hd [{ type := 14, count := 2, first := 0, entries := [1] }] false,
      .planRead 0 hd (2 ^ 16) 0 0 0, .planRead 0 hd 0 (2 ^ 8) 0 0, .planRead 0 hd 0 0 (2 ^ 32) 0, .planRead 0 hd 0 0 0 (2 ^ 32), .fsControl 0 hd (2 ^ 16) 0 0,
      .fsControl 0 hd 0 (2 ^ 8) 0, .fsControl 0 hd 0 0 (2 ^ 16), .delaySet 0 hd (2 ^ 16) 0, .delaySet 0 hd 0 (2 ^ 8), .slateLoad 0 hd (2 ^ 16) 0 0 0 0,
      .slateLoad 0 hd 0 (2 ^ 16) 0 0 0, .slateLoad 0 hd 0 0 (2 ^ 16) 0 0, .slateLoad 0 hd 0 0 0 (2 ^ 8) 0, .slateLoad 0 hd 0 0 0 0 (2 ^ 32), .memQuery 0 hd (2 ^ 8),
      .take 0 hd (2 ^ 32) 0, .take 0 hd 0 (2 ^ 32), .salvo 0 hd (2 ^ 32) 0 0 0 [], .salvo 0 hd 0 (2 ^ 8) 0 0 [], .salvo 0 hd 0 0 (2 ^ 8) 0 [],
      .salvo 0 hd 0 0 0 (2 ^ 16) [], .salvo 0 hd 0 0 0 0 [0, 2 ^ 32], .routeQuery 0 hd (2 ^ 16) 0, .routeQuery 0 hd 0 (2 ^ 16), .takeCancel 0 hd (2 ^ 32),
      .refForce 0 hd (2 ^ 8), .timeSet 0 hd (2 ^ 64) 0, .timeSet 0 hd 0 (2 ^ 32), .timeConf 0 hd (2 ^ 15) 0 0 0, .timeConf 0 hd 0 (2 ^ 15) 0 0,
      .timeConf 0 hd 0 0 (2 ^ 8) 0, .timeConf 0 hd 0 0 0 (2 ^ 32), .ptpSet 0 hd (2 ^ 8) 0 0 0 0 0, .ptpSet 0 hd 0 (2 ^ 8) 0 0 0 0, .ptpSet 0 hd 0 0 (2 ^ 8) 0 0 0,
      .ptpSet 0 hd 0 0 0 (2 ^ 8) 0 0, .ptpSet 0 hd 0 0 0 0 (2 ^ 16) 0, .ptpSet 0 hd 0 0 0 0 0 (2 ^ 128), .capSet 0 hd (2 ^ 8) 0 0, .capSet 0 hd 0 (2 ^ 8) 0,
      .capSet 0 hd 0 0 (2 ^ 15), .trkQuery 0 hd (2 ^ 8), .trkRestart 0 hd (2 ^ 8), .trkMbxSend 0 hd (2 ^ 8) 0 [], .trkMbxSend 0 hd 0 (2 ^ 16) [],
      .trkMbxSend 0 hd 0 0 [0, 2 ^ 8], .flowQuery 0 hd (2 ^ 16) 0, .flowQuery 0 hd 0 (2 ^ 16), .flowStats 0 hd (2 ^ 16) 0, .flowStats 0 hd 0 (2 ^ 8)] : List Instr).all fun i => !i.wf) = true := by decide

/-- A body field beyond its bytes, or a patch record whose COUNT is not that of its entries. -/
theorem test_ill_formed_bodies_2 :
    (([.ethHostSet 0 hd (2 ^ 8) 0 0, .ethHostSet 0 hd 0 (2 ^ 8) 0, .ethHostSet 0 hd 0 0 (2 ^ 48), .ibxTaskQuery 0 hd (2 ^ 16) 0, .ibxTaskQuery 0 hd 0 (2 ^ 16),
      .ibxTableSet 0 hd (2 ^ 16) 0 [], .ibxTableSet 0 hd 0 (2 ^ 8) [], .ibxTableSet 0 hd 0 0 [0, 2 ^ 16], .ibxPatternSet 0 hd (2 ^ 16) 0 0, .ibxPatternSet 0 hd 0 (2 ^ 8) 0,
      .ibxPatternSet 0 hd 0 0 (2 ^ 16), .ibxProbeSet 0 hd (2 ^ 16) 0 0 0 0 0 0, .ibxProbeSet 0 hd 0 (2 ^ 16) 0 0 0 0 0, .ibxProbeSet 0 hd 0 0 (2 ^ 16) 0 0 0 0, .ibxProbeSet 0 hd 0 0 0 (2 ^ 8) 0 0 0,
      .ibxProbeSet 0 hd 0 0 0 0 (2 ^ 16) 0 0, .ibxProbeSet 0 hd 0 0 0 0 0 (2 ^ 15) 0, .ibxProbeSet 0 hd 0 0 0 0 0 0 (2 ^ 15), .ibxProbeRead 0 hd (2 ^ 16), .ibxLoudReset 0 hd (2 ^ 16),
      .compLayerSet 0 hd (2 ^ 16) [], .compInputFormat 0 hd (2 ^ 16) 0 0 0 0, .compInputFormat 0 hd 0 (2 ^ 8) 0 0 0, .compInputFormat 0 hd 0 0 (2 ^ 8) 0 0, .compInputFormat 0 hd 0 0 0 (2 ^ 16) 0,
      .compInputFormat 0 hd 0 0 0 0 (2 ^ 16), .compSurfaceLoad 0 hd (2 ^ 16) 0 0 0 0 0 0 0, .compSurfaceLoad 0 hd 0 (2 ^ 8) 0 0 0 0 0 0, .compSurfaceLoad 0 hd 0 0 (2 ^ 8) 0 0 0 0 0, .compSurfaceLoad 0 hd 0 0 0 (2 ^ 16) 0 0 0 0,
      .compSurfaceLoad 0 hd 0 0 0 0 (2 ^ 16) 0 0 0, .compSurfaceLoad 0 hd 0 0 0 0 0 (2 ^ 16) 0 0, .compSurfaceLoad 0 hd 0 0 0 0 0 0 (2 ^ 16) 0, .compSurfaceLoad 0 hd 0 0 0 0 0 0 0 (2 ^ 32), .compTableSet 0 hd (2 ^ 16) 0 0 0 [],
      .compTableSet 0 hd 0 (2 ^ 8) 0 0 [], .compTableSet 0 hd 0 0 (2 ^ 8) 0 [], .compTableSet 0 hd 0 0 0 (2 ^ 8) [], .compTableSet 0 hd 0 0 0 0 [0, 2 ^ 16], .compQuery 0 hd (2 ^ 16),
      .audTake 0 hd (2 ^ 16) [], .audRouteQuery 0 hd (2 ^ 16) 0, .audRouteQuery 0 hd 0 (2 ^ 16), .audPortSet 0 hd (2 ^ 8) 0 0 0 0, .audPortSet 0 hd 0 (2 ^ 8) 0 0 0,
      .audPortSet 0 hd 0 0 (2 ^ 32) 0 0, .audPortSet 0 hd 0 0 0 (2 ^ 64) 0, .audPortSet 0 hd 0 0 0 0 (2 ^ 64), .audPortQuery 0 hd (2 ^ 8), .pairSet 0 hd (2 ^ 8) 0 0,
      .pairSet 0 hd 0 (2 ^ 8) 0, .pairSet 0 hd 0 0 (2 ^ 64), .pairLink 0 hd (2 ^ 8), .pairDigests 0 hd (2 ^ 16) 0, .pairDigests 0 hd 0 (2 ^ 16),
      .modQuery 0 hd (2 ^ 8), .modProfileSet 0 hd (2 ^ 32) 0, .modProfileSet 0 hd 0 (2 ^ 16), .modLedgerRead 0 hd (2 ^ 16) 0, .modLedgerRead 0 hd 0 (2 ^ 16)] : List Instr).all fun i => !i.wf) = true := by decide

/-- A body field beyond its bytes, or a patch record whose COUNT is not that of its entries. -/
theorem test_ill_formed_bodies_3 :
    (([.modControl 0 hd (2 ^ 8) 0, .modControl 0 hd 0 (2 ^ 8), .modAllowSet 0 hd (2 ^ 16) 0 0 0, .modAllowSet 0 hd 0 (2 ^ 16) 0 0, .modAllowSet 0 hd 0 0 (2 ^ 24) 0,
      .modAllowSet 0 hd 0 0 0 (2 ^ 128), .telCounters 0 hd (2 ^ 16) 0 0, .telCounters 0 hd 0 (2 ^ 16) 0, .telCounters 0 hd 0 0 (2 ^ 8), .idAttest 0 hd (2 ^ 256),
      .idOwnerKey 0 hd (2 ^ 8) 0 false, .idOwnerKey 0 hd 0 (2 ^ 128 * 2 ^ 256) false, .idPolicySet 0 hd (2 ^ 8) false, .svcTest 0 hd (2 ^ 16) 0 0, .svcTest 0 hd 0 (2 ^ 16) 0,
      .svcTest 0 hd 0 0 (2 ^ 32), .svcRepair 0 hd (2 ^ 8)] : List Instr).all fun i => !i.wf) = true := by decide

/-- A part that the package does not have, or a register address beyond BAR0 or between words. -/
theorem test_ill_formed_events_1 :
    (([.destinationChangeover 0 1408, .takeCommit 0 1408, .audioChannelCommit 0 65536, .crossfadeEnd 0 65536, .cmdTailWrite 0 4096 [],
      .replyHeadWrite 0 4096, .htxTailWrite 0 4096 [], .hrxTailWrite 0 4096, .cmdRingConfigWrite 0 0x4 0, .evqHeadWrite 0 4096,
      .evqRingConfigWrite 0 0x4 0, .evqMaskWrite 0 64 0, .rcFieldRead 0 0x1000000, .rcFieldRead 0 2, .latchedPairRead 0 0x1000000,
      .latchedPairRead 0 2, .statCounterLoRead 0 0x1000000, .statCounterLoRead 0 2, .capNsRead 0 16, .trkMbxDataWrite 0 72 0,
      .trkMbxDataRead 0 72, .trkLinkEnable 0 72 false, .trkLinkRestart 0 72, .trkRoleWrite 0 72 false, .trkManualWrite 0 72 false,
      .trkLaneSlip 0 576, .edgeStart 0 576, .edgeWindowDone 0 576 0, .trkErrInject 0 576, .ibxCtrlReset 0 128,
      .ibxCtrlInject 0 128, .pllRelock 0 20, .audPortCommit 0 4, .audPortConfigWrite 0 4 0, .ethLoopbackWrite 0 16 false,
      .registerWrite 0 0x1000000 0, .registerWrite 0 2 0, .inputEavMissing 0 1152, .fsRingFrameComplete 0 1408, .fsRead 0 1408,
      .fsHoldExpiry 0 1408, .scrubPass 0 4, .ckMonitorWindow 0 73 0, .rxBringupPhaseDone 0 73 [], .txStepChange 0 73,
      .ladderRunEntry 0 73, .ladderFollowerTimeout 0 73, .stepReadyTimeout 0 73, .ladderRestartTimeout 0 73, .linkFailedRetry 0 73,
      .laneAlignmentLoss 0 580, .laneRejoin 0 580, .prbsCheckerLock 0 576 [], .trunkFrameStart 0 73 [], .groupFrameRelease 0 72,
      .pauseTimerExpiry 0 64, .pauseBufferEmpty 0 64, .ethLinkUp 0 64, .ethLinkDown 0 64, .flowLineDeadline 0 4608] : List Instr).all fun i => !i.wf) = true := by decide

/-- A part that the package does not have, or a register address beyond BAR0 or between words. -/
theorem test_ill_formed_events_2 :
    (([.flowLegStateEval 0 4608, .colourSendChange 0 4608, .colourHandback 0 4608, .ptpSfdEvent 0 2, .ptpSync 0 2 0 0 false,
      .ptpDelayResp 0 2 0 0 0, .ptpDelayResp 0 0 (2 ^ 16) 0 0, .ptpDelayReqSend 0 2, .ptpAnnounceTimeout 0 2, .captureEdge 0 16 false,
      .refCandidatePresent 0 7, .refCandidateLost 0 7 [], .holdoffExpiry 0 7 [], .refJump 0 7 [], .pllLockAttempt 0 20 [] [],
      .pllLock 0 20 [], .pllAttemptFail 0 20, .pllLossOfLock 0 20 [], .pllDividerSync 0 20 false, .islandClockReturn 0 99,
      .engineSelfTest 0 128 0, .engineReloadDone 0 128, .engineReturn 0 128, .probeFrameEval 0 512 [], .layerFrameComplete 0 96 0,
      .layerFrameComplete 0 0 21, .headFrameBoundary 0 96, .audioSlotVerify 0 65536 [], .penaltyRemoval 0 4, .quadrantSleepEntry 0 4,
      .quadrantWake 0 4, .wakeLate 0 4, .modulePresent 0 16, .moduleResetRelease 0 16, .moduleReadyTimeout 0 16,
      .moduleInterrupt 0 16 false false, .moduleRemoved 0 16, .moduleLifeSample 0 16 0 none [], .biasBaselineComplete 0 16] : List Instr).all fun i => !i.wf) = true := by decide

/-- The same beside operands of any value. -/
theorem test_ill_formed_beside :
    (∀ (v0 : StartCause), (Instr.coldStart 0 v0 false false (2 ^ 128 * 2 ^ 256)).wf = false)
      ∧ (∀ (v0 : RefEntry), (Instr.refSet 0 { hd with tag := 2 ^ 32 } 0 v0).wf = false)
      ∧ (∀ (v0 : RefEntry), (Instr.refSet 0 hd (2 ^ 8) v0).wf = false)
      ∧ (∀ (v0 : ColourEntry), (Instr.ibxColourSet 0 { hd with tag := 2 ^ 32 } 0 0 v0).wf = false)
      ∧ (∀ (v0 : ColourEntry), (Instr.ibxColourSet 0 hd (2 ^ 16) 0 v0).wf = false)
      ∧ (∀ (v0 : ColourEntry), (Instr.ibxColourSet 0 hd 0 (2 ^ 8) v0).wf = false)
      ∧ (∀ (v0 : AudDir), (Instr.audMaskCommit 0 4 v0 []).wf = false)
      ∧ (∀ (v0 : Master), (Instr.refusedAccess 0 v0 (2 ^ 40) 0 false).wf = false)
      ∧ (∀ (v0 : Master), (Instr.refusedAccess 0 v0 0 3 false).wf = false)
      ∧ (∀ (v0 : BitVec 40) (v1 : BitVec 48), (Instr.fabricWordVerify 0 1408 v0 v1).wf = false)
      ∧ (∀ (v0 : RailWord) (v1 : RailWord), (Instr.egressWordSelect 0 576 v0 v1).wf = false)
      ∧ (∀ (v0 : LineInfo), (Instr.inputLineArrival 0 1152 v0).wf = false)
      ∧ (∀ (v0 : FrameInfo), (Instr.inputFrameComplete 0 1152 v0).wf = false)
      ∧ (∀ (v0 : OutLine), (Instr.outputLineEmit 0 1152 v0).wf = false)
      ∧ (∀ (v0 : HbmRead), (Instr.hbmWordRead 0 4 0 v0).wf = false)
      ∧ (∀ (v0 : HbmRead), (Instr.hbmWordRead 0 0 (24576 * 2 ^ 20) v0).wf = false)
      ∧ (∀ (v0 : LaneFrame), (Instr.trunkFrameReceived 0 580 v0).wf = false)
      ∧ (∀ (v0 : EthFrame), (Instr.ethFrameReceived 0 64 v0).wf = false)
      ∧ (∀ (v0 : SendDue), (Instr.sendFrameDue 0 64 v0).wf = false)
      ∧ (∀ (v0 : AnnounceMsg), (Instr.ptpAnnounce 0 2 v0).wf = false)
      ∧ (∀ (v0 : LoudInfo), (Instr.loudnessBlock 0 512 v0).wf = false)
      ∧ (∀ (v0 : AudDir), (Instr.srcRatioWindow 0 4 v0 0 0).wf = false)
      ∧ (∀ (v0 : AudDir), (Instr.audioClockFound 0 4 v0).wf = false)
      ∧ (∀ (v0 : AudDir), (Instr.srcAcquireDone 0 4 v0).wf = false)
      ∧ (∀ (v0 : AudDir), (Instr.srcRampDone 0 4 v0).wf = false)
      ∧ (∀ (v0 : AudDir), (Instr.srcXrun 0 4 v0 0).wf = false)
      ∧ (∀ (v0 : AudDir), (Instr.audioNoClock 0 4 v0).wf = false)
      ∧ (∀ (v0 : ModIdent), (Instr.moduleIdentified 0 16 v0).wf = false)
      ∧ (∀ (v0 : BitVec 72), (Instr.engineMemoryEccError 0 128 v0).wf = false) := by
  refine ⟨fun _ => rfl, fun _ => rfl, fun _ => rfl, fun _ => rfl, fun _ => rfl, fun _ => rfl, fun _ => rfl, fun _ => rfl, fun _ => rfl, fun _ _ => rfl, fun _ _ => rfl, fun _ => rfl, fun _ => rfl, fun _ => rfl, fun _ => rfl, fun _ => rfl, fun _ => rfl, fun _ => rfl, fun _ => rfl, fun _ => rfl, fun _ => rfl, fun _ => rfl, fun _ => rfl, fun _ => rfl, fun _ => rfl, fun _ => rfl, fun _ => rfl, fun _ => rfl, fun _ => rfl⟩

/-- Lists of a wrong length or with a part that the package does not have. -/
theorem test_ill_formed_lists :
    (([.masterReset 0 .pcie [{ addr := 2 ^ 40, size := 4, write := true, issued := true }], .trunkFrameReceived 0 0 [], .trunkFrameReceived 0 0 (List.replicate 256 { sync := 4, payload := 0 }),
      .trunkFrameStart 0 0 [(1152, [])], .thermalSample 0 [(64, none)], .moduleLifeSample 0 0 0 none [1, 2, 3]] : List Instr).all fun i => !i.wf) = true := by decide
/-! ## Single commands and figures of the manual's worked examples -/

/-- The state after a command. -/
def after (i : Instr) (s : State) : State :=
  match exec i s with
  | .next t => t
  | _ => s

/-- The station at a number of microseconds after TAI 1,780,000,000 s. -/
def at_ (us : Nat) : State := { station with now := (1780000000 * 1000000 + us) * 1000 * 297 }

/-- Worked example of 02_word_fabric_and_takes.md: house frame 106,693,306,800 starts at TAI 1,780,000,001.780000 s. -/
theorem test_house_frame_start : frameStart station 106693306800 = 1780000001780000000 * 297 := by decide +kernel

/-- Worked example of 01_compiled_plan.md: the house rate register, and the apply frames of a commit at 0.008000 s with its lead of 10 ms and of a mode change at 0.046000 s with 2 ms. -/
theorem test_apply_frames :
    (rd station Reg.planHouseRate).toNat = 0x03E9EA60 ∧ houseFrame (at_ 8000) % 1000 = 693 ∧ earliestFrame (at_ 8000) (10 * tickMs) = 106693306695
      ∧ earliestFrame (at_ 46000) (2 * tickMs) = 106693306697 := by decide +kernel

/-- Worked example of 02_word_fabric_and_takes.md: the fields of its three salvo entries. -/
theorem test_take_entries :
    ([0x07C14011, 0x805311F4, 0xFFDC2B84].map fun e => (entDest e, entSrc e, entLevels e)) = [(17, 40, 0x1F), (500, 610, 0x201), (900, 901, 0x3FF)] := by decide +kernel

/-- The table after R92: 89.409 µs for 1080p59.94 at 3G and 178.818 µs for 1080i59.94 after the start of the format frame, to the nanosecond. -/
theorem test_switch_points :
    (spNominal fmt 0 + 148) / 297 = 89409 ∧ (spNominal { fmt with id := 1, rateNum := 30000, scan := 1 } 0 + 148) / 297 = 178818
      ∧ (spNominal { fmt4k with rateNum := 60000, rateDen := 1001 } 0 + 148) / 297 = 89086 := by decide +kernel

/-- Worked examples of 15_the_pair.md and 19_identity.md: serial number 0x186AD gives TIE 12, and ROLE_PRIO 8 the claims 0x8FFC and, with one penalty of 64, 0x8BFC. -/
theorem test_claims :
    let a : State := putF Reg.pairCtrl 0 4 8 { station with otp := { station.otp with serial := 0x186AD } }
    tieOf a = 12 ∧ claimOf (putF Reg.pairHealth 8 8 255 a) = 0x8FFC ∧ claimOf (putF Reg.pairHealth 8 8 255 (putF Reg.pairHealth 16 4 1 a)) = 0x8BFC := by decide +kernel

/-- Worked example of 14_timebase_and_ptp.md: a path of 1,250 ns and an offset of 300 ns. -/
theorem test_ptp_path_and_offset :
    let s := after (.ptpDelayResp 0 0 4 60950 40000) (after (.ptpSync 0 0 0 0 false) (putPtp 0 { ptpPort ptpUp 0 with reqs := [(4, 20000)], stamp := some (some (1550 * 297)) } ptpUp))
    (rd s (Reg.ptpPath 0)).toNat = 1250 ∧ (rd (after (.ptpSync 0 0 0 0 false) (putPtp 0 { ptpPort s 0 with stamp := some (some (1550 * 297)) } s)) (Reg.ptpOffset 0)).toNat = 300 := by decide +kernel

/-- Worked example of 20_optical_modules.md: at an EA of 0.7 eV the factor is 2.127 at 60 °C and 0.674 at 45 °C, in thousandths. -/
theorem test_module_factor : (moduleFactor 700 600 + expUnit / 2000) / (expUnit / 1000) = 2127 ∧ (moduleFactor 700 450 + expUnit / 2000) / (expUnit / 1000) = 674 := by decide +kernel

/-- 21_supplies_and_thermal.md: at 95.4 °C the factor is 1.037. -/
theorem test_wear_factor : (wearFactor 954 + expUnit / 2000) / (expUnit / 1000) = 1037 ∧ wearFactor 950 = expUnit := by decide +kernel

/-- Worked example of 13_plls_and_clock_islands.md: a lock 33.724 µs after the attempt's start. -/
theorem test_pll_lock_time :
    (rd (after (.pllLock 0 11 [0]) (putPll 11 { pllTrack0 with closedAt := some 0, lockN := 1 } { up with mono := 33724 * 297 })) (Reg.pllLockTime 11)).toNat = 33724 := by decide +kernel

/-- Worked example of 07_ethernet_ports.md: a PAUSE of 60,000 quanta on a 400G channel stops it for 76.8 µs; the end is held in hundredths of a tick. -/
theorem test_pause : (ethTrack (after (.ethFrameReceived 0 0 { ethFrame with etherType := 0x8808, quanta := 60000 }) (putB (Reg.ethPortCtrl 0) 4 false linkUp)) 0).pauseEnd
    = some (ethNow linkUp + 76800 * 297 * 100) := by decide +kernel

/-- Worked example of 17_event_queue.md, step 8: a second cause coalesces. -/
theorem test_event_coalesces :
    ((raise 0x486 noInst 2 0 0 0 withLatch).evq.host.pend.map fun p => (p.src, p.stamp, p.coalesced)) = [(0x486, 9, 1)] := by decide +kernel

/-- R604, R607, R613: `ECHO` answers at once, inline. -/
theorem test_echo : ((after (.echo 3 hd) up).cmd.waiting.map fun r => (r.opcode, r.tag, r.status, r.inline)) = [(5, 77, 0, true)] := by decide +kernel

/-- R605: a descriptor out of sequence is completed with CMD_SEQ, and the sequence goes on from it. -/
theorem test_sequence :
    ((after (.echo 0 hd) (expecting 6)).cmd.waiting.map Reply.status) = [0x000D] ∧ (after (.echo 0 hd) (expecting 6)).cmd.expSeq = some 6
      ∧ getB (after (.echo 0 hd) (expecting 6)) Reg.cmdStatus 5 = true := by decide +kernel

/-- Worked example of 19_identity.md, step 8: after slot 0 is revoked beside a valid slot 1, SLOTS reads 0x12 in the statement of R704. -/
theorem test_owner_slots :
    let s := putSlot 1 { hash := 7, valid := true, revoked := false } (putSlot 0 { hash := 5, valid := true, revoked := true } up)
    slotBits s OwnerSlot.good + slotBits s OwnerSlot.revoked * 16 = 0x12 := by decide +kernel

/-- R646: a head beyond the tail is refused. -/
theorem test_event_head : getB (after (.evqHeadWrite 0 5) outstanding) Reg.evqStatus 3 = true ∧ (after (.evqHeadWrite 0 5) outstanding).evq.host.head = outstanding.evq.host.head := by decide +kernel

/-- The words of the opcode table give no command bits. -/
theorem test_no_table_words : decodeTableWord 32 0 = none := by decide +kernel

/-- FIPS 180-4: SHA-384 of "abc", its first byte lowest. -/
theorem test_sha384 : sha384 3 0x636261 = 0xA725C834A1ECBA5823CCE7A12B078680ED5BFF435A608B1A63D1DE0EAB322C270750C69A693DA0B58B5EA3453F7500CB := by decide +kernel

/-- The table of 01_compiled_plan.md R68: pattern periods, video and audio cadences of 2160p59.94, 1080p59.94, 1080i59.94 and 1080p23.98, and the samples of five frames of 800.8. -/
theorem test_cadences :
    (let p := fun (id num scan : Nat) => ({ fmt with id := id, rateNum := num, scan := scan } : PortFmt)
     (patternRows (p 2 60000 0), patternRows (p 1 30000 1)) = (4004, 8008) ∧ ([p 6 60000 0, p 2 60000 0, p 1 30000 1, p 1 24000 0].map fun f => (videoCadence f, audioCadence f 48000)) = [(1, 5), (2, 5), (2, 5), (8, 1)])
      ∧ ((List.range 5).map fun n => audioSamples fmt 48000 n).sum = 4004 := by decide +kernel

/-- Worked examples of 08_media_flows.md (a row of 1,920 pixels is 4,800 bytes) and of 04_frame_stores.md (a stored frame of 1080p59.94 3G takes 6 MiB). -/
theorem test_picture_sizes : rowBytes fmt = 4800 ∧ 3 * storedFrame fmt = 18 * mib := by decide +kernel

/-- Worked example of 04_frame_stores.md, in nanoseconds: the read that would take a frame 16,697.667 µs old passes over it and takes the next, 15.001 µs old; at L + T_in less 1 ns it does not. -/
theorem test_drop_decision :
    let t : FsTrack := { fsTrack0 with frames := [{ num := 5, buf := 0, doneAt := 0, lines := [] }], times := [16682666, 0] }
    fsPeriod t = 16682666 ∧ fsSelect t 14830 (16682666 + 16697667) = some 7 ∧ fsSelect t 14830 (16682666 + 16697495) = some 6 := by decide +kernel

/-- Drop-frame counting (09_ibex_engines.md R372; 14_timebase_and_ptp.md R530): after 00:00:59;29 comes 00:01:00;02, and the tenth minute drops nothing. -/
theorem test_drop_frame : ([1799, 1800, 17981, 17982].map dropAddress) = [[0, 0, 59, 29], [0, 1, 0, 2], [0, 9, 59, 29], [0, 10, 0, 0]] ∧ dropFrame 600 = 17982 := by decide +kernel

/-- Worked example of 23_package_and_balls.md: the balls of TRK_OUT_41_CK, ETH_13_TX2 and MOD_05_SCL, and a core ball beside a ground one. -/
theorem test_balls :
    (ball 77 16, ball 77 17, ball 77 18) = (.pair (.trunk true 41 8) false, .pair (.trunk true 41 8) true, .vss) ∧ pairBall (.trunk true 41 8) = (77, 16) ∧ ballAt 77 16 = (-30, -31)
      ∧ (ball 68 50, ball 68 51) = (.pair (.eth true 13 2) false, .pair (.eth true 13 2) true) ∧ ball 37 1 = .signal "MOD_05_SCL" ∧ (ball 51 40, ball 51 41) = (.rail .core, .vss)
      ∧ [ballName 77 16, ballName 68 50, ballName 37 1, ballName 51 40] = ["DA16", "CL50", "AW1", "BN40"] := by decide +kernel
end Sys2Proof.Tests
end

section
/-! Host accesses of registers (00_scope.md R14 to R17, 22_supervisor_interconnect.md R769 and R775): what a refusal logs, and what each form of read returns, clears and latches. -/

namespace Sys2Proof.Machine

/-! ## Completion -/

/-- A command of the logic side completes in a powered unit with its effect, once its time has passed. -/
theorem completes_only {i : Instr} {b : Bool} {f : State → State} {dt : Nat} {s : State} {P : State → Prop}
    (he : exec i s = .next (only b f (tick dt s))) (hb : b = true) (hp : powered s = true) (h : P (f (tick dt s))) : Completes i s P :=
  ⟨_, he, by rwa [only_on f hb (s := tick dt s) hp]⟩

/-! ## Refusals -/

/-- The cause for which a read is refused does not rest on the time: only a write to the upload area asks for that (R772). -/
theorem refusalCause_read_tick (dt : Nat) (s : State) (m : Master) (a size : Nat) :
    refusalCause (tick dt s) m a size false = refusalCause s m a size false := by
  have ht : target? (tick dt s) a = target? s a := rfl
  have hp : ∀ t, permitted (tick dt s) m t a false = permitted s m t a false := fun _ => rfl
  have hw : ∀ q, awake (tick dt s) q = awake s q := fun _ => rfl
  simp only [refusalCause, ht, hp, hw, Bool.and_false, Bool.false_and]

/-- Causes of R775 fit the three bits of CAUSE. -/
theorem refusalCause_lt {s : State} {m : Master} {a size c : Nat} {w : Bool} (h : refusalCause s m a size w = some c) : c < 8 := by
  unfold refusalCause at h
  split at h
  · cases h; decide
  · (repeat' split at h) <;> cases h <;> decide

/-! ## The log of R769 -/

/-- Only the registers of the log change. -/
theorem regsBut_logAccess (m : Master) (addr size cause : Nat) (w : Bool) (s : State) :
    RegsBut [Reg.sicErrInfo, Reg.sicErrAddrLo, Reg.sicErrAddrHi, Reg.sicErrCnt, Reg.sicStatus] s (logAccess m addr size cause w s) := by
  intro a ha
  simp only [List.mem_cons, List.not_mem_nil, or_false, not_or] at ha
  obtain ⟨hinfo, hlo, hhi, hcnt, hst⟩ := ha
  simp only [logAccess]
  rw [rd_raise, rd_putB_ne hst, rd_count_ne hcnt, rd_wr_ne hhi, rd_wr_ne hlo, rd_wr_ne hinfo]

theorem sicErrCnt_logAccess (m : Master) (addr size cause : Nat) (w : Bool) (s : State) :
    (rd (logAccess m addr size cause w s) Reg.sicErrCnt).toNat = min (2 ^ 32 - 1) ((rd s Reg.sicErrCnt).toNat + 1) := by
  simp only [logAccess]
  rw [rd_raise, rd_putB_ne (by decide), rd_count_same, rd_wr_ne (by decide), rd_wr_ne (by decide), rd_wr_ne (by decide)]

theorem sicErrInfo_logAccess (m : Master) (addr size cause : Nat) (w : Bool) (s : State) :
    rd (logAccess m addr size cause w s) Reg.sicErrInfo = BitVec.ofNat 32 (masterCode m + b2n w * 8 + cause * 16) := by
  simp only [logAccess]
  rw [rd_raise, rd_putB_ne (by decide), rd_count_ne (by decide), rd_wr_ne (by decide), rd_wr_ne (by decide), rd_wr_same]

/-- CAUSE of `SIC_ERR_INFO` after an access has been logged. -/
theorem cause_logAccess (m : Master) (addr size : Nat) {cause : Nat} (w : Bool) (s : State) (hc : cause < 8) :
    getF (logAccess m addr size cause w s) Reg.sicErrInfo 4 3 = cause := by
  have hm : masterCode m < 8 := by cases m <;> decide
  have hw : b2n w ≤ 1 := by cases w <;> decide
  rw [getF, sicErrInfo_logAccess, fld, BitVec.toNat_ofNat]
  omega

/-! ## What an access comes to -/

/-- A host read, by the cause of its refusal. The definition is unfolded behind a variable: the kernel would otherwise evaluate the cause at an open address above `regWindow`, one successor at a time. -/
theorem hostFetch_of_cause {a : Nat} {s : State} {r : Option Nat} (f : State → State) (h : refusalCause s .pcie (a + regWindow) 4 false = r) :
    hostFetch a f s = r.elim (f s) fun c => { logAccess .pcie (a + regWindow) 4 c false s with readData := 0 } := by
  have key : ∀ g, g = hostFetch → g a f s = r.elim (f s) fun c => { logAccess .pcie (a + regWindow) 4 c false s with readData := 0 } := by
    delta hostFetch
    rintro g rfl
    beta_reduce
    rw [h]
    cases r with
    | none => rfl
    | some c => rw [Option.elim_some]
  exact key _ rfl

/-- A host write, by the cause of its refusal. -/
theorem hostWrite_of_cause {a : Nat} {s : State} {r : Option Nat} (f : State → State) (h : refusalCause s .pcie (a + regWindow) 4 true = r) :
    hostWrite a f s = r.elim (f s) fun c => logAccess .pcie (a + regWindow) 4 c true s := by
  have key : ∀ g, g = hostWrite → g a f s = r.elim (f s) fun c => logAccess .pcie (a + regWindow) 4 c true s := by
    delta hostWrite
    rintro g rfl
    beta_reduce
    rw [h]
    cases r with
    | none => rfl
    | some c => rw [Option.elim_some]
  exact key _ rfl

/-- A refused read returns zero, and is logged. -/
theorem hostRead_refused {a c : Nat} {s : State} (h : refusalCause s .pcie (a + 0x10000000) 4 false = some c) :
    hostRead a s = { logAccess .pcie (a + 0x10000000) 4 c false s with readData := 0 } := by
  rw [hostRead, hostFetch_of_cause _ h, Option.elim_some]

theorem rd_readData (s : State) (v : Word) (b : Nat) : rd { s with readData := v } b = rd s b := rfl

theorem rd_hostRead_refused {a c : Nat} {s : State} (h : refusalCause s .pcie (a + 0x10000000) 4 false = some c) (b : Nat) :
    rd (hostRead a s) b = rd (logAccess .pcie (a + 0x10000000) 4 c false s) b :=
  (congrArg (rd · b) (hostRead_refused h)).trans (rd_readData _ 0 b)

/-- A read that is served fetches the register by its row. -/
theorem hostRead_served {a : Nat} {d : RegDef} {s : State} (h : refusalCause s .pcie (a + 0x10000000) 4 false = none) (hd : regRow a = some d) :
    hostRead a s = regFetch d a s := by
  rw [hostRead, hostFetch_of_cause _ h, hd]
  rfl

/-- A write that is served, at an address without a row, does nothing. -/
theorem registerWrite_unlisted {a : Nat} (v : Word) {s : State} (h : refusalCause s .pcie (a + 0x10000000) 4 true = none) (hd : regRow a = none) :
    registerWrite a v s = s := by
  rw [registerWrite, hostWrite_of_cause _ h, hd]
  rfl

/-! ## What a register's read settles and where it goes -/

/-- No register of the hub counts with time. -/
theorem regSettle_hub {a : Nat} (s : State) (h1 : 0x400000 ≤ a) (h2 : a < 0x800000) : regSettle a s = s := by
  simp only [regSettle]
  rw [if_neg (by omega), if_neg (by omega)]

/-- Outside the quadrants no latched half changes when a count is brought up to the present. -/
theorem regSettle_latch {a : Nat} (s : State) (h : 0x400000 ≤ a) : (regSettle a s).latch = s.latch := by
  simp only [regSettle]
  rw [if_neg (by omega)]
  split
  · unfold laserSettle
    split
    · rw [wr_latch, putCage_latch]
    · rw [putCage_latch]
  · rfl

/-- The address is that of a register whose read does more than its row says: `TMB_NOW_NS` (R526), `CAP_NS` (R549) and the mailbox data of a trunk (R297). -/
def readApart (a : Nat) : Prop :=
  a = Reg.tmbNowNs ∨ (Reg.capCtrl 0 ≤ a ∧ a < Reg.capCtrl 16 ∧ a % 16 = 4)
    ∨ (a < 0x400000 ∧ 0x36000 ≤ a % 0x100000 ∧ a % 0x100000 < 0x36240 ∧ a % 0x20 = 0x1C)

/-- Every other read goes by the row alone: a low register of two, a high register, or a register by itself. -/
theorem regFetch_byRow {a : Nat} (d : RegDef) (s : State) (h : ¬ readApart a) :
    regFetch d a s = if d.pair || d.stat then lowRead d a (regSettle a s)
      else (lowRow a).elim { clearRc d a (regSettle a s) with readData := regValue (regSettle a s) a } fun low => highRead low d a (regSettle a s) := by
  simp only [readApart, not_or] at h
  obtain ⟨hnow, hcap, hmbx⟩ := h
  simp only [regFetch]
  rw [if_neg hnow, if_neg hcap, if_neg hmbx]
  cases lowRow a <;> rfl

/-- `TMB_NOW_NS` and `CAP_NS` have no RC bits, so a hub register that has some is read by its row. -/
theorem not_readApart_of_rc {a : Nat} {d : RegDef} (hd : regRow a = some d) (h1 : 0x400000 ≤ a) (hrc : d.rc ≠ 0) : ¬ readApart a := by
  rintro (rfl | ⟨hlo, hhi, hmod⟩ | ⟨hlt, -⟩)
  · have hrow : (regRow Reg.tmbNowNs).map RegDef.rc = some 0 := by decide +kernel
    rw [hd] at hrow
    exact hrc (Option.some.inj hrow)
  · have hrows : ∀ k < 16, (regRow (Reg.capNs k)).map RegDef.rc = some 0 := by decide +kernel
    simp only [Reg.capCtrl] at hlo hhi
    have ha : Reg.capNs ((a - 0x406400) / 16) = a := by
      simp only [Reg.capNs]
      omega
    have hrow := hrows ((a - 0x406400) / 16) (by omega)
    rw [ha, hd] at hrow
    exact hrc (Option.some.inj hrow)
  · omega

/-! ## The three forms of read -/

theorem rd_clearRc_same {d : RegDef} (a : Nat) (s : State) (h : d.rc ≠ 0) : rd (clearRc d a s) a = rd s a &&& ~~~d.rc := by
  rw [clearRc, if_neg h, rd_wr_same]

theorem rd_clearRc_ne {a b : Nat} (d : RegDef) (s : State) (h : b ≠ a) : rd (clearRc d a s) b = rd s b := by
  unfold clearRc
  split
  · rfl
  · exact rd_wr_ne h _ _

theorem clearRc_eq (d : RegDef) (a : Nat) (s : State) : clearRc d a s = { s with regs := (clearRc d a s).regs } := by
  unfold clearRc
  split <;> rfl

@[simp] theorem lowRead_readData (d : RegDef) (a : Nat) (s : State) : (lowRead d a s).readData = regValue s a := by
  simp only [lowRead]
  split
  · rfl
  · rw [wr_readData, clearRc_eq]

@[simp] theorem lowRead_latch (d : RegDef) (a : Nat) (s : State) : (lowRead d a s).latch = tabPut (a + 4) (regValue s (a + 4)) s.latch := by
  simp only [lowRead]
  split
  · rfl
  · rw [wr_latch, clearRc_eq]

theorem regsBut_lowRead_keep {d : RegDef} (a : Nat) (s : State) (h : d.rc = 0) : RegsBut [] s (lowRead d a s) := by
  intro b _
  simp only [lowRead]
  rw [if_pos h]
  rfl

/-- A read-to-clear value in two registers is cleared whole with its low register (R17). -/
theorem regs_lowRead_clear {d : RegDef} (a : Nat) (s : State) (h : d.rc ≠ 0) :
    rd (lowRead d a s) a = rd s a &&& ~~~d.rc ∧ rd (lowRead d a s) (a + 4) = 0 ∧ RegsBut [a, a + 4] s (lowRead d a s) := by
  simp only [lowRead]
  rw [if_neg h]
  refine ⟨?_, rd_wr_same .., fun b hb => ?_⟩
  · rw [rd_wr_ne (by omega), rd_clearRc_same _ _ h]
    rfl
  · simp only [List.mem_cons, List.not_mem_nil, or_false, not_or] at hb
    rw [rd_wr_ne hb.2, rd_clearRc_ne _ _ hb.1]
    rfl

/-- Outside the trunk headers every bit of a high register belongs to the latched half. -/
theorem highRead_latched {low d : RegDef} {a : Nat} {s : State} {v : Word} (h : 0x400000 ≤ a) (hv : tabFind a s.latch = some v) :
    highRead low d a s = { s with readData := v } := by
  have hm : highMask a = BitVec.allOnes 32 := if_neg (by omega)
  have hw : (v &&& highMask a) ||| (regValue s a &&& ~~~highMask a) = v := by
    rw [hm, BitVec.not_allOnes, BitVec.and_allOnes, BitVec.and_zero, BitVec.or_zero]
  simp only [highRead, hv, hw]

/-! ## The times that their own reads latch -/

/-- A read of `TMB_NOW_NS` returns the nanoseconds of the present time, and the next registers take its seconds and fraction (R526). -/
theorem nowRead_spec (s : State) : let t := nowRead s
    t.readData = BitVec.ofNat 32 (s.now % tickSec / tickNs) ∧ rd t Reg.tmbNowSecLo = BitVec.ofNat 32 (s.now / tickSec)
      ∧ rd t (Reg.tmbNowSecLo + 4) = BitVec.ofNat 32 (s.now / tickSec / 2 ^ 32)
      ∧ t = { s with regs := t.regs, readData := t.readData } ∧ RegsBut [Reg.tmbNowSecLo, Reg.tmbNowSecLo + 4, Reg.tmbNowFrac] s t := by
  have hr : ∀ b, rd (nowRead s) b = rd (wr Reg.tmbNowFrac (BitVec.ofNat 32 (timeFields s.now).2.2) (put64 Reg.tmbNowSecLo (timeFields s.now).1 s)) b :=
    fun _ => rfl
  refine ⟨rfl, ?_, ?_, rfl, fun b hb => ?_⟩
  · rw [hr, rd_wr_ne (by decide), put64, rd_wr_ne (by decide), rd_wr_same, timeFields]
  · rw [hr, rd_wr_ne (by decide), put64, rd_wr_same, timeFields]
  · simp only [List.mem_cons, List.not_mem_nil, or_false, not_or] at hb
    obtain ⟨hlo, hhi, hfrac⟩ := hb
    rw [hr, rd_wr_ne hfrac, put64, rd_wr_ne hhi, rd_wr_ne hlo]

/-- A read of `CAP_NS` returns the nanoseconds of the channel's last edge, and the next registers take its seconds and fraction (R549). -/
theorem capRead_spec (c : Nat) (s : State) : let t := capRead c s
    t.readData = BitVec.ofNat 32 (capFields (capTrack s c).time).2.1 ∧ rd t (Reg.capNs c) = t.readData
      ∧ rd t (Reg.capSec c) = BitVec.ofNat 32 (capFields (capTrack s c).time).1
      ∧ t = { s with regs := t.regs, readData := t.readData } ∧ RegsBut [Reg.capNs c, Reg.capSec c, Reg.capFrac c] s t := by
  have hr : ∀ b, rd (capRead c s) b = rd (wr (Reg.capNs c) (BitVec.ofNat 32 (capFields (capTrack s c).time).2.1)
      (putF (Reg.capFrac c) 0 16 (capFields (capTrack s c).time).2.2 (wr (Reg.capSec c) (BitVec.ofNat 32 (capFields (capTrack s c).time).1) s))) b :=
    fun _ => rfl
  have hns : Reg.capSec c ≠ Reg.capNs c := by simp only [Reg.capSec, Reg.capNs]; omega
  have hfr : Reg.capSec c ≠ Reg.capFrac c := by simp only [Reg.capSec, Reg.capFrac]; omega
  refine ⟨rfl, ?_, ?_, rfl, fun b hb => ?_⟩
  · rw [hr, rd_wr_same]
    rfl
  · rw [hr, rd_wr_ne hns, rd_putF_ne hfr, rd_wr_same]
  · simp only [List.mem_cons, List.not_mem_nil, or_false, not_or] at hb
    obtain ⟨hns', hsec, hfrac⟩ := hb
    rw [hr, rd_wr_ne hns', rd_putF_ne hfrac, rd_wr_ne hsec]

/-! ## The statements -/

/-- Settles O18: each command is a host read, which is refused and logged, or goes by the register's row; `nowRead` and `capRead` latch their own times. -/
theorem readsClearAndLatch : Obligations.ReadsClearAndLatch := by
  unfold Obligations.ReadsClearAndLatch
  intro served
  have hserved : ∀ dt s a d, served s a → regRow a = some d → hostRead a (tick dt s) = regFetch d a (tick dt s) :=
    fun dt s a d hs hd => hostRead_served ((refusalCause_read_tick dt s ..).trans hs) hd
  have hmbx : ∀ a, 0x400000 ≤ a → ¬ (a < 0x400000 ∧ 0x36000 ≤ a % 0x100000 ∧ a % 0x100000 < 0x36240 ∧ a % 0x20 = 0x1C) := by omega
  refine ⟨?rc, ?pair, ?high, ?stat, ?refused, ?now, ?cap⟩
  case rc =>
    intro dt s hp a d hd h1 h2 hrc hpair hstat hlow hs
    refine completes_only rfl rfl hp ?_
    rw [hserved dt s a d hs hd, regFetch_byRow _ _ (not_readApart_of_rc hd h1 hrc), hpair, hstat, hlow, regSettle_hub _ h1 h2]
    refine ⟨rfl, rd_clearRc_same _ _ hrc, ?_, fun b hb => rd_clearRc_ne _ _ (by simpa using hb)⟩
    simp only [Bool.or_self, Bool.false_eq_true, if_false, Option.elim_none]
    rw [clearRc_eq]
  case pair =>
    intro dt s hp a d hd hpair hnow hcap h1 hs
    refine completes_only rfl rfl hp ?_
    have hapart : ¬ readApart a := not_or.2 ⟨hnow, not_or.2 ⟨hcap, hmbx a h1⟩⟩
    rw [hserved dt s a d hs hd, regFetch_byRow _ _ hapart, if_pos (by rw [hpair]; rfl)]
    refine ⟨lowRead_readData .., ?_, ?_⟩
    · rw [lowRead_latch, regSettle_latch _ h1, tick_latch]
    · split
      · exact regsBut_lowRead_keep a _ ‹_›
      · exact regs_lowRead_clear a _ ‹_›
  case high =>
    intro dt s hp a d hd hpair hstat h1 h2 hnow hcap hlow hs v hv
    refine completes_only rfl rfl hp ?_
    have hapart : ¬ readApart a := not_or.2 ⟨hnow, not_or.2 ⟨hcap, hmbx a h1⟩⟩
    obtain ⟨low, hl⟩ := Option.isSome_iff_exists.1 hlow
    rw [hserved dt s a d hs hd, regFetch_byRow _ _ hapart, hpair, hstat, hl, regSettle_hub _ h1 h2]
    exact highRead_latched h1 hv
  case stat =>
    intro dt s hp a d hd hstat hrc h1 htrk hs
    refine completes_only rfl rfl hp ?_
    have hapart : ¬ readApart a := by
      simp only [readApart, Reg.tmbNowNs, Reg.capCtrl]
      omega
    rw [hserved dt s a d hs hd, regFetch_byRow _ _ hapart, if_pos (by rw [hstat, Bool.or_true])]
    exact ⟨lowRead_readData .., lowRead_latch .., regs_lowRead_clear a _ hrc⟩
  case refused =>
    intro dt a s c hp hc
    refine completes_only rfl rfl hp ?_
    have hc' := (refusalCause_read_tick dt s ..).trans hc
    refine ⟨?_, ?_, ?_, fun b hb => ?_⟩
    · rw [hostRead_refused hc']
    · rw [rd_hostRead_refused hc', sicErrCnt_logAccess, rd_tick]
    · rw [getF, rd_hostRead_refused hc', ← getF, cause_logAccess _ _ _ _ _ (refusalCause_lt hc)]
    · rw [rd_hostRead_refused hc', regsBut_logAccess _ _ _ _ _ _ b hb, rd_tick]
  case now =>
    intro dt s hp
    exact completes_only rfl rfl hp (nowRead_spec (tick dt s))
  case cap =>
    intro dt s hp c hc
    exact completes_only rfl (decide_eq_true hc) hp (capRead_spec c (tick dt s))

/-- A powered unit whose upload area serves a copy until the next tick. -/
def copyEndsNextTick : State :=
  { State.reset with
    pins := { State.reset.pins with vddLine := true, pwrGood := true, resetN := true }
    comp := { State.reset.comp with uploadEnd := 1 } }

/-- The offset that `REGISTER_WRITE` would need to reach the upload area: no register, 0x10000000 below the area's supervisor address (R764). -/
def uploadOffset : Nat := hbmBase + 320 * mib - 0x10000000

/-- Refutes O19: the clause on refused writes takes every offset, and judges the refusal before `dt` has passed. A write at `uploadOffset` is refused with cause 6 (R772, R775) while the area is copied from; the copy ends within `dt`, so the write is not refused when it comes, and SIC_ERR_CNT counts nothing. -/
theorem not_writesFollowTheirAccessCodes : ¬ Obligations.WritesFollowTheirAccessCodes := by
  unfold Obligations.WritesFollowTheirAccessCodes
  rintro ⟨-, hrefused, -⟩
  have hbefore : refusalCause copyEndsNextTick .pcie (uploadOffset + 0x10000000) 4 true = some 6 := by decide +kernel
  have hafter : refusalCause (tick 1 copyEndsNextTick) .pcie (uploadOffset + 0x10000000) 4 true = none := by decide +kernel
  have hp : powered copyEndsNextTick = true := by decide +kernel
  obtain ⟨t, ht, hcnt, -⟩ := hrefused 1 uploadOffset 0 copyEndsNextTick hp 6 hbefore
  have hexec : exec (.registerWrite 1 uploadOffset 0) copyEndsNextTick = .next (tick 1 copyEndsNextTick) := by
    have hw := registerWrite_unlisted 0 hafter (by decide +kernel)
    exact congrArg _ ((only_on (s := tick 1 copyEndsNextTick) _ rfl hp).trans hw)
  rw [hexec] at ht
  cases ht
  revert hcnt
  decide +kernel

end Sys2Proof.Machine
end

section
/-! Plan commands (01_compiled_plan.md): what they may touch, how acceptance, refusal and completion read, and what the registers of the plan hold after them. -/

namespace Sys2Proof.Machine

/-! ## What a plan command may touch -/

/-- Nothing but registers, the dispatcher's state, events, the plan and messages to the partner has changed. -/
def PlanFrame (s t : State) : Prop :=
  t = { s with regs := t.regs, cmd := t.cmd, evq := t.evq, plan := t.plan, pair := t.pair }

theorem PlanFrame.trans {s u t : State} (h1 : PlanFrame s u) (h2 : PlanFrame u t) : PlanFrame s t := by
  unfold PlanFrame at *
  rw [h1] at h2
  exact h2

theorem PlanFrame.of_regs {s t : State} (h : t = { s with regs := t.regs }) : PlanFrame s t := by
  unfold PlanFrame
  rw [h]

theorem PlanFrame.of_regsCmd {s t : State} (h : t = { s with regs := t.regs, cmd := t.cmd }) : PlanFrame s t := by
  unfold PlanFrame
  rw [h]

/-- A change that leaves the messages to the partner alone. -/
theorem PlanFrame.withoutPair {s t : State} (h : PlanFrame s t) (hp : t.pair = s.pair) :
    t = { s with regs := t.regs, cmd := t.cmd, evq := t.evq, plan := t.plan } := Eq.trans h (by rw [hp])

/-- A change that raises no event. -/
theorem PlanFrame.withoutEvents {s t : State} (h : PlanFrame s t) (he : t.evq = s.evq) :
    t = { s with regs := t.regs, cmd := t.cmd, plan := t.plan, pair := t.pair } := Eq.trans h (by rw [he])

theorem PlanFrame.now {s t : State} (h : PlanFrame s t) : t.now = s.now := by rw [h]

/-! ## Reads that other registers leave alone -/

theorem modeNow_congr {s t : State} (h : rd t Reg.planState = rd s Reg.planState) : modeNow t = modeNow s := by
  simp only [modeNow, getF, h]

theorem server_congr {s t : State} (h : rd t Reg.cmdStatus = rd s Reg.cmdStatus) : server t = server s := by
  simp only [server, getF, h]

theorem forwards_congr {s t : State} (h : rd t Reg.pairStatus = rd s Reg.pairStatus) (hp : t.pair = s.pair) : forwards t = forwards s := by
  unfold forwards paired getB getF
  rw [h, hp]

theorem houseRate_congr {s t : State} (h : rd t Reg.planHouseRate = rd s Reg.planHouseRate) : houseRate t = houseRate s := by
  unfold houseRate getF
  rw [h]

/-! ## An accepted command -/

/-- A command that the unit's own host has sent. -/
abbrev hostCmd (h : Hdr) (b : Body) : Cmd := { pkt := { hdr := h, body := b }, origin := .host }

/-- A firmware command for which the dispatcher and the firmware are ready completes with its effect. -/
theorem completes_fw {i : Instr} {dt : Nat} {h : Hdr} {b : Body} {s u : State} {P : State → Prop} (hi : hostPacket i = some (dt, { hdr := h, body := b }))
    (hr : Ready h b s) (hf : fastPath b = false) (hx : fwExecute (hostCmd h b) (taken h (tick dt s)) = u) (hP : P u) : Completes i s P :=
  ⟨u, by rw [hostPacket_exec hi, exec_fw hr hf, hx], hP⟩

theorem taken_planFrame (h : Hdr) (s : State) : PlanFrame s (taken h s) := .of_regsCmd (taken_eq h s)

@[simp] theorem taken_plan (h : Hdr) (s : State) : (taken h s).plan = s.plan := by rw [taken_eq]
@[simp] theorem taken_pair (h : Hdr) (s : State) : (taken h s).pair = s.pair := by rw [taken_eq]
@[simp] theorem taken_evq (h : Hdr) (s : State) : (taken h s).evq = s.evq := by rw [taken_eq]
@[simp] theorem taken_otp (h : Hdr) (s : State) : (taken h s).otp = s.otp := by rw [taken_eq]
@[simp] theorem taken_comp (h : Hdr) (s : State) : (taken h s).comp = s.comp := by rw [taken_eq]
@[simp] theorem taken_ref (h : Hdr) (s : State) : (taken h s).ref = s.ref := by rw [taken_eq]
@[simp] theorem taken_take (h : Hdr) (s : State) : (taken h s).take = s.take := by rw [taken_eq]

/-- The registers of the rings are those that acceptance moves, and lie before `PLAN_STATE`. -/
theorem rd_accepted {a : Nat} (dt : Nat) (h : Hdr) (s : State) (ha : a ∉ ringRegs) : rd (taken h (tick dt s)) a = rd s a := by
  simp only [ringRegs, List.mem_cons, List.not_mem_nil, or_false, not_or] at ha
  rw [rd_taken h _ ha.1 ha.2.1 ha.2.2.1, rd_tick]

@[simp] theorem rd_cmdStatus_accepted (dt : Nat) (h : Hdr) (s : State) : rd (taken h (tick dt s)) Reg.cmdStatus = rd s Reg.cmdStatus := by
  rw [rd_taken h _ (by decide) (by decide) (by decide), rd_tick]

@[simp] theorem modeNow_accepted (dt : Nat) (h : Hdr) (s : State) : modeNow (taken h (tick dt s)) = modeNow s :=
  modeNow_congr (rd_accepted dt h s (by decide))

@[simp] theorem server_accepted (dt : Nat) (h : Hdr) (s : State) : server (taken h (tick dt s)) = server s := server_congr (by simp)

@[simp] theorem forwards_accepted (dt : Nat) (h : Hdr) (s : State) : forwards (taken h (tick dt s)) = forwards s :=
  forwards_congr (rd_accepted dt h s (by decide)) (by simp)

@[simp] theorem houseRate_accepted (dt : Nat) (h : Hdr) (s : State) : houseRate (taken h (tick dt s)) = houseRate (tick dt s) :=
  houseRate_congr ((rd_accepted dt h s (by decide)).trans (rd_tick ..).symm)

/-- A tag for which the dispatcher is ready is not held. -/
theorem Ready.tagFree {h : Hdr} {b : Body} {s : State} (hr : Ready h b s) : tagHeld h.tag s = none := by
  obtain ⟨-, -, -, -, hd, -⟩ := hr
  rcases ht : tagHeld h.tag s with _ | e
  · rfl
  · simp only [dispatchCheck, headCheck, ht] at hd
    split at hd
    · cases hd
    · rename_i hn
      (repeat' split at hn) <;> simp_all

/-- An accepted command whose reply is still to come waits. -/
theorem waits_of_cmd {dt : Nat} {h : Hdr} {b : Body} {s t : State} (hr : Ready h b s) (hc : t.cmd = (taken h (tick dt s)).cmd) : Waits h s t := by
  have hnone : (resultsPrune (s.cmd.accCount + 1) s.cmd.results).find? (fun e => decide (e.tag = h.tag)) = none := by
    rw [List.find?_eq_none]
    intro x hx
    exact List.find?_eq_none.1 hr.tagFree x (List.mem_of_mem_filter hx)
  rw [Waits, tagHeld, hc, taken_cmd]
  refine ⟨rfl, ?_, rfl⟩
  rw [tick_cmd, find_append_none hnone _ (by simp)]
  rfl

/-! ## Fields of a word given as a number -/

/-- `PLAN_LAST_STATUS` holds a status of 16 bits and, above it, the index of a section. -/
theorem toNat_lastStatus {st sect : Nat} (h : st < 65536) (hk : sect < 256) : (BitVec.ofNat 32 (st + sect * 65536)).toNat = sect * 65536 + st := by
  rw [BitVec.toNat_ofNat]
  omega

theorem get64_congr {s t : State} {a : Nat} (h : rd t a = rd s a) (h4 : rd t (a + 4) = rd s (a + 4)) : get64 t a = get64 s a := by
  rw [get64, h, h4, get64]

/-- A pair of registers reads as the value put there, cut to 64 bits. -/
theorem get64_put64 (a v : Nat) (s : State) : get64 (put64 a v s) a = v % 2 ^ 64 := by
  rw [get64, put64, rd_wr_same, rd_wr_ne (by omega), rd_wr_same, BitVec.toNat_ofNat, BitVec.toNat_ofNat]
  omega

theorem rd_put64_ne {a b : Nat} (h : b ≠ a) (h4 : b ≠ a + 4) (v : Nat) (s : State) : rd (put64 a v s) b = rd s b := by
  rw [put64, rd_wr_ne h4, rd_wr_ne h]

/-! ## The status of a plan command (R34, R72) -/

theorem planNote_eq (st sect : Nat) (s : State) : planNote st sect s = { s with regs := (planNote st sect s).regs } := by
  unfold planNote
  split <;> rfl

@[simp] theorem planNote_cmd (st sect : Nat) (s : State) : (planNote st sect s).cmd = s.cmd := by rw [planNote_eq]
@[simp] theorem planNote_plan (st sect : Nat) (s : State) : (planNote st sect s).plan = s.plan := by rw [planNote_eq]
@[simp] theorem planNote_pair (st sect : Nat) (s : State) : (planNote st sect s).pair = s.pair := by rw [planNote_eq]
@[simp] theorem planNote_now (st sect : Nat) (s : State) : (planNote st sect s).now = s.now := by rw [planNote_eq]

theorem rd_planNote {a : Nat} (st sect : Nat) (s : State) (h : a ≠ Reg.planLastStatus) (hr : a ≠ Reg.planRejects) :
    rd (planNote st sect s) a = rd s a := by
  unfold planNote
  split
  · exact rd_wr_ne h ..
  · exact (rd_count_ne hr _).trans (rd_wr_ne h ..)

/-- A success is noted, and counts in no register. -/
theorem planNote_ok (sect : Nat) (s : State) : planNote 0 sect s = wr Reg.planLastStatus (BitVec.ofNat 32 (0 + sect * 65536)) s := by
  rw [planNote, if_pos rfl]

theorem rd_planNote_status (st sect : Nat) (s : State) : rd (planNote st sect s) Reg.planLastStatus = BitVec.ofNat 32 (st + sect * 65536) := by
  unfold planNote
  split
  · exact rd_wr_same ..
  · exact (rd_count_ne (by decide) _).trans (rd_wr_same ..)

/-- Every other status is counted. -/
theorem rejects_planNote {st : Nat} (sect : Nat) (s : State) (h : st ≠ 0) :
    (rd (planNote st sect s) Reg.planRejects).toNat = min (2 ^ 32 - 1) ((rd s Reg.planRejects).toNat + 1) := by
  rw [planNote, if_neg h, rd_count_same, rd_wr_ne (by decide)]

/-! ## Completions -/

theorem complete_eq (h : Hdr) (b : Body) (st detail : Nat) (res : List (Nat × Nat)) (s : State) :
    complete (hostCmd h b) st detail res s
      = { s with regs := (complete (hostCmd h b) st detail res s).regs, cmd := (complete (hostCmd h b) st detail res s).cmd } :=
  (completeAt_host (hostCmd h b) st detail (houseFrame s) res s rfl).1

theorem rd_completeAt {a : Nat} {c : Cmd} (st detail frame : Nat) (res : List (Nat × Nat)) (s : State) (ho : c.origin = .host) (ha : a ≠ Reg.cmdStatus) :
    rd (completeAt c st detail frame res s) a = rd s a := (completeAt_host c st detail frame res s ho).2.2.1 a ha

theorem completeAt_planFrame {c : Cmd} (st detail frame : Nat) (res : List (Nat × Nat)) (s : State) (ho : c.origin = .host) :
    PlanFrame s (completeAt c st detail frame res s) := .of_regsCmd (completeAt_host c st detail frame res s ho).1

/-- A completion for the host ends the list of the replies that go to the ring. -/
theorem completeAt_waiting {c : Cmd} (st detail frame : Nat) (res : List (Nat × Nat)) (s : State) (ho : c.origin = .host) :
    (completeAt c st detail frame res s).cmd.waiting = s.cmd.waiting ++ [mkReply c.pkt st detail frame res false] := by
  obtain ⟨-, ⟨ph, hc⟩, -, -⟩ := completeAt_host c st detail frame res s ho
  rw [hc]

theorem completeAt_plan {c : Cmd} (st detail frame : Nat) (res : List (Nat × Nat)) (s : State) (ho : c.origin = .host) :
    (completeAt c st detail frame res s).plan = s.plan := by rw [(completeAt_host c st detail frame res s ho).1]

theorem completeAt_pair {c : Cmd} (st detail frame : Nat) (res : List (Nat × Nat)) (s : State) (ho : c.origin = .host) :
    (completeAt c st detail frame res s).pair = s.pair := by rw [(completeAt_host c st detail frame res s ho).1]

/-- While the firmware is not away, a completion that an effect brings is written at once. -/
theorem finishAt_served {c : Cmd} {s : State} (st frame : Nat) (res : List (Nat × Nat)) (h : server s ≠ 2) :
    finishAt c st frame res s = completeAt c st 0 frame res s := if_neg fun e => h e.1

/-- An accepted command that completes in a state with the dispatcher's state and house frame of its acceptance has answered. -/
theorem answered_complete {dt : Nat} {h : Hdr} {b : Body} {s u : State} (st detail : Nat) (res : List (Nat × Nat)) (hc : u.cmd = (taken h (tick dt s)).cmd)
    (hr : rd u Reg.planHouseRate = rd s Reg.planHouseRate) (hn : u.now = s.now + dt) :
    Answered h b st detail (houseFrame (tick dt s)) res s (complete (hostCmd h b) st detail res u) := by
  rw [complete, houseFrame_congr (t := u) (s := tick dt s) (hr.trans (rd_tick ..).symm) hn]
  exact answered_of_cmd (s := tick dt s) st detail _ res hc

/-! ## Refusals -/

/-- A plan command refused: noted, counted and answered, and nothing else (R72). -/
structure PlanRefused (dt : Nat) (h : Hdr) (b : Body) (st detail : Nat) (s t : State) : Prop where
  answered : Answered h b st detail (houseFrame (tick dt s)) [] s t
  status : (rd t Reg.planLastStatus).toNat = 0x00FF0000 + st
  counted : (rd t Reg.planRejects).toNat = min (2 ^ 32 - 1) ((rd s Reg.planRejects).toNat + 1)
  frame : t = { tick dt s with regs := t.regs, cmd := t.cmd }
  regs : RegsBut (Reg.planLastStatus :: Reg.planRejects :: ringRegs) s t
  ring : RingKept s t

theorem planRefused_complete (dt : Nat) (h : Hdr) (b : Body) {st : Nat} (detail : Nat) (s : State) (h0 : st ≠ 0) (hst : st < 65536) :
    PlanRefused dt h b st detail s (complete (hostCmd h b) st detail [] (planNote st 0xFF (taken h (tick dt s)))) := by
  generalize hu : planNote st 0xFF (taken h (tick dt s)) = u
  have hcmd : u.cmd = (taken h (tick dt s)).cmd := by rw [← hu, planNote_cmd]
  have hnow : u.now = s.now + dt := by rw [← hu, planNote_now, taken_now, tick]
  have hrd : ∀ a, a ≠ Reg.planLastStatus → a ≠ Reg.planRejects → rd u a = rd (taken h (tick dt s)) a := by
    rw [← hu]
    exact fun a => rd_planNote st 0xFF _
  obtain ⟨heq, ⟨ph, hc⟩, hregs, hserver⟩ := completeAt_host (hostCmd h b) st detail (houseFrame u) [] u rfl
  rw [← complete] at heq hc hregs hserver
  refine ⟨answered_complete st detail [] hcmd ?_ hnow, ?_, ?_, ?_, ?_, ?_, ?_⟩
  · rw [hrd _ (by decide) (by decide), rd_accepted _ _ _ (by decide)]
  · rw [hregs _ (by decide), ← hu, rd_planNote_status, toNat_lastStatus hst (by decide)]
  · rw [hregs _ (by decide), ← hu, rejects_planNote _ _ h0, rd_accepted _ _ _ (by decide)]
  · refine regsCmd_trans (taken_eq h (tick dt s)) (regsCmd_trans ?_ heq)
    rw [← hu, planNote_eq]
  · intro a ha
    simp only [List.mem_cons, not_or] at ha
    obtain ⟨hl, hr, ha⟩ := ha
    rw [hregs a fun e => ha (by rw [e]; decide), hrd a hl hr, rd_accepted _ _ _ (by simpa only [List.mem_cons] using ha)]
  · rw [hc, hcmd]
    simp
  · rw [hserver, getF, hrd _ (by decide) (by decide), rd_cmdStatus_accepted, getF]

theorem PlanRefused.low {dt : Nat} {h : Hdr} {b : Body} {st detail : Nat} {s t : State} (hr : PlanRefused dt h b st detail s t) (hst : st < 65536) :
    getF t Reg.planLastStatus 0 16 = st := by
  rw [getF, fld, hr.status]
  omega

end Sys2Proof.Machine
end

section
/-! Loading and reading a plan (01_compiled_plan.md R33 to R36): the statement on `PLAN_LOAD`, `PLAN_LOAD_COMPLETE`, `PLAN_QUERY` and `PLAN_READ`. -/

namespace Sys2Proof.Machine

/-! ## LOAD of `PLAN_STATE` (R71) -/

theorem setLoad_eq (v : Nat) (s : State) : setLoad v s = { s with regs := (setLoad v s).regs, evq := (setLoad v s).evq } := by
  unfold setLoad planEv raiseState raise
  dsimp only
  (repeat' split) <;> rfl

theorem rd_setLoad (v a : Nat) (s : State) : rd (setLoad v s) a = rd (putF Reg.planState 8 2 v s) a := by
  unfold setLoad planEv
  dsimp only
  split
  · rfl
  · exact rd_raise ..

theorem rd_setLoad_ne {a : Nat} (v : Nat) (s : State) (h : a ≠ Reg.planState) : rd (setLoad v s) a = rd s a := by
  rw [rd_setLoad, rd_putF_ne h]

theorem load_setLoad {v : Nat} (s : State) (h : v < 4) : getF (setLoad v s) Reg.planState 8 2 = v := by
  rw [getF, rd_setLoad, ← getF, getF_putF_same _ _ _ (by decide)]
  omega

@[simp] theorem setLoad_cmd (v : Nat) (s : State) : (setLoad v s).cmd = s.cmd := by rw [setLoad_eq]
@[simp] theorem setLoad_plan (v : Nat) (s : State) : (setLoad v s).plan = s.plan := by rw [setLoad_eq]
@[simp] theorem setLoad_pair (v : Nat) (s : State) : (setLoad v s).pair = s.pair := by rw [setLoad_eq]
@[simp] theorem setLoad_now (v : Nat) (s : State) : (setLoad v s).now = s.now := by rw [setLoad_eq]

theorem putPlan_planFrame (f : PlanState → PlanState) (s : State) : PlanFrame s (putPlan f s) := rfl

theorem setLoad_planFrame (v : Nat) (s : State) : PlanFrame s (setLoad v s) := by
  unfold PlanFrame
  rw [setLoad_eq]

/-! ## Digests in registers -/

/-- Words of a digest, each written to its register. -/
theorem rd_digestWords_ne {a b : Nat} (v : Nat) (l : List Nat) (s : State) (h : ∀ i ∈ l, b ≠ a + 4 * i) :
    rd (l.foldl (fun s i => wr (a + 4 * i) (BitVec.ofNat 32 (v / 2 ^ (32 * i))) s) s) b = rd s b := by
  induction l generalizing s with
  | nil => rfl
  | cons i l ih => rw [List.foldl_cons, ih _ fun j hj => h j (List.mem_cons_of_mem i hj), rd_wr_ne (h i List.mem_cons_self)]

/-- A digest takes the twelve registers from its address on. -/
theorem rd_putDigest_ne {a b : Nat} (v : Nat) (s : State) (h : b < a ∨ a + 48 ≤ b) : rd (putDigest a v s) b = rd s b := by
  unfold putDigest
  refine rd_digestWords_ne v (upto 0 12) s fun i hi => ?_
  have := upto_mem.1 hi
  omega

/-- The first word of a digest holds its bytes 0 to 3. -/
theorem rd_putDigest_first (a v : Nat) (s : State) : rd (putDigest a v s) a = BitVec.ofNat 32 v := by
  unfold putDigest
  rw [show upto 0 12 = 0 :: upto 1 11 from rfl, List.foldl_cons, rd_digestWords_ne, Nat.mul_zero, Nat.add_zero, rd_wr_same, pow_zero, Nat.div_one]
  intro i hi
  have := upto_mem.1 hi
  omega

/-- Only registers take a digest. -/
theorem digestWords_eq (a v : Nat) (l : List Nat) (s : State) :
    l.foldl (fun s i => wr (a + 4 * i) (BitVec.ofNat 32 (v / 2 ^ (32 * i))) s) s
      = { s with regs := (l.foldl (fun s i => wr (a + 4 * i) (BitVec.ofNat 32 (v / 2 ^ (32 * i))) s) s).regs } := by
  induction l generalizing s with
  | nil => rfl
  | cons i l ih =>
    rw [List.foldl_cons, ih]
    rfl

theorem putDigest_eq (a v : Nat) (s : State) : putDigest a v s = { s with regs := (putDigest a v s).regs } := by
  unfold putDigest
  exact digestWords_eq a v (upto 0 12) s

@[simp] theorem putDigest_cmd (a v : Nat) (s : State) : (putDigest a v s).cmd = s.cmd := by rw [putDigest_eq]
@[simp] theorem putDigest_plan (a v : Nat) (s : State) : (putDigest a v s).plan = s.plan := by rw [putDigest_eq]
@[simp] theorem putDigest_pair (a v : Nat) (s : State) : (putDigest a v s).pair = s.pair := by rw [putDigest_eq]
@[simp] theorem putDigest_now (a v : Nat) (s : State) : (putDigest a v s).now = s.now := by rw [putDigest_eq]

/-! ## The verdict of R33 as a list of steps -/

/-- A check with the status and the index of the section that its failure names. -/
abbrev PlanStep := Bool × Nat × Nat

/-- The verdict of the first check that fails. -/
def firstFailure (l : List PlanStep) : Nat × Nat := ((l.find? fun x => !x.1).map Prod.snd).getD (0, 0xFF)

@[simp] theorem firstFailure_nil : firstFailure [] = (0, 0xFF) := rfl

theorem firstFailure_cons (x : PlanStep) (l : List PlanStep) : firstFailure (x :: l) = if x.1 = true then firstFailure l else x.2 := by
  obtain ⟨ok, v⟩ := x
  cases ok <;> rfl

/-- A check of every section names the first at fault. -/
theorem firstFailure_sections (p : Section → Bool) (xs : List Section) (st : Nat) (l : List PlanStep) :
    firstFailure (((badSection p xs).isNone, st, (badSection p xs).getD 0xFF) :: l)
      = match badSection p xs with
        | some k => (st, k)
        | none => firstFailure l := by
  rw [firstFailure_cons]
  cases badSection p xs <;> rfl

/-- The checks of one mode. -/
def modeSteps (b : Bundle) (m : Nat) : List PlanStep :=
  [(capacityOk b m, 0x0207, 0xFF), (planLinebufOk b m, 0x020E, 0xFF),
    (memAllocOk m (memEntries (some b) m) && trafficOk m (b.cfg m).heads (memEntries (some b) m), 0x0208, 0xFF)]

/-- A mode whose checks all pass leaves the verdict to the checks that follow. -/
theorem firstFailure_modeSteps (b : Bundle) (m : Nat) (l : List PlanStep) :
    firstFailure (modeSteps b m ++ l) = if modeStatus b m = St.ok then firstFailure l else (modeStatus b m, 0xFF) := by
  simp only [modeSteps, List.cons_append, List.nil_append, firstFailure_cons, modeStatus, Bool.and_eq_true]
  by_cases hc : capacityOk b m = true
  · by_cases hl : planLinebufOk b m = true
    · by_cases hm : memAllocOk m (memEntries (some b) m) = true ∧ trafficOk m (b.cfg m).heads (memEntries (some b) m) = true
      · simp [hc, hl, hm]
      · have hm' := hm
        rw [not_and_or, Bool.not_eq_true, Bool.not_eq_true] at hm'
        simp [hc, hl, hm, hm']
    · simp [hc, hl]
  · simp [hc]

/-- The modes are checked one after the other. -/
theorem firstFailure_modes (b : Bundle) (ms : List Nat) :
    firstFailure (ms.flatMap (modeSteps b)) = (((ms.map (modeStatus b)).find? fun x => decide (x ≠ St.ok)).getD St.ok, 0xFF) := by
  induction ms with
  | nil => rfl
  | cons m ms ih =>
    rw [List.flatMap_cons, firstFailure_modeSteps, ih, List.map_cons, List.find?_cons]
    by_cases h : modeStatus b m = St.ok <;> simp [h]

/-- The checks of R33 in order. -/
def planSteps (s : State) (b : Bundle) (len : Nat) : List PlanStep :=
  let fault := fun (ok : Section → Bool) => findIdx? (fun x => !ok x) b.sections
  [(headerOk b len, 0x0201, 0xFF), (decide (b.variant = 0x00B1), 0x0202, 0xFF), (decide (b.minFw ≤ (rd s Reg.fwVerRun).toNat), 0x0203, 0xFF),
   ((fault (sectionOk b)).isNone, 0x0201, (fault (sectionOk b)).getD 0xFF), (tableOk b, 0x0201, 0xFF),
   ((fault (fun x => decide (x.digest = sha384 x.length x.bytes))).isNone, 0x0204, (fault (fun x => decide (x.digest = sha384 x.length x.bytes))).getD 0xFF),
   (decide (sigStatus s b = 0), sigStatus s b, 0xFF), ((fault (contentOk b)).isNone, 0x0201, (fault (contentOk b)).getD 0xFF)]
    ++ b.modeIds.flatMap (modeSteps b)

/-- The verdict is that of the first step that fails. -/
theorem planVerdict_eq (s : State) (b : Bundle) (len : Nat) : planVerdict s b len = firstFailure (planSteps s b len) := by
  simp only [planSteps, List.cons_append, List.nil_append]
  change _ = firstFailure (_ :: _ :: _ :: ((badSection (sectionOk b) b.sections).isNone, _, (badSection (sectionOk b) b.sections).getD 0xFF) :: _
    :: ((badSection (fun x => decide (x.digest = x.actual)) b.sections).isNone, _, (badSection (fun x => decide (x.digest = x.actual)) b.sections).getD 0xFF)
    :: _ :: ((badSection (contentOk b) b.sections).isNone, _, (badSection (contentOk b) b.sections).getD 0xFF) :: _)
  rw [firstFailure_cons, firstFailure_cons, firstFailure_cons, firstFailure_sections, firstFailure_cons, firstFailure_sections, firstFailure_cons,
    firstFailure_sections, firstFailure_modes]
  simp only [planVerdict, ← Bool.not_eq_true, ne_eq, ite_not, ← not_le, decide_eq_true_eq]
    <;> rfl

/-- The verdict reads the running firmware's version and the owner keys of OTP, and nothing else of the state. -/
theorem planVerdict_congr {s t : State} (b : Bundle) (len : Nat) (hv : rd t Reg.fwVerRun = rd s Reg.fwVerRun) (ho : t.otp = s.otp) :
    planVerdict t b len = planVerdict s b len := by
  have hsig : sigStatus t b = sigStatus s b := by
    unfold sigStatus ownerSlot
    rw [ho]
  unfold planVerdict
  rw [hv, hsig]

/-! ## `PLAN_LOAD` (R33 to R36) -/

/-- The verdict on the load slot. -/
def slotVerdict (s : State) (len : Nat) : Nat × Nat :=
  match s.plan.slot with
  | some b => planVerdict s b len
  | none => (St.planFormat, 0xFF)

theorem slotVerdict_accepted (dt : Nat) (h : Hdr) (s : State) (len : Nat) : slotVerdict (taken h (tick dt s)) len = slotVerdict s len := by
  unfold slotVerdict
  rw [taken_plan, tick_plan]
  cases s.plan.slot with
  | none => rfl
  | some b => exact planVerdict_congr b len (rd_accepted dt h s (by decide)) (by simp)

/-- A load that has passed here and is to be validated by the partner too. -/
def loadCopies (s : State) (len : Nat) : Bool := decide ((slotVerdict s len).1 = St.ok) && forwards s && decide (modeNow s ≠ 5)

/-- The state of an accepted load, before any copy to the partner. -/
def loadUnderWay (c : Cmd) (len : Nat) (s : State) : State :=
  setLoad 1 (putPlan (fun x => { x with loading := some { cmd := c, status := (slotVerdict s len).1, sect := (slotVerdict s len).2,
                                                          partner := if loadCopies s len then none else some 0 } }) s)

theorem fxPlanLoad_busy {s : State} (c : Cmd) (len : Nat) (h : commitPending s = true ∨ s.plan.loading.isSome = true) :
    fxPlanLoad c len s = planRefuse c St.planBusy s := if_pos h

theorem fxPlanLoad_accepted {s : State} (c : Cmd) (len : Nat) (h : commitPending s = false) (hl : s.plan.loading = none) :
    fxPlanLoad c len s = s.plan.slot.elim (loadUnderWay c len s)
      fun b => if loadCopies s len = true then send (.plan b) (loadUnderWay c len s) else loadUnderWay c len s := by
  have hidle : ¬ (commitPending s = true ∨ s.plan.loading.isSome = true) := by simp [h, hl]
  have hslot : (loadUnderWay c len s).plan.slot = s.plan.slot := by rw [loadUnderWay, setLoad_plan]; rfl
  have hstep : fxPlanLoad c len s = match (loadUnderWay c len s).plan.slot with
      | some b => if loadCopies s len = true then send (.plan b) (loadUnderWay c len s) else loadUnderWay c len s
      | none => loadUnderWay c len s := (if_neg hidle).trans rfl
  rw [hstep, hslot]
  cases s.plan.slot <;> rfl

theorem fxPlanLoad_kept {s : State} (c : Cmd) (len : Nat) (h : commitPending s = false) (hl : s.plan.loading = none) (hc : loadCopies s len = false) :
    fxPlanLoad c len s = loadUnderWay c len s := by
  rw [fxPlanLoad_accepted c len h hl]
  cases s.plan.slot with
  | none => rfl
  | some b => exact if_neg (by simp [hc])

theorem fxPlanLoad_copied {s : State} {b : Bundle} (c : Cmd) (len : Nat) (h : commitPending s = false) (hl : s.plan.loading = none) (hc : loadCopies s len = true)
    (hb : s.plan.slot = some b) : fxPlanLoad c len s = send (.plan b) (loadUnderWay c len s) := by
  rw [fxPlanLoad_accepted c len h hl, hb]
  exact if_pos hc

section
variable (c : Cmd) (len : Nat) (s : State)

theorem loadUnderWay_plan : (loadUnderWay c len s).plan = { s.plan with
    loading := some { cmd := c, status := (slotVerdict s len).1, sect := (slotVerdict s len).2, partner := if loadCopies s len then none else some 0 } } := by
  rw [loadUnderWay, setLoad_plan]
  rfl

theorem loadUnderWay_cmd : (loadUnderWay c len s).cmd = s.cmd := by
  rw [loadUnderWay, setLoad_cmd]
  rfl

theorem loadUnderWay_pair : (loadUnderWay c len s).pair = s.pair := by
  rw [loadUnderWay, setLoad_pair]
  rfl

theorem loadUnderWay_planFrame : PlanFrame s (loadUnderWay c len s) :=
  (putPlan_planFrame ..).trans (setLoad_planFrame ..)

theorem rd_loadUnderWay {a : Nat} (h : a ≠ Reg.planState) : rd (loadUnderWay c len s) a = rd s a := (rd_setLoad_ne _ _ h).trans rfl

theorem load_loadUnderWay : getF (loadUnderWay c len s) Reg.planState 8 2 = 1 := load_setLoad _ (by decide)

end

/-! ## `PLAN_LOAD_COMPLETE` (R34, R35) -/

/-- A load that has ended with a status, before it is noted and answered. -/
def loadEnded (st : Nat) (s : State) : State :=
  putDigest (Reg.planDigestLoaded 0) ((s.plan.slot.map Bundle.digest).getD 0) (wr Reg.planGenLoaded (BitVec.ofNat 32 ((s.plan.slot.map Bundle.generation).getD 0))
    (setLoad (if st = St.ok then 2 else 3) (putPlan (fun x => { x with loading := none }) s)))

theorem loadEnded_plan (st : Nat) (s : State) : (loadEnded st s).plan = { s.plan with loading := none } := by
  rw [loadEnded, putDigest_plan, wr_plan, setLoad_plan]
  rfl

theorem loadEnded_cmd (st : Nat) (s : State) : (loadEnded st s).cmd = s.cmd := by
  rw [loadEnded, putDigest_cmd, wr_cmd, setLoad_cmd]
  rfl

theorem loadEnded_pair (st : Nat) (s : State) : (loadEnded st s).pair = s.pair := by
  rw [loadEnded, putDigest_pair, wr_pair, setLoad_pair]
  rfl

theorem loadEnded_planFrame (st : Nat) (s : State) : PlanFrame s (loadEnded st s) :=
  (((putPlan_planFrame ..).trans (setLoad_planFrame ..)).trans (.of_regs rfl)).trans (.of_regs (putDigest_eq ..))

theorem load_loadEnded (st : Nat) (s : State) : getF (loadEnded st s) Reg.planState 8 2 = if st = St.ok then 2 else 3 := by
  rw [loadEnded, getF, rd_putDigest_ne _ _ (by decide), rd_wr_ne (by decide), ← getF, load_setLoad _ (by split <;> decide)]

theorem generation_loadEnded {s : State} {b : Bundle} (st : Nat) (hb : s.plan.slot = some b) : rd (loadEnded st s) Reg.planGenLoaded = BitVec.ofNat 32 b.generation := by
  rw [loadEnded, rd_putDigest_ne _ _ (by decide), rd_wr_same, hb]
  rfl

theorem digest_loadEnded {s : State} {b : Bundle} (st : Nat) (hb : s.plan.slot = some b) : rd (loadEnded st s) (Reg.planDigestLoaded 0) = BitVec.ofNat 32 b.digest := by
  rw [loadEnded, rd_putDigest_first, hb]
  rfl

/-- A load that no partner has refused ends with the status of its validation here. -/
theorem loadComplete_here {s : State} {l : Loading} (hl : s.plan.loading = some l) (hs : server s = 1) (hf : forwards s = false) (hp : l.partner.getD 0 = 0) :
    ∃ res, bodyLen res = 52 ∧ loadComplete s = complete l.cmd l.status 0 res (planNote l.status l.sect (loadEnded l.status s)) := by
  have hst : (if ¬ l.status = St.ok then l.status else St.ok) = l.status := by
    split
    · rfl
    · exact Eq.symm (not_not.1 ‹_›)
  refine ⟨[(48, (s.plan.slot.map Bundle.digest).getD 0), (2, l.status), (2, 0)], rfl, ?_⟩
  simp only [loadComplete, hl, hf, hp, Bool.false_eq_true, if_false, hs, ne_eq, not_true_eq_false, setLoad_plan, hst]
  rw [loadEnded]
  rfl

/-! ## `PLAN_QUERY` and `PLAN_READ` (16_command_packets.md R628) -/

/-- Whether a command has answered is told by the dispatcher's state. -/
theorem answered_congr {h : Hdr} {b : Body} {st detail frame : Nat} {res : List (Nat × Nat)} {s t u : State} (hc : u.cmd = t.cmd)
    (ha : Answered h b st detail frame res s t) : Answered h b st detail frame res s u := by
  obtain ⟨r, hw, hr, ht, he⟩ := ha
  refine ⟨r, ?_, hr, ?_, ?_⟩
  · rw [hc, hw]
  · rw [tagHeld, hc]
    exact ht
  · rw [hc, he]

/-- A query answers with its result, notes OK, and touches nothing else. -/
theorem planAnswer_spec (dt : Nat) (h : Hdr) (b : Body) (res : List (Nat × Nat)) (s : State) :
    let t := planAnswer (hostCmd h b) res (taken h (tick dt s))
    Answered h b 0 0 (houseFrame (tick dt s)) res s t ∧ (rd t Reg.planLastStatus).toNat = 0x00FF0000
      ∧ t = { tick dt s with regs := t.regs, cmd := t.cmd } ∧ RegsBut (Reg.planLastStatus :: ringRegs) s t := by
  obtain ⟨hans, heq, hregs, -⟩ := answersWith_of (dt := dt) (h := h) (b := b) (s := s) 0 res
  intro t
  refine ⟨answered_congr (planNote_cmd ..) hans, ?_, regsCmd_trans heq ?_, fun a ha => ?_⟩
  · rw [show t = planNote 0 0xFF _ from rfl, rd_planNote_status]
    rfl
  · rw [show t = planNote 0 0xFF _ from rfl, planNote_eq]
  · rw [List.mem_cons, not_or] at ha
    rw [show t = planNote 0 0xFF _ from rfl, planNote_ok, rd_wr_ne ha.1, hregs a ha.2]

/-- The body of a reply that fits, as far as the registers it starts with. -/
theorem planQuery_registers (dt : Nat) (h : Hdr) (s : State) :
    ([Reg.planState, Reg.planLastStatus, Reg.planGenCommitted, Reg.planGenLoaded, Reg.planPatchGen].map fun a => (4, (rd (taken h (tick dt s)) a).toNat))
      = [Reg.planState, Reg.planLastStatus, Reg.planGenCommitted, Reg.planGenLoaded, Reg.planPatchGen].map fun a => (4, (rd s a).toNat) := by
  refine List.map_congr_left fun a ha => ?_
  rw [rd_accepted]
  revert a
  decide

theorem sectionEntries_accepted (dt : Nat) (h : Hdr) (s : State) (b : Bundle) (type mode : Nat) :
    sectionEntries (taken h (tick dt s)) b type mode = sectionEntries (tick dt s) b type mode := by
  unfold sectionEntries
  rw [taken_plan]

theorem fxPlanRead_none {s : State} (c : Cmd) (type mode first cnt : Nat) (h : s.plan.committed = none) :
    fxPlanRead c type mode first cnt s = planRefuse c St.planNone s := by
  rw [fxPlanRead, h]

theorem fxPlanRead_within {s : State} {b : Bundle} {es : List (Nat × Nat)} (c : Cmd) (type mode : Nat) {first cnt : Nat} (h : s.plan.committed = some b)
    (hes : sectionEntries s b type mode = some es) (hle : first + cnt ≤ es.length) :
    fxPlanRead c type mode first cnt s = planAnswer c ((es.drop first).take cnt) s := by
  simp only [fxPlanRead, h, hes]
  exact if_neg (Nat.not_lt.2 hle)

theorem fxPlanRead_beyond {s : State} {b : Bundle} (c : Cmd) (type mode : Nat) {first cnt : Nat} (h : s.plan.committed = some b)
    (hes : sectionEntries s b type mode = none ∨ ∃ es, sectionEntries s b type mode = some es ∧ es.length < first + cnt) :
    fxPlanRead c type mode first cnt s = planRefuse c St.planFormat s := by
  rcases hes with hes | ⟨es, hes, hlt⟩
  · simp only [fxPlanRead, h, hes]
  · simp only [fxPlanRead, h, hes]
    exact if_pos hlt

/-! ## The statement -/

/-- Settles O35: the verdict is that of the first failing step (`planVerdict_eq`); a load is refused, waits, or is copied, and ends as `loadEnded`; a query answers by `planAnswer_spec`. -/
theorem planLoadStopsAtTheFirstFailure : Obligations.PlanLoadStopsAtTheFirstFailure := by
  unfold Obligations.PlanLoadStopsAtTheFirstFailure
  intro fault at_ steps verdict
  have hverdict : ∀ s len, verdict s len = slotVerdict s len := by
    intro s len
    unfold slotVerdict verdict
    cases s.plan.slot with
    | none => rfl
    | some b => exact (planVerdict_eq s b len).symm
  refine ⟨?load, ?complete, ?idle, ?query, ?read⟩
  case load =>
    intro dt h len s hr
    rw [hverdict]
    have hv : slotVerdict (taken h (tick dt s)) len = slotVerdict s len := slotVerdict_accepted dt h s len
    have hcopies : loadCopies (taken h (tick dt s)) len = (decide ((slotVerdict s len).1 = 0) && forwards s && decide (modeNow s ≠ 5)) := by
      rw [loadCopies, hv, forwards_accepted, modeNow_accepted]
    have hpend : commitPending (taken h (tick dt s)) = commitPending s := by rw [commitPending, taken_plan, tick_plan, commitPending]
    have hload : (taken h (tick dt s)).plan.loading = s.plan.loading := by rw [taken_plan, tick_plan]
    refine ⟨fun hb => ?busy, fun hc hl hk => ?kept, fun hc hl hf hok hm => ?copied⟩
    case busy =>
      rw [← hpend, ← hload] at hb
      refine completes_fw rfl hr rfl (fxPlanLoad_busy _ len hb) ?_
      have href := planRefused_complete dt h (.planLoad len) (st := St.planBusy) 0 s (by decide) (by decide)
      exact ⟨href.answered, href.status, href.counted, href.frame, href.regs⟩
    case kept =>
      have hno : loadCopies (taken h (tick dt s)) len = false := by
        rw [hcopies]
        rcases hk with hk | hk | hk <;> simp [hk]
      refine completes_fw rfl hr rfl (fxPlanLoad_kept _ len (hpend.trans hc) (hload.trans hl) hno) ?_
      have hframe := (taken_planFrame h (tick dt s)).trans (loadUnderWay_planFrame (hostCmd h (.planLoad len)) len _)
      refine ⟨waits_of_cmd hr (loadUnderWay_cmd ..), load_loadUnderWay .., ⟨_, by rw [loadUnderWay_plan], rfl, ?_, ?_⟩, ?_, ?_, ?_⟩
      · rw [hv]
      · rw [hno]
        rfl
      · rw [loadUnderWay_plan, taken_plan, tick_plan]
      · exact hframe.withoutPair (by rw [loadUnderWay_pair, taken_pair])
      · intro a ha
        rw [List.mem_cons, not_or] at ha
        rw [rd_loadUnderWay _ _ _ ha.1, rd_accepted _ _ _ ha.2]
    case copied =>
      have hyes : loadCopies (taken h (tick dt s)) len = true := by
        rw [hcopies]
        simp [hf, hok, hm]
      obtain ⟨b, hb⟩ : ∃ b, s.plan.slot = some b := by
        rcases hb : s.plan.slot with _ | b
        · rw [slotVerdict, hb] at hok
          exact absurd hok (by simp)
        · exact ⟨b, rfl⟩
      refine completes_fw rfl hr rfl (fxPlanLoad_copied _ len (hpend.trans hc) (hload.trans hl) hyes (by rw [taken_plan, tick_plan, hb])) ?_
      refine ⟨waits_of_cmd hr (loadUnderWay_cmd ..), ⟨_, by rw [send_plan, loadUnderWay_plan], ?_⟩, b, hb, ?_⟩
      · rw [hyes]
        rfl
      · rw [send, loadUnderWay_pair, taken_pair, tick_pair]
  case complete =>
    intro dt s hp l hl ho hs hf hpart
    refine completes_only rfl rfl hp ?_
    obtain ⟨res, hlen, heq⟩ := loadComplete_here (s := tick dt s) (l := l) hl hs hf hpart
    rw [heq]
    generalize hu : planNote l.status l.sect (loadEnded l.status (tick dt s)) = u
    have hframe : PlanFrame (tick dt s) u := by
      rw [← hu]
      exact (loadEnded_planFrame ..).trans (.of_regs (planNote_eq ..))
    have hplan : u.plan = { s.plan with loading := none } := by rw [← hu, planNote_plan, loadEnded_plan, tick_plan]
    have hrd : ∀ a, a ≠ Reg.cmdStatus → a ≠ Reg.planLastStatus → a ≠ Reg.planRejects →
        rd (complete l.cmd l.status 0 res u) a = rd (loadEnded l.status (tick dt s)) a := by
      intro a h1 h2 h3
      rw [complete, rd_completeAt _ _ _ _ _ ho h1, ← hu, rd_planNote _ _ _ h2 h3]
    have hlast : rd (complete l.cmd l.status 0 res u) Reg.planLastStatus = BitVec.ofNat 32 (l.status + l.sect * 65536) := by
      rw [complete, rd_completeAt _ _ _ _ _ ho (by decide), ← hu, rd_planNote_status]
    refine ⟨⟨mkReply l.cmd.pkt l.status 0 (houseFrame u) res false, ?_, rfl, rfl, hlen⟩, ?_, ?_, ?_, ?_, ?_, ?_⟩
    · rw [complete, completeAt_waiting _ _ _ _ _ ho, ← hu, planNote_cmd, loadEnded_cmd, tick_cmd]
    · rw [getF, hrd _ (by decide) (by decide) (by decide), ← getF, load_loadEnded]
    · rw [getF, hlast, fld, BitVec.toNat_ofNat]
      omega
    · intro hst
      rw [getF, hlast, fld, BitVec.toNat_ofNat]
      omega
    · intro b hb
      rw [hrd _ (by decide) (by decide) (by decide), hrd _ (by decide) (by decide) (by decide), generation_loadEnded _ (s := tick dt s) hb,
        digest_loadEnded _ (s := tick dt s) hb]
      exact ⟨rfl, rfl⟩
    · rw [complete, completeAt_plan _ _ _ _ _ ho, hplan]
    · have hpair : (complete l.cmd l.status 0 res u).pair = s.pair := by
        rw [complete, completeAt_pair _ _ _ _ _ ho, ← hu, planNote_pair, loadEnded_pair, tick_pair]
      exact (hframe.trans (completeAt_planFrame _ _ _ _ _ ho)).withoutPair hpair
  case idle =>
    intro dt s hp hl
    refine completes_only rfl rfl hp ?_
    rw [loadComplete, tick_plan, hl]
  case query =>
    intro dt h s hr
    refine completes_fw rfl hr rfl rfl ?_
    obtain ⟨⟨r, hw, hreply, -, -⟩, hlast, heq, hregs⟩ := planAnswer_spec dt h .planQuery
      (([Reg.planState, Reg.planLastStatus, Reg.planGenCommitted, Reg.planGenLoaded, Reg.planPatchGen].map fun a => (4, (rd (taken h (tick dt s)) a).toNat))
        ++ [(48, regDigest (taken h (tick dt s)) (Reg.planDigestCommitted 0)), (48, regDigest (taken h (tick dt s)) (Reg.planDigestLoaded 0))]) s
    obtain ⟨-, htag, -, hst, -, -, hlen, -, -, hbody⟩ := hreply
    refine ⟨⟨r, hw, htag, hst, hlen, fun hf hl => ?_⟩, hlast, heq, hregs⟩
    obtain ⟨hres, -⟩ := hbody (show 32 < 116 by decide) hf hl
    rw [hres, planQuery_registers]
    rfl
  case read =>
    intro dt h type mode first cnt s hr b c refused
    have hcom : (taken h (tick dt s)).plan.committed = s.plan.committed := by rw [taken_plan, tick_plan]
    have hrefused : ∀ st, st ≠ 0 → st < 65536 → fxPlanRead (hostCmd h b) type mode first cnt (taken h (tick dt s)) = planRefuse (hostCmd h b) st (taken h (tick dt s))
        → refused st := by
      intro st h0 hst he
      refine completes_fw rfl hr rfl he ?_
      have href := planRefused_complete dt h b 0 s h0 hst
      exact ⟨href.answered, href.status, href.counted, href.frame, href.regs⟩
    refine ⟨fun hn => hrefused _ (by decide) (by decide) (fxPlanRead_none _ _ _ _ _ (hcom.trans hn)), fun x hx => ⟨fun es hes hle => ?_, fun hes => ?_⟩⟩
    · exact completes_fw rfl hr rfl (fxPlanRead_within _ type mode (hcom.trans hx) ((sectionEntries_accepted dt h s x type mode).trans hes) hle)
        (planAnswer_spec dt h b _ s)
    · refine hrefused _ (by decide) (by decide) (fxPlanRead_beyond _ type mode (hcom.trans hx) ?_)
      rw [sectionEntries_accepted]
      exact hes

end Sys2Proof.Machine
end

section
/-! Committing a plan and changing the mode (01_compiled_plan.md R40 to R56, R71): the checks, the pending change, its arming, its release and its discarding. -/

namespace Sys2Proof.Machine

/-! ## House frames (14_timebase_and_ptp.md R527) -/

theorem houseRate_pos (s : State) : 0 < (houseRate s).1 ∧ 0 < (houseRate s).2 := by
  unfold houseRate
  dsimp only
  split <;> omega

/-- A frame no earlier than the first at or after `t` starts no earlier than `t`. -/
theorem le_rateStart {r : Nat × Nat} {t n : Nat} (h1 : 0 < r.1) (h2 : 0 < r.2) (hn : rateFirst r t ≤ n) : t ≤ rateStart r n := by
  have hpos : 0 < r.2 * tickSec := Nat.mul_pos h2 (by decide)
  have hlt : t * r.1 + r.2 * tickSec - 1 < (n + 1) * (r.2 * tickSec) := (Nat.div_lt_iff_lt_mul hpos).1 (Nat.lt_succ_of_le hn)
  rw [Nat.add_mul, Nat.one_mul] at hlt
  rw [rateStart, ceilDiv, Nat.le_div_iff_mul_le h1, Nat.mul_assoc]
  omega

/-- A frame that the lead allows starts at least the lead ahead. -/
theorem le_frameStart {s : State} {lead n : Nat} (h : earliestFrame s lead ≤ n) : s.now + lead ≤ frameStart s n :=
  le_rateStart (houseRate_pos s).1 (houseRate_pos s).2 h

/-- APPLY_AT names a frame before the first that the lead allows (R821). -/
theorem applyFrame_late {s : State} {lead a : Nat} (h0 : a ≠ 0) (h : a < earliestFrame s lead) : applyFrame s lead a = none := by
  rw [applyFrame, if_neg h0]
  exact if_pos h

theorem applyFrame_inTime {s : State} {lead a : Nat} (h : a = 0 ∨ earliestFrame s lead ≤ a) :
    applyFrame s lead a = some (if a = 0 then earliestFrame s lead else a) := by
  by_cases h0 : a = 0
  · rw [applyFrame, if_pos h0, if_pos h0]
  · rw [applyFrame, if_neg h0, if_neg h0]
    exact if_neg (Nat.not_lt.2 (h.resolve_left h0))

/-- The frame that a command in time waits for is one that the lead allows. -/
theorem earliest_le_frame {s : State} {lead a : Nat} (h : a = 0 ∨ earliestFrame s lead ≤ a) : earliestFrame s lead ≤ if a = 0 then earliestFrame s lead else a := by
  split
  · exact le_rfl
  · exact h.resolve_left ‹_›

@[simp] theorem earliestFrame_accepted (dt : Nat) (h : Hdr) (s : State) (lead : Nat) : earliestFrame (taken h (tick dt s)) lead = earliestFrame (tick dt s) lead := by
  rw [earliestFrame, houseRate_accepted, taken_now, earliestFrame]

@[simp] theorem frameStart_accepted (dt : Nat) (h : Hdr) (s : State) (n : Nat) : frameStart (taken h (tick dt s)) n = frameStart (tick dt s) n := by
  rw [frameStart, houseRate_accepted, frameStart]

/-- Whether a first commit is held rests on the reference registers and the configuration (R49). -/
theorem commitHolds_accepted (dt : Nat) (h : Hdr) (s : State) : commitHolds (taken h (tick dt s)) = commitHolds s := by
  have href : refState (taken h (tick dt s)) = refState s := by rw [refState, getF, rd_accepted _ _ _ (by decide), refState, getF]
  have hconf : ∀ k, candE (taken h (tick dt s)) k = candE s k := fun k => by
    unfold candE refEntry
    rw [taken_ref, tick_ref]
  have hcand : ∀ k, candState (taken h (tick dt s)) k = candState s k := fun k => by
    rw [candState, getF, rd_accepted, candState, getF]
    simp only [ringRegs, candA, Reg.refCandStatus, Reg.cmdTail, Reg.cmdHead, Reg.cmdAccepted, Reg.cmdStatus, List.mem_cons, List.not_mem_nil, or_false]
    omega
  simp only [commitHolds, href, hconf, hcand]

/-! ## A change becomes pending (R71) -/

theorem wakeStart_eq (q : Nat) (s : State) : wakeStart q s = { s with regs := (wakeStart q s).regs, therm := (wakeStart q s).therm } := by
  unfold wakeStart
  dsimp only
  split <;> rfl

theorem rd_wakeStart_ne {a : Nat} (q : Nat) (s : State) (h : a ≠ Reg.pwrQuad) : rd (wakeStart q s) a = rd s a := by
  unfold wakeStart
  dsimp only
  split
  · exact rd_putB_ne h ..
  · exact (rd_putB_ne h ..).trans (rd_putB_ne h ..)

/-- Quadrants that start to wake move `PWR_QUAD` and the thermal state. -/
theorem wakeAll_eq (l : List Nat) (s : State) :
    l.foldl (fun s q => wakeStart q s) s = { s with regs := (l.foldl (fun s q => wakeStart q s) s).regs, therm := (l.foldl (fun s q => wakeStart q s) s).therm } := by
  induction l generalizing s with
  | nil => rfl
  | cons q l ih => rw [List.foldl_cons, ih, wakeStart_eq]

theorem rd_wakeAll_ne {a : Nat} (l : List Nat) (s : State) (h : a ≠ Reg.pwrQuad) : rd (l.foldl (fun s q => wakeStart q s) s) a = rd s a := by
  induction l generalizing s with
  | nil => rfl
  | cons q l ih => rw [List.foldl_cons, ih, rd_wakeStart_ne q s h]

section
variable (p : Change) (s : State)

theorem changePend_cmd : (changePend p s).cmd = s.cmd := by
  simp only [changePend, put64_cmd, putF_cmd, putPlan_cmd]
  rw [wakeAll_eq]

theorem changePend_take : (changePend p s).take = s.take := by
  simp only [changePend, put64_take, putF_take, putPlan_take]
  rw [wakeAll_eq]

theorem changePend_plan : (changePend p s).plan = { s.plan with pending := some { p with wake := changeWakes s p.kind p.mode } } := by
  simp only [changePend, put64_plan, putF_plan]
  rw [wakeAll_eq]
  rfl

theorem rd_planState_changePend : rd (changePend p s) Reg.planState = setFld (setFld (rd s Reg.planState) 10 2 1) 4 3 p.mode := by
  simp only [changePend]
  rw [rd_put64_ne (by decide) (by decide), rd_putF_same, rd_putF_same, ← rd_wakeAll_ne (changeWakes s p.kind p.mode) s (a := Reg.planState) (by decide)]
  rfl

theorem applyFrame_changePend : get64 (changePend p s) Reg.planApplyFrameLo = p.frame % 2 ^ 64 := get64_put64 ..

end

/-- The two bits of a field that holds 1. -/
theorem bits_of_fld_one {w : Word} (h : fld w 10 2 = 1) : bit w 10 = true ∧ bit w 11 = false := by
  unfold fld at h
  unfold bit fld
  refine ⟨?_, ?_⟩
  · rw [beq_iff_eq]
    omega
  · rw [beq_eq_false_iff_ne]
    omega

/-- Waiting does not rest on the time. -/
theorem waits_tick {dt : Nat} {h : Hdr} {s t : State} : Waits h (tick dt s) t ↔ Waits h s t := by
  unfold Waits
  rw [tick_cmd]

/-- What a change looks like that has become pending in an accepted command (R71). -/
structure Pends (dt : Nat) (h : Hdr) (p : Change) (s t : State) : Prop where
  waits : Waits h (tick dt s) t
  pending : getB t Reg.planState 10 = true
  armed : getB t Reg.planState 11 = false
  mode : getF t Reg.planState 4 3 = p.mode % 8
  frame : get64 t Reg.planApplyFrameLo = p.frame % 2 ^ 64
  change : ∃ w, t.plan.pending = some { p with wake := w }
  committed : t.plan.committed = s.plan.committed
  modeNow : modeNow t = modeNow (tick dt s)
  take : t.take = s.take

theorem pends_changePend {dt : Nat} {h : Hdr} {b : Body} {s v : State} (p : Change) (hr : Ready h b s) (hcmd : v.cmd = (taken h (tick dt s)).cmd)
    (hplan : v.plan = s.plan) (htake : v.take = s.take) (hst : rd v Reg.planState = rd s Reg.planState) : Pends dt h p s (changePend p v) := by
  have hfield : fld (rd (changePend p v) Reg.planState) 10 2 = 1 := by
    rw [rd_planState_changePend, fld_setFld_ne _ _ (by decide) (by decide), fld_setFld_same _ _ (by decide)]
    rfl
  obtain ⟨hpending, harmed⟩ := bits_of_fld_one hfield
  refine ⟨waits_tick.2 (waits_of_cmd hr ((changePend_cmd p v).trans hcmd)), hpending, harmed, ?_, applyFrame_changePend p v, ⟨changeWakes v p.kind p.mode, ?_⟩, ?_, ?_, ?_⟩
  · rw [getF, rd_planState_changePend, fld_setFld_same _ _ (by decide)]
    rfl
  · rw [changePend_plan]
  · rw [changePend_plan, hplan]
  · rw [Machine.modeNow, getF, rd_planState_changePend, fld_setFld_ne _ _ (by decide) (by decide), fld_setFld_ne _ _ (by decide) (by decide), hst]
    rfl
  · rw [changePend_take, htake]

/-- A message to the partner touches the messages alone. -/
theorem forward_eq (m : MirMsg) (s : State) : forward m s = { s with pair := (forward m s).pair } := by
  unfold forward
  split <;> rfl

theorem rd_forward (m : MirMsg) (s : State) (a : Nat) : rd (forward m s) a = rd s a := rd_congr (by rw [forward_eq]) a

/-- A change whose command is accepted and forwarded. -/
theorem pends_forwarded {dt : Nat} {h : Hdr} {b : Body} {s : State} (p : Change) (m : MirMsg) (hr : Ready h b s) :
    Pends dt h p s (changePend p (forward m (taken h (tick dt s)))) := by
  refine pends_changePend p hr ?_ ?_ ?_ ((rd_forward ..).trans (rd_accepted dt h s (by decide)))
  · rw [forward_eq]
  · rw [forward_eq, taken_plan, tick_plan]
  · rw [forward_eq, taken_take, tick_take]

/-! ## `PLAN_COMMIT` and `MODE_SET` (R40, R56) -/

theorem nbit_eq_false {n b : Nat} (h : n / 2 ^ b % 2 = 0) : nbit n b = false := by rw [nbit, h]; rfl

theorem nbit_eq_true {n b : Nat} (h : n / 2 ^ b % 2 = 1) : nbit n b = true := by rw [nbit, h]; rfl

/-- The checks of a change that a mode and a bundle pass or fail, in the order of R40, with what follows them. -/
def changeChecks (c : Cmd) (b : Bundle) (m : Nat) (es : List LayerEntry) (s t : State) : State :=
  if nbit b.modeMask m = false then planRefuse c St.planNoOverlay s
  else if s.plan.pending.isSome then planRefuse c St.planBusy s
  else if linebufOk (b.cfg m) es = false then planRefuse c St.planLinebuf s
  else t

/-- The frame of a change is settled and the change becomes pending, or is refused as too late. -/
def changeAt (c : Cmd) (k : ChangeKind) (m lead : Nat) (fromPlan : Bool) (s : State) : State :=
  match applyFrame s lead c.pkt.hdr.applyAt with
  | none => planRefuse c St.planLate s
  | some f => changePend (newChange c k m f fromPlan false s) (forward (.command (changeBody (newChange c k m f fromPlan false s)) f) s)

section
variable {s : State} {b : Bundle} {m : Nat} {es : List LayerEntry} (c : Cmd) (t : State)

theorem changeChecks_noOverlay (h : b.modeMask / 2 ^ m % 2 = 0) : changeChecks c b m es s t = planRefuse c St.planNoOverlay s := if_pos (nbit_eq_false h)

theorem changeChecks_busy (h : b.modeMask / 2 ^ m % 2 = 1) (hp : s.plan.pending.isSome = true) : changeChecks c b m es s t = planRefuse c St.planBusy s := by
  rw [changeChecks, if_neg (by rw [nbit_eq_true h]; decide), if_pos hp]

theorem changeChecks_linebuf (h : b.modeMask / 2 ^ m % 2 = 1) (hp : s.plan.pending = none) (hl : linebufOk (b.cfg m) es = false) :
    changeChecks c b m es s t = planRefuse c St.planLinebuf s := by
  rw [changeChecks, if_neg (by rw [nbit_eq_true h]; decide), if_neg (by rw [hp]; decide), if_pos hl]

theorem changeChecks_passed (h : b.modeMask / 2 ^ m % 2 = 1) (hp : s.plan.pending = none) (hl : linebufOk (b.cfg m) es = true) : changeChecks c b m es s t = t := by
  rw [changeChecks, if_neg (by rw [nbit_eq_true h]; decide), if_neg (by rw [hp]; decide), if_neg (by rw [hl]; decide)]

end

theorem fxPlanCommit_none {s : State} (c : Cmd) (flags mode : Nat) (h : getF s Reg.planState 8 2 ≠ 2 ∨ s.plan.slot = none) :
    fxPlanCommit c flags mode s = planRefuse c St.planNone s := by
  rcases hb : s.plan.slot with _ | b
  · rw [fxPlanCommit, hb]
  · simp only [fxPlanCommit, hb]
    exact if_pos (h.resolve_right (by rw [hb]; simp))

theorem fxPlanCommit_loaded {s : State} {b : Bundle} (c : Cmd) (flags mode : Nat) (h : getF s Reg.planState 8 2 = 2) (hb : s.plan.slot = some b) :
    let m := if mode = 0 then b.defaultMode else mode
    fxPlanCommit c flags mode s = changeChecks c b m (planGeometry b m) s
      (if (decide (modeNow s = 0) && commitHolds s) = true then changePend (newChange c .base m 0 (nbit flags 0) true s) s
       else changeAt c .base m (10 * tickMs) (nbit flags 0) s) := by
  simp only [fxPlanCommit, hb]
  exact if_neg (not_not.2 h)

theorem fxModeSet_none {s : State} (c : Cmd) (mode : Nat) (h : s.plan.committed = none ∨ modeNow s < 1 ∨ 4 < modeNow s) :
    fxModeSet c mode s = planRefuse c St.planNone s := by
  rcases hb : s.plan.committed with _ | b
  · rw [fxModeSet, hb]
  · simp only [fxModeSet, hb]
    refine if_pos ?_
    rw [inMode, Bool.and_eq_false_iff, decide_eq_false_iff_not, decide_eq_false_iff_not]
    rcases h with h | h | h
    · rw [hb] at h
      cases h
    · exact .inl (Nat.not_le.2 h)
    · exact .inr (Nat.not_le.2 h)

theorem fxModeSet_committed {s : State} {b : Bundle} (c : Cmd) (mode : Nat) (h1 : 1 ≤ modeNow s) (h4 : modeNow s ≤ 4) (hb : s.plan.committed = some b) :
    fxModeSet c mode s = changeChecks c b mode (geoAfter s mode) s (changeAt c .modeSet mode (2 * tickMs) false s) := by
  simp only [fxModeSet, hb]
  refine if_neg ?_
  rw [inMode, decide_eq_true h1, decide_eq_true h4]
  decide

/-- The geometry after a mode change rests on the committed plan and the compositors. -/
theorem geoAfter_accepted (dt : Nat) (h : Hdr) (s : State) (mode : Nat) : geoAfter (taken h (tick dt s)) mode = geoAfter (tick dt s) mode := by
  have hgeo : ∀ e, planGeo (taken h (tick dt s)) mode e = planGeo (tick dt s) mode e := fun e => by
    unfold planGeo
    rw [taken_comp, taken_plan]
  unfold geoAfter
  rw [taken_comp, taken_plan, funext hgeo]

/-- A change whose APPLY_AT is too early is refused. -/
theorem changeAt_late {s : State} {lead : Nat} (c : Cmd) (k : ChangeKind) (m : Nat) (fromPlan : Bool) (h0 : c.pkt.hdr.applyAt ≠ 0)
    (h : c.pkt.hdr.applyAt < earliestFrame s lead) : changeAt c k m lead fromPlan s = planRefuse c St.planLate s := by
  rw [changeAt, applyFrame_late h0 h]

/-- A change in time becomes pending for its frame. -/
theorem changeAt_inTime {dt lead : Nat} {h : Hdr} {b : Body} {s : State} (k : ChangeKind) (m : Nat) (fromPlan : Bool) (hr : Ready h b s)
    (ht : h.applyAt = 0 ∨ earliestFrame (tick dt s) lead ≤ h.applyAt) :
    ∃ p, p.kind = k ∧ p.mode = m ∧ p.frame = (if h.applyAt = 0 then earliestFrame (tick dt s) lead else h.applyAt) ∧ p.armed = false ∧ p.applied = false
      ∧ p.cmd.pkt.hdr.tag = h.tag ∧ Pends dt h p s (changeAt (hostCmd h b) k m lead fromPlan (taken h (tick dt s))) := by
  rw [← earliestFrame_accepted dt h] at ht ⊢
  rw [changeAt, applyFrame_inTime ht]
  exact ⟨_, rfl, rfl, rfl, rfl, rfl, rfl, pends_forwarded _ _ hr⟩

/-! ## Arming, release and discard (R41, R49, R52) -/

theorem planArm_idle {s : State} (h : s.plan.pending = none) : planArm s = s := by rw [planArm, h]

theorem planArm_kept {s : State} {p : Change} (hp : s.plan.pending = some p) (h : server s ≠ 1 ∨ p.held = true ∨ p.armed = true) : planArm s = s := by
  simp only [planArm, hp]
  exact if_pos h

theorem planArm_arms {s : State} {p : Change} (hp : s.plan.pending = some p) (hs : server s = 1) (hh : p.held = false) (ha : p.armed = false)
    (ho : p.cmd.origin ≠ .forward) : planArm s = putB Reg.planState 11 true (putPlan (fun x => { x with pending := some { p with armed := true } }) s) := by
  simp only [planArm, hp]
  rw [if_neg (by simp [hs, hh, ha]), if_neg ho]

theorem holdRelease_idle {s : State} (h : s.plan.pending = none) : holdRelease s = s := by rw [holdRelease, h]

theorem holdRelease_kept {s : State} {p : Change} (hp : s.plan.pending = some p) (h : p.held = false ∨ commitHolds s = true) : holdRelease s = s := by
  simp only [holdRelease, hp]
  exact if_pos h

/-- The frame of a change that is no longer held. -/
def releaseTo (p : Change) (f : Nat) (s : State) : State :=
  put64 Reg.planApplyFrameLo f (putPlan (fun x => { x with pending := some { p with held := false, frame := f, start := frameStart s f } }) s)

theorem holdRelease_releases {s : State} {p : Change} (hp : s.plan.pending = some p) (hh : p.held = true) (hc : commitHolds s = false) :
    let f := max p.asked (earliestFrame s (10 * tickMs))
    holdRelease s = forward (.command (changeBody p) f) (releaseTo p f s) := by
  have hf : (if earliestFrame s (10 * tickMs) ≤ p.asked then p.asked else earliestFrame s (10 * tickMs)) = max p.asked (earliestFrame s (10 * tickMs)) := by
    rw [max_def_lt]
    split
    · exact (if_neg (Nat.not_lt.2 ‹_›)).symm
    · exact (if_pos (Nat.not_le.1 ‹_›)).symm
  simp only [holdRelease, hp]
  rw [if_neg (by simp [hh, hc]), hf]
  rfl

@[simp] theorem planIdle_plan (s : State) : (planIdle s).plan = { s.plan with pending := none } := rfl
@[simp] theorem planIdle_cmd (s : State) : (planIdle s).cmd = s.cmd := rfl
@[simp] theorem planIdle_pair (s : State) : (planIdle s).pair = s.pair := rfl

theorem rd_planIdle_ne {a : Nat} (s : State) (h : a ≠ Reg.planState) : rd (planIdle s) a = rd s a := by
  rw [planIdle, rd_putF_ne h, rd_putF_ne h]
  rfl

theorem rd_planState_planIdle (s : State) : rd (planIdle s) Reg.planState = setFld (setFld (rd s Reg.planState) 10 2 0) 4 3 0 := by
  rw [planIdle, rd_putF_same, rd_putF_same]
  rfl

/-- A change of this unit's host ends: noted, and answered with its status. -/
theorem changeCancel_host {s : State} {p : Change} (st : Nat) (hp : s.plan.pending = some p) (ho : p.cmd.origin = .host) (hs : server s = 1) :
    changeCancel st s = completeAt p.cmd st 0 (houseFrame (planIdle s)) [] (planNote st 0xFF (planIdle s)) := by
  have hserver : server (planNote st 0xFF (planIdle s)) = 1 := by
    rw [server_congr ((rd_planNote _ _ _ (by decide) (by decide)).trans (rd_planIdle_ne s (by decide))), hs]
  simp only [changeCancel, hp]
  rw [if_neg (by rw [ho]; decide), finishAt_served _ _ _ (by rw [hserver]; decide)]

theorem fxPlanDiscard_idle {s : State} (c : Cmd) (hp : s.plan.pending = none) : fxPlanDiscard c s = done c (planNote St.ok 0xFF (slotEmpty s)) := by
  rw [fxPlanDiscard, hp]

theorem fxPlanDiscard_ends {s : State} {p : Change} (c : Cmd) (hp : s.plan.pending = some p) (hk : p.kind = .base) (ha : p.applied = false)
    (hw : p.held = true ∨ s.now < frameStart s (p.frame - 1)) :
    fxPlanDiscard c s = done c (planNote St.ok 0xFF (forward (.command .planDiscard 0) (changeCancel St.planAborted s))) := by
  simp only [fxPlanDiscard, hp]
  rw [if_neg (not_not.2 hk), if_pos ⟨ha, hw⟩]

theorem fxPlanDiscard_late {s : State} {p : Change} (c : Cmd) (hp : s.plan.pending = some p) (hk : p.kind = .base)
    (hw : p.applied = true ∨ (p.held = false ∧ frameStart s (p.frame - 1) ≤ s.now)) : fxPlanDiscard c s = planRefuse c St.planLate s := by
  simp only [fxPlanDiscard, hp]
  rw [if_neg (not_not.2 hk), if_neg]
  rintro ⟨ha, hn⟩
  rcases hw with hw | ⟨hh, hs⟩
  · rw [ha] at hw
    cases hw
  · rw [hh] at hn
    exact absurd (hn.resolve_left (by decide)) (Nat.not_lt.2 hs)

/-- With no load under way the slot empties, and LOAD shows it. -/
theorem slotEmpty_noLoad {s : State} (hl : s.plan.loading = none) :
    slotEmpty s = setLoad 0 (putDigest (Reg.planDigestLoaded 0) 0 (wr Reg.planGenLoaded 0 (putPlan (fun x => { x with slot := none, loading := none }) s))) := by
  rw [slotEmpty, hl]
  rfl

/-- What an emptied slot shows in an accepted command that then completes OK (R52, R71). -/
theorem slotEmpty_spec {dt : Nat} {h : Hdr} {b : Body} {s : State} (hl : s.plan.loading = none) :
    let t := done (hostCmd h b) (planNote St.ok 0xFF (slotEmpty (taken h (tick dt s))))
    Replied dt h b 0 s t ∧ getF t Reg.planState 8 2 = 0 ∧ t.plan = { s.plan with slot := none } ∧ rd t Reg.planGenLoaded = 0 ∧ rd t (Reg.planDigestLoaded 0) = 0
      ∧ t = { tick dt s with regs := t.regs, cmd := t.cmd, evq := t.evq, plan := t.plan } := by
  have hl' : (taken h (tick dt s)).plan.loading = none := by rw [taken_plan, tick_plan, hl]
  generalize hu : planNote St.ok 0xFF (slotEmpty (taken h (tick dt s))) = u
  rw [slotEmpty_noLoad hl'] at hu
  have hcmd : u.cmd = (taken h (tick dt s)).cmd := by
    rw [← hu, planNote_cmd, setLoad_cmd, putDigest_cmd]
    rfl
  have hplan : u.plan = { s.plan with slot := none } := by
    rw [← hu, planNote_plan, setLoad_plan, putDigest_plan, wr_plan, putPlan, taken_plan, tick_plan, ← hl]
  have hpair : u.pair = s.pair := by
    rw [← hu, planNote_pair, setLoad_pair, putDigest_pair, wr_pair, putPlan_pair, taken_pair, tick_pair]
  have hframe : PlanFrame (tick dt s) u := by
    rw [← hu]
    exact (((((taken_planFrame ..).trans (putPlan_planFrame ..)).trans (.of_regs rfl)).trans (.of_regs (putDigest_eq ..))).trans (setLoad_planFrame ..)).trans
      (.of_regs (planNote_eq ..))
  have hrd : ∀ a, a ≠ Reg.planLastStatus → a ≠ Reg.planState →
      rd u a = rd (putDigest (Reg.planDigestLoaded 0) 0 (wr Reg.planGenLoaded 0 (putPlan (fun x => { x with slot := none, loading := none }) (taken h (tick dt s))))) a := by
    intro a h1 h2
    rw [← hu, planNote_ok, rd_wr_ne h1, rd_setLoad_ne _ _ h2]
  have hdone : ∀ a, a ≠ Reg.cmdStatus → rd (done (hostCmd h b) u) a = rd u a := fun a ha => rd_completeAt _ _ _ _ _ rfl ha
  refine ⟨answered_complete 0 0 [] hcmd ?_ hframe.now, ?_, ?_, ?_, ?_, ?_⟩
  · rw [hrd _ (by decide) (by decide), rd_putDigest_ne _ _ (by decide), rd_wr_ne (by decide)]
    exact rd_accepted dt h s (by decide)
  · rw [getF, hdone _ (by decide), ← hu, planNote_ok, rd_wr_ne (by decide), ← getF, load_setLoad _ (by decide)]
  · exact (completeAt_plan _ _ _ _ _ rfl).trans hplan
  · rw [hdone _ (by decide), hrd _ (by decide) (by decide), rd_putDigest_ne _ _ (by decide), rd_wr_same]
  · rw [hdone _ (by decide), hrd _ (by decide) (by decide), rd_putDigest_first]
    rfl
  · have hpair' : (done (hostCmd h b) u).pair = s.pair := by rw [done, complete, completeAt_pair _ _ _ _ _ rfl, hpair]
    exact (hframe.trans (completeAt_planFrame _ _ _ _ _ rfl)).withoutPair hpair'

/-- A pending commit of this unit's host that ends by `PLAN_DISCARD`: both commands complete, and nothing is pending (R52, R71). -/
theorem discard_spec {dt : Nat} {h : Hdr} {b : Body} {s : State} {p : Change} (hp : s.plan.pending = some p) (ho : p.cmd.origin = .host) (hs : server s = 1)
    (hf : forwards s = false) :
    let t := done (hostCmd h b) (planNote St.ok 0xFF (forward (.command .planDiscard 0) (changeCancel St.planAborted (taken h (tick dt s)))))
    t.plan = { s.plan with pending := none }
      ∧ (t.cmd.waiting.drop s.cmd.waiting.length).map (fun r => (r.tag, r.status)) = [(p.cmd.pkt.hdr.tag, 0x0210), (h.tag, 0)]
      ∧ getF t Reg.planState 4 3 = 0 ∧ getF t Reg.planState 10 2 = 0 ∧ modeNow t = modeNow s := by
  have hcancel := changeCancel_host (s := taken h (tick dt s)) St.planAborted (by rw [taken_plan, tick_plan, hp]) ho (by rw [server_accepted, hs])
  generalize hv : changeCancel St.planAborted (taken h (tick dt s)) = v at hcancel
  have hrd : ∀ a, a ≠ Reg.cmdStatus → a ≠ Reg.planLastStatus → a ≠ Reg.planRejects → rd v a = rd (planIdle (taken h (tick dt s))) a := by
    intro a h1 h2 h3
    rw [hcancel, rd_completeAt _ _ _ _ _ ho h1, rd_planNote _ _ _ h2 h3]
  have hplan : v.plan = { s.plan with pending := none } := by
    rw [hcancel, completeAt_plan _ _ _ _ _ ho, planNote_plan, planIdle_plan, taken_plan, tick_plan]
  have hwaiting : v.cmd.waiting = s.cmd.waiting ++ [mkReply p.cmd.pkt St.planAborted 0 (houseFrame (planIdle (taken h (tick dt s)))) [] false] := by
    rw [hcancel, completeAt_waiting _ _ _ _ _ ho, planNote_cmd, planIdle_cmd, taken_cmd, tick_cmd]
  have hquiet : forward (.command .planDiscard 0) v = v := by
    have hno : forwards v = false := by
      rw [forwards_congr (hrd _ (by decide) (by decide) (by decide)), ← hf, ← forwards_accepted dt h s]
      · exact forwards_congr (rd_planIdle_ne _ (by decide)) rfl
      · rw [hcancel, completeAt_pair _ _ _ _ _ ho, planNote_pair]
    rw [forward, hno]
    rfl
  rw [hquiet]
  have hstate : rd (done (hostCmd h b) (planNote St.ok 0xFF v)) Reg.planState = setFld (setFld (rd s Reg.planState) 10 2 0) 4 3 0 := by
    rw [done, complete, rd_completeAt _ _ _ _ _ rfl (by decide), planNote_ok, rd_wr_ne (by decide), hrd _ (by decide) (by decide) (by decide),
      rd_planState_planIdle, rd_accepted _ _ _ (by decide)]
  refine ⟨?_, ?_, ?_, ?_, ?_⟩
  · rw [done, complete, completeAt_plan _ _ _ _ _ rfl, planNote_plan, hplan]
  · rw [done, complete, completeAt_waiting _ _ _ _ _ rfl, planNote_cmd, hwaiting, List.append_assoc, List.drop_left]
    rfl
  · rw [getF, hstate, fld_setFld_same _ _ (by decide)]
    rfl
  · rw [getF, hstate, fld_setFld_ne _ _ (by decide) (by decide), fld_setFld_same _ _ (by decide)]
    rfl
  · rw [modeNow, getF, hstate, fld_setFld_ne _ _ (by decide) (by decide), fld_setFld_ne _ _ (by decide) (by decide)]
    rfl

/-! ## The statement -/

/-- Settles O36: a change passes `changeChecks` and pends at its frame (`changeAt_inTime`), and is armed, released or discarded by the lemmas of R41, R49 and R52. -/
theorem changesAreCheckedAndPend : Obligations.ChangesAreCheckedAndPend := by
  unfold Obligations.ChangesAreCheckedAndPend
  intro refused frameFor pends
  have hrefused : ∀ {i dt h b s st}, hostPacket i = some (dt, { hdr := h, body := b }) → Ready h b s → fastPath b = false → st ≠ 0 → st < 65536 →
      fwExecute (hostCmd h b) (taken h (tick dt s)) = planRefuse (hostCmd h b) st (taken h (tick dt s)) → Completes i s (refused dt h b st s) := by
    intro i dt h b s st hi hr hf h0 hst hx
    have href := planRefused_complete dt h b 0 s h0 hst
    exact completes_fw hi hr hf hx ⟨href.answered, href.low hst, href.counted, href.frame, href.regs, href.ring⟩
  have hpends : ∀ {dt h p s t}, Pends dt h p s t → p.armed = false → p.applied = false → p.cmd.pkt.hdr.tag = h.tag → pends h p.kind p.mode p.frame (tick dt s) t :=
    fun hp ha hn ht => ⟨hp.waits, hp.pending, hp.armed, hp.mode, hp.frame, hp.change.elim fun w hw => ⟨_, hw, rfl, rfl, rfl, ha, hn, ht⟩, hp.committed, hp.modeNow, hp.take⟩
  refine ⟨?commit, ?mode, ?pending, ?discard⟩
  case commit =>
    intro dt h flags mode s hr u b c
    have hload : getF (taken h (tick dt s)) Reg.planState 8 2 = getF s Reg.planState 8 2 := by rw [getF, rd_accepted _ _ _ (by decide), getF]
    have hplan : (taken h (tick dt s)).plan = s.plan := by rw [taken_plan, tick_plan]
    refine ⟨fun hn => ?_, ?_⟩
    · exact hrefused rfl hr rfl (by decide) (by decide) (fxPlanCommit_none _ _ _ (by rw [hload, hplan]; exact hn))
    intro h2 x hx m
    have hcommit := fxPlanCommit_loaded (hostCmd h b) flags mode (hload.trans h2) (by rw [hplan, hx])
    rw [modeNow_accepted, commitHolds_accepted] at hcommit
    change fxPlanCommit _ _ _ _ = changeChecks _ x m _ _ _ at hcommit
    refine ⟨fun hm => ?_, fun hm => ⟨fun hb => ?_, fun hn hl => ?_, fun hn hl => ⟨fun hh => ?_, fun hh h0 hlate => ?_, fun hh hin => ?_⟩⟩⟩
    · exact hrefused rfl hr rfl (by decide) (by decide) (hcommit.trans (changeChecks_noOverlay _ _ hm))
    · exact hrefused rfl hr rfl (by decide) (by decide) (hcommit.trans (changeChecks_busy _ _ hm (by rw [hplan, hb])))
    · exact hrefused rfl hr rfl (by decide) (by decide) (hcommit.trans (changeChecks_linebuf _ _ hm (by rw [hplan, hn]) hl))
    all_goals rw [changeChecks_passed _ _ hm (by rw [hplan, hn]) hl] at hcommit
    · rw [if_pos (by simp [hh])] at hcommit
      refine completes_fw rfl hr rfl hcommit ?_
      have hp := pends_changePend (newChange (hostCmd h b) .base m 0 (nbit flags 0) true (taken h (tick dt s))) hr rfl hplan
        (by rw [taken_take, tick_take]) (rd_accepted dt h s (by decide))
      exact ⟨hpends hp rfl rfl rfl, hp.change.elim fun w hw => ⟨_, hw, rfl⟩⟩
    all_goals rw [if_neg (by rcases hh with hh | hh <;> simp [hh])] at hcommit
    · refine hrefused rfl hr rfl (by decide) (by decide) (hcommit.trans (changeAt_late _ _ _ _ h0 ?_))
      rw [earliestFrame_accepted]
      exact hlate
    · obtain ⟨p, hk, hmode, hframe, ha, hn', ht, hp⟩ := changeAt_inTime (lead := 10 * tickMs) .base m (nbit flags 0) hr hin
      have hthis := hpends hp ha hn' ht
      rw [hk, hmode, hframe] at hthis
      exact completes_fw rfl hr rfl hcommit ⟨hthis, le_frameStart (s := u) (earliest_le_frame hin)⟩
  case mode =>
    intro dt h mode s hr u b c
    have hplan : (taken h (tick dt s)).plan = s.plan := by rw [taken_plan, tick_plan]
    refine ⟨fun hn => ?_, fun h1 h4 x hx => ?_⟩
    · exact hrefused rfl hr rfl (by decide) (by decide) (fxModeSet_none _ _ (by rw [hplan, modeNow_accepted]; exact hn))
    have hset := fxModeSet_committed (s := taken h (tick dt s)) (hostCmd h b) mode (by rw [modeNow_accepted]; exact h1) (by rw [modeNow_accepted]; exact h4)
      (by rw [hplan, hx])
    refine ⟨fun hm => ?_, fun hm hb => ?_, fun hm hn hl => ?_⟩
    · exact hrefused rfl hr rfl (by decide) (by decide) (hset.trans (changeChecks_noOverlay _ _ hm))
    · exact hrefused rfl hr rfl (by decide) (by decide) (hset.trans (changeChecks_busy _ _ hm (by rw [hplan, hb])))
    rw [changeChecks_passed _ _ hm (by rw [hplan, hn]) (by rw [geoAfter_accepted, hl])] at hset
    refine ⟨fun h0 hlate => ?_, fun hin => ?_⟩
    · refine hrefused rfl hr rfl (by decide) (by decide) (hset.trans (changeAt_late _ _ _ _ h0 ?_))
      rw [earliestFrame_accepted]
      exact hlate
    · obtain ⟨p, hk, hmode, hframe, ha, hn', ht, hp⟩ := changeAt_inTime (lead := 2 * tickMs) .modeSet mode false hr hin
      have hthis := hpends hp ha hn' ht
      rw [hk, hmode, hframe] at hthis
      exact completes_fw rfl hr rfl hset hthis
  case pending =>
    intro dt s hp
    refine ⟨fun p hpend => ⟨fun hs hh ha ho => ?_, fun hk => ?_, fun hk => ?_, ?_⟩, fun hn => ⟨?_, ?_⟩⟩
    · refine completes_only rfl rfl hp ?_
      rw [planArm_arms (s := tick dt s) hpend hs hh ha ho]
      refine ⟨getB_putB_same _ _ _ (by decide), by rw [putB_plan]; rfl, ?_, fun a ha => ?_⟩
      · rw [putB]
        generalize setBit _ _ _ = v
        rfl
      · rw [rd_putB_ne (by simpa using ha)]
        rfl
    · exact completes_only rfl rfl hp (planArm_kept (s := tick dt s) hpend hk)
    · exact completes_only rfl rfl hp (holdRelease_kept (s := tick dt s) hpend hk)
    · intro hh hc f
      refine completes_only rfl rfl hp ?_
      have hrel := holdRelease_releases (s := tick dt s) hpend hh hc
      have hf : max p.asked (earliestFrame (tick dt s) (10 * tickMs)) = f := rfl
      rw [hf] at hrel
      rw [hrel]
      refine ⟨?_, ?_, ?_, fun a ha => ?_⟩
      · rw [forward_eq]
        rfl
      · rw [get64, rd_forward, rd_forward, ← get64, releaseTo, get64_put64]
      · rw [forward_eq]
        rfl
      · simp only [List.mem_cons, List.not_mem_nil, or_false, not_or] at ha
        rw [rd_forward, releaseTo, rd_put64_ne ha.1 ha.2]
        rfl
    · exact completes_only rfl rfl hp (planArm_idle (s := tick dt s) hn)
    · exact completes_only rfl rfl hp (holdRelease_idle (s := tick dt s) hn)
  case discard =>
    intro dt h s hr
    have hplan : (taken h (tick dt s)).plan = s.plan := by rw [taken_plan, tick_plan]
    refine ⟨fun hn hl => ?_, fun p hpend hk ho hs hf => ⟨fun ha hw => ?_, fun hw => ?_⟩⟩
    · exact completes_fw rfl hr rfl (fxPlanDiscard_idle _ (by rw [hplan, hn])) (slotEmpty_spec hl)
    all_goals have hstart : frameStart (taken h (tick dt s)) (p.frame - 1) = frameStart s (p.frame - 1) := frameStart_accepted dt h s _
    · refine completes_fw rfl hr rfl (fxPlanDiscard_ends _ (by rw [hplan, hpend]) hk ha ?_) (discard_spec hpend ho hs hf)
      rw [hstart, taken_now]
      exact hw
    · refine hrefused rfl hr rfl (by decide) (by decide) (fxPlanDiscard_late _ (by rw [hplan, hpend]) hk ?_)
      rw [hstart, taken_now]
      exact hw

end Sys2Proof.Machine
end

section
/-! Patching a plan (01_compiled_plan.md R60 to R65): the checks of a patch, its wait for its house frame, and what it changes and leaves alone when it takes effect. -/

namespace Sys2Proof.Machine

/-! ## The tables after a patch (R60) -/

theorem setNth_eq_set {α : Type} (v : α) (l : List α) (n : Nat) : setNth v l n = l.set n v := by
  induction l generalizing n with
  | nil => rfl
  | cons x xs ih =>
    cases n with
    | zero => rfl
    | succ n => simp [setNth, ih]

theorem patchEntry_air (n v : Nat) (t : Tables) : patchEntry 14 n v t = { t with air := t.air.set n v } := by
  rw [patchEntry, setNth_eq_set]

/-- The tables after entries of the on-air section, the first of them at `first + k`. -/
def airPatched (first k : Nat) (es : List Nat) (t : Tables) : Tables :=
  ((upto k es.length).zip es).foldl (fun t x => patchEntry 14 (first + x.1) x.2 t) t

theorem airPatched_cons (first k e : Nat) (es : List Nat) (t : Tables) :
    airPatched first k (e :: es) t = airPatched first (k + 1) es { t with air := t.air.set (first + k) e } := by
  rw [← patchEntry_air]
  rfl

/-- Entries of the on-air section change that section alone, and keep its length. -/
theorem airPatched_frame (first k : Nat) (es : List Nat) (t : Tables) :
    airPatched first k es t = { t with air := (airPatched first k es t).air } ∧ (airPatched first k es t).air.length = t.air.length := by
  induction es generalizing k t with
  | nil => exact ⟨rfl, rfl⟩
  | cons e es ih =>
    obtain ⟨heq, hlen⟩ := ih (k + 1) { t with air := t.air.set (first + k) e }
    rw [airPatched_cons]
    exact ⟨by rw [heq], hlen.trans List.length_set⟩

/-- The entries stand one after the other from `first + k` on; every other mark is as before. -/
theorem airPatched_air (first k n : Nat) (es : List Nat) (t : Tables) (hn : n < t.air.length) :
    (airPatched first k es t).air[n]? = if first + k ≤ n ∧ n < first + k + es.length then es[n - (first + k)]? else t.air[n]? := by
  induction es generalizing k t with
  | nil =>
    rw [if_neg (by simp)]
    rfl
  | cons e es ih =>
    rw [airPatched_cons, ih (k + 1) _ (by simpa using hn), List.getElem?_set, List.length_cons]
    rcases Nat.lt_trichotomy n (first + k) with hlt | heq | hgt
    · rw [if_neg (by omega), if_neg (by omega), if_neg (by omega)]
    · subst heq
      rw [if_neg (by omega), if_pos rfl, if_pos hn, if_pos (by omega), Nat.sub_self]
      rfl
    · obtain ⟨d, rfl⟩ : ∃ d, n = first + k + 1 + d := ⟨n - (first + k + 1), by omega⟩
      rw [if_neg (show ¬ first + k = first + k + 1 + d by omega)]
      have hsub : first + k + 1 + d - (first + k) = d + 1 := by omega
      have hsub' : first + k + 1 + d - (first + (k + 1)) = d := by omega
      rw [hsub, hsub', List.getElem?_cons_succ]
      exact if_congr (by omega) rfl rfl

/-! ## Accepting a patch (R60, R62) -/

theorem mem_insPatch (p : Patch) (l : List Patch) : p ∈ insPatch p l := by
  induction l with
  | nil => simp [insPatch]
  | cons x xs ih =>
    rw [insPatch]
    split
    · simp
    · exact List.mem_cons_of_mem _ ih

theorem length_insPatch (p : Patch) (l : List Patch) : (insPatch p l).length = l.length + 1 := by
  induction l with
  | nil => rfl
  | cons x xs ih =>
    rw [insPatch]
    split
    · rfl
    · rw [List.length_cons, ih, List.length_cons]

/-- Only the plan decides what the tables will be at a frame. -/
theorem tablesAt_congr {s t : State} (h : t.plan = s.plan) (frame : Nat) : tablesAt t frame = tablesAt s frame := by rw [tablesAt, h, tablesAt]

section
variable {s : State} {x : Bundle} (c : Cmd) {rs : List PatchRec} {structOk : Bool}

theorem fxPlanPatch_none (h : s.plan.committed = none) : fxPlanPatch c rs structOk s = planRefuse c St.planNone s := by rw [fxPlanPatch, h]

theorem fxPlanPatch_locked (hx : s.plan.committed = some x) (hl : getB s Reg.planState 13 = true) : fxPlanPatch c rs structOk s = planRefuse c St.planLocked s := by
  simp only [fxPlanPatch, hx]
  exact if_pos hl

/-- The structure of a patch is wrong: its records do not fill the body, or one holds no entry or another number of them than it says (R62). -/
def PatchWrong (rs : List PatchRec) (structOk : Bool) : Prop := structOk = false ∨ rs = [] ∨ ∃ r ∈ rs, r.count = 0 ∨ r.entries.length ≠ r.count

theorem patchWrong_iff : (structOk = false ∨ rs.isEmpty ∨ (rs.any fun r => decide (r.count = 0) || decide (r.entries.length ≠ r.count))) ↔ PatchWrong rs structOk := by
  simp [PatchWrong]

theorem fxPlanPatch_wrong (hx : s.plan.committed = some x) (hl : getB s Reg.planState 13 = false) (hw : PatchWrong rs structOk) :
    fxPlanPatch c rs structOk s = planRefuse c St.planFormat s := by
  simp only [fxPlanPatch, hx, hl]
  exact if_pos (patchWrong_iff.2 hw)

/-- A patch of the right structure, before its records are checked. -/
theorem fxPlanPatch_records (hx : s.plan.committed = some x) (hl : getB s Reg.planState 13 = false) (hw : ¬ PatchWrong rs structOk) :
    fxPlanPatch c rs structOk s = match patchBad x (tablesAt s ((applyFrame s tickMs c.pkt.hdr.applyAt).getD (earliestFrame s tickMs))) 0 rs with
      | some k => complete c St.planFormat k [] (planNote St.planFormat 0xFF s)
      | none => match applyFrame s tickMs c.pkt.hdr.applyAt with
        | none => planRefuse c St.planLate s
        | some f => forward (.command c.pkt.body f) (putPlan (fun y => { y with patches := insPatch { cmd := c, records := rs, frame := f, start := frameStart s f } y.patches }) s) := by
  simp only [fxPlanPatch, hx, hl]
  exact (if_neg Bool.false_ne_true).trans (if_neg (mt patchWrong_iff.1 hw))

end

/-- An accepted patch stands in the list, and its command waits. -/
theorem patchStored_spec {dt : Nat} {h : Hdr} {b : Body} {s : State} (p : Patch) (m : MirMsg) (hr : Ready h b s) :
    let t := forward m (putPlan (fun y => { y with patches := insPatch p y.patches }) (taken h (tick dt s)))
    Waits h s t ∧ t.plan = { s.plan with patches := insPatch p s.plan.patches } ∧ t = { tick dt s with regs := t.regs, cmd := t.cmd, plan := t.plan, pair := t.pair }
      ∧ RegsBut ringRegs s t := by
  generalize hv : putPlan (fun y => { y with patches := insPatch p y.patches }) (taken h (tick dt s)) = v
  have hcmd : v.cmd = (taken h (tick dt s)).cmd := by rw [← hv, putPlan_cmd]
  have hplan : v.plan = { s.plan with patches := insPatch p s.plan.patches } := by rw [← hv, putPlan, taken_plan, tick_plan]
  have hevq : v.evq = (tick dt s).evq := by rw [← hv, putPlan_evq, taken_evq]
  have hforward := forward_eq m v
  refine ⟨waits_of_cmd (dt := dt) hr ?_, ?_, ?_, fun a ha => ?_⟩
  · rw [hforward, hcmd]
  · rw [hforward, hplan]
  · have hframe : PlanFrame (tick dt s) v := hv ▸ (taken_planFrame h _).trans (putPlan_planFrame ..)
    have hall : PlanFrame (tick dt s) (forward m v) := by
      rw [hforward]
      exact hframe.trans rfl
    exact hall.withoutEvents (by rw [hforward, hevq])
  · rw [rd_forward, ← hv, rd_congr (putPlan_regs ..), rd_accepted _ _ _ ha]

/-! ## What a patch leaves alone when it takes effect -/

/-- The dispatcher's registers and state, the plan and the count of the patches are as before. -/
structure PatchKeeps (s t : State) : Prop where
  plan : t.plan = s.plan
  cmd : t.cmd = s.cmd
  gen : rd t Reg.planPatchGen = rd s Reg.planPatchGen
  status : rd t Reg.cmdStatus = rd s Reg.cmdStatus

theorem PatchKeeps.refl (s : State) : PatchKeeps s s := ⟨rfl, rfl, rfl, rfl⟩

theorem PatchKeeps.trans {s u t : State} (h1 : PatchKeeps s u) (h2 : PatchKeeps u t) : PatchKeeps s t :=
  ⟨h2.plan.trans h1.plan, h2.cmd.trans h1.cmd, h2.gen.trans h1.gen, h2.status.trans h1.status⟩

theorem PatchKeeps.of_regs {s t : State} (hp : t.plan = s.plan) (hc : t.cmd = s.cmd) (hr : t.regs = s.regs) : PatchKeeps s t :=
  ⟨hp, hc, rd_congr hr _, rd_congr hr _⟩

theorem PatchKeeps.foldl {α : Type} {f : State → α → State} (h : ∀ s x, PatchKeeps s (f s x)) (l : List α) (s : State) : PatchKeeps s (l.foldl f s) := by
  induction l generalizing s with
  | nil => exact .refl s
  | cons x xs ih => exact (h s x).trans (ih _)

/-- A register that the effects of a patch may write. -/
def PatchWrites (a : Nat) : Prop := Reg.planPatchGen ≠ a ∧ Reg.cmdStatus ≠ a

theorem patchKeeps_wr {a : Nat} (h : PatchWrites a) (v : Word) (s : State) : PatchKeeps s (wr a v s) := ⟨rfl, rfl, rd_wr_ne h.1 .., rd_wr_ne h.2 ..⟩

theorem patchKeeps_putF {a : Nat} (h : PatchWrites a) (lo n v : Nat) (s : State) : PatchKeeps s (putF a lo n v s) := patchKeeps_wr h _ s

theorem patchKeeps_putB {a : Nat} (h : PatchWrites a) (b : Nat) (v : Bool) (s : State) : PatchKeeps s (putB a b v s) := patchKeeps_wr h _ s

/-- The registers of the quadrants lie at 0x10000 and more above a multiple of 0x100000. -/
theorem patchWrites_quad {q a : Nat} (h1 : 0x10000 ≤ a) (h2 : a < 0x100000) : PatchWrites (0x100000 * q + a) := by
  constructor
  · show 0x402024 ≠ _
    omega
  · show 0x400004 ≠ _
    omega

theorem patchWrites_above {a : Nat} (h : 0x402024 < a) : PatchWrites a := by
  constructor
  · show 0x402024 ≠ _
    omega
  · show 0x400004 ≠ _
    omega

theorem patchWrites_pinStatus (n : Nat) : PatchWrites (Reg.pinStatus n) := by
  rw [Reg.pinStatus, Nat.add_assoc]
  exact patchWrites_quad (by omega) (by omega)

theorem patchWrites_poutStatus (n : Nat) : PatchWrites (Reg.poutStatus n) := by
  rw [Reg.poutStatus, Nat.add_assoc]
  exact patchWrites_quad (by omega) (by omega)

theorem patchWrites_poutSafe (n : Nat) : PatchWrites (Reg.poutSafe n) := by
  rw [Reg.poutSafe, Nat.add_assoc]
  exact patchWrites_quad (by omega) (by omega)

theorem patchWrites_fsStatus (n : Nat) : PatchWrites (fsA n) := by
  have hlt : localOf n < 352 := by
    rw [localOf]
    split <;> omega
  rw [fsA, Reg.fsStatus, Nat.add_assoc]
  exact patchWrites_quad (by omega) (by omega)

theorem patchWrites_flowStatus (f : Nat) : PatchWrites (Reg.flowStatus f) := patchWrites_above (by rw [Reg.flowStatus]; omega)

theorem patchWrites_prbStatus (p : Nat) : PatchWrites (Reg.prbStatus p) := patchWrites_above (by rw [Reg.prbStatus]; omega)

theorem patchWrites_prbInteg (p : Nat) : PatchWrites (Reg.prbInteg p) := patchWrites_above (by rw [Reg.prbInteg]; omega)

theorem patchKeeps_raise (src inst type : Nat) (d0 d1 d2 : Word) (s : State) : PatchKeeps s (raise src inst type d0 d1 d2 s) :=
  .of_regs (raise_plan ..) (raise_cmd ..) (raise_regs ..)

theorem patchKeeps_stateEvent {a : Nat} (h : PatchWrites a) (src inst lo n v : Nat) (s : State) : PatchKeeps s (stateEvent src inst a lo n v s) := by
  unfold stateEvent
  split
  · exact .refl s
  · exact (patchKeeps_putF h ..).trans (patchKeeps_raise ..)

/-! ## What the patched entries show (R65, R149, R330, R413) -/

theorem patchKeeps_putFlow (f : Nat) (t : FlowTrack) (s : State) : PatchKeeps s (putFlow f t s) := .of_regs rfl rfl rfl

theorem patchKeeps_putHead (h : Nat) (t : HeadTrack) (s : State) : PatchKeeps s (putHead h t s) := .of_regs rfl rfl rfl

theorem patchKeeps_setTx (f : Nat) (e : FlowEntry) (blue on : Bool) (s : State) : PatchKeeps s (setTx f e blue on s) :=
  patchKeeps_putB (patchWrites_flowStatus f) ..

theorem patchKeeps_flowPatched (f : Nat) (old : FlowEntry) (s : State) : PatchKeeps s (flowPatched f old s) := by
  unfold flowPatched
  extract_lets t _ u
  have hu : PatchKeeps s u := by
    show PatchKeeps s (if _ then _ else _)
    split
    · exact patchKeeps_putFlow ..
    · exact .refl s
  clear_value u
  split
  · exact hu
  · split
    · exact hu
    · exact (((hu.trans (patchKeeps_putF (patchWrites_flowStatus f) ..)).trans (patchKeeps_putF (patchWrites_flowStatus f) ..)).trans (patchKeeps_setTx ..)).trans
        (patchKeeps_setTx ..)

theorem patchKeeps_colourChanged (i : Nat) (s : State) : PatchKeeps s (colourChanged i s) := by
  unfold colourChanged
  split
  · exact .refl s
  · refine .foldl (fun s h => ?_) _ s
    dsimp only
    split
    · exact patchKeeps_putHead ..
    · exact .refl s

theorem patchKeeps_patchShow (old : Tables) (r : PatchRec) (s : State) : PatchKeeps s (patchShow old s r) := by
  refine .foldl (fun s n => ?_) _ s
  split
  · split
    · exact patchKeeps_flowPatched ..
    · exact .refl s
  · exact (patchKeeps_wr (patchWrites_poutSafe n) ..).trans (patchKeeps_putF (patchWrites_poutStatus n) ..)
  · exact patchKeeps_colourChanged ..
  · split
    · exact patchKeeps_putB (patchWrites_pinStatus n) ..
    · exact patchKeeps_putB (patchWrites_poutStatus _) ..
  · exact .refl s

/-! ## What a patch brings back from shedding (21_supplies_and_thermal.md R746) -/

theorem patchKeeps_probeRestart (p : Nat) (s : State) : PatchKeeps s (probeRestart p s) := by
  have ha := patchWrites_prbStatus p
  unfold probeRestart
  extract_lets a _ u v
  have hv : PatchKeeps s v := (((PatchKeeps.of_regs rfl rfl rfl : PatchKeeps s u).trans (patchKeeps_putF ha 2 2 0 _)).trans (patchKeeps_putB ha ..)).trans (patchKeeps_putF ha ..)
  split
  · exact hv.trans (patchKeeps_wr (patchWrites_prbInteg p) ..)
  · exact hv

theorem patchKeeps_fsEmpty (n : Nat) (s : State) : PatchKeeps s (fsEmpty n s) := by
  unfold fsEmpty
  split
  · exact .refl s
  · rename_i t _
    have hput : PatchKeeps s (putFs n { fsTrack0 with hold := t.hold, nextNum := t.nextNum, whole := t.whole, lockedAt := s.mono } s) := .of_regs rfl rfl rfl
    exact (hput.trans (patchKeeps_putB (patchWrites_fsStatus n) ..)).trans (patchKeeps_stateEvent (patchWrites_fsStatus n) ..)

theorem patchKeeps_shedResume (s : State) (e : ShedEntry) : PatchKeeps s (shedResume s e) := by
  unfold shedResume
  split
  · exact .foldl (fun s h => patchKeeps_putHead ..) _ s
  · exact patchKeeps_probeRestart ..
  · exact patchKeeps_fsEmpty ..
  · exact .refl s

theorem patchKeeps_shedShow (on : Bool) (s : State) : PatchKeeps s (shedShow on s) :=
  (patchKeeps_wr (patchWrites_above (by decide)) ..).trans (patchKeeps_putB (patchWrites_above (by decide)) ..)

/-- Items that are shed only fewer stop nothing. -/
theorem shedTo_subset {s : State} {l : List ShedEntry} (h : l ⊆ s.therm.items) :
    shedTo l s = (s.therm.items.filter fun e => !l.any fun b => decide (e.kind = b.kind) && decide (e.index = b.index)).foldl shedResume (putTherm (fun t => { t with items := l }) s) := by
  have hnone : (l.filter fun e => !s.therm.items.any fun b => decide (e.kind = b.kind) && decide (e.index = b.index)) = [] := by
    rw [List.filter_eq_nil_iff]
    intro e he
    simp only [Bool.not_eq_true', Bool.not_eq_false, List.any_eq_true]
    exact ⟨e, h he, by simp⟩
  rw [shedTo, hnone]
  rfl

theorem patchKeeps_putTherm (f : ThermState → ThermState) (s : State) : PatchKeeps s (putTherm f s) := .of_regs rfl rfl rfl

theorem patchKeeps_shedAir (s : State) : PatchKeeps s (shedAir s) := by
  unfold shedAir
  split
  · rw [shedTo_subset (List.filter_subset_self _)]
    exact ((patchKeeps_putTherm ..).trans (.foldl patchKeeps_shedResume _ _)).trans (patchKeeps_shedShow ..)
  · exact .refl s

/-! ## A patch takes effect (R60, R63) -/

/-- A patch of this unit's host takes effect: its tables, its count and its reply. -/
theorem patchTake_spec {s : State} {p : Patch} (ho : p.cmd.origin = .host) (hs : server s = 1) :
    (patchTake s p).plan = { s.plan with tables := patchTables p.records s.plan.tables }
      ∧ (rd (patchTake s p) Reg.planPatchGen).toNat = min (2 ^ 32 - 1) ((rd s Reg.planPatchGen).toNat + 1)
      ∧ (patchTake s p).cmd.waiting = s.cmd.waiting ++ [mkReply p.cmd.pkt St.ok 0 p.frame [(8, p.frame)] false] := by
  unfold patchTake
  extract_lets old u v w
  have hv : PatchKeeps u v := (PatchKeeps.foldl (fun s r => patchKeeps_patchShow old r s) _ u).trans (patchKeeps_shedAir _)
  have hw : w = count Reg.planPatchGen (planNote St.ok 0xFF v) := by
    show count _ (if _ then _ else _) = _
    rw [if_neg (by simp [ho])]
  have hserver : server w = server s := by
    refine server_congr ?_
    rw [hw, rd_count_ne (by decide), planNote_ok, rd_wr_ne (by decide), hv.status]
    rfl
  rw [finishAt_served _ _ _ (by rw [hserver, hs]; decide)]
  refine ⟨?_, ?_, ?_⟩
  · rw [completeAt_plan _ _ _ _ _ ho, hw]
    exact (planNote_plan ..).trans hv.plan
  · rw [rd_completeAt _ _ _ _ _ ho (by decide), hw, rd_count_same, planNote_ok, rd_wr_ne (by decide), hv.gen]
    rfl
  · rw [completeAt_waiting _ _ _ _ _ ho, hw]
    exact congrArg (fun c : CmdState => c.waiting ++ _) ((planNote_cmd ..).trans hv.cmd)

/-- While no patch's house frame has started nothing changes. -/
theorem patchApply_waits {s : State} (hn : s.plan.pending = none) (h : ∀ p ∈ s.plan.patches, s.now < p.start) : patchApply s = s := by
  have hnone : (s.plan.patches.filter fun p => decide (p.start ≤ s.now)) = [] := List.filter_eq_nil_iff.2 fun p hp => by simpa using h p hp
  have hall : (s.plan.patches.filter fun p => decide (s.now < p.start)) = s.plan.patches := List.filter_eq_self.2 fun p hp => by simpa using h p hp
  rw [patchApply, changeStart, hn]
  dsimp only
  rw [hnone, List.foldl_nil, putPlan, hall]

/-- The one patch accepted takes effect, and none is left. -/
theorem patchApply_due {s : State} {p : Patch} (hn : s.plan.pending = none) (hp : s.plan.patches = [p]) (h : p.start ≤ s.now) :
    patchApply s = patchTake (putPlan (fun x => { x with patches := [] }) s) p := by
  have hdue : ([p].filter fun p => decide (p.start ≤ s.now)) = [p] := List.filter_cons_of_pos (by simpa using h)
  have hleft : ([p].filter fun p => decide (s.now < p.start)) = [] := List.filter_cons_of_neg (by simpa using h)
  rw [patchApply, changeStart, hn]
  dsimp only
  rw [putPlan, hp, hdue, hleft]
  rfl

/-! ## The statement -/

/-- Settles O38: acceptance by the branches of `fxPlanPatch`, effect by `patchTake_spec`, tables by `airPatched_air`. -/
theorem patchesAreCheckedAndApplied : Obligations.PatchesAreCheckedAndApplied := by
  unfold Obligations.PatchesAreCheckedAndApplied
  refine ⟨?accept, ?apply, ?idle, ?tables⟩
  case accept =>
    intro dt h rs structOk s hr u b c refused f late
    have hplan : (taken h (tick dt s)).plan = s.plan := by rw [taken_plan, tick_plan]
    have hlock : getB (taken h (tick dt s)) Reg.planState 13 = getB s Reg.planState 13 := by rw [getB, rd_accepted _ _ _ (by decide), getB]
    have hrefused : ∀ {st k}, st ≠ 0 → st < 65536 → fxPlanPatch (hostCmd h b) rs structOk (taken h (tick dt s))
        = complete (hostCmd h b) st k [] (planNote st 0xFF (taken h (tick dt s))) → Completes c s (refused st k) := by
      intro st k h0 hst hx
      have href := planRefused_complete dt h b k s h0 hst
      exact completes_fw rfl hr rfl hx ⟨href.answered, href.low hst, href.counted, href.frame, href.regs⟩
    have hfits : ¬ late → h.applyAt = 0 ∨ earliestFrame u tickMs ≤ h.applyAt := fun hin =>
      or_iff_not_imp_left.2 fun h0 => Nat.le_of_not_lt fun hlt => hin ⟨h0, hlt⟩
    have hfor : ¬ late → applyFrame (taken h (tick dt s)) tickMs h.applyAt = some f := by
      intro hin
      rw [applyFrame_inTime (by rw [earliestFrame_accepted]; exact hfits hin), earliestFrame_accepted]
      rfl
    refine ⟨fun hn => ?_, fun x hx => ⟨fun hl => ?_, fun hl => ⟨fun hw => ?_, fun hw hin => ⟨fun k hk => ?_, fun hk => ?_⟩, fun hw hlate hk => ?_⟩⟩⟩
    · exact hrefused (by decide) (by decide) (fxPlanPatch_none _ (by rw [hplan, hn]))
    · exact hrefused (by decide) (by decide) (fxPlanPatch_locked _ (by rw [hplan, hx]) (hlock.trans hl))
    · exact hrefused (by decide) (by decide) (fxPlanPatch_wrong _ (by rw [hplan, hx]) (hlock.trans hl) hw)
    all_goals
      have hrec := fxPlanPatch_records (hostCmd h b) (by rw [hplan, hx]) (hlock.trans hl) hw
      rw [tablesAt_congr (hplan.trans (tick_plan dt s).symm)] at hrec
    · rw [hfor hin, Option.getD_some, hk] at hrec
      exact hrefused (by decide) (by decide) hrec
    · rw [hfor hin, Option.getD_some, hk] at hrec
      dsimp only at hrec
      rw [frameStart_accepted] at hrec
      refine completes_fw rfl hr rfl hrec ?_
      obtain ⟨hwaits, hstored, hframe, hregs⟩ := patchStored_spec (dt := dt) { cmd := hostCmd h b, records := rs, frame := f, start := frameStart u f } (.command b f) hr
      refine ⟨hwaits, ⟨{ cmd := hostCmd h b, records := rs, frame := f, start := frameStart u f }, ?_, rfl, rfl, rfl, rfl⟩, ?_, ?_, le_frameStart (s := u) (earliest_le_frame (hfits hin)), hframe, hregs⟩
      · rw [hstored]
        exact mem_insPatch ..
      · rw [hstored]
        exact length_insPatch ..
      · rw [hstored]
    · rw [applyFrame_late hlate.1 (by rw [earliestFrame_accepted]; exact hlate.2), earliestFrame_accepted, Option.getD_none, earliestFrame, hk] at hrec
      exact hrefused (by decide) (by decide) hrec
  case apply =>
    intro dt s hp hn p hpatch ho hs
    refine ⟨fun hdue => completes_only rfl rfl hp ?_, fun hwait => completes_only rfl rfl hp ?_⟩
    · rw [patchApply_due (s := tick dt s) hn hpatch hdue]
      generalize hu : putPlan (fun x => { x with patches := [] }) (tick dt s) = u
      have hrd : ∀ a, rd u a = rd s a := fun a => hu ▸ rd_congr rfl a
      have huplan : u.plan = { s.plan with patches := [] } := by rw [← hu, putPlan, tick_plan]
      have hucmd : u.cmd = s.cmd := by rw [← hu, putPlan_cmd, tick_cmd]
      obtain ⟨hplan, hgen, hwaiting⟩ := patchTake_spec (s := u) ho (by rw [server_congr (hrd _), hs])
      rw [huplan] at hplan
      rw [hrd] at hgen
      rw [hucmd] at hwaiting
      exact ⟨hplan, hgen, _, hwaiting, rfl, rfl, rfl⟩
    · refine patchApply_waits (s := tick dt s) hn fun q hq => ?_
      rw [tick_plan, hpatch, List.mem_singleton] at hq
      exact hq ▸ hwait
  case idle =>
    intro dt s hp hn hpatch
    refine completes_only rfl rfl hp (patchApply_waits (s := tick dt s) hn fun q hq => ?_)
    rw [tick_plan, hpatch] at hq
    exact absurd hq List.not_mem_nil
  case tables =>
    intro es first t
    have heq : patchTables [{ type := 14, count := es.length, first := first, entries := es }] t = airPatched first 0 es t := rfl
    obtain ⟨hframe, hlen⟩ := airPatched_frame first 0 es t
    simp only [heq]
    refine ⟨by rw [hframe], by rw [hframe], by rw [hframe], hlen, fun n hn => airPatched_air first 0 n es t hn⟩

end Sys2Proof.Machine
end

section
/-! Changes that apply (01_compiled_plan.md R43 to R45): the statement on the last destination of a change, against a list that names it twice. -/

namespace Sys2Proof.Machine

/-- A change of mode in force, whose list of remaining destinations names output 0 twice. -/
def namedTwice : Change :=
  { cmd := { pkt := { hdr := forwardHdr 0, body := .modeSet 1 }, origin := .forward }, kind := .modeSet, mode := 1, frame := 0, start := 0, asked := 0,
    routesFromPlan := false, held := false, armed := true, partnerArmed := true, applied := true, first := false, wake := [], remaining := [0, 0], hitless := [] }

/-- A powered unit with that change pending. -/
def outputNamedTwice : State := { State.reset with plan := { plan0 with pending := some namedTwice } }

/-- Refutes O37: the clause on an output that is not the last takes every list of remaining destinations but `[d]`. In `[0, 0]` output 0 is the last one all the same: its change-over takes both entries off, and the change is done and no longer pending. -/
theorem not_changesApplyFrameByFrame : ¬ Obligations.ChangesApplyFrameByFrame := by
  unfold Obligations.ChangesApplyFrameByFrame
  rintro ⟨-, -, hover, -⟩
  have hp : powered outputNamedTwice = true := by decide +kernel
  have hdone : (changeover 0 (changeStart (tick 0 outputNamedTwice))).plan.pending = none := by decide +kernel
  have hexec : exec (.destinationChangeover 0 0) outputNamedTwice
      = .next (only (decide (0 < 1408)) (fun s => changeover 0 (changeStart s)) (tick 0 outputNamedTwice)) := rfl
  obtain ⟨-, hlast⟩ := (hover 0 outputNamedTwice hp).1 namedTwice rfl rfl 0 (by decide)
  obtain ⟨t, ht, ⟨q, hq, -⟩, -⟩ := (hlast (by decide) (by decide +kernel) (by decide +kernel)).1 (by decide)
  rw [hexec, only_on (s := tick 0 outputNamedTwice) _ (by decide) hp] at ht
  rw [← Host.Outcome.next.inj ht, hdone] at hq
  cases hq
end Sys2Proof.Machine
end

section
/-! Takes and salvos (02_word_fabric_and_takes.md R93 to R113): switch points, what a command of the fast path finds of them, refusals, and how a job comes to wait in the pending table. -/

namespace Sys2Proof.Machine

/-! ## Switch points lie where they are looked for (R90 to R94) -/

theorem rateFirst_le_succ (r : Nat × Nat) (t : Nat) : rateFirst r t ≤ rateFrame r t + 1 := by
  unfold rateFirst rateFrame ceilDiv
  generalize t * r.1 = x
  rcases Nat.eq_zero_or_pos (r.2 * tickSec) with h0 | hpos
  · rw [h0, Nat.div_zero]
    omega
  · rw [← Nat.add_div_right _ hpos]
    exact Nat.div_le_div_right (Nat.sub_le ..)

theorem fmtRate_pos (f : PortFmt) : 0 < (fmtRate f).1 ∧ 0 < (fmtRate f).2 := by
  unfold fmtRate
  omega

/-- A switch point lies after the start of its format frame: the 128 words before it outlast the opportunity period by which it may lie off its nominal place (R92). -/
theorem rateStart_le_spAt (d : Nat) (f : PortFmt) (n : Nat) : rateStart (fmtRate f) n ≤ spAt d f n := by
  unfold spAt spNominal
  generalize rateStart (fmtRate f) n = x
  split
  · extract_lets y p r0 r1
    have hlow : x ≤ y - p := by
      simp only [y, p, tickRow]
      omega
    have hrow : y - p ≤ r0 * tickRow := by
      simp only [r0, tickRow]
      omega
    calc x ≤ r0 * tickRow := hlow.trans hrow
      _ ≤ _ := Nat.mul_le_mul_right _ (Nat.le_add_right ..)
  · exact (Nat.le_add_right ..).trans (Nat.le_add_right ..)

/-- The frame after that of `t` starts at or after `t`, so its switch point does not lie before `t` either. -/
theorem le_firstSpOf (d : Nat) (f : PortFmt) (t : Nat) : t ≤ (firstSpOf d f t).2 := by
  unfold firstSpOf
  dsimp only
  split
  · assumption
  · exact (le_rateStart (fmtRate_pos f).1 (fmtRate_pos f).2 (rateFirst_le_succ ..)).trans (rateStart_le_spAt ..)

theorem le_firstSpIn (c : ModeCfg) (d t : Nat) : t ≤ (firstSpIn c d t).2 := by
  unfold firstSpIn
  dsimp only
  split
  · exact le_firstSpOf ..
  · exact le_rfl

/-- The first switch point at or after a time does not lie before it, whatever formats come into force on the way (10_composition.md R402). -/
theorem le_firstSp (s : State) (d t : Nat) : t ≤ firstSp s d t := by
  have hsteps : ∀ (l : List (Nat × PortFmt)) (sp : Nat), t ≤ sp → t ≤ l.foldl (fun sp x => if x.1 ≤ sp then (firstSpOf d x.2 (max t x.1)).2 else sp) sp := by
    intro l
    induction l with
    | nil => exact fun sp h => h
    | cons x l ih =>
      intro sp h
      refine ih _ ?_
      dsimp only
      split
      · exact (le_max_left ..).trans (le_firstSpOf ..)
      · exact h
  exact hsteps _ _ (le_firstSpIn ..)

/-! ## What an accepted command finds -/

section
variable (dt : Nat) (h : Hdr) (s : State)

@[simp] theorem mono_accepted : (taken h (tick dt s)).mono = s.mono + dt := by rw [taken_eq, tick]

theorem now_accepted : (taken h (tick dt s)).now = (tick dt s).now := taken_now h (tick dt s)

@[simp] theorem inMode_accepted : inMode (taken h (tick dt s)) = inMode s := by rw [inMode, modeNow_accepted, inMode]

@[simp] theorem cfgOf_accepted (d : Nat) : cfgOf (taken h (tick dt s)) d = cfgOf (tick dt s) d := by
  unfold cfgOf
  rw [taken_plan]

theorem fmtSteps_accepted (d : Nat) : fmtSteps (taken h (tick dt s)) d = fmtSteps (tick dt s) d := by rw [fmtSteps, taken_comp, fmtSteps]

@[simp] theorem firstSp_accepted (d t : Nat) : firstSp (taken h (tick dt s)) d t = firstSp (tick dt s) d t := by
  rw [firstSp, fmtSteps_accepted, cfgOf_accepted, firstSp]

theorem cfgSendsAt_accepted (c : ModeCfg) (t : Nat) : cfgSendsAt (taken h (tick dt s)) c t = cfgSendsAt (tick dt s) c t := by
  simp only [cfgSendsAt, fmtSteps_accepted]

theorem modeNow_tick : modeNow (tick dt s) = modeNow s := modeNow_congr (rd_tick ..)

@[simp] theorem entryCheck_accepted (t e : Nat) : entryCheck (taken h (tick dt s)) t e = entryCheck (tick dt s) t e := by
  rw [entryCheck, cfgOf_accepted, firstSp_accepted, cfgSendsAt_accepted, modeNow_accepted, entryCheck, modeNow_tick]

@[simp] theorem takeFrom_accepted (a : Nat) : takeFrom (taken h (tick dt s)) a = takeFrom (tick dt s) a := by
  rw [takeFrom, frameStart_accepted, taken_now, takeFrom]

@[simp] theorem applyFar_accepted (a : Nat) : applyFar (taken h (tick dt s)) a = decide (houseFrame (tick dt s) + 65535 < a) := by
  rw [applyFar, houseFrame_taken]

@[simp] theorem targetsOf_accepted (es : List Nat) : targetsOf (taken h (tick dt s)) es = targetsOf (tick dt s) es := by
  simp only [targetsOf, cfgOf_accepted]

@[simp] theorem takePending_accepted : takePending (taken h (tick dt s)) = takePending s := by rw [takePending, taken_take, tick_take, takePending]

@[simp] theorem openSalvo_accepted (id : Nat) : openSalvo (taken h (tick dt s)) id = openSalvo s id := by rw [openSalvo, taken_take, tick_take, openSalvo]

end

/-- A fast-path command for which the dispatcher is ready completes with its effect. -/
theorem completes_fast {i : Instr} {dt : Nat} {h : Hdr} {b : Body} {s u : State} {P : State → Prop} (hi : hostPacket i = some (dt, { hdr := h, body := b }))
    (hr : Ready h b s) (hf : fastPath b = true) (hx : fastExecute (hostCmd h b) (taken h (tick dt s)) = u) (hP : P u) : Completes i s P :=
  ⟨u, by rw [hostPacket_exec hi, exec_fast hr hf, hx], hP⟩

/-! ## Refusals (R102, R106) -/

/-- What a counted refusal of a take or salvo leaves: the answer, the count, and all else as it was. -/
structure TakeRefused (dt : Nat) (h : Hdr) (b : Body) (st detail : Nat) (res : List (Nat × Nat)) (s t : State) : Prop where
  answered : Answered h b st detail (houseFrame (tick dt s)) res s t
  counted : (rd t Reg.takeRefused).toNat = min (2 ^ 32 - 1) ((rd s Reg.takeRefused).toNat + 1)
  frame : t = { tick dt s with regs := t.regs, cmd := t.cmd }
  regs : RegsBut (Reg.takeRefused :: ringRegs) s t
  ring : RingKept s t

theorem takeRefused_complete (dt : Nat) (h : Hdr) (b : Body) (st detail : Nat) (res : List (Nat × Nat)) (s : State) :
    TakeRefused dt h b st detail res s (complete (hostCmd h b) st detail res (count Reg.takeRefused (taken h (tick dt s)))) := by
  obtain ⟨heq, ⟨ph, hc⟩, hregs, hserver⟩ := completeAt_host (hostCmd h b) st detail (houseFrame (count Reg.takeRefused (taken h (tick dt s)))) res
    (count Reg.takeRefused (taken h (tick dt s))) rfl
  rw [← complete] at heq hc hregs hserver
  refine ⟨answered_complete st detail res (count_cmd ..) ?_ ?_, ?_, ?_, ?_, ?_, ?_⟩
  · rw [rd_count_ne (by decide), rd_accepted _ _ _ (by decide)]
  · rw [count_now, taken_now, tick]
  · rw [hregs _ (by decide), rd_count_same, rd_accepted _ _ _ (by decide)]
  · exact regsCmd_trans (taken_eq h (tick dt s)) (regsCmd_trans rfl heq)
  · intro a ha
    simp only [List.mem_cons, not_or] at ha
    obtain ⟨hr, ha⟩ := ha
    rw [hregs a fun e => ha (by rw [e]; decide), rd_count_ne hr, rd_accepted _ _ _ (by simpa only [List.mem_cons, not_or] using ha)]
  · rw [hc, count_cmd]
    simp
  · rw [hserver, getF, rd_count_ne (by decide), rd_cmdStatus_accepted, getF]

/-! ## A job waits (R103, R113) -/

/-- The open salvos are `salvos`, `n` entries are counted as accepted, the job and its targets enter the pending table, and the partner is told. -/
def jobAccepted (salvos : List OpenSalvo) (n : Nat) (j : TakeJob) (sps : Nat → Nat) (ts : List (Nat × Nat × Nat × Nat)) (m : MirMsg) (s : State) : State :=
  forward m (enqueue j.id sps ts (newJob j (bump Reg.takeAccepted 0 32 n { s with take := { s.take with salvos := salvos } })))

theorem jobAccepted_spec {dt n : Nat} {h : Hdr} {b : Body} {s t : State} {salvos : List OpenSalvo} {j : TakeJob} {sps : Nat → Nat}
    {ts : List (Nat × Nat × Nat × Nat)} {m : MirMsg} (hr : Ready h b s) (hj : t = jobAccepted salvos n j sps ts m (taken h (tick dt s))) :
    Waits h s t
      ∧ t.take = { s.take with
          pend := s.take.pend ++ ts.map fun x => { job := j.id, entry := x.1, dest := x.2.1, source := x.2.2.1, levels := x.2.2.2, sp := sps x.2.1 }
          jobs := s.take.jobs ++ [j], nextJob := j.id + 1, salvos := salvos }
      ∧ (rd t Reg.takeAccepted).toNat = min (2 ^ 32 - 1) ((rd s Reg.takeAccepted).toNat + n)
      ∧ t.pair = (if forwards s = true then { s.pair with outbox := s.pair.outbox ++ [(s.pair.txSeq, m)], txSeq := s.pair.txSeq + 1 } else s.pair)
      ∧ t = { tick dt s with regs := t.regs, cmd := t.cmd, take := t.take, pair := t.pair } ∧ RegsBut (Reg.takeAccepted :: ringRegs) s t := by
  generalize hv : enqueue j.id sps ts (newJob j (bump Reg.takeAccepted 0 32 n { taken h (tick dt s) with take := { (taken h (tick dt s)).take with salvos := salvos } })) = v
  have ht : t = forward m v := by rw [hj, ← hv, jobAccepted]
  have hrd : ∀ a, rd t a = rd (bump Reg.takeAccepted 0 32 n (taken h (tick dt s))) a := fun a => by
    rw [ht, rd_forward, ← hv]
    rfl
  have hne : ∀ a, a ≠ Reg.takeAccepted → a ∉ ringRegs → rd t a = rd s a := fun a h1 h2 => by rw [hrd, rd_bump_ne h1, rd_accepted _ _ _ h2]
  have hcmd : t.cmd = (taken h (tick dt s)).cmd := by
    rw [ht, forward_eq, ← hv]
    rfl
  have htake : t.take = v.take := by rw [ht, forward_eq]
  have hforwards : forwards v = forwards s := by
    refine forwards_congr ?_ ?_
    · rw [← rd_forward m, ← ht, hne _ (by decide) (by decide)]
    · rw [← hv]
      exact taken_pair h (tick dt s)
  have hpair : v.pair = s.pair := by
    rw [← hv]
    exact taken_pair h (tick dt s)
  refine ⟨waits_of_cmd hr hcmd, ?_, ?_, ?_, ?_, fun a ha => ?_⟩
  · rw [htake, ← hv]
    simp only [enqueue, newJob, bump_take, taken_take, tick_take]
  · rw [hrd, rd_bump_same, bumpFld_32, rd_accepted _ _ _ (by decide)]
  · rw [ht, forward, hforwards]
    split
    · rw [send, hpair]
    · exact hpair
  · rw [ht, forward_eq, ← hv]
    simp only [enqueue, newJob, bump, wr]
    rw [taken_eq]
  · rw [List.mem_cons, not_or] at ha
    exact hne a ha.1 ha.2

end Sys2Proof.Machine
end

section
/-! `TAKE` (02_word_fabric_and_takes.md R94 to R96, R102, R103): the switch point that a take waits for, the refusals in their order, and the statement. -/

namespace Sys2Proof.Machine

/-! ## The switch point of a take (R94, R95) -/

/-- APPLY_AT is met: it is 0, or the first switch point at or after its frame leaves the lead. -/
abbrev OnTime (s : State) (d a : Nat) : Prop := a = 0 ∨ s.now + takeLead ≤ firstSp s d (frameStart s a)

/-- The switch point that a take waits for, where it is not refused. -/
def takeAt (s : State) (d a : Nat) : Nat :=
  if a ≠ 0 ∧ s.now + takeLead ≤ firstSp s d (frameStart s a) then firstSp s d (frameStart s a) else firstSp s d (s.now + takeLead)

theorem le_takeAt (s : State) (d a : Nat) : s.now + takeLead ≤ takeAt s d a := by
  unfold takeAt
  split
  · rename_i h
    exact h.2
  · exact le_firstSp ..

theorem takeSp_none {s : State} {d a : Nat} (h : ¬ OnTime s d a) : takeSp s d a true = none := by
  obtain ⟨h0, hl⟩ := not_or.1 h
  unfold takeSp
  dsimp only
  rw [if_neg h0, if_neg hl, if_pos rfl]

theorem takeSp_some {s : State} {d a : Nat} {noSlip : Bool} (h : OnTime s d a ∨ noSlip = false) :
    takeSp s d a noSlip = some (takeAt s d a, !decide (OnTime s d a)) := by
  unfold takeSp takeAt
  dsimp only
  by_cases h0 : a = 0
  · rw [if_pos h0, if_neg fun e => e.1 h0, decide_eq_true (.inl h0)]
    rfl
  · rw [if_neg h0]
    by_cases hl : s.now + takeLead ≤ firstSp s d (frameStart s a)
    · rw [if_pos hl, if_pos ⟨h0, hl⟩, decide_eq_true (.inr hl)]
      rfl
    · have hno : ¬ OnTime s d a := not_or.2 ⟨h0, hl⟩
      rw [if_neg hl, h.resolve_left hno, decide_eq_false hno, if_neg (fun e => hl e.2 : ¬ (a ≠ 0 ∧ s.now + takeLead ≤ firstSp s d (frameStart s a)))]
      rfl

/-- The targets of a take: one for each member of its destination's group. -/
theorem targetsOf_single (s : State) (e : Nat) :
    targetsOf s [e] = (expandEntry (cfgOf s (entDest e)) (entDest e) (entSrc e)).map fun x => (0, x.1, x.2, entLevels e) := by
  simp [targetsOf, upto]

/-! ## The branches of `TAKE` -/

/-- The job of an accepted take. -/
def acceptedTake (c : Cmd) (e flags : Nat) (s : State) : TakeJob :=
  let a := c.pkt.hdr.applyAt
  let sp := takeAt s (entDest e) a
  { id := s.take.nextJob, cmd := c, salvo := none, entries := [e], expanded := (targetsOf s [e]).length, noSlip := nbit flags 0,
    slipped := !decide (OnTime s (entDest e) a), forwarded := forwards (count Reg.takeAccepted s), acked := false, latePartner := false,
    frame := rateFrame (houseRate s) sp, firstSp := sp, results := [] }

section
variable {s : State} {c : Cmd} {e flags : Nat}

theorem fxTake_outside (h : inMode s = false) : fxTake c e flags s = takeRefuse c St.planNone s := if_pos h

variable (h : inMode s = true)
include h

theorem fxTake_entry (he : entryCheck s (takeFrom s c.pkt.hdr.applyAt) e ≠ St.ok) :
    fxTake c e flags s = takeRefuse c (entryCheck s (takeFrom s c.pkt.hdr.applyAt) e) s := by
  unfold fxTake
  dsimp only
  rw [if_neg (by rw [h]; decide), if_pos he]

variable (he : entryCheck s (takeFrom s c.pkt.hdr.applyAt) e = St.ok)
include he

theorem fxTake_far (hf : applyFar s c.pkt.hdr.applyAt = true) : fxTake c e flags s = takeRefuse c St.takeRange s := by
  unfold fxTake
  dsimp only
  rw [if_neg (by rw [h]; decide), if_neg (not_not.2 he), if_pos hf]

variable (hf : applyFar s c.pkt.hdr.applyAt = false)
include hf

theorem fxTake_late (ho : ¬ OnTime s (entDest e) c.pkt.hdr.applyAt) (hn : nbit flags 0 = true) : fxTake c e flags s = takeRefuse c St.takeLate s := by
  unfold fxTake
  dsimp only
  rw [if_neg (by rw [h]; decide), if_neg (not_not.2 he), if_neg (by rw [hf]; decide), hn, takeSp_none ho]

variable (ho : OnTime s (entDest e) c.pkt.hdr.applyAt ∨ nbit flags 0 = false)
include ho

theorem fxTake_full (hp : 8192 < takePending s + (targetsOf s [e]).length) : fxTake c e flags s = takeRefuse c St.takeFull s := by
  unfold fxTake
  dsimp only
  rw [if_neg (by rw [h]; decide), if_neg (not_not.2 he), if_neg (by rw [hf]; decide), takeSp_some ho]
  exact if_pos hp

theorem fxTake_accepted (hp : takePending s + (targetsOf s [e]).length ≤ 8192) :
    fxTake c e flags s = jobAccepted s.take.salvos 1 (acceptedTake c e flags s) (fun _ => takeAt s (entDest e) c.pkt.hdr.applyAt) (targetsOf s [e])
      (.take e flags (rateFrame (houseRate s) (takeAt s (entDest e) c.pkt.hdr.applyAt)) c.pkt.hdr.tag) s := by
  unfold fxTake
  dsimp only
  rw [if_neg (by rw [h]; decide), if_neg (not_not.2 he), if_neg (by rw [hf]; decide), takeSp_some ho]
  exact if_neg (Nat.not_lt.2 hp)

end

/-! ## The statement -/

theorem takeAt_accepted (dt : Nat) (h : Hdr) (s : State) (d a : Nat) : takeAt (taken h (tick dt s)) d a = takeAt (tick dt s) d a := by
  simp only [takeAt, taken_now, firstSp_accepted, frameStart_accepted]

theorem onTime_accepted (dt : Nat) (h : Hdr) (s : State) (d a : Nat) : OnTime (taken h (tick dt s)) d a ↔ OnTime (tick dt s) d a := by
  simp only [OnTime, taken_now, firstSp_accepted, frameStart_accepted]

theorem inMode_iff {s : State} : inMode s = true ↔ 1 ≤ modeNow s ∧ modeNow s ≤ 4 := by simp [inMode]

theorem inMode_false_iff {s : State} : inMode s = false ↔ modeNow s < 1 ∨ 4 < modeNow s := by
  simp only [inMode, Bool.and_eq_false_iff, decide_eq_false_iff_not, not_le]

theorem nbit_zero (n : Nat) : nbit n 0 = decide (n % 2 = 1) := by
  rw [nbit, pow_zero, Nat.div_one]
  rfl

/-- Settles O31: each branch of `fxTake` is a counted refusal (`takeRefused_complete`) or an accepted job (`jobAccepted_spec`), whose switch point keeps the lead (`le_takeAt`). -/
theorem takesAreCheckedAndWait : Obligations.TakesAreCheckedAndWait := by
  unfold Obligations.TakesAreCheckedAndWait
  intro lead refused dt h e flags s hr u d b
  have hrefused : ∀ st, fxTake (hostCmd h b) e flags (taken h u) = takeRefuse (hostCmd h b) st (taken h u) → Completes (.take dt h e flags) s (refused dt h b st s) := by
    intro st hx
    have ht := takeRefused_complete dt h b st 0 [] s
    exact completes_fast rfl hr rfl hx ⟨ht.answered, ht.counted, ht.frame, ht.regs, ht.ring⟩
  have hcheck : entryCheck (taken h u) (takeFrom (taken h u) h.applyAt) e = entryCheck u (takeFrom u h.applyAt) e := by
    rw [entryCheck_accepted, takeFrom_accepted]
  have hmode : 1 ≤ modeNow s → modeNow s ≤ 4 → inMode (taken h u) = true := fun h1 h4 => by rw [inMode_accepted, inMode_iff]; exact ⟨h1, h4⟩
  refine ⟨fun hm => hrefused _ (fxTake_outside ?_), fun h1 h4 he => ?_, fun h1 h4 he => ⟨fun hf => ?_, fun hf => ?_⟩⟩
  · rw [inMode_accepted, inMode_false_iff]
    exact hm
  · rw [← hcheck] at he ⊢
    exact hrefused _ (fxTake_entry (hmode h1 h4) he)
  all_goals have he' := hcheck.trans he
  · refine hrefused _ (fxTake_far (hmode h1 h4) he' ?_)
    rw [applyFar_accepted]
    exact decide_eq_true hf
  have hf' : applyFar (taken h u) h.applyAt = false := by
    rw [applyFar_accepted]
    exact decide_eq_false (Nat.not_lt.2 hf)
  intro onTime sp ts
  have hon : OnTime (taken h u) d h.applyAt ↔ onTime := onTime_accepted ..
  have hsp : takeAt (taken h u) d h.applyAt = sp := takeAt_accepted ..
  have hts : targetsOf (taken h u) [e] = ts.map fun x => (0, x.1, x.2, entLevels e) := (targetsOf_accepted ..).trans (targetsOf_single ..)
  have hlen : takePending (taken h u) + (targetsOf (taken h u) [e]).length = takePending s + ts.length := by rw [takePending_accepted, hts, List.length_map]
  have hslip : onTime ∨ flags % 2 = 0 → OnTime (taken h u) d h.applyAt ∨ nbit flags 0 = false := fun ho => by
    rw [hon, nbit_zero, decide_eq_false_iff_not]
    omega
  refine ⟨fun ho hn => ?_, fun ho hp => ?_, fun ho hp => ?_⟩
  · refine hrefused _ (fxTake_late (hmode h1 h4) he' hf' (hon.not.2 ho) ?_)
    rw [nbit_zero, hn]
    rfl
  · exact hrefused _ (fxTake_full (hmode h1 h4) he' hf' (hslip ho) (by rw [hlen]; exact hp))
  · generalize ht : fxTake (hostCmd h b) e flags (taken h u) = t
    refine completes_fast rfl hr rfl ht ?_
    obtain ⟨hwaits, htake, hcount, hpair, hframe, hregs⟩ := jobAccepted_spec hr
      (ht.symm.trans (fxTake_accepted (hmode h1 h4) he' hf' (hslip ho) (by rw [hlen]; exact hp)))
    have hsp' : takeAt (taken h u) (entDest e) (hostCmd h b).pkt.hdr.applyAt = sp := hsp
    have hid : (acceptedTake (hostCmd h b) e flags (taken h u)).id = s.take.nextJob := by rw [acceptedTake, taken_take, tick_take]
    rw [hsp', houseRate_accepted] at hpair
    rw [hid, hts, hsp', List.map_map] at htake
    refine ⟨hwaits, ?_, ⟨acceptedTake (hostCmd h b) e flags (taken h u), ?_, hid, rfl, ?_, ?_, hsp, rfl⟩, ?_, ?_, ?_, hcount, ?_, hframe, hregs⟩
    · rw [htake]
      rfl
    · rw [htake]
    · exact congrArg (!·) (decide_eq_decide.2 hon)
    · rw [acceptedTake, hts, List.length_map]
    · rw [htake]
    · rw [htake, taken_take, tick_take]
    · rw [← hsp, takeAt_accepted]
      exact le_takeAt u d h.applyAt
    · split
      · rw [hpair, if_pos ‹_›]
        rfl
      · rw [hpair, if_neg ‹_›]

end Sys2Proof.Machine
end

section
/-! `TAKE_COMMIT` (02_word_fabric_and_takes.md R97) beside the shed list (21_supplies_and_thermal.md R746): the statement on a switch point at which nothing is due. -/

namespace Sys2Proof.Machine

/-- A powered unit with no take, whose shed list is in force and holds Ethernet channel 0, to which the host has given a class of frames since. -/
def hostTrafficOnShed : State :=
  wr Reg.thmShed 1 (putEth 0 { ethTrack State.reset 0 with classes := 1 }
    { State.reset with therm := { State.reset.therm with items := [{ kind := 3, index := 0, power := 0, zeroOk := true }] } })

/-- Refutes O32: the clause on a switch point with nothing due says that only the time changes. A switch point also brings back what the shed list may no longer hold (R746): in `hostTrafficOnShed` channel 0 carries host traffic and leaves the list, though no take is pending. -/
theorem not_takesCommitCancelAndShow : ¬ Obligations.TakesCommitCancelAndShow := by
  unfold Obligations.TakesCommitCancelAndShow
  rintro ⟨hidle, -⟩
  have hp : powered hostTrafficOnShed = true := by decide +kernel
  have hlifted : (switchPoint 0 (tick 0 hostTrafficOnShed)).therm.items = [] := by decide +kernel
  have hexec : exec (.takeCommit 0 0) hostTrafficOnShed = .next (only (decide (0 < 1408)) (switchPoint 0) (tick 0 hostTrafficOnShed)) := rfl
  obtain ⟨t, ht, htick⟩ := hidle 0 hostTrafficOnShed hp 0 (by decide) rfl rfl
  rw [hexec, only_on (s := tick 0 hostTrafficOnShed) _ (by decide) hp, htick] at ht
  rw [Host.Outcome.next.inj ht] at hlifted
  cases hlifted

end Sys2Proof.Machine
end

section
/-! `SALVO` (02_word_fabric_and_takes.md R105 to R109): the parts refused, the salvo frame, the final part, and the second that a salvo may stay open. -/

namespace Sys2Proof.Machine

/-! ## Discard and refusal (R106) -/

theorem salvoDiscard_none {s : State} {id : Nat} (h : openSalvo s id = none) : salvoDiscard id s = s := by rw [salvoDiscard, h]

/-- What a discarded salvo of this unit's host leaves: its ID is open no more, and its tag has completed again. -/
theorem salvoDiscard_open {s : State} {id : Nat} {o : OpenSalvo} (h : openSalvo s id = some o) (ho : o.cmd.origin = .host) :
    let t := salvoDiscard id s
    t = { s with regs := t.regs, cmd := t.cmd, take := { s.take with salvos := s.take.salvos.filter fun x => decide (x.id ≠ id) } }
      ∧ (∃ r, t.cmd.waiting = s.cmd.waiting ++ [r] ∧ (r.tag, r.status, r.detail) = (o.cmd.pkt.hdr.tag, 0x030A, 0)) ∧ RegsBut [Reg.cmdStatus] s t := by
  intro t
  have ht : t = refuse o.cmd St.takeAborted { s with take := { s.take with salvos := s.take.salvos.filter fun x => decide (x.id ≠ id) } } := by
    simp only [t, salvoDiscard, h]
  obtain ⟨heq, ⟨ph, hc⟩, hregs, -⟩ := completeAt_host o.cmd St.takeAborted 0 (houseFrame { s with take := { s.take with salvos := s.take.salvos.filter fun x => decide (x.id ≠ id) } }) []
    { s with take := { s.take with salvos := s.take.salvos.filter fun x => decide (x.id ≠ id) } } ho
  rw [← complete, ← refuse, ← ht] at heq hc hregs
  refine ⟨heq, ⟨_, by rw [hc], rfl⟩, fun a ha => hregs a (by simpa using ha)⟩

theorem salvoRefuse_keeps {s : State} {h : Hdr} {b : Body} {id part : Nat} (st i : Nat) (hk : part ≠ 1 ∨ openSalvo s id = none) :
    salvoRefuse (hostCmd h b) id part st i s = complete (hostCmd h b) st i [(2, i)] (count Reg.takeRefused s) := by
  unfold salvoRefuse
  dsimp only
  split
  · refine salvoDiscard_none ?_
    rw [openSalvo, complete_eq]
    exact hk.resolve_left (not_not.2 ‹_›)
  · rfl

theorem map_drop_of_append {α β : Type} {l m n : List α} (f : α → β) (h : m = l ++ n) : (m.drop l.length).map f = n.map f := by rw [h, List.drop_left]

/-- A refused part 1 whose salvo is open: it is answered, the refusal is counted, and the open part 0 is discarded. -/
theorem salvoRefuse_discards {dt id part : Nat} {h : Hdr} {b : Body} {s : State} {o : OpenSalvo} (st i : Nat) (hpart : part = 1) (ho : openSalvo s id = some o) (horigin : o.cmd.origin = .host) :
    let t := salvoRefuse (hostCmd h b) id part st i (taken h (tick dt s))
    (t.cmd.waiting.drop s.cmd.waiting.length).map (fun r => (r.tag, r.status, r.detail)) = [(h.tag, st, i), (o.cmd.pkt.hdr.tag, 0x030A, 0)]
      ∧ (RegsBut (Reg.takeRefused :: ringRegs) s t ∧ (rd t Reg.takeRefused).toNat = min (2 ^ 32 - 1) ((rd s Reg.takeRefused).toNat + 1))
      ∧ t = { tick dt s with regs := t.regs, cmd := t.cmd, take := { s.take with salvos := s.take.salvos.filter fun x => decide (x.id ≠ id) } } := by
  intro t
  have href := takeRefused_complete dt h b st i [(2, i)] s
  have ht : t = salvoDiscard id (complete (hostCmd h b) st i [(2, i)] (count Reg.takeRefused (taken h (tick dt s)))) := if_pos hpart
  generalize complete (hostCmd h b) st i [(2, i)] (count Reg.takeRefused (taken h (tick dt s))) = v at href ht
  have htake : v.take = s.take := by rw [href.frame, tick_take]
  obtain ⟨heq, ⟨r, hw, hreply⟩, hregs⟩ := salvoDiscard_open (s := v) (id := id) (by rw [openSalvo, htake]; exact ho) horigin
  rw [← ht] at heq hw hregs
  obtain ⟨r0, hw0, ⟨-, htag, -, hst, hdetail, -⟩, -⟩ := href.answered
  refine ⟨?_, ⟨fun a ha => ?_, ?_⟩, ?_⟩
  · rw [hw0, List.append_assoc] at hw
    refine (map_drop_of_append _ hw).trans ?_
    simp only [List.cons_append, List.nil_append, List.map_cons, List.map_nil, hreply, htag, hst, hdetail]
  · rw [hregs a fun e => ha (by simp only [List.mem_singleton] at e; rw [e]; decide), href.regs a ha]
  · rw [hregs _ (by decide), href.counted]
  · rw [htake, href.frame] at heq
    exact heq

/-! ## The salvo frame (R107) -/

/-- A house frame that starts as far ahead as the lead fits every destination. -/
theorem salvoFits_of_earliest {s : State} {f : Nat} (dests : List Nat) (h : earliestFrame s takeLead ≤ f) : salvoFits s dests f = true := by
  rw [salvoFits, List.all_eq_true]
  exact fun d _ => decide_eq_true ((le_frameStart h).trans (le_firstSp ..))

/-- The salvo frame keeps the lead for every destination, and is not before APPLY_AT. -/
theorem salvoFrame_spec (s : State) (dests : List Nat) (a : Nat) : salvoFits s dests (salvoFrame s dests a) = true ∧ a ≤ salvoFrame s dests a := by
  unfold salvoFrame
  extract_lets start top
  have hstart : a ≤ start := by
    simp only [start]
    split <;> omega
  cases hf : (upto start (top - start + 1)).find? (salvoFits s dests) with
  | none => exact ⟨salvoFits_of_earliest dests (le_max_right ..), hstart.trans (le_max_left ..)⟩
  | some f => exact ⟨List.find?_some hf, hstart.trans (upto_mem.1 (List.mem_of_find?_eq_some hf)).1⟩

/-! ## Entries that pass name destinations of the mode (R102) -/

theorem findIdx?_none {α : Type} {p : α → Bool} {l : List α} (h : findIdx? p l = none) : ∀ x ∈ l, p x = false := by
  induction l with
  | nil => simp
  | cons x l ih =>
    rw [findIdx?] at h
    split at h
    · cases h
    · simp only [List.mem_cons, forall_eq_or_imp]
      exact ⟨Bool.eq_false_iff.2 ‹_›, ih (Option.map_eq_none_iff.1 h)⟩

theorem entryCheck_of_salvoBad {s : State} {t : Nat} {es : List Nat} (h : salvoBad s t es = none) : ∀ e ∈ es, entryCheck s t e = St.ok := by
  intro e he
  unfold salvoBad at h
  split at h
  · cases h
  · exact not_not.1 (of_decide_eq_false (findIdx?_none ‹_› e he))

/-- A format that comes into force later does not change which destinations there are (10_composition.md R402). -/
theorem destFmtIn_cfgSendsAt (s : State) (c : ModeCfg) (t d : Nat) : (destFmtIn (cfgSendsAt s c t) d).isSome = (destFmtIn c d).isSome := by
  unfold destFmtIn cfgSendsAt
  split
  · rfl
  · simp [List.find?_map, Function.comp_def]

theorem destUsed_of_entryCheck {s : State} {t e : Nat} (h : entryCheck s t e = St.ok) : destUsed (cfgOf s (entDest e)) (modeNow s) (entDest e) = true := by
  by_contra hn
  have hbad : destUsed (cfgSendsAt s (cfgOf s (entDest e)) (firstSp s (entDest e) t)) (modeNow s) (entDest e) = false := by
    rw [destUsed, destFmtIn_cfgSendsAt, ← destUsed]
    exact Bool.eq_false_iff.2 hn
  rw [entryCheck, entryStatus, if_pos (.inl hbad)] at h
  cases h

/-- The destinations that a list of entries names in the mode, without repeats. -/
def salvoNamed (s : State) (es : List Nat) : List Nat :=
  distinctDests ((targetsOf s (es.filter fun e => destUsed (cfgOf s (entDest e)) (modeNow s) (entDest e))).map fun x => (x.2.1, 0))

/-- Where every entry passes, none is left out. -/
theorem salvoNamed_of_ok {s : State} {t : Nat} {es : List Nat} (h : salvoBad s t es = none) :
    salvoNamed s es = distinctDests ((targetsOf s es).map fun x => (x.2.1, 0)) := by
  rw [salvoNamed, List.filter_eq_self.2 fun e he => destUsed_of_entryCheck (entryCheck_of_salvoBad h e he)]

/-! ## The final part (R107, R108) -/

/-- The salvo frame of a list of entries. -/
abbrev salvoAt (s : State) (es : List Nat) (a : Nat) : Nat := salvoFrame s (salvoNamed s es) a

/-- The salvo frame is later than a non-zero APPLY_AT. -/
abbrev SalvoLate (s : State) (es : List Nat) (a : Nat) : Prop := a ≠ 0 ∧ a < salvoAt s es a

/-- The job of an accepted salvo. -/
def acceptedSalvo (c : Cmd) (id : Nat) (noSlip : Bool) (es : List Nat) (s : State) : TakeJob :=
  let f := salvoAt s es c.pkt.hdr.applyAt
  let sps := fun d => firstSp s d (frameStart s f)
  { id := s.take.nextJob, cmd := c, salvo := some (id, f), entries := es, expanded := (targetsOf s es).length, noSlip := noSlip,
    slipped := decide (SalvoLate s es c.pkt.hdr.applyAt), forwarded := forwards (bump Reg.takeAccepted 0 32 es.length s), acked := false, latePartner := false,
    frame := f, firstSp := ((salvoNamed s es).map sps).foldl min (sps ((salvoNamed s es).headD 0)), results := [] }

section
variable {s : State} {c : Cmd} {id part : Nat} {noSlip : Bool} {es : List Nat}

theorem salvoFinal_entry {i st : Nat} (h : salvoBad s (frameStart s (salvoAt s es c.pkt.hdr.applyAt)) es = some (i, st)) :
    salvoFinal c id part noSlip es s = salvoRefuse c id part st i s := by
  unfold salvoFinal
  dsimp only
  rw [← salvoNamed, h]

variable (h : salvoBad s (frameStart s (salvoAt s es c.pkt.hdr.applyAt)) es = none)
include h

theorem salvoFinal_far (hf : applyFar s c.pkt.hdr.applyAt = true) : salvoFinal c id part noSlip es s = salvoRefuse c id part St.takeRange 0 s := by
  unfold salvoFinal
  dsimp only
  rw [← salvoNamed, h]
  exact if_pos hf

variable (hf : applyFar s c.pkt.hdr.applyAt = false)
include hf

theorem salvoFinal_late (hl : SalvoLate s es c.pkt.hdr.applyAt) (hn : noSlip = true) :
    salvoFinal c id part noSlip es s = salvoRefuse c id part St.takeLate
      (entryOf (targetsOf s es) fun d => decide (firstSp s d (frameStart s c.pkt.hdr.applyAt) < s.now + takeLead)) s := by
  unfold salvoFinal
  dsimp only
  rw [← salvoNamed, h, ← salvoNamed_of_ok h]
  dsimp only
  rw [if_neg (by rw [hf]; decide), if_pos (by rw [hn, ← Bool.decide_and, decide_eq_true hl]; rfl)]

variable (hl : ¬ (SalvoLate s es c.pkt.hdr.applyAt ∧ noSlip = true))
include hl

theorem salvoFinal_full (hp : 8192 < takePending s + (salvoNamed s es).length) :
    salvoFinal c id part noSlip es s = salvoRefuse c id part St.takeFull (overfull (targetsOf s es) (8192 - takePending s)) s := by
  unfold salvoFinal
  dsimp only
  rw [← salvoNamed, h, ← salvoNamed_of_ok h]
  dsimp only
  rw [if_neg (by rw [hf]; decide), if_neg (by simpa using hl), if_pos hp]

theorem salvoFinal_accepted (hp : takePending s + (salvoNamed s es).length ≤ 8192) :
    salvoFinal c id part noSlip es s = jobAccepted (s.take.salvos.filter fun x => decide (x.id ≠ id)) es.length (acceptedSalvo c id noSlip es s)
      (fun d => firstSp s d (frameStart s (salvoAt s es c.pkt.hdr.applyAt))) (targetsOf s es)
      (.salvo es (b2n noSlip) (salvoAt s es c.pkt.hdr.applyAt) c.pkt.hdr.tag) s := by
  unfold salvoFinal acceptedSalvo
  dsimp only
  rw [← salvoNamed, h, ← salvoNamed_of_ok h]
  dsimp only
  rw [if_neg (by rw [hf]; decide), if_neg (by simpa using hl), if_neg (Nat.not_lt.2 hp), Bool.decide_and]
  rfl

end

/-! ## The parts of a salvo (R106; log 171) -/

section
variable {s : State} {c : Cmd} {id part flags : Nat} {es : List Nat}

theorem fxSalvo_outside (h : inMode s = false) : fxSalvo c id part flags es s = salvoRefuse c id part St.planNone 0 s := if_pos h

variable (h : inMode s = true)
include h

theorem fxSalvo_partBad (hb : salvoPartBad s id part (nbit flags 0) = true) : fxSalvo c id part flags es s = salvoRefuse c id part St.cmdRange 0 s := by
  unfold fxSalvo
  dsimp only
  rw [if_neg (by rw [h]; decide), if_pos hb]

variable (hb : salvoPartBad s id part (nbit flags 0) = false)
include hb

theorem fxSalvo_final (hf : nbit flags 0 = true) :
    fxSalvo c id part flags es s = salvoFinal c id part (nbit flags 1) (((openSalvo s id).map OpenSalvo.entries).getD [] ++ es) s := by
  unfold fxSalvo
  dsimp only
  rw [if_neg (by rw [h]; decide), if_neg (by rw [hb]; decide), if_pos hf]

variable (hf : nbit flags 0 = false)
include hf

theorem fxSalvo_fifth (hn : 4 ≤ s.take.salvos.length) : fxSalvo c id part flags es s = salvoRefuse c id part St.takeFull 0 s := by
  unfold fxSalvo
  dsimp only
  rw [if_neg (by rw [h]; decide), if_neg (by rw [hb]; decide), if_neg (by rw [hf]; decide), if_pos hn]

variable (hn : s.take.salvos.length < 4)
include hn

theorem fxSalvo_entry {i st : Nat} (he : salvoBad s (s.now + takeLead) es = some (i, st)) : fxSalvo c id part flags es s = salvoRefuse c id part st i s := by
  unfold fxSalvo
  dsimp only
  rw [if_neg (by rw [h]; decide), if_neg (by rw [hb]; decide), if_neg (by rw [hf]; decide), if_neg (Nat.not_le.2 hn), he]

theorem fxSalvo_opens (he : salvoBad s (s.now + takeLead) es = none) : fxSalvo c id part flags es s = completeAt c St.ok 0 0 []
    { s with take := { s.take with salvos := s.take.salvos ++ [{ id := id, cmd := c, entries := es, opened := s.mono }] } } := by
  unfold fxSalvo
  dsimp only
  rw [if_neg (by rw [h]; decide), if_neg (by rw [hb]; decide), if_neg (by rw [hf]; decide), if_neg (Nat.not_le.2 hn), he]

end

/-- What an opened salvo leaves: it stands after those that are open, its tag completes OK, and nothing waits. -/
structure SalvoOpened (dt : Nat) (h : Hdr) (id : Nat) (es : List Nat) (s t : State) : Prop where
  reply : ∃ r, t.cmd.waiting = s.cmd.waiting ++ [r] ∧ r.tag = h.tag ∧ r.status = 0 ∧ r.frame = 0
  salvo : ∃ o, t.take.salvos = s.take.salvos ++ [o] ∧ o.id = id ∧ o.entries = es ∧ o.opened = s.mono + dt ∧ o.cmd.pkt.hdr.tag = h.tag
  pend : t.take.pend = s.take.pend
  jobs : t.take.jobs = s.take.jobs
  frame : t = { tick dt s with regs := t.regs, cmd := t.cmd, take := t.take }
  regs : RegsBut ringRegs s t

theorem salvoOpened_complete (dt : Nat) (h : Hdr) (b : Body) (id : Nat) (es : List Nat) (s : State) :
    let v := taken h (tick dt s)
    SalvoOpened dt h id es s (completeAt (hostCmd h b) St.ok 0 0 []
      { v with take := { v.take with salvos := v.take.salvos ++ [{ id := id, cmd := hostCmd h b, entries := es, opened := v.mono }] } }) := by
  intro v
  have hvtake : v.take = s.take := (taken_take ..).trans (tick_take ..)
  obtain ⟨heq, ⟨ph, hc⟩, hregs, -⟩ := completeAt_host (hostCmd h b) St.ok 0 0 []
    { v with take := { v.take with salvos := v.take.salvos ++ [{ id := id, cmd := hostCmd h b, entries := es, opened := v.mono }] } } rfl
  generalize completeAt (hostCmd h b) St.ok 0 0 [] _ = t at heq hc hregs ⊢
  refine ⟨⟨_, by rw [hc, taken_cmd]; rfl, rfl, rfl, rfl⟩, ⟨_, by rw [heq, hvtake], rfl, rfl, mono_accepted dt h s, rfl⟩, ?_, ?_, ?_, fun a ha => ?_⟩
  · rw [heq, hvtake]
  · rw [heq, hvtake]
  · rw [heq, show v = _ from taken_eq ..]
  · rw [hregs a fun e => ha (by rw [e]; decide)]
    exact rd_accepted dt h s ha

/-! ## What an accepted salvo finds -/

section
variable (dt : Nat) (h : Hdr) (s : State)

@[simp] theorem salvoBad_accepted (t : Nat) (es : List Nat) : salvoBad (taken h (tick dt s)) t es = salvoBad (tick dt s) t es := by
  simp only [salvoBad, entryCheck_accepted, targetsOf_accepted]

@[simp] theorem salvoFrame_accepted (dests : List Nat) (a : Nat) : salvoFrame (taken h (tick dt s)) dests a = salvoFrame (tick dt s) dests a := by
  have hfits : salvoFits (taken h (tick dt s)) dests = salvoFits (tick dt s) dests := by
    funext f
    simp only [salvoFits, taken_now, firstSp_accepted, frameStart_accepted]
  simp only [salvoFrame, houseFrame_taken, earliestFrame_accepted, hfits]

@[simp] theorem salvoNamed_accepted (es : List Nat) : salvoNamed (taken h (tick dt s)) es = salvoNamed (tick dt s) es := by
  simp only [salvoNamed, targetsOf_accepted, cfgOf_accepted, modeNow_accepted, modeNow_tick]

/-- The four kinds of part of R106, as the statement lists them. -/
theorem salvoPartBad_accepted (id part flags : Nat) :
    salvoPartBad (taken h (tick dt s)) id part (nbit flags 0) = true
      ↔ 1 < part ∨ (part = 1 ∧ (flags % 2 = 0 ∨ openSalvo s id = none)) ∨ (part = 0 ∧ openSalvo s id ≠ none) := by
  simp only [salvoPartBad, nbit_zero, openSalvo_accepted, Bool.or_eq_true, Bool.and_eq_true, decide_eq_true_eq, Bool.not_eq_true', decide_eq_false_iff_not,
    Option.isNone_iff_eq_none, Option.isSome_iff_ne_none, Nat.mod_two_ne_one, or_assoc]

end

/-! ## The statement -/

theorem nbit_one (n : Nat) : nbit n 1 = decide (n / 2 % 2 = 1) := by
  rw [nbit, pow_one]
  rfl

/-- Settles O33: a part refused is a counted refusal, after which a part 1 discards the open part 0 (`salvoDiscard_open`); a final part that passes is an accepted job whose frame keeps the lead (`salvoFrame_spec`). -/
theorem salvosOpenCommitAndExpire : Obligations.SalvosOpenCommitAndExpire := by
  unfold Obligations.SalvosOpenCommitAndExpire
  intro replies
  refine ⟨?salvo, ?timeout, ?idle⟩
  case salvo =>
    intro dt h id part flags cnt es s hr u c b kept refused dropped bad all ts dests f late
    have hrefuse : ∀ st i, fxSalvo (hostCmd h b) id part flags es (taken h u) = salvoRefuse (hostCmd h b) id part st i (taken h u) →
        (part ≠ 1 ∨ openSalvo s id = none → refused st i) ∧ (part = 1 → ∀ o, openSalvo s id = some o → o.cmd.origin = .host → dropped o st i) := by
      intro st i hx
      have href := takeRefused_complete dt h b st i [(2, i)] s
      refine ⟨fun hk => ?_, fun hpart o ho horigin => ?_⟩
      · rw [salvoRefuse_keeps st i (by rwa [openSalvo_accepted])] at hx
        exact completes_fast rfl hr rfl hx ⟨href.answered, ⟨href.regs, href.counted⟩, href.frame⟩
      · exact completes_fast rfl hr rfl hx (salvoRefuse_discards st i hpart ho horigin)
    have hpart : salvoPartBad (taken h u) id part (nbit flags 0) = true ↔ bad := salvoPartBad_accepted dt h s id part flags
    have hgood : ¬ bad → salvoPartBad (taken h u) id part (nbit flags 0) = false := fun hn => Bool.eq_false_iff.2 fun e => hn (hpart.1 e)
    have hmode : inMode (taken h u) = inMode s := inMode_accepted ..
    have hopen : flags % 2 = 0 → nbit flags 0 = false := fun h0 => by rw [nbit_zero, h0]; rfl
    have hsalvos : (taken h u).take = s.take := (taken_take ..).trans (tick_take ..)
    have hnew : part = 0 → part ≠ 1 ∨ openSalvo s id = none := fun h0 => .inl (by omega)
    refine ⟨fun st hst hcase => ?_, fun h0 hm hn hf hlt => ⟨fun he => ?_, fun i st he => ?_⟩, fun h0 hm hn hf hge => ?_, ?_⟩
    · rcases hm : inMode s with _ | _
      · rw [hst, if_pos hm]
        exact hrefuse _ _ (fxSalvo_outside (hmode.trans hm))
      · rw [hst, if_neg (by rw [hm]; decide)]
        exact hrefuse _ _ (fxSalvo_partBad (hmode.trans hm) (hpart.2 (hcase.resolve_left (by rw [hm]; decide))))
    · have hx := fxSalvo_opens (c := hostCmd h b) (es := es) (hmode.trans hm) (hgood hn) (hopen hf) (by rw [hsalvos]; exact hlt)
        (by rw [salvoBad_accepted, taken_now]; exact he)
      have hopened := salvoOpened_complete dt h b id es s
      exact completes_fast rfl hr rfl hx ⟨hopened.reply, hopened.salvo, hopened.pend, hopened.jobs, hopened.frame, hopened.regs⟩
    · exact (hrefuse _ _ (fxSalvo_entry (hmode.trans hm) (hgood hn) (hopen hf) (by rw [hsalvos]; exact hlt) (by rw [salvoBad_accepted, taken_now]; exact he))).1 (hnew h0)
    · exact (hrefuse _ _ (fxSalvo_fifth (hmode.trans hm) (hgood hn) (hopen hf) (by rw [hsalvos]; exact hge))).1 (hnew h0)
    · intro hm hn hf gone
      have hfinal : fxSalvo (hostCmd h b) id part flags es (taken h u) = salvoFinal (hostCmd h b) id part (nbit flags 1) all (taken h u) := by
        rw [fxSalvo_final (hmode.trans hm) (hgood hn) (by rw [nbit_zero, hf]; rfl), openSalvo_accepted]
      have hgone : ∀ st i, salvoFinal (hostCmd h b) id part (nbit flags 1) all (taken h u) = salvoRefuse (hostCmd h b) id part st i (taken h u) → gone st i :=
        fun st i hx => ⟨fun h0 => (hrefuse st i (hfinal.trans hx)).1 (hnew h0), fun o ho h1 horigin => (hrefuse st i (hfinal.trans hx)).2 h1 o ho horigin⟩
      have hnamed : salvoNamed (taken h u) all = dests := (salvoNamed_accepted ..).trans (by rw [salvoNamed, modeNow_tick])
      have hframe : salvoAt (taken h u) all h.applyAt = f := by rw [salvoAt, hnamed, salvoFrame_accepted]
      have hbad : salvoBad (taken h u) (frameStart (taken h u) (salvoAt (taken h u) all h.applyAt)) all = salvoBad u (frameStart u f) all := by
        rw [hframe, salvoBad_accepted, frameStart_accepted]
      have hlate : SalvoLate (taken h u) all h.applyAt ↔ late := by rw [SalvoLate, hframe]
      have htargets : targetsOf (taken h u) all = ts := targetsOf_accepted ..
      have hpending : takePending (taken h u) = takePending s := takePending_accepted ..
      refine ⟨fun i st he => hgone st i (salvoFinal_entry (hbad.trans he)), fun he => ⟨fun hfar => ?_, fun hnear hl hns => ?_, fun hnear hl hp => ?_, fun hnear hl hp => ?_⟩⟩
      all_goals have he' := hbad.trans he
      · exact hgone _ _ (salvoFinal_far he' (by rw [applyFar_accepted]; exact decide_eq_true hfar))
      all_goals have hnear' : applyFar (taken h u) h.applyAt = false := by rw [applyFar_accepted]; exact decide_eq_false (Nat.not_lt.2 hnear)
      · have hx := salvoFinal_late (c := hostCmd h b) (id := id) (part := part) (noSlip := nbit flags 1) he' hnear' (hlate.2 hl) (by rw [nbit_one, hns]; rfl)
        have hmiss : (fun d => decide (firstSp (taken h u) d (frameStart (taken h u) h.applyAt) < (taken h u).now + takeLead))
            = fun d => decide (firstSp u d (frameStart u h.applyAt) < u.now + takeLead) := by
          funext d
          rw [firstSp_accepted, frameStart_accepted, taken_now]
        rw [htargets, hmiss] at hx
        exact hgone _ _ hx
      all_goals have hl' : ¬ (SalvoLate (taken h u) all h.applyAt ∧ nbit flags 1 = true) := by rw [hlate, nbit_one, decide_eq_true_eq]; exact hl
      · have hx := salvoFinal_full (c := hostCmd h b) (id := id) (part := part) he' hnear' hl' (by rw [hpending, hnamed]; exact hp)
        rw [htargets, hpending] at hx
        exact hgone _ _ hx
      · generalize ht : fxSalvo (hostCmd h b) id part flags es (taken h u) = t
        refine completes_fast rfl hr rfl ht ?_
        obtain ⟨hwaits, htake, hcount, -, hfr, hregs⟩ := jobAccepted_spec hr
          (ht.symm.trans (hfinal.trans (salvoFinal_accepted he' hnear' hl' (by rw [hpending, hnamed]; exact hp))))
        have hid : (acceptedSalvo (hostCmd h b) id (nbit flags 1) all (taken h u)).id = s.take.nextJob := by rw [acceptedSalvo, hsalvos]
        obtain ⟨hfits, hge⟩ := salvoFrame_spec u dests h.applyAt
        refine ⟨hwaits, ?_, ⟨acceptedSalvo (hostCmd h b) id (nbit flags 1) all (taken h u), ?_, hid, ?_, ?_, ?_, rfl⟩, ?_, fun d hd => ?_, hge, hcount, hfr, hregs⟩
        · rw [htake, hid, htargets]
          refine congrArg _ (List.map_congr_left fun x _ => ?_)
          rw [firstSp_accepted, frameStart_accepted, ← hframe]
        · rw [htake]
        · exact congrArg (fun f => some (id, f)) hframe
        · exact decide_eq_decide.2 hlate
        · rw [acceptedSalvo, htargets]
        · rw [htake, hsalvos]
        · rw [salvoFits, List.all_eq_true] at hfits
          exact of_decide_eq_true (hfits d hd)
  case timeout =>
    intro dt s hp o hs ho
    have hopen : openSalvo (tick dt s) o.id = some o := by rw [openSalvo, tick_take, hs]; simp
    refine ⟨fun hdue => completes_only rfl rfl hp ?_, fun hwait => completes_only rfl rfl hp ?_⟩
    · rw [salvoTimeout, hopen]
      dsimp only
      rw [if_pos (show o.opened + tickSec ≤ (tick dt s).mono from hdue)]
      obtain ⟨heq, ⟨r, hw, hreply⟩, hregs⟩ := salvoDiscard_open hopen ho
      refine ⟨?_, ?_, ?_, hregs⟩
      · rw [heq, tick_take, hs]
        simp
      · exact (map_drop_of_append _ hw).trans (by rw [List.map_singleton, hreply])
      · rw [heq]
    · rw [salvoTimeout, hopen]
      exact if_neg (Nat.not_le.2 hwait)
  case idle =>
    intro dt id s hp hn
    refine completes_only rfl rfl hp ?_
    rw [salvoTimeout, show openSalvo (tick dt s) id = none from hn]

end Sys2Proof.Machine
end

section
/-! The word fabric (02_word_fabric_and_takes.md R74 to R86) and the egress of MIRROR (15_the_pair.md R590, R591): a word read through the interchange buffer, its check at a destination, and the selection between two rails. -/

namespace Sys2Proof.Machine

/-! ## Registers of the FAB block (R118 to R123) -/

theorem quadOf_lt (n : Nat) : quadOf n < 4 := by
  unfold quadOf
  split <;> omega

theorem localOf_lt (n : Nat) : localOf n < 352 := by
  unfold localOf
  split <;> omega

/-- Half of a register that counts twice 16 bits. -/
theorem getF_bump_same (a : Nat) {lo n : Nat} (k : Nat) (s : State) (h : lo + n ≤ 32) : getF (bump a lo n k s) a lo n = min (2 ^ n - 1) (getF s a lo n + k) := by
  have hn : 0 < 2 ^ n := Nat.two_pow_pos n
  rw [getF, rd_bump_same, bumpFld, fld_setFld_same _ _ h, satAdd, Nat.mod_eq_of_lt (by omega), getF]

theorem getF_bump_ne {a b : Nat} (h : b ≠ a) (lo n k lo' n' : Nat) (s : State) : getF (bump a lo n k s) b lo' n' = getF s b lo' n' := by
  rw [getF, rd_bump_ne h, getF]

/-! ## The interchange buffer (R79, R84) -/

/-- The word that the interchange buffer holds for a source in the present row. -/
def heldWord (src : Nat) (s : State) : Option (BitVec 48) := if s.take.xRow = s.now / tickRow + 1 then tabFind src s.take.xWords else none

/-- The word of a source in the present row: the one held, or the one that enters now. -/
def wordOf (src : Nat) (content : BitVec 40) (s : State) : BitVec 48 := (heldWord src s).getD (wordAt src (rowNow s) (sourceValid s src) content)

/-- The interchange buffer holds the source's word of this row, and the mark of a spoilt frame has gone with the first read. -/
structure Buffered (src : Nat) (content : BitVec 40) (s t : State) : Prop where
  word : tabFind src t.take.xWords = some (wordOf src content s)
  row : t.take.xRow = s.now / tickRow + 1
  others : s.take.xRow = s.now / tickRow + 1 → ∀ x, x ≠ src → tabFind x t.take.xWords = tabFind x s.take.xWords
  spoilt : ∀ x, fsTrack t x = if x = src ∧ heldWord src s = none then { fsTrack s x with spoilt := false } else fsTrack s x
  take : t.take = { s.take with xRow := t.take.xRow, xWords := t.take.xWords, sendBad := t.take.sendBad, chkEpoch := t.take.chkEpoch }
  mem : t.mem = { s.mem with fs := t.mem.fs }

/-- What follows in the marks of the take engine leaves the buffer as it is. -/
theorem Buffered.later {src : Nat} {content : BitVec 40} {s t u : State} (h : Buffered src content s t)
    (ht : u.take = { t.take with sendBad := u.take.sendBad, chkEpoch := u.take.chkEpoch }) (hm : u.mem = t.mem) : Buffered src content s u := by
  have hfs : ∀ x, fsTrack u x = fsTrack t x := fun x => by rw [fsTrack, hm, fsTrack]
  have hwords : u.take.xWords = t.take.xWords := by rw [ht]
  have hrow : u.take.xRow = t.take.xRow := by rw [ht]
  refine ⟨by rw [hwords, h.word], by rw [hrow, h.row], fun hr x hx => by rw [hwords, h.others hr x hx], fun x => by rw [hfs, h.spoilt], ?_, by rw [hm, h.mem]⟩
  rw [h.take] at ht
  rw [ht]

/-- Clearing a mark of a synchroniser that has none leaves its track alone. -/
theorem fsTrack_clearSpoilt (src x : Nat) (s : State) :
    fsTrack (if (fsTrack s src).spoilt then putFs src { fsTrack s src with spoilt := false } s else s) x
      = if x = src then { fsTrack s x with spoilt := false } else fsTrack s x := by
  by_cases hx : x = src
  · subst hx
    rw [if_pos rfl]
    cases hs : (fsTrack s x).spoilt with
    | true =>
      rw [if_pos rfl]
      exact tabGet_put_same ..
    | false =>
      rw [if_neg (by decide), ← hs]
  · rw [if_neg hx]
    split
    · exact tabGet_put_ne _ hx ..
    · rfl

theorem tabFind_heldWords (src : Nat) (s : State) :
    tabFind src (if s.take.xRow = s.now / tickRow + 1 then s.take.xWords else []) = heldWord src s := by
  unfold heldWord
  split <;> rfl

/-- A word that is held is read as it is. -/
theorem rowWord_held {src : Nat} {s : State} {w : BitVec 48} (content : BitVec 40) (h : heldWord src s = some w) : rowWord src content s = (s, w) := by
  unfold rowWord
  dsimp only
  rw [tabFind_heldWords, h]

/-- The state after the first read of a source in the row: its word is in the buffer, and its synchroniser has lost the mark of a spoilt frame. -/
def wordEntered (src : Nat) (content : BitVec 40) (s : State) : State :=
  let u := if (fsTrack s src).spoilt then putFs src { fsTrack s src with spoilt := false } s else s
  { u with take := { s.take with
      xRow := s.now / tickRow + 1
      xWords := tabPut src (wordAt src (rowNow s) (sourceValid s src) content) (if s.take.xRow = s.now / tickRow + 1 then s.take.xWords else []) } }

theorem rowWord_enters {src : Nat} {s : State} (content : BitVec 40) (h : heldWord src s = none) :
    rowWord src content s = (wordEntered src content s, wordAt src (rowNow s) (sourceValid s src) content) := by
  unfold rowWord
  dsimp only
  rw [tabFind_heldWords, h]
  dsimp only
  unfold wordEntered
  split <;> rfl

theorem buffered_held {src : Nat} {s : State} {w : BitVec 48} (content : BitVec 40) (h : heldWord src s = some w) : Buffered src content s s := by
  have hrow : s.take.xRow = s.now / tickRow + 1 := by
    by_contra hn
    rw [heldWord, if_neg hn] at h
    cases h
  refine ⟨?_, hrow, fun _ _ _ => rfl, fun x => ?_, rfl, rfl⟩
  · rw [wordOf, h, Option.getD_some, ← h, heldWord, if_pos hrow]
  · rw [h, if_neg (by simp)]

theorem buffered_entered {src : Nat} {s : State} (content : BitVec 40) (h : heldWord src s = none) : Buffered src content s (wordEntered src content s) := by
  refine ⟨?_, rfl, fun hr x hx => ?_, fun x => ?_, rfl, ?_⟩
  · rw [wordOf, h]
    exact tabFind_put_same ..
  · simp only [wordEntered]
    rw [if_pos hr, tabFind_put_ne hx]
  · refine (fsTrack_clearSpoilt src x s).trans ?_
    simp only [h, and_true]
  · unfold wordEntered
    split <;> rfl

/-- What a read of the row's word gives and leaves. -/
theorem rowWord_spec (src : Nat) (content : BitVec 40) (s : State) :
    let r := rowWord src content s
    r.2 = wordOf src content s ∧ Buffered src content s r.1 ∧ r.1 = { s with take := r.1.take, mem := r.1.mem } ∧ r.1.take.sendBad = s.take.sendBad := by
  intro r
  cases h : heldWord src s with
  | some w =>
    rw [show r = _ from rowWord_held content h]
    exact ⟨by rw [wordOf, h]; rfl, buffered_held content h, rfl, rfl⟩
  | none =>
    rw [show r = _ from rowWord_enters content h]
    refine ⟨by rw [wordOf, h]; rfl, buffered_entered content h, ?_, rfl⟩
    unfold wordEntered
    split <;> rfl

/-! ## An event of a penalty class (15_the_pair.md R553 to R555, R591) -/

/-- A record moves nothing but the event queues. -/
theorem raise_frame {src inst type : Nat} {d0 d1 d2 : Word} {s t : State} (ht : t = raise src inst type d0 d1 d2 s) : t = { s with evq := t.evq } := by
  rw [ht, raise]
  split <;> rfl

/-- HEALTH is written anew: nothing above it in `PAIR_HEALTH` moves. -/
theorem refreshHealth_spec (before : Word) (s : State) :
    let t := refreshHealth before s
    t = { s with regs := t.regs, evq := t.evq } ∧ RegsBut [Reg.pairHealth, Reg.pairStatus] s t
      ∧ ∀ b, 8 ≤ b → b < 32 → getB t Reg.pairHealth b = getB s Reg.pairHealth b := by
  intro t
  generalize hu : putB Reg.pairStatus 8 (decide (getF s Reg.pairHealth 16 2 ≠ 0) || getB s Reg.pairHealth 19) s = u
  generalize hv : putF Reg.pairHealth 0 8 (healthOf u) u = v
  have hvs : v = { s with regs := v.regs } := by
    rw [← hv, ← hu]
    rfl
  have ht : t = v ∨ t = raiseState Src.health noInst Reg.pairHealth before v := by
    simp only [t, refreshHealth, hu, hv]
    split
    · exact .inl rfl
    · exact .inr rfl
  have hrd : ∀ a, rd t a = rd v a := by
    rcases ht with ht | ht
    · exact fun a => by rw [ht]
    · exact fun a => by rw [ht, raiseState, rd_raise]
  have heq : t = { s with regs := t.regs, evq := t.evq } := by
    rcases ht with ht | ht
    · rw [ht, hvs]
    · rw [hvs, raiseState] at ht
      rw [raise_frame ht]
  refine ⟨heq, fun a ha => ?_, fun b h8 h32 => ?_⟩
  · simp only [List.mem_cons, List.not_mem_nil, or_false, not_or] at ha
    rw [hrd, ← hv, rd_putF_ne ha.1, ← hu, rd_putB_ne ha.2]
  · rw [getB, hrd, ← hv, rd_putF_same, bit, fld_setFld_ne _ _ (by decide) (.inr (by omega)), ← bit, ← hu, rd_putB_ne (by decide), getB]

/-- The registers that an event of a penalty class in quadrant `q` may move. -/
def penaltyRegs (q : Nat) : List Nat := [Reg.pairHealth, Reg.pairStatus, Reg.mirRailState (q % 2)]

/-- An event in a quadrant is noted for its rail, and in MIRROR flags it. -/
theorem railEvent_cases (q : Nat) (s : State) :
    ∃ p, railEvent q s = { s with pair := p } ∨ railEvent q s = putB (Reg.mirRailState (q % 2)) (16 + q / 2) true { s with pair := p } := by
  unfold railEvent
  dsimp only
  split
  · exact ⟨_, .inr rfl⟩
  · exact ⟨_, .inl rfl⟩

theorem railEvent_spec {q : Nat} {s t : State} (ht : t = railEvent q s) :
    t = { s with regs := t.regs, pair := t.pair } ∧ RegsBut [Reg.mirRailState (q % 2)] s t := by
  obtain ⟨p, hp | hp⟩ := railEvent_cases q s <;> rw [ht, hp] <;> refine ⟨rfl, fun a ha => ?_⟩
  · rfl
  · rw [rd_putB_ne (by simpa using ha)]
    rfl

theorem penalty_spec {cls : Nat} {s t : State} (hc : cls < 16) (ht : t = penalty cls s) :
    t = { s with regs := t.regs, evq := t.evq, pair := t.pair } ∧ RegsBut [Reg.pairHealth, Reg.pairStatus] s t ∧ getB t Reg.pairHealth (16 + cls) = true := by
  obtain ⟨p, hp⟩ : ∃ p, penalty cls s = refreshHealth (rd s Reg.pairHealth) (putB Reg.pairHealth (16 + cls) true { s with pair := p }) := ⟨_, rfl⟩
  obtain ⟨heq, hregs, hbits⟩ := refreshHealth_spec (rd s Reg.pairHealth) (putB Reg.pairHealth (16 + cls) true { s with pair := p })
  rw [← hp, ← ht] at heq hregs hbits
  refine ⟨?_, fun a ha => ?_, ?_⟩
  · rw [heq]
    rfl
  · rw [hregs a ha, rd_putB_ne fun e => ha (by simp [e])]
    rfl
  · rw [hbits _ (by omega) (by omega), getB_putB_same _ _ _ (by omega)]

/-- An event of a penalty class puts the class's penalty in force, and moves only the health and the rails. -/
theorem penaltyAt_spec {q cls : Nat} {bs : List PathBlock} {s t : State} (hc : cls < 16) (ht : t = penaltyAt q cls bs s) :
    t = { s with regs := t.regs, evq := t.evq, pair := t.pair } ∧ RegsBut (penaltyRegs q) s t ∧ getB t Reg.pairHealth (16 + cls) = true := by
  obtain ⟨w, hw⟩ : ∃ w, penalty cls s = w := ⟨_, rfl⟩
  rw [penaltyAt, hw] at ht
  obtain ⟨hpen, hpregs, hbit⟩ := penalty_spec hc hw.symm
  obtain ⟨hrail, hrregs⟩ := railEvent_spec ht
  have hrd : ∀ a, a ≠ Reg.mirRailState (q % 2) → rd t a = rd w a := fun a ha => hrregs a (by simpa using ha)
  have hhealth : Reg.pairHealth ≠ Reg.mirRailState (q % 2) := by
    simp only [Reg.pairHealth, Reg.mirRailState]
    omega
  refine ⟨?_, fun a ha => ?_, ?_⟩
  · rw [hpen] at hrail
    rw [hrail]
    rfl
  · simp only [penaltyRegs, List.mem_cons, List.not_mem_nil, or_false, not_or] at ha
    obtain ⟨h1, h2, h3⟩ := ha
    rw [hrd a h3, hpregs a (by simp [h1, h2])]
  · rw [getB, hrd _ hhealth, ← getB, hbit]

/-! ## A word marked invalid, and a failing one (R85, R86) -/

/-- The registers that a word marked invalid at destination `d` counts in. -/
def invalidRegs (d : Nat) : List Nat := [Reg.fabStatus (quadOf d), Reg.fabDestCnt (quadOf d) (localOf d), Reg.fabInvalidTotal (quadOf d)]

/-- A word marked invalid is counted at its destination and in the quadrant. -/
structure InvalidCounted (d : Nat) (s t : State) : Prop where
  seen : getB t (Reg.fabStatus (quadOf d)) 9 = true
  dest : getF t (Reg.fabDestCnt (quadOf d) (localOf d)) 16 16 = min (2 ^ 16 - 1) (getF s (Reg.fabDestCnt (quadOf d) (localOf d)) 16 16 + 1)
  total : (rd t (Reg.fabInvalidTotal (quadOf d))).toNat = min (2 ^ 32 - 1) ((rd s (Reg.fabInvalidTotal (quadOf d))).toNat + 1)
  regs : RegsBut (invalidRegs d) s t

/-- Only the registers decide what has been counted. -/
theorem InvalidCounted.congr {d : Nat} {s s' t t' : State} (h : InvalidCounted d s t) (hs : s.regs = s'.regs) (ht : t'.regs = t.regs) : InvalidCounted d s' t' := by
  refine ⟨?_, ?_, ?_, fun a ha => ?_⟩
  · rw [getB_congr ht, h.seen]
  · rw [getF_congr ht, h.dest, getF_congr hs]
  · rw [rd_congr ht, h.total, rd_congr hs]
  · rw [rd_congr ht, h.regs a ha, rd_congr hs]

theorem fabInvalid_frame {d : Nat} {s t : State} (ht : t = fabInvalid d s) : t = { s with regs := t.regs } := by
  rw [ht]
  simp only [fabInvalid, bump, putB, count, wr]

theorem invalidCounted_fabInvalid (d : Nat) (s : State) : InvalidCounted d s (fabInvalid d s) := by
  have hcs : Reg.fabDestCnt (quadOf d) (localOf d) ≠ Reg.fabStatus (quadOf d) := by simp only [Reg.fabDestCnt, Reg.fabStatus]; omega
  have hci : Reg.fabDestCnt (quadOf d) (localOf d) ≠ Reg.fabInvalidTotal (quadOf d) := by simp only [Reg.fabDestCnt, Reg.fabInvalidTotal]; omega
  have his : Reg.fabInvalidTotal (quadOf d) ≠ Reg.fabStatus (quadOf d) := by simp only [Reg.fabInvalidTotal, Reg.fabStatus]; omega
  unfold fabInvalid
  refine ⟨?_, ?_, ?_, fun a ha => ?_⟩
  · rw [getB, rd_bump_ne hcs.symm, ← getB, getB_putB_same _ _ _ (by decide)]
  · rw [getF_bump_same _ _ _ (by decide), getF_putB_ne hcs, getF, rd_count_ne hci, ← getF]
  · rw [rd_bump_ne hci.symm, rd_putB_ne his, rd_count_same]
  · simp only [invalidRegs, List.mem_cons, List.not_mem_nil, or_false, not_or] at ha
    obtain ⟨h1, h2, h3⟩ := ha
    rw [rd_bump_ne h2, rd_putB_ne h1, rd_count_ne h3]

/-- The registers that a failing word of destination `d` from `src` counts in. -/
def failRegs (d src : Nat) : List Nat :=
  let q := quadOf d
  [Reg.fabStatus q, Reg.fabDestCnt q (localOf d), Reg.fabChkTotal q, Reg.fabPassChk q (quadOf src), Reg.fabLastFail q]

/-- A failing word is counted at its destination, in the quadrant and by the source's quadrant, with both named. -/
structure FailCounted (d src : Nat) (s t : State) : Prop where
  seen : getB t (Reg.fabStatus (quadOf d)) 8 = true
  dest : getF t (Reg.fabDestCnt (quadOf d) (localOf d)) 0 16 = min (2 ^ 16 - 1) (getF s (Reg.fabDestCnt (quadOf d) (localOf d)) 0 16 + 1)
  total : (rd t (Reg.fabChkTotal (quadOf d))).toNat = min (2 ^ 32 - 1) ((rd s (Reg.fabChkTotal (quadOf d))).toNat + 1)
  pass : (rd t (Reg.fabPassChk (quadOf d) (quadOf src))).toNat = min (2 ^ 32 - 1) ((rd s (Reg.fabPassChk (quadOf d) (quadOf src))).toNat + 1)
  lastDest : getF t (Reg.fabLastFail (quadOf d)) 0 16 = d
  lastSource : getF t (Reg.fabLastFail (quadOf d)) 16 16 = src

/-- The counting of `fabFail`. -/
def failCount (d src : Nat) (s : State) : State :=
  let q := quadOf d
  wr (Reg.fabLastFail q) (BitVec.ofNat 32 (d + src * 65536))
    (putB (Reg.fabStatus q) 8 true (bump (Reg.fabDestCnt q (localOf d)) 0 16 1 (count (Reg.fabChkTotal q) (count (Reg.fabPassChk q (quadOf src)) s))))

theorem rd_failCount_ne {d src a : Nat} (s : State) (ha : a ∉ failRegs d src) : rd (failCount d src s) a = rd s a := by
  simp only [failRegs, List.mem_cons, List.not_mem_nil, or_false, not_or] at ha
  obtain ⟨h1, h2, h3, h4, h5⟩ := ha
  simp only [failCount]
  rw [rd_wr_ne h5, rd_putB_ne h1, rd_bump_ne h2, rd_count_ne h3, rd_count_ne h4]

theorem failCount_counted {d src : Nat} (s : State) (hd : d < 65536) (hs : src < 65536) : FailCounted d src s (failCount d src s) := by
  have hq := quadOf_lt src
  have hsl : Reg.fabStatus (quadOf d) ≠ Reg.fabLastFail (quadOf d) := by simp only [Reg.fabStatus, Reg.fabLastFail]; omega
  have hcl : Reg.fabDestCnt (quadOf d) (localOf d) ≠ Reg.fabLastFail (quadOf d) := by simp only [Reg.fabDestCnt, Reg.fabLastFail]; omega
  have hcs : Reg.fabDestCnt (quadOf d) (localOf d) ≠ Reg.fabStatus (quadOf d) := by simp only [Reg.fabDestCnt, Reg.fabStatus]; omega
  have hct : Reg.fabDestCnt (quadOf d) (localOf d) ≠ Reg.fabChkTotal (quadOf d) := by simp only [Reg.fabDestCnt, Reg.fabChkTotal]; omega
  have hcp : Reg.fabDestCnt (quadOf d) (localOf d) ≠ Reg.fabPassChk (quadOf d) (quadOf src) := by simp only [Reg.fabDestCnt, Reg.fabPassChk]; omega
  have htl : Reg.fabChkTotal (quadOf d) ≠ Reg.fabLastFail (quadOf d) := by simp only [Reg.fabChkTotal, Reg.fabLastFail]; omega
  have hts : Reg.fabChkTotal (quadOf d) ≠ Reg.fabStatus (quadOf d) := by simp only [Reg.fabChkTotal, Reg.fabStatus]; omega
  have htp : Reg.fabChkTotal (quadOf d) ≠ Reg.fabPassChk (quadOf d) (quadOf src) := by simp only [Reg.fabChkTotal, Reg.fabPassChk]; omega
  have hpl : Reg.fabPassChk (quadOf d) (quadOf src) ≠ Reg.fabLastFail (quadOf d) := by simp only [Reg.fabPassChk, Reg.fabLastFail]; omega
  have hps : Reg.fabPassChk (quadOf d) (quadOf src) ≠ Reg.fabStatus (quadOf d) := by simp only [Reg.fabPassChk, Reg.fabStatus]; omega
  have hlast : (BitVec.ofNat 32 (d + src * 65536)).toNat = d + src * 65536 := by
    rw [BitVec.toNat_ofNat]
    omega
  constructor <;> simp only [failCount]
  · rw [getB, rd_wr_ne hsl, ← getB, getB_putB_same _ _ _ (by decide)]
  · rw [getF, rd_wr_ne hcl, rd_putB_ne hcs, ← getF, getF_bump_same _ _ _ (by decide), getF, rd_count_ne hct, rd_count_ne hcp, getF]
  · rw [rd_wr_ne htl, rd_putB_ne hts, rd_bump_ne hct.symm, rd_count_same, rd_count_ne htp]
  · rw [rd_wr_ne hpl, rd_putB_ne hps, rd_bump_ne hcp.symm, rd_count_ne htp.symm, rd_count_same]
  · rw [getF, rd_wr_same, fld, hlast]
    omega
  · rw [getF, rd_wr_same, fld, hlast]
    omega

/-- Only the registers it counts in decide whether a failure has been counted. -/
theorem FailCounted.regsKept {d src : Nat} {s t u : State} (h : FailCounted d src s t) (hr : ∀ a ∈ failRegs d src, rd u a = rd t a) : FailCounted d src s u := by
  simp only [failRegs, List.mem_cons, List.not_mem_nil, or_false, forall_eq_or_imp, forall_eq] at hr
  obtain ⟨h1, h2, h3, h4, h5⟩ := hr
  exact ⟨by rw [getB, h1]; exact h.seen, by rw [getF, h2]; exact h.dest, by rw [h3]; exact h.total, by rw [h4]; exact h.pass,
    by rw [getF, h5]; exact h.lastDest, by rw [getF, h5]; exact h.lastSource⟩

theorem FailCounted.congr {d src : Nat} {s s' t t' : State} (h : FailCounted d src s t) (hs : s.regs = s'.regs) (ht : t'.regs = t.regs) : FailCounted d src s' t' := by
  have h' := h.regsKept fun a _ => rd_congr ht a
  exact ⟨h'.seen, by rw [h'.dest, getF_congr hs], by rw [h'.total, rd_congr hs], by rw [h'.pass, rd_congr hs], h'.lastDest, h'.lastSource⟩

/-- The registers of the FAB blocks lie below those of the hub. -/
theorem failRegs_lt {d src a : Nat} (ha : a ∈ failRegs d src) : a < 0x400000 := by
  have hq := quadOf_lt d
  have hs := quadOf_lt src
  have hl := localOf_lt d
  simp only [failRegs, Reg.fabStatus, Reg.fabDestCnt, Reg.fabChkTotal, Reg.fabPassChk, Reg.fabLastFail, List.mem_cons, List.not_mem_nil, or_false] at ha
  omega

/-- The failing word is that of an output on air (R86). -/
abbrev OnAir (d : Nat) (s : State) : Prop := d < 1152 ∧ airOut s (if modeNow s = 2 then d % 576 else d) = true

/-- What a failing word of destination `d` from `src` leaves (R85, R86). -/
structure FabFailed (d src : Nat) (s t : State) : Prop where
  counted : FailCounted d src s t
  frame : t = { s with regs := t.regs, evq := t.evq, take := { s.take with chkEpoch := t.take.chkEpoch }, pair := t.pair }
  health : OnAir d s → getB t Reg.pairHealth 16 = true
  off : ¬ OnAir d s → t.pair = s.pair ∧ RegsBut (failRegs d src) s t

/-- The record of a failure, at most one per destination and epoch (R86). -/
def failRecord (d : Nat) (s : State) : State :=
  if tabGet 0 d s.take.chkEpoch = epochNow s + 1 then s
  else raiseFlag (Src.quad (quadOf d) 0) (localOf d) (Reg.fabStatus (quadOf d)) 8 { s with take := { s.take with chkEpoch := tabPut d (epochNow s + 1) s.take.chkEpoch } }

theorem failRecord_spec {d : Nat} {s t : State} (ht : t = failRecord d s) : t = { s with evq := t.evq, take := { s.take with chkEpoch := t.take.chkEpoch } } := by
  unfold failRecord at ht
  split at ht
  · rw [ht]
  · rw [raise_frame ht]

theorem fabFail_eq (d src : Nat) (s : State) :
    fabFail d src s = failRecord d (if OnAir d (failCount d src s) then penaltyAt (quadOf d) 0 [.output d] (failCount d src s) else failCount d src s) := by
  unfold fabFail
  rfl

theorem failCount_eq (d src : Nat) (s : State) : failCount d src s = { s with regs := (failCount d src s).regs } := by
  simp only [failCount, wr, putB, bump, count]

theorem airOut_of_regs {s t : State} (h : t = { s with regs := t.regs }) (n : Nat) : airOut t n = airOut s n := by
  rw [h]
  rfl

theorem onAir_congr {d : Nat} {s u : State} (hu : u = { s with take := u.take, mem := u.mem }) : OnAir d u ↔ OnAir d s := by
  rw [hu]
  rfl

theorem onAir_failCount (d src : Nat) (s : State) : OnAir d (failCount d src s) ↔ OnAir d s := by
  have hmode : modeNow (failCount d src s) = modeNow s := modeNow_congr (rd_failCount_ne s fun e => absurd (failRegs_lt e) (by decide))
  rw [OnAir, hmode, airOut_of_regs (failCount_eq d src s)]

/-- After the counting come the penalty of an output on air and the record. -/
theorem fabFailed_of_counted {d src : Nat} {s t u : State} (hcounted : FailCounted d src s u) (hcount : u = { s with regs := u.regs }) (hcregs : RegsBut (failRegs d src) s u)
    (hair : OnAir d u ↔ OnAir d s) (hfail : t = failRecord d (if OnAir d u then penaltyAt (quadOf d) 0 [.output d] u else u)) : FabFailed d src s t := by
  by_cases h : OnAir d u
  · rw [if_pos h] at hfail
    obtain ⟨v, hv⟩ : ∃ v, penaltyAt (quadOf d) 0 [.output d] u = v := ⟨_, rfl⟩
    rw [hv] at hfail
    obtain ⟨hpeq, hpregs, hpbit⟩ := penaltyAt_spec (by decide) hv.symm
    have hrec := failRecord_spec hfail
    have hrd : ∀ a, rd t a = rd v a := rd_congr (by rw [hrec])
    refine ⟨hcounted.regsKept fun a ha => ?_, ?_, fun _ => ?_, fun hn => absurd (hair.1 h) hn⟩
    · rw [hrd, hpregs a fun e => ?_]
      have hlt := failRegs_lt ha
      simp only [penaltyRegs, Reg.pairHealth, Reg.pairStatus, Reg.mirRailState, List.mem_cons, List.not_mem_nil, or_false] at e
      omega
    · rw [hcount] at hpeq
      rw [hpeq] at hrec
      rw [hrec]
    · rw [getB, hrd, ← getB, hpbit]
  · rw [if_neg h] at hfail
    have hrec := failRecord_spec hfail
    have hrd : ∀ a, rd t a = rd u a := rd_congr (by rw [hrec])
    refine ⟨hcounted.regsKept fun a _ => hrd a, ?_, fun ho => absurd (hair.2 ho) h, fun _ => ⟨?_, fun a ha => ?_⟩⟩
    · rw [hcount] at hrec
      rw [hrec]
    · rw [hrec, hcount]
    · rw [hrd, hcregs a ha]


theorem fabFailed_fabFail {d src : Nat} (s : State) (hd : d < 65536) (hs : src < 65536) : FabFailed d src s (fabFail d src s) :=
  fabFailed_of_counted (failCount_counted s hd hs) (failCount_eq d src s) (fun _ ha => rd_failCount_ne s ha) (onAir_failCount d src s) (fabFail_eq d src s)

/-! ## The mark of a word (R85) -/

/-- A word marked invalid leaves its mark at destination `d`: for the line of an output, or for the layer that a process send feeds. -/
structure WordMarked (d : Nat) (fault : Bool) (s t : State) : Prop where
  port : t.port = { s.port with outs := t.port.outs }
  others : ∀ x, x ≠ d → outTrack t x = outTrack s x
  output : d < 1152 → outTrack t d = { outTrack s d with invalid := true, internal := (outTrack s d).internal || fault }
  send : 1152 ≤ d → outTrack t d = outTrack s d
  layer : sendActive s d = true → 1152 ≤ d → tabFind d t.take.sendBad = some (s.now + 1)

/-- What happened between to the counters and the buffer does not bear on the mark. -/
theorem WordMarked.from {d : Nat} {fault : Bool} {s t u : State} (h : WordMarked d fault t u) (hport : t.port = s.port) (hplan : t.plan = s.plan) (hnow : t.now = s.now) :
    WordMarked d fault s u := by
  have hout : ∀ x, outTrack t x = outTrack s x := fun x => by rw [outTrack, hport, outTrack]
  have hsend : sendActive t d = sendActive s d := by simp only [sendActive, hplan, hnow]
  refine ⟨by rw [← hport]; exact h.port, fun x hx => by rw [h.others x hx, hout], fun hd => by rw [h.output hd, hout], fun hd => by rw [h.send hd, hout], fun ha hd => ?_⟩
  rw [h.layer (hsend.trans ha) hd, hnow]

theorem outTrack_putOut_same (n : Nat) (x : OutTrack) (s : State) : outTrack (putOut n x s) n = x := tabGet_set_same ..

theorem outTrack_putOut_ne {n m : Nat} (h : m ≠ n) (x : OutTrack) (s : State) : outTrack (putOut n x s) m = outTrack s m := tabGet_set_ne _ _ h ..

theorem wordMarked_fabMark (d : Nat) (fault : Bool) (s : State) : WordMarked d fault s (fabMark d fault s) := by
  unfold fabMark
  split
  · refine ⟨rfl, fun x hx => outTrack_putOut_ne hx .., fun _ => outTrack_putOut_same .., fun _ => ?_, fun _ _ => ?_⟩ <;> omega
  · split
    · rename_i hn hoff
      refine ⟨rfl, fun _ _ => rfl, fun h => absurd h hn, fun _ => rfl, fun hon => ?_⟩
      rw [hoff] at hon
      cases hon
    · exact ⟨rfl, fun _ _ => rfl, fun h => absurd h ‹_›, fun _ => rfl, fun _ _ => tabFind_put_same ..⟩

theorem fabMark_frame {d : Nat} {fault : Bool} {s t : State} (ht : t = fabMark d fault s) :
    t = { s with port := t.port, take := { s.take with sendBad := t.take.sendBad } } := by
  rw [ht]
  unfold fabMark
  (repeat' split) <;> rfl

/-! ## A word read at a destination (R83 to R86) -/

theorem nfld_checkCode (w : BitVec 48) : nfld w.toNat 40 8 = w.toNat / 2 ^ 40 := by
  have hw := w.isLt
  rw [nfld]
  omega

theorem nfld_content (n : Nat) : nfld n 0 40 = n % 2 ^ 40 := by
  rw [nfld, Nat.pow_zero, Nat.div_one]

section
variable {d : Nat} {content : BitVec 40} {flips : BitVec 48} {s : State}

/-- FABRIC_WORD_VERIFY acts at destination `d` (R74, R76, R77). -/
abbrev ReadsWord (d : Nat) (s : State) : Prop :=
  routeOf s d 0 ≠ noSource ∧ cycleNow s = slotOf d ∧ sourceUses s (routeOf s d 0) = true ∧ fabricUp s (quadOf d) = true

/-- The word as it reaches destination `d`. -/
def wordAtDest (d : Nat) (content : BitVec 40) (flips : BitVec 48) (s : State) : Nat := (wordOf (routeOf s d 0) content s ^^^ flips).toNat

/-- The check code that the word should bear. -/
def rightCode (d : Nat) (content : BitVec 40) (flips : BitVec 48) (s : State) : Nat :=
  checkCode (routeOf s d 0) (rowNow s) (wordAtDest d content flips s % 2 ^ 40)

theorem fabRead_idle (h : ¬ ReadsWord d s) : fabRead d content flips s = s := if_neg h

theorem fabRead_acts (h : ReadsWord d s) :
    fabRead d content flips s =
      let src := routeOf s d 0; let u := (rowWord src content s).1; let code := rightCode d content flips s; let got := wordAtDest d content flips s / 2 ^ 40
      if got = code then u else if got = 255 - code then fabMark d (sourceFault s src) (fabInvalid d u) else fabMark d true (fabFail d src u) := by
  obtain ⟨hword, -⟩ := rowWord_spec (routeOf s d 0) content s
  unfold fabRead
  rw [if_pos h]
  simp only [fabVerify, nfld_checkCode, nfld_content, hword]
  rfl

/-- A word whose code passes is left as it is: only the buffer moves. -/
theorem fabRead_passes {t : State} (h : ReadsWord d s) (hg : wordAtDest d content flips s / 2 ^ 40 = rightCode d content flips s) (ht : t = fabRead d content flips s) :
    Buffered (routeOf s d 0) content s t ∧ t.take.sendBad = s.take.sendBad ∧ t = { s with take := t.take, mem := t.mem } := by
  obtain ⟨-, hbuf, hframe, hbad⟩ := rowWord_spec (routeOf s d 0) content s
  rw [fabRead_acts h] at ht
  dsimp only at ht
  rw [if_pos hg] at ht
  rw [ht]
  exact ⟨hbuf, hbad, hframe⟩

/-- A word read, then counted, then marked: the buffer and the mark stand, and of the rest only what the counting moves. -/
theorem marked_after_counting {src : Nat} {fault : Bool} {u v t : State} (hbuf : Buffered src content s u) (hu : u = { s with take := u.take, mem := u.mem })
    (hv : v = { u with regs := v.regs, evq := v.evq, pair := v.pair, take := { u.take with chkEpoch := v.take.chkEpoch } }) (ht : t = fabMark d fault v) :
    Buffered src content s t ∧ WordMarked d fault s t ∧ t = { s with regs := v.regs, evq := v.evq, pair := v.pair, take := t.take, mem := t.mem, port := t.port } := by
  have hmark := wordMarked_fabMark d fault v
  rw [← ht] at hmark
  have hframe := fabMark_frame ht
  have hvtake : v.take = { u.take with chkEpoch := v.take.chkEpoch } := by rw [hv]
  have htake : t.take = { v.take with sendBad := t.take.sendBad } := by rw [hframe]
  have hmem : t.mem = u.mem := by rw [hframe, hv]
  refine ⟨hbuf.later ?_ hmem, hmark.from ?_ ?_ ?_, ?_⟩
  · rw [htake, hvtake]
  · rw [hv, hu]
  · rw [hv, hu]
  · rw [hv, hu]
  · rw [hframe, hv, hu]

/-- A word with the complement of its code is invalid: counted and marked. -/
theorem fabRead_complement {t : State} (h : ReadsWord d s) (hg : wordAtDest d content flips s / 2 ^ 40 ≠ rightCode d content flips s)
    (hc : wordAtDest d content flips s / 2 ^ 40 = 255 - rightCode d content flips s) (ht : t = fabRead d content flips s) :
    Buffered (routeOf s d 0) content s t ∧ WordMarked d (sourceFault s (routeOf s d 0)) s t ∧ InvalidCounted d s t
      ∧ t = { s with regs := t.regs, take := t.take, mem := t.mem, port := t.port } := by
  obtain ⟨-, hbuf, hu, -⟩ := rowWord_spec (routeOf s d 0) content s
  rw [fabRead_acts h] at ht
  dsimp only at ht
  rw [if_neg hg, if_pos hc] at ht
  obtain ⟨u, hue⟩ : ∃ u, (rowWord (routeOf s d 0) content s).1 = u := ⟨_, rfl⟩
  rw [hue] at ht hbuf hu
  have hcount := invalidCounted_fabInvalid d u
  obtain ⟨v, hve⟩ : ∃ v, fabInvalid d u = v := ⟨_, rfl⟩
  rw [hve] at ht hcount
  have hv := fabInvalid_frame hve.symm
  have hvf : v = { u with regs := v.regs, evq := v.evq, pair := v.pair, take := { u.take with chkEpoch := v.take.chkEpoch } } := by rw [hv]
  obtain ⟨hbuf', hmark, hframe⟩ := marked_after_counting hbuf hu hvf ht
  have hregs : t.regs = v.regs := by rw [hframe]
  have hevq : v.evq = s.evq := by rw [hv, hu]
  have hpair : v.pair = s.pair := by rw [hv, hu]
  refine ⟨hbuf', hmark, hcount.congr (by rw [hu]) hregs, ?_⟩
  rw [← hregs, hevq, hpair] at hframe
  exact hframe

/-- A word with any other code fails: counted, marked as of an internal fault, and a penalty for an output on air. -/
theorem fabRead_fails {t : State} (h : ReadsWord d s) (hd : d < 65536) (hg : wordAtDest d content flips s / 2 ^ 40 ≠ rightCode d content flips s)
    (hc : wordAtDest d content flips s / 2 ^ 40 ≠ 255 - rightCode d content flips s) (ht : t = fabRead d content flips s) :
    Buffered (routeOf s d 0) content s t ∧ WordMarked d true s t ∧ FailCounted d (routeOf s d 0) s t ∧ (OnAir d s → getB t Reg.pairHealth 16 = true)
      ∧ (¬ OnAir d s → t = { s with regs := t.regs, evq := t.evq, take := t.take, mem := t.mem, port := t.port } ∧ RegsBut (failRegs d (routeOf s d 0)) s t) := by
  have hsrc : routeOf s d 0 < 65536 := Nat.lt_trans (fld_lt _ _ _) (by decide)
  obtain ⟨-, hbuf, hu, -⟩ := rowWord_spec (routeOf s d 0) content s
  rw [fabRead_acts h] at ht
  dsimp only at ht
  rw [if_neg hg, if_neg hc] at ht
  obtain ⟨u, hue⟩ : ∃ u, (rowWord (routeOf s d 0) content s).1 = u := ⟨_, rfl⟩
  rw [hue] at ht hbuf hu
  have hfail := fabFailed_fabFail u hd hsrc
  obtain ⟨v, hve⟩ : ∃ v, fabFail d (routeOf s d 0) u = v := ⟨_, rfl⟩
  rw [hve] at ht hfail
  obtain ⟨hbuf', hmark, hframe⟩ := marked_after_counting hbuf hu hfail.frame ht
  have hregs : t.regs = v.regs := by rw [hframe]
  have huregs : u.regs = s.regs := by rw [hu]
  have hair : OnAir d u ↔ OnAir d s := onAir_congr hu
  refine ⟨hbuf', hmark, hfail.counted.congr huregs hregs, fun ho => ?_, fun hn => ?_⟩
  · rw [getB_congr hregs, hfail.health (hair.2 ho)]
  · obtain ⟨hpair, hoff⟩ := hfail.off fun ho => hn (hair.1 ho)
    have hevq : t.evq = v.evq := by rw [hframe]
    rw [← hregs, ← hevq, hpair, show u.pair = s.pair by rw [hu]] at hframe
    exact ⟨hframe, fun a ha => by rw [rd_congr hregs, hoff a ha, rd_congr huregs]⟩

end

end Sys2Proof.Machine
end

section
namespace Sys2Proof.Machine

/-! ## The egress of MIRROR selects a rail (15_the_pair.md R590, R591) -/

section
variable {n : Nat} {home twin : RailWord} {s : State}

/-- The output at `n` of MIRROR sends the word `p`, or none. -/
def egressPut (n : Nat) (p : Option (BitVec 40)) (s : State) : State := putPair (fun q => { q with egress := tabPut n p q.egress }) s

/-- The word that the egress of output `n` selected. -/
structure Selected (n : Nat) (p : Option (BitVec 40)) (s t : State) : Prop where
  word : tabFind n t.pair.egress = some p
  others : ∀ x, x ≠ n → tabFind x t.pair.egress = tabFind x s.pair.egress

theorem selected_egressPut (n : Nat) (p : Option (BitVec 40)) {s v : State} (h : v.pair.egress = s.pair.egress) : Selected n p s (egressPut n p v) :=
  ⟨tabFind_put_same .., fun x hx => by rw [← h]; exact tabFind_put_ne hx ..⟩

/-- The content of a word as the egress receives it. -/
def railContent (n : Nat) (w : RailWord) (s : State) : BitVec 40 := BitVec.ofNat 40 (railWord n (rowNow s) w).toNat

/-- A rail fails a word by its code, by the mark of the line, or by what the rail has in force. -/
theorem railFault_eq (s : State) (n row : Nat) (x : Bool) (w : RailWord) :
    railFault s n row x w = (decide ((railWord n row w).toNat / 2 ^ 40 ≠ checkCode n row ((railWord n row w).toNat % 2 ^ 40))
      || ((outTrack s (if x = true then n + 576 else n)).sent.elim false SentLine.internal)
      || getB s (Reg.mirRailState (n / 288)) (if x = true then 17 else 16) || getB s (Reg.mirRailState (n / 288)) (if x = true then 19 else 18)) := by
  simp only [railFault, nfld_checkCode, nfld_content, railFlagged, Bool.or_assoc]
  cases x <;> rfl

theorem railBad_eq (s : State) (n row : Nat) (x : Bool) (w : RailWord) :
    railBad s n row x w = (railFault s n row x w || ((outTrack s (if x = true then n + 576 else n)).sent.elim false SentLine.invalid)) := by
  cases x <;> rfl

theorem egressSelect_agree (hh : railBad s n (rowNow s) false home = false) (ht : railBad s n (rowNow s) true twin = false) (hw : railContent n home s = railContent n twin s) :
    egressSelect n home twin s = egressPut n (some (railContent n home s)) s := by
  have hw' : decide (BitVec.ofNat 40 (railWord n (rowNow s) home).toNat = BitVec.ofNat 40 (railWord n (rowNow s) twin).toNat) = true := decide_eq_true hw
  unfold egressSelect
  simp only [hh, ht, hw']
  rfl

theorem egressSelect_differ (hh : railBad s n (rowNow s) false home = false) (ht : railBad s n (rowNow s) true twin = false) (hw : railContent n home s ≠ railContent n twin s) :
    egressSelect n home twin s = egressPut n (some (railContent n home s)) (egressBoth (n / 288) false s) := by
  have hw' : decide (BitVec.ofNat 40 (railWord n (rowNow s) home).toNat = BitVec.ofNat 40 (railWord n (rowNow s) twin).toNat) = false := decide_eq_false hw
  unfold egressSelect
  simp only [hh, ht, hw']
  rfl

theorem egressSelect_masked (h : railBad s n (rowNow s) false home ≠ railBad s n (rowNow s) true twin) :
    egressSelect n home twin s
      = egressPut n (some (if railBad s n (rowNow s) false home = false then railContent n home s else railContent n twin s)) (bump (Reg.mirRailCnt (n / 288)) 0 16 1 s) := by
  unfold egressSelect
  cases hh : railBad s n (rowNow s) false home with
  | true =>
    have ht : railBad s n (rowNow s) true twin = false := by simpa [hh] using h
    simp only [hh, ht]
    rfl
  | false =>
    have ht : railBad s n (rowNow s) true twin = true := by simpa [hh] using h
    simp only [hh, ht]
    rfl

theorem egressSelect_lost (hh : railBad s n (rowNow s) false home = true) (ht : railBad s n (rowNow s) true twin = true) :
    egressSelect n home twin s = egressPut n none (putOut n { outTrack s n with
        invalid := true, internal := (outTrack s n).internal || (railFault s n (rowNow s) false home || railFault s n (rowNow s) true twin) } (bump (Reg.mirRailState (n / 288)) 0 16 1 s)) := by
  unfold egressSelect
  simp only [hh, ht]
  rfl

/-- Two good words that disagree are counted, and recorded at most once per epoch. -/
theorem egressBoth_spec {k : Nat} {s t : State} (ht : t = egressBoth k false s) :
    t = { s with regs := t.regs, evq := t.evq, pair := { s.pair with railRec := t.pair.railRec } } ∧ t.regs = (bump (Reg.mirRailCnt k) 16 16 1 s).regs := by
  have hbump : bump (Reg.mirRailCnt k) 16 16 1 s = { s with regs := (bump (Reg.mirRailCnt k) 16 16 1 s).regs } := rfl
  unfold egressBoth at ht
  rw [if_neg (by decide)] at ht
  obtain ⟨v, hv⟩ : ∃ v, bump (Reg.mirRailCnt k) 16 16 1 s = v := ⟨_, rfl⟩
  rw [hv] at ht hbump ⊢
  dsimp only at ht
  split at ht
  · rw [ht]
    exact ⟨by rw [hbump], rfl⟩
  · have hraise := raise_frame ht
    exact ⟨by rw [hraise, hbump]; rfl, by rw [hraise]; rfl⟩

/-- A count of the egress block moves by one, and no other register. -/
theorem counted_bump {a lo : Nat} {s t : State} (h : lo + 16 ≤ 32) (ht : t.regs = (bump a lo 16 1 s).regs) :
    getF t a lo 16 = min (2 ^ 16 - 1) (getF s a lo 16 + 1) ∧ RegsBut [a] s t :=
  ⟨by rw [getF_congr ht, getF_bump_same _ _ _ h], fun x hx => by rw [rd_congr ht, rd_bump_ne (by simpa using hx)]⟩

/-- Two good words that agree: the home rail's is sent, and nothing is counted. -/
theorem egress_agree {t : State} (hh : railBad s n (rowNow s) false home = false) (ht : railBad s n (rowNow s) true twin = false)
    (hw : railContent n home s = railContent n twin s) (he : t = egressSelect n home twin s) :
    Selected n (some (railContent n home s)) s t ∧ t.regs = s.regs ∧ t = { s with regs := t.regs, pair := { s.pair with egress := t.pair.egress } } := by
  rw [egressSelect_agree hh ht hw] at he
  rw [he]
  exact ⟨selected_egressPut _ _ rfl, rfl, rfl⟩

/-- Two good words that disagree: the home rail's is sent, and the disagreement is counted. -/
theorem egress_differ {t : State} (hh : railBad s n (rowNow s) false home = false) (ht : railBad s n (rowNow s) true twin = false)
    (hw : railContent n home s ≠ railContent n twin s) (he : t = egressSelect n home twin s) :
    Selected n (some (railContent n home s)) s t ∧ t.regs = (bump (Reg.mirRailCnt (n / 288)) 16 16 1 s).regs
      ∧ t = { s with regs := t.regs, evq := t.evq, pair := { s.pair with egress := t.pair.egress, railRec := t.pair.railRec } } := by
  obtain ⟨v, hv⟩ : ∃ v, egressBoth (n / 288) false s = v := ⟨_, rfl⟩
  obtain ⟨hframe, hregs⟩ := egressBoth_spec hv.symm
  rw [egressSelect_differ hh ht hw, hv] at he
  rw [he]
  refine ⟨selected_egressPut _ _ (by rw [hframe]), hregs, ?_⟩
  rw [hframe]
  rfl

/-- One bad word: the other is sent, and the bad one is counted as masked. -/
theorem egress_masked {t : State} (h : railBad s n (rowNow s) false home ≠ railBad s n (rowNow s) true twin) (he : t = egressSelect n home twin s) :
    Selected n (some (if railBad s n (rowNow s) false home = false then railContent n home s else railContent n twin s)) s t
      ∧ t.regs = (bump (Reg.mirRailCnt (n / 288)) 0 16 1 s).regs ∧ t = { s with regs := t.regs, pair := { s.pair with egress := t.pair.egress } } := by
  rw [egressSelect_masked h] at he
  rw [he]
  exact ⟨selected_egressPut _ _ rfl, rfl, rfl⟩

/-- Two bad words: none is sent, the loss is counted, and the output's line is marked. -/
theorem egress_lost {t : State} (hh : railBad s n (rowNow s) false home = true) (ht : railBad s n (rowNow s) true twin = true) (he : t = egressSelect n home twin s) :
    Selected n none s t ∧ t.regs = (bump (Reg.mirRailState (n / 288)) 0 16 1 s).regs
      ∧ t = { s with regs := t.regs, port := t.port, pair := { s.pair with egress := t.pair.egress } }
      ∧ t.port = { s.port with outs := t.port.outs } ∧ (∀ x, x ≠ n → outTrack t x = outTrack s x)
      ∧ outTrack t n = { outTrack s n with
          invalid := true, internal := (outTrack s n).internal || (railFault s n (rowNow s) false home || railFault s n (rowNow s) true twin) } := by
  rw [egressSelect_lost hh ht] at he
  rw [he]
  exact ⟨selected_egressPut _ _ rfl, rfl, rfl, rfl, fun x hx => outTrack_putOut_ne hx .., outTrack_putOut_same ..⟩

end

/-- Settles O34: a word read at a destination is taken from the interchange buffer and judged by its code, and the egress of MIRROR judges both rails by `railBad`. -/
theorem wordsAreVerifiedAndSelected : Obligations.WordsAreVerifiedAndSelected := by
  unfold Obligations.WordsAreVerifiedAndSelected
  refine ⟨?_, ?_⟩
  · intro dt s hp d hd content flips u src q row held code w0 w right got acts c buffered marked
    have hacts : ReadsWord d u ↔ acts := Iff.rfl
    have hw : wordAtDest d content flips u = w := rfl
    have hright : rightCode d content flips u = right := rfl
    have hrun : ∀ P, P (fabRead d content flips u) → Completes c s P := fun P h => completes_only rfl (decide_eq_true hd) hp h
    have hbuffered : ∀ t, Buffered src content u t → buffered t := fun t h => ⟨h.word, h.row, h.others, h.spoilt, h.take, h.mem⟩
    have hmarked : ∀ fault t, WordMarked d fault u t → marked fault t := fun fault t h => ⟨⟨h.port, h.others⟩, h.output, h.send, h.layer⟩
    refine ⟨fun hn => hrun _ ?_, fun ha hg => hrun _ ?_, fun ha hg hc => hrun _ ?_, fun ha hg hc => hrun _ ?_⟩
    · exact fabRead_idle fun h => hn (hacts.1 h)
    · obtain ⟨hbuf, hbad, hframe⟩ := fabRead_passes (hacts.2 ha) hg rfl
      exact ⟨hbuffered _ hbuf, hbad, hframe⟩
    · obtain ⟨hbuf, hmark, hcount, hframe⟩ := fabRead_complement (hacts.2 ha) hg hc rfl
      exact ⟨hbuffered _ hbuf, hmarked _ _ hmark, hcount.seen, hcount.dest, hcount.total, hframe, hcount.regs⟩
    · obtain ⟨hbuf, hmark, hcount, hhealth, hoff⟩ := fabRead_fails (hacts.2 ha) (by omega) hg hc rfl
      refine ⟨hbuffered _ hbuf, hmarked _ _ hmark, hcount.seen, hcount.dest, hcount.total, hcount.pass, hcount.lastDest, hcount.lastSource,
        fun hout hair => hhealth ⟨hout, hair⟩, fun hno => hoff fun ⟨hout, hair⟩ => ?_⟩
      rcases hno with hsend | hdark
      · omega
      · exact absurd (hair.symm.trans hdark) (by decide)
  · intro dt s hp hm n hn home twin k row recv word fault bad picks only
    have hfault : ∀ x w, fault x w = railFault (tick dt s) n (rowNow (tick dt s)) x w := fun x w => (railFault_eq (tick dt s) n (rowNow (tick dt s)) x w).symm
    have hbad : ∀ x w, bad x w = railBad (tick dt s) n (rowNow (tick dt s)) x w := fun x w => by
      rw [railBad_eq, ← hfault]
      rfl
    have hguard : (decide (modeNow (tick dt s) = 2) && decide (n < 576)) = true := by
      rw [modeNow_tick, hm, decide_eq_true hn]
      rfl
    have hrun : ∀ P, P (egressSelect n home twin (tick dt s)) → Completes (.egressWordSelect dt n home twin) s P := fun P h => completes_only rfl hguard hp h
    rw [hbad, hbad]
    refine ⟨fun hh ht hw => hrun _ ?_, fun hh ht hw => hrun _ ?_, fun hne => hrun _ ?_, fun hh ht => hrun _ ?_⟩
    · obtain ⟨⟨hword, hothers⟩, hregs, hframe⟩ := egress_agree hh ht hw rfl
      exact ⟨⟨hword, hothers⟩, hframe, fun a _ => rd_congr hregs a⟩
    · obtain ⟨⟨hword, hothers⟩, hregs, hframe⟩ := egress_differ hh ht hw rfl
      obtain ⟨hcnt, hbut⟩ := counted_bump (by decide) hregs
      exact ⟨⟨hword, hothers⟩, hcnt, hframe, hbut⟩
    · obtain ⟨⟨hword, hothers⟩, hregs, hframe⟩ := egress_masked hne rfl
      obtain ⟨hcnt, hbut⟩ := counted_bump (by decide) hregs
      exact ⟨⟨hword, hothers⟩, hcnt, hframe, hbut⟩
    · obtain ⟨⟨hword, hothers⟩, hregs, hframe, hport, houts, hmark⟩ := egress_lost hh ht rfl
      obtain ⟨hcnt, hbut⟩ := counted_bump (by decide) hregs
      rw [hfault, hfault, Bool.or_assoc]
      exact ⟨⟨hword, hothers⟩, ⟨hport, houts⟩, hmark, hcnt, hframe, hbut⟩

end Sys2Proof.Machine
end

section
/-! Input pipelines (03_port_pipelines.md R127 to R139, R154, R161): what the stages of an input move and what they leave alone, stage by stage. -/

namespace Sys2Proof.Machine

/-! ## Registers left alone -/

theorem RegsBut.refl (as : List Nat) (s : State) : RegsBut as s s := fun _ _ => rfl

theorem RegsBut.trans {as : List Nat} {s u t : State} (h1 : RegsBut as s u) (h2 : RegsBut as u t) : RegsBut as s t :=
  fun a ha => (h2 a ha).trans (h1 a ha)

theorem RegsBut.mono {as bs : List Nat} {s t : State} (h : RegsBut as s t) (hs : as ⊆ bs) : RegsBut bs s t := fun a ha => h a fun hm => ha (hs hm)

theorem regsBut_wr (a : Nat) (v : Word) (s : State) : RegsBut [a] s (wr a v s) := fun _ hb => rd_wr_ne (by simpa using hb) ..

theorem getB_eq_getF (s : State) (a b : Nat) : getB s a b = (getF s a b 1 == 1) := rfl

/-- A field of a register reads as before where the bits put lie outside it. -/
theorem getF_putB_fld (a : Nat) {b lo m : Nat} (v : Bool) (s : State) (h : b < 32) (hd : lo + m ≤ b ∨ b + 1 ≤ lo) : getF (putB a b v s) a lo m = getF s a lo m :=
  getF_putF_fld a _ s (by omega) hd

/-- A field of 32 bits counts on, saturating. -/
theorem count32_of_rd {s t : State} {a k : Nat} (h : rd t a = rd (bump a 0 32 k s) a) : (rd t a).toNat = min (2 ^ 32 - 1) ((rd s a).toNat + k) := by
  rw [h, rd_bump_same, bumpFld_32]

theorem count32_zero {s t : State} {a : Nat} (h : rd t a = rd s a) : (rd t a).toNat = min (2 ^ 32 - 1) ((rd s a).toNat + 0) := by
  have hlt := (rd s a).isLt
  rw [h]
  omega

theorem count32_add {x y z j k : Nat} (h1 : y = min (2 ^ 32 - 1) (x + j)) (h2 : z = min (2 ^ 32 - 1) (y + k)) : z = min (2 ^ 32 - 1) (x + (j + k)) := by
  omega

/-! ## Events -/

/-- A state event moves its register and the event queues; the register reads as put. -/
theorem stateEvent_spec (src inst a lo n v : Nat) (s : State) : let t := stateEvent src inst a lo n v s
    t = { s with regs := t.regs, evq := t.evq } ∧ ∀ b, rd t b = rd (putF a lo n v s) b := by
  intro t
  by_cases h : rd (putF a lo n v s) a = rd s a
  · have ht : t = s := if_pos h
    rw [ht]
    refine ⟨rfl, fun b => ?_⟩
    by_cases hb : b = a
    · rw [hb, h]
    · rw [rd_putF_ne hb]
  · have ht : t = raiseState src inst a (rd s a) (putF a lo n v s) := if_neg h
    refine ⟨?_, fun b => by rw [ht, raiseState, rd_raise]⟩
    rw [raiseState] at ht
    rw [raise_frame ht]
    rfl

theorem flagEvent_spec (src inst a b : Nat) (s : State) : let t := flagEvent src inst a b s
    t = { s with regs := t.regs, evq := t.evq } ∧ ∀ c, rd t c = rd (putB a b true s) c := by
  intro t
  have ht : t = raise src inst 2 (rd (putB a b true s) a) (BitVec.ofNat 32 b) 0 (putB a b true s) := rfl
  refine ⟨?_, fun c => by rw [ht, rd_raise]⟩
  rw [raise_frame ht]
  rfl

/-! ## What work on an input moves -/

theorem inTrack_congr {s t : State} (h : t.port = s.port) (n : Nat) : inTrack t n = inTrack s n := by rw [inTrack, h, inTrack]

@[simp] theorem inTrack_putIn_same (n : Nat) (x : InTrack) (s : State) : inTrack (putIn n x s) n = x := tabGet_set_same ..

theorem inTrack_putIn_ne {n m : Nat} (h : m ≠ n) (x : InTrack) (s : State) : inTrack (putIn n x s) m = inTrack s m := tabGet_set_ne _ _ h ..

/-- Work on input `n`: registers among `as`, events, its own track, synchronisers, source channels and trunk streams may move, and nothing else. -/
structure InMoves (n : Nat) (as : List Nat) (s t : State) : Prop where
  frame : t = { s with regs := t.regs, evq := t.evq, port := { s.port with ins := t.port.ins }, mem := { s.mem with fs := t.mem.fs },
                       aud := { s.aud with srcs := t.aud.srcs }, trk := { s.trk with streams := t.trk.streams } }
  regs : RegsBut as s t
  others : ∀ m, m ≠ n → inTrack t m = inTrack s m

namespace InMoves

theorem refl (n : Nat) (as : List Nat) (s : State) : InMoves n as s s := ⟨rfl, .refl as s, fun _ _ => rfl⟩

theorem trans {n : Nat} {as : List Nat} {s u t : State} (h1 : InMoves n as s u) (h2 : InMoves n as u t) : InMoves n as s t := by
  refine ⟨?_, h1.regs.trans h2.regs, fun m hm => (h2.others m hm).trans (h1.others m hm)⟩
  have h := h2.frame
  rw [h1.frame] at h
  exact h

theorem mono {n : Nat} {as bs : List Nat} {s t : State} (h : InMoves n as s t) (hs : as ⊆ bs) : InMoves n bs s t := ⟨h.frame, h.regs.mono hs, h.others⟩

theorem now {n : Nat} {as : List Nat} {s t : State} (h : InMoves n as s t) : t.now = s.now := by rw [h.frame]

theorem plan {n : Nat} {as : List Nat} {s t : State} (h : InMoves n as s t) : t.plan = s.plan := by rw [h.frame]

/-- Work that leaves the tracks of all inputs alone. -/
theorem of_regs {n : Nat} {as : List Nat} {s t : State} (h : t = { s with regs := t.regs, evq := t.evq }) (hr : RegsBut as s t) : InMoves n as s t := by
  refine ⟨?_, hr, fun m _ => inTrack_congr (by rw [h]) m⟩
  rw [h]

end InMoves

theorem inMoves_wr (n a : Nat) (v : Word) (s : State) : InMoves n [a] s (wr a v s) := .of_regs rfl (regsBut_wr a v s)

theorem inMoves_putIn (n : Nat) (as : List Nat) (x : InTrack) (s : State) : InMoves n as s (putIn n x s) := ⟨rfl, fun _ _ => rfl, fun _ hm => inTrack_putIn_ne hm x s⟩

theorem inMoves_stateEvent (n src inst a lo m v : Nat) (s : State) : InMoves n [a] s (stateEvent src inst a lo m v s) := by
  obtain ⟨hframe, hrd⟩ := stateEvent_spec src inst a lo m v s
  exact .of_regs hframe fun b hb => (hrd b).trans (rd_putF_ne (by simpa using hb) ..)

theorem inMoves_flagEvent (n src inst a b : Nat) (s : State) : InMoves n [a] s (flagEvent src inst a b s) := by
  obtain ⟨hframe, hrd⟩ := flagEvent_spec src inst a b s
  exact .of_regs hframe fun c hc => (hrd c).trans (rd_putB_ne (by simpa using hc) ..)

theorem inMoves_raiseFlag (n : Nat) (as : List Nat) (src inst a b : Nat) (s : State) : InMoves n as s (raiseFlag src inst a b s) := by
  obtain ⟨t, ht⟩ : ∃ t, raiseFlag src inst a b s = t := ⟨_, rfl⟩
  rw [ht]
  refine .of_regs ?_ fun c _ => by rw [← ht, raiseFlag, rd_raise]
  rw [raise_frame ht.symm]

/-! ## Audio (R134 to R137) -/

/-- The de-embedder of input `n` has worked: its flags, events, what its track holds of audio, and source channels may have moved. -/
structure DeEmbedded (n : Nat) (s t : State) : Prop extends InMoves n [Reg.pinAudStatus n] s t where
  mem : t.mem = s.mem
  trk : t.trk = s.trk
  track : inTrack t n = { inTrack s n with audNow := (inTrack t n).audNow, audAsync := (inTrack t n).audAsync,
                                           ctlNow := (inTrack t n).ctlNow, audCount := (inTrack t n).audCount }

theorem DeEmbedded.refl (n : Nat) (s : State) : DeEmbedded n s s := ⟨.refl .., rfl, rfl, rfl⟩

theorem DeEmbedded.trans {n : Nat} {s u t : State} (h1 : DeEmbedded n s u) (h2 : DeEmbedded n u t) : DeEmbedded n s t := by
  refine ⟨h1.toInMoves.trans h2.toInMoves, h2.mem.trans h1.mem, h2.trk.trans h1.trk, ?_⟩
  have h := h2.track
  rw [h1.track] at h
  exact h

/-- Work that moves registers and events only. -/
theorem DeEmbedded.of_regs {n : Nat} {s t : State} (h : t = { s with regs := t.regs, evq := t.evq }) (hr : RegsBut [Reg.pinAudStatus n] s t) : DeEmbedded n s t := by
  refine ⟨.of_regs h hr, by rw [h], by rw [h], ?_⟩
  rw [inTrack_congr (show t.port = s.port by rw [h])]

theorem deEmbedded_audFlag (n b : Nat) (s : State) : DeEmbedded n s (audFlag n b s) := by
  unfold audFlag
  split
  · exact .refl n s
  · obtain ⟨hframe, hrd⟩ := flagEvent_spec (Src.input n) noInst (Reg.pinAudStatus n) b s
    exact .of_regs hframe fun c hc => (hrd c).trans (rd_putB_ne (by simpa using hc) ..)

theorem inTrack_audFlag (n b m : Nat) (s : State) : inTrack (audFlag n b s) m = inTrack s m := by
  unfold audFlag
  split
  · rfl
  · exact inTrack_congr (by rw [(flagEvent_spec _ _ _ _ s).1]) m

theorem audFlag_aud (n b : Nat) (s : State) : (audFlag n b s).aud = s.aud := by
  unfold audFlag
  split
  · rfl
  · rw [(flagEvent_spec _ _ _ _ s).1]

/-- What the de-embedder notes in the input's track. -/
theorem deEmbedded_putIn {n : Nat} {x : InTrack} {s : State}
    (h : x = { inTrack s n with audNow := x.audNow, audAsync := x.audAsync, ctlNow := x.ctlNow, audCount := x.audCount }) : DeEmbedded n s (putIn n x s) := by
  refine ⟨inMoves_putIn .., rfl, rfl, ?_⟩
  rw [inTrack_putIn_same]
  exact h

theorem deEmbedded_audPush (n ch : Nat) (w : Word) (s : State) : DeEmbedded n s (audPush ch w s) := ⟨⟨rfl, fun _ _ => rfl, fun _ _ => rfl⟩, rfl, rfl, rfl⟩

theorem DeEmbedded.foldl {α : Type} {n : Nat} {f : State → α → State} (h : ∀ s x, DeEmbedded n s (f s x)) (l : List α) (s : State) : DeEmbedded n s (l.foldl f s) :=
  List.foldlRecOn l f (.refl n s) fun _ hu x _ => hu.trans (h _ x)

theorem deEmbedded_audGroupPush (n m g : Nat) (ws : List Word) (s : State) : DeEmbedded n s (audGroupPush m g ws s) :=
  .foldl (fun s _ => deEmbedded_audPush n _ _ s) _ s

theorem DeEmbedded.ite {n : Nat} {c : Prop} [Decidable c] {s u t : State} (h1 : DeEmbedded n s u) (h2 : DeEmbedded n s t) : DeEmbedded n s (if c then u else t) := by
  split
  · exact h1
  · exact h2

/-- The track of an input once a data packet of audio group `g` has been found. -/
def audFound (g : Nat) (t : InTrack) : InTrack :=
  { t with audNow := nset t.audNow (g - 1) true, audCount := tabPut g (tabGet 0 g t.audCount + 1) t.audCount }

/-- A data packet of audio group `g` whose parity has been looked at: its rate is flagged, and it takes its place in the cadence. -/
def audPlace (n g : Nat) (s : State) : State :=
  putIn n (audFound g (inTrack s n)) (if audDeclared (inTrack s n) g = planeRate s then s else audFlag n 16 s)

/-- The slots that a data packet brings: zero where its line is missing or its group's rate is not the plane's. -/
def audSlots (n g : Nat) (silent : Bool) (p : AudPkt) (s : State) : List Word :=
  p.samples.map fun x => if silent || decide (audDeclared (inTrack s n) g ≠ planeRate s) then 0 else audSlotOf x

/-- The parity of a data packet's samples is flagged. -/
def audParity (n : Nat) (p : AudPkt) (s : State) : State := if p.samples.any fun x => !x.parityOk then audFlag n 18 s else s

/-- A data packet after its parity: its samples enter the plane, so far as the cadence has room. -/
def audEnter (n g : Nat) (c : InCfg) (silent : Bool) (p : AudPkt) (s : State) : State :=
  if audNeed (audPlace n g s) c (inTrack s n) ≤ tabGet 0 g (inTrack s n).audCount then audFlag n 17 (audPlace n g s)
  else audGroupPush n g (audSlots n g silent p s) (audPlace n g s)

theorem inAudio_data {n g : Nat} (c : InCfg) (silent : Bool) (s : State) {p : AudPkt} (hctl : audCtlGroup p.did = none) (hg : audDataGroup p.did = some g) :
    inAudio n c silent s p = audEnter n g c silent p (audParity n p s) := by
  unfold inAudio
  rw [hctl, hg]
  rfl

/-- The track of an input once a control packet of audio group `g` has been found. -/
def audDeclaredBy (g : Nat) (p : AudPkt) (t : InTrack) : InTrack :=
  { t with audNow := nset t.audNow (g - 1) true, ctlNow := tabPut g (p.rate, p.async) t.ctlNow,
           audAsync := if p.async then nset t.audAsync (g - 1) true else t.audAsync }

theorem inAudio_control {n g : Nat} (c : InCfg) (silent : Bool) (s : State) {p : AudPkt} (hctl : audCtlGroup p.did = some g) :
    inAudio n c silent s p =
      let u := putIn n (audDeclaredBy g p (inTrack s n)) s
      if p.rate = planeRate s then u else audFlag n 16 u := by
  unfold inAudio
  rw [hctl]
  rfl

theorem inAudio_other {n : Nat} (c : InCfg) (silent : Bool) (s : State) {p : AudPkt} (hctl : audCtlGroup p.did = none) (hg : audDataGroup p.did = none) :
    inAudio n c silent s p = s := by
  unfold inAudio
  rw [hctl, hg]

theorem deEmbedded_audPlace (n g : Nat) (s : State) : DeEmbedded n s (audPlace n g s) := by
  have hflag : inTrack (if audDeclared (inTrack s n) g = planeRate s then s else audFlag n 16 s) n = inTrack s n := by
    split
    · rfl
    · exact inTrack_audFlag ..
  refine .trans (.ite (.refl n s) (deEmbedded_audFlag n 16 s)) (deEmbedded_putIn ?_)
  rw [hflag]
  rfl

theorem audPlace_aud (n g : Nat) (s : State) : (audPlace n g s).aud = s.aud := by
  unfold audPlace
  rw [putIn_aud]
  split
  · rfl
  · exact audFlag_aud ..

theorem deEmbedded_audEnter (n g : Nat) (c : InCfg) (silent : Bool) (p : AudPkt) (s : State) : DeEmbedded n s (audEnter n g c silent p s) :=
  .ite ((deEmbedded_audPlace n g s).trans (deEmbedded_audFlag n 17 _)) ((deEmbedded_audPlace n g s).trans (deEmbedded_audGroupPush n n g _ _))

theorem deEmbedded_inAudio (n : Nat) (c : InCfg) (silent : Bool) (s : State) (p : AudPkt) : DeEmbedded n s (inAudio n c silent s p) := by
  cases hctl : audCtlGroup p.did with
  | some g =>
    rw [inAudio_control c silent s hctl]
    have hput : DeEmbedded n s (putIn n (audDeclaredBy g p (inTrack s n)) s) := deEmbedded_putIn rfl
    exact .ite hput (hput.trans (deEmbedded_audFlag n 16 _))
  | none =>
    cases hg : audDataGroup p.did with
    | some g =>
      rw [inAudio_data c silent s hctl hg]
      exact .trans (.ite (deEmbedded_audFlag n 18 s) (.refl n s)) (deEmbedded_audEnter n g c silent p _)
    | none =>
      rw [inAudio_other c silent s hctl hg]
      exact .refl n s

/-- The end of a frame at the de-embedder (R137). -/
theorem deEmbedded_audFill (n : Nat) (c : InCfg) (s : State) : DeEmbedded n s (audFill n c s) := by
  have hfill : ∀ g (l : List Nat) (s : State), DeEmbedded n s (l.foldl (fun s _ => audGroupPush n g [0, 0, 0, 0] s) (audFlag n 17 s)) :=
    fun g l s => (deEmbedded_audFlag n 17 s).trans (.foldl (fun s _ => deEmbedded_audGroupPush n n g _ s) l _)
  refine .foldl (fun s g => ?_) _ s
  exact .ite (hfill g _ s) (.refl n s)

/-! ## Samples that enter the plane (R134) -/

theorem audPush_queue (ch : Nat) (w : Word) (s : State) (k : Nat) :
    (tabGet audSrc0 k (audPush ch w s).aud.srcs).queue = (tabGet audSrc0 k s.aud.srcs).queue ++ if k = ch then [w] else [] := by
  by_cases h : k = ch
  · subst h
    rw [if_pos rfl]
    simp only [audPush, tabGet_put_same]
  · rw [if_neg h, List.append_nil]
    simp only [audPush, tabGet_put_ne _ h]

/-- Slots pushed in order on the channels from `b + a` on: one each. -/
theorem audPushes_queue (b k : Nat) (ws : List Word) (a m : Nat) (s : State) :
    (tabGet audSrc0 (b + k) (((upto a m).zip ws).foldl (fun s x => audPush (b + x.1) x.2 s) s).aud.srcs).queue
      = (tabGet audSrc0 (b + k) s.aud.srcs).queue ++ (if a ≤ k ∧ k < a + m then (nth? ws (k - a)).toList else []) := by
  induction ws generalizing a m s with
  | nil => cases m <;> simp [upto, nth?]
  | cons w ws ih =>
    cases m with
    | zero => simp [upto, show ¬ (a ≤ k ∧ k < a) by omega]
    | succ m =>
      rw [upto, List.zip_cons_cons, List.foldl_cons, ih (a + 1) m, audPush_queue, List.append_assoc]
      congr 1
      by_cases hk : k = a
      · subst hk
        simp [nth?]
      · have hne : ¬ b + k = b + a := by omega
        rw [if_neg hne, List.nil_append]
        by_cases hin : a + 1 ≤ k ∧ k < a + 1 + m
        · rw [if_pos hin, if_pos (by omega), show k - a = k - (a + 1) + 1 by omega, nth?]
        · rw [if_neg hin, if_neg (by omega)]

theorem nth?_map {α β : Type} (f : α → β) (l : List α) (i : Nat) : nth? (l.map f) i = (nth? l i).map f := by
  induction l generalizing i with
  | nil => rfl
  | cons x l ih =>
    cases i with
    | zero => rfl
    | succ i => exact ih i

theorem audParity_aud (n : Nat) (p : AudPkt) (s : State) : (audParity n p s).aud = s.aud := by
  unfold audParity
  split
  · exact audFlag_aud ..
  · rfl

theorem inTrack_audParity (n m : Nat) (p : AudPkt) (s : State) : inTrack (audParity n p s) m = inTrack s m := by
  unfold audParity
  split
  · exact inTrack_audFlag ..
  · rfl

/-- Within the cadence and at the plane's rate, a data packet of a line that is there brings each of its channels one sample. -/
theorem inAudio_queue {n g i : Nat} {c : InCfg} {s : State} {p : AudPkt} {y : AudSample} (hctl : audCtlGroup p.did = none) (hg : audDataGroup p.did = some g)
    (hrate : audDeclared (inTrack s n) g = planeRate s) (hroom : tabGet 0 g (inTrack s n).audCount < audNeed s c (inTrack s n)) (hi : i < 4)
    (hy : nth? p.samples i = some y) :
    (tabGet audSrc0 (32 * n + 4 * (g - 1) + i) (inAudio n c false s p).aud.srcs).queue
      = (tabGet audSrc0 (32 * n + 4 * (g - 1) + i) s.aud.srcs).queue ++ [audSlotOf y] := by
  have hpar : DeEmbedded n s (audParity n p s) := .ite (deEmbedded_audFlag n 18 s) (.refl n s)
  have hplane : planeRate (audParity n p s) = planeRate s := by simp only [planeRate, hpar.plan]
  have hneed : audNeed (audPlace n g (audParity n p s)) c (inTrack s n) = audNeed s c (inTrack s n) := by
    simp only [audNeed, planeRate, (hpar.trans (deEmbedded_audPlace n g _)).plan]
  rw [inAudio_data c false s hctl hg, audEnter, inTrack_audParity, hneed, if_neg (by omega), audGroupPush, audPushes_queue, audPlace_aud, audParity_aud,
    if_pos (by omega), audSlots, nth?_map, inTrack_audParity, hplane, Nat.sub_zero, hy]
  simp [hrate]

/-! ## ANC packets (R138, R139) -/

/-- Fields of a register are kept, but for one bit. -/
def FieldsBut (a b : Nat) (s t : State) : Prop := ∀ lo m, lo + m ≤ b ∨ b + 1 ≤ lo → getF t a lo m = getF s a lo m

theorem FieldsBut.refl (a b : Nat) (s : State) : FieldsBut a b s s := fun _ _ _ => rfl

theorem FieldsBut.trans {a b : Nat} {s u t : State} (h1 : FieldsBut a b s u) (h2 : FieldsBut a b u t) : FieldsBut a b s t :=
  fun lo m h => (h2 lo m h).trans (h1 lo m h)

theorem FieldsBut.of_rd {a b : Nat} {s t : State} (h : rd t a = rd s a) : FieldsBut a b s t := fun lo m _ => by rw [getF, h, getF]

/-- The ANC stage of input `n` has worked: the drop flag, the count, events and the packets kept may have moved. -/
structure Extracted (n : Nat) (s t : State) : Prop extends InMoves n [Reg.pinStatus n, Reg.pinAncCnt n] s t where
  aud : t.aud = s.aud
  mem : t.mem = s.mem
  trk : t.trk = s.trk
  status : FieldsBut (Reg.pinStatus n) 11 s t
  track : inTrack t n = { inTrack s n with ancNow := (inTrack t n).ancNow }

theorem Extracted.refl (n : Nat) (s : State) : Extracted n s s := ⟨.refl .., rfl, rfl, rfl, .refl _ _ _, rfl⟩

theorem Extracted.trans {n : Nat} {s u t : State} (h1 : Extracted n s u) (h2 : Extracted n u t) : Extracted n s t := by
  refine ⟨h1.toInMoves.trans h2.toInMoves, h2.aud.trans h1.aud, h2.mem.trans h1.mem, h2.trk.trans h1.trk, h1.status.trans h2.status, ?_⟩
  have h := h2.track
  rw [h1.track] at h
  exact h

/-- What a packet counts, and whether it sets the drop flag. -/
structure AncCounted (n taken dropped : Nat) (s t : State) : Prop where
  kept : getF t (Reg.pinAncCnt n) 0 16 = min 65535 (getF s (Reg.pinAncCnt n) 0 16 + taken)
  lost : getF t (Reg.pinAncCnt n) 16 16 = min 65535 (getF s (Reg.pinAncCnt n) 16 16 + dropped)
  flag : getB t (Reg.pinStatus n) 11 = (getB s (Reg.pinStatus n) 11 || decide (0 < dropped))

theorem getF16_zero (s : State) (a lo : Nat) : getF s a lo 16 = min 65535 (getF s a lo 16 + 0) := by
  have h := fld_lt (rd s a) lo 16
  unfold getF
  omega

theorem ancCounted_none (n : Nat) (s : State) : AncCounted n 0 0 s s := ⟨getF16_zero .., getF16_zero .., by simp⟩

/-- A field of a register whose count of another field goes on. -/
theorem getF_bump_fld (a : Nat) {lo m lo' m' : Nat} (k : Nat) (s : State) (h : lo + m ≤ 32) (hd : lo' + m' ≤ lo ∨ lo + m ≤ lo') :
    getF (bump a lo m k s) a lo' m' = getF s a lo' m' := by
  rw [getF, rd_bump_same, bumpFld, fld_setFld_ne _ _ h hd, getF]

theorem pinStatus_ne_ancCnt (n : Nat) : Reg.pinStatus n ≠ Reg.pinAncCnt n := by
  simp only [Reg.pinStatus, Reg.pinAncCnt]
  omega

/-- A packet is dropped: counted and flagged. -/
theorem ancDrop_spec (n : Nat) (s : State) : Extracted n s (ancDrop n s) ∧ AncCounted n 0 1 s (ancDrop n s) ∧ inTrack (ancDrop n s) n = inTrack s n := by
  obtain ⟨u, hu⟩ : ∃ u, bump (Reg.pinAncCnt n) 16 16 1 s = u := ⟨_, rfl⟩
  have hne := pinStatus_ne_ancCnt n
  have hst : rd u (Reg.pinStatus n) = rd s (Reg.pinStatus n) := by rw [← hu, rd_bump_ne hne]
  have hbump : Extracted n s u := by
    subst hu
    exact ⟨(inMoves_wr ..).mono (by simp), rfl, rfl, rfl, .of_rd hst, rfl⟩
  have hlow : getF u (Reg.pinAncCnt n) 0 16 = min 65535 (getF s (Reg.pinAncCnt n) 0 16 + 0) := by
    rw [← hu, getF_bump_fld _ _ _ (by decide) (.inl (by decide))]
    exact getF16_zero ..
  have hhigh : getF u (Reg.pinAncCnt n) 16 16 = min 65535 (getF s (Reg.pinAncCnt n) 16 16 + 1) := by
    rw [← hu, getF_bump_same _ _ _ (by decide)]
    norm_num
  have htrack : inTrack u n = inTrack s n := by rw [← hu]; rfl
  have hdrop : ancDrop n s = if getB u (Reg.pinStatus n) 11 then u else flagEvent (Src.input n) noInst (Reg.pinStatus n) 11 u := by rw [← hu]; rfl
  rw [hdrop]
  split
  · rename_i hflag
    refine ⟨hbump, ⟨hlow, hhigh, ?_⟩, htrack⟩
    rw [hflag]
    simp
  · obtain ⟨hframe, hrd⟩ := flagEvent_spec (Src.input n) noInst (Reg.pinStatus n) 11 u
    obtain ⟨t, ht⟩ : ∃ t, flagEvent (Src.input n) noInst (Reg.pinStatus n) 11 u = t := ⟨_, rfl⟩
    have hmoves := inMoves_flagEvent n (Src.input n) noInst (Reg.pinStatus n) 11 u
    rw [ht] at hframe hrd hmoves ⊢
    have hcnt : rd t (Reg.pinAncCnt n) = rd u (Reg.pinAncCnt n) := by rw [hrd, rd_putB_ne hne.symm]
    have hport : inTrack t n = inTrack u n := inTrack_congr (by rw [hframe]) n
    have hflag : Extracted n u t := ⟨hmoves.mono (by simp), by rw [hframe], by rw [hframe], by rw [hframe], fun lo m h => by
      rw [getF, hrd, ← getF, getF_putB_fld _ _ _ (by decide) h], by rw [hport]⟩
    refine ⟨hbump.trans hflag, ⟨?_, ?_, ?_⟩, hport.trans htrack⟩
    · rw [getF, hcnt, ← getF, hlow]
    · rw [getF, hcnt, ← getF, hhigh]
    · rw [getB, hrd, ← getB, getB_putB_same _ _ _ (by decide)]
      simp

/-- An extracted packet that fits is kept and counted. -/
theorem ancKeep_fits {n number : Nat} {p : AncPkt} {s : State} (h : ancBytes (inTrack s n).ancNow + p.bytes ≤ 8192) :
    Extracted n s (ancKeep n number p s) ∧ AncCounted n 1 0 s (ancKeep n number p s)
      ∧ (inTrack (ancKeep n number p s) n).ancNow = (inTrack s n).ancNow ++ [(number, p)] := by
  have hne := pinStatus_ne_ancCnt n
  obtain ⟨v, hv⟩ : ∃ v, putIn n { inTrack s n with ancNow := (inTrack s n).ancNow ++ [(number, p)] } s = v := ⟨_, rfl⟩
  have hkeep : ancKeep n number p s = bump (Reg.pinAncCnt n) 0 16 1 v := by
    rw [← hv]
    exact if_neg (by omega)
  have hregs : ∀ a, rd v a = rd s a := fun a => by rw [← hv]; rfl
  have htrack : inTrack (bump (Reg.pinAncCnt n) 0 16 1 v) n = { inTrack s n with ancNow := (inTrack s n).ancNow ++ [(number, p)] } := by
    rw [inTrack_congr (bump_port ..), ← hv, inTrack_putIn_same]
  rw [hkeep]
  refine ⟨⟨InMoves.trans (u := v) ?_ ((inMoves_wr ..).mono (by simp)), ?_, ?_, ?_, .of_rd ?_, ?_⟩, ⟨?_, ?_, ?_⟩, ?_⟩
  · rw [← hv]
    exact inMoves_putIn ..
  · rw [← hv]
    rfl
  · rw [← hv]
    rfl
  · rw [← hv]
    rfl
  · rw [rd_bump_ne hne, hregs]
  · rw [htrack]
  · rw [getF_bump_same _ _ _ (by decide), getF, hregs, ← getF]
    norm_num
  · rw [getF_bump_fld _ _ _ (by decide) (.inr (by decide)), getF, hregs, ← getF]
    exact getF16_zero ..
  · rw [getB, rd_bump_ne hne, hregs, ← getB]
    simp
  · rw [htrack]

theorem ancKeep_full {n number : Nat} {p : AncPkt} {s : State} (h : 8192 < ancBytes (inTrack s n).ancNow + p.bytes) : ancKeep n number p s = ancDrop n s :=
  if_pos h

/-- A packet is dropped whose check fails, or that is to be extracted and has no room. -/
def ancDropped (s : State) (n : Nat) (c : InCfg) (p : AncPkt) : Bool :=
  !ancGood p || (!ancNever p && ancListed c.filter p && decide (8192 < ancBytes (inTrack s n).ancNow + p.bytes))

/-- A packet is extracted that passes its check, is no packet of R134, meets the filter and has room. -/
def ancTaken (s : State) (n : Nat) (c : InCfg) (p : AncPkt) : Bool :=
  !ancNever p && ancGood p && ancListed c.filter p && !decide (8192 < ancBytes (inTrack s n).ancNow + p.bytes)

/-- One ANC packet of a line: what it moves, counts and leaves in the buffer. -/
theorem inAnc_spec (n : Nat) (c : InCfg) (number : Nat) (s : State) (p : AncPkt) : let t := inAnc n c number s p
    Extracted n s t ∧ AncCounted n (b2n (ancTaken s n c p)) (b2n (ancDropped s n c p)) s t
      ∧ (inTrack t n).ancNow = (inTrack s n).ancNow ++ if ancTaken s n c p then [(number, p)] else [] := by
  intro t
  obtain ⟨hdmoves, hdcount, hdtrack⟩ := ancDrop_spec n s
  by_cases hgood : ancGood p = true
  · by_cases hleft : ancNever p = true ∨ ancListed c.filter p = false
    · have ht : t = s := by
        simp only [t, inAnc]
        rw [if_neg (by simp [hgood]), if_pos hleft]
      have htaken : ancTaken s n c p = false := by rcases hleft with h | h <;> simp [ancTaken, h]
      have hdropped : ancDropped s n c p = false := by rcases hleft with h | h <;> simp [ancDropped, hgood, h]
      rw [ht, htaken, hdropped]
      exact ⟨.refl n s, ancCounted_none n s, by simp⟩
    · have ht : t = ancKeep n number p s := by
        simp only [t, inAnc]
        rw [if_neg (by simp [hgood]), if_neg hleft]
      rw [not_or] at hleft
      obtain ⟨hnever, hlisted⟩ := hleft
      by_cases hfull : 8192 < ancBytes (inTrack s n).ancNow + p.bytes
      · have htaken : ancTaken s n c p = false := by simp [ancTaken, hfull]
        have hdropped : ancDropped s n c p = true := by simp_all [ancDropped]
        rw [ht, ancKeep_full hfull, htaken, hdropped, hdtrack]
        exact ⟨hdmoves, hdcount, by simp⟩
      · obtain ⟨hkmoves, hkcount, hktrack⟩ := ancKeep_fits (number := number) (Nat.le_of_not_lt hfull)
        have htaken : ancTaken s n c p = true := by simp_all [ancTaken]
        have hdropped : ancDropped s n c p = false := by simp [ancDropped, hgood, hfull]
        rw [ht, htaken, hdropped]
        exact ⟨hkmoves, hkcount, by rw [hktrack, if_pos rfl]⟩
  · have ht : t = ancDrop n s := by
      simp only [t, inAnc]
      rw [if_pos (by simpa using hgood)]
    have htaken : ancTaken s n c p = false := by simp [ancTaken, hgood]
    have hdropped : ancDropped s n c p = true := by simp [ancDropped, hgood]
    rw [ht, htaken, hdropped, hdtrack]
    exact ⟨hdmoves, hdcount, by simp⟩

/-! ## A line is presented (R129 stage 8, R154, R161) -/

/-- The registers that stages 5 to 8 of input `n` move. -/
def stageRegs (n : Nat) : List Nat := [Reg.pinStatus n, Reg.pinAudStatus n, Reg.pinAncCnt n, Reg.pinLinesInvalid n, Reg.pgrpInStatus (n / 4)]

/-- Stages 5 to 8 of input `n` have worked, and `k` lines have been presented invalid. -/
structure Staged (n k : Nat) (s t : State) : Prop extends InMoves n (stageRegs n) s t where
  mem : t.mem = s.mem
  trk : t.trk = s.trk
  status : FieldsBut (Reg.pinStatus n) 11 s t
  lines : (rd t (Reg.pinLinesInvalid n)).toNat = min (2 ^ 32 - 1) ((rd s (Reg.pinLinesInvalid n)).toNat + k)
  alone : groupOf s.plan.cfg.groups true n = none → rd t (Reg.pgrpInStatus (n / 4)) = rd s (Reg.pgrpInStatus (n / 4))
  track : inTrack t n = { inTrack s n with
    ancNow := (inTrack t n).ancNow, ancLast := (inTrack t n).ancLast, audNow := (inTrack t n).audNow, audAsync := (inTrack t n).audAsync,
    ctlNow := (inTrack t n).ctlNow, ctlLast := (inTrack t n).ctlLast, audCount := (inTrack t n).audCount,
    copies := (inTrack t n).copies, fromStore := (inTrack t n).fromStore, shown := (inTrack t n).shown }

theorem Staged.refl (n : Nat) (s : State) : Staged n 0 s s := ⟨.refl .., rfl, rfl, .refl _ _ _, count32_zero rfl, fun _ => rfl, rfl⟩

theorem Staged.trans {n j k : Nat} {s u t : State} (h1 : Staged n j s u) (h2 : Staged n k u t) : Staged n (j + k) s t := by
  refine ⟨h1.toInMoves.trans h2.toInMoves, h2.mem.trans h1.mem, h2.trk.trans h1.trk, h1.status.trans h2.status, count32_add h1.lines h2.lines,
    fun hg => (h2.alone (by rw [h1.plan]; exact hg)).trans (h1.alone hg), ?_⟩
  have h := h2.track
  rw [h1.track] at h
  exact h

theorem Staged.foldl {α : Type} {n : Nat} {f : State → α → State} {k : α → Nat} (h : ∀ s x, Staged n (k x) s (f s x)) (l : List α) (s : State) :
    Staged n (l.map k).sum s (l.foldl f s) := by
  induction l generalizing s with
  | nil => exact .refl n s
  | cons x l ih =>
    rw [List.map_cons, List.sum_cons]
    exact (h s x).trans (ih _)

/-- The registers of an input pipeline and of its group, apart from one another. -/
theorem stageRegs_apart (n : Nat) :
    Reg.pinLinesInvalid n ≠ Reg.pinStatus n ∧ Reg.pinLinesInvalid n ≠ Reg.pinAudStatus n ∧ Reg.pinLinesInvalid n ≠ Reg.pinAncCnt n
      ∧ Reg.pinStatus n ≠ Reg.pinAudStatus n ∧ Reg.pinAncCnt n ≠ Reg.pinAudStatus n := by
  simp only [Reg.pinLinesInvalid, Reg.pinStatus, Reg.pinAudStatus, Reg.pinAncCnt]
  omega

theorem pgrpInStatus_apart (n : Nat) : Reg.pgrpInStatus (n / 4) ≠ Reg.pinStatus n ∧ Reg.pgrpInStatus (n / 4) ≠ Reg.pinAudStatus n
    ∧ Reg.pgrpInStatus (n / 4) ≠ Reg.pinAncCnt n ∧ Reg.pgrpInStatus (n / 4) ≠ Reg.pinLinesInvalid n := by
  have hquad : n / 4 / 72 = n / 288 := Nat.div_div_eq_div_mul n 4 72
  simp only [Reg.pgrpInStatus, Reg.pinLinesInvalid, Reg.pinStatus, Reg.pinAudStatus, Reg.pinAncCnt, hquad]
  omega

theorem DeEmbedded.staged {n : Nat} {s t : State} (h : DeEmbedded n s t) : Staged n 0 s t := by
  obtain ⟨-, hlines, -, hstatus, -⟩ := stageRegs_apart n
  obtain ⟨-, hgroup, -, -⟩ := pgrpInStatus_apart n
  refine ⟨h.toInMoves.mono (by simp [stageRegs]), h.mem, h.trk, .of_rd (h.regs _ (by simpa using hstatus)), count32_zero (h.regs _ (by simpa using hlines)),
    fun _ => h.regs _ (by simpa using hgroup), ?_⟩
  rw [h.track]

theorem Extracted.staged {n : Nat} {s t : State} (h : Extracted n s t) : Staged n 0 s t := by
  obtain ⟨hlines, -, hlines', -, -⟩ := stageRegs_apart n
  obtain ⟨hgroup, -, hgroup', -⟩ := pgrpInStatus_apart n
  refine ⟨h.toInMoves.mono (by simp [stageRegs]), h.mem, h.trk, h.status, count32_zero (h.regs _ (by simp [hlines, hlines'])),
    fun _ => h.regs _ (by simp [hgroup, hgroup']), ?_⟩
  rw [h.track]

/-- A line of input `n` has been presented: the count of invalid lines, the group's register, events and what the track holds of lines shown may have moved. -/
structure Presented (n k : Nat) (s t : State) : Prop extends InMoves n [Reg.pinLinesInvalid n, Reg.pgrpInStatus (n / 4)] s t where
  aud : t.aud = s.aud
  mem : t.mem = s.mem
  trk : t.trk = s.trk
  lines : (rd t (Reg.pinLinesInvalid n)).toNat = min (2 ^ 32 - 1) ((rd s (Reg.pinLinesInvalid n)).toNat + k)
  alone : groupOf s.plan.cfg.groups true n = none → rd t (Reg.pgrpInStatus (n / 4)) = rd s (Reg.pgrpInStatus (n / 4))
  track : inTrack t n = { inTrack s n with copies := (inTrack t n).copies, fromStore := (inTrack t n).fromStore, shown := (inTrack t n).shown }

theorem Presented.trans {n j k : Nat} {s u t : State} (h1 : Presented n j s u) (h2 : Presented n k u t) : Presented n (j + k) s t := by
  refine ⟨h1.toInMoves.trans h2.toInMoves, h2.aud.trans h1.aud, h2.mem.trans h1.mem, h2.trk.trans h1.trk, count32_add h1.lines h2.lines,
    fun hg => (h2.alone (by rw [h1.plan]; exact hg)).trans (h1.alone hg), ?_⟩
  have h := h2.track
  rw [h1.track] at h
  exact h

theorem Presented.refl (n : Nat) (s : State) : Presented n 0 s s := ⟨.refl .., rfl, rfl, rfl, count32_zero rfl, fun _ => rfl, rfl⟩

theorem Presented.staged {n k : Nat} {s t : State} (h : Presented n k s t) : Staged n k s t := by
  obtain ⟨hlines, -, -, -, -⟩ := stageRegs_apart n
  obtain ⟨hgroup, -, -, -⟩ := pgrpInStatus_apart n
  refine ⟨h.toInMoves.mono (by simp [stageRegs]), h.mem, h.trk, .of_rd (h.regs _ (by simp [hlines.symm, hgroup.symm])), h.lines, h.alone, ?_⟩
  rw [h.track]

/-- The group register of an input as it stands before a record of it is raised: which members are missing, and whether a store replaces one. -/
def inMissingPut (n : Nat) (missing store : Bool) (s : State) : State :=
  let a := Reg.pgrpInStatus (n / 4)
  let s := putB a (4 + n % 4) missing (putIn n { inTrack s n with fromStore := store && missing } s)
  let s := putB a 8 ((upto 0 4).any fun k => getB s a (4 + k) && memberStore s true (n / 4 * 4 + k)) s
  if missing then putB a 9 true s else s

theorem setMissing_some {n : Nat} {g : GroupCfg} {s : State} (missing store : Bool) (h : groupOf s.plan.cfg.groups true n = some g) :
    setMissing true n missing store s = if rd (inMissingPut n missing store s) (Reg.pgrpInStatus (n / 4)) = rd s (Reg.pgrpInStatus (n / 4))
      then inMissingPut n missing store s
      else raiseState (Src.quad (n / 288) 2) (n / 4 % 72) (Reg.pgrpInStatus (n / 4)) (rd s (Reg.pgrpInStatus (n / 4))) (inMissingPut n missing store s) := by
  unfold setMissing
  rw [h]
  rfl

theorem presented_putIn {n : Nat} {x : InTrack} {s : State} (h : x = { inTrack s n with copies := x.copies, fromStore := x.fromStore, shown := x.shown }) :
    Presented n 0 s (putIn n x s) := by
  refine ⟨inMoves_putIn .., rfl, rfl, rfl, count32_zero rfl, fun _ => rfl, ?_⟩
  rw [inTrack_putIn_same]
  exact h

/-- A bit of the group's register is put. -/
theorem presented_groupPut {n : Nat} {g : GroupCfg} {s : State} (b : Nat) (v : Bool) (h : groupOf s.plan.cfg.groups true n = some g) :
    Presented n 0 s (putB (Reg.pgrpInStatus (n / 4)) b v s) := by
  obtain ⟨-, -, -, hlines⟩ := pgrpInStatus_apart n
  refine ⟨(inMoves_wr ..).mono (by simp), rfl, rfl, rfl, count32_zero (rd_putB_ne hlines.symm ..), fun hg => ?_, rfl⟩
  rw [h] at hg
  cases hg

/-- Nothing of an input's track but `fromStore` moves with its group's register. -/
theorem presented_setMissing {n : Nat} {g : GroupCfg} {s : State} (missing store : Bool) (h : groupOf s.plan.cfg.groups true n = some g) :
    Presented n 0 s (setMissing true n missing store s) := by
  have hput : Presented n 0 s (inMissingPut n missing store s) := by
    have hput := presented_putIn (s := s) (x := { inTrack s n with fromStore := store && missing }) rfl
    have hbits := fun b => (hput.trans (presented_groupPut (4 + n % 4) missing h)).trans (presented_groupPut 8 b h)
    unfold inMissingPut
    dsimp only
    split
    · exact (hbits _).trans (presented_groupPut 9 true h)
    · exact hbits _
  obtain ⟨u, hu⟩ : ∃ u, inMissingPut n missing store s = u := ⟨_, rfl⟩
  rw [setMissing_some missing store h, hu]
  rw [hu] at hput
  split
  · exact hput
  · obtain ⟨t, ht⟩ : ∃ t, raiseState (Src.quad (n / 288) 2) (n / 4 % 72) (Reg.pgrpInStatus (n / 4)) (rd s (Reg.pgrpInStatus (n / 4))) u = t := ⟨_, rfl⟩
    rw [ht]
    have hrd : ∀ a, rd t a = rd u a := fun a => by rw [← ht, raiseState, rd_raise]
    have hframe := raise_frame (show t = raise _ _ _ _ _ _ _ from ht.symm)
    have htrack : inTrack t n = inTrack u n := inTrack_congr (by rw [hframe]) n
    have hraise : Presented n 0 u t :=
      ⟨.of_regs (by rw [hframe]) fun a _ => hrd a, by rw [hframe], by rw [hframe], by rw [hframe], count32_zero (hrd _), fun _ => hrd _, by rw [htrack]⟩
    exact hput.trans hraise

theorem presented_countInvalid (n : Nat) (valid : Bool) (s : State) :
    Presented n (if valid = true then 0 else 1) s (if valid then s else count (Reg.pinLinesInvalid n) s) := by
  obtain ⟨-, -, -, hlines⟩ := pgrpInStatus_apart n
  cases valid with
  | true => exact .refl n s
  | false => exact ⟨(inMoves_wr ..).mono (by simp), rfl, rfl, rfl, rd_count_same .., fun _ => rd_count_ne hlines .., rfl⟩

/-- What an input outside a group shows of a line. -/
theorem inShow_alone {n : Nat} {s : State} (number : Nat) (valid : Bool) (pic : List PicGroup) (h : groupOf s.plan.cfg.groups true n = none) :
    inShow n number valid pic s = putIn n { inTrack s n with shown := some { number := number, valid := valid, subst := false, pic := pic } }
      (if valid then s else count (Reg.pinLinesInvalid n) s) := by
  have hplan : (if valid = true then s else count (Reg.pinLinesInvalid n) s).plan = s.plan := (presented_countInvalid n valid s).plan
  unfold inShow
  dsimp only
  rw [hplan, h]

/-- The track of a group member that shows a line, or a copy in its place. -/
def memberShown (s : State) (n number : Nat) (valid : Bool) (pic : List PicGroup) : InTrack :=
  let t := inTrack s n
  let copy := if inSync s n then tabFind number t.copies else none
  if valid then { t with shown := some { number := number, valid := true, subst := false, pic := pic },
                         copies := if inSync s n then tabPut number pic t.copies else t.copies }
  else { t with shown := some { number := number, valid := true, subst := true, pic := copy.getD [] } }

theorem inShow_member {n : Nat} {g : GroupCfg} {s : State} (number : Nat) (valid : Bool) (pic : List PicGroup) (h : groupOf s.plan.cfg.groups true n = some g) :
    inShow n number valid pic s = setMissing true n (!valid) (if inSync s n then tabFind number (inTrack s n).copies else none).isSome
      (putIn n (memberShown s n number valid pic) (if valid then s else count (Reg.pinLinesInvalid n) s)) := by
  unfold inShow memberShown
  cases valid with
  | true =>
    dsimp only
    simp only [if_true]
    rw [h]
  | false =>
    have hsync : inSync (count (Reg.pinLinesInvalid n) s) n = inSync s n := rfl
    dsimp only
    simp only [Bool.false_eq_true, if_false]
    rw [count_plan, h, hsync]

/-- Presenting a line moves the count of invalid lines, the group and what is shown; only an invalid line counts. -/
theorem presented_inShow (n number : Nat) (valid : Bool) (pic : List PicGroup) (s : State) :
    Presented n (if valid = true then 0 else 1) s (inShow n number valid pic s) := by
  have hcount := presented_countInvalid n valid s
  obtain ⟨u, hu⟩ : ∃ u, (if valid then s else count (Reg.pinLinesInvalid n) s) = u := ⟨_, rfl⟩
  have htrack : inTrack u n = inTrack s n := by
    rw [← hu]
    split <;> rfl
  cases hg : groupOf s.plan.cfg.groups true n with
  | none =>
    rw [inShow_alone number valid pic hg, hu]
    rw [hu] at hcount
    refine hcount.trans (presented_putIn ?_)
    rw [htrack]
  | some g =>
    rw [inShow_member number valid pic hg, hu]
    rw [hu] at hcount
    have hput : Presented n 0 u (putIn n (memberShown s n number valid pic) u) := by
      refine presented_putIn ?_
      rw [htrack]
      unfold memberShown
      cases valid <;> rfl
    exact (hcount.trans hput).trans (presented_setMissing (g := g) _ _ (by rw [putIn_plan, hcount.plan]; exact hg))

/-! ## Stages 5 to 8 of a line, and the end of a frame there -/

theorem Extracted.foldl {α : Type} {n : Nat} {f : State → α → State} (h : ∀ s x, Extracted n s (f s x)) (l : List α) (s : State) : Extracted n s (l.foldl f s) :=
  List.foldlRecOn l f (.refl n s) fun _ hu x _ => hu.trans (h _ x)

/-- The ANC packets that a flow beside the video brings to a frame, at its line 1. -/
def inFlowAnc (n : Nat) (c : InCfg) (l : LineInfo) (s : State) : State :=
  if l.number = 1 then (flowAnc s n c.fmt).foldl (fun s p => inAnc n c p.1 s p.2) s else s

/-- The audio and ANC packets of a line. -/
def inLinePackets (n : Nat) (c : InCfg) (l : LineInfo) (silent : Bool) (s : State) : State :=
  l.anc.foldl (inAnc n c l.number) (l.audio.foldl (inAudio n c silent) s)

/-- Stages 5 and 6 on a line. -/
def inCarried (n : Nat) (c : InCfg) (l : LineInfo) (valid : Bool) (s : State) : State :=
  if videoFed s c then inFlowAnc n c l s else inLinePackets n c l (!valid && (groupOf s.plan.cfg.groups true n).isSome) s

theorem inPresent_eq (n : Nat) (c : InCfg) (l : LineInfo) (valid : Bool) (s : State) : inPresent n c l valid s = inShow n l.number valid l.pic (inCarried n c l valid s) := rfl

theorem extracted_inFlowAnc (n : Nat) (c : InCfg) (l : LineInfo) (s : State) : Extracted n s (inFlowAnc n c l s) := by
  unfold inFlowAnc
  split
  · exact Extracted.foldl (f := fun s (p : Nat × AncPkt) => inAnc n c p.1 s p.2) (fun s p => (inAnc_spec n c p.1 s p.2).1) _ s
  · exact .refl n s

theorem deEmbedded_audio (n : Nat) (c : InCfg) (silent : Bool) (l : List AudPkt) (s : State) : DeEmbedded n s (l.foldl (inAudio n c silent) s) :=
  .foldl (deEmbedded_inAudio n c silent) l s

theorem extracted_anc (n : Nat) (c : InCfg) (number : Nat) (l : List AncPkt) (s : State) : Extracted n s (l.foldl (inAnc n c number) s) :=
  .foldl (fun s p => (inAnc_spec n c number s p).1) l s

theorem staged_inLinePackets (n : Nat) (c : InCfg) (l : LineInfo) (silent : Bool) (s : State) : Staged n 0 s (inLinePackets n c l silent s) :=
  (deEmbedded_audio n c silent l.audio s).staged.trans (extracted_anc n c l.number l.anc _).staged

theorem staged_inCarried (n : Nat) (c : InCfg) (l : LineInfo) (valid : Bool) (s : State) : Staged n 0 s (inCarried n c l valid s) := by
  unfold inCarried
  split
  · exact (extracted_inFlowAnc n c l s).staged
  · exact staged_inLinePackets ..

/-- Stages 5 to 8 on a line: a line that is not valid counts. -/
theorem staged_inPresent (n : Nat) (c : InCfg) (l : LineInfo) (valid : Bool) (s : State) : Staged n (if valid = true then 0 else 1) s (inPresent n c l valid s) := by
  have h := (staged_inCarried n c l valid s).trans (presented_inShow n l.number valid l.pic _).staged
  rwa [Nat.zero_add] at h

/-- What stands of audio and ANC packets in the track of an input changes places at the end of a frame. -/
def frameTurned (t : InTrack) : InTrack := { t with ancLast := t.ancNow, ancNow := [], audNow := 0, audAsync := 0, ctlLast := t.ctlNow, ctlNow := [], audCount := [] }

theorem inTurn_eq (n : Nat) (c : InCfg) (s : State) : inTurn n c s =
    let u := audFill n c s
    putIn n (frameTurned (inTrack u n)) (putF (Reg.pinAudStatus n) 8 8 (inTrack u n).audAsync (putF (Reg.pinAudStatus n) 0 8 (inTrack u n).audNow u)) := rfl

theorem track_inTurn (n : Nat) (c : InCfg) (s : State) : (inTrack (inTurn n c s) n).ancNow = [] ∧ (inTrack (inTurn n c s) n).ancLast = (inTrack s n).ancNow := by
  rw [inTurn_eq, inTrack_putIn_same]
  refine ⟨rfl, ?_⟩
  rw [frameTurned, (deEmbedded_audFill n c s).track]

/-- The end of a frame at stages 5 and 6 counts no line. -/
theorem staged_inTurn (n : Nat) (c : InCfg) (s : State) : Staged n 0 s (inTurn n c s) := by
  obtain ⟨-, hlines, -, hstatus, -⟩ := stageRegs_apart n
  obtain ⟨-, hgroup, -, -⟩ := pgrpInStatus_apart n
  obtain ⟨u, hu⟩ : ∃ u, audFill n c s = u := ⟨_, rfl⟩
  have hfill := (deEmbedded_audFill n c s).staged
  have hput : ∀ lo m v (w : State), Staged n 0 w (putF (Reg.pinAudStatus n) lo m v w) := fun lo m v w =>
    ⟨(inMoves_wr ..).mono (by simp [stageRegs]), rfl, rfl, .of_rd (rd_putF_ne hstatus ..), count32_zero (rd_putF_ne hlines ..), fun _ => rd_putF_ne hgroup .., rfl⟩
  rw [inTurn_eq, hu]
  rw [hu] at hfill
  have htrack : ∀ w : State, inTrack w n = inTrack u n → Staged n 0 w (putIn n (frameTurned (inTrack u n)) w) := fun w hw =>
    ⟨inMoves_putIn .., rfl, rfl, .refl _ _ _, count32_zero rfl, fun _ => rfl, by rw [inTrack_putIn_same, hw]; rfl⟩
  exact ((hfill.trans (hput 0 8 _ u)).trans (hput 8 8 _ _)).trans (htrack _ rfl)

end Sys2Proof.Machine
end

section
/-! Frame synchronisers (04_frame_stores.md R171 to R179): what a completed frame, a read and the end of a hold move, and what a read counts. -/

namespace Sys2Proof.Machine

/-! ## What work on a synchroniser moves -/

/-- The registers of the synchroniser of source `n`. -/
def fsRegs (n : Nat) : List Nat := [fsA n, fsA n + 4, fsA n + 8, fsA n + 12]

theorem fsRegs_apart {n b : Nat} (h : b ∈ fsRegs n) : b ∉ stageRegs n := by
  have hl := localOf_lt n
  have hq := quadOf_lt n
  simp only [fsRegs, stageRegs, fsA, Reg.fsStatus, Reg.pinStatus, Reg.pinAudStatus, Reg.pinAncCnt, Reg.pinLinesInvalid, Reg.pgrpInStatus, List.mem_cons,
    List.not_mem_nil, or_false] at h ⊢
  omega

/-- Registers that a read of source `n` may move. -/
def readRegs (n : Nat) : List Nat := [fsA n, fsA n + 4, fsA n + 8, fsA n + 12, Reg.pinStatus n, Reg.pinAudStatus n, Reg.pinAncCnt n, Reg.pinLinesInvalid n]

theorem fsRegs_subset (n : Nat) : fsRegs n ⊆ readRegs n := by simp [fsRegs, readRegs]

/-- Work on the synchroniser of source `n` has presented `k` lines of its input invalid: of an input without a ring nothing but the synchroniser moves. -/
structure FsMoved (n k : Nat) (s t : State) : Prop where
  frame : t = { s with regs := t.regs, evq := t.evq, mem := { s.mem with fs := t.mem.fs }, port := { s.port with ins := t.port.ins }, aud := { s.aud with srcs := t.aud.srcs } }
  regs : RegsBut (readRegs n) s t
  others : ∀ m, m ≠ n → fsTrack t m = fsTrack s m ∧ inTrack t m = inTrack s m
  alone : inRing s n = false → t.port = s.port ∧ t.aud = s.aud ∧ RegsBut (fsRegs n) s t
  lines : (inCfg? s n).isSome = true → inRing s n = true → (rd t (Reg.pinLinesInvalid n)).toNat = min (2 ^ 32 - 1) ((rd s (Reg.pinLinesInvalid n)).toNat + k)

theorem inRing_congr {s t : State} (h : t.plan = s.plan) (n : Nat) : inRing t n = inRing s n := by simp only [inRing, inSync, ringEntry?, inLead, h]

theorem inCfg?_congr {s t : State} (h : t.plan = s.plan) (n : Nat) : inCfg? t n = inCfg? s n := by simp only [inCfg?, h]

namespace FsMoved

theorem plan {n k : Nat} {s t : State} (h : FsMoved n k s t) : t.plan = s.plan := by rw [h.frame]

theorem now {n k : Nat} {s t : State} (h : FsMoved n k s t) : t.now = s.now := by rw [h.frame]

theorem trans {n j k : Nat} {s u t : State} (h1 : FsMoved n j s u) (h2 : FsMoved n k u t) : FsMoved n (j + k) s t := by
  have hring := inRing_congr h1.plan n
  have hcfg := inCfg?_congr h1.plan n
  refine ⟨?_, h1.regs.trans h2.regs, fun m hm => ?_, fun hr => ?_, fun hc hr => count32_add (h1.lines hc hr) (h2.lines (by rw [hcfg]; exact hc) (by rw [hring]; exact hr))⟩
  · have h := h2.frame
    rw [h1.frame] at h
    exact h
  · obtain ⟨hf1, hi1⟩ := h1.others m hm
    obtain ⟨hf2, hi2⟩ := h2.others m hm
    exact ⟨hf2.trans hf1, hi2.trans hi1⟩
  · obtain ⟨hp1, ha1, hr1⟩ := h1.alone hr
    obtain ⟨hp2, ha2, hr2⟩ := h2.alone (by rw [hring]; exact hr)
    exact ⟨hp2.trans hp1, ha2.trans ha1, hr1.trans hr2⟩

/-- Work that moves the synchroniser's registers and events only. -/
theorem of_regs {n : Nat} {s t : State} (h : t = { s with regs := t.regs, evq := t.evq }) (hr : RegsBut (fsRegs n) s t) : FsMoved n 0 s t := by
  have hport : t.port = s.port := by rw [h]
  have haud : t.aud = s.aud := by rw [h]
  refine ⟨by rw [h], hr.mono (fsRegs_subset n), fun m _ => ⟨by rw [fsTrack, show t.mem = s.mem by rw [h], fsTrack], inTrack_congr hport m⟩, fun _ => ⟨hport, haud, hr⟩,
    fun _ _ => count32_zero (hr _ fun hm => fsRegs_apart hm (by simp [stageRegs]))⟩

theorem refl (n : Nat) (s : State) : FsMoved n 0 s s := of_regs rfl (.refl _ s)

theorem wr {n a : Nat} (h : a ∈ fsRegs n) (v : Word) (s : State) : FsMoved n 0 s (Machine.wr a v s) := of_regs rfl ((regsBut_wr a v s).mono (by simpa using h))

theorem putF {n a : Nat} (h : a ∈ fsRegs n) (lo m v : Nat) (s : State) : FsMoved n 0 s (Machine.putF a lo m v s) := wr h _ s

theorem putB {n a : Nat} (h : a ∈ fsRegs n) (b : Nat) (v : Bool) (s : State) : FsMoved n 0 s (Machine.putB a b v s) := wr h _ s

theorem bump {n a : Nat} (h : a ∈ fsRegs n) (lo m k : Nat) (s : State) : FsMoved n 0 s (Machine.bump a lo m k s) := wr h _ s

theorem putFs (n : Nat) (x : FsTrack) (s : State) : FsMoved n 0 s (Machine.putFs n x s) :=
  ⟨rfl, .refl _ s, fun _ hm => ⟨tabGet_put_ne _ hm .., rfl⟩, fun _ => ⟨rfl, rfl, .refl _ s⟩, fun _ _ => count32_zero rfl⟩

/-- Work of stages 5 to 8 behind a ring. -/
theorem staged {n k : Nat} {s t : State} (h : Staged n k s t) (hr : inRing s n = true) : FsMoved n k s t := by
  have hgroup : groupOf s.plan.cfg.groups true n = none := by
    have h := hr
    simp only [inRing, Bool.and_eq_true, Option.isNone_iff_eq_none] at h
    exact h.2
  have hframe := h.frame
  rw [h.mem, h.trk] at hframe
  refine ⟨?_, fun a ha => ?_, fun m hm => ⟨by rw [fsTrack, h.mem, fsTrack], h.others m hm⟩, fun hf => (by rw [hr] at hf; cases hf), fun _ _ => h.lines⟩
  · rw [h.mem]
    exact hframe
  · by_cases hg : a = Reg.pgrpInStatus (n / 4)
    · rw [hg, h.alone hgroup]
    · refine h.regs a fun hm => ha ?_
      simp only [stageRegs, List.mem_cons, List.not_mem_nil, or_false] at hm
      simp only [readRegs, List.mem_cons, List.not_mem_nil, or_false]
      tauto

end FsMoved

/-! ## The stages behind a ring (R171) -/

/-- Stages 5 to 8 and work on source channels leave the synchroniser's registers and track as they are. -/
def FsKept (n : Nat) (s t : State) : Prop := (∀ b ∈ fsRegs n, rd t b = rd s b) ∧ t.mem = s.mem ∧ t.now = s.now

theorem FsKept.refl (n : Nat) (s : State) : FsKept n s s := ⟨fun _ _ => rfl, rfl, rfl⟩

theorem FsKept.trans {n : Nat} {s u t : State} (h1 : FsKept n s u) (h2 : FsKept n u t) : FsKept n s t :=
  ⟨fun b hb => (h2.1 b hb).trans (h1.1 b hb), h2.2.1.trans h1.2.1, h2.2.2.trans h1.2.2⟩

theorem Staged.fsKept {n k : Nat} {s t : State} (h : Staged n k s t) : FsKept n s t := ⟨fun b hb => h.regs b (fsRegs_apart hb), h.mem, h.now⟩

theorem sum_invalid (ls : List LineInfo) : (ls.map fun l => if (!l.invalid) = true then 0 else 1).sum = (ls.filter LineInfo.invalid).length := by
  induction ls with
  | nil => rfl
  | cons l ls ih =>
    rw [List.map_cons, List.sum_cons, ih]
    cases h : l.invalid <;> simp [h, Nat.add_comm]

/-- A frame read out of the ring passes stages 5 to 8: its invalid lines count, where the input is used. -/
theorem fsPresent_spec {n : Nat} {s : State} (ls : List LineInfo) (hr : inRing s n = true) :
    FsMoved n (ls.filter LineInfo.invalid).length s (fsPresent n ls s) ∧ FsKept n s (fsPresent n ls s) := by
  cases hc : inCfg? s n with
  | none =>
    have h : fsPresent n ls s = s := by
      unfold fsPresent
      rw [hc]
    rw [h]
    have hsame := FsMoved.refl n s
    refine ⟨⟨hsame.frame, hsame.regs, hsame.others, hsame.alone, fun h => ?_⟩, .refl n s⟩
    rw [hc] at h
    cases h
  | some c =>
    have h : fsPresent n ls s = inTurn n c (ls.foldl (fun s l => inPresent n c l (!l.invalid) s) (putIn n { inTrack s n with frameNo := fmtFrameNear c.fmt s.now } s)) := by
      unfold fsPresent
      rw [hc]
    have hput : FsMoved n 0 s (putIn n { inTrack s n with frameNo := fmtFrameNear c.fmt s.now } s) :=
      ⟨rfl, .refl _ s, fun _ hm => ⟨rfl, inTrack_putIn_ne hm ..⟩, fun hf => (by rw [hr] at hf; cases hf), fun _ _ => count32_zero rfl⟩
    have hkept : FsKept n s (putIn n { inTrack s n with frameNo := fmtFrameNear c.fmt s.now } s) := ⟨fun _ _ => rfl, rfl, rfl⟩
    rw [h]
    obtain ⟨u, hu⟩ : ∃ u, putIn n { inTrack s n with frameNo := fmtFrameNear c.fmt s.now } s = u := ⟨_, rfl⟩
    rw [hu] at hput hkept ⊢
    have hlines := Staged.foldl (f := fun s l => inPresent n c l (!l.invalid) s) (fun s l => staged_inPresent n c l (!l.invalid) s) ls u
    rw [sum_invalid] at hlines
    have hstages := hlines.trans (staged_inTurn n c _)
    refine ⟨?_, hkept.trans hstages.fsKept⟩
    have hall := hput.trans (FsMoved.staged hstages (by rw [inRing_congr hput.plan]; exact hr))
    simpa using hall

/-- A house frame without words (R161). -/
theorem fsDark_spec (n : Nat) (s : State) : let t := fsDark n s
    (∀ c, inCfg? s n = some c → FsMoved n c.fmt.lines s t) ∧ (inCfg? s n = none → FsMoved n 0 s t) ∧ FsKept n s t ∧ RegsBut [Reg.pinLinesInvalid n] s t := by
  intro t
  cases hc : inCfg? s n with
  | none =>
    have h : t = s := by
      simp only [t, fsDark]
      rw [hc]
    rw [h]
    exact ⟨fun _ h => (by cases h), fun _ => .refl n s, .refl n s, .refl _ s⟩
  | some c =>
    have h : t = if inRing s n then bump (Reg.pinLinesInvalid n) 0 32 c.fmt.lines s else s := by
      simp only [t, fsDark]
      rw [hc]
    rw [h]
    split
    · rename_i hr
      refine ⟨fun x hx => ?_, fun h => (by cases h), ⟨fun b hb => rd_bump_ne ?_ .., rfl, rfl⟩, regsBut_wr _ _ s⟩
      · cases hx
        exact ⟨rfl, (regsBut_wr _ _ s).mono (by simp [readRegs]), fun _ _ => ⟨rfl, rfl⟩, fun hf => (by rw [hr] at hf; cases hf), fun _ _ => count32_of_rd rfl⟩
      · intro he
        exact fsRegs_apart hb (by simp [stageRegs, he])
    · rename_i hr
      refine ⟨fun x hx => ?_, fun h => (by cases h), .refl n s, .refl _ s⟩
      have hsame := FsMoved.refl n s
      exact ⟨hsame.frame, hsame.regs, hsame.others, hsame.alone, fun _ h => absurd h hr⟩

/-- The crossfade at a join moves source channels only. -/
theorem joinFade_frame (n : Nat) (old : List LineInfo) (before : List Nat) (s : State) :
    joinFade n old before s = { s with aud := { s.aud with srcs := (joinFade n old before s).aud.srcs } } := by
  have hrefl : s = { s with aud := { s.aud with srcs := s.aud.srcs } } := rfl
  refine List.foldlRecOn (motive := fun t : State => t = { s with aud := { s.aud with srcs := t.aud.srcs } }) _ _ hrefl fun t ht x _ => ?_
  split
  · exact ht
  · rw [ht]

theorem joinFade_spec {n : Nat} {s : State} (old : List LineInfo) (before : List Nat) (hr : inRing s n = true) :
    FsMoved n 0 s (joinFade n old before s) ∧ FsKept n s (joinFade n old before s) := by
  obtain ⟨t, ht⟩ : ∃ t, joinFade n old before s = t := ⟨_, rfl⟩
  have h := joinFade_frame n old before s
  rw [ht] at h ⊢
  have hregs : ∀ b, rd t b = rd s b := rd_congr (by rw [h])
  exact ⟨⟨by rw [h], fun a _ => hregs a, fun m _ => ⟨by rw [fsTrack, show t.mem = s.mem by rw [h], fsTrack], inTrack_congr (by rw [h]) m⟩,
    fun hf => (by rw [hr] at hf; cases hf), fun _ _ => count32_zero (hregs _)⟩, fun b _ => hregs b, by rw [h], by rw [h]⟩

/-! ## STATE of a synchroniser (R200) -/

theorem fsA_mem (n : Nat) : fsA n ∈ fsRegs n := by simp [fsRegs]

theorem fsMoved_fsState (n v : Nat) (s : State) : FsMoved n 0 s (fsState n v s) := by
  obtain ⟨hframe, hrd⟩ := stateEvent_spec (Src.quad (quadOf n) 5) (localOf n) (fsA n) 0 2 v s
  refine .of_regs hframe fun b hb => (hrd b).trans (rd_putF_ne (fun he => hb ?_) ..)
  rw [he]
  exact fsA_mem n

theorem rd_fsState (n v b : Nat) (s : State) : rd (fsState n v s) b = rd (putF (fsA n) 0 2 v s) b := (stateEvent_spec ..).2 b

theorem fsState_mem (n v : Nat) (s : State) : (fsState n v s).mem = s.mem := by
  unfold fsState
  rw [(stateEvent_spec ..).1]

theorem state_fsState {v : Nat} (n : Nat) (s : State) (h : v < 4) : getF (fsState n v s) (fsA n) 0 2 = v := by
  rw [getF, rd_fsState, ← getF, getF_putF_same _ _ _ (by decide)]
  exact Nat.mod_eq_of_lt h

theorem getF_fsState (n v lo m : Nat) (s : State) (h : 2 ≤ lo) : getF (fsState n v s) (fsA n) lo m = getF s (fsA n) lo m := by
  rw [getF, rd_fsState, ← getF, getF_putF_fld _ _ _ (by decide) (.inr h)]

/-! ## A frame is read (R174 to R176) -/

/-- The frames passed over between the last read and this one. -/
def fsDrops (x : FsTrack) (f : RingFrame) : Nat :=
  match x.last with
  | some k => f.num - k - 1
  | none => 0

theorem fsDrops_eq (x : FsTrack) (f : RingFrame) : fsDrops x f = (x.last.map fun k => f.num - k - 1).getD 0 := by
  unfold fsDrops
  cases x.last <;> rfl

/-- The frame is that of the last read. -/
def fsRepeats (x : FsTrack) (f : RingFrame) : Bool := decide (x.last = some f.num)

/-- A read that falls back to the newest complete frame is counted and flagged. -/
def fsLate (n : Nat) (late : Bool) (s : State) : State :=
  if late then flagEvent (Src.quad (quadOf n) 5) (localOf n) (fsA n) 5 (bump (fsA n + 12) 24 8 1 s) else s

/-- What a read counts and measures. -/
def fsMeasured (n : Nat) (x : FsTrack) (f : RingFrame) (late : Bool) (s : State) : State :=
  let s := fsLate n late s
  let s := if fsRepeats x f then count (fsA n + 4) s else s
  let s := bump (fsA n + 8) 0 32 (fsDrops x f) s
  putF (fsA n + 12) 0 24 ((s.now - f.doneAt) / tickRow) s

/-- The track of a synchroniser after a read; a repeat or a drop starts a crossfade. -/
def fsReadTrack (x : FsTrack) (f : RingFrame) (s : State) : FsTrack :=
  { x with last := some f.num, lastBuf := f.buf, sel := none, fadeUntil := if fsRepeats x f || decide (0 < fsDrops x f) then s.mono + sixtyFour s else x.fadeUntil }

/-- The lines that would have come next, so far as they have been written. -/
def fsFollowing (x : FsTrack) : List LineInfo :=
  let follow := (x.last.map fun k => k + 1).getD 0
  match x.frames.find? fun g => decide (g.num = follow) with
  | some g => g.lines
  | none => if follow = x.nextNum then x.writing.reverse else []

/-- The stages behind the ring and the crossfade at a join, after a read has been noted in `u`. -/
def fsStages (n : Nat) (x : FsTrack) (f : RingFrame) (u : State) : State :=
  let before := (upto 0 32).map fun i => (tabGet audSrc0 (32 * n + i) u.aud.srcs).queue.length
  let v := if inRing u n then fsPresent n f.lines u else u
  if inRing v n && (fsRepeats x f || decide (0 < fsDrops x f)) then joinFade n (fsFollowing x) before v else v

theorem fsTake_eq (n : Nat) (x : FsTrack) (f : RingFrame) (late : Bool) (s : State) :
    fsTake n x f late s = fsState n 2 (putF (fsA n) 16 16 0 (fsStages n x f (putFs n (fsReadTrack x f (fsMeasured n x f late s)) (fsMeasured n x f late s)))) := rfl

/-- The registers after a read has been counted and measured. -/
structure Measured (n : Nat) (x : FsTrack) (f : RingFrame) (late : Bool) (s t : State) : Prop where
  repeats : (rd t (fsA n + 4)).toNat = min (2 ^ 32 - 1) ((rd s (fsA n + 4)).toNat + if fsRepeats x f = true then 1 else 0)
  drops : (rd t (fsA n + 8)).toNat = min (2 ^ 32 - 1) ((rd s (fsA n + 8)).toNat + fsDrops x f)
  latency : getF t (fsA n + 12) 0 24 = ((s.now - f.doneAt) / tickRow) % 2 ^ 24
  fallbacks : getF t (fsA n + 12) 24 8 = min 255 (getF s (fsA n + 12) 24 8 + if late = true then 1 else 0)
  flag : getB t (fsA n) 5 = (getB s (fsA n) 5 || late)

theorem Measured.later {n : Nat} {x : FsTrack} {f : RingFrame} {late : Bool} {s t u : State} (h : Measured n x f late s t)
    (h4 : rd u (fsA n + 4) = rd t (fsA n + 4)) (h8 : rd u (fsA n + 8) = rd t (fsA n + 8)) (h12 : rd u (fsA n + 12) = rd t (fsA n + 12))
    (h5 : getB u (fsA n) 5 = getB t (fsA n) 5) : Measured n x f late s u :=
  ⟨by rw [h4]; exact h.repeats, by rw [h8]; exact h.drops, by rw [getF, h12]; exact h.latency, by rw [getF, h12]; exact h.fallbacks, h5.trans h.flag⟩

theorem fsMoved_flagEvent (n src inst b : Nat) (s : State) : FsMoved n 0 s (flagEvent src inst (fsA n) b s) := by
  obtain ⟨hframe, hrd⟩ := flagEvent_spec src inst (fsA n) b s
  refine .of_regs hframe fun c hc => (hrd c).trans (rd_putB_ne (fun he => hc ?_) ..)
  rw [he]
  exact fsA_mem n

theorem fsLate_true (n : Nat) (s : State) : fsLate n true s = flagEvent (Src.quad (quadOf n) 5) (localOf n) (fsA n) 5 (bump (fsA n + 12) 24 8 1 s) := if_pos rfl

theorem fsLate_false (n : Nat) (s : State) : fsLate n false s = s := if_neg (by decide)

theorem rd_fsLate {n b : Nat} (late : Bool) (s : State) (h : b ≠ fsA n) (h12 : b ≠ fsA n + 12) : rd (fsLate n late s) b = rd s b := by
  cases late with
  | false => rw [fsLate_false]
  | true => rw [fsLate_true, (flagEvent_spec ..).2, rd_putB_ne h, rd_bump_ne h12]

theorem fsLate_spec (n : Nat) (late : Bool) (s : State) : let t := fsLate n late s
    FsMoved n 0 s t ∧ t.mem = s.mem
      ∧ getF t (fsA n + 12) 24 8 = min 255 (getF s (fsA n + 12) 24 8 + if late = true then 1 else 0) ∧ getB t (fsA n) 5 = (getB s (fsA n) 5 || late) := by
  intro t
  cases late with
  | false =>
    have h : getF s (fsA n + 12) 24 8 < 2 ^ 8 := fld_lt ..
    have ht : t = s := fsLate_false n s
    rw [ht]
    refine ⟨.refl n s, rfl, ?_, (Bool.or_false _).symm⟩
    rw [if_neg (by decide)]
    omega
  | true =>
    have ht : t = _ := fsLate_true n s
    have hbump : FsMoved n 0 s (bump (fsA n + 12) 24 8 1 s) := .bump (by simp [fsRegs]) 24 8 1 s
    rw [ht]
    refine ⟨hbump.trans (fsMoved_flagEvent ..), ?_, ?_, ?_⟩
    · exact (congrArg State.mem (flagEvent_spec ..).1).trans (bump_mem (fsA n + 12) 24 8 1 s)
    · rw [getF, (flagEvent_spec ..).2, rd_putB_ne (by omega), ← getF, getF_bump_same _ _ _ (by decide)]
      norm_num
    · rw [getB, (flagEvent_spec ..).2, ← getB, getB_putB_same _ _ _ (by decide), Bool.or_true]

theorem fsMeasured_spec (n : Nat) (x : FsTrack) (f : RingFrame) (late : Bool) (s : State) : let t := fsMeasured n x f late s
    FsMoved n 0 s t ∧ t.mem = s.mem ∧ t.mono = s.mono ∧ Measured n x f late s t := by
  intro t
  obtain ⟨hmoved, hmem, h12, h5⟩ := fsLate_spec n late s
  have h4 := rd_fsLate (n := n) (b := fsA n + 4) late s (by omega) (by omega)
  have h8 := rd_fsLate (n := n) (b := fsA n + 8) late s (by omega) (by omega)
  obtain ⟨u, hu⟩ : ∃ u, fsLate n late s = u := ⟨_, rfl⟩
  rw [hu] at hmoved hmem h4 h8 h12 h5
  obtain ⟨v, hv⟩ : ∃ v, (if fsRepeats x f then count (fsA n + 4) u else u) = v := ⟨_, rfl⟩
  have hvmoved : FsMoved n 0 u v := by
    rw [← hv]
    split
    · exact .wr (by simp [fsRegs]) _ u
    · exact .refl n u
  have hvother : ∀ b, b ≠ fsA n + 4 → rd v b = rd u b := fun b hb => by
    rw [← hv]
    split
    · exact rd_count_ne hb u
    · rfl
  have hv4 : (rd v (fsA n + 4)).toNat = min (2 ^ 32 - 1) ((rd u (fsA n + 4)).toNat + if fsRepeats x f = true then 1 else 0) := by
    rw [← hv]
    split
    · exact rd_count_same ..
    · exact count32_zero rfl
  have hvmem : v.mem = u.mem := by
    rw [← hv]
    split <;> rfl
  have hnow : (bump (fsA n + 8) 0 32 (fsDrops x f) v).now = s.now := (bump_now ..).trans (hvmoved.now.trans hmoved.now)
  have ht : t = putF (fsA n + 12) 0 24 ((s.now - f.doneAt) / tickRow) (bump (fsA n + 8) 0 32 (fsDrops x f) v) := by
    rw [← hnow, ← hv, ← hu]
    rfl
  have hother : ∀ b, b ≠ fsA n + 8 → b ≠ fsA n + 12 → rd t b = rd v b := fun b h1 h2 => by rw [ht, rd_putF_ne h2, rd_bump_ne h1]
  have hdrop : FsMoved n 0 v (bump (fsA n + 8) 0 32 (fsDrops x f) v) := .bump (by simp [fsRegs]) 0 32 (fsDrops x f) v
  have hall := ((hmoved.trans hvmoved).trans hdrop).trans (.putF (a := fsA n + 12) (by simp [fsRegs]) 0 24 ((s.now - f.doneAt) / tickRow) _)
  have hmono : t.mono = s.mono := by
    rw [ht, putF_mono, bump_mono, hvmoved.frame, hmoved.frame]
  refine ⟨by rw [ht]; exact hall, by rw [ht]; exact hvmem.trans hmem, hmono, ?_, ?_, ?_, ?_, ?_⟩
  · rw [hother _ (by omega) (by omega), hv4, h4]
  · rw [ht, rd_putF_ne (by omega), count32_of_rd rfl, hvother _ (by omega), h8]
  · rw [ht, getF_putF_same _ _ _ (by decide)]
  · rw [ht, getF_putF_fld _ _ _ (by decide) (.inr (by decide)), getF_bump_ne (by omega), getF, hvother _ (by omega), ← getF, h12]
  · rw [getB, hother _ (by omega) (by omega), hvother _ (by omega), ← getB, h5]

/-- A frame has been read: what has been counted, and the track. -/
structure FrameTaken (n : Nat) (x : FsTrack) (f : RingFrame) (late : Bool) (s t : State) : Prop where
  moved : FsMoved n (f.lines.filter LineInfo.invalid).length s t
  runs : getF t (fsA n) 0 2 = 2
  left : getF t (fsA n) 16 16 = 0
  measured : Measured n x f late s t
  track : fsTrack t n = { x with last := some f.num, lastBuf := f.buf, sel := none,
                                 fadeUntil := if fsRepeats x f = true ∨ 0 < fsDrops x f then s.mono + 64 * tickSec / planeRate s else x.fadeUntil }

theorem fsStages_spec (n : Nat) (x : FsTrack) (f : RingFrame) (u : State) :
    FsMoved n (f.lines.filter LineInfo.invalid).length u (fsStages n x f u) ∧ FsKept n u (fsStages n x f u) := by
  unfold fsStages
  dsimp only
  by_cases hr : inRing u n = true
  · obtain ⟨hmoved, hkept⟩ := fsPresent_spec f.lines hr
    have hring := (inRing_congr hmoved.plan n).trans hr
    rw [if_pos hr]
    split
    · obtain ⟨hfade, hfkept⟩ := joinFade_spec (fsFollowing x) ((upto 0 32).map fun i => (tabGet audSrc0 (32 * n + i) u.aud.srcs).queue.length) hring
      exact ⟨hmoved.trans hfade, hkept.trans hfkept⟩
    · exact ⟨hmoved, hkept⟩
  · have hsame := FsMoved.refl n u
    rw [if_neg hr, if_neg (by simp [hr])]
    exact ⟨⟨hsame.frame, hsame.regs, hsame.others, hsame.alone, fun _ h => absurd h hr⟩, .refl n u⟩

theorem fsTrack_putFs (n : Nat) (x : FsTrack) (s : State) : fsTrack (putFs n x s) n = x := tabGet_put_same ..

theorem fsTrack_congr {s t : State} (h : t.mem = s.mem) (n : Nat) : fsTrack t n = fsTrack s n := by rw [fsTrack, h, fsTrack]

theorem fsTake_spec (n : Nat) (x : FsTrack) (f : RingFrame) (late : Bool) (s : State) : FrameTaken n x f late s (fsTake n x f late s) := by
  obtain ⟨hm, hmmem, hmono, hmeasured⟩ := fsMeasured_spec n x f late s
  rw [fsTake_eq]
  obtain ⟨u, hu⟩ : ∃ u, fsMeasured n x f late s = u := ⟨_, rfl⟩
  rw [hu] at hm hmmem hmono hmeasured ⊢
  obtain ⟨hstages, hkept, hsmem, -⟩ := fsStages_spec n x f (putFs n (fsReadTrack x f u) u)
  obtain ⟨v, hv⟩ : ∃ v, fsStages n x f (putFs n (fsReadTrack x f u) u) = v := ⟨_, rfl⟩
  rw [hv] at hstages hkept hsmem ⊢
  have hfsA := fsA_mem n
  have hlast : ∀ b, b ≠ fsA n → rd (fsState n 2 (putF (fsA n) 16 16 0 v)) b = rd v b := fun b hb => by rw [rd_fsState, rd_putF_ne hb, rd_putF_ne hb]
  have hreg : ∀ b ∈ fsRegs n, rd v b = rd u b := fun b hb => hkept b hb
  have hrate : sixtyFour u = 64 * tickSec / planeRate s := by simp only [sixtyFour, planeRate, hm.plan]
  refine ⟨?_, state_fsState n _ (by decide), ?_, hmeasured.later ?_ ?_ ?_ ?_, ?_⟩
  · have h := (((hm.trans (.putFs n _ u)).trans hstages).trans (.putF hfsA 16 16 0 v)).trans (fsMoved_fsState n 2 _)
    simpa using h
  · rw [getF_fsState _ _ _ _ _ (by decide), getF_putF_same _ _ _ (by decide), Nat.zero_mod]
  · rw [hlast _ (by omega), hreg _ (by simp [fsRegs])]
  · rw [hlast _ (by omega), hreg _ (by simp [fsRegs])]
  · rw [hlast _ (by omega), hreg _ (by simp [fsRegs])]
  · rw [getB_eq_getF, getF_fsState _ _ _ _ _ (by decide), getF_putF_fld _ _ _ (by decide) (.inl (by decide)), getF, hreg _ hfsA, ← getF, ← getB_eq_getF]
  · rw [fsTrack_congr ((fsState_mem n 2 _).trans (putF_mem ..)), fsTrack_congr hsmem, fsTrack_putFs, fsReadTrack, hrate, hmono]
    simp only [Bool.or_eq_true, decide_eq_true_eq]

/-! ## A frame is complete (R173) -/

theorem fsRingComplete_none {n : Nat} {s : State} (h : tabFind n s.mem.fs = none) : fsRingComplete n s = s := by
  unfold fsRingComplete
  rw [h]

section
variable {n : Nat} {x : FsTrack} {s : State}

theorem fsTrack_of_find (h : tabFind n s.mem.fs = some x) : fsTrack s n = x := by
  rw [fsTrack, tabGet, h, Option.getD_some]

theorem fsRingComplete_shed (h : tabFind n s.mem.fs = some x) (hs : isShed s 4 n = true) : fsRingComplete n s = s := by
  unfold fsRingComplete
  rw [h]
  exact if_pos hs

theorem fsRingComplete_partial (h : tabFind n s.mem.fs = some x) (hs : isShed s 4 n = false) (hw : fsWhole s n x = false) :
    fsRingComplete n s = putFs n { x with writing := [] } s := by
  unfold fsRingComplete
  rw [h]
  exact (if_neg (by simp [hs])).trans (if_pos hw)

/-- The buffer in which the writer goes on. -/
def fsNext (x : FsTrack) : Nat := freeBuf x.buf (if x.lost then x.buf else x.lastBuf)

theorem freeBuf_spec (newest reading : Nat) : freeBuf newest reading < 3 ∧ freeBuf newest reading ≠ newest ∧ freeBuf newest reading ≠ reading := by
  unfold freeBuf
  split
  · omega
  · split <;> omega

theorem fsNext_spec (x : FsTrack) : fsNext x < 3 ∧ fsNext x ≠ x.buf ∧ (x.lost = false → fsNext x ≠ x.lastBuf) := by
  obtain ⟨hlt, hbuf, hread⟩ := freeBuf_spec x.buf (if x.lost then x.buf else x.lastBuf)
  refine ⟨hlt, hbuf, fun hl => ?_⟩
  rw [hl] at hread
  rw [fsNext, hl]
  exact hread

/-- The track of a synchroniser after a frame has become complete in it: after a loss the ring starts again from this frame. -/
def fsCompleted (x : FsTrack) (s : State) : FsTrack :=
  { x with frames := { num := x.nextNum, buf := x.buf, doneAt := s.now, lines := x.writing.reverse } :: (if x.lost then [] else x.frames.filter fun g => decide (g.buf ≠ fsNext x)),
           nextNum := x.nextNum + 1, buf := fsNext x, writing := [], times := s.mono :: (if x.lost then [] else x.times.take 64),
           lost := false, last := if x.lost then none else x.last }

/-- A hold ends: STATE and HOLD_LEFT. -/
def fsMuted (n : Nat) (s : State) : State := fsState n 1 (putF (fsA n) 16 16 0 s)

theorem fsRingComplete_whole (h : tabFind n s.mem.fs = some x) (hs : isShed s 4 n = false) (hw : fsWhole s n x = true) :
    fsRingComplete n s = putB (fsA n) 3 true
      (if x.lost = true ∧ getF s (fsA n) 0 2 = 3 then fsMuted n (putFs n (fsCompleted x s) s) else putFs n (fsCompleted x s) s) := by
  unfold fsRingComplete
  rw [h]
  exact (if_neg (by simp [hs])).trans (if_neg (by simp [hw]))

theorem fsMuted_spec (n : Nat) (s : State) : let t := fsMuted n s
    t = { s with regs := t.regs, evq := t.evq } ∧ FsMoved n 0 s t ∧ getF t (fsA n) 0 2 = 1 ∧ getF t (fsA n) 16 16 = 0 := by
  refine ⟨(stateEvent_spec ..).1, (FsMoved.putF (fsA_mem n) 16 16 0 s).trans (fsMoved_fsState n 1 _), state_fsState n _ (by decide), ?_⟩
  rw [fsMuted, getF_fsState _ _ _ _ _ (by decide), getF_putF_same _ _ _ (by decide), Nat.zero_mod]

/-- A whole frame joins the complete ones; a hold under way ends. -/
theorem fsRingComplete_spec (h : tabFind n s.mem.fs = some x) (hs : isShed s 4 n = false) (hw : fsWhole s n x = true) : let t := fsRingComplete n s
    FsMoved n 0 s t ∧ t.port = s.port ∧ t.aud = s.aud ∧ getB t (fsA n) 3 = true
      ∧ getF t (fsA n) 0 2 = (if x.lost = true ∧ getF s (fsA n) 0 2 = 3 then 1 else getF s (fsA n) 0 2) ∧ fsTrack t n = fsCompleted x s := by
  intro t
  have hput := FsMoved.putFs n (fsCompleted x s) s
  obtain ⟨u, hu⟩ : ∃ u, putFs n (fsCompleted x s) s = u := ⟨_, rfl⟩
  obtain ⟨v, hv⟩ : ∃ v, (if x.lost = true ∧ getF s (fsA n) 0 2 = 3 then fsMuted n u else u) = v := ⟨_, rfl⟩
  have ht : t = putB (fsA n) 3 true v := by
    rw [← hv, ← hu]
    exact fsRingComplete_whole h hs hw
  have hbit : getF t (fsA n) 0 2 = getF v (fsA n) 0 2 := by rw [ht, getF_putB_fld _ _ _ (by decide) (.inl (by decide))]
  have hframe : v = { u with regs := v.regs, evq := v.evq } ∧ FsMoved n 0 u v
      ∧ getF v (fsA n) 0 2 = (if x.lost = true ∧ getF s (fsA n) 0 2 = 3 then 1 else getF s (fsA n) 0 2) := by
    obtain ⟨hmframe, hmoved, hstate, -⟩ := fsMuted_spec n u
    rw [← hv]
    split
    · exact ⟨hmframe, hmoved, hstate⟩
    · exact ⟨rfl, .refl n u, by rw [← hu]; rfl⟩
  obtain ⟨hvframe, hvmoved, hvstate⟩ := hframe
  rw [hu] at hput
  refine ⟨?_, ?_, ?_, ?_, hbit.trans hvstate, ?_⟩
  · rw [ht]
    exact (hput.trans hvmoved).trans (.putB (fsA_mem n) 3 true v)
  · rw [ht, putB_port, hvframe, ← hu]
    rfl
  · rw [ht, putB_aud, hvframe, ← hu]
    rfl
  · rw [ht, getB_putB_same _ _ _ (by decide)]
  · rw [ht, fsTrack_congr (putB_mem ..), fsTrack_congr (show v.mem = u.mem by rw [hvframe]), ← hu, fsTrack_putFs]

end

/-! ## Words marked invalid (R161, R179) -/

/-- A house frame without words: the lines of an input count. -/
def FsDarkened (n : Nat) (s t : State) : Prop := (∀ c, inCfg? s n = some c → FsMoved n c.fmt.lines s t) ∧ (inCfg? s n = none → FsMoved n 0 s t)

theorem FsDarkened.moved {n : Nat} {s t : State} (h : FsDarkened n s t) : ∃ k, FsMoved n k s t := by
  cases hc : inCfg? s n with
  | none => exact ⟨_, h.2 hc⟩
  | some c => exact ⟨_, h.1 c hc⟩

theorem darkened_after {n : Nat} {s u : State} (h : FsMoved n 0 s u) : FsDarkened n s (fsDark n u) := by
  obtain ⟨hsome, hnone, -, -⟩ := fsDark_spec n u
  have hcfg := inCfg?_congr h.plan n
  refine ⟨fun c hc => ?_, fun hc => ?_⟩
  · have hdark := h.trans (hsome c (hcfg.trans hc))
    rwa [Nat.zero_add] at hdark
  · exact h.trans (hnone (hcfg.trans hc))

/-- The words are marked invalid: STATE and HOLD_LEFT say so, and the frames stay. -/
theorem fsDark_muted (n : Nat) (s : State) : let t := fsDark n (fsMuted n s)
    FsDarkened n s t ∧ getF t (fsA n) 0 2 = 1 ∧ getF t (fsA n) 16 16 = 0 ∧ fsTrack t n = fsTrack s n := by
  obtain ⟨hframe, hmoved, hstate, hleft⟩ := fsMuted_spec n s
  obtain ⟨-, -, ⟨hkept, hmem, -⟩, -⟩ := fsDark_spec n (fsMuted n s)
  have ha := hkept _ (fsA_mem n)
  refine ⟨darkened_after hmoved, ?_, ?_, ?_⟩
  · rw [getF, ha, ← getF, hstate]
  · rw [getF, ha, ← getF, hleft]
  · rw [fsTrack_congr hmem, fsTrack_congr (show (fsMuted n s).mem = s.mem by rw [hframe])]

theorem fsDark_state (n : Nat) (s : State) : let t := fsDark n (fsState n 1 s)
    FsDarkened n s t ∧ getF t (fsA n) 0 2 = 1 ∧ fsTrack t n = fsTrack s n := by
  obtain ⟨-, -, ⟨hkept, hmem, -⟩, -⟩ := fsDark_spec n (fsState n 1 s)
  refine ⟨darkened_after (fsMoved_fsState n 1 s), ?_, ?_⟩
  · rw [getF, hkept _ (fsA_mem n), ← getF, state_fsState n s (by decide)]
  · rw [fsTrack_congr hmem, fsTrack_congr (fsState_mem n 1 s)]

/-! ## The last frame is held (R179) -/

/-- The frame of the last read passes the stages behind the ring once more. -/
def fsHeld (n : Nat) (x : FsTrack) (s : State) : State :=
  if inRing s n then fsPresent n ((x.frames.find? fun f => decide (some f.num = x.last)).elim [] RingFrame.lines) s else s

theorem fsHeld_spec (n : Nat) (x : FsTrack) (s : State) : (∃ k, FsMoved n k s (fsHeld n x s)) ∧ FsKept n s (fsHeld n x s) := by
  unfold fsHeld
  split
  · rename_i hr
    obtain ⟨hmoved, hkept⟩ := fsPresent_spec ((x.frames.find? fun f => decide (some f.num = x.last)).elim [] RingFrame.lines) hr
    exact ⟨⟨_, hmoved⟩, hkept⟩
  · exact ⟨⟨_, .refl n s⟩, .refl n s⟩

/-- A held frame is shown after the synchroniser's registers have moved. -/
theorem fsHeld_after {n : Nat} {s u : State} (x : FsTrack) (h : FsMoved n 0 s u) (hm : u.mem = s.mem) : let t := fsHeld n x u
    (∃ k, FsMoved n k s t) ∧ (∀ lo m, getF t (fsA n) lo m = getF u (fsA n) lo m) ∧ fsTrack t n = fsTrack s n := by
  obtain ⟨⟨k, hmoved⟩, hkept, hmem, -⟩ := fsHeld_spec n x u
  exact ⟨⟨_, h.trans hmoved⟩, fun lo m => by rw [getF, hkept _ (fsA_mem n), ← getF], by rw [fsTrack_congr hmem, fsTrack_congr hm]⟩

/-! ## A read while the input is lost (R179) -/

section
variable {n : Nat} {x : FsTrack} {f : RingFrame} {s : State}

theorem fsReadLost_dark (h : getB s (fsA n) 2 = false ∨ fsNewest x (srcLine s n) s.now = none) : fsReadLost n x s = fsDark n (fsMuted n s) := by
  unfold fsReadLost
  by_cases hb : getB s (fsA n) 2 = true
  · rcases h with h | h
    · rw [hb] at h
      cases h
    · refine (if_pos hb).trans ?_
      rw [h]
      rfl
  · exact if_neg hb

theorem fsReadLost_frame (hb : getB s (fsA n) 2 = true) (hf : fsNewest x (srcLine s n) s.now = some f) :
    fsReadLost n x s =
      if x.last ≠ some f.num ∧ getF s (fsA n) 0 2 ≠ 3 then fsTake n x f false s
      else if getF s (fsA n) 0 2 = 3 then
        if getF s (fsA n) 16 16 ≤ 1 then fsDark n (fsMuted n s) else fsHeld n x (putF (fsA n) 16 16 (getF s (fsA n) 16 16 - 1) s)
      else if x.hold = 0 ∨ getF s (fsA n) 0 2 = 1 then fsDark n (fsState n 1 s)
      else fsHeld n x (fsState n 3 (putF (fsA n) 16 16 x.hold s)) := by
  unfold fsReadLost
  refine (if_pos hb).trans ?_
  rw [hf]
  rfl

end

/-! ## Reads (R174 to R179) -/

theorem fsReadFrame_none {n : Nat} {s : State} (h : tabFind n s.mem.fs = none) : fsReadFrame n s = s := by
  unfold fsReadFrame
  rw [h]

theorem fsHoldExpire_none {n : Nat} {s : State} (h : tabFind n s.mem.fs = none) : fsHoldExpire n s = s := by
  unfold fsHoldExpire
  rw [h]

section
variable {n : Nat} {x : FsTrack} {s : State}

theorem fsReadFrame_shed (h : tabFind n s.mem.fs = some x) (hs : isShed s 4 n = true) : fsReadFrame n s = fsDark n (fsState n 1 s) := by
  unfold fsReadFrame
  rw [h]
  exact if_pos hs

theorem fsReadFrame_lost (h : tabFind n s.mem.fs = some x) (hs : isShed s 4 n = false) (hl : x.lost = true) : fsReadFrame n s = fsReadLost n x s := by
  unfold fsReadFrame
  rw [h]
  exact (if_neg (by simp [hs])).trans (if_pos hl)

theorem fsReadFrame_pick {p : Option RingFrame × Bool} (h : tabFind n s.mem.fs = some x) (hs : isShed s 4 n = false) (hl : x.lost = false)
    (hp : fsPick x (srcLine s n) s.now = p) : fsReadFrame n s = p.1.elim (fsDark n s) fun f => fsTake n x f p.2 s := by
  unfold fsReadFrame
  rw [h]
  refine (if_neg (by simp [hs])).trans ((if_neg (by simp [hl])).trans ?_)
  dsimp only
  rw [hp]
  cases p.1 <;> rfl

theorem fsHoldExpire_some (h : tabFind n s.mem.fs = some x) :
    fsHoldExpire n s = if x.lost = true ∧ getF s (fsA n) 0 2 = 3 then fsMuted n s else s := by
  unfold fsHoldExpire
  rw [h]
  rfl

end

/-- The frame that a read takes: the one selected, or else the newest complete one. -/
theorem fsPick_fst (x : FsTrack) (l now : Nat) : (fsPick x l now).1 =
    let chosen := x.sel.bind fun k => x.frames.find? fun f => decide (f.num = k)
    x.sel.elim (x.frames.find? fun f => decide (f.doneAt + l ≤ now)) fun _ => if chosen.isSome = true then chosen else x.frames.head? := by
  unfold fsPick
  cases x.sel with
  | none => rfl
  | some k =>
    dsimp only [Option.bind_some, Option.elim_some]
    cases x.frames.find? fun f => decide (f.num = k) <;> rfl

/-- A read that takes a frame fell back where a frame was selected and is not complete. -/
theorem fsPick_snd {x : FsTrack} {l now : Nat} {f : RingFrame} (h : (fsPick x l now).1 = some f) :
    (fsPick x l now).2 = (x.sel.isSome && (x.sel.bind fun k => x.frames.find? fun f => decide (f.num = k)).isNone) := by
  unfold fsPick at h ⊢
  cases hs : x.sel with
  | none => rfl
  | some k =>
    rw [hs] at h
    dsimp only [Option.bind_some] at h ⊢
    cases hf : x.frames.find? fun f => decide (f.num = k) with
    | some g => rfl
    | none =>
      rw [hf] at h
      dsimp only at h ⊢
      rw [h]
      rfl

/-! ## The statement -/

/-- Settles O41: the writer's part is `fsRingComplete_spec`; a read takes a frame (`fsTake_spec`), holds the last one (`fsHeld_after`) or shows none (`fsDark_muted`). -/
theorem synchronisersReadTheirRings : Obligations.SynchronisersReadTheirRings := by
  unfold Obligations.SynchronisersReadTheirRings
  intro dt s hp n hn a st now u others kept lines dark
  have hcomplete : ∀ P, P (fsRingComplete n u) → Completes (.fsRingFrameComplete dt n) s P := fun P h => completes_only rfl (decide_eq_true hn) hp h
  have hread : ∀ P, P (fsReadFrame n u) → Completes (.fsRead dt n) s P := fun P h => completes_only rfl (decide_eq_true hn) hp h
  have hexpire : ∀ P, P (fsHoldExpire n u) → Completes (.fsHoldExpiry dt n) s P := fun P h => completes_only rfl (decide_eq_true hn) hp h
  have hkept : ∀ k t, FsMoved n k u t → kept t := fun k t h => ⟨h.frame, h.regs, h.others, h.alone⟩
  have hlines : ∀ k t, FsMoved n k u t → lines t k := fun k t h c hc hr => h.lines (Option.isSome_of_eq_some hc) hr
  have hdark : ∀ t, FsDarkened n u t → dark t := fun t h => by
    obtain ⟨k, hk⟩ := h.moved
    exact ⟨hkept k t hk, fun c hc => hlines _ t (h.1 c hc)⟩
  refine ⟨fun hnone => ⟨hcomplete _ (fsRingComplete_none hnone), hread _ (fsReadFrame_none hnone), hexpire _ (fsHoldExpire_none hnone)⟩, fun x hx => ?_⟩
  have hfind : tabFind n u.mem.fs = some x := hx
  have htrack : fsTrack u n = x := fsTrack_of_find hfind
  intro shed whole taken
  have hwhole : fsWhole u n x = whole := rfl
  have htaken : ∀ f late t, FrameTaken n x f late u t → taken f late t := fun f late t h => by
    have hdrops := fsDrops_eq x f
    obtain ⟨hmoved, hruns, hleft, ⟨hrep, hdrop, hlat, hfall, hflag⟩, htr⟩ := h
    rw [hdrops] at hdrop htr
    exact ⟨hkept _ t hmoved, hruns, hleft, hrep, hdrop, hlat, hfall, hflag, hlines _ t hmoved, htr⟩
  refine ⟨fun hs => ⟨hcomplete _ (fsRingComplete_shed hfind hs), hread _ ?_⟩, fun hs hw => hcomplete _ ?_, fun hs hw => hcomplete _ ?_, ?_, ?_, ?_, ?_⟩
  · obtain ⟨hd, hstate, htr⟩ := fsDark_state n u
    rw [fsReadFrame_shed hfind hs]
    exact ⟨hdark _ hd, hstate, htr.trans htrack⟩
  · rw [fsRingComplete_partial hfind hs (hwhole.trans hw)]
    have hput := FsMoved.putFs n { x with writing := [] } u
    exact ⟨rfl, hput.others, fsTrack_putFs ..⟩
  · obtain ⟨hmoved, hport, haud, hready, hstate, htr⟩ := fsRingComplete_spec hfind hs (hwhole.trans hw)
    obtain ⟨hlt, hbuf, hnext⟩ := fsNext_spec x
    exact ⟨hkept _ _ hmoved, hport, haud, hready, hstate, fsNext x, hlt, hbuf, hnext, htr⟩
  · intro hs hl chosen f?
    have hfst : (fsPick x (srcLine u n) u.now).1 = f? := by
      rw [fsPick_fst]
      simp only [f?, chosen]
      cases x.sel <;> rfl
    have hsnd : ∀ f, f? = some f → (fsPick x (srcLine u n) u.now).2 = (x.sel.isSome && chosen.isNone) := fun f hf => fsPick_snd (hfst.trans hf)
    refine ⟨fun hnone => hread _ ?_, fun f hf => hread _ ?_⟩
    · rw [fsReadFrame_pick hfind hs hl rfl, hfst, hnone]
      obtain ⟨-, -, ⟨-, hmem, -⟩, hregs⟩ := fsDark_spec n u
      exact ⟨hdark _ (darkened_after (.refl n u)), hregs, (fsTrack_congr hmem n).trans htrack⟩
    · rw [fsReadFrame_pick hfind hs hl rfl, hfst, hf, ← hsnd f hf]
      exact htaken f _ _ (fsTake_spec n x f _ u)
  · intro hs hl left frame
    have hlost := fsReadFrame_lost hfind hs hl
    have hframe : fsNewest x (srcLine u n) u.now = frame := rfl
    refine ⟨fun h => hread _ ?_, fun hb f hf => ?_⟩
    · obtain ⟨hd, hstate, hleft, htr⟩ := fsDark_muted n u
      rw [hlost, fsReadLost_dark h]
      exact ⟨hdark _ hd, hstate, hleft, htr.trans htrack⟩
    have hcase := hlost.trans (fsReadLost_frame (s := u) hb (hframe.trans hf))
    refine ⟨fun (h3 : getF u (fsA n) 0 2 ≠ 3) hlast => hread _ ?_, fun (h3 : getF u (fsA n) 0 2 = 3) (h1 : getF u (fsA n) 16 16 ≤ 1) => hread _ ?_,
      fun (h3 : getF u (fsA n) 0 2 = 3) (h1 : 1 < getF u (fsA n) 16 16) => hread _ ?_,
      fun (h3 : getF u (fsA n) 0 2 ≠ 3) hlast (h : x.hold = 0 ∨ getF u (fsA n) 0 2 = 1) => hread _ ?_,
      fun (h3 : getF u (fsA n) 0 2 ≠ 3) hlast h0 (h1 : getF u (fsA n) 0 2 ≠ 1) => hread _ ?_⟩
    all_goals rw [hcase]
    · rw [if_pos ⟨hlast, h3⟩]
      exact htaken f false _ (fsTake_spec n x f false u)
    · obtain ⟨hd, hstate, hleft, htr⟩ := fsDark_muted n u
      rw [if_neg fun h => h.2 h3, if_pos h3, if_pos h1]
      exact ⟨hdark _ hd, hstate, hleft, htr.trans htrack⟩
    · have hlt : getF u (fsA n) 16 16 < 2 ^ 16 := fld_lt ..
      obtain ⟨⟨k, hmoved⟩, hfld, htr⟩ := fsHeld_after x (.putF (fsA_mem n) 16 16 (getF u (fsA n) 16 16 - 1) u) (putF_mem ..)
      rw [if_neg fun h => h.2 h3, if_pos h3, if_neg (Nat.not_le.2 h1)]
      refine ⟨hkept k _ hmoved, ?_, ?_, htr.trans htrack⟩
      · rw [hfld, getF_putF_fld _ _ _ (by decide) (.inl (by decide))]
        exact h3
      · rw [hfld, getF_putF_same _ _ _ (by decide)]
        exact Nat.mod_eq_of_lt (by omega)
    · obtain ⟨hd, hstate, htr⟩ := fsDark_state n u
      rw [if_neg fun h => h.1 hlast, if_neg h3, if_pos h]
      exact ⟨hdark _ hd, hstate, htr.trans htrack⟩
    · have hmoved := (FsMoved.putF (fsA_mem n) 16 16 x.hold u).trans (fsMoved_fsState n 3 _)
      obtain ⟨⟨k, hheld⟩, hfld, htr⟩ := fsHeld_after x hmoved ((fsState_mem ..).trans (putF_mem ..))
      rw [if_neg fun h => h.1 hlast, if_neg h3, if_neg fun h => h.elim h0 h1]
      refine ⟨hkept k _ hheld, ?_, ?_, htr.trans htrack⟩
      · rw [hfld, state_fsState n _ (by decide)]
      · exact (hfld 16 16).trans ((getF_fsState _ _ _ _ _ (by decide)).trans (getF_putF_same _ _ _ (by decide)))
  · intro hl h3
    obtain ⟨hframe, hmoved, hstate, hleft⟩ := fsMuted_spec n u
    refine hexpire _ ?_
    rw [fsHoldExpire_some hfind, if_pos ⟨hl, h3⟩]
    exact ⟨hkept _ _ hmoved, hstate, hleft, (fsTrack_congr (by rw [hframe]) n).trans htrack⟩
  · intro h
    refine hexpire _ ?_
    rw [fsHoldExpire_some hfind, if_neg fun hb => h.elim (fun hl => by rw [hb.1] at hl; cases hl) fun h3 => h3 hb.2]

end Sys2Proof.Machine
end

section
/-! A line at an input (03_port_pipelines.md R129 to R133, R161, R818): signal found, sequence, CRC and payload ID, and the state that they lead to. -/

namespace Sys2Proof.Machine

/-! ## Stages 1 to 4 -/

/-- Stages 1 to 4 of input `n` have worked: no sample has entered the plane. -/
structure Judged (n : Nat) (as : List Nat) (s t : State) : Prop extends InMoves n as s t where
  aud : t.aud = s.aud

theorem Judged.refl (n : Nat) (as : List Nat) (s : State) : Judged n as s s := ⟨.refl n as s, rfl⟩

theorem Judged.trans {n : Nat} {as : List Nat} {s u t : State} (h1 : Judged n as s u) (h2 : Judged n as u t) : Judged n as s t :=
  ⟨h1.toInMoves.trans h2.toInMoves, h2.aud.trans h1.aud⟩

theorem Judged.mono {n : Nat} {as bs : List Nat} {s t : State} (h : Judged n as s t) (hs : as ⊆ bs) : Judged n bs s t := ⟨h.toInMoves.mono hs, h.aud⟩

theorem judged_putIn (n : Nat) (as : List Nat) (x : InTrack) (s : State) : Judged n as s (putIn n x s) := ⟨inMoves_putIn n as x s, rfl⟩

theorem judged_wr (n a : Nat) (v : Word) (s : State) : Judged n [a] s (wr a v s) := ⟨inMoves_wr n a v s, rfl⟩

theorem judged_putB (n a b : Nat) (v : Bool) (s : State) : Judged n [a] s (putB a b v s) := judged_wr n a _ s

theorem judged_bump (n a lo m k : Nat) (s : State) : Judged n [a] s (bump a lo m k s) := judged_wr n a _ s

theorem judged_count (n a : Nat) (s : State) : Judged n [a] s (count a s) := judged_wr n a _ s

/-! ## STATE of an input (R130) -/

/-- Synchronisers and trunk streams alone have moved: what a change of state tells them. -/
def TellsStores (s t : State) : Prop := t = { s with mem := { s.mem with fs := t.mem.fs }, trk := { s.trk with streams := t.trk.streams } }

theorem tellsStores_fsLeft (n : Nat) (s : State) : TellsStores s (fsLeft n s) := by
  unfold TellsStores fsLeft
  cases tabFind n s.mem.fs <;> rfl

theorem tellsStores_fsLocked (n : Nat) (s : State) : TellsStores s (fsLocked n s) := by
  unfold TellsStores fsLocked
  cases tabFind n s.mem.fs <;> rfl

theorem tellsStores_streamLocked (n : Nat) (s : State) : TellsStores s (streamLocked n s) := by
  unfold TellsStores streamLocked
  cases tabFind n s.trk.streams with
  | none => rfl
  | some b =>
    dsimp only
    split <;> rfl

theorem TellsStores.ite {c : Prop} [Decidable c] {s u t : State} (h1 : TellsStores s u) (h2 : TellsStores s t) : TellsStores s (if c then u else t) := by
  split
  · exact h1
  · exact h2

theorem TellsStores.judged {s t : State} (h : TellsStores s t) (n : Nat) (as : List Nat) : Judged n as s t := by
  have hport : t.port = s.port := by rw [h]
  refine ⟨⟨?_, fun a _ => rd_congr (by rw [h]) a, fun m _ => inTrack_congr hport m⟩, by rw [h]⟩
  rw [h]

theorem TellsStores.port {s t : State} (h : TellsStores s t) : t.port = s.port := by rw [h]

theorem TellsStores.regs {s t : State} (h : TellsStores s t) : t.regs = s.regs := by rw [h]

theorem TellsStores.now {s t : State} (h : TellsStores s t) : t.now = s.now := by rw [h]

/-- The track of an input that enters state `v`: its words are valid on only in LOCKED, and the runs of faults start again. -/
def enteredTrack (v now : Nat) (t : InTrack) : InTrack := { t with live := t.live && decide (v = 3), oos := 0, vpidBad := 0, linesAt := now }

theorem setInState_eq (n v : Nat) (s : State) : setInState n v s =
    let before := anyLocked s n
    let u := stateEvent (Src.input n) noInst (Reg.pinStatus n) 0 3 v (if inState s n ≠ 3 ∧ v = 3 then streamLocked n s else s)
    let w := putIn n (enteredTrack v u.now (inTrack u n)) u
    if before && !anyLocked w n then fsLeft (inLead w n) w else if !before && anyLocked w n then fsLocked (inLead w n) w else w := rfl

/-- An input enters a state: what moves, what it reads as, and its track. -/
structure Entered (n v : Nat) (s t : State) : Prop extends Judged n [Reg.pinStatus n] s t where
  state : inState t n = v
  fields : ∀ lo m, 3 ≤ lo → getF t (Reg.pinStatus n) lo m = getF s (Reg.pinStatus n) lo m
  track : inTrack t n = enteredTrack v s.now (inTrack s n)

theorem entered_setInState {n v : Nat} (s : State) (hv : v < 8) : Entered n v s (setInState n v s) := by
  rw [setInState_eq]
  dsimp only
  obtain ⟨r, hr⟩ : ∃ r, (if inState s n ≠ 3 ∧ v = 3 then streamLocked n s else s) = r := ⟨_, rfl⟩
  have hstream : TellsStores s r := by
    rw [← hr]
    exact .ite (tellsStores_streamLocked n s) rfl
  obtain ⟨u, hu⟩ : ∃ u, stateEvent (Src.input n) noInst (Reg.pinStatus n) 0 3 v r = u := ⟨_, rfl⟩
  obtain ⟨hframe, hrd⟩ := stateEvent_spec (Src.input n) noInst (Reg.pinStatus n) 0 3 v r
  have hevent := inMoves_stateEvent n (Src.input n) noInst (Reg.pinStatus n) 0 3 v r
  rw [hr, hu]
  rw [hu] at hframe hrd hevent
  obtain ⟨w, hw⟩ : ∃ w, putIn n (enteredTrack v u.now (inTrack u n)) u = w := ⟨_, rfl⟩
  rw [hw]
  have hput : Judged n [Reg.pinStatus n] u w := by
    rw [← hw]
    exact judged_putIn ..
  have htells : TellsStores w (if (anyLocked s n && !anyLocked w n) = true then fsLeft (inLead w n) w
      else if (!anyLocked s n && anyLocked w n) = true then fsLocked (inLead w n) w else w) :=
    .ite (tellsStores_fsLeft _ w) (.ite (tellsStores_fsLocked _ w) rfl)
  have hst : ∀ lo m, getF (putF (Reg.pinStatus n) 0 3 v r) (Reg.pinStatus n) lo m = getF (if (anyLocked s n && !anyLocked w n) = true then fsLeft (inLead w n) w
      else if (!anyLocked s n && anyLocked w n) = true then fsLocked (inLead w n) w else w) (Reg.pinStatus n) lo m := fun lo m => by
    rw [getF_congr htells.regs, ← hw, getF_congr (putIn_regs ..), getF, ← hrd, ← getF]
  refine ⟨((hstream.judged n _).trans ⟨hevent, by rw [hframe]⟩).trans (hput.trans (htells.judged n _)), ?_, fun lo m h => ?_, ?_⟩
  · rw [inState, ← hst, getF_putF_same _ _ _ (by decide)]
    exact Nat.mod_eq_of_lt hv
  · rw [← hst, getF_putF_fld _ _ _ (by decide) (.inr h), getF_congr hstream.regs]
  · rw [inTrack_congr htells.port, ← hw, inTrack_putIn_same, inTrack_congr (show u.port = r.port by rw [hframe]), inTrack_congr hstream.port,
      show u.now = r.now by rw [hframe], hstream.now]

/-! ## The signal is found (R130, R161) -/

theorem inState_lt (s : State) (n : Nat) : inState s n < 8 := fld_lt ..

theorem inState_congr {s t : State} {n : Nat} (h : rd t (Reg.pinStatus n) = rd s (Reg.pinStatus n)) : inState t n = inState s n := by rw [inState, getF, h, ← getF, inState]

theorem pinStatus_ne_lines (n : Nat) : Reg.pinStatus n ≠ Reg.pinLinesInvalid n := (stageRegs_apart n).1.symm

/-- Lines that have passed without a signal, of an input that counts them. -/
def linesPassed (s : State) (n : Nat) (c : InCfg) : Nat := if inState s n = 1 ∧ inRing s n = false then (s.now - (inTrack s n).linesAt) / max 1 (fmtLineTicks c.fmt) else 0

theorem settleLines_eq {n : Nat} {c : InCfg} {s : State} (h : inCfg? s n = some c) : settleLines n s =
    if inState s n = 1 ∧ inRing s n = false then
      bump (Reg.pinLinesInvalid n) 0 32 ((s.now - (inTrack s n).linesAt) / max 1 (fmtLineTicks c.fmt))
        (putIn n { inTrack s n with linesAt := (inTrack s n).linesAt + (s.now - (inTrack s n).linesAt) / max 1 (fmtLineTicks c.fmt) * max 1 (fmtLineTicks c.fmt) } s)
    else s := by
  unfold settleLines
  rw [h]

theorem settleLines_spec {n : Nat} {c : InCfg} {s : State} (h : inCfg? s n = some c) : let t := settleLines n s
    Judged n [Reg.pinLinesInvalid n] s t ∧ inTrack t n = { inTrack s n with linesAt := (inTrack t n).linesAt }
      ∧ (rd t (Reg.pinLinesInvalid n)).toNat = min (2 ^ 32 - 1) ((rd s (Reg.pinLinesInvalid n)).toNat + linesPassed s n c) := by
  intro t
  have ht : t = _ := settleLines_eq h
  by_cases hc : inState s n = 1 ∧ inRing s n = false
  · rw [if_pos hc] at ht
    rw [ht, linesPassed, if_pos hc]
    refine ⟨(judged_putIn ..).trans (judged_bump ..), ?_, count32_of_rd rfl⟩
    rw [inTrack_congr (bump_port ..), inTrack_putIn_same]
  · rw [if_neg hc] at ht
    rw [ht, linesPassed, if_neg hc]
    exact ⟨.refl .., rfl, count32_zero rfl⟩

/-- Before its sequence is looked at, a line ends NO_SIGNAL. -/
def inFound (n : Nat) (s : State) : State := if inState (settleLines n s) n = 1 then setInState n 2 (settleLines n s) else settleLines n s

/-- The track of an input whose signal has been found. -/
def foundTrack (st : Nat) (q : InTrack) : InTrack :=
  { q with live := decide (st ≠ 1) && q.live, oos := if st = 1 then 0 else q.oos, vpidBad := if st = 1 then 0 else q.vpidBad }

theorem inFound_spec {n : Nat} {c : InCfg} {s : State} (h : inCfg? s n = some c) : let t := inFound n s
    Judged n [Reg.pinStatus n, Reg.pinLinesInvalid n] s t ∧ inState t n = (if inState s n = 1 then 2 else inState s n)
      ∧ (∀ lo m, 3 ≤ lo → getF t (Reg.pinStatus n) lo m = getF s (Reg.pinStatus n) lo m)
      ∧ (rd t (Reg.pinLinesInvalid n)).toNat = min (2 ^ 32 - 1) ((rd s (Reg.pinLinesInvalid n)).toNat + linesPassed s n c)
      ∧ inTrack t n = { foundTrack (inState s n) (inTrack s n) with linesAt := (inTrack t n).linesAt } := by
  intro t
  obtain ⟨hsettled, htrack, hlines⟩ := settleLines_spec h
  obtain ⟨u, hu⟩ : ∃ u, settleLines n s = u := ⟨_, rfl⟩
  have ht : t = if inState u n = 1 then setInState n 2 u else u := by
    rw [← hu]
    rfl
  rw [hu] at hsettled htrack hlines
  have hst : rd u (Reg.pinStatus n) = rd s (Reg.pinStatus n) := hsettled.regs _ (by simpa using pinStatus_ne_lines n)
  have hstate := inState_congr hst
  have hfields : ∀ lo m, getF u (Reg.pinStatus n) lo m = getF s (Reg.pinStatus n) lo m := fun lo m => by rw [getF, hst, ← getF]
  by_cases h1 : inState s n = 1
  · have hset := entered_setInState (n := n) (v := 2) u (by decide)
    rw [if_pos (hstate.trans h1)] at ht
    rw [ht, if_pos h1]
    refine ⟨(hsettled.mono (by simp)).trans (hset.toJudged.mono (by simp)), hset.state, fun lo m hlo => (hset.fields lo m hlo).trans (hfields lo m), ?_, ?_⟩
    · rw [hset.regs _ (by simpa using (pinStatus_ne_lines n).symm), hlines]
    · rw [hset.track, htrack]
      simp [enteredTrack, foundTrack, h1]
  · rw [if_neg (fun he => h1 (hstate.symm.trans he))] at ht
    rw [ht, if_neg h1]
    refine ⟨hsettled.mono (by simp), hstate, fun lo m _ => hfields lo m, hlines, ?_⟩
    rw [htrack]
    simp [foundTrack, h1]

/-! ## The sequence of lines (R818) -/

/-- Lines in a row that do not follow the one before. -/
def lineOos (c : InCfg) (l : LineInfo) (q : InTrack) (now : Nat) : Nat := if lineFollows c.fmt q l.number now then 0 else q.oos + 1

/-- The track of an input at a line, by the state of the input at it. -/
def placedTrack (n : Nat) (c : InCfg) (l : LineInfo) (q : InTrack) (now : Nat) (s : State) : InTrack :=
  { q with miss := 0, oos := lineOos c l q now, live := q.live || (decide (inState s n = 3) && decide (l.number = 1)),
           eavAt := s.now, lastLine := some l.number, frameNo := if l.number = 1 ∧ inRing s n = false then fmtFrameNear c.fmt s.now else q.frameNo }

/-- Lines passed unseen are counted. -/
def gapCounted (n : Nat) (c : InCfg) (s : State) : State := if inRing s n then s else bump (Reg.pinLinesInvalid n) 0 32 (lineGap c.fmt (inTrack s n) s.now) s

/-- A line's place in the sequence is noted, before its consequences. -/
def linePlaced (n : Nat) (c : InCfg) (l : LineInfo) (s : State) : State := putIn n (placedTrack n c l (inTrack s n) s.now (gapCounted n c s)) (gapCounted n c s)

def inPlaced (n : Nat) (c : InCfg) (l : LineInfo) (s : State) : State :=
  if inState (linePlaced n c l s) n = 3 ∧ 2 ≤ lineOos c l (inTrack s n) s.now then setInState n 2 (linePlaced n c l s) else linePlaced n c l s

theorem gapCounted_spec (n : Nat) (c : InCfg) (s : State) : let t := gapCounted n c s
    Judged n [Reg.pinLinesInvalid n] s t ∧ inTrack t n = inTrack s n
      ∧ (rd t (Reg.pinLinesInvalid n)).toNat = min (2 ^ 32 - 1) ((rd s (Reg.pinLinesInvalid n)).toNat + if inRing s n = true then 0 else lineGap c.fmt (inTrack s n) s.now) := by
  intro t
  by_cases hr : inRing s n = true
  · have ht : t = s := if_pos hr
    rw [ht, if_pos hr]
    exact ⟨.refl .., rfl, count32_zero rfl⟩
  · have ht : t = _ := if_neg hr
    rw [ht, if_neg hr]
    exact ⟨judged_bump .., rfl, count32_of_rd rfl⟩

theorem placedTrack_congr {n : Nat} {c : InCfg} {l : LineInfo} {q : InTrack} {now : Nat} {s t : State} (h1 : inState t n = inState s n) (h2 : t.now = s.now) (h3 : t.plan = s.plan) :
    placedTrack n c l q now t = placedTrack n c l q now s := by
  simp only [placedTrack, h1, h2, inRing_congr h3]

theorem inPlaced_spec (n : Nat) (c : InCfg) (l : LineInfo) (s : State) : let t := inPlaced n c l s; let oos := lineOos c l (inTrack s n) s.now
    Judged n [Reg.pinStatus n, Reg.pinLinesInvalid n] s t ∧ inState t n = (if inState s n = 3 ∧ 2 ≤ oos then 2 else inState s n)
      ∧ (∀ lo m, 3 ≤ lo → getF t (Reg.pinStatus n) lo m = getF s (Reg.pinStatus n) lo m)
      ∧ (rd t (Reg.pinLinesInvalid n)).toNat = min (2 ^ 32 - 1) ((rd s (Reg.pinLinesInvalid n)).toNat + if inRing s n = true then 0 else lineGap c.fmt (inTrack s n) s.now)
      ∧ inTrack t n = (if inState s n = 3 ∧ 2 ≤ oos then enteredTrack 2 s.now (placedTrack n c l (inTrack s n) s.now s) else placedTrack n c l (inTrack s n) s.now s) := by
  intro t oos
  obtain ⟨hgap, hgtrack, hglines⟩ := gapCounted_spec n c s
  obtain ⟨b, hb⟩ : ∃ b, gapCounted n c s = b := ⟨_, rfl⟩
  rw [hb] at hgap hgtrack hglines
  have hst : rd b (Reg.pinStatus n) = rd s (Reg.pinStatus n) := hgap.regs _ (by simpa using pinStatus_ne_lines n)
  have hplaced : placedTrack n c l (inTrack s n) s.now b = placedTrack n c l (inTrack s n) s.now s := placedTrack_congr (inState_congr hst) hgap.now hgap.plan
  obtain ⟨p, hp⟩ : ∃ p, linePlaced n c l s = p := ⟨_, rfl⟩
  have hpe : p = putIn n (placedTrack n c l (inTrack s n) s.now s) b := by rw [← hp, linePlaced, hb, hplaced]
  have hpst : rd p (Reg.pinStatus n) = rd s (Reg.pinStatus n) := by
    rw [hpe]
    exact hst
  have hpstate : inState p n = inState s n := inState_congr hpst
  have hptrack : inTrack p n = placedTrack n c l (inTrack s n) s.now s := by rw [hpe, inTrack_putIn_same]
  have hpjudged : Judged n [Reg.pinLinesInvalid n] s p := by
    rw [hpe]
    exact hgap.trans (judged_putIn ..)
  have hplines : rd p (Reg.pinLinesInvalid n) = rd b (Reg.pinLinesInvalid n) := by
    rw [hpe]
    rfl
  have hpfields : ∀ lo m, getF p (Reg.pinStatus n) lo m = getF s (Reg.pinStatus n) lo m := fun lo m => by rw [getF, hpst, ← getF]
  have ht : t = if inState p n = 3 ∧ 2 ≤ oos then setInState n 2 p else p := by
    rw [← hp]
    rfl
  by_cases hout : inState s n = 3 ∧ 2 ≤ oos
  · have hset := entered_setInState (n := n) (v := 2) p (by decide)
    rw [if_pos (by rw [hpstate]; exact hout)] at ht
    rw [ht, if_pos hout, if_pos hout]
    refine ⟨(hpjudged.mono (by simp)).trans (hset.toJudged.mono (by simp)), hset.state, fun lo m hlo => (hset.fields lo m hlo).trans (hpfields lo m), ?_, ?_⟩
    · rw [hset.regs _ (by simpa using (pinStatus_ne_lines n).symm), hplines, hglines]
    · rw [hset.track, hptrack, hpjudged.now]
  · rw [if_neg (by rw [hpstate]; exact hout)] at ht
    rw [ht, if_neg hout, if_neg hout]
    exact ⟨hpjudged.mono (by simp), hpstate, fun lo m _ => hpfields lo m, by rw [hplines, hglines], hptrack⟩

/-! ## CRC and payload ID (R131, R132) -/

theorem inRegs_apart (n : Nat) : Reg.pinCrcErr n ≠ Reg.pinStatus n ∧ Reg.pinVpid n ≠ Reg.pinStatus n ∧ Reg.pinTiming n ≠ Reg.pinStatus n := by
  simp only [Reg.pinCrcErr, Reg.pinVpid, Reg.pinTiming, Reg.pinStatus]
  omega

/-- A CRC failure counts and is seen; the track notes the epoch of the record. -/
theorem inCrc_spec (n : Nat) (s : State) : let t := inCrc n s
    Judged n [Reg.pinStatus n, Reg.pinCrcErr n] s t ∧ FieldsBut (Reg.pinStatus n) 10 s t ∧ getB t (Reg.pinStatus n) 10 = true
      ∧ (rd t (Reg.pinCrcErr n)).toNat = min (2 ^ 32 - 1) ((rd s (Reg.pinCrcErr n)).toNat + 1)
      ∧ inTrack t n = { inTrack s n with crcEpoch := (inTrack t n).crcEpoch } := by
  intro t
  obtain ⟨hcrc, -, -⟩ := inRegs_apart n
  obtain ⟨u, hu⟩ : ∃ u, putB (Reg.pinStatus n) 10 true (count (Reg.pinCrcErr n) s) = u := ⟨_, rfl⟩
  have hjudged : Judged n [Reg.pinStatus n, Reg.pinCrcErr n] s u := by
    rw [← hu]
    exact ((judged_count n (Reg.pinCrcErr n) s).mono (by simp)).trans ((judged_putB ..).mono (by simp))
  have hfields : FieldsBut (Reg.pinStatus n) 10 s u := fun lo m h => by
    rw [← hu, getF_putB_fld _ _ _ (by decide) h, getF, rd_count_ne hcrc.symm, ← getF]
  have hbit : getB u (Reg.pinStatus n) 10 = true := by rw [← hu, getB_putB_same _ _ _ (by decide)]
  have hcount : (rd u (Reg.pinCrcErr n)).toNat = min (2 ^ 32 - 1) ((rd s (Reg.pinCrcErr n)).toNat + 1) := by rw [← hu, rd_putB_ne hcrc, rd_count_same]
  have htrack : inTrack u n = inTrack s n := by
    rw [← hu]
    exact inTrack_congr ((putB_port ..).trans (count_port ..)) n
  have ht : t = if (inTrack u n).crcEpoch = epochNow u + 1 then u
      else raiseFlag (Src.input n) noInst (Reg.pinStatus n) 10 (putIn n { inTrack u n with crcEpoch := epochNow u + 1 } u) := by
    rw [← hu]
    rfl
  split at ht
  · rw [ht]
    exact ⟨hjudged, hfields, hbit, hcount, by rw [htrack]⟩
  · obtain ⟨w, hw⟩ : ∃ w, putIn n { inTrack u n with crcEpoch := epochNow u + 1 } u = w := ⟨_, rfl⟩
    rw [hw] at ht
    have hput : Judged n [Reg.pinStatus n, Reg.pinCrcErr n] u w := by
      rw [← hw]
      exact judged_putIn ..
    have hframe := raise_frame (show t = raise _ _ _ _ _ _ _ from ht)
    have hrd : ∀ a, rd t a = rd u a := fun a => by
      rw [ht, raiseFlag, rd_raise, ← hw]
      rfl
    have hraised : Judged n [Reg.pinStatus n, Reg.pinCrcErr n] w t := by
      rw [ht]
      exact ⟨inMoves_raiseFlag .., by rw [← ht, hframe]⟩
    refine ⟨hjudged.trans (hput.trans hraised), hfields.trans (.of_rd (hrd _)), by rw [getB, hrd, ← getB, hbit], by rw [hrd, hcount], ?_⟩
    rw [inTrack_congr (show t.port = w.port by rw [hframe]), ← hw, inTrack_putIn_same, htrack]

/-- The payload ID that a line brings is that of the expected format. -/
def vpidOk (c : InCfg) (v : Nat) : Bool := decide (v % 65536 = c.fmt.vpid % 65536)

/-- Frames in a row whose payload ID mismatches, after one has been read. -/
def vpidRun (c : InCfg) (v : Nat) (q : InTrack) : Nat := if vpidOk c v then 0 else if q.vpidNow then q.vpidBad else q.vpidBad + 1

/-- A payload ID is held with its match, before its consequences. -/
def vpidHeld (n : Nat) (c : InCfg) (v : Nat) (s : State) : State :=
  let u := putB (Reg.pinStatus n) 9 (vpidOk c v) (wr (Reg.pinVpid n) (BitVec.ofNat 32 v) s)
  putIn n { inTrack u n with vpidNow := true, vpidBad := vpidRun c v (inTrack u n) } u

theorem inVpid_eq (n : Nat) (c : InCfg) (v : Nat) (s : State) : inVpid n c v s =
    if inState (vpidHeld n c v s) n = 3 ∧ 2 ≤ vpidRun c v (inTrack s n) then setInState n 4 (vpidHeld n c v s) else vpidHeld n c v s := rfl

theorem inVpid_spec (n : Nat) (c : InCfg) (v : Nat) (s : State) : let t := inVpid n c v s
    Judged n [Reg.pinStatus n, Reg.pinVpid n] s t ∧ inState t n = (if inState s n = 3 ∧ 2 ≤ vpidRun c v (inTrack s n) then 4 else inState s n)
      ∧ (∀ lo m, 3 ≤ lo → lo + m ≤ 9 ∨ 10 ≤ lo → getF t (Reg.pinStatus n) lo m = getF s (Reg.pinStatus n) lo m)
      ∧ getB t (Reg.pinStatus n) 9 = vpidOk c v ∧ rd t (Reg.pinVpid n) = BitVec.ofNat 32 v
      ∧ inTrack t n = { inTrack s n with vpidNow := (inTrack t n).vpidNow, vpidBad := (inTrack t n).vpidBad, live := (inTrack t n).live, oos := (inTrack t n).oos, linesAt := (inTrack t n).linesAt } := by
  intro t
  obtain ⟨-, hvpid, -⟩ := inRegs_apart n
  obtain ⟨w, hw⟩ : ∃ w, vpidHeld n c v s = w := ⟨_, rfl⟩
  have hwrd : ∀ a, rd w a = rd (putB (Reg.pinStatus n) 9 (vpidOk c v) (wr (Reg.pinVpid n) (BitVec.ofNat 32 v) s)) a := fun a => by
    rw [← hw]
    rfl
  have hjudged : Judged n [Reg.pinStatus n, Reg.pinVpid n] s w := by
    rw [← hw]
    exact (((judged_wr n (Reg.pinVpid n) _ s).mono (by simp)).trans ((judged_putB ..).mono (by simp))).trans (judged_putIn ..)
  have hfields : ∀ lo m, lo + m ≤ 9 ∨ 10 ≤ lo → getF w (Reg.pinStatus n) lo m = getF s (Reg.pinStatus n) lo m := fun lo m h => by
    rw [getF, hwrd, ← getF, getF_putB_fld _ _ _ (by decide) h, getF, rd_wr_ne hvpid.symm, ← getF]
  have hstate : inState w n = inState s n := hfields 0 3 (.inl (by decide))
  have hbit : getB w (Reg.pinStatus n) 9 = vpidOk c v := by rw [getB, hwrd, ← getB, getB_putB_same _ _ _ (by decide)]
  have hheld : rd w (Reg.pinVpid n) = BitVec.ofNat 32 v := by rw [hwrd, rd_putB_ne hvpid, rd_wr_same]
  have htrack : inTrack w n = { inTrack s n with vpidNow := true, vpidBad := vpidRun c v (inTrack s n) } := by
    rw [← hw]
    exact inTrack_putIn_same ..
  have ht : t = _ := inVpid_eq n c v s
  rw [hw] at ht
  by_cases hbad : inState s n = 3 ∧ 2 ≤ vpidRun c v (inTrack s n)
  · have hset := entered_setInState (n := n) (v := 4) w (by decide)
    rw [if_pos (by rw [hstate]; exact hbad)] at ht
    rw [ht, if_pos hbad]
    refine ⟨hjudged.trans (hset.toJudged.mono (by simp)), hset.state, fun lo m h3 h => (hset.fields lo m h3).trans (hfields lo m h), ?_, ?_, ?_⟩
    · rw [getB_eq_getF, hset.fields _ _ (by decide), ← getB_eq_getF, hbit]
    · rw [hset.regs _ (by simpa using hvpid), hheld]
    · rw [hset.track, htrack]
      rfl
  · rw [if_neg (by rw [hstate]; exact hbad)] at ht
    rw [ht, if_neg hbad]
    exact ⟨hjudged, hstate, fun lo m _ h => hfields lo m h, hbit, hheld, by rw [htrack]⟩

/-! ## What a line leads to (R129 to R132, R818) -/

/-- STATE once a line has ended NO_SIGNAL. -/
def foundState (st : Nat) : Nat := if st = 1 then 2 else st

/-- STATE once a line's place in the sequence has been judged: the second line in a row that does not follow ends LOCKED. -/
def orderState (st : Nat) (follows : Bool) (oos : Nat) : Nat := if foundState st = 3 ∧ follows = false ∧ 1 ≤ oos then 2 else foundState st

/-- The words of a line may be presented valid: LOCKED, from line 1 of a frame on. -/
def lineLive (st number oos : Nat) (follows live : Bool) : Bool :=
  (decide (st ≠ 1) && live || (decide (foundState st = 3) && decide (number = 1))) && decide (orderState st follows oos = foundState st)

/-- What judging a line leaves of a track: all but the runs of faults, the words' validity and what is noted of the line. -/
structure LineNoted (a b : InTrack) : Prop where
  ancNow : b.ancNow = a.ancNow
  ctlNow : b.ctlNow = a.ctlNow
  ctlLast : b.ctlLast = a.ctlLast
  audCount : b.audCount = a.audCount
  shown : b.shown = a.shown

/-- A line of input `n` has been found and placed in the sequence. -/
structure LineOrdered (n : Nat) (c : InCfg) (l : LineInfo) (s t : State) : Prop extends Judged n [Reg.pinStatus n, Reg.pinLinesInvalid n] s t where
  state : inState t n = orderState (inState s n) (lineFollows c.fmt (inTrack s n) l.number s.now) (inTrack s n).oos
  fields : ∀ lo m, 3 ≤ lo → getF t (Reg.pinStatus n) lo m = getF s (Reg.pinStatus n) lo m
  lines : (rd t (Reg.pinLinesInvalid n)).toNat
    = min (2 ^ 32 - 1) ((rd s (Reg.pinLinesInvalid n)).toNat + (linesPassed s n c + if inRing s n = true then 0 else lineGap c.fmt (inTrack s n) s.now))
  live : (inTrack t n).live = lineLive (inState s n) l.number (inTrack s n).oos (lineFollows c.fmt (inTrack s n) l.number s.now) (inTrack s n).live
  vpidBad : inState t n = 3 → (inTrack t n).vpidBad = (inTrack s n).vpidBad
  vpidNow : (inTrack t n).vpidNow = (inTrack s n).vpidNow
  eavAt : (inTrack t n).eavAt = s.now
  lastLine : (inTrack t n).lastLine = some l.number
  frameNo : (inTrack t n).frameNo = if l.number = 1 ∧ inRing s n = false then fmtFrameNear c.fmt s.now else (inTrack s n).frameNo
  noted : LineNoted (inTrack s n) (inTrack t n)

theorem lineFollows_congr {f : PortFmt} {a b : InTrack} (number now : Nat) (h1 : b.lastLine = a.lastLine) (h2 : b.eavAt = a.eavAt) :
    lineFollows f b number now = lineFollows f a number now := by
  unfold lineFollows
  rw [h1, h2]

theorem lineGap_congr {f : PortFmt} {a b : InTrack} (now : Nat) (h1 : b.lastLine = a.lastLine) (h2 : b.eavAt = a.eavAt) : lineGap f b now = lineGap f a now := by
  unfold lineGap
  rw [h1, h2]

theorem lineOrdered {n : Nat} {c : InCfg} {s : State} (l : LineInfo) (h : inCfg? s n = some c) : LineOrdered n c l s (inPlaced n c l (inFound n s)) := by
  obtain ⟨hfj, hfstate, hffields, hflines, hftrack⟩ := inFound_spec h
  obtain ⟨f, hf⟩ : ∃ f, inFound n s = f := ⟨_, rfl⟩
  rw [hf] at hfj hfstate hffields hflines hftrack ⊢
  obtain ⟨q, hq⟩ : ∃ q, inTrack s n = q := ⟨_, rfl⟩
  obtain ⟨p, hp⟩ : ∃ p, inTrack f n = p := ⟨_, rfl⟩
  obtain ⟨hpj, hpstate, hpfields, hplines, hptrack⟩ := inPlaced_spec n c l f
  obtain ⟨t, ht⟩ : ∃ t, inPlaced n c l f = t := ⟨_, rfl⟩
  have hring := inRing_congr hfj.plan n
  have hnow := hfj.now
  rw [hp, hnow] at hptrack hpstate hplines
  rw [hp, hq] at hftrack
  rw [ht] at hpj hpstate hpfields hplines hptrack ⊢
  have hlast : p.lastLine = q.lastLine := by rw [hftrack]; rfl
  have heav : p.eavAt = q.eavAt := by rw [hftrack]; rfl
  have hfollows := lineFollows_congr (f := c.fmt) l.number s.now hlast heav
  have hout : inState f n = 3 ∧ 2 ≤ lineOos c l p s.now ↔ foundState (inState s n) = 3 ∧ lineFollows c.fmt q l.number s.now = false ∧ 1 ≤ q.oos := by
    rw [hfstate, lineOos, hfollows, hftrack, foundTrack, foundState]
    by_cases h1 : inState s n = 1
    · simp [h1]
    · simp only [if_neg h1]
      cases lineFollows c.fmt q l.number s.now
      · simp
      · simp
  have hgap := lineGap_congr (f := c.fmt) s.now hlast heav
  have hlive : p.live = (decide (inState s n ≠ 1) && q.live) := by rw [hftrack]; rfl
  have hst1 : inState f n = foundState (inState s n) := hfstate
  have hjudged : Judged n [Reg.pinStatus n, Reg.pinLinesInvalid n] s t := hfj.trans hpj
  have hfields : ∀ lo m, 3 ≤ lo → getF t (Reg.pinStatus n) lo m = getF s (Reg.pinStatus n) lo m := fun lo m hlo => (hpfields lo m hlo).trans (hffields lo m hlo)
  have hlines := count32_add hflines hplines
  rw [hgap, hring] at hlines
  have hframe : (placedTrack n c l p s.now f).frameNo = if l.number = 1 ∧ inRing s n = false then fmtFrameNear c.fmt s.now else q.frameNo := by
    rw [placedTrack, hring, hnow, hftrack]
    rfl
  have hnoted : LineNoted q (placedTrack n c l p s.now f) := by
    rw [placedTrack, hftrack]
    exact ⟨rfl, rfl, rfl, rfl, rfl⟩
  have hpnow : (placedTrack n c l p s.now f).eavAt = s.now := hnow
  have hvnow : (placedTrack n c l p s.now f).vpidNow = q.vpidNow := by
    rw [placedTrack, hftrack]
    rfl
  by_cases ho : foundState (inState s n) = 3 ∧ lineFollows c.fmt q l.number s.now = false ∧ 1 ≤ q.oos
  · have hor : orderState (inState s n) (lineFollows c.fmt q l.number s.now) q.oos = 2 := if_pos ho
    rw [if_pos (hout.2 ho)] at hpstate hptrack
    subst hq
    refine ⟨hjudged, hpstate.trans hor.symm, hfields, hlines, ?_, fun h3 => ?_, ?_, ?_, ?_, ?_, ?_⟩
    · rw [hptrack, lineLive, hor, ho.1]
      simp [enteredTrack]
    · rw [hpstate] at h3
      cases h3
    · rw [hptrack]
      exact hvnow
    · rw [hptrack]
      exact hpnow
    · rw [hptrack]
      rfl
    · rw [hptrack]
      exact hframe
    · rw [hptrack]
      exact ⟨hnoted.ancNow, hnoted.ctlNow, hnoted.ctlLast, hnoted.audCount, hnoted.shown⟩
  · have hor : orderState (inState s n) (lineFollows c.fmt q l.number s.now) q.oos = foundState (inState s n) := if_neg ho
    rw [if_neg fun h => ho (hout.1 h)] at hpstate hptrack
    subst hq
    refine ⟨hjudged, (hpstate.trans hst1).trans hor.symm, hfields, hlines, ?_, fun h3 => ?_, ?_, ?_, ?_, ?_, ?_⟩
    · rw [hptrack, lineLive, hor, placedTrack, hst1]
      simp [hlive]
    · have h1 : inState s n ≠ 1 := fun h1 => by
        rw [hpstate, hst1, foundState, if_pos h1] at h3
        cases h3
      rw [hptrack, placedTrack, hftrack]
      simp [foundTrack, h1]
    · rw [hptrack]
      exact hvnow
    · rw [hptrack]
      exact hpnow
    · rw [hptrack]
      rfl
    · rw [hptrack]
      exact hframe
    · rw [hptrack]
      exact hnoted

/-- The CRC of a line is looked at. -/
def lineCrc (n : Nat) (l : LineInfo) (s : State) : State := if l.crcFail then inCrc n s else s

/-- The payload ID of a line is read, on the lines that ST 352 assigns to it. -/
def lineVpid (n : Nat) (c : InCfg) (l : LineInfo) (s : State) : State :=
  match l.vpid with
  | some v => if vpidLine c.fmt l.number then inVpid n c v s else s
  | none => s

/-- A line is presented valid that follows in a frame whose words are valid, with no invalid word of its own. -/
def lineValid (n : Nat) (c : InCfg) (l : LineInfo) (s : State) : Bool :=
  (inTrack (lineCrc n l (inPlaced n c l (inFound n s))) n).live && lineFollows c.fmt (inTrack (inFound n s) n) l.number (inFound n s).now && !l.invalid

/-- Input `n` with a line judged by stages 1 to 4. -/
def inJudged (n : Nat) (c : InCfg) (l : LineInfo) (s : State) : State := lineVpid n c l (lineCrc n l (inPlaced n c l (inFound n s)))

theorem inTaken_eq (n : Nat) (c : InCfg) (l : LineInfo) (s : State) : inTaken n c l s =
    if inRing (inJudged n c l s) n then
      fsWrite n { l with invalid := !(lineFollows c.fmt (inTrack (inFound n s) n) l.number (inFound n s).now && !l.invalid) } (inJudged n c l s)
    else inPresent n c l (lineValid n c l s) (inJudged n c l s) := by
  unfold inTaken inJudged lineVpid
  cases l.vpid <;> rfl

/-- STATE once the payload ID of a line has been read: the second frame in a row with a mismatch ends LOCKED. -/
def identState (st : Nat) (wrong : Bool) (q : InTrack) : Nat := if st = 3 ∧ wrong = true ∧ (if q.vpidNow = true then 2 else 1) ≤ q.vpidBad then 4 else st

/-- A line brings a payload ID, on a line that carries it, which is not that of the expected format. -/
def vpidWrong (c : InCfg) (l : LineInfo) : Bool := l.vpid.any fun v => vpidLine c.fmt l.number && decide (v % 65536 ≠ c.fmt.vpid % 65536)

theorem LineNoted.trans {a b d : InTrack} (h1 : LineNoted a b) (h2 : LineNoted b d) : LineNoted a d :=
  ⟨h2.ancNow.trans h1.ancNow, h2.ctlNow.trans h1.ctlNow, h2.ctlLast.trans h1.ctlLast, h2.audCount.trans h1.audCount, h2.shown.trans h1.shown⟩

/-- The CRC of a line has been looked at. -/
structure CrcJudged (n : Nat) (l : LineInfo) (s t : State) : Prop extends Judged n [Reg.pinStatus n, Reg.pinCrcErr n] s t where
  fields : FieldsBut (Reg.pinStatus n) 10 s t
  seen : getB t (Reg.pinStatus n) 10 = (getB s (Reg.pinStatus n) 10 || l.crcFail)
  failures : (rd t (Reg.pinCrcErr n)).toNat = min (2 ^ 32 - 1) ((rd s (Reg.pinCrcErr n)).toNat + if l.crcFail = true then 1 else 0)
  track : inTrack t n = { inTrack s n with crcEpoch := (inTrack t n).crcEpoch }

theorem crcJudged_lineCrc (n : Nat) (l : LineInfo) (s : State) : CrcJudged n l s (lineCrc n l s) := by
  cases hc : l.crcFail with
  | false =>
    have h : lineCrc n l s = s := if_neg (by simp [hc])
    rw [h]
    exact ⟨.refl .., .refl _ _ _, by rw [hc, Bool.or_false], by rw [hc]; exact count32_zero rfl, rfl⟩
  | true =>
    have h : lineCrc n l s = inCrc n s := if_pos hc
    obtain ⟨hj, hfields, hseen, hcount, htrack⟩ := inCrc_spec n s
    rw [h]
    exact ⟨hj, hfields, by rw [hseen, hc, Bool.or_true], by rw [hcount, hc, if_pos rfl], htrack⟩

/-- The payload ID of a line has been read. -/
structure VpidJudged (n : Nat) (c : InCfg) (l : LineInfo) (s t : State) : Prop extends Judged n [Reg.pinStatus n, Reg.pinVpid n] s t where
  state : inState t n = identState (inState s n) (vpidWrong c l) (inTrack s n)
  fields : ∀ lo m, 3 ≤ lo → lo + m ≤ 9 ∨ 10 ≤ lo → getF t (Reg.pinStatus n) lo m = getF s (Reg.pinStatus n) lo m
  noId : l.vpid.filter (fun _ => vpidLine c.fmt l.number) = none → rd t (Reg.pinVpid n) = rd s (Reg.pinVpid n) ∧ getB t (Reg.pinStatus n) 9 = getB s (Reg.pinStatus n) 9
  anId : ∀ v, l.vpid = some v → vpidLine c.fmt l.number = true →
    rd t (Reg.pinVpid n) = BitVec.ofNat 32 v ∧ getB t (Reg.pinStatus n) 9 = !(vpidLine c.fmt l.number && decide (v % 65536 ≠ c.fmt.vpid % 65536))
  eavAt : (inTrack t n).eavAt = (inTrack s n).eavAt
  lastLine : (inTrack t n).lastLine = (inTrack s n).lastLine
  frameNo : (inTrack t n).frameNo = (inTrack s n).frameNo
  noted : LineNoted (inTrack s n) (inTrack t n)

/-- A line without a payload ID to read moves nothing here. -/
theorem vpidJudged_none {n : Nat} {c : InCfg} {l : LineInfo} {s : State} (h : l.vpid.filter (fun _ => vpidLine c.fmt l.number) = none) : VpidJudged n c l s (lineVpid n c l s) := by
  have hsame : lineVpid n c l s = s := by
    unfold lineVpid
    cases hv : l.vpid with
    | none => rfl
    | some v =>
      rw [hv] at h
      exact if_neg (by simpa [Option.filter] using h)
  have hwrong : vpidWrong c l = false := by
    unfold vpidWrong
    cases hv : l.vpid with
    | none => rfl
    | some v =>
      rw [hv] at h
      have hline : vpidLine c.fmt l.number = false := by simpa [Option.filter] using h
      simp [hline]
  rw [hsame]
  refine ⟨.refl .., ?_, fun _ _ _ _ => rfl, fun _ => ⟨rfl, rfl⟩, fun v hv hline => ?_, rfl, rfl, rfl, ⟨rfl, rfl, rfl, rfl, rfl⟩⟩
  · rw [hwrong, identState, if_neg (by simp)]
  · rw [hv] at h
    simp [Option.filter, hline] at h

theorem vpidRun_iff {c : InCfg} {l : LineInfo} {v : Nat} {q : InTrack} (hv : l.vpid = some v) (hline : vpidLine c.fmt l.number = true) :
    2 ≤ vpidRun c v q ↔ vpidWrong c l = true ∧ (if q.vpidNow = true then 2 else 1) ≤ q.vpidBad := by
  rw [vpidRun, vpidOk, vpidWrong, hv]
  by_cases hok : v % 65536 = c.fmt.vpid % 65536
  · simp [hok]
  · cases q.vpidNow <;> simp [hok, hline]

theorem vpidJudged_lineVpid (n : Nat) (c : InCfg) (l : LineInfo) (s : State) : VpidJudged n c l s (lineVpid n c l s) := by
  cases hv : l.vpid.filter (fun _ => vpidLine c.fmt l.number) with
  | none => exact vpidJudged_none hv
  | some v =>
    obtain ⟨hid, hline⟩ : l.vpid = some v ∧ vpidLine c.fmt l.number = true := by
      rw [Option.filter_eq_some_iff] at hv
      exact ⟨hv.1, hv.2⟩
    have h : lineVpid n c l s = inVpid n c v s := by
      unfold lineVpid
      rw [hid]
      exact if_pos hline
    obtain ⟨hj, hstate, hfields, hbit, hheld, htrack⟩ := inVpid_spec n c v s
    rw [h]
    refine ⟨hj, ?_, hfields, fun hnone => ?_, fun w hw _ => ?_, ?_, ?_, ?_, ?_⟩
    · simp only [hstate, identState, vpidRun_iff hid hline]
    · rw [hv] at hnone
      cases hnone
    · rw [hid] at hw
      cases hw
      refine ⟨hheld, ?_⟩
      rw [hbit, vpidOk, hline]
      simp
    all_goals rw [htrack]
    exact ⟨rfl, rfl, rfl, rfl, rfl⟩

/-- A line of input `n` has been judged by stages 1 to 4. -/
structure LineJudged (n : Nat) (c : InCfg) (l : LineInfo) (s t : State) : Prop
    extends Judged n [Reg.pinStatus n, Reg.pinVpid n, Reg.pinCrcErr n, Reg.pinLinesInvalid n] s t where
  state : inState t n = identState (orderState (inState s n) (lineFollows c.fmt (inTrack s n) l.number s.now) (inTrack s n).oos) (vpidWrong c l) (inTrack s n)
  crcSeen : getB t (Reg.pinStatus n) 10 = (getB s (Reg.pinStatus n) 10 || l.crcFail)
  ancDrop : getB t (Reg.pinStatus n) 11 = getB s (Reg.pinStatus n) 11
  crcErr : (rd t (Reg.pinCrcErr n)).toNat = min (2 ^ 32 - 1) ((rd s (Reg.pinCrcErr n)).toNat + if l.crcFail = true then 1 else 0)
  lines : (rd t (Reg.pinLinesInvalid n)).toNat
    = min (2 ^ 32 - 1) ((rd s (Reg.pinLinesInvalid n)).toNat + (linesPassed s n c + if inRing s n = true then 0 else lineGap c.fmt (inTrack s n) s.now))
  noId : l.vpid.filter (fun _ => vpidLine c.fmt l.number) = none → rd t (Reg.pinVpid n) = rd s (Reg.pinVpid n) ∧ getB t (Reg.pinStatus n) 9 = getB s (Reg.pinStatus n) 9
  anId : ∀ v, l.vpid = some v → vpidLine c.fmt l.number = true →
    rd t (Reg.pinVpid n) = BitVec.ofNat 32 v ∧ getB t (Reg.pinStatus n) 9 = !(vpidLine c.fmt l.number && decide (v % 65536 ≠ c.fmt.vpid % 65536))
  eavAt : (inTrack t n).eavAt = s.now
  lastLine : (inTrack t n).lastLine = some l.number
  frameNo : (inTrack t n).frameNo = if l.number = 1 ∧ inRing s n = false then fmtFrameNear c.fmt s.now else (inTrack s n).frameNo
  noted : LineNoted (inTrack s n) (inTrack t n)

/-- The registers of stages 1 to 4 are different registers. -/
theorem judgedRegs_apart (n : Nat) : Reg.pinCrcErr n ∉ [Reg.pinStatus n, Reg.pinLinesInvalid n] ∧ Reg.pinVpid n ∉ [Reg.pinStatus n, Reg.pinLinesInvalid n]
    ∧ Reg.pinVpid n ∉ [Reg.pinStatus n, Reg.pinCrcErr n] ∧ Reg.pinCrcErr n ∉ [Reg.pinStatus n, Reg.pinVpid n]
    ∧ Reg.pinLinesInvalid n ∉ [Reg.pinStatus n, Reg.pinCrcErr n] ∧ Reg.pinLinesInvalid n ∉ [Reg.pinStatus n, Reg.pinVpid n] := by
  simp only [Reg.pinStatus, Reg.pinCrcErr, Reg.pinVpid, Reg.pinLinesInvalid, List.mem_cons, List.not_mem_nil, or_false]
  omega

theorem lineJudged {n : Nat} {c : InCfg} {s : State} (l : LineInfo) (h : inCfg? s n = some c) : LineJudged n c l s (inJudged n c l s) := by
  have hord := lineOrdered l h
  obtain ⟨u, hu⟩ : ∃ u, inPlaced n c l (inFound n s) = u := ⟨_, rfl⟩
  have hcrc := crcJudged_lineCrc n l u
  obtain ⟨v, hv⟩ : ∃ v, lineCrc n l u = v := ⟨_, rfl⟩
  have hvpid := vpidJudged_lineVpid n c l v
  obtain ⟨t, ht⟩ : ∃ t, lineVpid n c l v = t := ⟨_, rfl⟩
  rw [hu] at hord
  rw [hv] at hcrc
  rw [ht] at hvpid
  rw [inJudged, hu, hv, ht]
  obtain ⟨hcl, hvl, hvc, hcv, hlc, hlv⟩ := judgedRegs_apart n
  have hcrctrack := hcrc.track
  have hstate : inState v n = inState u n := hcrc.fields 0 3 (.inl (by decide))
  have hseen : ∀ b, 3 ≤ b → b ≠ 9 → getB t (Reg.pinStatus n) b = getB v (Reg.pinStatus n) b := fun b h3 h9 => by
    rw [getB_eq_getF, hvpid.fields b 1 h3 (by omega), ← getB_eq_getF]
  have hordered : ∀ b, 3 ≤ b → getB u (Reg.pinStatus n) b = getB s (Reg.pinStatus n) b := fun b h3 => by rw [getB_eq_getF, hord.fields b 1 h3, ← getB_eq_getF]
  have hcrced : ∀ b, b ≠ 10 → getB v (Reg.pinStatus n) b = getB u (Reg.pinStatus n) b := fun b h10 => by
    rw [getB_eq_getF, hcrc.fields b 1 (by omega), ← getB_eq_getF]
  have hcrcnoted : LineNoted (inTrack u n) (inTrack v n) := by
    rw [hcrctrack]
    exact ⟨rfl, rfl, rfl, rfl, rfl⟩
  refine ⟨((hord.toJudged.mono (by simp)).trans (hcrc.toJudged.mono (by simp))).trans (hvpid.toJudged.mono (by simp)), ?_, ?_, ?_, ?_, ?_, fun hnone => ?_, hvpid.anId, ?_, ?_, ?_,
    (hord.noted.trans hcrcnoted).trans hvpid.noted⟩
  · rw [hvpid.state, hstate, hcrctrack, hord.state]
    unfold identState
    by_cases h3 : orderState (inState s n) (lineFollows c.fmt (inTrack s n) l.number s.now) (inTrack s n).oos = 3
    · simp only [hord.vpidBad (hord.state.trans h3), hord.vpidNow]
    · rw [if_neg fun hh => h3 hh.1, if_neg fun hh => h3 hh.1]
  · rw [hseen 10 (by decide) (by decide), hcrc.seen, hordered 10 (by decide)]
  · rw [hseen 11 (by decide) (by decide), hcrced 11 (by decide), hordered 11 (by decide)]
  · rw [hvpid.regs _ hcv, hcrc.failures, hord.regs _ hcl]
  · rw [hvpid.regs _ hlv, hcrc.regs _ hlc, hord.lines]
  · obtain ⟨hreg, hbit⟩ := hvpid.noId hnone
    exact ⟨hreg.trans ((hcrc.regs _ hvc).trans (hord.regs _ hvl)), hbit.trans ((hcrced 9 (by decide)).trans (hordered 9 (by decide)))⟩
  · rw [hvpid.eavAt, hcrctrack, ← hord.eavAt]
  · rw [hvpid.lastLine, hcrctrack, ← hord.lastLine]
  · rw [hvpid.frameNo, hcrctrack, ← hord.frameNo]

/-- Whether the words of a line are presented valid. -/
theorem lineValid_eq {n : Nat} {c : InCfg} {s : State} (l : LineInfo) (h : inCfg? s n = some c) : lineValid n c l s =
    let follows := lineFollows c.fmt (inTrack s n) l.number s.now
    lineLive (inState s n) l.number (inTrack s n).oos follows (inTrack s n).live && follows && !l.invalid := by
  obtain ⟨hfj, -, -, -, hftrack⟩ := inFound_spec h
  have hcrc := (crcJudged_lineCrc n l (inPlaced n c l (inFound n s))).track
  have hlive : (inTrack (lineCrc n l (inPlaced n c l (inFound n s))) n).live = (inTrack (inPlaced n c l (inFound n s)) n).live := by rw [hcrc]
  have hfollows : lineFollows c.fmt (inTrack (inFound n s) n) l.number s.now = lineFollows c.fmt (inTrack s n) l.number s.now :=
    lineFollows_congr _ _ (by rw [hftrack]; rfl) (by rw [hftrack]; rfl)
  rw [lineValid, hlive, (lineOrdered l h).live, hfj.now, hfollows]

end Sys2Proof.Machine
end

section
/-! Input lines, frames and missing EAVs (03_port_pipelines.md R129 to R139, R161): what a command leaves of an input, and the statement on inputs. -/

namespace Sys2Proof.Machine

/-! ## A line is presented, or goes into the ring -/

/-- The registers that a command may move at input `n`. -/
def inputRegs (n : Nat) : List Nat :=
  [Reg.pinStatus n, Reg.pinVpid n, Reg.pinTiming n, Reg.pinAudStatus n, Reg.pinCrcErr n, Reg.pinAncCnt n, Reg.pinLinesInvalid n, Reg.pgrpInStatus (n / 4)]

theorem stageRegs_subset (n : Nat) : stageRegs n ⊆ inputRegs n := by simp [stageRegs, inputRegs]

theorem idRegs_notMem (n : Nat) : Reg.pinVpid n ∉ stageRegs n ∧ Reg.pinCrcErr n ∉ stageRegs n ∧ Reg.pinTiming n ∉ stageRegs n := by
  have hquad : n / 4 / 72 = n / 288 := Nat.div_div_eq_div_mul n 4 72
  simp only [stageRegs, Reg.pinVpid, Reg.pinCrcErr, Reg.pinTiming, Reg.pinStatus, Reg.pinAudStatus, Reg.pinAncCnt, Reg.pinLinesInvalid, Reg.pgrpInStatus, hquad,
    List.mem_cons, List.not_mem_nil, or_false]
  omega

theorem tellsStores_fsWrite (n : Nat) (l : LineInfo) (s : State) : TellsStores s (fsWrite n l s) := by
  unfold TellsStores fsWrite
  cases tabFind n s.mem.fs with
  | none => rfl
  | some x =>
    dsimp only
    split <;> rfl

/-- A line has passed an input: how it has been judged and counted, and where it has gone. -/
structure LineTaken (n : Nat) (c : InCfg) (l : LineInfo) (s t : State) : Prop extends InMoves n (inputRegs n) s t where
  state : inState t n = identState (orderState (inState s n) (lineFollows c.fmt (inTrack s n) l.number s.now) (inTrack s n).oos) (vpidWrong c l) (inTrack s n)
  crcErr : (rd t (Reg.pinCrcErr n)).toNat = min (2 ^ 32 - 1) ((rd s (Reg.pinCrcErr n)).toNat + if l.crcFail = true then 1 else 0)
  crcSeen : getB t (Reg.pinStatus n) 10 = (getB s (Reg.pinStatus n) 10 || l.crcFail)
  lines : (rd t (Reg.pinLinesInvalid n)).toNat = min (2 ^ 32 - 1) ((rd s (Reg.pinLinesInvalid n)).toNat
    + if inRing s n = true then 0 else linesPassed s n c + lineGap c.fmt (inTrack s n) s.now + if lineValid n c l s = true then 0 else 1)
  lastLine : (inTrack t n).lastLine = some l.number
  eavAt : (inTrack t n).eavAt = s.now
  alone : inRing s n = false → groupOf s.plan.cfg.groups true n = none →
    (inTrack t n).shown = some { number := l.number, valid := lineValid n c l s, subst := false, pic := l.pic }
  ring : inRing s n = true → (inTrack t n).shown = (inTrack s n).shown ∧ t.aud = s.aud ∧ (inTrack t n).ancNow = (inTrack s n).ancNow
  noId : l.vpid.filter (fun _ => vpidLine c.fmt l.number) = none → rd t (Reg.pinVpid n) = rd s (Reg.pinVpid n) ∧ getB t (Reg.pinStatus n) 9 = getB s (Reg.pinStatus n) 9
  anId : ∀ v, l.vpid = some v → vpidLine c.fmt l.number = true →
    rd t (Reg.pinVpid n) = BitVec.ofNat 32 v ∧ getB t (Reg.pinStatus n) 9 = !(vpidLine c.fmt l.number && decide (v % 65536 ≠ c.fmt.vpid % 65536))

/-- What an input outside a group shows of a line that passes stages 5 to 8. -/
theorem shown_inPresent {n : Nat} {s : State} (c : InCfg) (l : LineInfo) (valid : Bool) (h : groupOf s.plan.cfg.groups true n = none) :
    (inTrack (inPresent n c l valid s) n).shown = some { number := l.number, valid := valid, subst := false, pic := l.pic } := by
  have hplan := (staged_inCarried n c l valid s).plan
  rw [inPresent_eq, inShow_alone _ _ _ (by rw [hplan]; exact h), inTrack_putIn_same]

theorem inTaken_ring {n : Nat} {c : InCfg} {s : State} (l : LineInfo) (h : inCfg? s n = some c) (hr : inRing s n = true) : TellsStores (inJudged n c l s) (inTaken n c l s) := by
  have hring := (inRing_congr (lineJudged l h).plan n).trans hr
  rw [inTaken_eq, if_pos hring]
  exact tellsStores_fsWrite ..

theorem inTaken_presented {n : Nat} {c : InCfg} {s : State} (l : LineInfo) (h : inCfg? s n = some c) (hr : inRing s n = false) :
    inTaken n c l s = inPresent n c l (lineValid n c l s) (inJudged n c l s) := by
  have hring := (inRing_congr (lineJudged l h).plan n).trans hr
  rw [inTaken_eq, if_neg (by simp [hring])]

theorem lineTaken {n : Nat} {c : InCfg} {s : State} (l : LineInfo) (h : inCfg? s n = some c) : LineTaken n c l s (inTaken n c l s) := by
  have hj := lineJudged l h
  obtain ⟨u, hu⟩ : ∃ u, inJudged n c l s = u := ⟨_, rfl⟩
  obtain ⟨t, ht⟩ : ∃ t, inTaken n c l s = t := ⟨_, rfl⟩
  rw [ht]
  have hmoves : InMoves n (inputRegs n) s u := by
    rw [← hu]
    exact hj.toInMoves.mono (by simp [inputRegs])
  cases hr : inRing s n with
  | true =>
    have htells := inTaken_ring l h hr
    rw [ht, hu] at htells
    rw [hu] at hj
    have hregs := htells.regs
    have htrack : inTrack t n = inTrack u n := inTrack_congr htells.port n
    have htj := htells.judged n (inputRegs n)
    have hlines := hj.lines
    rw [linesPassed, if_neg (by simp [hr]), if_pos hr] at hlines
    refine ⟨hmoves.trans htj.toInMoves, ?_, ?_, ?_, ?_, ?_, ?_, fun hf => ?_, fun _ => ⟨?_, htj.aud.trans hj.aud, ?_⟩, fun hn => ?_, fun v hv hline => ?_⟩
    · rw [inState_congr (rd_congr hregs _), hj.state]
    · rw [rd_congr hregs, hj.crcErr]
    · rw [getB_congr hregs, hj.crcSeen]
    · rw [rd_congr hregs, hlines, if_pos hr]
    · rw [htrack, hj.lastLine]
    · rw [htrack, hj.eavAt]
    · rw [hr] at hf
      cases hf
    · rw [htrack, hj.noted.shown]
    · rw [htrack, hj.noted.ancNow]
    · rw [rd_congr hregs, getB_congr hregs]
      exact hj.noId hn
    · rw [rd_congr hregs, getB_congr hregs]
      exact hj.anId v hv hline
  | false =>
    have hpres := inTaken_presented l h hr
    have hstaged := staged_inPresent n c l (lineValid n c l s) u
    rw [ht, hu] at hpres
    rw [← hpres] at hstaged
    rw [hu] at hj
    obtain ⟨hvpid, hcrc, -⟩ := idRegs_notMem n
    have htrack := hstaged.track
    have hbit : ∀ b, b < 11 → getB t (Reg.pinStatus n) b = getB u (Reg.pinStatus n) b := fun b hb => by
      rw [getB_eq_getF, hstaged.status b 1 (.inl (by omega)), ← getB_eq_getF]
    have hlines := count32_add hj.lines hstaged.lines
    rw [if_neg (by simp [hr])] at hlines
    refine ⟨hmoves.trans (hstaged.toInMoves.mono (stageRegs_subset n)), ?_, ?_, ?_, ?_, ?_, ?_, fun _ hg => ?_, fun hf => ?_, fun hn => ?_, fun v hv hline => ?_⟩
    · rw [inState, hstaged.status 0 3 (.inl (by decide)), ← inState, hj.state]
    · rw [hstaged.regs _ hcrc, hj.crcErr]
    · rw [hbit 10 (by decide), hj.crcSeen]
    · rw [hlines, if_neg (show ¬ inRing s n = true by simp [hr])]
    · rw [htrack, ← hj.lastLine]
    · rw [htrack, ← hj.eavAt]
    · rw [hpres]
      exact shown_inPresent c l _ (by rw [hmoves.plan]; exact hg)
    · rw [hr] at hf
      cases hf
    · rw [hstaged.regs _ hvpid, hbit 9 (by decide)]
      exact hj.noId hn
    · rw [hstaged.regs _ hvpid, hbit 9 (by decide)]
      exact hj.anId v hv hline

/-! ## The packets of a line (R134 to R139) -/

theorem ancTaken_congr {s t : State} {n : Nat} (c : InCfg) (p : AncPkt) (h : (inTrack t n).ancNow = (inTrack s n).ancNow) : ancTaken t n c p = ancTaken s n c p := by
  simp only [ancTaken, h]

theorem ancDropped_congr {s t : State} {n : Nat} (c : InCfg) (p : AncPkt) (h : (inTrack t n).ancNow = (inTrack s n).ancNow) : ancDropped t n c p = ancDropped s n c p := by
  simp only [ancDropped, h]

/-- Registers and packets of the ANC stage are as before. -/
theorem AncCounted.congr {n j k : Nat} {s s' t t' : State} (h : AncCounted n j k s t) (hs : rd s (Reg.pinAncCnt n) = rd s' (Reg.pinAncCnt n))
    (ht : rd t' (Reg.pinAncCnt n) = rd t (Reg.pinAncCnt n)) (hs11 : getB s (Reg.pinStatus n) 11 = getB s' (Reg.pinStatus n) 11)
    (ht11 : getB t' (Reg.pinStatus n) 11 = getB t (Reg.pinStatus n) 11) : AncCounted n j k s' t' := by
  obtain ⟨hkept, hlost, hflag⟩ := h
  unfold getF at hkept hlost
  refine ⟨?_, ?_, ht11.trans (hflag.trans (by rw [hs11]))⟩
  · rw [getF, getF, ht, ← hs, hkept]
  · rw [getF, getF, ht, ← hs, hlost]

/-- The one ANC packet of a line, where no video flow feeds the input. -/
theorem inPresent_anc {n : Nat} {c : InCfg} {l : LineInfo} {p : AncPkt} {s : State} (valid : Bool) (hv : videoFed s c = false) (hp : l.anc = [p]) :
    let t := inPresent n c l valid s
    AncCounted n (b2n (ancTaken s n c p)) (b2n (ancDropped s n c p)) s t
      ∧ (inTrack t n).ancNow = (inTrack s n).ancNow ++ if ancTaken s n c p then [(l.number, p)] else [] := by
  intro t
  obtain ⟨silent, hsilent⟩ : ∃ b, (!valid && (groupOf s.plan.cfg.groups true n).isSome) = b := ⟨_, rfl⟩
  have haudio := deEmbedded_audio n c silent l.audio s
  obtain ⟨a, ha⟩ : ∃ a, l.audio.foldl (inAudio n c silent) s = a := ⟨_, rfl⟩
  rw [ha] at haudio
  obtain ⟨-, hcount, hnow⟩ := inAnc_spec n c l.number a p
  obtain ⟨e, he⟩ : ∃ e, inAnc n c l.number a p = e := ⟨_, rfl⟩
  rw [he] at hcount hnow
  have hcarried : inCarried n c l valid s = e := by
    rw [inCarried, if_neg (by simp [hv]), inLinePackets, hp, hsilent, ha, List.foldl_cons, List.foldl_nil, he]
  have hshow := presented_inShow n l.number valid l.pic e
  have ht : t = inShow n l.number valid l.pic e := by rw [← hcarried, ← inPresent_eq]
  rw [← ht] at hshow
  have hanc : (inTrack a n).ancNow = (inTrack s n).ancNow := by rw [haudio.track]
  obtain ⟨hls, -, hla, hsa, haa⟩ := stageRegs_apart n
  obtain ⟨hgs, -, hga, -⟩ := pgrpInStatus_apart n
  rw [ancTaken_congr c p hanc, ancDropped_congr c p hanc] at hcount
  rw [ancTaken_congr c p hanc, hanc] at hnow
  have hstart : ∀ r, r ≠ Reg.pinAudStatus n → rd a r = rd s r := fun r hr => haudio.regs r (by simpa using hr)
  have hend : ∀ r, r ≠ Reg.pinLinesInvalid n → r ≠ Reg.pgrpInStatus (n / 4) → rd t r = rd e r := fun r h1 h2 => hshow.regs r (by simp [h1, h2])
  refine ⟨hcount.congr (hstart _ haa) (hend _ hla.symm hga.symm) ?_ ?_, ?_⟩
  · rw [getB, hstart _ hsa, ← getB]
  · rw [getB, hend _ hls.symm hgs.symm, ← getB]
  · rw [hshow.track]
    exact hnow

/-- The one audio packet of a line of an input outside a group: within the cadence and at the plane's rate its samples enter the plane. -/
theorem inPresent_audio {n g i : Nat} {c : InCfg} {l : LineInfo} {p : AudPkt} {y : AudSample} {s : State} (valid : Bool) (hv : videoFed s c = false) (hp : l.audio = [p])
    (halone : groupOf s.plan.cfg.groups true n = none) (hctl : audCtlGroup p.did = none) (hg : audDataGroup p.did = some g)
    (hrate : audDeclared (inTrack s n) g = planeRate s) (hroom : tabGet 0 g (inTrack s n).audCount < audNeed s c (inTrack s n)) (hi : i < 4)
    (hy : nth? p.samples i = some y) :
    (tabGet audSrc0 (32 * n + 4 * (g - 1) + i) (inPresent n c l valid s).aud.srcs).queue
      = (tabGet audSrc0 (32 * n + 4 * (g - 1) + i) s.aud.srcs).queue ++ [audSlotOf y] := by
  have hcarried : inCarried n c l valid s = l.anc.foldl (inAnc n c l.number) (inAudio n c false s p) := by
    rw [inCarried, if_neg (by simp [hv]), inLinePackets, hp, halone, Option.isSome_none, Bool.and_false, List.foldl_cons, List.foldl_nil]
  rw [inPresent_eq, (presented_inShow ..).aud, hcarried, (extracted_anc ..).aud]
  exact inAudio_queue hctl hg hrate hroom hi hy

/-- The DIDs of R134 for the data packets of a group. -/
theorem audDataGroup_did {g : Nat} (h1 : 1 ≤ g) (h8 : g ≤ 8) :
    audCtlGroup (if g ≤ 4 then 0xE8 - g else 0xAC - g) = none ∧ audDataGroup (if g ≤ 4 then 0xE8 - g else 0xAC - g) = some g := by
  interval_cases g <;> decide

/-! ## A frame is complete (R127, R130, R132, R139) -/

/-- The frame as input `n` hears it: an input whose flow aligns itself has no offset. -/
def frameHeard (s : State) (n : Nat) (c : InCfg) (f : FrameInfo) : FrameInfo := if c.fromFlow && flowLocked s n then { f with offset := 0 } else f

/-- The packets of a complete frame change places, where its lines do not go into a ring. -/
def frameClosed (n : Nat) (c : InCfg) (s : State) : State := if inRing s n then s else inTurn n c s

/-- What input `n` reports of a complete frame: FORMAT_ID, the payload ID, OFFSET and whether it is in time. -/
def frameReported (n : Nat) (f : FrameInfo) (noted inTime : Bool) (s : State) : State :=
  putB (Reg.pinTiming n) 16 inTime (putF (Reg.pinTiming n) 0 16 (twos 16 f.offset) (putB (Reg.pinStatus n) 8 noted (putF (Reg.pinStatus n) 4 4 f.format s)))

/-- The run of frames with a payload ID that fails, or with none where one is required. -/
def vpidBadRun (c : InCfg) (t : InTrack) : Nat := if t.vpidNow then t.vpidBad else if c.requireVpid then t.vpidBad + 1 else 0

/-- The payload ID of the frame, if one came, matched; if none came, none is required. -/
def vpidSeen (s : State) (n : Nat) (c : InCfg) : Bool := if (inTrack s n).vpidNow then getB s (Reg.pinStatus n) 9 else !c.requireVpid

/-- The state that a complete frame leads to, with the payload IDs that are absent. -/
def frameNext (st : Nat) (c : InCfg) (t : InTrack) (f : FrameInfo) (seen inTime : Bool) : Nat :=
  if st = 3 ∧ (!t.vpidNow && c.requireVpid) = true ∧ 2 ≤ vpidBadRun c t then 4
  else if st = 3 then frameState st f (frameMatches c f) true inTime else frameState st f (frameMatches c f) seen inTime

/-- The track of an input after a complete frame: the next one's payload ID is still to come. -/
def frameEnded (c : InCfg) (t : InTrack) : InTrack := { t with vpidNow := false, vpidBad := vpidBadRun c t }

/-- Input `n`, in state `st`, goes to state `v`. -/
def frameSettled (n st v : Nat) (s : State) : State := if v = st then s else setInState n v s

theorem inFrame_eq {n : Nat} {c : InCfg} (f : FrameInfo) {s : State} (h : inCfg? s n = some c) : inFrame n f s =
    let g := frameHeard s n c f
    let u := frameClosed n c s
    let t := inTrack u n
    let r := frameReported n g t.vpidNow (inWindow u n c g || inSync u n) u
    let v := frameNext (inState r n) c t g (if t.vpidNow then getB r (Reg.pinStatus n) 9 else !c.requireVpid) (inWindow u n c g)
    frameSettled n (inState r n) v (putIn n (frameEnded c t) r) := by
  unfold inFrame
  rw [h]
  rfl

theorem inSync_congr {s t : State} (h : t.plan = s.plan) (n : Nat) : inSync t n = inSync s n := by
  simp only [inSync, ringEntry?, inLead, h]

theorem inWindow_congr {s t : State} (h : t.plan = s.plan) (n : Nat) (c : InCfg) (f : FrameInfo) : inWindow t n c f = inWindow s n c f := by
  simp only [inWindow, inSync_congr h]

theorem staged_frameClosed (n : Nat) (c : InCfg) (s : State) : Staged n 0 s (frameClosed n c s) := by
  unfold frameClosed
  split
  · exact .refl n s
  · exact staged_inTurn n c s

theorem frameState_lt {st : Nat} (f : FrameInfo) (alike vpidOk inTime : Bool) (h : st < 8) : frameState st f alike vpidOk inTime < 8 := by
  unfold frameState
  repeat' split
  all_goals omega

theorem frameNext_lt {st : Nat} (c : InCfg) (t : InTrack) (f : FrameInfo) (seen inTime : Bool) (h : st < 8) : frameNext st c t f seen inTime < 8 := by
  unfold frameNext
  split
  · decide
  · split
    · exact frameState_lt _ _ _ _ h
    · exact frameState_lt _ _ _ _ h

/-- A frame leads an input outside its signal nowhere. -/
theorem frameNext_idle {st : Nat} (c : InCfg) (t : InTrack) (f : FrameInfo) (seen inTime : Bool) (h : st = 0 ∨ st = 1) : frameNext st c t f seen inTime = st := by
  have h3 : st ≠ 3 := by omega
  rw [frameNext, if_neg fun hh => h3 hh.1, if_neg h3, frameState, if_pos h]

/-- A frame at an input that is not LOCKED (R130). -/
theorem frameNext_unlocked {st : Nat} (c : InCfg) (t : InTrack) (f : FrameInfo) (seen inTime : Bool) (h : 2 ≤ st) (h3 : st ≠ 3) : frameNext st c t f seen inTime =
    if f.whole = true ∧ frameMatches c f = true ∧ seen = true ∧ inTime = true then 3
    else if st = 2 ∧ f.whole = true then (if frameMatches c f = true ∧ seen = true then 5 else 4) else st := by
  rw [frameNext, if_neg fun hh => h3 hh.1, if_neg h3, frameState, if_neg (by omega)]
  by_cases h2 : st = 2
  · simp only [h2, if_true, true_and]
  · simp only [h2, h3, if_false, false_and]

/-- A frame at a LOCKED input whose payload ID has come, or is not required. -/
theorem frameNext_locked {c : InCfg} {t : InTrack} (f : FrameInfo) (seen inTime : Bool) (h : t.vpidNow = true ∨ c.requireVpid = false) : frameNext 3 c t f seen inTime =
    if f.whole = true ∧ frameMatches c f = false then 4 else if inTime = false then 5 else 3 := by
  have hcome : (!t.vpidNow && c.requireVpid) = false := by
    obtain h | h := h
    · rw [h]
      rfl
    · rw [h, Bool.and_false]
  rw [frameNext, if_neg (by simp [hcome]), if_pos rfl, frameState, if_neg (by decide), if_neg (show ¬ (3 = 2) by decide), if_pos rfl]
  cases f.whole <;> cases frameMatches c f <;> cases inTime <;> rfl

/-- The second frame in a row without a payload ID that is required. -/
theorem frameNext_absent {c : InCfg} {t : InTrack} (f : FrameInfo) (seen inTime : Bool) (hnow : t.vpidNow = false) (hreq : c.requireVpid = true) (hbad : 1 ≤ t.vpidBad) :
    frameNext 3 c t f seen inTime = 4 := by
  have hrun : 2 ≤ vpidBadRun c t := by
    rw [vpidBadRun, hnow, if_neg (by decide), if_pos hreq]
    omega
  exact if_pos ⟨rfl, by rw [hnow, hreq]; rfl, hrun⟩

theorem frameHeard_eq (s : State) (n : Nat) (c : InCfg) (f : FrameInfo) :
    frameHeard s n c f = { f with offset := if c.fromFlow = true ∧ flowLocked s n = true then 0 else f.offset } := by
  unfold frameHeard
  cases c.fromFlow <;> cases flowLocked s n <;> rfl

/-- What the report of a frame leaves of the input's registers. -/
structure Reported (n : Nat) (f : FrameInfo) (noted inTime : Bool) (s t : State) : Prop extends InMoves n [Reg.pinStatus n, Reg.pinTiming n] s t where
  format : getF t (Reg.pinStatus n) 4 4 = f.format % 16
  noted : getB t (Reg.pinStatus n) 8 = noted
  offset : getF t (Reg.pinTiming n) 0 16 = (f.offset % 65536).toNat
  inTime : getB t (Reg.pinTiming n) 16 = inTime
  state : inState t n = inState s n
  held : getB t (Reg.pinStatus n) 9 = getB s (Reg.pinStatus n) 9

theorem reported_frameReported (n : Nat) (f : FrameInfo) (noted inTime : Bool) (s : State) : Reported n f noted inTime s (frameReported n f noted inTime s) := by
  have hne : Reg.pinStatus n ≠ Reg.pinTiming n := by
    simp only [Reg.pinStatus, Reg.pinTiming]
    omega
  have hstatus : ∀ lo m, getF (frameReported n f noted inTime s) (Reg.pinStatus n) lo m = getF (putB (Reg.pinStatus n) 8 noted (putF (Reg.pinStatus n) 4 4 f.format s)) (Reg.pinStatus n) lo m :=
    fun lo m => by rw [frameReported, getF_putB_ne hne, getF_putF_ne hne]
  have hmoves : ∀ (a : Nat) (v : Word) (w : State), a ∈ [Reg.pinStatus n, Reg.pinTiming n] → InMoves n [Reg.pinStatus n, Reg.pinTiming n] w (wr a v w) :=
    fun a v w ha => (inMoves_wr n a v w).mono (by simpa using ha)
  refine ⟨(((hmoves _ _ s (by simp)).trans (hmoves _ _ _ (by simp))).trans (hmoves _ _ _ (by simp))).trans (hmoves _ _ _ (by simp)), ?_, ?_, ?_, ?_, ?_, ?_⟩
  · rw [hstatus, getF_putB_fld _ _ _ (by decide) (.inl (by decide)), getF_putF_same _ _ _ (by decide)]
    rfl
  · rw [getB_eq_getF, hstatus, ← getB_eq_getF, getB_putB_same _ _ _ (by decide)]
  · rw [frameReported, getF_putB_fld _ _ _ (by decide) (.inl (by decide)), getF_putF_same _ _ _ (by decide), twos]
    have hlt : (f.offset % 65536).toNat < 65536 := by omega
    exact Nat.mod_eq_of_lt hlt
  · rw [frameReported, getB_putB_same _ _ _ (by decide)]
  · rw [inState, hstatus, getF_putB_fld _ _ _ (by decide) (.inl (by decide)), getF_putF_fld _ _ _ (by decide) (.inl (by decide)), inState]
  · rw [getB_eq_getF, hstatus, getF_putB_fld _ _ _ (by decide) (.inr (by decide)), getF_putF_fld _ _ _ (by decide) (.inr (by decide)), ← getB_eq_getF]

/-- Input `n` has settled in state `v`. -/
structure Settled (n v : Nat) (s t : State) : Prop extends InMoves n [Reg.pinStatus n] s t where
  state : inState t n = v
  fields : ∀ lo m, 3 ≤ lo → getF t (Reg.pinStatus n) lo m = getF s (Reg.pinStatus n) lo m
  packets : (inTrack t n).ancNow = (inTrack s n).ancNow ∧ (inTrack t n).ancLast = (inTrack s n).ancLast

theorem settled_frameSettled {n v st : Nat} {s : State} (hst : inState s n = st) (hv : v < 8) : Settled n v s (frameSettled n st v s) := by
  unfold frameSettled
  split
  next heq => exact ⟨.refl .., hst.trans heq.symm, fun _ _ _ => rfl, rfl, rfl⟩
  next =>
    have hent := entered_setInState (n := n) s hv
    refine ⟨hent.toInMoves, hent.state, hent.fields, ?_⟩
    rw [hent.track, enteredTrack]
    exact ⟨rfl, rfl⟩

/-- A complete frame has been judged. -/
structure FrameJudged (n : Nat) (c : InCfg) (f : FrameInfo) (s t : State) : Prop extends InMoves n (inputRegs n) s t where
  format : getF t (Reg.pinStatus n) 4 4 = f.format % 16
  noted : getB t (Reg.pinStatus n) 8 = (inTrack s n).vpidNow
  offset : getF t (Reg.pinTiming n) 0 16 = (f.offset % 65536).toNat
  inTime : getB t (Reg.pinTiming n) 16 = (inWindow s n c f || inSync s n)
  state : inState t n = frameNext (inState s n) c (inTrack s n) f (vpidSeen s n c) (inWindow s n c f)
  turned : inRing s n = false → (inTrack t n).ancNow = [] ∧ (inTrack t n).ancLast = (inTrack s n).ancNow

theorem frameJudged {n : Nat} {c : InCfg} (f : FrameInfo) {s : State} (h : inCfg? s n = some c) : FrameJudged n c (frameHeard s n c f) s (inFrame n f s) := by
  rw [inFrame_eq f h]
  obtain ⟨g, hg⟩ : ∃ g, frameHeard s n c f = g := ⟨_, rfl⟩
  obtain ⟨u, hu⟩ : ∃ u, frameClosed n c s = u := ⟨_, rfl⟩
  have hclosed := staged_frameClosed n c s
  rw [hg, hu]
  rw [hu] at hclosed
  dsimp only
  have hstate : inState u n = inState s n := hclosed.status 0 3 (.inl (by decide))
  have hheld : getB u (Reg.pinStatus n) 9 = getB s (Reg.pinStatus n) 9 := by rw [getB_eq_getF, hclosed.status 9 1 (.inl (by decide)), ← getB_eq_getF]
  have hnow : (inTrack u n).vpidNow = (inTrack s n).vpidNow := by rw [hclosed.track]
  have hnext : ∀ st seen inTime, frameNext st c (inTrack u n) g seen inTime = frameNext st c (inTrack s n) g seen inTime := fun st seen inTime => by
    rw [hclosed.track, frameNext, frameNext, vpidBadRun, vpidBadRun]
  have hturned : inRing s n = false → (inTrack u n).ancNow = [] ∧ (inTrack u n).ancLast = (inTrack s n).ancNow := fun hr => by
    rw [← hu, frameClosed, if_neg (by simp [hr])]
    exact track_inTurn n c s
  have hrep := reported_frameReported n g (inTrack s n).vpidNow (inWindow s n c g || inSync s n) u
  rw [inWindow_congr hclosed.plan, inSync_congr hclosed.plan, hnext, hnow]
  obtain ⟨r, hr⟩ : ∃ r, frameReported n g (inTrack s n).vpidNow (inWindow s n c g || inSync s n) u = r := ⟨_, rfl⟩
  rw [hr] at hrep ⊢
  rw [hrep.state, hrep.held, hstate, hheld, ← vpidSeen]
  obtain ⟨w, hw⟩ : ∃ w, putIn n (frameEnded c (inTrack u n)) r = w := ⟨_, rfl⟩
  have hput : InMoves n [] r w := hw ▸ inMoves_putIn ..
  have hregs : w.regs = r.regs := hw ▸ putIn_regs ..
  have htrack : inTrack w n = frameEnded c (inTrack u n) := by rw [← hw, inTrack_putIn_same]
  rw [hw]
  have hwstate : inState w n = inState s n := (inState_congr (rd_congr hregs _)).trans (hrep.state.trans hstate)
  have hset := settled_frameSettled hwstate (frameNext_lt c (inTrack s n) g (vpidSeen s n c) (inWindow s n c g) (inState_lt s n))
  have hne : Reg.pinTiming n ∉ [Reg.pinStatus n] := by
    simp only [Reg.pinStatus, Reg.pinTiming, List.mem_singleton]
    omega
  have htiming := (hset.regs _ hne).trans (rd_congr hregs _)
  refine ⟨((hclosed.toInMoves.mono (stageRegs_subset n)).trans (hrep.toInMoves.mono (by simp [inputRegs]))).trans
    ((hput.mono (by simp)).trans (hset.toInMoves.mono (by simp [inputRegs]))), ?_, ?_, ?_, ?_, hset.state, fun hring => ?_⟩
  · rw [hset.fields 4 4 (by decide), getF_congr hregs, hrep.format]
  · rw [getB_eq_getF, hset.fields 8 1 (by decide), ← getB_eq_getF, getB_congr hregs, hrep.noted]
  · rw [getF, htiming, ← getF, hrep.offset]
  · rw [getB, htiming, ← getB, hrep.inTime]
  · rw [hset.packets.1, hset.packets.2, htrack, frameEnded]
    exact hturned hring

/-! ## The fourth expected EAV is missing (R130, R161) -/

/-- The four lines whose EAVs are missing. -/
def eavLines (c : InCfg) (t : InTrack) : List Nat :=
  match t.lastLine with
  | none => [1, 2, 3, 4]
  | some k => [nextLine c.fmt k, nextLine c.fmt (k + 1), nextLine c.fmt (k + 2), nextLine c.fmt (k + 3)]

theorem length_eavLines (c : InCfg) (t : InTrack) : (eavLines c t).length = 4 := by
  unfold eavLines
  split <;> rfl

/-- The track of an input without a signal. -/
def eavMissed (t : InTrack) : InTrack := { t with miss := 4, live := false, lastLine := none }

/-- Missing lines are presented invalid, where the input has no ring. -/
def eavShown (n : Nat) (ls : List Nat) (s : State) : State := if inRing s n then s else ls.foldl (fun s k => inShow n k false [] s) s

/-- Lines that pass without a signal count from the next one on (log 103). -/
def eavAwaited (n : Nat) (c : InCfg) (s : State) : State := putIn n { inTrack s n with linesAt := s.now + fmtLineTicks c.fmt } s

theorem inEavMissing_eq {n : Nat} {c : InCfg} {s : State} (h : inCfg? s n = some c) (hst : inState s n ≠ 1) :
    inEavMissing n s = eavAwaited n c (setInState n 1 (eavShown n (eavLines c (inTrack s n)) (putIn n (eavMissed (inTrack s n)) s))) := by
  unfold inEavMissing
  rw [h]
  dsimp only
  rw [if_neg hst]
  rfl

theorem staged_eavShown (n : Nat) (ls : List Nat) (s : State) : Staged n (if inRing s n = true then 0 else ls.length) s (eavShown n ls s) := by
  unfold eavShown
  split
  · exact .refl n s
  · have h := Staged.foldl (fun s k => (presented_inShow n k false [] s).staged) ls s
    simpa using h

/-- The input has lost its signal. -/
structure EavMissed (n : Nat) (s t : State) : Prop extends InMoves n (inputRegs n) s t where
  state : inState t n = 1
  live : (inTrack t n).live = false
  lines : (rd t (Reg.pinLinesInvalid n)).toNat = min (2 ^ 32 - 1) ((rd s (Reg.pinLinesInvalid n)).toNat + if inRing s n = true then 0 else 4)

theorem eavMissed_inEavMissing {n : Nat} {c : InCfg} {s : State} (h : inCfg? s n = some c) (hst : inState s n ≠ 1) : EavMissed n s (inEavMissing n s) := by
  rw [inEavMissing_eq h hst]
  obtain ⟨u, hu⟩ : ∃ u, putIn n (eavMissed (inTrack s n)) s = u := ⟨_, rfl⟩
  have hput : InMoves n [] s u := hu ▸ inMoves_putIn ..
  have huregs : u.regs = s.regs := hu ▸ putIn_regs ..
  have hutrack : inTrack u n = eavMissed (inTrack s n) := by rw [← hu, inTrack_putIn_same]
  have hshown := staged_eavShown n (eavLines c (inTrack s n)) u
  rw [inRing_congr hput.plan, length_eavLines] at hshown
  rw [hu]
  obtain ⟨v, hv⟩ : ∃ v, eavShown n (eavLines c (inTrack s n)) u = v := ⟨_, rfl⟩
  rw [hv] at hshown ⊢
  have hent := entered_setInState (n := n) v (show 1 < 8 by decide)
  obtain ⟨w, hw⟩ : ∃ w, setInState n 1 v = w := ⟨_, rfl⟩
  rw [hw] at hent ⊢
  have hlast : InMoves n [] w (eavAwaited n c w) := inMoves_putIn ..
  have hlregs : (eavAwaited n c w).regs = w.regs := putIn_regs ..
  obtain ⟨hlines, -⟩ := stageRegs_apart n
  refine ⟨(((hput.mono (by simp)).trans (hshown.toInMoves.mono (stageRegs_subset n))).trans (hent.toInMoves.mono (by simp [inputRegs]))).trans (hlast.mono (by simp)), ?_, ?_, ?_⟩
  · exact (inState_congr (rd_congr hlregs _)).trans hent.state
  · rw [eavAwaited, inTrack_putIn_same, hent.track, hshown.track, hutrack]
    rfl
  · rw [rd_congr hlregs, hent.regs _ (by simpa using hlines), hshown.lines, rd_congr huregs]

theorem inEavMissing_gone {n : Nat} {s : State} (hst : inState s n = 1) : inEavMissing n s = s := by
  unfold inEavMissing
  cases inCfg? s n with
  | none => rfl
  | some c => exact if_pos hst

/-! ## A line's packets, judged and presented -/

theorem lineFollows_elim (f : PortFmt) (q : InTrack) (number now : Nat) : lineFollows f q number now = q.lastLine.elim true fun p =>
    decide (number = nextLine f p) && decide (2000 * (now - q.eavAt) ≤ 2001 * fmtLineTicks f) && decide (1999 * fmtLineTicks f ≤ 2000 * (now - q.eavAt)) := by
  unfold lineFollows
  cases q.lastLine <;> rfl

theorem lineGap_eq_ite (f : PortFmt) (q : InTrack) (now : Nat) :
    lineGap f q now = if q.lastLine = none then 0 else min 3 ((now - q.eavAt + fmtLineTicks f / 2) / max 1 (fmtLineTicks f) - 1) := by
  unfold lineGap
  cases q.lastLine <;> rfl

/-- The one ANC packet of a line at an input without a ring. -/
theorem inTaken_anc {n : Nat} {c : InCfg} {l : LineInfo} {p : AncPkt} {s : State} (h : inCfg? s n = some c) (hr : inRing s n = false) (hv : videoFed s c = false)
    (hp : l.anc = [p]) : let t := inTaken n c l s
    AncCounted n (b2n (ancTaken s n c p)) (b2n (ancDropped s n c p)) s t
      ∧ (inTrack t n).ancNow = (inTrack s n).ancNow ++ if ancTaken s n c p then [(l.number, p)] else [] := by
  have hj := lineJudged l h
  have hpres := inTaken_presented l h hr
  obtain ⟨u, hu⟩ : ∃ u, inJudged n c l s = u := ⟨_, rfl⟩
  rw [hu] at hj hpres
  have hfed : videoFed u c = false := by rw [videoFed, hj.plan, ← videoFed, hv]
  obtain ⟨hcount, hnow⟩ := inPresent_anc (lineValid n c l s) hfed hp
  have hne : Reg.pinAncCnt n ∉ [Reg.pinStatus n, Reg.pinVpid n, Reg.pinCrcErr n, Reg.pinLinesInvalid n] := by
    simp only [Reg.pinAncCnt, Reg.pinStatus, Reg.pinVpid, Reg.pinCrcErr, Reg.pinLinesInvalid, List.mem_cons, List.not_mem_nil, or_false]
    omega
  rw [ancTaken_congr c p hj.noted.ancNow, ancDropped_congr c p hj.noted.ancNow, ← hpres] at hcount
  rw [ancTaken_congr c p hj.noted.ancNow, hj.noted.ancNow, ← hpres] at hnow
  exact ⟨hcount.congr (hj.regs _ hne) rfl hj.ancDrop rfl, hnow⟩

/-- The one audio packet of a line at an input without a ring, outside a group: within the cadence and at the plane's rate its samples enter the plane. -/
theorem inTaken_audio {n g i : Nat} {c : InCfg} {l : LineInfo} {p : AudPkt} {y : AudSample} {s : State} (h : inCfg? s n = some c) (hr : inRing s n = false)
    (hv : videoFed s c = false) (hp : l.audio = [p]) (halone : groupOf s.plan.cfg.groups true n = none) (hctl : audCtlGroup p.did = none)
    (hg : audDataGroup p.did = some g) (hrate : audDeclared (inTrack s n) g = planeRate s)
    (hroom : tabGet 0 g (inTrack s n).audCount < audioSamples c.fmt (planeRate s) (if l.number = 1 then fmtFrameNear c.fmt s.now else (inTrack s n).frameNo))
    (hi : i < 4) (hy : nth? p.samples i = some y) :
    (tabGet audSrc0 (32 * n + 4 * (g - 1) + i) (inTaken n c l s).aud.srcs).queue = (tabGet audSrc0 (32 * n + 4 * (g - 1) + i) s.aud.srcs).queue ++ [audSlotOf y] := by
  have hj := lineJudged l h
  rw [inTaken_presented l h hr]
  obtain ⟨u, hu⟩ : ∃ u, inJudged n c l s = u := ⟨_, rfl⟩
  rw [hu] at hj ⊢
  have hplane : planeRate u = planeRate s := by rw [planeRate, hj.plan, ← planeRate]
  have hfed : videoFed u c = false := by rw [videoFed, hj.plan, ← videoFed, hv]
  have hdeclared : audDeclared (inTrack u n) g = audDeclared (inTrack s n) g := by rw [audDeclared, hj.noted.ctlNow, hj.noted.ctlLast, ← audDeclared]
  have hneed : audNeed u c (inTrack u n) = audioSamples c.fmt (planeRate s) (if l.number = 1 then fmtFrameNear c.fmt s.now else (inTrack s n).frameNo) := by
    rw [audNeed, hplane, hj.frameNo]
    simp only [hr, and_true]
  rw [← hj.aud]
  exact inPresent_audio _ hfed hp (by rw [hj.plan]; exact halone) hctl hg (by rw [hdeclared, hplane, hrate]) (by rw [hneed, hj.noted.audCount]; exact hroom) hi hy

/-! ## The statement on inputs -/

theorem inLine_none {n : Nat} {s : State} (l : LineInfo) (h : inCfg? s n = none) : inLine n l s = s := by
  unfold inLine
  rw [h]

theorem inFrame_none {n : Nat} {s : State} (f : FrameInfo) (h : inCfg? s n = none) : inFrame n f s = s := by
  unfold inFrame
  rw [h]

theorem inEavMissing_none {n : Nat} {s : State} (h : inCfg? s n = none) : inEavMissing n s = s := by
  unfold inEavMissing
  rw [h]

theorem inLine_some {n : Nat} {c : InCfg} {s : State} (l : LineInfo) (h : inCfg? s n = some c) : inLine n l s = (inFed s n c l).elim s fun x => inTaken n c x s := by
  unfold inLine
  rw [h]

theorem decide_b2n_pos (b : Bool) : decide (0 < b2n b) = b := by cases b <;> rfl

/-- Lines that pass unseen at an input without a ring. -/
theorem lines_unseen {n : Nat} {c : InCfg} {s : State} (hr : inRing s n = false) : linesPassed s n c + lineGap c.fmt (inTrack s n) s.now =
    (if inState s n = 1 then (s.now - (inTrack s n).linesAt) / max 1 (fmtLineTicks c.fmt) else 0)
      + if (inTrack s n).lastLine = none then 0 else min 3 ((s.now - (inTrack s n).eavAt + fmtLineTicks c.fmt / 2) / max 1 (fmtLineTicks c.fmt) - 1) := by
  rw [linesPassed, lineGap_eq_ite]
  simp only [hr, and_true]

/-- Settles O39: a line is `lineTaken`, with its packets by `inTaken_anc` and `inTaken_audio`; a frame is `frameJudged`; missing EAVs are `eavMissed_inEavMissing`. -/
theorem inputsFollowTheirSignal : Obligations.InputsFollowTheirSignal := by
  unfold Obligations.InputsFollowTheirSignal
  intro dt s hp n hn a q st u kept more
  have hline : ∀ l P, P (inLine n l u) → Completes (.inputLineArrival dt n l) s P := fun l P h => completes_only rfl (decide_eq_true hn) hp h
  have hframe : ∀ f P, P (inFrame n f u) → Completes (.inputFrameComplete dt n f) s P := fun f P h => completes_only rfl (decide_eq_true hn) hp h
  have heav : ∀ P, P (inEavMissing n u) → Completes (.inputEavMissing dt n) s P := fun P h => completes_only rfl (decide_eq_true hn) hp h
  have hkept : ∀ t, InMoves n (inputRegs n) u t → kept t := fun t h => ⟨h.frame, h.regs, h.others⟩
  refine ⟨fun hnone => ⟨fun l => hline l _ (inLine_none l hnone), fun f => hframe f _ (inFrame_none f hnone), heav _ (inEavMissing_none hnone)⟩, fun c hc => ?_⟩
  intro ring period
  have hcfg : inCfg? u n = some c := hc
  refine ⟨fun l hflow hnone => hline l _ ?_, fun l x hfed => ?_, fun f => ?_, fun hst => heav _ ?_, fun hst => heav _ (inEavMissing_gone (s := u) hst)⟩
  · rw [inLine_some l hcfg, inFed, if_pos hflow, hnone]
    rfl
  · intro st1 gone follows st2 wrong st3 live valid passed
    refine hline l _ ?_
    have hfollows : lineFollows c.fmt (inTrack u n) x.number u.now = follows := lineFollows_elim ..
    have hvalid : lineValid n c x u = valid := by
      rw [lineValid_eq x hcfg, hfollows]
      rfl
    have hx : inLine n l u = inTaken n c x u := by
      rw [inLine_some l hcfg, inFed]
      obtain ⟨hflow, hsome⟩ | ⟨hflow, hsame⟩ := hfed
      · rw [if_pos hflow, hsome]
        rfl
      · rw [if_neg (by simp [hflow]), hsame]
        rfl
    have ht := lineTaken x hcfg
    rw [hx]
    refine ⟨hkept _ ht.toInMoves, ?_, ht.crcErr, ht.crcSeen, ?_, ht.lastLine, ht.eavAt, fun hr hg => ?_, ht.ring, ht.noId, ht.anId, fun hr hv => ⟨fun p hanc => ?_, fun p haud g hdid h1 h8 hg hrate hroom i hi y hy => ?_⟩⟩
    · rw [ht.state, hfollows]
      rfl
    · have hlines := ht.lines
      rw [hvalid] at hlines
      cases hr : inRing u n with
      | true =>
        rw [hr] at hlines
        exact hlines.trans (by rw [show ring = true from hr]; rfl)
      | false =>
        rw [hr, lines_unseen hr] at hlines
        exact hlines.trans (by rw [show ring = false from hr]; rfl)
    · rw [ht.alone hr hg, hvalid]
    · intro cnt never hit full dropped taken
      obtain ⟨⟨htaken, hlost, hflag⟩, hnow⟩ := inTaken_anc hcfg hr hv hanc
      exact ⟨hlost, htaken, hflag.trans (by rw [decide_b2n_pos]; rfl), hnow⟩
    · obtain ⟨hctl, hgroup⟩ := audDataGroup_did h1 h8
      rw [← hdid] at hctl hgroup
      exact inTaken_audio hcfg hr hv haud hg hctl hgroup hrate hroom hi hy
  · intro rows offset inTime alike seen
    have hj := frameJudged f hcfg
    rw [frameHeard_eq] at hj
    refine hframe f _ ⟨hkept _ hj.toInMoves, hj.format, hj.noted, hj.offset, hj.inTime, fun h => ?_, fun h2 h3 => ?_, fun h3 h => ?_, fun h3 hnow hreq hbad => ?_, hj.turned⟩
    all_goals rw [hj.state]
    · exact frameNext_idle _ _ _ _ _ h
    · exact frameNext_unlocked _ _ _ _ _ h2 h3
    · rw [show inState u n = 3 from h3]
      exact frameNext_locked _ _ _ h
    · rw [show inState u n = 3 from h3]
      exact frameNext_absent _ _ _ hnow hreq hbad
  · have hmiss := eavMissed_inEavMissing (s := u) hcfg hst
    exact ⟨hkept _ hmiss.toInMoves, hmiss.state, hmiss.live, hmiss.lines⟩

end Sys2Proof.Machine
end

section
/-! Output lines (03_port_pipelines.md R140 to R151, R156, R161, R162): what each step of a line moves at an output, and the statement on outputs. -/

namespace Sys2Proof.Machine

/-! ## What work on an output moves -/

theorem outTrack_congr {s t : State} (h : t.port = s.port) (n : Nat) : outTrack t n = outTrack s n := by rw [outTrack, h, outTrack]

/-- Work on output `n`: registers among `as`, events, its own track and penalties may move, and nothing else. -/
structure OutMoves (n : Nat) (as : List Nat) (s t : State) : Prop where
  frame : t = { s with regs := t.regs, evq := t.evq, port := { s.port with outs := t.port.outs }, pair := t.pair }
  regs : RegsBut as s t
  others : ∀ m, m ≠ n → outTrack t m = outTrack s m

namespace OutMoves

theorem refl (n : Nat) (as : List Nat) (s : State) : OutMoves n as s s := ⟨rfl, .refl as s, fun _ _ => rfl⟩

theorem trans {n : Nat} {as : List Nat} {s u t : State} (h1 : OutMoves n as s u) (h2 : OutMoves n as u t) : OutMoves n as s t := by
  refine ⟨?_, h1.regs.trans h2.regs, fun m hm => (h2.others m hm).trans (h1.others m hm)⟩
  have h := h2.frame
  rw [h1.frame] at h
  exact h

theorem mono {n : Nat} {as bs : List Nat} {s t : State} (h : OutMoves n as s t) (hs : as ⊆ bs) : OutMoves n bs s t := ⟨h.frame, h.regs.mono hs, h.others⟩

theorem now {n : Nat} {as : List Nat} {s t : State} (h : OutMoves n as s t) : t.now = s.now := by rw [h.frame]

theorem plan {n : Nat} {as : List Nat} {s t : State} (h : OutMoves n as s t) : t.plan = s.plan := by rw [h.frame]

theorem aud {n : Nat} {as : List Nat} {s t : State} (h : OutMoves n as s t) : t.aud = s.aud := by rw [h.frame]

theorem ins {n : Nat} {as : List Nat} {s t : State} (h : OutMoves n as s t) : t.port.ins = s.port.ins := by rw [h.frame]

end OutMoves

/-- Work on output `n` without a penalty. -/
structure OutCalm (n : Nat) (as : List Nat) (s t : State) : Prop extends OutMoves n as s t where
  pair : t.pair = s.pair

namespace OutCalm

theorem refl (n : Nat) (as : List Nat) (s : State) : OutCalm n as s s := ⟨.refl n as s, rfl⟩

theorem trans {n : Nat} {as : List Nat} {s u t : State} (h1 : OutCalm n as s u) (h2 : OutCalm n as u t) : OutCalm n as s t :=
  ⟨h1.toOutMoves.trans h2.toOutMoves, h2.pair.trans h1.pair⟩

theorem mono {n : Nat} {as bs : List Nat} {s t : State} (h : OutCalm n as s t) (hs : as ⊆ bs) : OutCalm n bs s t := ⟨h.toOutMoves.mono hs, h.pair⟩

/-- Work that leaves the tracks of all outputs alone. -/
theorem of_regs {n : Nat} {as : List Nat} {s t : State} (h : t = { s with regs := t.regs, evq := t.evq }) (hr : RegsBut as s t) : OutCalm n as s t := by
  refine ⟨⟨?_, hr, fun m _ => outTrack_congr (by rw [h]) m⟩, by rw [h]⟩
  rw [h]

end OutCalm

theorem outCalm_wr (n a : Nat) (v : Word) (s : State) : OutCalm n [a] s (wr a v s) := .of_regs rfl (regsBut_wr a v s)

theorem outCalm_putOut (n : Nat) (as : List Nat) (x : OutTrack) (s : State) : OutCalm n as s (putOut n x s) :=
  ⟨⟨rfl, fun _ _ => rfl, fun _ hm => outTrack_putOut_ne hm x s⟩, rfl⟩

theorem outCalm_putB (n a b : Nat) (v : Bool) (s : State) : OutCalm n [a] s (putB a b v s) := outCalm_wr n a _ s

theorem outCalm_putF (n a lo m v : Nat) (s : State) : OutCalm n [a] s (putF a lo m v s) := outCalm_wr n a _ s

theorem outCalm_bump (n a lo m k : Nat) (s : State) : OutCalm n [a] s (bump a lo m k s) := outCalm_wr n a _ s

theorem outCalm_count (n a : Nat) (s : State) : OutCalm n [a] s (count a s) := outCalm_wr n a _ s

theorem outCalm_stateEvent (n src inst a lo m v : Nat) (s : State) : OutCalm n [a] s (stateEvent src inst a lo m v s) := by
  obtain ⟨hframe, hrd⟩ := stateEvent_spec src inst a lo m v s
  exact .of_regs hframe fun b hb => (hrd b).trans (rd_putF_ne (by simpa using hb) ..)

/-- A flag that is reported once: after it the flag is set. -/
def flagOnce (src inst a b : Nat) (s : State) : State := if getB s a b then s else flagEvent src inst a b s

theorem flagOnce_spec {src inst a b : Nat} (s : State) (hb : b < 32) : let t := flagOnce src inst a b s
    t = { s with regs := t.regs, evq := t.evq } ∧ RegsBut [a] s t ∧ getB t a b = true ∧ FieldsBut a b s t := by
  intro t
  by_cases h : getB s a b = true
  · have ht : t = s := if_pos h
    rw [ht]
    exact ⟨rfl, .refl _ _, h, .refl _ _ _⟩
  · have ht : t = flagEvent src inst a b s := if_neg h
    obtain ⟨hframe, hrd⟩ := flagEvent_spec src inst a b s
    rw [ht]
    refine ⟨hframe, fun c hc => (hrd c).trans (rd_putB_ne (by simpa using hc) ..), ?_, fun lo m hd => ?_⟩
    · rw [getB, hrd, ← getB, getB_putB_same _ _ _ hb]
    · rw [getF, hrd, ← getF, getF_putB_fld _ _ _ hb hd]

theorem outTrack_flagOnce (src inst a b m : Nat) (s : State) (hb : b < 32) : outTrack (flagOnce src inst a b s) m = outTrack s m :=
  outTrack_congr (by rw [(flagOnce_spec s hb).1]) m

/-! ## Registers of an output, apart from one another -/

/-- The registers that a line of output `n` may move before it leaves. -/
def pipeRegs (n : Nat) : List Nat := [Reg.poutStatus n, Reg.poutLinesRepl n, Reg.poutAncCnt n, Reg.pgrpOutStatus (n / 4)]

theorem pipeRegs_apart (n : Nat) : Reg.poutLinesRepl n ≠ Reg.poutStatus n ∧ Reg.poutAncCnt n ≠ Reg.poutStatus n ∧ Reg.poutAncCnt n ≠ Reg.poutLinesRepl n
    ∧ Reg.pgrpOutStatus (n / 4) ≠ Reg.poutStatus n ∧ Reg.pgrpOutStatus (n / 4) ≠ Reg.poutLinesRepl n ∧ Reg.pgrpOutStatus (n / 4) ≠ Reg.poutAncCnt n := by
  have hquad : n / 4 / 72 = n / 288 := Nat.div_div_eq_div_mul n 4 72
  simp only [Reg.poutStatus, Reg.poutLinesRepl, Reg.poutAncCnt, Reg.pgrpOutStatus, hquad]
  omega

/-- Neither the delay line nor the pipeline of an output is where a penalty is noted. -/
theorem penaltyRegs_apart {n : Nat} (hn : n < 1152) (q : Nat) : ∀ a ∈ Reg.dlyStatus n :: pipeRegs n, a ∉ penaltyRegs q := by
  have hquad : n / 4 / 72 = n / 288 := Nat.div_div_eq_div_mul n 4 72
  intro a ha
  simp only [pipeRegs, penaltyRegs, Reg.poutStatus, Reg.poutLinesRepl, Reg.poutAncCnt, Reg.pgrpOutStatus, Reg.dlyStatus, Reg.pairHealth, Reg.pairStatus, Reg.mirRailState, hquad,
    List.mem_cons, List.not_mem_nil, or_false] at ha ⊢
  omega

/-- What a line's decisions are read from does not move before it leaves: mode, routes and delay. -/
theorem pipeRegs_notMem {n : Nat} (hn : n < 1152) {k : Nat} (hk : k < 16) : ∀ a ∈ [Reg.planState, Reg.takeRoute n k, Reg.dlyStatus n], a ∉ pipeRegs n ++ penaltyRegs (n / 288) := by
  have hquad : n / 4 / 72 = n / 288 := Nat.div_div_eq_div_mul n 4 72
  intro a ha
  simp only [pipeRegs, penaltyRegs, Reg.poutStatus, Reg.poutLinesRepl, Reg.poutAncCnt, Reg.pgrpOutStatus, Reg.dlyStatus, Reg.pairHealth, Reg.pairStatus, Reg.mirRailState,
    Reg.planState, Reg.takeRoute, hquad, List.mem_cons, List.not_mem_nil, or_false, List.mem_append] at ha ⊢
  omega

/-! ## Line 1 of a frame (R144, R147) -/

def lineStarted (n : Nat) (c : OutCfg) (l : OutLine) (s : State) : State := if l.number = 1 then outStart n c s else s

/-- What a line's number brings to its output: line 1 takes the colour set of the frame. -/
structure LineStarted (n : Nat) (l : OutLine) (s t : State) : Prop extends OutCalm n [Reg.poutStatus n] s t where
  fields : FieldsBut (Reg.poutStatus n) 5 s t
  enabled : getB t (Reg.poutStatus n) 5 = if l.number = 1 then (outColour s n).any fun e => decide (e.flags % 2 = 1) else getB s (Reg.poutStatus n) 5
  track : outTrack t n = { outTrack s n with
    colour := if l.number = 1 then outColour s n else (outTrack s n).colour, slate := (outTrack t n).slate, samples := (outTrack t n).samples,
    frameNo := (outTrack t n).frameNo, ancNow := (outTrack t n).ancNow, conv := (outTrack t n).conv }

theorem enabled_any (e : Option ColourEntry) : ((e.map fun e => nbit e.flags 0).getD false) = e.any fun e => decide (e.flags % 2 = 1) := by
  cases e with
  | none => rfl
  | some e => exact nbit_zero e.flags

/-- The track of output `n` at line 1. -/
def startedTrack (n : Nat) (c : OutCfg) (s : State) : OutTrack :=
  { outTrack s n with colour := outColour s n, slate := (tabFind (safeEntry s n / 16 % 4096) s.mem.slates).filter fun x => slateFits x c.fmt,
                      samples := audioSamples c.fmt (planeRate s) (fmtFrameNear c.fmt s.now), frameNo := fmtFrameNear c.fmt s.now, ancNow := [], conv := taskSet s n }

theorem outStart_eq (n : Nat) (c : OutCfg) (s : State) :
    outStart n c s = putB (Reg.poutStatus n) 5 (((outColour s n).map fun e => nbit e.flags 0).getD false) (putOut n (startedTrack n c s) s) := rfl

theorem lineStarted_spec (n : Nat) (c : OutCfg) (l : OutLine) (s : State) : LineStarted n l s (lineStarted n c l s) := by
  by_cases h : l.number = 1
  · have ht : lineStarted n c l s = outStart n c s := if_pos h
    have htrack : outTrack (outStart n c s) n = startedTrack n c s := by
      rw [outStart_eq, outTrack_congr (putB_port ..), outTrack_putOut_same]
    rw [ht]
    refine ⟨(outCalm_putOut ..).trans (outCalm_putB ..), fun lo m hd => ?_, ?_, ?_⟩
    · rw [outStart_eq, getF_putB_fld _ _ _ (by decide) hd]
      rfl
    · rw [if_pos h, outStart_eq, getB_putB_same _ _ _ (by decide), enabled_any]
    · rw [if_pos h, htrack]
      rfl
  · have ht : lineStarted n c l s = s := if_neg h
    rw [ht]
    refine ⟨.refl .., .refl _ _ _, ?_, ?_⟩
    · rw [if_neg h]
    · rw [if_neg h]

/-! ## A line with words marked invalid (R145) -/

def lineReplaced (n : Nat) (repl : Bool) (s : State) : State := if repl then outReplaced n s else s

/-- Where a replaced line is counted and flagged. -/
def replRegs (n : Nat) : List Nat := [Reg.poutStatus n, Reg.poutLinesRepl n]

/-- A line has been replaced, if it is to be: the count, the flag, and a penalty for an internal fault on air. -/
structure LineReplaced (n : Nat) (repl : Bool) (s t : State) : Prop extends OutMoves n (replRegs n ++ penaltyRegs (n / 288)) s t where
  calm : (outTrack s n).internal = false ∨ airOut s n = false → OutCalm n (replRegs n) s t
  fields : FieldsBut (Reg.poutStatus n) 6 s t
  seen : getB t (Reg.poutStatus n) 6 = (getB s (Reg.poutStatus n) 6 || repl)
  count : (rd t (Reg.poutLinesRepl n)).toNat = min (2 ^ 32 - 1) ((rd s (Reg.poutLinesRepl n)).toNat + if repl = true then 1 else 0)
  track : outTrack t n = { outTrack s n with replNow := (outTrack s n).replNow || repl }

/-- A replaced line, counted and flagged. -/
def replNoted (n : Nat) (s : State) : State :=
  flagOnce (Src.quad (n / 288) 1) (n % 288) (Reg.poutStatus n) 6 (putOut n { outTrack s n with replNow := true } (count (Reg.poutLinesRepl n) s))

theorem outReplaced_eq (n : Nat) (s : State) :
    outReplaced n s = if (outTrack s n).internal ∧ airOut (replNoted n s) n then penaltyAt (n / 288) 0 [.output n] (replNoted n s) else replNoted n s := rfl

theorem tablesOf_congr {s t : State} (h : t.plan = s.plan) (n : Nat) : tablesOf t n = tablesOf s n := by
  unfold tablesOf onOldPlan
  rw [h]

theorem airOut_congr {s t : State} (h : t.plan = s.plan) (n : Nat) : airOut t n = airOut s n := by rw [airOut, tablesOf_congr h, airOut]

/-- What stands in the output's registers and track of a replaced line. -/
structure ReplNoted (n : Nat) (s t : State) : Prop extends OutCalm n (replRegs n) s t where
  fields : FieldsBut (Reg.poutStatus n) 6 s t
  seen : getB t (Reg.poutStatus n) 6 = true
  count : (rd t (Reg.poutLinesRepl n)).toNat = min (2 ^ 32 - 1) ((rd s (Reg.poutLinesRepl n)).toNat + 1)
  track : outTrack t n = { outTrack s n with replNow := true }

theorem replNoted_spec (n : Nat) (s : State) : ReplNoted n s (replNoted n s) := by
  obtain ⟨hlines, -⟩ := pipeRegs_apart n
  obtain ⟨u, hu⟩ : ∃ u, putOut n { outTrack s n with replNow := true } (count (Reg.poutLinesRepl n) s) = u := ⟨_, rfl⟩
  have hput : OutCalm n [Reg.poutLinesRepl n] s u := by
    rw [← hu]
    exact (outCalm_count ..).trans (outCalm_putOut ..)
  have hregs : ∀ a, rd u a = rd (Sys2Proof.Machine.count (Reg.poutLinesRepl n) s) a := fun a => by
    rw [← hu]
    rfl
  have htrack : outTrack u n = { outTrack s n with replNow := true } := by rw [← hu, outTrack_putOut_same]
  obtain ⟨hframe, hflag, hset, hfields⟩ := flagOnce_spec (src := Src.quad (n / 288) 1) (inst := n % 288) (a := Reg.poutStatus n) (b := 6) u (by decide)
  have hport := outTrack_flagOnce (Src.quad (n / 288) 1) (n % 288) (Reg.poutStatus n) 6 n u (by decide)
  rw [replNoted, hu]
  refine ⟨(hput.mono (by simp [replRegs])).trans (OutCalm.mono (.of_regs hframe hflag) (by simp [replRegs])), fun lo m hd => ?_, hset, ?_, ?_⟩
  · rw [hfields lo m hd, getF, hregs, rd_count_ne hlines.symm, ← getF]
  · rw [hflag _ (by simpa using hlines), hregs, rd_count_same]
  · rw [hport, htrack]

theorem outMoves_penaltyAt (n : Nat) (s : State) : OutMoves n (penaltyRegs (n / 288)) s (penaltyAt (n / 288) 0 [.output n] s) := by
  obtain ⟨hframe, hregs, -⟩ := penaltyAt_spec (q := n / 288) (cls := 0) (bs := [.output n]) (s := s) (by decide) rfl
  refine ⟨?_, hregs, fun m _ => outTrack_congr (by rw [hframe]) m⟩
  rw [hframe]

theorem lineReplaced_spec {n : Nat} (hn : n < 1152) (repl : Bool) (s : State) : LineReplaced n repl s (lineReplaced n repl s) := by
  cases repl with
  | false => exact ⟨.refl .., fun _ => .refl .., .refl _ _ _, (Bool.or_false _).symm, count32_zero rfl, by rw [Bool.or_false]; rfl⟩
  | true =>
    have hnoted := replNoted_spec n s
    have hair := airOut_congr hnoted.plan n
    have ht : lineReplaced n true s = outReplaced n s := rfl
    rw [ht, outReplaced_eq, hair]
    obtain ⟨u, hu⟩ : ∃ u, replNoted n s = u := ⟨_, rfl⟩
    rw [hu] at hnoted ⊢
    have hmoves := hnoted.toOutMoves.mono (List.subset_append_left _ (penaltyRegs (n / 288)))
    by_cases hpen : (outTrack s n).internal = true ∧ airOut s n = true
    · have hp := outMoves_penaltyAt n u
      rw [if_pos hpen]
      have hkeep : ∀ a ∈ pipeRegs n, rd (penaltyAt (n / 288) 0 [.output n] u) a = rd u a := fun a ha =>
        hp.regs a (penaltyRegs_apart hn (n / 288) a (List.mem_cons_of_mem _ ha))
      have hstatus := hkeep (Reg.poutStatus n) (by simp [pipeRegs])
      have hlines := hkeep (Reg.poutLinesRepl n) (by simp [pipeRegs])
      refine ⟨hmoves.trans (hp.mono (List.subset_append_right _ _)), fun h => ?_, hnoted.fields.trans (.of_rd hstatus), ?_, ?_, ?_⟩
      · rw [hpen.1, hpen.2] at h
        simp at h
      · rw [getB, hstatus, ← getB, hnoted.seen, Bool.or_true]
      · rw [hlines, hnoted.count]
        rfl
      · rw [Bool.or_true, ← hnoted.track]
        exact outTrack_congr (by rw [(penaltyAt_spec (q := n / 288) (cls := 0) (bs := [.output n]) (s := u) (by decide) rfl).1]) n
    · rw [if_neg hpen]
      exact ⟨hmoves, fun _ => hnoted.toOutCalm, hnoted.fields, by rw [hnoted.seen, Bool.or_true], hnoted.count, by rw [hnoted.track, Bool.or_true]⟩

/-! ## What a line's decisions are read from -/

/-- Nothing moves that a line of output `n` is decided by: the plan, the routes, the mode, the delay, the frame of its sources and the engine's pattern. -/
structure Decides (n : Nat) (s t : State) : Prop where
  now : t.now = s.now
  plan : t.plan = s.plan
  ins : t.port.ins = s.port.ins
  aud : t.aud = s.aud
  mode : rd t Reg.planState = rd s Reg.planState
  routes : ∀ k, k < 16 → rd t (Reg.takeRoute n k) = rd s (Reg.takeRoute n k)
  delay : rd t (Reg.dlyStatus n) = rd s (Reg.dlyStatus n)
  pattern : (outTrack t n).pattern = (outTrack s n).pattern

theorem OutMoves.decides {n : Nat} {as : List Nat} {s t : State} (h : OutMoves n as s t) (hn : n < 1152) (ha : as ⊆ pipeRegs n ++ penaltyRegs (n / 288))
    (hp : (outTrack t n).pattern = (outTrack s n).pattern) : Decides n s t := by
  have hregs := h.regs.mono ha
  exact ⟨h.now, h.plan, h.ins, h.aud, hregs _ (pipeRegs_notMem hn (k := 0) (by decide) _ (by simp)), fun k hk => hregs _ (pipeRegs_notMem hn hk _ (by simp)),
    hregs _ (pipeRegs_notMem hn (k := 0) (by decide) _ (by simp)), hp⟩

theorem cfgOf_congr {s t : State} (h : t.plan = s.plan) (n : Nat) : cfgOf t n = cfgOf s n := by
  unfold cfgOf
  rw [h]

namespace Decides

variable {n : Nat} {s t u : State}

theorem trans (h1 : Decides n s u) (h2 : Decides n u t) : Decides n s t :=
  ⟨h2.now.trans h1.now, h2.plan.trans h1.plan, h2.ins.trans h1.ins, h2.aud.trans h1.aud, h2.mode.trans h1.mode, fun k hk => (h2.routes k hk).trans (h1.routes k hk),
    h2.delay.trans h1.delay, h2.pattern.trans h1.pattern⟩

theorem modeNow (h : Decides n s t) : modeNow t = Machine.modeNow s := modeNow_congr h.mode

theorem routeOf (h : Decides n s t) {k : Nat} (hk : k < 16) : routeOf t n k = Machine.routeOf s n k := by rw [Machine.routeOf, getF, h.routes k hk, ← getF, ← Machine.routeOf]

theorem outSafe (h : Decides n s t) : outSafe t n = Machine.outSafe s n := by
  unfold Machine.outSafe
  rw [h.now, h.plan, h.routeOf (by decide), h.modeNow, h.pattern]

theorem safeEntry (h : Decides n s t) : safeEntry t n = Machine.safeEntry s n := by rw [Machine.safeEntry, tablesOf_congr h.plan, Machine.safeEntry]

theorem outColour (h : Decides n s t) : outColour t n = Machine.outColour s n := by
  rw [Machine.outColour, tablesOf_congr h.plan, cfgOf_congr h.plan, Machine.outColour]

theorem srcTask (h : Decides n s t) : srcTask t n = Machine.srcTask s n := by
  unfold Machine.srcTask
  rw [cfgOf_congr h.plan, h.routeOf (by decide), h.modeNow]

theorem outStore (h : Decides n s t) : outStore t n = Machine.outStore s n := by
  unfold Machine.outStore destMem?
  rw [h.plan]

theorem delayNow (h : Decides n s t) : delayNow t n = Machine.delayNow s n := by rw [Machine.delayNow, getF, h.delay, ← getF, ← Machine.delayNow]

theorem ancDue (h : Decides n s t) (l : OutLine) : ancDue t n l = Machine.ancDue s n l := by
  have hins : ∀ m, inTrack t m = inTrack s m := fun m => by rw [inTrack, h.ins, inTrack]
  unfold Machine.ancDue ancCross
  rw [h.routeOf (by decide), h.routeOf (by decide), hins]

theorem outAudio (h : Decides n s t) (c : OutCfg) (silent : Bool) : outAudio t n c silent = Machine.outAudio s n c silent := by
  unfold Machine.outAudio
  rw [h.aud]

end Decides

/-! ## The register of an output's group (R156, R163) -/

/-- The group register of an output as it stands before a record of it is raised. -/
def outMissingPut (n : Nat) (missing store : Bool) (s : State) : State :=
  let a := Reg.pgrpOutStatus (n / 4)
  let s := putB a (4 + n % 4) missing (putOut n { outTrack s n with fromStore := store && missing } s)
  let s := putB a 8 ((upto 0 4).any fun k => getB s a (4 + k) && memberStore s false (n / 4 * 4 + k)) s
  if missing then putB a 9 true s else s

theorem setMissing_output_some {n : Nat} {g : GroupCfg} {s : State} (missing store : Bool) (h : groupOf s.plan.cfg.groups false n = some g) :
    setMissing false n missing store s = if rd (outMissingPut n missing store s) (Reg.pgrpOutStatus (n / 4)) = rd s (Reg.pgrpOutStatus (n / 4))
      then outMissingPut n missing store s
      else raiseState (Src.quad (n / 288) 3) (n / 4 % 72) (Reg.pgrpOutStatus (n / 4)) (rd s (Reg.pgrpOutStatus (n / 4))) (outMissingPut n missing store s) := by
  unfold setMissing
  rw [h]
  rfl

/-- A member of an output group is noted as missing or not. -/
structure GroupNoted (n : Nat) (s t : State) : Prop extends OutCalm n [Reg.pgrpOutStatus (n / 4)] s t where
  track : outTrack t n = { outTrack s n with fromStore := (outTrack t n).fromStore }

namespace GroupNoted

theorem refl (n : Nat) (s : State) : GroupNoted n s s := ⟨.refl .., rfl⟩

theorem trans {n : Nat} {s u t : State} (h1 : GroupNoted n s u) (h2 : GroupNoted n u t) : GroupNoted n s t := by
  refine ⟨h1.toOutCalm.trans h2.toOutCalm, ?_⟩
  have h := h2.track
  rw [h1.track] at h
  exact h

theorem putB (n b : Nat) (v : Bool) (s : State) : GroupNoted n s (putB (Reg.pgrpOutStatus (n / 4)) b v s) := ⟨outCalm_putB .., rfl⟩

theorem putOut (n : Nat) (v : Bool) (s : State) : GroupNoted n s (putOut n { outTrack s n with fromStore := v } s) := by
  refine ⟨outCalm_putOut .., ?_⟩
  rw [outTrack_putOut_same]

theorem raiseState (n src inst a : Nat) (before : Word) (s : State) : GroupNoted n s (raiseState src inst a before s) := by
  obtain ⟨t, ht⟩ : ∃ t, Machine.raiseState src inst a before s = t := ⟨_, rfl⟩
  have hframe := raise_frame (show t = raise _ _ _ _ _ _ _ from ht.symm)
  rw [ht]
  refine ⟨.of_regs (by rw [hframe]) fun b _ => by rw [← ht, Machine.raiseState, rd_raise], ?_⟩
  rw [outTrack_congr (show t.port = s.port by rw [hframe])]

end GroupNoted

theorem groupNoted_outMissingPut (n : Nat) (missing store : Bool) (s : State) : GroupNoted n s (outMissingPut n missing store s) := by
  have hbits := fun b => ((GroupNoted.putOut n (store && missing) s).trans (.putB n (4 + n % 4) missing _)).trans (.putB n 8 b _)
  unfold outMissingPut
  dsimp only
  split
  · exact (hbits _).trans (.putB n 9 true _)
  · exact hbits _

theorem groupNoted_setMissing (n : Nat) (missing store : Bool) (s : State) : GroupNoted n s (setMissing false n missing store s) := by
  cases h : groupOf s.plan.cfg.groups false n with
  | none =>
    have ht : setMissing false n missing store s = s := by
      unfold setMissing
      rw [h]
    rw [ht]
    exact .refl ..
  | some g =>
    rw [setMissing_output_some missing store h]
    have hput := groupNoted_outMissingPut n missing store s
    split
    · exact hput
    · exact hput.trans (.raiseState ..)

/-! ## Cross-routed ANC packets (R143) -/

/-- Cross-routed packets are counted: inserted ones, and those without room, which set a flag. -/
structure CrossCounted (n inserted dropped : Nat) (s t : State) : Prop extends OutCalm n [Reg.poutStatus n, Reg.poutAncCnt n] s t where
  fields : FieldsBut (Reg.poutStatus n) 7 s t
  flag : getB t (Reg.poutStatus n) 7 = (getB s (Reg.poutStatus n) 7 || decide (dropped ≠ 0))
  inserted : getF t (Reg.poutAncCnt n) 0 16 = min 65535 (getF s (Reg.poutAncCnt n) 0 16 + inserted)
  dropped : getF t (Reg.poutAncCnt n) 16 16 = min 65535 (getF s (Reg.poutAncCnt n) 16 16 + dropped)
  track : outTrack t n = outTrack s n

theorem getF_bump16 (a : Nat) {lo : Nat} (k : Nat) (s : State) (h : lo ≤ 16) : getF (bump a lo 16 k s) a lo 16 = min 65535 (getF s a lo 16 + k) :=
  getF_bump_same a k s (by omega)

theorem outAncCount_eq (n inserted dropped : Nat) (s : State) : outAncCount n inserted dropped s =
    if dropped = 0 then bump (Reg.poutAncCnt n) 0 16 inserted s
    else flagOnce (Src.quad (n / 288) 1) (n % 288) (Reg.poutStatus n) 7 (bump (Reg.poutAncCnt n) 16 16 dropped (bump (Reg.poutAncCnt n) 0 16 inserted s)) := rfl

theorem crossCounted_outAncCount (n inserted dropped : Nat) (s : State) : CrossCounted n inserted dropped s (outAncCount n inserted dropped s) := by
  obtain ⟨-, hcnt, -⟩ := pipeRegs_apart n
  rw [outAncCount_eq]
  obtain ⟨u, hu⟩ : ∃ u, bump (Reg.poutAncCnt n) 0 16 inserted s = u := ⟨_, rfl⟩
  have hucalm : OutCalm n [Reg.poutAncCnt n] s u := hu ▸ outCalm_bump ..
  have hu0 : getF u (Reg.poutAncCnt n) 0 16 = min 65535 (getF s (Reg.poutAncCnt n) 0 16 + inserted) := by rw [← hu, getF_bump16 _ _ _ (by decide)]
  have hu16 : getF u (Reg.poutAncCnt n) 16 16 = getF s (Reg.poutAncCnt n) 16 16 := by rw [← hu, getF_bump_fld _ _ _ (by decide) (.inr (by decide))]
  have hutrack : outTrack u n = outTrack s n := by rw [← hu, outTrack_congr (bump_port ..)]
  have hustatus : rd u (Reg.poutStatus n) = rd s (Reg.poutStatus n) := hucalm.regs _ (by simpa using hcnt.symm)
  rw [hu]
  by_cases h0 : dropped = 0
  · rw [if_pos h0, h0]
    refine ⟨hucalm.mono (by simp), .of_rd hustatus, ?_, hu0, ?_, hutrack⟩
    · rw [getB, hustatus, ← getB]
      simp
    · rw [hu16]
      exact getF16_zero ..
  · rw [if_neg h0]
    obtain ⟨v, hv⟩ : ∃ v, bump (Reg.poutAncCnt n) 16 16 dropped u = v := ⟨_, rfl⟩
    have hvcalm : OutCalm n [Reg.poutAncCnt n] u v := hv ▸ outCalm_bump ..
    have hv0 : getF v (Reg.poutAncCnt n) 0 16 = getF u (Reg.poutAncCnt n) 0 16 := by rw [← hv, getF_bump_fld _ _ _ (by decide) (.inl (by decide))]
    have hv16 : getF v (Reg.poutAncCnt n) 16 16 = min 65535 (getF u (Reg.poutAncCnt n) 16 16 + dropped) := by rw [← hv, getF_bump16 _ _ _ (by decide)]
    have hvtrack : outTrack v n = outTrack u n := by rw [← hv, outTrack_congr (bump_port ..)]
    have hvstatus : rd v (Reg.poutStatus n) = rd u (Reg.poutStatus n) := hvcalm.regs _ (by simpa using hcnt.symm)
    rw [hv]
    obtain ⟨hframe, hflag, hset, hfields⟩ := flagOnce_spec (src := Src.quad (n / 288) 1) (inst := n % 288) (a := Reg.poutStatus n) (b := 7) v (by decide)
    have hout := outTrack_flagOnce (Src.quad (n / 288) 1) (n % 288) (Reg.poutStatus n) 7 n v (by decide)
    have hkeep := hflag (Reg.poutAncCnt n) (by simpa using hcnt)
    refine ⟨((hucalm.trans hvcalm).mono (by simp)).trans (OutCalm.mono (.of_regs hframe hflag) (by simp)), ?_, ?_, ?_, ?_, ?_⟩
    · exact (FieldsBut.of_rd (hvstatus.trans hustatus)).trans hfields
    · rw [hset, decide_eq_true h0, Bool.or_true]
    · rw [getF, hkeep, ← getF, hv0, hu0]
    · rw [getF, hkeep, ← getF, hv16, hu16]
    · rw [hout, hvtrack, hutrack]

/-! ## What a line shows (R145, R148, R150, R151) -/

theorem safeKind_cases (s : State) (n : Nat) (line : Bool) :
    safeKind s n line = .black ∨ safeKind s n line = .slate (safeEntry s n / 16 % 4096) ∨ safeKind s n line = .freeze := by
  unfold safeKind
  dsimp only
  split
  · split
    · exact .inr (.inl rfl)
    · exact .inl rfl
  · split
    · split
      · exact .inr (.inr rfl)
      · exact .inl rfl
    · exact .inl rfl

theorem safeKind_black {s : State} {n : Nat} (line : Bool) (h : safeEntry s n % 4 = 0) : safeKind s n line = .black := by
  unfold safeKind
  dsimp only
  rw [h, if_neg (by decide), if_neg (by decide)]

/-- Safe or replaced content, outside SERVICE. -/
theorem lineKind_safe {s : State} {n : Nat} {safe repl : Bool} (hm : modeNow s ≠ 5) (h : repl = true ∨ safe = true) : lineKind s n safe repl = safeKind s n (!safe) := by
  unfold lineKind
  rw [if_neg hm]
  cases safe with
  | true => rfl
  | false =>
    obtain rfl : repl = true := by simpa using h
    rfl

theorem lineKind_words {s : State} {n : Nat} (hm : modeNow s ≠ 5) (h : srcTask s n = none) : lineKind s n false false = .words := by
  unfold lineKind
  rw [if_neg hm, h]
  rfl

/-- What a line shows, with the word of a store that its stack has lost. -/
def shownKind (n : Nat) (safe repl : Bool) (s : State) : LineKind := if (outTrack s n).dark ∧ (safe || repl) then .black else lineKind s n safe repl

theorem shownKind_cases {n : Nat} {safe repl : Bool} {s : State} (hm : modeNow s ≠ 5) (h : repl = true ∨ safe = true) :
    shownKind n safe repl s = .black ∨ shownKind n safe repl s = .slate (safeEntry s n / 16 % 4096) ∨ shownKind n safe repl s = .freeze := by
  unfold shownKind
  split
  · exact .inl rfl
  · rw [lineKind_safe hm h]
    exact safeKind_cases ..

theorem shownKind_black {n : Nat} {safe repl : Bool} {s : State} (hm : modeNow s ≠ 5) (h : repl = true ∨ safe = true) (he : safeEntry s n % 4 = 0 ∨ (outTrack s n).dark = true) :
    shownKind n safe repl s = .black := by
  have hany : (safe || repl) = true := by
    obtain h | h := h
    · rw [h, Bool.or_true]
    · rw [h, Bool.true_or]
  unfold shownKind
  split
  · rfl
  next hd =>
    rw [lineKind_safe hm h]
    exact safeKind_black _ (he.resolve_right fun hdark => hd ⟨hdark, hany⟩)

theorem shownKind_words {n : Nat} {s : State} (hm : modeNow s ≠ 5) (h : srcTask s n = none) : shownKind n false false s = .words := by
  unfold shownKind
  rw [if_neg fun hd => absurd hd.2 (by decide)]
  exact lineKind_words hm h

/-! ## A line leaves (R142 to R145) -/

/-- The line that output `n` sends, before its delay line. -/
def leavingLine (n : Nat) (c : OutCfg) (l : OutLine) (kind : LineKind) (safe internal : Bool) (crossed : List AncPkt) (s : State) : SentLine :=
  { number := l.number, kind := kind, pic := linePic s n l kind, anc := ancStay s n c l kind ++ crossed,
    vpid := if vpidLine c.fmt l.number then some c.fmt.vpid else none, audio := outAudio s n c safe, invalid := false, internal := internal }

/-- The timecode task's packets and the cross-routed ones of a line: those that fit, and those that do not. -/
def lineFit (n : Nat) (c : OutCfg) (l : OutLine) (s : State) : List AncPkt × List AncPkt := ancFit l.room (ancTime s n c l ++ ancDue s n l)

/-- The packets of a line are counted but for the timecode task's own. -/
def lineCrossed (n : Nat) (c : OutCfg) (l : OutLine) (s : State) : State :=
  outAncCount n ((lineFit n c l s).1.filter fun p => decide (p ∉ ancTime s n c l)).length (lineFit n c l s).2.length s

/-- A line replaced or not, as its group's register shows it. -/
def lineShown (n : Nat) (safe repl : Bool) (s : State) : State := setMissing false n repl (decide (shownKind n safe repl s = .freeze)) s

/-- A line of output `n` up to the end of its frame. -/
def lineLeft (n : Nat) (c : OutCfg) (l : OutLine) (s : State) : State :=
  let u := lineStarted n c l s
  let safe := outSafe u n
  let repl := (outTrack u n).invalid && !safe
  let v := lineReplaced n repl u
  let w := lineShown n safe repl v
  let x := lineCrossed n c l w
  outEmit n (leavingLine n c l (shownKind n safe repl v) safe (repl && (outTrack s n).internal) (lineFit n c l w).1 x) x

theorem outLine_eq {n : Nat} {c : OutCfg} {s : State} (l : OutLine) (h : outCfg? s n = some c) :
    outLine n l s = if c.fmt.lines ≤ l.number then outFrameEnd n (lineLeft n c l s) else lineLeft n c l s := by
  unfold outLine
  rw [h]
  rfl

theorem outLine_none {n : Nat} {s : State} (l : OutLine) (h : outCfg? s n = none) : outLine n l s = s := by
  unfold outLine
  rw [h]

theorem ancFit_nil (room : List Nat) : ancFit room [] = ([], []) := by
  unfold ancFit
  rfl

theorem ancTime_none {s : State} {n : Nat} {c : OutCfg} (l : OutLine) (h : c.timecode = false) : ancTime s n c l = [] := by
  unfold ancTime
  rw [if_neg (by simp [h])]

theorem lineFit_due {s : State} {n : Nat} {c : OutCfg} (l : OutLine) (h : c.timecode = false) : lineFit n c l s = ancFit l.room (ancDue s n l) := by
  rw [lineFit, ancTime_none l h, List.nil_append]

theorem ancDue_uncrossed {s : State} {n : Nat} (l : OutLine) (h : ancCross s n = false) : ancDue s n l = [] := by
  unfold ancDue
  rw [if_neg (by simp [h])]

theorem ancStay_nil {s : State} {n : Nat} {c : OutCfg} {l : OutLine} {kind : LineKind} (h : kind ≠ .words) : ancStay s n c l kind = [] := by
  unfold ancStay
  rw [if_neg fun hh => h hh.1]

/-- The groups that an output embeds, and the slots of each. -/
theorem outAudio_eq (s : State) (n : Nat) (c : OutCfg) (silent : Bool) : outAudio s n c silent =
    ((List.range 8).filter fun g => decide (c.embed / 2 ^ g % 2 = 1)).map fun g =>
      (g + 1, (List.range 4).map fun i => if silent = true then 0 else tabGet 0 (32 * n + 4 * g + i) s.aud.out) := by
  have h8 : upto 1 8 = (List.range 8).map (· + 1) := rfl
  rw [outAudio, h8, List.filter_map, List.map_map]
  rfl

/-- The line that has left an output, with no delay. -/
structure LineSent (n : Nat) (c : OutCfg) (l : OutLine) (safe repl : Bool) (s : State) (y : SentLine) : Prop where
  number : y.number = l.number
  invalid : y.invalid = (outTrack s n).spoilt
  internal : y.internal = (repl && (outTrack s n).internal)
  vpid : y.vpid = if vpidLine c.fmt l.number = true then some c.fmt.vpid else none
  audio : y.audio = outAudio s n c safe
  safeShown : modeNow s ≠ 5 → repl = true ∨ safe = true → y.kind = .black ∨ y.kind = .slate (safeEntry s n / 16 % 4096) ∨ y.kind = .freeze
  black : modeNow s ≠ 5 → repl = true ∨ safe = true → safeEntry s n % 4 = 0 ∨ (outTrack s n).dark = true → y.kind = .black
  words : modeNow s ≠ 5 → repl = false → safe = false → srcTask s n = none → y.kind = .words
  anc : y.kind ≠ .words → c.timecode = false → ancCross s n = false → y.anc = []

/-! ## A line up to the end of its frame -/

/-- A line of output `n` has been formed, replaced or not: what moved, what was counted, and what stands in the output's track. -/
structure LineFormed (n : Nat) (c : OutCfg) (l : OutLine) (repl : Bool) (s t : State) : Prop extends OutMoves n (pipeRegs n ++ penaltyRegs (n / 288)) s t where
  calm : (outTrack s n).internal = false ∨ airOut s n = false → OutCalm n (pipeRegs n) s t
  lines : (rd t (Reg.poutLinesRepl n)).toNat = min (2 ^ 32 - 1) ((rd s (Reg.poutLinesRepl n)).toNat + if repl = true then 1 else 0)
  seen : getB t (Reg.poutStatus n) 6 = (getB s (Reg.poutStatus n) 6 || repl)
  enabled : getB t (Reg.poutStatus n) 5 = if l.number = 1 then (outColour s n).any fun e => decide (e.flags % 2 = 1) else getB s (Reg.poutStatus n) 5
  fields : ∀ lo m, lo + m ≤ 5 → getF t (Reg.poutStatus n) lo m = getF s (Reg.poutStatus n) lo m
  crossed : c.timecode = false → let fit := ancFit l.room (ancDue s n l)
    getF t (Reg.poutAncCnt n) 0 16 = min 65535 (getF s (Reg.poutAncCnt n) 0 16 + fit.1.length)
      ∧ getF t (Reg.poutAncCnt n) 16 16 = min 65535 (getF s (Reg.poutAncCnt n) 16 16 + fit.2.length)
      ∧ getB t (Reg.poutStatus n) 7 = (getB s (Reg.poutStatus n) 7 || decide (fit.2.length ≠ 0))
  colour : (outTrack t n).colour = if l.number = 1 then outColour s n else (outTrack s n).colour
  replNow : (outTrack t n).replNow = ((outTrack s n).replNow || repl)
  pattern : (outTrack t n).pattern = (outTrack s n).pattern

theorem replRegs_subset (n : Nat) : replRegs n ++ penaltyRegs (n / 288) ⊆ pipeRegs n ++ penaltyRegs (n / 288) :=
  have hrepl : replRegs n ⊆ pipeRegs n := by simp [replRegs, pipeRegs]
  List.append_subset.2 ⟨List.Subset.trans hrepl (List.subset_append_left _ _), List.subset_append_right _ _⟩

/-- A line is formed in steps that each leave the others' registers and fields alone. -/
theorem lineFormed_steps {n : Nat} {c : OutCfg} {l : OutLine} {repl : Bool} {s u v w x : State} (hn : n < 1152) (hstart : LineStarted n l s u) (hrepl : LineReplaced n repl u v)
    (hshown : GroupNoted n v w) (hcross : CrossCounted n ((lineFit n c l w).1.filter fun p => decide (p ∉ ancTime w n c l)).length (lineFit n c l w).2.length w x)
    (hdue : ancDue w n l = ancDue s n l) : LineFormed n c l repl s x := by
  obtain ⟨hlr, har, hal, hgr, hgl, hga⟩ := pipeRegs_apart n
  have hutrack := hstart.track
  have hvtrack := hrepl.track
  have hwtrack := hshown.track
  have hwstatus : rd w (Reg.poutStatus n) = rd v (Reg.poutStatus n) := hshown.regs _ (by simpa using hgr.symm)
  have hulines : rd u (Reg.poutLinesRepl n) = rd s (Reg.poutLinesRepl n) := hstart.regs _ (by simpa using hlr)
  have hxlines : rd x (Reg.poutLinesRepl n) = rd v (Reg.poutLinesRepl n) := (hcross.regs _ (by simp [hlr, hal.symm])).trans (hshown.regs _ (by simpa using hgl.symm))
  have hanc : ∀ lo, getF w (Reg.poutAncCnt n) lo 16 = getF s (Reg.poutAncCnt n) lo 16 := fun lo => by
    have hpen := penaltyRegs_apart hn (n / 288) (Reg.poutAncCnt n) (by simp [pipeRegs])
    rw [getF, hshown.regs _ (by simpa using hga.symm), hrepl.regs _ (by simp [replRegs, har, hal, hpen]), hstart.regs _ (by simpa using har), ← getF]
  have hstatus : ∀ lo m, (lo + m ≤ 6 ∨ 7 ≤ lo) → (lo + m ≤ 7 ∨ 8 ≤ lo) → getF x (Reg.poutStatus n) lo m = getF u (Reg.poutStatus n) lo m := fun lo m h6 h7 => by
    rw [hcross.fields lo m h7, getF, hwstatus, ← getF, hrepl.fields lo m h6]
  have hseen : getB w (Reg.poutStatus n) 6 = (getB u (Reg.poutStatus n) 6 || repl) := by rw [getB, hwstatus, ← getB, hrepl.seen]
  have hflag : getB w (Reg.poutStatus n) 7 = getB s (Reg.poutStatus n) 7 := by
    rw [getB_eq_getF, getF, hwstatus, ← getF, hrepl.fields 7 1 (.inr (by decide)), hstart.fields 7 1 (.inr (by decide)), ← getB_eq_getF]
  have hmoves := (hstart.toOutMoves.mono (by simp [pipeRegs])).trans (hrepl.toOutMoves.mono (replRegs_subset n))
  refine ⟨(hmoves.trans (hshown.toOutMoves.mono (by simp [pipeRegs]))).trans (hcross.toOutMoves.mono (by simp [pipeRegs])), fun hcalm => ?_, ?_, ?_, ?_, fun lo m h => ?_, fun htc => ?_, ?_, ?_, ?_⟩
  · have hquiet := hrepl.calm (by rw [hutrack, airOut_congr hstart.plan]; exact hcalm)
    exact (((hstart.toOutCalm.mono (by simp [pipeRegs])).trans (hquiet.mono (by simp [replRegs, pipeRegs]))).trans (hshown.toOutCalm.mono (by simp [pipeRegs]))).trans
      (hcross.toOutCalm.mono (by simp [pipeRegs]))
  · rw [hxlines, hrepl.count, hulines]
  · rw [getB_eq_getF, hcross.fields 6 1 (.inl (by decide)), ← getB_eq_getF, hseen, getB_eq_getF, hstart.fields 6 1 (.inr (by decide)), ← getB_eq_getF]
  · rw [getB_eq_getF, hstatus 5 1 (.inl (by decide)) (.inl (by decide)), ← getB_eq_getF, hstart.enabled]
  · rw [hstatus lo m (.inl (by omega)) (.inl (by omega)), hstart.fields lo m (.inl h)]
  · have hins := hcross.inserted
    have hdrop := hcross.dropped
    have hflagged := hcross.flag
    rw [lineFit_due l htc, hdue, ancTime_none l htc] at hins
    rw [lineFit_due l htc, hdue] at hdrop hflagged
    rw [hflag] at hflagged
    rw [hanc] at hins hdrop
    exact ⟨by simpa using hins, hdrop, hflagged⟩
  · rw [hcross.track, hwtrack, hvtrack, hutrack]
  · rw [hcross.track, hwtrack, hvtrack, hutrack]
  · rw [hcross.track, hwtrack, hvtrack, hutrack]

/-- What a line is decided by before it leaves: its content, its cross-routed packets, and the rest, each on a state of its making. -/
structure LineDecided (n : Nat) (s v w x : State) : Prop where
  content : Decides n s v
  packets : Decides n s w
  rest : Decides n s x
  dark : (outTrack v n).dark = (outTrack s n).dark
  spoilt : (outTrack x n).spoilt = (outTrack s n).spoilt

theorem lineLeft_eq {n : Nat} (hn : n < 1152) (c : OutCfg) (l : OutLine) {safe repl : Bool} {s : State} (hsafe : outSafe s n = safe) (hrepl : ((outTrack s n).invalid && !safe) = repl) :
    ∃ v w x, lineLeft n c l s = outEmit n (leavingLine n c l (shownKind n safe repl v) safe (repl && (outTrack s n).internal) (lineFit n c l w).1 x) x
      ∧ LineDecided n s v w x ∧ LineFormed n c l repl s x := by
  have hstart := lineStarted_spec n c l s
  obtain ⟨u, hu⟩ : ∃ u, lineStarted n c l s = u := ⟨_, rfl⟩
  rw [hu] at hstart
  have hutrack := hstart.track
  have hud : Decides n s u := hstart.toOutMoves.decides hn (by simp [pipeRegs]) (by rw [hutrack])
  have hinv : (outTrack u n).invalid = (outTrack s n).invalid := by rw [hutrack]
  have hreplaced := lineReplaced_spec hn repl u
  obtain ⟨v, hv⟩ : ∃ v, lineReplaced n repl u = v := ⟨_, rfl⟩
  rw [hv] at hreplaced
  have hvtrack := hreplaced.track
  have hvd : Decides n s v := hud.trans (hreplaced.toOutMoves.decides hn (replRegs_subset n) (by rw [hvtrack]))
  have hshown := groupNoted_setMissing n repl (decide (shownKind n safe repl v = .freeze)) v
  obtain ⟨w, hw⟩ : ∃ w, lineShown n safe repl v = w := ⟨_, rfl⟩
  rw [← lineShown, hw] at hshown
  have hwtrack := hshown.track
  have hwd : Decides n s w := hvd.trans (hshown.toOutMoves.decides hn (by simp [pipeRegs]) (by rw [hwtrack]))
  have hcross := crossCounted_outAncCount n ((lineFit n c l w).1.filter fun p => decide (p ∉ ancTime w n c l)).length (lineFit n c l w).2.length w
  obtain ⟨x, hx⟩ : ∃ x, lineCrossed n c l w = x := ⟨_, rfl⟩
  rw [← lineCrossed, hx] at hcross
  have hxd : Decides n s x := hwd.trans (hcross.toOutMoves.decides hn (by simp [pipeRegs]) (by rw [hcross.track]))
  refine ⟨v, w, x, ?_, ⟨hvd, hwd, hxd, ?_, ?_⟩, lineFormed_steps hn hstart hreplaced hshown hcross (hwd.ancDue l)⟩
  · rw [lineLeft, hu, hud.outSafe, hsafe, hinv, hrepl, hv, hw, hx]
  · rw [hvtrack, hutrack]
  · rw [hcross.track, hwtrack, hvtrack, hutrack]

/-- A line of output `n` has left: its words' marks are spent. -/
structure LineLeft (n : Nat) (c : OutCfg) (l : OutLine) (safe repl : Bool) (s t : State) : Prop extends LineFormed n c l repl s t where
  marks : (outTrack t n).invalid = false ∧ (outTrack t n).internal = false
  sent : delayNow s n = 0 → ∃ y, (outTrack t n).sent = some y ∧ LineSent n c l safe repl s y

/-- The track of an output that a line leaves. -/
theorem outTrack_outEmit (n : Nat) (x : SentLine) (s : State) : outTrack (outEmit n x s) n = { outTrack s n with
    cur := (outTrack (outEmit n x s) n).cur, sent := some { delayed s n x with invalid := (delayed s n x).invalid || (outTrack s n).spoilt },
    recent := (outTrack (outEmit n x s) n).recent, ancNow := (outTrack (outEmit n x s) n).ancNow, spoilt := false, dark := false, invalid := false, internal := false } := by
  rw [outEmit, outTrack_putOut_same]

theorem outCalm_outEmit (n : Nat) (as : List Nat) (x : SentLine) (s : State) : OutCalm n as s (outEmit n x s) := outCalm_putOut ..

/-- The line that leaves is the one that its output has formed. -/
theorem lineSent_leavingLine {n : Nat} {c : OutCfg} {l : OutLine} {safe repl spoilt : Bool} {s v w x : State} (h : LineDecided n s v w x) (hspoilt : spoilt = (outTrack s n).spoilt) :
    LineSent n c l safe repl s { leavingLine n c l (shownKind n safe repl v) safe (repl && (outTrack s n).internal) (lineFit n c l w).1 x with invalid := spoilt } := by
  obtain ⟨hv, hw, hx, hdark, -⟩ := h
  refine ⟨rfl, hspoilt, rfl, rfl, hx.outAudio c safe, fun hm hr => ?_, fun hm hr he => ?_, fun hm hr hs ht => ?_, fun hk htc hc => ?_⟩
  · rw [← hv.safeEntry]
    exact shownKind_cases (by rw [hv.modeNow]; exact hm) hr
  · exact shownKind_black (by rw [hv.modeNow]; exact hm) hr (by rw [hv.safeEntry, hdark]; exact he)
  · rw [hr, hs]
    exact shownKind_words (by rw [hv.modeNow]; exact hm) (by rw [hv.srcTask, ht])
  · have hdue : ancDue w n l = [] := by rw [hw.ancDue, ancDue_uncrossed l hc]
    change ancStay x n c l (shownKind n safe repl v) ++ (lineFit n c l w).1 = []
    rw [ancStay_nil (kind := shownKind n safe repl v) hk, lineFit_due l htc, hdue, ancFit_nil]
    rfl

theorem LineFormed.emitted {n : Nat} {c : OutCfg} {l : OutLine} {repl : Bool} {s x : State} (h : LineFormed n c l repl s x) (y : SentLine) : LineFormed n c l repl s (outEmit n y x) := by
  have hemit := outCalm_outEmit n [] y x
  have htrack := outTrack_outEmit n y x
  have hregs : ∀ a, rd (outEmit n y x) a = rd x a := fun a => hemit.regs a (by simp)
  obtain ⟨t, ht⟩ : ∃ t, outEmit n y x = t := ⟨_, rfl⟩
  rw [ht] at hemit htrack hregs ⊢
  have hfld : ∀ a lo m, getF t a lo m = getF x a lo m := fun a lo m => by rw [getF, hregs, ← getF]
  have hbit : ∀ a b, getB t a b = getB x a b := fun a b => by rw [getB, hregs, ← getB]
  refine ⟨h.toOutMoves.trans (hemit.toOutMoves.mono (by simp)), fun hc => (h.calm hc).trans (hemit.mono (by simp)), ?_, ?_, ?_, fun lo m hl => ?_, fun htc => ?_, ?_, ?_, ?_⟩
  · rw [hregs, h.lines]
  · rw [hbit, h.seen]
  · rw [hbit, h.enabled]
  · rw [hfld, h.fields lo m hl]
  · rw [hfld, hfld, hbit]
    exact h.crossed htc
  · rw [htrack, ← h.colour]
  · rw [htrack, ← h.replNow]
  · rw [htrack, ← h.pattern]

theorem lineLeft_spec {n : Nat} (hn : n < 1152) (c : OutCfg) (l : OutLine) {safe repl : Bool} {s : State} (hsafe : outSafe s n = safe) (hrepl : ((outTrack s n).invalid && !safe) = repl) :
    LineLeft n c l safe repl s (lineLeft n c l s) := by
  obtain ⟨v, w, x, heq, hdecided, hformed⟩ := lineLeft_eq hn c l hsafe hrepl
  obtain ⟨y, hy⟩ : ∃ y, leavingLine n c l (shownKind n safe repl v) safe (repl && (outTrack s n).internal) (lineFit n c l w).1 x = y := ⟨_, rfl⟩
  have htrack := outTrack_outEmit n y x
  rw [heq, hy]
  refine ⟨hformed.emitted y, ?_, fun hdelay => ?_⟩
  · rw [htrack]
    exact ⟨rfl, rfl⟩
  · have hthrough : delayed x n y = y := if_pos (hdecided.rest.delayNow.trans hdelay)
    have hsent := lineSent_leavingLine (c := c) (l := l) (safe := safe) (repl := repl) hdecided hdecided.spoilt
    rw [htrack, hthrough]
    rw [hy] at hsent
    refine ⟨_, rfl, ?_⟩
    have hclean : (y.invalid || (outTrack x n).spoilt) = (outTrack x n).spoilt := by
      rw [← hy]
      rfl
    rw [hclean]
    exact hsent

/-! ## The delay line at the end of a frame (04_frame_stores.md R184, R197) -/

/-- A completion moves the reply ring's state only, or what the pair relays. -/
theorem completeAt_frame (c : Cmd) (status detail frame : Nat) (result : List (Nat × Nat)) (s : State) : let t := completeAt c status detail frame result s
    t = { s with regs := t.regs, cmd := t.cmd, pair := t.pair } ∧ RegsBut [Reg.cmdStatus] s t := by
  intro t
  cases ho : c.origin with
  | host =>
    obtain ⟨hframe, -, hregs, -⟩ := completeAt_host c status detail frame result s ho
    refine ⟨?_, fun a ha => hregs a (by simpa using ha)⟩
    exact hframe.trans (by rw [show (completeAt c status detail frame result s).pair = s.pair by rw [hframe]])
  | forward =>
    have ht : t = s := by
      simp only [t, completeAt, ho]
    rw [ht]
    exact ⟨rfl, .refl _ _⟩
  | relay =>
    obtain ⟨p, hp⟩ : ∃ p, t = { s with pair := p } := ⟨_, by simp only [t, completeAt, ho]; rfl⟩
    rw [hp]
    exact ⟨rfl, .refl _ _⟩

/-- Work on output `n` at the end of a frame: besides registers, events and its track, a `DELAY_SET` that is due may take effect and complete. -/
structure OutEnds (n : Nat) (as : List Nat) (s t : State) : Prop where
  frame : t = { s with regs := t.regs, evq := t.evq, port := { s.port with outs := t.port.outs }, pair := t.pair, cmd := t.cmd, sched := t.sched, mem := { s.mem with delays := t.mem.delays } }
  regs : RegsBut as s t
  others : ∀ m, m ≠ n → outTrack t m = outTrack s m

namespace OutEnds

theorem trans {n : Nat} {as : List Nat} {s u t : State} (h1 : OutEnds n as s u) (h2 : OutEnds n as u t) : OutEnds n as s t := by
  refine ⟨?_, h1.regs.trans h2.regs, fun m hm => (h2.others m hm).trans (h1.others m hm)⟩
  have h := h2.frame
  rw [h1.frame] at h
  exact h

theorem mono {n : Nat} {as bs : List Nat} {s t : State} (h : OutEnds n as s t) (hs : as ⊆ bs) : OutEnds n bs s t := ⟨h.frame, h.regs.mono hs, h.others⟩

end OutEnds

theorem OutMoves.ends {n : Nat} {as : List Nat} {s t : State} (h : OutMoves n as s t) : OutEnds n as s t := by
  refine ⟨?_, h.regs, h.others⟩
  rw [h.frame]

/-- The delay line of output `n` takes in a frame. -/
def delayTaken (n : Nat) (frame : List SentLine) (s : State) : State :=
  let u := putF (Reg.dlyStatus n) 16 5 (min (delayDepth s n) (getF s (Reg.dlyStatus n) 16 5 + 1)) s
  if delayDepth s n = 0 then u else putOut n { outTrack u n with past := (frame :: (outTrack u n).past).take (delayDepth s n) } u

/-- A scheduled `DELAY_SET` of output `n` whose frame has started. -/
def delayMine (n now : Nat) (x : Sched) : Bool :=
  match x.cmd.pkt.body with
  | .delaySet o _ => decide (o = n) && decide (x.start ≤ now)
  | _ => false

/-- A `DELAY_SET` of output `n` that is still to come. -/
def delayAwaits (n : Nat) (x : Sched) : Bool :=
  match x.cmd.pkt.body with
  | .delaySet o _ => decide (o = n)
  | _ => false

/-- The delay that a command asks for. -/
def delayAsked (x : Sched) : Nat :=
  match x.cmd.pkt.body with
  | .delaySet _ d => d
  | _ => 0

/-- A `DELAY_SET` is no longer scheduled: its delay is that of the output. -/
def delayReleased (n : Nat) (x : Sched) (s : State) : State := { s with sched := s.sched.erase x, mem := { s.mem with delays := tabSet 0 n (delayAsked x) s.mem.delays } }

/-- A `DELAY_SET` takes effect. -/
def delayApplied (n : Nat) (x : Sched) (s : State) : State :=
  let u := delayReleased n x s
  completeAt x.cmd St.ok 0 x.frame x.result (putF (Reg.dlyStatus n) 8 5 (delayAsked x) (putB (Reg.dlyStatus n) 13 (u.sched.any (delayAwaits n)) u))

theorem delayFrame_eq (n : Nat) (frame : List SentLine) (s : State) : delayFrame n frame s =
    let u := delayTaken n frame s
    match u.sched.find? (delayMine n u.now) with
    | none => u
    | some x => delayApplied n x u := rfl

/-- A frame has gone through the delay line of output `n`. -/
structure FrameDelayed (n : Nat) (s t : State) : Prop extends OutEnds n [Reg.dlyStatus n, Reg.cmdStatus] s t where
  idle : s.sched = [] → OutCalm n [Reg.dlyStatus n] s t
  track : outTrack t n = { outTrack s n with past := (outTrack t n).past }

theorem delayTaken_spec (n : Nat) (frame : List SentLine) (s : State) :
    OutCalm n [Reg.dlyStatus n] s (delayTaken n frame s) ∧ outTrack (delayTaken n frame s) n = { outTrack s n with past := (outTrack (delayTaken n frame s) n).past } := by
  unfold delayTaken
  obtain ⟨u, hu⟩ : ∃ u, putF (Reg.dlyStatus n) 16 5 (min (delayDepth s n) (getF s (Reg.dlyStatus n) 16 5 + 1)) s = u := ⟨_, rfl⟩
  have hput : OutCalm n [Reg.dlyStatus n] s u := hu ▸ outCalm_putF ..
  have htrack : outTrack u n = outTrack s n := by rw [← hu, outTrack_congr (putF_port ..)]
  dsimp only
  rw [hu]
  split
  · exact ⟨hput, by rw [htrack]⟩
  · refine ⟨hput.trans (outCalm_putOut ..), ?_⟩
    rw [outTrack_putOut_same, htrack]

theorem delayApplied_spec (n : Nat) (x : Sched) (s : State) :
    OutEnds n [Reg.dlyStatus n, Reg.cmdStatus] s (delayApplied n x s) ∧ outTrack (delayApplied n x s) n = outTrack s n := by
  unfold delayApplied
  dsimp only
  have htaken : OutEnds n [Reg.dlyStatus n, Reg.cmdStatus] s (delayReleased n x s) := ⟨rfl, .refl _ _, fun _ _ => rfl⟩
  have htrack : outTrack (delayReleased n x s) n = outTrack s n := rfl
  obtain ⟨u, hu⟩ : ∃ u, delayReleased n x s = u := ⟨_, rfl⟩
  rw [hu] at htaken htrack ⊢
  have hput := (outCalm_putB n (Reg.dlyStatus n) 13 (u.sched.any (delayAwaits n)) u).trans (outCalm_putF n (Reg.dlyStatus n) 8 5 (delayAsked x) _)
  obtain ⟨v, hv⟩ : ∃ v, putF (Reg.dlyStatus n) 8 5 (delayAsked x) (putB (Reg.dlyStatus n) 13 (u.sched.any (delayAwaits n)) u) = v := ⟨_, rfl⟩
  have hvtrack : outTrack v n = outTrack u n := by rw [← hv, outTrack_congr (putF_port ..), outTrack_congr (putB_port ..)]
  rw [hv] at hput ⊢
  obtain ⟨hframe, hregs⟩ := completeAt_frame x.cmd St.ok 0 x.frame x.result v
  obtain ⟨t, ht⟩ : ∃ t, completeAt x.cmd St.ok 0 x.frame x.result v = t := ⟨_, rfl⟩
  rw [ht] at hframe hregs ⊢
  have hport : t.port = v.port := by rw [hframe]
  refine ⟨(htaken.trans (hput.toOutMoves.ends.mono (by simp))).trans ⟨?_, hregs.mono (by simp), fun m _ => outTrack_congr hport m⟩, ?_⟩
  · rw [hframe]
  · rw [outTrack_congr hport, hvtrack, htrack]

theorem frameDelayed_delayFrame (n : Nat) (frame : List SentLine) (s : State) : FrameDelayed n s (delayFrame n frame s) := by
  obtain ⟨hcalm, htrack⟩ := delayTaken_spec n frame s
  obtain ⟨u, hu⟩ : ∃ u, delayTaken n frame s = u := ⟨_, rfl⟩
  rw [delayFrame_eq, hu]
  rw [hu] at hcalm htrack
  have hsched : u.sched = s.sched := by rw [hcalm.frame]
  dsimp only
  cases hfind : u.sched.find? (delayMine n u.now) with
  | none => exact ⟨hcalm.toOutMoves.ends.mono (by simp), fun _ => hcalm, htrack⟩
  | some x =>
    obtain ⟨hends, hsame⟩ := delayApplied_spec n x u
    refine ⟨(hcalm.toOutMoves.ends.mono (by simp)).trans hends, fun hnone => ?_, ?_⟩
    · rw [hsched, hnone] at hfind
      cases hfind
    · dsimp only
      rw [hsame, htrack]

/-! ## The last line of a frame (R150, R162) -/

/-- STATE of an output after a frame. -/
def frameShown (safe replNow : Bool) : Nat := if safe = true then 3 else if replNow = true then 2 else 1

/-- The track of an output at the end of a frame. -/
def endedTrack (good : Bool) (t : OutTrack) : OutTrack :=
  { t with replNow := false, cur := [], good := if good then some t.cur.reverse else t.good, ancFrame := t.frameNo, ancLast := t.ancNow, ancNow := [] }

/-- STATE of an output at the end of a frame. -/
def frameStated (n : Nat) (s : State) : State :=
  stateEvent (Src.quad (n / 288) 1) (n % 288) (Reg.poutStatus n) 0 2 (frameShown (outSafe s n) (outTrack s n).replNow) s

/-- GOOD_FRAME is set once the output's store has a good frame. -/
def goodNoted (n : Nat) (good : Bool) (s : State) : State := if good then putB (Reg.poutStatus n) 4 true s else s

theorem outFrameEnd_eq (n : Nat) (s : State) : outFrameEnd n s =
    let u := frameStated n s
    let good := outStore u n && !(outTrack s n).replNow && !outSafe s n
    delayFrame n (outTrack s n).cur.reverse (putOut n (endedTrack good (outTrack s n)) (goodNoted n good u)) := rfl

/-- A frame of output `n` has ended. -/
structure FrameEnded (n : Nat) (s t : State) : Prop extends OutEnds n [Reg.poutStatus n, Reg.dlyStatus n, Reg.cmdStatus] s t where
  idle : s.sched = [] → OutCalm n [Reg.poutStatus n, Reg.dlyStatus n] s t
  state : getF t (Reg.poutStatus n) 0 2 = frameShown (outSafe s n) (outTrack s n).replNow
  good : getB t (Reg.poutStatus n) 4 = (getB s (Reg.poutStatus n) 4 || (outStore s n && !(outTrack s n).replNow && !outSafe s n))
  fields : ∀ lo m, 5 ≤ lo → getF t (Reg.poutStatus n) lo m = getF s (Reg.poutStatus n) lo m
  track : outTrack t n = { endedTrack (outStore s n && !(outTrack s n).replNow && !outSafe s n) (outTrack s n) with past := (outTrack t n).past }

theorem frameShown_lt (safe replNow : Bool) : frameShown safe replNow < 4 := by
  unfold frameShown
  repeat' split
  all_goals decide

theorem dlyStatus_apart (n : Nat) : Reg.poutStatus n ≠ Reg.dlyStatus n ∧ Reg.poutStatus n ≠ Reg.cmdStatus := by
  simp only [Reg.poutStatus, Reg.dlyStatus, Reg.cmdStatus]
  omega

theorem frameStated_spec (n : Nat) (s : State) : OutCalm n [Reg.poutStatus n] s (frameStated n s)
    ∧ getF (frameStated n s) (Reg.poutStatus n) 0 2 = frameShown (outSafe s n) (outTrack s n).replNow
    ∧ ∀ lo m, 2 ≤ lo → getF (frameStated n s) (Reg.poutStatus n) lo m = getF s (Reg.poutStatus n) lo m := by
  obtain ⟨-, hrd⟩ := stateEvent_spec (Src.quad (n / 288) 1) (n % 288) (Reg.poutStatus n) 0 2 (frameShown (outSafe s n) (outTrack s n).replNow) s
  rw [← frameStated] at hrd
  refine ⟨outCalm_stateEvent .., ?_, fun lo m h => ?_⟩
  · rw [getF, hrd, ← getF, getF_putF_same _ _ _ (by decide)]
    exact Nat.mod_eq_of_lt (frameShown_lt ..)
  · rw [getF, hrd, ← getF, getF_putF_fld _ _ _ (by decide) (.inr h)]

theorem goodNoted_spec (n : Nat) (good : Bool) (s : State) : OutCalm n [Reg.poutStatus n] s (goodNoted n good s)
    ∧ getB (goodNoted n good s) (Reg.poutStatus n) 4 = (getB s (Reg.poutStatus n) 4 || good) ∧ FieldsBut (Reg.poutStatus n) 4 s (goodNoted n good s) := by
  cases good with
  | false => exact ⟨.refl .., (Bool.or_false _).symm, .refl _ _ _⟩
  | true => exact ⟨outCalm_putB .., (getB_putB_same _ _ _ (by decide)).trans (Bool.or_true _).symm, fun lo m h => getF_putB_fld _ _ _ (by decide) h⟩

theorem frameEnded_outFrameEnd (n : Nat) (s : State) : FrameEnded n s (outFrameEnd n s) := by
  obtain ⟨hcalm, hstate, hfields⟩ := frameStated_spec n s
  rw [outFrameEnd_eq]
  obtain ⟨u, hu⟩ : ∃ u, frameStated n s = u := ⟨_, rfl⟩
  rw [hu] at hcalm hstate hfields ⊢
  have hstore : outStore u n = outStore s n := by
    unfold outStore destMem?
    rw [hcalm.plan]
  dsimp only
  rw [hstore]
  obtain ⟨good, hgood⟩ : ∃ good, (outStore s n && !(outTrack s n).replNow && !outSafe s n) = good := ⟨_, rfl⟩
  rw [hgood]
  obtain ⟨hgcalm, hgbit, hgfields⟩ := goodNoted_spec n good u
  obtain ⟨v, hv⟩ : ∃ v, goodNoted n good u = v := ⟨_, rfl⟩
  rw [hv] at hgcalm hgbit hgfields ⊢
  obtain ⟨w, hw⟩ : ∃ w, putOut n (endedTrack good (outTrack s n)) v = w := ⟨_, rfl⟩
  have hput : OutCalm n [Reg.poutStatus n] v w := hw ▸ outCalm_putOut ..
  have hwregs : w.regs = v.regs := by rw [← hw]; rfl
  have hwtrack : outTrack w n = endedTrack good (outTrack s n) := by rw [← hw, outTrack_putOut_same]
  have hdelay := frameDelayed_delayFrame n (outTrack s n).cur.reverse w
  obtain ⟨t, ht⟩ : ∃ t, delayFrame n (outTrack s n).cur.reverse w = t := ⟨_, rfl⟩
  rw [hw, ht]
  rw [ht] at hdelay
  obtain ⟨hdly, hcmd⟩ := dlyStatus_apart n
  have hstatus : rd t (Reg.poutStatus n) = rd v (Reg.poutStatus n) := (hdelay.regs _ (by simp [hdly, hcmd])).trans (rd_congr hwregs _)
  have hearly := (hcalm.trans hgcalm).trans hput
  have hsched : w.sched = s.sched := by rw [hearly.frame]
  refine ⟨(hearly.toOutMoves.ends.mono (by simp)).trans (hdelay.toOutEnds.mono (by simp)), fun h => ?_, ?_, ?_, fun lo m h => ?_, ?_⟩
  · exact (hearly.mono (by simp)).trans ((hdelay.idle (hsched.trans h)).mono (by simp))
  · rw [getF, hstatus, ← getF, hgfields 0 2 (.inl (by decide)), hstate]
  · rw [getB, hstatus, ← getB, hgbit, getB_eq_getF, hfields 4 1 (by decide), ← getB_eq_getF, hgood]
  · rw [getF, hstatus, ← getF, hgfields lo m (.inr h), hfields lo m (by omega)]
  · rw [hgood, hdelay.track, hwtrack]

/-! ## The statement on outputs -/

/-- The registers that a line of output `n` may move, its frame's end included. -/
def outRegs (n : Nat) : List Nat := Reg.cmdStatus :: Reg.dlyStatus n :: (pipeRegs n ++ penaltyRegs (n / 288))

/-- A line of output `n` has been emitted, its frame's end included. -/
structure LineDone (n : Nat) (c : OutCfg) (l : OutLine) (safe repl : Bool) (s t : State) : Prop extends OutEnds n (outRegs n) s t where
  idle : s.sched = [] → t.mem = s.mem
  calm : s.sched = [] → (outTrack s n).internal = false ∨ airOut s n = false → OutCalm n (Reg.dlyStatus n :: pipeRegs n) s t
  lines : (rd t (Reg.poutLinesRepl n)).toNat = min (2 ^ 32 - 1) ((rd s (Reg.poutLinesRepl n)).toNat + if repl = true then 1 else 0)
  seen : getB t (Reg.poutStatus n) 6 = (getB s (Reg.poutStatus n) 6 || repl)
  enabled : getB t (Reg.poutStatus n) 5 = if l.number = 1 then (outColour s n).any fun e => decide (e.flags % 2 = 1) else getB s (Reg.poutStatus n) 5
  crossed : c.timecode = false → let fit := ancFit l.room (ancDue s n l)
    getF t (Reg.poutAncCnt n) 0 16 = min 65535 (getF s (Reg.poutAncCnt n) 0 16 + fit.1.length)
      ∧ getF t (Reg.poutAncCnt n) 16 16 = min 65535 (getF s (Reg.poutAncCnt n) 16 16 + fit.2.length)
      ∧ getB t (Reg.poutStatus n) 7 = (getB s (Reg.poutStatus n) 7 || decide (fit.2.length ≠ 0))
  marks : (outTrack t n).invalid = false ∧ (outTrack t n).internal = false
  colour : (outTrack t n).colour = if l.number = 1 then outColour s n else (outTrack s n).colour
  pattern : (outTrack t n).pattern = (outTrack s n).pattern
  sent : delayNow s n = 0 → ∃ y, (outTrack t n).sent = some y ∧ LineSent n c l safe repl s y

theorem pipeRegs_subset (n : Nat) : pipeRegs n ++ penaltyRegs (n / 288) ⊆ outRegs n := fun _ ha => List.mem_cons_of_mem _ (List.mem_cons_of_mem _ ha)

/-- A line before the last one of its frame. -/
theorem LineLeft.done {n : Nat} {c : OutCfg} {l : OutLine} {safe repl : Bool} {s t : State} (h : LineLeft n c l safe repl s t) : LineDone n c l safe repl s t := by
  refine ⟨h.toOutMoves.ends.mono (pipeRegs_subset n), fun _ => ?_, fun _ hc => (h.calm hc).mono (List.subset_cons_self ..), h.lines, h.seen, h.enabled, h.crossed, h.marks, h.colour, h.pattern, h.sent⟩
  rw [h.frame]

theorem endRegs_notMem (n : Nat) : Reg.poutLinesRepl n ∉ [Reg.poutStatus n, Reg.dlyStatus n, Reg.cmdStatus] ∧ Reg.poutAncCnt n ∉ [Reg.poutStatus n, Reg.dlyStatus n, Reg.cmdStatus] := by
  simp only [Reg.poutLinesRepl, Reg.poutAncCnt, Reg.poutStatus, Reg.dlyStatus, Reg.cmdStatus, List.mem_cons, List.not_mem_nil, or_false]
  omega

/-- The last line of a frame. -/
theorem LineLeft.ended {n : Nat} {c : OutCfg} {l : OutLine} {safe repl : Bool} {s u t : State} (h : LineLeft n c l safe repl s u) (e : FrameEnded n u t) : LineDone n c l safe repl s t := by
  obtain ⟨hlines, hanc⟩ := endRegs_notMem n
  have hstatus : Reg.poutStatus n ∈ pipeRegs n := by simp [pipeRegs]
  have hbit : ∀ b, 5 ≤ b → getB t (Reg.poutStatus n) b = getB u (Reg.poutStatus n) b := fun b hb => by rw [getB_eq_getF, e.fields b 1 hb, ← getB_eq_getF]
  have htrack := e.track
  have hsched : u.sched = s.sched := by rw [h.frame]
  refine ⟨(h.toOutMoves.ends.mono (pipeRegs_subset n)).trans (e.toOutEnds.mono ?_), fun hs => ?_, fun hs hc => ((h.calm hc).mono (List.subset_cons_self ..)).trans ((e.idle (hsched.trans hs)).mono ?_),
    ?_, ?_, ?_, fun htc => ?_, ?_, ?_, ?_, fun hd => ?_⟩
  · simp [outRegs, pipeRegs]
  · rw [(e.idle (hsched.trans hs)).frame, h.frame]
  · simp [pipeRegs]
  · rw [e.regs _ hlines, h.lines]
  · rw [hbit 6 (by decide), h.seen]
  · rw [hbit 5 (by decide), h.enabled]
  · have hcnt : ∀ lo, getF t (Reg.poutAncCnt n) lo 16 = getF u (Reg.poutAncCnt n) lo 16 := fun lo => by rw [getF, e.regs _ hanc, ← getF]
    rw [hcnt, hcnt, hbit 7 (by decide)]
    exact h.crossed htc
  · rw [htrack]
    exact h.marks
  · rw [htrack]
    exact h.colour
  · rw [htrack]
    exact h.pattern
  · rw [htrack]
    exact h.sent hd

theorem decide_length_ne_zero {α : Type} [DecidableEq α] (l : List α) : decide (l.length ≠ 0) = decide (l ≠ []) := by cases l <;> simp

/-- Settles O40: a line is `lineLeft_spec`, and the end of its frame `frameEnded_outFrameEnd`. -/
theorem outputLinesAreReplacedWhole : Obligations.OutputLinesAreReplacedWhole := by
  unfold Obligations.OutputLinesAreReplacedWhole
  intro dt s hp n hn l a u q safe repl cross cnt
  have hline : ∀ P, P (outLine n l u) → Completes (.outputLineEmit dt n l) s P := fun P h => completes_only rfl (decide_eq_true hn) hp h
  refine ⟨fun hnone => hline _ (outLine_none l hnone), fun c hc => ?_⟩
  intro last due fit
  have hcross : ancCross u n = cross := rfl
  have hdue : cross = true → ancDue u n l = due := fun h => if_pos (hcross.trans h)
  have hleft := lineLeft_spec hn c l (s := u) (safe := safe) (repl := repl) rfl rfl
  obtain ⟨v, hv⟩ : ∃ v, lineLeft n c l u = v := ⟨_, rfl⟩
  rw [hv] at hleft
  have heq := outLine_eq l (s := u) hc
  rw [hv] at heq
  refine hline _ ?_
  obtain ⟨t, ht⟩ : ∃ t, outLine n l u = t := ⟨_, rfl⟩
  rw [ht] at heq ⊢
  have hnotlast : last = false → t = v := fun h => heq.trans (if_neg (of_decide_eq_false h))
  have hlast : last = true → FrameEnded n v t := fun h => by
    rw [heq, if_pos (of_decide_eq_true h)]
    exact frameEnded_outFrameEnd n v
  have hdone : LineDone n c l safe repl u t := by
    cases h : last with
    | false =>
      rw [hnotlast h]
      exact hleft.done
    | true => exact hleft.ended (hlast h)
  refine ⟨hdone.lines, hdone.seen, hdone.marks.1, hdone.marks.2, fun h1 => ?_, fun h1 => ?_, fun htc hx => ?_, fun htc hx => ?_, fun hd => ?_, fun h => ?_, fun h => ?_,
    hdone.pattern, hdone.others, ?_, ?_, ?_, ?_, hdone.idle, fun hs hq => ?_⟩
  · rw [hdone.colour, hdone.enabled, if_pos h1, if_pos h1]
    exact ⟨rfl, rfl⟩
  · rw [hdone.colour, hdone.enabled, if_neg h1, if_neg h1]
    exact ⟨rfl, rfl⟩
  · obtain ⟨hin, hout, hflag⟩ := hdone.crossed htc
    rw [ancDue_uncrossed l (hcross.trans hx), ancFit_nil] at hin hout hflag
    exact ⟨hin.trans (getF16_zero ..).symm, hout.trans (getF16_zero ..).symm, hflag.trans (Bool.or_false _)⟩
  · obtain ⟨hin, hout, hflag⟩ := hdone.crossed htc
    rw [hdue hx] at hin hout hflag
    exact ⟨hin, hout, hflag.trans (by rw [decide_length_ne_zero]; rfl)⟩
  · obtain ⟨y, hy, hsent⟩ := hdone.sent hd
    exact ⟨y, hy, hsent.number, hsent.invalid, hsent.internal, hsent.vpid, hsent.audio.trans (outAudio_eq ..), hsent.safeShown, hsent.black, hsent.words, hsent.anc⟩
  · rw [hnotlast h]
    refine ⟨hleft.fields 0 2 (by decide), ?_, hleft.replNow, by rw [hleft.frame]; rfl, by rw [hleft.frame]; rfl⟩
    rw [getB_eq_getF, hleft.fields 4 1 (by decide), ← getB_eq_getF]
    rfl
  · have hend := hlast h
    have hdec := hleft.toOutMoves.decides hn (List.Subset.refl _) hleft.pattern
    refine ⟨?_, ?_, ?_⟩
    · rw [hend.state, hdec.outSafe, hleft.replNow]
      rfl
    · rw [hend.good, hdec.outSafe, hdec.outStore, hleft.replNow, getB_eq_getF, hleft.fields 4 1 (by decide), ← getB_eq_getF]
      rfl
    · rw [hend.track]
      rfl
  iterate 4
    · rw [hdone.frame]
      rfl
  · have hcalm := hdone.calm hs hq
    have hregs : Reg.dlyStatus n :: pipeRegs n ⊆ [a, Reg.poutLinesRepl n, Reg.poutAncCnt n, Reg.pgrpOutStatus (n / 4), Reg.dlyStatus n] := by simp [pipeRegs, a]
    refine ⟨?_, hcalm.regs.mono hregs⟩
    rw [hcalm.frame, hcalm.pair]

end Sys2Proof.Machine
end

section
/-! Commands of the frame stores (04_frame_stores.md R179, R184, R186, R187, R196): how a command comes to wait for its house frame, and what each of the four answers. -/

namespace Sys2Proof.Machine

/-! ## The apply frame of an accepted command (R609, R821) -/

section
variable {dt lead : Nat} {h : Hdr} {s : State}

theorem applyFrame_tooLate (hl : TooLate lead h (tick dt s)) : applyFrame (taken h (tick dt s)) lead h.applyAt = none := by
  refine applyFrame_late hl.1 ?_
  rw [earliestFrame_accepted]
  exact hl.2

theorem applyFrame_notTooLate (hl : ¬ TooLate lead h (tick dt s)) : applyFrame (taken h (tick dt s)) lead h.applyAt = some (applyFor lead h (tick dt s)) := by
  rw [applyFrame_inTime, earliestFrame_accepted]
  · rfl
  · rw [earliestFrame_accepted, or_iff_not_imp_left]
    exact fun h0 => Nat.not_lt.1 fun hlt => hl ⟨h0, hlt⟩

end

/-! ## What waits for its frame, and what is refused -/

@[simp] theorem taken_mem (h : Hdr) (s : State) : (taken h s).mem = s.mem := by rw [taken_eq]
@[simp] theorem taken_sched (h : Hdr) (s : State) : (taken h s).sched = s.sched := by rw [taken_eq]

@[simp] theorem rd_schedule (c : Cmd) (f : Nat) (result : List (Nat × Nat)) (s : State) (a : Nat) : rd (schedule c f result s) a = rd s a := rd_congr rfl a

/-- A command on the schedule for its frame, with the dispatcher's state of its acceptance, waits for that frame. -/
theorem scheduled_of {dt lead : Nat} {h : Hdr} {b : Body} {s t : State} {result : Nat → List (Nat × Nat)} (hr : Ready h b s)
    (hcmd : t.cmd = (taken h (tick dt s)).cmd)
    (hsched : t.sched = (schedule (hostCmd h b) (applyFor lead h (tick dt s)) (result (applyFor lead h (tick dt s))) (taken h (tick dt s))).sched) :
    Scheduled dt lead h result s t := by
  rw [schedule, taken_sched, tick_sched] at hsched
  exact ⟨waits_of_cmd hr hcmd, _, hsched, rfl, frameStart_accepted .., rfl, rfl⟩

/-- A firmware command whose effect is a refusal answers with its status. -/
theorem completes_refused {i : Instr} {dt st : Nat} {h : Hdr} {b : Body} {s : State} (hi : hostPacket i = some (dt, { hdr := h, body := b })) (hr : Ready h b s)
    (hf : fastPath b = false) (hx : fwExecute (hostCmd h b) (taken h (tick dt s)) = refuse (hostCmd h b) st (taken h (tick dt s))) :
    Completes i s (AnswersWith dt h b st [] s) :=
  completes_fw hi hr hf hx (answersWith_of st [])

theorem scheduleCmd_late {c : Cmd} {s : State} (result : Nat → List (Nat × Nat)) (hf : applyFrame s tickMs c.pkt.hdr.applyAt = none) :
    scheduleCmd c result s = refuse c St.planLate s := by
  rw [scheduleCmd, hf]

theorem scheduleCmd_inTime {c : Cmd} {f : Nat} {s : State} (result : Nat → List (Nat × Nat)) (hf : applyFrame s tickMs c.pkt.hdr.applyAt = some f) :
    scheduleCmd c result s = forward (.command c.pkt.body f) (schedule c f (result f) s) := by
  rw [scheduleCmd, hf]

/-! ## `FS_CONTROL` (R179) -/

theorem ringEntry?_accepted (dt : Nat) (h : Hdr) (s : State) (n : Nat) : ringEntry? (taken h (tick dt s)) n = ringEntry? s n := by
  rw [ringEntry?, taken_plan, tick_plan, ringEntry?]

theorem fxFsControl_noRing {s : State} {source : Nat} (c : Cmd) (h : ringEntry? s source = none) : fxFsControl c source s = refuse c St.memNoStore s := by
  rw [fxFsControl, h]
  rfl

theorem fxFsControl_ring {s : State} {source : Nat} (c : Cmd) (h : ringEntry? s source ≠ none) : fxFsControl c source s = scheduleCmd c (fun _ => []) s :=
  if_neg fun e => h (Option.isNone_iff_eq_none.1 e)

/-! ## `DELAY_SET` (R184) -/

theorem memEntry?_accepted (dt : Nat) (h : Hdr) (s : State) (k n : Nat) : memEntry? (taken h (tick dt s)) k n = memEntry? s k n := by
  rw [memEntry?, taken_plan, tick_plan, memEntry?]

/-- An accepted `DELAY_SET` on the schedule, and shown in `DLY_STATUS`. -/
def delayPends (c : Cmd) (n f : Nat) (s : State) : State := putB (Reg.dlyStatus n) 13 true (schedule c f [(8, f)] s)

section
variable {s : State} {n d : Nat} (c : Cmd)

theorem fxDelaySet_noLine (h : memEntry? s 2 n = none) : fxDelaySet c n d s = refuse c St.memNoStore s := by
  rw [fxDelaySet, h]

variable {e : MemEntry} (h : memEntry? s 2 n = some e)
include h

theorem fxDelaySet_beyond (hd : e.frames < d) : fxDelaySet c n d s = refuse c St.memRange s := by
  rw [fxDelaySet, h]
  exact if_pos hd

theorem fxDelaySet_late (hd : d ≤ e.frames) (hf : applyFrame s tickMs c.pkt.hdr.applyAt = none) : fxDelaySet c n d s = refuse c St.planLate s := by
  simp only [fxDelaySet, h, hf]
  exact if_neg (Nat.not_lt.2 hd)

theorem fxDelaySet_inTime {f : Nat} (hd : d ≤ e.frames) (hf : applyFrame s tickMs c.pkt.hdr.applyAt = some f) :
    fxDelaySet c n d s = forward (.command c.pkt.body f) (delayPends c n f s) := by
  simp only [fxDelaySet, h, hf]
  exact if_neg (Nat.not_lt.2 hd)

end

theorem dlyStatus_notMem_ringRegs (n : Nat) : Reg.dlyStatus n ∉ ringRegs := by
  simp only [ringRegs, Reg.dlyStatus, Reg.cmdTail, Reg.cmdHead, Reg.cmdAccepted, Reg.cmdStatus, List.mem_cons, List.not_mem_nil, or_false]
  omega

theorem putB_eq (a b : Nat) (v : Bool) (s : State) : putB a b v s = { s with regs := (putB a b v s).regs } := rfl

theorem delayPends_eq (c : Cmd) (n f : Nat) (s : State) : delayPends c n f s = { schedule c f [(8, f)] s with regs := (delayPends c n f s).regs } := putB_eq ..

/-! ## `SLATE_LOAD` (R186, R187) -/

/-- The picture does not fill LENGTH. -/
abbrev SlateWrong (w ht len : Nat) : Prop := len ≠ 0 ∧ len ≠ slateBytes w ht

/-- The 512 MiB of a copy do not hold the slate beside the others. -/
abbrev SlateFull (i len : Nat) (s : State) : Prop := 256 < slatePages (tabErase i s.mem.slates) + ceilDiv len pageBytes

/-- The words of an accepted slate are copied, and the command is on the schedule. -/
def slateWaits (c : Cmd) (i len f : Nat) (s : State) : State :=
  schedule c f [(4, ceilDiv len pageBytes)] (uploadStart len (slateStage i f (s.mem.upload.take (len / 4)) s))

section
variable (c : Cmd) (i len f : Nat) (s : State)

theorem slateWaits_mem : (slateWaits c i len f s).mem = { s.mem with staged := s.mem.staged ++ [(i, f, s.mem.upload.take (len / 4))] } := rfl

theorem slateWaits_sched : (slateWaits c i len f s).sched = (schedule c f [(4, ceilDiv len pageBytes)] s).sched := rfl

theorem slateWaits_eq : slateWaits c i len f s = { s with
    sched := (slateWaits c i len f s).sched, mem := (slateWaits c i len f s).mem, comp := { s.comp with uploadEnd := (slateWaits c i len f s).comp.uploadEnd } } := rfl

end

theorem slatePages_eq (len : Nat) : ceilDiv len pageBytes = (len + 2097151) / 2097152 := by
  have hpage : pageBytes = 2097152 := by decide
  rw [ceilDiv, hpage]
  omega

theorem slateBytes_eq (w ht : Nat) : slateBytes w ht = (4 * ((2 * w + 2) / 3) + 127) / 128 * 128 * ht := by
  rw [slateBytes, slateStride, Nat.mul_assoc _ 32 4]
  rfl

section
variable {s : State} {i w ht len : Nat} (c : Cmd) (sc : Nat)

theorem fxSlateLoad_wrong (h : SlateWrong w ht len) : fxSlateLoad c i w ht sc len s = refuse c St.slateFormat s := if_pos h

variable (hw : ¬ SlateWrong w ht len)
include hw

theorem fxSlateLoad_full (h : SlateFull i len s) : fxSlateLoad c i w ht sc len s = refuse c St.slateSpace s := (if_neg hw).trans (if_pos h)

variable (hs : ¬ SlateFull i len s)
include hs

theorem fxSlateLoad_busy (h : s.mono < s.comp.uploadEnd) : fxSlateLoad c i w ht sc len s = refuse c St.compBusy s :=
  ((if_neg hw).trans (if_neg hs)).trans (if_pos (decide_eq_true h))

variable (hb : s.comp.uploadEnd ≤ s.mono)
include hb

theorem fxSlateLoad_free : fxSlateLoad c i w ht sc len s = match applyFrame s tickMs c.pkt.hdr.applyAt with
    | none => refuse c St.planLate s
    | some f => forward (.command c.pkt.body f) (forward (.slate i w ht sc len f (s.mem.upload.take (len / 4))) (slateWaits c i len f s)) :=
  ((if_neg hw).trans (if_neg hs)).trans (if_neg fun e => Nat.not_lt.2 hb (of_decide_eq_true e))

theorem fxSlateLoad_late (hf : applyFrame s tickMs c.pkt.hdr.applyAt = none) : fxSlateLoad c i w ht sc len s = refuse c St.planLate s := by
  rw [fxSlateLoad_free c sc hw hs hb, hf]

theorem fxSlateLoad_inTime {f : Nat} (hf : applyFrame s tickMs c.pkt.hdr.applyAt = some f) : fxSlateLoad c i w ht sc len s
    = forward (.command c.pkt.body f) (forward (.slate i w ht sc len f (s.mem.upload.take (len / 4))) (slateWaits c i len f s)) := by
  rw [fxSlateLoad_free c sc hw hs hb, hf]

end

/-! ## `MEM_QUERY` (R196) -/

theorem memPagesUsed_accepted (dt : Nat) (h : Hdr) (s : State) (k q : Nat) : memPagesUsed (taken h (tick dt s)) k q = memPagesUsed s k q := by
  rw [memPagesUsed, taken_plan, taken_mem, memPagesUsed]
  rfl

theorem memPagesOf_accepted (dt : Nat) (h : Hdr) (s : State) (k : Nat) : memPagesOf (taken h (tick dt s)) k = memPagesOf s k := by
  rw [memPagesOf, modeNow_accepted, memPagesOf]

/-- The body of a `MEM_QUERY`: pages used and free of the kinds 1 to 9. -/
def memPages (s : State) (q : Nat) : List (Nat × Nat) :=
  (upto 1 9).flatMap fun k => [(4, memPagesUsed s k q), (4, memPagesOf s k - memPagesUsed s k q)]

theorem memPages_accepted (dt : Nat) (h : Hdr) (s : State) (q : Nat) : memPages (taken h (tick dt s)) q = memPages s q := by
  simp only [memPages, memPagesUsed_accepted, memPagesOf_accepted]

theorem memPages_kind (s : State) (q : Nat) {k : Nat} (hk : k < 9) : (memPages s q)[2 * k]? = some (4, memPagesUsed s (k + 1) q)
    ∧ (memPages s q)[2 * k + 1]? = some (4, memPagesOf s (k + 1) - memPagesUsed s (k + 1) q) := by
  interval_cases k <;> exact ⟨rfl, rfl⟩

/-! ## What an accepted command leaves -/

section
variable {dt : Nat} {h : Hdr} {s : State}

/-- A change of registers, schedule and messages on top of acceptance. -/
theorem accepted_frame {w t : State} (hw : w = { taken h s with regs := w.regs, sched := w.sched }) (ht : t = { w with pair := t.pair }) :
    t = { s with regs := t.regs, cmd := t.cmd, sched := t.sched, pair := t.pair } := by
  have hframe := taken_eq h s
  generalize taken h s = v at hw hframe
  rw [ht, hw, hframe]

theorem fsControl_waits {source loss hold : Nat} (hr : Ready h (.fsControl source loss hold) s) (m : MirMsg) :
    let t := forward m (schedule (hostCmd h (.fsControl source loss hold)) (applyFor tickMs h (tick dt s)) [] (taken h (tick dt s)))
    Scheduled dt tickMs h (fun _ => []) s t ∧ t = { tick dt s with regs := t.regs, cmd := t.cmd, sched := t.sched, pair := t.pair } ∧ RegsBut ringRegs s t := by
  intro t
  have ht := forward_eq m (schedule (hostCmd h (.fsControl source loss hold)) (applyFor tickMs h (tick dt s)) [] (taken h (tick dt s)))
  refine ⟨scheduled_of hr ?_ ?_, ?_, fun a ha => ?_⟩
  · rw [show t = _ from ht]
    rfl
  · rw [show t = _ from ht]
  · exact accepted_frame rfl ht
  · rw [rd_forward, rd_schedule, rd_accepted dt h s ha]

theorem delaySet_waits {n d : Nat} (hr : Ready h (.delaySet n d) s) (m : MirMsg) :
    let t := forward m (delayPends (hostCmd h (.delaySet n d)) n (applyFor tickMs h (tick dt s)) (taken h (tick dt s)))
    Scheduled dt tickMs h (fun f => [(8, f)]) s t ∧ getB t (Reg.dlyStatus n) 13 = true ∧ getF t (Reg.dlyStatus n) 8 5 = getF s (Reg.dlyStatus n) 8 5
      ∧ t = { tick dt s with regs := t.regs, cmd := t.cmd, sched := t.sched, pair := t.pair } ∧ RegsBut (Reg.dlyStatus n :: ringRegs) s t := by
  intro t
  obtain ⟨u, hu⟩ : ∃ u, schedule (hostCmd h (.delaySet n d)) (applyFor tickMs h (tick dt s)) [(8, applyFor tickMs h (tick dt s))] (taken h (tick dt s)) = u := ⟨_, rfl⟩
  obtain ⟨v, hv⟩ : ∃ v, putB (Reg.dlyStatus n) 13 true u = v := ⟨_, rfl⟩
  have ht : t = forward m v := by
    rw [← hv, ← hu]
    rfl
  clear_value t
  have hu' : ∀ a, a ∉ ringRegs → rd u a = rd s a := fun a ha => by rw [← hu, rd_schedule, rd_accepted dt h s ha]
  have hframe : v = { u with regs := v.regs } := by rw [← hv, ← putB_eq]
  have heq : t = { v with pair := t.pair } := by rw [ht, ← forward_eq]
  have hrd : ∀ a, rd t a = rd (putB (Reg.dlyStatus n) 13 true u) a := fun a => by rw [ht, rd_forward, hv]
  refine ⟨scheduled_of hr ?_ ?_, ?_, ?_, ?_, fun a ha => ?_⟩
  · rw [heq, hframe, ← hu, schedule]
  · rw [heq, hframe, hu]
  · rw [getB, hrd, ← getB, getB_putB_same _ _ _ (by decide)]
  · rw [getF, hrd, ← getF, getF_putB_fld _ _ _ (by decide) (by decide), getF, hu' _ (dlyStatus_notMem_ringRegs n), ← getF]
  · refine accepted_frame (h := h) (w := v) ?_ heq
    rw [hframe, ← hu, schedule]
  · obtain ⟨hdly, hring⟩ := not_or.1 (mt List.mem_cons.2 ha)
    rw [hrd, rd_putB_ne hdly, hu' _ hring]

theorem slateLoad_waits {i w ht sc len : Nat} (hr : Ready h (.slateLoad i w ht sc len) s) (m m' : MirMsg) :
    let f := applyFor tickMs h (tick dt s)
    let t := forward m (forward m' (slateWaits (hostCmd h (.slateLoad i w ht sc len)) i len f (taken h (tick dt s))))
    Scheduled dt tickMs h (fun _ => [(4, ceilDiv len pageBytes)]) s t
      ∧ t.mem = { s.mem with staged := s.mem.staged ++ [(i, f, s.mem.upload.take (len / 4))] }
      ∧ t = { tick dt s with regs := t.regs, cmd := t.cmd, sched := t.sched, pair := t.pair, mem := t.mem, comp := { s.comp with uploadEnd := t.comp.uploadEnd } }
      ∧ RegsBut ringRegs s t := by
  intro f t
  obtain ⟨v, hv⟩ : ∃ v, slateWaits (hostCmd h (.slateLoad i w ht sc len)) i len f (taken h (tick dt s)) = v := ⟨_, rfl⟩
  have hframe := slateWaits_eq (hostCmd h (.slateLoad i w ht sc len)) i len f (taken h (tick dt s))
  have hsched := slateWaits_sched (hostCmd h (.slateLoad i w ht sc len)) i len f (taken h (tick dt s))
  have hmem := slateWaits_mem (hostCmd h (.slateLoad i w ht sc len)) i len f (taken h (tick dt s))
  rw [hv] at hframe hsched hmem
  have heq : t = { v with pair := t.pair } := by
    rw [show t = forward m (forward m' v) from by rw [← hv], forward_eq, forward_eq m']
  rw [taken_mem, tick_mem] at hmem
  refine ⟨scheduled_of hr ?_ ?_, ?_, ?_, fun a ha => ?_⟩
  · rw [heq, hframe]
  · rw [heq]
    exact hsched
  · rw [heq]
    exact hmem
  · rw [heq, hframe, taken_eq]
    rfl
  · rw [rd_congr (t := t) (s := taken h (tick dt s)) (by rw [heq, hframe])]
    exact rd_accepted dt h s ha

end

end Sys2Proof.Machine
end

section
/-! Checked words of HBM and the scrubber (04_frame_stores.md R189 to R193): what a corrected and an uncorrectable word leave, and the statement on the stores' commands and words. -/

namespace Sys2Proof.Machine

/-! ## The check of a word (R189; 13_plls_and_clock_islands.md R520) -/

section
variable {addr : Nat} {r : HbmRead}

theorem eccCheck_otherAddress (h : r.from_ ≠ addr) : eccCheck addr r = .uncorrectable := if_pos h

variable (h : r.from_ = addr)
include h

theorem eccCheck_clean (hb : flipCount r.flips = 0) : eccCheck addr r = .clean := by
  rw [eccCheck, if_neg (not_not.2 h), hb]
  rfl

theorem eccCheck_one (hb : flipCount r.flips = 1) : eccCheck addr r = .corrected := by
  rw [eccCheck, if_neg (not_not.2 h), hb]
  rfl

theorem eccCheck_two (hb : flipCount r.flips = 2) : eccCheck addr r = .uncorrectable := by
  rw [eccCheck, if_neg (not_not.2 h), hb]
  rfl

end

section
variable {q addr : Nat} {r : HbmRead} {s : State}

theorem memRead_clean (hk : keepAlive s (23 * q + 20) = false) (he : eccCheck addr r = .clean) : memRead q addr r s = s := by
  rw [memRead, hk, he]
  rfl

theorem memRead_corrected (hk : keepAlive s (23 * q + 20) = false) (he : eccCheck addr r = .corrected) : memRead q addr r s = memCorrected q addr s := by
  rw [memRead, hk, he]
  rfl

theorem memRead_uncorrectable (h : keepAlive s (23 * q + 20) = true ∨ eccCheck addr r = .uncorrectable) : memRead q addr r s = memUncorrectable q addr r.reader s := by
  have hres : (if keepAlive s (23 * q + 20) then EccResult.uncorrectable else eccCheck addr r) = .uncorrectable := by
    split
    · rfl
    · exact h.resolve_left ‹_›
  rw [memRead, hres]

end

/-! ## A failed check is noted in the registers of its stack (R197, R199) -/

/-- The registers of stack `q` that a failed check moves; `cnt` is the count of its kind. -/
def wordRegs (q cnt : Nat) : List Nat := [Reg.memStatus q, cnt, Reg.memLastErrLo q, Reg.memLastErrHi q]

/-- A failed check of kind `type` counts in `cnt`, sets flag `b` and gives its address. -/
def wordNoted (q addr type cnt b : Nat) (s : State) : State := putB (Reg.memStatus q) b true (count cnt (memLastErr q addr type s))

/-- The address that the registers of the last error give. -/
structure LastErr (q addr type : Nat) (t : State) : Prop where
  low : rd t (Reg.memLastErrLo q) = BitVec.ofNat 32 addr
  high : (rd t (Reg.memLastErrHi q)).toNat = addr / 2 ^ 32 % 8 + type * 256

structure WordNoted (q addr type cnt b : Nat) (s t : State) : Prop where
  frame : t = { s with regs := t.regs }
  regs : RegsBut (wordRegs q cnt) s t
  counted : (rd t cnt).toNat = min (2 ^ 32 - 1) ((rd s cnt).toNat + 1)
  status : rd t (Reg.memStatus q) = setBit (rd s (Reg.memStatus q)) b true
  lastErr : LastErr q addr type t

theorem wr_eq (a : Nat) (v : Word) (s : State) : wr a v s = { s with regs := (wr a v s).regs } := rfl

/-- Changes of registers, one after the other. -/
theorem regs_trans {s u t : State} (h1 : u = { s with regs := u.regs }) (h2 : t = { u with regs := t.regs }) : t = { s with regs := t.regs } := by
  rw [h1] at h2
  exact h2

theorem wordNoted_eq (q addr type cnt b : Nat) (s : State) : wordNoted q addr type cnt b s = { s with regs := (wordNoted q addr type cnt b s).regs } :=
  regs_trans (regs_trans (regs_trans (wr_eq ..) (wr_eq ..)) (wr_eq ..)) (putB_eq ..)

theorem wordNoted_spec {q type cnt : Nat} (addr b : Nat) (s : State) (htype : type < 2) (hcnt : cnt = Reg.memCeCnt q ∨ cnt = Reg.memUeCnt q) :
    WordNoted q addr type cnt b s (wordNoted q addr type cnt b s) := by
  obtain ⟨hcs, hcl, hch⟩ : cnt ≠ Reg.memStatus q ∧ cnt ≠ Reg.memLastErrLo q ∧ cnt ≠ Reg.memLastErrHi q := by
    simp only [Reg.memStatus, Reg.memCeCnt, Reg.memUeCnt, Reg.memLastErrLo, Reg.memLastErrHi] at hcnt ⊢
    omega
  obtain ⟨hsl, hsh, hlh⟩ : Reg.memStatus q ≠ Reg.memLastErrLo q ∧ Reg.memStatus q ≠ Reg.memLastErrHi q ∧ Reg.memLastErrLo q ≠ Reg.memLastErrHi q := by
    simp only [Reg.memStatus, Reg.memLastErrLo, Reg.memLastErrHi]
    omega
  refine ⟨wordNoted_eq .., fun a ha => ?_, ?_, ?_, ?_, ?_⟩ <;> unfold wordNoted memLastErr
  · simp only [wordRegs, List.mem_cons, List.not_mem_nil, or_false, not_or] at ha
    obtain ⟨has, hac, hal, hah⟩ := ha
    rw [rd_putB_ne has, rd_count_ne hac, rd_wr_ne hah, rd_wr_ne hal]
  · rw [rd_putB_ne hcs, rd_count_same, rd_wr_ne hch, rd_wr_ne hcl]
  · rw [rd_putB_same, rd_count_ne hcs.symm, rd_wr_ne hsh, rd_wr_ne hsl]
  · rw [rd_putB_ne hsl.symm, rd_count_ne hcl.symm, rd_wr_ne hlh, rd_wr_same]
  · rw [rd_putB_ne hsh.symm, rd_count_ne hch.symm, rd_wr_same, BitVec.toNat_ofNat]
    omega

/-! ## A corrected word (R190, R193) -/

/-- The correction goes on the list of the last hour. -/
def correctionLogged (q addr : Nat) (s : State) : State :=
  { s with mem := { s.mem with corrected := (s.mem.corrected.filter fun c => decide (s.mono ≤ c.at_ + 3600 * tickSec)) ++ [{ stack := q, addr := addr, at_ := s.mono }] } }

/-- The address is found stuck. -/
def stuckFound (q addr : Nat) (s : State) : State :=
  flagEvent (Src.quad q 4) noInst (Reg.memStatus q) 4
    { s with mem := { s.mem with stuck := if (q, addr) ∈ s.mem.stuck then s.mem.stuck else s.mem.stuck ++ [(q, addr)] } }

/-- The address is on the list of those found stuck, and STUCK says so. -/
abbrev StuckKnown (q addr : Nat) (s : State) : Prop := (q, addr) ∈ s.mem.stuck ∧ getB s (Reg.memStatus q) 4 = true

theorem correctedHour_logged (q addr : Nat) (s : State) : correctedHour (correctionLogged q addr s) q addr = correctedHour s q addr + 1 := by
  unfold correctedHour correctionLogged
  generalize 3600 * tickSec = hour
  rw [List.filter_append, List.length_append, List.filter_filter]
  congr 1
  · congr 1
    refine List.filter_congr fun c _ => ?_
    rw [Bool.and_assoc, Bool.and_self]
  · rw [List.filter_cons_of_pos (by simp)]
    rfl

theorem memCorrected_eq (q addr : Nat) (s : State) : memCorrected q addr s =
    let v := correctionLogged q addr (wordNoted q addr 0 (Reg.memCeCnt q) 2 s)
    if 3 ≤ correctedHour v q addr ∧ ((q, addr) ∉ v.mem.stuck ∨ getB v (Reg.memStatus q) 4 = false) then stuckFound q addr v else v := rfl

theorem stuckFound_spec (q addr : Nat) (s : State) : let t := stuckFound q addr s
    t = { s with regs := t.regs, evq := t.evq, mem := { s.mem with stuck := t.mem.stuck } } ∧ RegsBut [Reg.memStatus q] s t
      ∧ rd t (Reg.memStatus q) = setBit (rd s (Reg.memStatus q)) 4 true ∧ (q, addr) ∈ t.mem.stuck := by
  intro t
  obtain ⟨v, hv⟩ : ∃ v : State, { s with mem := { s.mem with stuck := if (q, addr) ∈ s.mem.stuck then s.mem.stuck else s.mem.stuck ++ [(q, addr)] } } = v := ⟨_, rfl⟩
  obtain ⟨hframe, hrd⟩ := flagEvent_spec (Src.quad q 4) noInst (Reg.memStatus q) 4 v
  have ht : t = flagEvent (Src.quad q 4) noInst (Reg.memStatus q) 4 v := by rw [← hv]; rfl
  rw [← ht] at hframe hrd
  refine ⟨?_, fun a ha => ?_, ?_, ?_⟩
  · rw [hframe, ← hv]
  · rw [hrd, rd_putB_ne (by simpa using ha), ← hv]
    rfl
  · rw [hrd, rd_putB_same, ← hv]
    rfl
  · rw [hframe, ← hv]
    dsimp only
    split
    · assumption
    · simp

/-- What a corrected word leaves. -/
structure WordCorrected (q addr : Nat) (s t : State) : Prop where
  frame : t = { s with regs := t.regs, evq := t.evq, mem := { s.mem with corrected := t.mem.corrected, stuck := t.mem.stuck } }
  regs : RegsBut (wordRegs q (Reg.memCeCnt q)) s t
  counted : (rd t (Reg.memCeCnt q)).toNat = min (2 ^ 32 - 1) ((rd s (Reg.memCeCnt q)).toNat + 1)
  flag : getB t (Reg.memStatus q) 2 = true
  lastErr : LastErr q addr 0 t
  found : 2 ≤ correctedHour s q addr → ¬ StuckKnown q addr s → StuckKnown q addr t
  quiet : correctedHour s q addr < 2 ∨ StuckKnown q addr s → t.mem.stuck = s.mem.stuck ∧ getB t (Reg.memStatus q) 4 = getB s (Reg.memStatus q) 4

theorem wordCorrected_memCorrected (q addr : Nat) (s : State) : WordCorrected q addr s (memCorrected q addr s) := by
  have hnoted := wordNoted_spec (q := q) addr 2 s (type := 0) (by decide) (.inl rfl)
  obtain ⟨w, hw⟩ : ∃ w, wordNoted q addr 0 (Reg.memCeCnt q) 2 s = w := ⟨_, rfl⟩
  rw [hw] at hnoted
  have hstuck : w.mem.stuck = s.mem.stuck := by rw [hnoted.frame]
  have hbit : getB w (Reg.memStatus q) 4 = getB s (Reg.memStatus q) 4 := by rw [getB, hnoted.status, bit_setBit_ne _ _ (by decide) (by decide), getB]
  have hhour : correctedHour (correctionLogged q addr w) q addr = correctedHour s q addr + 1 := by
    rw [correctedHour_logged, hnoted.frame]
    rfl
  rw [memCorrected_eq, hw]
  obtain ⟨v, hv⟩ : ∃ v, correctionLogged q addr w = v := ⟨_, rfl⟩
  have hvframe : v = { s with regs := w.regs, mem := { s.mem with corrected := v.mem.corrected } } := by
    rw [← hv, correctionLogged, hnoted.frame]
  have hvrd : ∀ a, rd v a = rd w a := rd_congr (by rw [hvframe])
  have hvbit : ∀ b, getB v (Reg.memStatus q) b = getB w (Reg.memStatus q) b := fun b => by rw [getB, hvrd, getB]
  have hvstuck : v.mem.stuck = s.mem.stuck := by rw [hvframe]
  rw [hv] at hhour ⊢
  dsimp only
  rw [hhour, hvstuck, hvbit, hbit]
  have hcond : (3 ≤ correctedHour s q addr + 1 ∧ ((q, addr) ∉ s.mem.stuck ∨ getB s (Reg.memStatus q) 4 = false)) ↔ 2 ≤ correctedHour s q addr ∧ ¬ StuckKnown q addr s := by
    rw [Nat.succ_le_succ_iff, not_and_or, Bool.not_eq_true]
  by_cases h : 2 ≤ correctedHour s q addr ∧ ¬ StuckKnown q addr s
  · rw [if_pos (hcond.2 h)]
    obtain ⟨hframe, hregs, hstatus, hmem⟩ := stuckFound_spec q addr v
    obtain ⟨t, ht⟩ : ∃ t, stuckFound q addr v = t := ⟨_, rfl⟩
    rw [ht] at hframe hregs hstatus hmem ⊢
    have hrd : ∀ a, a ≠ Reg.memStatus q → rd t a = rd w a := fun a ha => (hregs a (by simpa using ha)).trans (hvrd a)
    have hcnt : Reg.memCeCnt q ≠ Reg.memStatus q := by simp [Reg.memCeCnt, Reg.memStatus]
    have hlo : Reg.memLastErrLo q ≠ Reg.memStatus q := by simp [Reg.memLastErrLo, Reg.memStatus]
    have hhi : Reg.memLastErrHi q ≠ Reg.memStatus q := by simp [Reg.memLastErrHi, Reg.memStatus]
    refine ⟨?_, fun a ha => ?_, ?_, ?_, ⟨?_, ?_⟩, fun _ _ => ⟨hmem, ?_⟩, fun hq => ?_⟩
    · rw [hframe, hvframe]
    · rw [hrd a fun e => ha (by rw [e]; simp [wordRegs]), hnoted.regs a ha]
    · rw [hrd _ hcnt, hnoted.counted]
    · rw [getB, hstatus, bit_setBit_ne _ _ (by decide) (by decide), hvrd, hnoted.status, bit_setBit_same _ _ (by decide)]
    · rw [hrd _ hlo, hnoted.lastErr.low]
    · rw [hrd _ hhi, hnoted.lastErr.high]
    · rw [getB, hstatus, bit_setBit_same _ _ (by decide)]
    · exact absurd h (by rw [not_and, not_not]; exact fun h2 => hq.resolve_left (Nat.not_lt.2 h2))
  · rw [if_neg (hcond.not.2 h)]
    refine ⟨?_, fun a ha => ?_, ?_, ?_, ⟨?_, ?_⟩, fun h2 hk => absurd ⟨h2, hk⟩ h, fun _ => ⟨hvstuck, ?_⟩⟩
    · rw [hvframe]
    · rw [hvrd, hnoted.regs a ha]
    · rw [hvrd, hnoted.counted]
    · rw [hvbit, getB, hnoted.status, bit_setBit_same _ _ (by decide)]
    · rw [hvrd, hnoted.lastErr.low]
    · rw [hvrd, hnoted.lastErr.high]
    · rw [hvbit, hbit]

/-! ## What the loss of a word leaves of its stack's registers (R191) -/

/-- The registers of an uncorrectable word in stack `q` read as before, and the addresses found stuck are the same. -/
def WordKept (q : Nat) (s t : State) : Prop := (∀ a ∈ wordRegs q (Reg.memUeCnt q), rd t a = rd s a) ∧ t.mem.stuck = s.mem.stuck

namespace WordKept

variable {q : Nat} {s t u : State}

theorem trans (h1 : WordKept q s u) (h2 : WordKept q u t) : WordKept q s t := ⟨fun a ha => (h2.1 a ha).trans (h1.1 a ha), h2.2.trans h1.2⟩

theorem of_regsBut {as : List Nat} (hr : RegsBut as s t) (ha : ∀ a ∈ as, a ∉ wordRegs q (Reg.memUeCnt q)) (hm : t.mem.stuck = s.mem.stuck) : WordKept q s t :=
  ⟨fun a hw => hr a fun hm => ha a hm hw, hm⟩

theorem of_regs (hr : t.regs = s.regs) (hm : t.mem.stuck = s.mem.stuck) : WordKept q s t := ⟨fun a _ => rd_congr hr a, hm⟩

end WordKept

/-- No synchroniser, output, head or penalty is noted where a word's check is. -/
theorem wordRegs_apart (q n h k : Nat) : ∀ a ∈ fsA n :: Reg.poutStatus n :: Reg.compHeadStatus h :: penaltyRegs k, a ∉ wordRegs q (Reg.memUeCnt q) := by
  have hlocal : localOf n < 352 := by
    unfold localOf
    split <;> omega
  simp only [wordRegs, penaltyRegs, fsA, Reg.fsStatus, Reg.poutStatus, Reg.compHeadStatus, Reg.pairHealth, Reg.pairStatus, Reg.mirRailState, Reg.memStatus, Reg.memUeCnt,
    Reg.memLastErrLo, Reg.memLastErrHi, List.mem_cons, List.not_mem_nil, or_false]
  omega

/-- A penalty that the event brings only where it is on air. -/
def penaltyIf (air : Bool) (q : Nat) (bs : List PathBlock) (s : State) : State := if air then penaltyAt q 0 bs s else s

theorem penaltyIf_spec (air : Bool) (q : Nat) (bs : List PathBlock) (s : State) : let t := penaltyIf air q bs s
    t = { s with regs := t.regs, evq := t.evq, pair := t.pair } ∧ RegsBut (penaltyRegs q) s t := by
  cases air with
  | false =>
    have ht : penaltyIf false q bs s = s := if_neg Bool.false_ne_true
    rw [ht]
    exact ⟨rfl, .refl _ _⟩
  | true =>
    obtain ⟨hframe, hregs, -⟩ := penaltyAt_spec (q := q) (cls := 0) (bs := bs) (s := s) (by decide) rfl
    have ht : penaltyIf true q bs s = penaltyAt q 0 bs s := if_pos rfl
    rw [ht]
    exact ⟨hframe, hregs⟩

theorem wordKept_penaltyIf (air : Bool) (q : Nat) (bs : List PathBlock) (s : State) : WordKept q s (penaltyIf air q bs s) := by
  obtain ⟨hframe, hregs⟩ := penaltyIf_spec air q bs s
  exact .of_regsBut hregs (fun a ha => wordRegs_apart q 0 0 q a (by simp [ha])) (by rw [hframe])

theorem wordKept_putB {q a : Nat} (b : Nat) (v : Bool) (s : State) (ha : a ∉ wordRegs q (Reg.memUeCnt q)) : WordKept q s (putB a b v s) :=
  .of_regsBut (regsBut_wr a _ s) (by simpa using ha) rfl

@[simp] theorem penaltyIf_mem (air : Bool) (q : Nat) (bs : List PathBlock) (s : State) : (penaltyIf air q bs s).mem = s.mem := by rw [(penaltyIf_spec ..).1]
@[simp] theorem penaltyIf_port (air : Bool) (q : Nat) (bs : List PathBlock) (s : State) : (penaltyIf air q bs s).port = s.port := by rw [(penaltyIf_spec ..).1]

/-- The penalty of the plan memory and the fixed areas. -/
theorem wordKept_planPenalty (q : Nat) (s : State) : WordKept q s (penaltyAt q 1 [] s) := by
  obtain ⟨hframe, hregs, -⟩ := penaltyAt_spec (q := q) (cls := 1) (bs := []) (s := s) (by decide) rfl
  exact .of_regsBut hregs (fun a ha => wordRegs_apart q 0 0 q a (by simp [ha])) (by rw [hframe])

theorem pairHealth_planPenalty (q : Nat) (s : State) : getB (penaltyAt q 1 [] s) Reg.pairHealth 17 = true :=
  (penaltyAt_spec (q := q) (cls := 1) (bs := []) (s := s) (by decide) rfl).2.2

theorem flowTrack_putFlow_same (n : Nat) (x : FlowTrack) (s : State) : flowTrack (putFlow n x s) n = x := tabGet_set_same ..

/-! ## What the regions lose (R191) -/

/-- The frames of a ring that do not lie in buffer `i`. -/
def framesBut (i : Nat) (t : FsTrack) : List RingFrame := t.frames.filter fun f => decide (f.buf ≠ i)

/-- A ring without buffer `i`, whose frame is lost. -/
def ringLost (n i : Nat) (s : State) : State :=
  let u := putFs n { fsTrack s n with frames := framesBut i (fsTrack s n), spoilt := true } s
  if (framesBut i (fsTrack s n)).isEmpty then putB (fsA n) 3 false u else u

/-- An output frame store without its frame. -/
def goodLost (n : Nat) (s : State) : State := putB (Reg.poutStatus n) 4 false (putOut n { outTrack s n with good := none, spoilt := true } s)

section
variable {q addr reader : Nat} {e : MemEntry} {s : State}

theorem memRegionLost_ring (h : e.kind = 1) : let u := ringLost e.owner ((addr - e.base) / max 1 (e.length / 3)) s
    memRegionLost q e addr reader s = penaltyIf (airIn u e.owner) q [.source e.owner] u := by
  simp only [memRegionLost, h]
  rfl

theorem memRegionLost_delay (h : e.kind = 2) : let u := outSpoilt e.owner s
    memRegionLost q e addr reader s = penaltyIf (airOut u e.owner) q [.output e.owner] u := by
  simp only [memRegionLost, h]
  rfl

theorem memRegionLost_store (h : e.kind = 3) : let u := goodLost e.owner s
    memRegionLost q e addr reader s = penaltyIf (airOut u e.owner) q [.output e.owner] u := by
  simp only [memRegionLost, h]
  rfl

theorem memRegionLost_head (h : e.kind = 4 ∨ e.kind = 5 ∨ e.kind = 6) : memRegionLost q e addr reader s = headSpoilt q e.owner s := by
  rcases h with h | h | h <;> simp only [memRegionLost, h]

theorem memRegionLost_slate (h : e.kind = 7) : memRegionLost q e addr reader s = putOut reader { outTrack s reader with dark := true } s := by
  simp only [memRegionLost, h]

theorem memRegionLost_flow (h : e.kind = 8) : memRegionLost q e addr reader s
    = putFlow e.owner { flowTrack s e.owner with held := (flowTrack s e.owner).held.filter fun h => decide (h.pos ≠ reader) } s := by
  simp only [memRegionLost, h]

theorem memRegionLost_plan (h : e.kind = 9) : memRegionLost q e addr reader s = penaltyAt q 1 [] s := by
  simp only [memRegionLost, h]

/-- Any other entry is no region of R195. -/
theorem memRegionLost_other (h : e.kind = 0 ∨ 9 < e.kind) : memRegionLost q e addr reader s = s := by
  rcases h with h | h
  · rw [memRegionLost, h]
    rfl
  · obtain ⟨k, hk⟩ := Nat.exists_eq_add_of_le' h
    rw [memRegionLost, hk]
    rfl

end

theorem ringLost_spec (n i : Nat) (s : State) : let t := ringLost n i s
    fsTrack t n = { fsTrack s n with frames := framesBut i (fsTrack s n), spoilt := true } ∧ ∀ q, WordKept q s t := by
  have hput : ∀ q, WordKept q s (putFs n { fsTrack s n with frames := framesBut i (fsTrack s n), spoilt := true } s) := fun q => .of_regs rfl rfl
  unfold ringLost
  dsimp only
  split
  · exact ⟨(fsTrack_congr (putB_mem ..) n).trans (fsTrack_putFs ..), fun q => (hput q).trans (wordKept_putB _ _ _ (wordRegs_apart q n 0 0 _ (by simp)))⟩
  · exact ⟨fsTrack_putFs .., hput⟩

theorem delayLost_spec (n : Nat) (s : State) : let t := outSpoilt n s
    (outTrack t n).spoilt = true ∧ ∀ q, WordKept q s t :=
  ⟨by rw [outSpoilt, outTrack_putOut_same], fun _ => .of_regs rfl rfl⟩

theorem goodLost_spec (n : Nat) (s : State) : let t := goodLost n s
    (outTrack t n).good = none ∧ getB t (Reg.poutStatus n) 4 = false ∧ ∀ q, WordKept q s t := by
  have hput : ∀ q, WordKept q s (putOut n { outTrack s n with good := none, spoilt := true } s) := fun q => .of_regs rfl rfl
  refine ⟨?_, getB_putB_same _ _ _ (by decide), fun q => (hput q).trans (wordKept_putB _ _ _ (wordRegs_apart q n 0 0 _ (by simp)))⟩
  rw [goodLost, outTrack_congr (putB_port ..), outTrack_putOut_same]

theorem wordKept_headSpoilt (q h : Nat) (s : State) : WordKept q s (headSpoilt q h s) := by
  obtain ⟨hframe, hrd⟩ := flagEvent_spec (Src.head h) noInst (Reg.compHeadStatus h) 6 s
  have hregs : RegsBut [Reg.compHeadStatus h] s (flagEvent (Src.head h) noInst (Reg.compHeadStatus h) 6 s) := fun a ha => (hrd a).trans (rd_putB_ne (by simpa using ha) ..)
  have hflag : WordKept q s (flagEvent (Src.head h) noInst (Reg.compHeadStatus h) 6 s) :=
    .of_regsBut hregs (fun a ha => wordRegs_apart q 0 h 0 a (by simp [List.mem_singleton.1 ha])) (by rw [hframe])
  exact hflag.trans (wordKept_penaltyIf _ q _ _)

/-- Whatever the region, the count, the flag and the address of the lost word stand, and the stuck addresses. -/
theorem wordKept_memRegionLost (q : Nat) (e : MemEntry) (addr reader : Nat) (s : State) : WordKept q s (memRegionLost q e addr reader s) := by
  have hkind : (e.kind = 0 ∨ 9 < e.kind) ∨ e.kind = 1 ∨ e.kind = 2 ∨ e.kind = 3 ∨ (e.kind = 4 ∨ e.kind = 5 ∨ e.kind = 6) ∨ e.kind = 7 ∨ e.kind = 8 ∨ e.kind = 9 := by omega
  rcases hkind with h | h | h | h | h | h | h | h
  · rw [memRegionLost_other h]
    exact .of_regs rfl rfl
  · rw [memRegionLost_ring h]
    exact ((ringLost_spec ..).2 q).trans (wordKept_penaltyIf ..)
  · rw [memRegionLost_delay h]
    exact ((delayLost_spec ..).2 q).trans (wordKept_penaltyIf ..)
  · rw [memRegionLost_store h]
    exact ((goodLost_spec ..).2.2 q).trans (wordKept_penaltyIf ..)
  · rw [memRegionLost_head h]
    exact wordKept_headSpoilt ..
  · rw [memRegionLost_slate h]
    exact .of_regs rfl rfl
  · rw [memRegionLost_flow h]
    exact .of_regs rfl rfl
  · rw [memRegionLost_plan h]
    exact wordKept_planPenalty q s

/-- What the owner of a region loses with a word at `addr` that is read for `reader`. -/
structure OwnerLoses (e : MemEntry) (addr reader : Nat) (t : State) : Prop where
  ring : e.kind = 1 → (fsTrack t e.owner).spoilt = true ∧ ∀ f ∈ (fsTrack t e.owner).frames, f.buf ≠ (addr - e.base) / max 1 (e.length / 3)
  delay : e.kind = 2 → (outTrack t e.owner).spoilt = true
  store : e.kind = 3 → e.owner < 1152 → (outTrack t e.owner).good = none ∧ getB t (Reg.poutStatus e.owner) 4 = false
  slate : e.kind = 7 → (outTrack t reader).dark = true
  flow : e.kind = 8 → ∀ x ∈ (flowTrack t e.owner).held, x.pos ≠ reader
  plan : e.kind = 9 → getB t Reg.pairHealth 17 = true

theorem ownerLoses_memRegionLost (q : Nat) (e : MemEntry) (addr reader : Nat) (s : State) : OwnerLoses e addr reader (memRegionLost q e addr reader s) := by
  refine ⟨fun h => ?_, fun h => ?_, fun h hn => ?_, fun h => ?_, fun h x hx => ?_, fun h => ?_⟩
  · have hring := (ringLost_spec e.owner ((addr - e.base) / max 1 (e.length / 3)) s).1
    rw [memRegionLost_ring h, fsTrack_congr (penaltyIf_mem ..), hring]
    exact ⟨rfl, fun f hf => of_decide_eq_true (List.mem_filter.1 hf).2⟩
  · rw [memRegionLost_delay h, outTrack_congr (penaltyIf_port ..)]
    exact (delayLost_spec ..).1
  · obtain ⟨hgood, hflag, -⟩ := goodLost_spec e.owner s
    rw [memRegionLost_store h, outTrack_congr (penaltyIf_port ..), getB, (penaltyIf_spec ..).2 _ (penaltyRegs_apart hn q _ (by simp [pipeRegs]))]
    exact ⟨hgood, hflag⟩
  · rw [memRegionLost_slate h, outTrack_putOut_same]
  · rw [memRegionLost_flow h, flowTrack_putFlow_same] at hx
    exact of_decide_eq_true (List.mem_filter.1 hx).2
  · rw [memRegionLost_plan h]
    exact pairHealth_planPenalty q s

/-! ## An uncorrectable word (R191) -/

/-- One record per epoch and stack. -/
def ueReported (q : Nat) (s : State) : State :=
  if tabGet 0 q s.mem.ueEpoch = epochNow s + 1 then s
  else raiseFlag (Src.quad q 4) noInst (Reg.memStatus q) 3 { s with mem := { s.mem with ueEpoch := tabPut q (epochNow s + 1) s.mem.ueEpoch } }

theorem ueReported_eq (q : Nat) (s : State) : ueReported q s = { s with evq := (ueReported q s).evq, mem := { s.mem with ueEpoch := (ueReported q s).mem.ueEpoch } } := by
  unfold ueReported
  split
  · rfl
  · obtain ⟨v, hv⟩ : ∃ v : State, { s with mem := { s.mem with ueEpoch := tabPut q (epochNow s + 1) s.mem.ueEpoch } } = v := ⟨_, rfl⟩
    rw [hv, raiseFlag, raise_frame rfl, ← hv]

/-- The region of the address loses its word, or, outside every region, the plan memory does. -/
def ownerLost (q addr reader : Nat) (o : Option MemEntry) (s : State) : State :=
  match o with
  | some e => memRegionLost q e addr reader s
  | none => penaltyAt q 1 [] s

theorem memUncorrectable_eq (q addr reader : Nat) (s : State) :
    memUncorrectable q addr reader s = ownerLost q addr reader (memAt s q addr) (ueReported q (wordNoted q addr 1 (Reg.memUeCnt q) 3 s)) := by
  obtain ⟨v, hv⟩ : ∃ v, ueReported q (wordNoted q addr 1 (Reg.memUeCnt q) 3 s) = v := ⟨_, rfl⟩
  have hplan : memAt v q addr = memAt s q addr := by
    rw [memAt, ← hv, ueReported_eq, wordNoted_eq, memAt]
  rw [hv]
  unfold ueReported wordNoted at hv
  rw [memUncorrectable]
  dsimp only
  rw [hv, hplan]
  cases memAt s q addr <;> rfl

theorem wordKept_ownerLost (q addr reader : Nat) (o : Option MemEntry) (s : State) : WordKept q s (ownerLost q addr reader o s) := by
  cases o with
  | none => exact wordKept_planPenalty q s
  | some e => exact wordKept_memRegionLost q e addr reader s

/-- What an uncorrectable word leaves in the registers of its stack and with the owner of its region. -/
structure WordLost (q addr reader : Nat) (s t : State) : Prop where
  counted : (rd t (Reg.memUeCnt q)).toNat = min (2 ^ 32 - 1) ((rd s (Reg.memUeCnt q)).toNat + 1)
  flag : getB t (Reg.memStatus q) 3 = true
  lastErr : LastErr q addr 1 t
  stuck : t.mem.stuck = s.mem.stuck
  outside : memAt s q addr = none → getB t Reg.pairHealth 17 = true
  owner : ∀ e, memAt s q addr = some e → OwnerLoses e addr reader t

theorem wordLost_memUncorrectable (q addr reader : Nat) (s : State) : WordLost q addr reader s (memUncorrectable q addr reader s) := by
  have hnoted := wordNoted_spec (q := q) addr 3 s (type := 1) (by decide) (.inr rfl)
  rw [memUncorrectable_eq]
  obtain ⟨w, hw⟩ : ∃ w, wordNoted q addr 1 (Reg.memUeCnt q) 3 s = w := ⟨_, rfl⟩
  obtain ⟨v, hv⟩ : ∃ v, ueReported q w = v := ⟨_, rfl⟩
  rw [hw] at hnoted ⊢
  have hframe := ueReported_eq q w
  rw [hv] at hframe ⊢
  have hkept : WordKept q w (ownerLost q addr reader (memAt s q addr) v) :=
    .trans (.of_regs (by rw [hframe]) (by rw [hframe])) (wordKept_ownerLost ..)
  obtain ⟨hrd, hstuck⟩ := hkept
  refine ⟨?_, ?_, ⟨?_, ?_⟩, ?_, fun h => ?_, fun e h => ?_⟩
  · rw [hrd _ (by simp [wordRegs]), hnoted.counted]
  · rw [getB, hrd _ (by simp [wordRegs]), hnoted.status, bit_setBit_same _ _ (by decide)]
  · rw [hrd _ (by simp [wordRegs]), hnoted.lastErr.low]
  · rw [hrd _ (by simp [wordRegs]), hnoted.lastErr.high]
  · rw [hstuck, hnoted.frame]
  · rw [h]
    exact pairHealth_planPenalty q v
  · rw [h]
    exact ownerLoses_memRegionLost q e addr reader v

/-! ## The scrubber (R192) -/

/-- The scrubber of stack `q` runs, and PERIOD has passed since its last pass. -/
abbrev ScrubDue (q : Nat) (s : State) : Prop :=
  getB s (Reg.memScrubCtrl q) 0 = true ∧ awake s q = true ∧ tabGet 0 q s.mem.scrubAt + scrubPeriod s q * tickSec ≤ s.mono

theorem scrubPass_idle {q : Nat} {s : State} (h : ¬ ScrubDue q s) : scrubPass q s = s := if_neg h

theorem scrubPass_due {q : Nat} {s : State} (h : ScrubDue q s) : scrubPass q s
    = wr (Reg.memScrubPasses q) (rd s (Reg.memScrubPasses q) + 1) { s with mem := { s.mem with scrubAt := tabSet 0 q s.mono s.mem.scrubAt } } := if_pos h

theorem scrubPass_counted {q : Nat} {s : State} (h : ScrubDue q s) : let t := scrubPass q s
    t = { s with regs := t.regs, mem := { s.mem with scrubAt := t.mem.scrubAt } } ∧ RegsBut [Reg.memScrubPasses q] s t
      ∧ rd t (Reg.memScrubPasses q) = rd s (Reg.memScrubPasses q) + 1 ∧ tabGet 0 q t.mem.scrubAt = s.mono ∧ ∀ x, x ≠ q → tabGet 0 x t.mem.scrubAt = tabGet 0 x s.mem.scrubAt := by
  rw [scrubPass_due h]
  generalize Reg.memScrubPasses q = a
  exact ⟨rfl, fun a ha => rd_wr_ne (by simpa using ha) .., rd_wr_same .., tabGet_set_same .., fun x hx => tabGet_set_ne _ _ hx ..⟩

theorem scrubDue_tick (dt q : Nat) (s : State) : ScrubDue q (tick dt s) ↔ getB s (Reg.memScrubCtrl q) 0 = true ∧ awake s q = true
    ∧ tabGet 0 q s.mem.scrubAt + max 4 (min 64 (getF s (Reg.memScrubCtrl q) 8 8)) * tickSec ≤ s.mono + dt := by
  have hmono : (tick dt s).mono = s.mono + dt := rfl
  simp only [ScrubDue, awake, scrubPeriod, getB_tick, getF_tick, tick_mem, hmono]

/-! ## The statement -/

/-- Settles O42: a command is refused, or waits as `fsControl_waits`, `delaySet_waits` or `slateLoad_waits` say; a word that is read is clean, `wordCorrected_memCorrected` or `wordLost_memUncorrectable`. -/
theorem storesAnswerAndCheckTheirWords : Obligations.StoresAnswerAndCheckTheirWords := by
  unfold Obligations.StoresAnswerAndCheckTheirWords
  refine ⟨?fsControl, ?delaySet, ?slateLoad, ?memQuery, ?words⟩
  case fsControl =>
    intro dt h source loss hold s hr b u
    have hring : ringEntry? (taken h u) source = ringEntry? s source := ringEntry?_accepted ..
    refine ⟨fun hn => ?_, fun hs hl => ?_, fun hs hl => ?_⟩
    · exact completes_refused rfl hr rfl (fxFsControl_noRing _ (hring.trans hn))
    · exact completes_refused rfl hr rfl ((fxFsControl_ring _ (hring ▸ hs)).trans (scheduleCmd_late _ (applyFrame_tooLate hl)))
    · exact completes_fw rfl hr rfl ((fxFsControl_ring _ (hring ▸ hs)).trans (scheduleCmd_inTime _ (applyFrame_notTooLate hl))) (fsControl_waits hr _)
  case delaySet =>
    intro dt h n d s hr b u
    have hline : memEntry? (taken h u) 2 n = memEntry? s 2 n := memEntry?_accepted ..
    refine ⟨fun hn => ?_, fun e he => ⟨fun hd => ?_, fun hd hl => ?_, fun hd hl => ?_⟩⟩
    · exact completes_refused rfl hr rfl (fxDelaySet_noLine _ (hline.trans hn))
    · exact completes_refused rfl hr rfl (fxDelaySet_beyond _ (hline.trans he) hd)
    · exact completes_refused rfl hr rfl (fxDelaySet_late _ (hline.trans he) hd (applyFrame_tooLate hl))
    · exact completes_fw rfl hr rfl (fxDelaySet_inTime _ (hline.trans he) hd (applyFrame_notTooLate hl)) (delaySet_waits hr _)
  case slateLoad =>
    intro dt h i w ht sc len s hr b u c pages wrong space
    have hwrong : SlateWrong w ht len ↔ wrong := by rw [SlateWrong, slateBytes_eq]
    have hspace : SlateFull i len (taken h u) ↔ space := by rw [SlateFull, taken_mem, slatePages_eq, tick_mem]
    have hmono : (taken h u).mono = s.mono + dt := mono_accepted ..
    have hend : (taken h u).comp.uploadEnd = s.comp.uploadEnd := by
      rw [taken_comp]
      rfl
    refine ⟨fun hw => ?_, fun hw hs => ?_, fun hw hs hb => ?_, fun hw hs hb hl => ?_, fun hw hs hb hl => ?_⟩
    · exact completes_refused rfl hr rfl (fxSlateLoad_wrong _ _ (hwrong.2 hw))
    all_goals have hw' := hwrong.not.2 hw
    · exact completes_refused rfl hr rfl (fxSlateLoad_full _ _ hw' (hspace.2 hs))
    all_goals have hs' := hspace.not.2 hs
    · exact completes_refused rfl hr rfl (fxSlateLoad_busy _ _ hw' hs' (by rwa [hmono, hend]))
    all_goals have hb' : (taken h u).comp.uploadEnd ≤ (taken h u).mono := by rwa [hmono, hend]
    · exact completes_refused rfl hr rfl (fxSlateLoad_late _ _ hw' hs' hb' (applyFrame_tooLate hl))
    · refine completes_fw rfl hr rfl (fxSlateLoad_inTime _ _ hw' hs' hb' (applyFrame_notTooLate hl)) ?_
      have hpages : ceilDiv len pageBytes = pages := slatePages_eq len
      rw [← hpages]
      exact slateLoad_waits hr _ _
  case memQuery =>
    intro dt h q s hr
    refine completes_fw rfl hr rfl rfl ?_
    obtain ⟨⟨r, hw, hreply, -, -⟩, hframe, hregs, -⟩ := answersWith_of (dt := dt) (h := h) (b := .memQuery q) (s := s) 0 (memPages (taken h (tick dt s)) q)
    obtain ⟨-, -, -, hst, -, -, hlen, -, -, hbody⟩ := hreply
    refine ⟨hframe, hregs, r, hw, hst, hlen, fun hf hl k hk => ?_⟩
    obtain ⟨hres, -⟩ := hbody (show 32 < 72 by decide) hf hl
    rw [hres, memPages_accepted]
    exact memPages_kind s q hk
  case words =>
    intro dt s hp q hq addr st same n known
    have hread : ∀ r P, P (memRead q addr r (tick dt s)) → Completes (.hbmWordRead dt q addr r) s P := fun r P h => completes_only rfl (decide_eq_true hq) hp h
    have hscrub : ∀ P, P (scrubPass q (tick dt s)) → Completes (.scrubPass dt q) s P := fun P h => completes_only rfl (decide_eq_true hq) hp h
    intro r lost bits
    refine ⟨fun hk ha hb => hread r _ ?_, fun hk ha hb => hread r _ ?_, fun h => hread r _ ?_, ?_⟩
    · exact memRead_clean hk (eccCheck_clean ha hb)
    · rw [memRead_corrected (s := tick dt s) hk (eccCheck_one ha hb)]
      have hc := wordCorrected_memCorrected q addr (tick dt s)
      have hknown : StuckKnown q addr (tick dt s) ↔ known = true ∧ getB s st 4 = true := by simp only [StuckKnown, known, decide_eq_true_eq, getB_tick, tick_mem, st]
      refine ⟨hc.counted, hc.flag, hc.lastErr.low, hc.lastErr.high, fun hn hk => ?_, fun hn => ?_, hc.frame, hc.regs⟩
      · refine hc.found hn (hknown.not.2 ?_)
        rw [not_and_or, Bool.not_eq_true, Bool.not_eq_true]
        exact hk
      · exact hc.quiet (hn.imp_right hknown.2)
    · rw [memRead_uncorrectable (s := tick dt s) (h.imp_right fun h => ?_)]
      · have hl := wordLost_memUncorrectable q addr r.reader (tick dt s)
        refine ⟨hl.counted, hl.flag, hl.lastErr.low, hl.lastErr.high, hl.stuck, hl.outside, fun e he => ?_⟩
        have ho := hl.owner e he
        exact ⟨ho.ring, ho.delay, ho.store, ho.slate, ho.flow, ho.plan⟩
      · by_cases ha : r.from_ = addr
        · exact eccCheck_two ha (h.resolve_left (not_not.2 ha))
        · exact eccCheck_otherAddress ha
    · intro due
      have hdue : ScrubDue q (tick dt s) ↔ due = true := by
        rw [scrubDue_tick]
        simp only [due, Bool.and_eq_true, decide_eq_true_eq, and_assoc]
      refine ⟨fun hd => hscrub _ (scrubPass_idle (hdue.not.2 (by rw [hd]; decide))), fun hd => hscrub _ (scrubPass_counted (hdue.2 hd))⟩

end Sys2Proof.Machine
end


section
/-! Work on a link pair (05_trunk_lanes.md, 06_trunk_framing.md): fields of registers, the tracks of link pairs and lanes, the addresses of a trunk's registers, and what each operation of the ladder leaves alone. -/

namespace Sys2Proof.Machine

/-! ## Fields within fields -/

/-- A field that lies within a wider one. -/
theorem fld_within (w : Word) {lo n lo' n' : Nat} (h1 : lo ≤ lo') (h2 : lo' + n' ≤ lo + n) : fld w lo' n' = fld w lo n / 2 ^ (lo' - lo) % 2 ^ n' := by
  obtain ⟨d, rfl⟩ := Nat.exists_eq_add_of_le h1
  obtain ⟨k, rfl⟩ : ∃ k, n = d + n' + k := ⟨n - (d + n'), by omega⟩
  rw [fld, fld, Nat.add_sub_cancel_left, pow_add 2 lo d, ← Nat.div_div_eq_div_mul, add_assoc d, pow_add 2 d, Nat.mod_mul_right_div_self,
    Nat.mod_mod_of_dvd _ (pow_dvd_pow 2 (by omega))]

/-- A field read within a wider one that has just been put. -/
theorem getF_putF_within (a : Nat) {lo n lo' n' : Nat} (v : Nat) (s : State) (h : lo + n ≤ 32) (h1 : lo ≤ lo') (h2 : lo' + n' ≤ lo + n) :
    getF (putF a lo n v s) a lo' n' = v % 2 ^ n / 2 ^ (lo' - lo) % 2 ^ n' := by
  rw [getF, fld_within _ h1 h2, rd_putF_same, fld_setFld_same _ _ h]

theorem getB_putF_within (a : Nat) {lo n b : Nat} (v : Nat) (s : State) (h : lo + n ≤ 32) (h1 : lo ≤ b) (h2 : b + 1 ≤ lo + n) :
    getB (putF a lo n v s) a b = (v % 2 ^ n / 2 ^ (b - lo) % 2 == 1) := by
  rw [getB_eq_getF, getF_putF_within a v s h h1 h2, pow_one]

theorem getB_putF_fld (a : Nat) {lo n b : Nat} (v : Nat) (s : State) (h : lo + n ≤ 32) (hd : b + 1 ≤ lo ∨ lo + n ≤ b) :
    getB (putF a lo n v s) a b = getB s a b := by
  rw [getB_eq_getF, getF_putF_fld a v s h hd, getB_eq_getF]

theorem getB_putF_ne {a b : Nat} (hb : b ≠ a) (lo n v k : Nat) (s : State) : getB (putF a lo n v s) b k = getB s b k := by
  rw [getB, rd_putF_ne hb, getB]

theorem getF_wr_same (a lo n : Nat) (v : Word) (s : State) : getF (wr a v s) a lo n = fld v lo n := by rw [getF, rd_wr_same]

theorem getF_wr_ne {a b : Nat} (hb : b ≠ a) (lo n : Nat) (v : Word) (s : State) : getF (wr a v s) b lo n = getF s b lo n := by rw [getF, rd_wr_ne hb, getF]

theorem getB_wr_ne {a b : Nat} (hb : b ≠ a) (k : Nat) (v : Word) (s : State) : getB (wr a v s) b k = getB s b k := by rw [getB, rd_wr_ne hb, getB]

theorem getB_bump_ne {a b : Nat} (hb : b ≠ a) (lo n k j : Nat) (s : State) : getB (bump a lo n k s) b j = getB s b j := by rw [getB, rd_bump_ne hb, getB]

/-! ## Tracks of link pairs and lanes -/

@[simp] theorem linkTrack_putLink_same (n : Nat) (x : LinkTrack) (s : State) : linkTrack (putLink n x s) n = x := tabGet_set_same ..

theorem linkTrack_putLink_ne {m n : Nat} (h : m ≠ n) (x : LinkTrack) (s : State) : linkTrack (putLink n x s) m = linkTrack s m := tabGet_set_ne _ _ h ..

@[simp] theorem laneTrack_putLane_same (m : Nat) (x : LaneTrack) (s : State) : laneTrack (putLane m x s) m = x := tabGet_set_same ..

theorem laneTrack_putLane_ne {m k : Nat} (h : k ≠ m) (x : LaneTrack) (s : State) : laneTrack (putLane m x s) k = laneTrack s k := tabGet_set_ne _ _ h ..

@[simp] theorem linkTrack_putLane (m n : Nat) (x : LaneTrack) (s : State) : linkTrack (putLane m x s) n = linkTrack s n := rfl

@[simp] theorem laneTrack_putLink (m n : Nat) (x : LinkTrack) (s : State) : laneTrack (putLink n x s) m = laneTrack s m := rfl

theorem linkTrack_congr {s t : State} (h : t.trk = s.trk) (n : Nat) : linkTrack t n = linkTrack s n := by rw [linkTrack, h, linkTrack]

theorem laneTrack_congr {s t : State} (h : t.trk = s.trk) (m : Nat) : laneTrack t m = laneTrack s m := by rw [laneTrack, h, laneTrack]

@[simp] theorem linkTrack_tick (dt n : Nat) (s : State) : linkTrack (tick dt s) n = linkTrack s n := rfl
@[simp] theorem laneTrack_tick (dt m : Nat) (s : State) : laneTrack (tick dt s) m = laneTrack s m := rfl
@[simp] theorem linkTrack_wr (a n : Nat) (v : Word) (s : State) : linkTrack (wr a v s) n = linkTrack s n := rfl
@[simp] theorem laneTrack_wr (a m : Nat) (v : Word) (s : State) : laneTrack (wr a v s) m = laneTrack s m := rfl
@[simp] theorem linkTrack_putF (a lo k v n : Nat) (s : State) : linkTrack (putF a lo k v s) n = linkTrack s n := rfl
@[simp] theorem laneTrack_putF (a lo k v m : Nat) (s : State) : laneTrack (putF a lo k v s) m = laneTrack s m := rfl
@[simp] theorem linkTrack_putB (a b n : Nat) (v : Bool) (s : State) : linkTrack (putB a b v s) n = linkTrack s n := rfl
@[simp] theorem laneTrack_putB (a b m : Nat) (v : Bool) (s : State) : laneTrack (putB a b v s) m = laneTrack s m := rfl
@[simp] theorem linkTrack_bump (a lo k j n : Nat) (s : State) : linkTrack (bump a lo k j s) n = linkTrack s n := rfl
@[simp] theorem laneTrack_bump (a lo k j m : Nat) (s : State) : laneTrack (bump a lo k j s) m = laneTrack s m := rfl
@[simp] theorem linkTrack_raise (src inst type : Nat) (d0 d1 d2 : Word) (s : State) (n : Nat) : linkTrack (raise src inst type d0 d1 d2 s) n = linkTrack s n :=
  linkTrack_congr (raise_trk ..) n
@[simp] theorem laneTrack_raise (src inst type : Nat) (d0 d1 d2 : Word) (s : State) (m : Nat) : laneTrack (raise src inst type d0 d1 d2 s) m = laneTrack s m :=
  laneTrack_congr (raise_trk ..) m

@[simp] theorem rd_putLink (n : Nat) (x : LinkTrack) (s : State) (a : Nat) : rd (putLink n x s) a = rd s a := rfl
@[simp] theorem rd_putLane (m : Nat) (x : LaneTrack) (s : State) (a : Nat) : rd (putLane m x s) a = rd s a := rfl

@[simp] theorem getF_putLink (n : Nat) (x : LinkTrack) (s : State) (a lo k : Nat) : getF (putLink n x s) a lo k = getF s a lo k := rfl
@[simp] theorem getB_putLink (n : Nat) (x : LinkTrack) (s : State) (a b : Nat) : getB (putLink n x s) a b = getB s a b := rfl
@[simp] theorem getF_putLane (m : Nat) (x : LaneTrack) (s : State) (a lo k : Nat) : getF (putLane m x s) a lo k = getF s a lo k := rfl
@[simp] theorem getB_putLane (m : Nat) (x : LaneTrack) (s : State) (a b : Nat) : getB (putLane m x s) a b = getB s a b := rfl
@[simp] theorem getF_raise (src inst type : Nat) (d0 d1 d2 : Word) (s : State) (a lo k : Nat) : getF (raise src inst type d0 d1 d2 s) a lo k = getF s a lo k :=
  getF_congr (raise_regs ..) a lo k
@[simp] theorem getB_raise (src inst type : Nat) (d0 d1 d2 : Word) (s : State) (a b : Nat) : getB (raise src inst type d0 d1 d2 s) a b = getB s a b :=
  getB_congr (raise_regs ..) a b

/-! ## The member that keeps a group's frame timer (06_trunk_framing.md R281) -/

theorem groupHead_congr {n : Nat} {s t : State} (h : rd t (Reg.trkGrpStatus n) = rd s (Reg.trkGrpStatus n)) : groupHead t n = groupHead s n := by
  simp only [groupHead, getB, getF, h]
  rfl

/-! ## What work on a link pair moves -/

/-- Work on link pair `n`: registers among `as`, events, its own track, the frame timer of its group, and the tracks of its lanes and of its streams may move, and nothing else. -/
structure LinkMoves (n : Nat) (as : List Nat) (s t : State) : Prop where
  frame : t = { s with regs := t.regs, evq := t.evq, trk := t.trk }
  regs : RegsBut as s t
  head : groupHead t n = groupHead s n
  timers : ∀ m, m ≠ n → linkTrack t m = { linkTrack s m with grp := (linkTrack t m).grp, released := (linkTrack t m).released }
  links : ∀ m, m ≠ n → m ≠ groupHead s n → linkTrack t m = linkTrack s m
  lanes : ∀ m, m / 8 ≠ n → laneTrack t m = laneTrack s m

namespace LinkMoves

variable {n : Nat} {as : List Nat} {s t u : State}

theorem refl (n : Nat) (as : List Nat) (s : State) : LinkMoves n as s s := ⟨rfl, .refl as s, rfl, fun _ _ => rfl, fun _ _ _ => rfl, fun _ _ => rfl⟩

theorem trans (h1 : LinkMoves n as s u) (h2 : LinkMoves n as u t) : LinkMoves n as s t := by
  refine ⟨?_, h1.regs.trans h2.regs, h2.head.trans h1.head, fun m hm => ?_, fun m hm hh => ?_, fun m hm => (h2.lanes m hm).trans (h1.lanes m hm)⟩
  · have h := h2.frame
    rw [h1.frame] at h
    exact h
  · rw [h2.timers m hm, h1.timers m hm]
  · rw [h2.links m hm (by rwa [h1.head]), h1.links m hm hh]

theorem mono {bs : List Nat} (h : LinkMoves n as s t) (hs : as ⊆ bs) : LinkMoves n bs s t := ⟨h.frame, h.regs.mono hs, h.head, h.timers, h.links, h.lanes⟩

theorem foldl {α : Type} {f : State → α → State} {l : List α} (hf : ∀ u x, x ∈ l → LinkMoves n as u (f u x)) (h : LinkMoves n as s t) :
    LinkMoves n as s (l.foldl f t) := by
  induction l generalizing t with
  | nil => exact h
  | cons x xs ih => exact ih (fun u y hy => hf u y (List.mem_cons_of_mem _ hy)) (h.trans (hf t x List.mem_cons_self))

end LinkMoves

theorem LinkMoves.mono_eq {n : Nat} {as : List Nat} {s t : State} (h : LinkMoves n as s t) : t.mono = s.mono := by rw [h.frame]

theorem LinkMoves.now_eq {n : Nat} {as : List Nat} {s t : State} (h : LinkMoves n as s t) : t.now = s.now := by rw [h.frame]

theorem LinkMoves.plan_eq {n : Nat} {as : List Nat} {s t : State} (h : LinkMoves n as s t) : t.plan = s.plan := by rw [h.frame]

/-- Work on a link pair that leaves the receive buffers of its streams alone. -/
structure LinkWorks (n : Nat) (as : List Nat) (s t : State) : Prop where
  moves : LinkMoves n as s t
  streams : t.trk.streams = s.trk.streams

/-- The time that a command takes to come passes before its work. -/
theorem LinkWorks.linkOnly {n dt : Nat} {as : List Nat} {s t : State} (h : LinkWorks n as (tick dt s) t) : LinkOnly n as dt s t :=
  ⟨h.moves.frame, h.moves.regs, h.streams, h.moves.timers, h.moves.links, h.moves.lanes⟩

namespace LinkWorks

variable {n : Nat} {as : List Nat} {s t u : State}

theorem refl (n : Nat) (as : List Nat) (s : State) : LinkWorks n as s s := ⟨.refl n as s, rfl⟩

theorem trans (h1 : LinkWorks n as s u) (h2 : LinkWorks n as u t) : LinkWorks n as s t := ⟨h1.moves.trans h2.moves, h2.streams.trans h1.streams⟩

theorem mono {bs : List Nat} (h : LinkWorks n as s t) (hs : as ⊆ bs) : LinkWorks n bs s t := ⟨h.moves.mono hs, h.streams⟩

/-- Work that moves registers and events only. -/
theorem of_regs (h : t = { s with regs := t.regs, evq := t.evq }) (hr : RegsBut as s t) (hg : groupHead t n = groupHead s n) : LinkWorks n as s t := by
  have ht : t.trk = s.trk := by rw [h]
  exact ⟨⟨by rw [h], hr, hg, fun m _ => by rw [linkTrack_congr ht], fun m _ _ => linkTrack_congr ht m, fun m _ => laneTrack_congr ht m⟩, by rw [ht]⟩

theorem wr {a : Nat} (h : LinkWorks n as s t) (ha : a ∈ as) (hg : Reg.trkGrpStatus n ≠ a) (v : Word) : LinkWorks n as s (wr a v t) :=
  h.trans (.of_regs rfl ((regsBut_wr a v t).mono (by simpa using ha)) (groupHead_congr (rd_wr_ne hg v t)))

theorem putF {a : Nat} (h : LinkWorks n as s t) (ha : a ∈ as) (hg : Reg.trkGrpStatus n ≠ a) (lo k v : Nat) : LinkWorks n as s (putF a lo k v t) := h.wr ha hg _

theorem putB {a : Nat} (h : LinkWorks n as s t) (ha : a ∈ as) (hg : Reg.trkGrpStatus n ≠ a) (b : Nat) (v : Bool) : LinkWorks n as s (putB a b v t) := h.wr ha hg _

theorem bump {a : Nat} (h : LinkWorks n as s t) (ha : a ∈ as) (hg : Reg.trkGrpStatus n ≠ a) (lo k j : Nat) : LinkWorks n as s (bump a lo k j t) := h.wr ha hg _

theorem putLink (h : LinkWorks n as s t) (x : LinkTrack) : LinkWorks n as s (putLink n x t) :=
  h.trans ⟨⟨rfl, fun _ _ => rfl, rfl, fun m hm => by rw [linkTrack_putLink_ne hm], fun m hm _ => linkTrack_putLink_ne hm x t, fun _ _ => rfl⟩, rfl⟩

theorem putLane {m : Nat} (h : LinkWorks n as s t) (hm : m / 8 = n) (x : LaneTrack) : LinkWorks n as s (putLane m x t) :=
  h.trans ⟨⟨rfl, fun _ _ => rfl, rfl, fun _ _ => rfl, fun _ _ _ => rfl, fun k hk => laneTrack_putLane_ne (fun e => hk (by rw [e, hm])) x t⟩, rfl⟩

theorem raise (h : LinkWorks n as s t) (src inst type : Nat) (d0 d1 d2 : Word) : LinkWorks n as s (raise src inst type d0 d1 d2 t) := by
  obtain ⟨u, hu⟩ : ∃ u, Machine.raise src inst type d0 d1 d2 t = u := ⟨_, rfl⟩
  rw [hu]
  have hrd : ∀ a, rd u a = rd t a := fun a => by rw [← hu, rd_raise]
  refine h.trans (.of_regs ?_ (fun a _ => hrd a) (groupHead_congr (hrd _)))
  rw [raise_frame hu.symm]

theorem flagEvent {a : Nat} (h : LinkWorks n as s t) (ha : a ∈ as) (hg : Reg.trkGrpStatus n ≠ a) (src inst b : Nat) :
    LinkWorks n as s (flagEvent src inst a b t) := (h.putB ha hg b true).raise ..

theorem ite {c : Prop} [Decidable c] (h1 : LinkWorks n as s t) (h2 : LinkWorks n as s u) : LinkWorks n as s (if c then t else u) := by
  split
  · exact h1
  · exact h2

theorem foldl {α : Type} {f : State → α → State} {l : List α} (hf : ∀ u x, x ∈ l → LinkWorks n as u (f u x)) (h : LinkWorks n as s t) :
    LinkWorks n as s (l.foldl f t) := by
  induction l generalizing t with
  | nil => exact h
  | cons x xs ih => exact ih (fun u y hy => hf u y (List.mem_cons_of_mem _ hy)) (h.trans (hf t x List.mem_cons_self))

end LinkWorks

/-! ## A group without members takes a new phase (R281), and lanes forget (05_trunk_lanes.md R246) -/

/-- The frame timer of the group of `n` may have been dropped; no other part of a track has moved, and no lane. -/
structure TimerDropped (n : Nat) (s t : State) : Prop where
  frame : t = { s with trk := { s.trk with links := t.trk.links } }
  links : ∀ m, linkTrack t m = linkTrack s m ∨ m = groupHead s n ∧ linkTrack t m = { linkTrack s m with grp := none, released := none }

theorem timerDropped_groupAbsent (n : Nat) (s : State) : TimerDropped n s (groupAbsent n s) := by
  unfold groupAbsent
  dsimp only
  split
  · exact ⟨rfl, fun _ => .inl rfl⟩
  · refine ⟨rfl, fun m => ?_⟩
    by_cases h : m = groupHead s n
    · exact .inr ⟨h, by rw [h, linkTrack_putLink_same]⟩
    · exact .inl (linkTrack_putLink_ne h _ s)

theorem TimerDropped.works {n : Nat} {as : List Nat} {s t : State} (h : TimerDropped n s t) : LinkWorks n as s t := by
  have hregs : t.regs = s.regs := by rw [h.frame]
  refine ⟨⟨by rw [h.frame], fun a _ => rd_congr hregs a, groupHead_congr (rd_congr hregs _), fun m _ => ?_, fun m _ hm => ?_, fun m _ => ?_⟩, by rw [h.frame]⟩
  · rcases h.links m with e | ⟨-, e⟩ <;> rw [e]
  · exact (h.links m).resolve_right fun e => hm e.1
  · rw [laneTrack, h.frame, laneTrack]

end Sys2Proof.Machine
end


section
/-! A link pair's ladder starts again (05_trunk_lanes.md R230, R233, R246): its lanes cleared, its registers marked, the restart noted. -/

namespace Sys2Proof.Machine

/-! ## Addresses of a link pair, apart from one another -/

/-- `MIR_STATUS` of the pair, or `TRK_LINK_CNT`: where a link pair's RUN at full rate, or its restarts, are noted. -/
abbrev linkNoteA (n : Nat) : Nat := if n = 72 then Reg.pairStatus else Reg.trkLinkCnt n

/-- The registers that the ladder of a link pair moves. -/
abbrev ladderRegs (n : Nat) : List Nat := [linkStA n, linkMsgA n, linkNoteA n]

theorem ladderRegs_apart (n : Nat) : linkMsgA n ≠ linkStA n ∧ linkStA n ≠ linkMsgA n ∧ linkNoteA n ≠ linkStA n ∧ linkStA n ≠ linkNoteA n
    ∧ linkNoteA n ≠ linkMsgA n ∧ linkMsgA n ≠ linkNoteA n := by
  simp only [linkStA, linkMsgA, linkNoteA, Reg.mirLinkStatus, Reg.mirLinkMsg, Reg.trkLinkStatus, Reg.trkLinkMsg, Reg.pairStatus, Reg.trkLinkCnt]
  split <;> omega

theorem trkGrpStatus_apart (n : Nat) : Reg.trkGrpStatus n ≠ linkStA n ∧ Reg.trkGrpStatus n ≠ linkMsgA n ∧ Reg.trkGrpStatus n ≠ linkNoteA n := by
  simp only [linkStA, linkMsgA, linkNoteA, Reg.mirLinkStatus, Reg.mirLinkMsg, Reg.trkLinkStatus, Reg.trkLinkMsg, Reg.pairStatus, Reg.trkLinkCnt, Reg.trkGrpStatus]
  split <;> omega

theorem trkLinkCtrl_apart (n : Nat) : Reg.trkLinkCtrl n ≠ linkStA n ∧ Reg.trkLinkCtrl n ≠ linkMsgA n ∧ Reg.trkLinkCtrl n ≠ linkNoteA n := by
  simp only [linkStA, linkMsgA, linkNoteA, Reg.mirLinkStatus, Reg.mirLinkMsg, Reg.trkLinkStatus, Reg.trkLinkMsg, Reg.pairStatus, Reg.trkLinkCnt, Reg.trkLinkCtrl]
  split <;> omega

theorem linkMaxStep_congr {n : Nat} {s t : State} (h : rd t (Reg.trkLinkCtrl n) = rd s (Reg.trkLinkCtrl n)) : linkMaxStep t n = linkMaxStep s n := by
  simp only [linkMaxStep, getF, h]

theorem linkMaxStep_lt (s : State) (n : Nat) : linkMaxStep s n < 4 := by
  unfold linkMaxStep
  split
  · decide
  · exact fld_lt ..

/-! ## The lanes of a link pair forget what they had accepted (R246) -/

theorem lanesOf_le (n : Nat) : lanesOf n ≤ 8 := by
  unfold lanesOf
  split <;> omega

theorem laneOf_link {n l : Nat} (h : l < 8) : (8 * n + l) / 8 = n := by omega

/-- The lanes of a link pair, one after the other. -/
def lanesFreshened (n : Nat) (s : State) : State := (upto 0 (lanesOf n)).foldl (fun s l => putLane (8 * n + l) (laneFresh (laneTrack s (8 * n + l))) s) s

theorem clearLanes_eq (n : Nat) (s : State) : clearLanes n s = groupAbsent n (lanesFreshened n s) := rfl

theorem foldl_keeps {α : Type} {P : State → Prop} {f : State → α → State} {l : List α} {s : State} (h : P s) (hf : ∀ u x, x ∈ l → P u → P (f u x)) :
    P (l.foldl f s) := by
  induction l generalizing s with
  | nil => exact h
  | cons x xs ih => exact ih (hf s x List.mem_cons_self h) fun u y hy => hf u y (List.mem_cons_of_mem _ hy)

theorem upto_lanes {n l : Nat} (h : l ∈ upto 0 (lanesOf n)) : l < 8 := by
  have := upto_mem.1 h
  have := lanesOf_le n
  omega

/-- Changes of registers and of the tracks of trunks, one after the other. -/
theorem regsTrk_trans {s u t : State} (h1 : u = { s with regs := u.regs, trk := u.trk }) (h2 : t = { u with regs := t.regs, trk := t.trk }) :
    t = { s with regs := t.regs, trk := t.trk } := by
  rw [h1] at h2
  exact h2

theorem frame_lanes_links {s u t : State} (h1 : u = { s with trk := { s.trk with lanes := u.trk.lanes } }) (h2 : t = { u with trk := { u.trk with links := t.trk.links } }) :
    t = { s with trk := { s.trk with links := t.trk.links, lanes := t.trk.lanes } } := by
  rw [h1] at h2
  rw [h2]

/-- The lanes of a link pair have been cleared: nothing but their tracks and the frame timer of the group has moved. -/
structure LanesCleared (n : Nat) (s t : State) : Prop where
  frame : t = { s with trk := { s.trk with links := t.trk.links, lanes := t.trk.lanes } }
  works : LinkWorks n [] s t
  links : ∀ m, linkTrack t m = linkTrack s m ∨ m = groupHead s n ∧ linkTrack t m = { linkTrack s m with grp := none, released := none }
  lanes : ∀ m, laneTrack t m = laneTrack s m ∨ (laneTrack t m).okRun = 0

theorem lanesFreshened_spec (n : Nat) (s : State) : let t := lanesFreshened n s
    t = { s with trk := { s.trk with lanes := t.trk.lanes } } ∧ LinkWorks n [] s t ∧ ∀ m, laneTrack t m = laneTrack s m ∨ (laneTrack t m).okRun = 0 := by
  refine foldl_keeps (P := fun t => t = { s with trk := { s.trk with lanes := t.trk.lanes } } ∧ LinkWorks n [] s t
    ∧ ∀ m, laneTrack t m = laneTrack s m ∨ (laneTrack t m).okRun = 0) ⟨rfl, .refl n [] s, fun _ => .inl rfl⟩ ?_
  rintro u l hl ⟨hframe, hworks, hlanes⟩
  refine ⟨?_, hworks.putLane (laneOf_link (upto_lanes hl)) _, fun m => ?_⟩
  · rw [hframe]
    rfl
  · by_cases hm : m = 8 * n + l
    · right
      rw [hm, laneTrack_putLane_same, laneFresh, laneTrack0]
    · rw [laneTrack_putLane_ne hm]
      exact hlanes m

theorem lanesCleared_clearLanes (n : Nat) (s : State) : LanesCleared n s (clearLanes n s) := by
  obtain ⟨hframe, hworks, hlanes⟩ := lanesFreshened_spec n s
  have hdrop := timerDropped_groupAbsent n (lanesFreshened n s)
  have hlinks : ∀ m, linkTrack (lanesFreshened n s) m = linkTrack s m := fun m => by rw [hframe, linkTrack, linkTrack]
  have hlane : ∀ m, laneTrack (clearLanes n s) m = laneTrack (lanesFreshened n s) m := fun m => by rw [clearLanes_eq, hdrop.frame, laneTrack, laneTrack]
  refine ⟨?_, hworks.trans hdrop.works, fun m => ?_, fun m => ?_⟩
  · exact frame_lanes_links hframe hdrop.frame
  · rw [← hlinks m, ← hworks.moves.head]
    exact hdrop.links m
  · rw [hlane]
    exact hlanes m

theorem regs_clearLanes (n : Nat) (s : State) : (clearLanes n s).regs = s.regs := by rw [(lanesCleared_clearLanes n s).frame]

@[simp] theorem getF_clearLanes (n : Nat) (s : State) (a lo k : Nat) : getF (clearLanes n s) a lo k = getF s a lo k := getF_congr (regs_clearLanes n s) a lo k

@[simp] theorem getB_clearLanes (n : Nat) (s : State) (a b : Nat) : getB (clearLanes n s) a b = getB s a b := getB_congr (regs_clearLanes n s) a b

@[simp] theorem rd_clearLanes (n : Nat) (s : State) (a : Nat) : rd (clearLanes n s) a = rd s a := rd_congr (regs_clearLanes n s) a

/-- What a link pair's own track keeps when its lanes are cleared. -/
theorem linkTrack_clearLanes (n m : Nat) (s : State) :
    linkTrack (clearLanes n s) m = { linkTrack s m with grp := (linkTrack (clearLanes n s) m).grp, released := (linkTrack (clearLanes n s) m).released } := by
  rcases (lanesCleared_clearLanes n s).links m with h | ⟨-, h⟩ <;> rw [h]

theorem LinkWorks.clearLanes {n : Nat} {as : List Nat} {s t : State} (h : LinkWorks n as s t) : LinkWorks n as s (clearLanes n t) :=
  h.trans ((lanesCleared_clearLanes n t).works.mono (List.nil_subset as))

/-! ## The ladder starts again (R230, R233, R246) -/

/-- The ladder of a link pair has started again from step 0, sending `byte` first. -/
structure LadderRestarted (n byte : Nat) (s t : State) : Prop where
  phase : linkPhase t n = 1
  step : linkStep t n = 0
  lanes : getF t (linkStA n) 16 16 = 0
  failed : getB t (linkStA n) 3 = false
  aligned : getB t (linkStA n) 9 = false
  clock : getB t (linkStA n) 8 = getB s (linkStA n) 8
  sent : getF t (linkMsgA n) 0 8 = byte
  cap : getF t (linkMsgA n) 16 8 = 0x10 + linkMaxStep s n
  since : (linkTrack t n).since = s.mono
  txq : (linkTrack t n).txq = (linkTrack s n).txq
  counted : n ≠ 72 → getF t (Reg.trkLinkCnt n) 0 16 = min (2 ^ 16 - 1) (getF s (Reg.trkLinkCnt n) 0 16 + 1)
  mirror : n = 72 → getB t Reg.pairStatus 3 = false
  frame : t = { s with regs := t.regs, trk := t.trk }
  works : LinkWorks n (ladderRegs n) s t
  okRun : ∀ m, laneTrack t m = laneTrack s m ∨ (laneTrack t m).okRun = 0

/-- What a link pair's track keeps when its ladder starts again (R246): queued mailbox bytes stay. -/
def restartTrack (now : Nat) (t : LinkTrack) : LinkTrack :=
  { linkTrack0 with since := now, fails0 := t.fails0, txq := t.txq, rxq := t.rxq, sends := t.sends, ql := t.ql, grp := t.grp, released := t.released }

/-- A link pair's registers as its ladder starts again, sending `byte`. -/
def ladderMarked (n byte : Nat) (s : State) : State :=
  let s := putF (linkStA n) 9 1 0 (putF (linkStA n) 12 1 0 (putF (linkStA n) 16 16 0 s))
  wr (linkMsgA n) (BitVec.ofNat 32 (byte + (0x10 + linkMaxStep s n) * 65536)) s

/-- The restart is noted (R249; 15_the_pair.md R561). -/
def ladderNoted (n : Nat) (s : State) : State := if n = 72 then putB Reg.pairStatus 3 false s else bump (Reg.trkLinkCnt n) 0 16 1 s

/-- A link pair at step 0 with its lanes cleared. -/
def ladderCleared (n : Nat) (s : State) : State := clearLanes n (putF (linkStA n) 0 8 1 (putLink n (restartTrack s.mono (linkTrack s n)) s))

theorem ladderRestart_eq (n byte : Nat) (s : State) : ladderRestart n byte s = ladderNoted n (ladderMarked n byte (ladderCleared n s)) := by
  simp only [ladderRestart, ladderNoted, ladderMarked, ladderCleared, restartTrack]

theorem ladderMarked_frame (n byte : Nat) (s : State) : ladderMarked n byte s = { s with regs := (ladderMarked n byte s).regs } := by
  simp only [ladderMarked, putF]
  exact regs_trans (regs_trans (regs_trans (wr_eq ..) (wr_eq ..)) (wr_eq ..)) (wr_eq ..)

theorem ladderNoted_frame (n : Nat) (s : State) : ladderNoted n s = { s with regs := (ladderNoted n s).regs } := by
  unfold ladderNoted
  split <;> rfl

theorem ladderCleared_spec (n : Nat) (s : State) : let t := ladderCleared n s
    t = { s with regs := t.regs, trk := t.trk } ∧ LinkWorks n [linkStA n] s t ∧ getF t (linkStA n) 0 8 = 1 ∧ (∀ b, 8 ≤ b → getB t (linkStA n) b = getB s (linkStA n) b)
      ∧ (linkTrack t n).since = s.mono ∧ (linkTrack t n).txq = (linkTrack s n).txq ∧ ∀ m, laneTrack t m = laneTrack s m ∨ (laneTrack t m).okRun = 0 := by
  obtain ⟨u, hu⟩ : ∃ u, putF (linkStA n) 0 8 1 (putLink n (restartTrack s.mono (linkTrack s n)) s) = u := ⟨_, rfl⟩
  have hus : u = { s with regs := u.regs, trk := u.trk } := by rw [← hu]; rfl
  have htrack : linkTrack u n = restartTrack s.mono (linkTrack s n) := by rw [← hu, linkTrack_putF, linkTrack_putLink_same]
  have hlane : ∀ m, laneTrack u m = laneTrack s m := fun m => by rw [← hu]; simp
  have hworks : LinkWorks n [linkStA n] s u := by
    rw [← hu]
    exact ((LinkWorks.refl n _ s).putLink _).putF (by simp) (trkGrpStatus_apart n).1 0 8 1
  have hcleared := lanesCleared_clearLanes n u
  have hlink := linkTrack_clearLanes n n u
  simp only [ladderCleared, hu]
  refine ⟨regsTrk_trans hus (by rw [hcleared.frame]), hworks.clearLanes, ?_, fun b hb => ?_, ?_, ?_, fun m => ?_⟩
  · simp [← hu, getF_putF_same]
  · rw [getB_clearLanes, ← hu, getB_putF_fld _ _ _ (by decide) (.inr hb), getB_putLink]
  · rw [hlink, htrack]
    rfl
  · rw [hlink, htrack]
    rfl
  · rw [← hlane]
    exact hcleared.lanes m

/-- The fields that a link pair shows as its ladder starts again. -/
theorem ladderMarked_regs (n byte : Nat) (s : State) (hb : byte < 256) : let t := ladderMarked n byte s
    getF t (linkStA n) 0 8 = getF s (linkStA n) 0 8 ∧ getF t (linkStA n) 16 16 = 0 ∧ getB t (linkStA n) 9 = false ∧ getB t (linkStA n) 8 = getB s (linkStA n) 8
      ∧ getF t (linkMsgA n) 0 8 = byte ∧ getF t (linkMsgA n) 16 8 = 0x10 + linkMaxStep s n := by
  obtain ⟨hma, ham, -⟩ := ladderRegs_apart n
  obtain ⟨hca, -⟩ := trkLinkCtrl_apart n
  have hword : ∀ m, m < 4 → fld (BitVec.ofNat 32 (byte + (0x10 + m) * 65536)) 0 8 = byte ∧ fld (BitVec.ofNat 32 (byte + (0x10 + m) * 65536)) 16 8 = 0x10 + m := by
    intro m hm
    simp only [fld, BitVec.toNat_ofNat]
    omega
  intro t
  refine ⟨?_, ?_, ?_, ?_, ?_⟩
  · simp [t, ladderMarked, getF_wr_ne, ham, getF_putF_fld]
  · simp [t, ladderMarked, getF_wr_ne, ham, getF_putF_fld, getF_putF_same]
  · simp [t, ladderMarked, getB_wr_ne, ham, getB_putF_within]
  · simp [t, ladderMarked, getB_wr_ne, ham, getB_putF_fld]
  · simp only [t, ladderMarked, getF_wr_same]
    rw [linkMaxStep_congr (s := s) (by simp [rd_putF_ne, hca])]
    exact hword _ (linkMaxStep_lt s n)

theorem ladderMarked_works (n byte : Nat) (s : State) : LinkWorks n [linkStA n, linkMsgA n] s (ladderMarked n byte s) := by
  obtain ⟨hga, hgm, -⟩ := trkGrpStatus_apart n
  have ha : linkStA n ∈ [linkStA n, linkMsgA n] := by simp
  exact ((((LinkWorks.refl n _ s).putF ha hga 16 16 0).putF ha hga 12 1 0).putF ha hga 9 1 0).wr (by simp) hgm _

theorem ladderNoted_spec (n : Nat) (s : State) : let t := ladderNoted n s
    LinkWorks n [linkNoteA n] s t ∧ (n ≠ 72 → getF t (Reg.trkLinkCnt n) 0 16 = min (2 ^ 16 - 1) (getF s (Reg.trkLinkCnt n) 0 16 + 1))
      ∧ (n = 72 → getB t Reg.pairStatus 3 = false) := by
  obtain ⟨-, -, hgc⟩ := trkGrpStatus_apart n
  by_cases hn : n = 72
  · simp only [linkNoteA, ladderNoted, hn, if_true] at hgc ⊢
    exact ⟨(LinkWorks.refl _ _ s).putB (by simp) hgc 3 false, fun h => absurd rfl h, fun _ => getB_putB_same _ _ _ (by decide)⟩
  · simp only [linkNoteA, ladderNoted, hn, if_false] at hgc ⊢
    exact ⟨(LinkWorks.refl _ _ s).bump (by simp) hgc 0 16 1, fun _ => getF_bump_same _ _ _ (by decide), fun h => absurd h (by simp)⟩

theorem ladderRestarted (n byte : Nat) (s : State) (hb : byte < 256) : LadderRestarted n byte s (ladderRestart n byte s) := by
  rw [ladderRestart_eq]
  obtain ⟨hframe1, hworks1, hlow, hkept, hsince, htxq, hokRun⟩ := ladderCleared_spec n s
  generalize ladderCleared n s = u at *
  obtain ⟨hlow2, hlanes, haligned, hclock, hsent, hcap⟩ := ladderMarked_regs n byte u hb
  have hworks2 := ladderMarked_works n byte u
  have hframe2 := ladderMarked_frame n byte u
  generalize ladderMarked n byte u = v at *
  obtain ⟨hworks3, hcount, hmirror⟩ := ladderNoted_spec n v
  have hframe3 := ladderNoted_frame n v
  generalize ladderNoted n v = t at *
  obtain ⟨hma, ham, hca, hac, hcm, hmc⟩ := ladderRegs_apart n
  have hsta : rd t (linkStA n) = rd v (linkStA n) := hworks3.moves.regs _ (by simpa using hac)
  have hmsg : rd t (linkMsgA n) = rd v (linkMsgA n) := hworks3.moves.regs _ (by simpa using hmc)
  have hnote : rd v (linkNoteA n) = rd s (linkNoteA n) :=
    (hworks2.moves.regs _ (by simp [hca, hcm])).trans (hworks1.moves.regs _ (by simpa using hca))
  have hctrl : linkMaxStep u n = linkMaxStep s n := linkMaxStep_congr (hworks1.moves.regs _ (by simpa using (trkLinkCtrl_apart n).1))
  have hstatus : ∀ lo k, lo + k ≤ 8 → getF t (linkStA n) lo k = 1 / 2 ^ lo % 2 ^ k := by
    intro lo k h
    rw [getF, hsta, fld_within _ (Nat.zero_le lo) (by simpa using h), ← getF, hlow2, hlow, Nat.sub_zero]
  have hbit : ∀ b, getB t (linkStA n) b = getB v (linkStA n) b := fun b => by rw [getB, hsta, getB]
  have hfields : ∀ lo k, getF t (linkMsgA n) lo k = getF v (linkMsgA n) lo k := fun lo k => by rw [getF, hmsg, getF]
  have hframe : t = { u with regs := t.regs } := by
    rw [hframe2] at hframe3
    exact hframe3
  have htrk : t.trk = u.trk := by rw [hframe]
  exact
    { phase := hstatus 0 3 (by decide)
      step := hstatus 4 2 (by decide)
      lanes := by rw [getF, hsta, ← getF, hlanes]
      failed := by rw [getB_eq_getF, hstatus 3 1 (by decide)]; rfl
      aligned := by rw [hbit, haligned]
      clock := by rw [hbit, hclock, hkept 8 (le_refl 8)]
      sent := by rw [hfields, hsent]
      cap := by rw [hfields, hcap, hctrl]
      since := by rw [linkTrack_congr htrk, hsince]
      txq := by rw [linkTrack_congr htrk, htxq]
      counted := fun hn => by
        simp only [linkNoteA, hn, if_false] at hnote
        rw [hcount hn, getF, hnote, getF]
      mirror := hmirror
      frame := regsTrk_trans hframe1 (by rw [hframe])
      works := (hworks1.mono (by simp)).trans ((hworks2.mono (by simp)).trans (hworks3.mono (by simp)))
      okRun := fun m => by rw [laneTrack_congr htrk]; exact hokRun m }

end Sys2Proof.Machine
end


section
/-! A step of the ladder fails (05_trunk_lanes.md R229, R232). -/

namespace Sys2Proof.Machine

/-! ## A step fails (R229, R232) -/

/-- The ladder of a link pair has fallen back to the step below (R232): NAK, SHORT, and its record. -/
structure LadderFellBack (n : Nat) (s t : State) : Prop where
  step : linkStep t n = linkStep s n - 1
  txStep : getF t (linkStA n) 6 2 = linkStep s n - 1
  phase : linkPhase t n = 1
  short : getB t (linkStA n) 10 = true
  sent : getF t (linkMsgA n) 0 8 = 0x50 + linkStep s n
  accepted : getF t (linkMsgA n) 8 8 = getF s (linkMsgA n) 8 8
  skew : getB t (linkStA n) 13 = getB s (linkStA n) 13
  since : (linkTrack t n).since = s.mono
  works : LinkWorks n [linkStA n, linkMsgA n] s t
  lanes : ∀ m, laneTrack t m = laneTrack s m

/-- A link pair's registers as its ladder falls back, with NAK sent. -/
def ladderBelow (n : Nat) (s : State) : State :=
  let a := linkStA n
  let k := linkStep s n
  let s := putF a 6 2 (k - 1) (putF a 4 2 (k - 1) s)
  sendByte n (0x50 + k) (putF a 16 8 0 (putF a 9 1 0 (putF a 0 3 1 s)))

/-- A link pair's track as its ladder falls back. -/
def fallbackTrack (now : Nat) (t : LinkTrack) : LinkTrack := { t with since := now, nakAcc := true, doneAcc := false, txTo := none, bothReady := none }

theorem ladderFallback_eq (n : Nat) (s : State) : ladderFallback n s
    = flagEvent (linkSrc n) noInst (linkStA n) 10 (putLink n (fallbackTrack (ladderBelow n s).mono (linkTrack (ladderBelow n s) n)) (ladderBelow n s)) := by
  simp only [ladderFallback, ladderBelow, fallbackTrack]

theorem ladderBelow_works (n : Nat) (s : State) : LinkWorks n [linkStA n, linkMsgA n] s (ladderBelow n s) := by
  obtain ⟨hga, hgm, -⟩ := trkGrpStatus_apart n
  have ha : linkStA n ∈ [linkStA n, linkMsgA n] := by simp
  exact (((((((LinkWorks.refl n _ s).putF ha hga 4 2 _).putF ha hga 6 2 _).putF ha hga 0 3 1).putF ha hga 9 1 0).putF ha hga 16 8 0).putF (by simp) hgm 0 8 _).putLink _

theorem linkStep_lt (s : State) (n : Nat) : linkStep s n < 4 := fld_lt ..

theorem ladderFallback_works (n : Nat) (s : State) : LinkWorks n [linkStA n, linkMsgA n] s (ladderFallback n s) := by
  rw [ladderFallback_eq]
  exact ((ladderBelow_works n s).putLink _).flagEvent (by simp) (trkGrpStatus_apart n).1 _ _ 10

theorem ladderFellBack (n : Nat) (s : State) : LadderFellBack n s (ladderFallback n s) := by
  obtain ⟨hma, ham, -⟩ := ladderRegs_apart n
  have hk : getF s (linkStA n) 4 2 < 4 := linkStep_lt s n
  refine ⟨?_, ?_, ?_, ?_, ?_, ?_, ?_, ?_, ladderFallback_works n s, fun m => ?_⟩
  · simp [ladderFallback, linkStep, flagEvent, raiseFlag, sendByte, getF_putB_fld, getF_putF_ne, ham, getF_putF_fld, getF_putF_same]
    omega
  · simp [ladderFallback, linkStep, flagEvent, raiseFlag, sendByte, getF_putB_fld, getF_putF_ne, ham, getF_putF_fld, getF_putF_same]
    omega
  · simp [ladderFallback, linkPhase, flagEvent, raiseFlag, sendByte, getF_putB_fld, getF_putF_ne, ham, getF_putF_fld, getF_putF_same]
  · simp [ladderFallback, flagEvent, raiseFlag, sendByte, getB_putB_same]
  · simp [ladderFallback, linkStep, flagEvent, raiseFlag, sendByte, getF_putB_ne, hma, getF_putF_same]
    omega
  · simp [ladderFallback, flagEvent, raiseFlag, sendByte, getF_putB_ne, hma, getF_putF_ne, getF_putF_fld]
  · simp [ladderFallback, flagEvent, raiseFlag, sendByte, getB_putB_bit, getB_putF_ne, ham, getB_putF_fld]
  · rw [ladderFallback_eq, (ladderBelow_works n s).moves.mono_eq, flagEvent, raiseFlag, linkTrack_raise, linkTrack_putB, linkTrack_putLink_same, fallbackTrack]
  · simp [ladderFallback, flagEvent, raiseFlag, sendByte]

end Sys2Proof.Machine
end


section
/-! The transmitter's step, RUN and the time-outs of the ladder (05_trunk_lanes.md R221, R229 to R234). -/

namespace Sys2Proof.Machine

/-! ## What the ladder reads does not rest on the time -/

@[simp] theorem linkPhase_tick (dt : Nat) (s : State) (n : Nat) : linkPhase (tick dt s) n = linkPhase s n := rfl
@[simp] theorem linkStep_tick (dt : Nat) (s : State) (n : Nat) : linkStep (tick dt s) n = linkStep s n := rfl
@[simp] theorem linkRun_tick (dt : Nat) (s : State) (n : Nat) : linkRun (tick dt s) n = linkRun s n := rfl
@[simp] theorem linkFollower_tick (dt : Nat) (s : State) (n : Nat) : linkFollower (tick dt s) n = linkFollower s n := rfl
@[simp] theorem linkMaxStep_tick (dt : Nat) (s : State) (n : Nat) : linkMaxStep (tick dt s) n = linkMaxStep s n := rfl
@[simp] theorem ladderRuns_tick (dt : Nat) (s : State) (n : Nat) : ladderRuns (tick dt s) n = ladderRuns s n := rfl
@[simp] theorem tick_mono (dt : Nat) (s : State) : (tick dt s).mono = s.mono + dt := rfl
@[simp] theorem tick_now (dt : Nat) (s : State) : (tick dt s).now = s.now + dt := rfl

/-! ## The transmitter changes step (R230) -/

/-- A link pair's registers as its transmitter takes step `k`. -/
def txMarked (n k : Nat) (s : State) : State :=
  let a := linkStA n
  sendByte n 0x00 (putF a 16 8 0 (putF a 8 2 0 (putF a 6 2 k (putF a 4 2 k (putF a 0 3 1 s)))))

/-- A link pair's track as its transmitter takes a step. -/
def txTrack (now : Nat) (t : LinkTrack) : LinkTrack := { t with txTo := none, since := now, bothReady := none, nakAcc := false, doneAcc := false }

theorem txStep_idle {n : Nat} {s : State} (h : (linkTrack s n).txTo = none ∨ linkFollower s n = true ∧ (linkTrack s n).sent < 16) : txStep n s = s := by
  unfold txStep
  dsimp only
  rcases h with h | h
  · rw [h]
  · cases (linkTrack s n).txTo with
    | none => rfl
    | some k => exact if_pos h

theorem txStep_some {n k : Nat} {s : State} (h : (linkTrack s n).txTo = some k) (hf : linkFollower s n = true → 16 ≤ (linkTrack s n).sent) :
    txStep n s = putLink n (txTrack (txMarked n k s).mono (linkTrack (txMarked n k s) n)) (clearLanes n (txMarked n k s)) := by
  have hc : ¬ (linkFollower s n = true ∧ (linkTrack s n).sent < 16) := fun hx => absurd (hf hx.1) (by omega)
  simp only [txStep, h, if_neg hc, txMarked, txTrack]

theorem txMarked_works (n k : Nat) (s : State) : LinkWorks n [linkStA n, linkMsgA n] s (txMarked n k s) := by
  obtain ⟨hga, hgm, -⟩ := trkGrpStatus_apart n
  have ha : linkStA n ∈ [linkStA n, linkMsgA n] := by simp
  exact (((((((LinkWorks.refl n _ s).putF ha hga 0 3 1).putF ha hga 4 2 k).putF ha hga 6 2 k).putF ha hga 8 2 0).putF ha hga 16 8 0).putF (by simp) hgm 0 8 _).putLink _

/-- The transmitter of a link pair has taken step `k`, and its receive direction starts again at CK_WAIT. -/
structure TxStepped (n k : Nat) (s t : State) : Prop where
  step : linkStep t n = k
  txStep : getF t (linkStA n) 6 2 = k
  phase : linkPhase t n = 1
  clock : getB t (linkStA n) 8 = false
  aligned : getB t (linkStA n) 9 = false
  lanes : getF t (linkStA n) 16 8 = 0
  sent : getF t (linkMsgA n) 0 8 = 0
  txTo : (linkTrack t n).txTo = none
  since : (linkTrack t n).since = s.mono
  works : LinkWorks n [linkStA n, linkMsgA n] s t

theorem txStepped {n k : Nat} {s : State} (hk : k < 4) (h : (linkTrack s n).txTo = some k) (hf : linkFollower s n = true → 16 ≤ (linkTrack s n).sent) :
    TxStepped n k s (txStep n s) := by
  obtain ⟨hma, ham, -⟩ := ladderRegs_apart n
  have hworks := txMarked_works n k s
  have hregs : ∀ lo m, getF (txMarked n k s) (linkStA n) lo m = getF (putF (linkStA n) 16 8 0 (putF (linkStA n) 8 2 0 (putF (linkStA n) 6 2 k
      (putF (linkStA n) 4 2 k (putF (linkStA n) 0 3 1 s))))) (linkStA n) lo m := fun lo m => by simp [txMarked, sendByte, getF_putF_ne ham]
  have hsent : getF (txMarked n k s) (linkMsgA n) 0 8 = 0 := by simp [txMarked, sendByte, getF_putF_same]
  rw [txStep_some h hf]
  have hmono := hworks.moves.mono_eq
  generalize txMarked n k s = u at *
  refine ⟨?_, ?_, ?_, ?_, ?_, ?_, ?_, ?_, ?_, hworks.clearLanes.putLink _⟩
  · simp [linkStep, hregs, getF_putF_fld, getF_putF_same, Nat.mod_eq_of_lt hk]
  · simp [hregs, getF_putF_fld, getF_putF_same, Nat.mod_eq_of_lt hk]
  · simp [linkPhase, hregs, getF_putF_fld, getF_putF_same]
  · simp [getB_eq_getF, hregs, getF_putF_fld, getF_putF_within]
  · simp [getB_eq_getF, hregs, getF_putF_fld, getF_putF_within]
  · simp [hregs, getF_putF_same]
  · simp [hsent]
  · simp [txTrack]
  · simp [txTrack, hmono]

/-! ## RUN (R231, R234) -/

/-- The step that RUN requires (R234; 15_the_pair.md R561). -/
abbrev linkReq (s : State) (n : Nat) : Nat := if n = 72 then 3 else getF s (Reg.trkLinkCtrl n) 8 2

/-- DONE has been accepted and sent in 16 frames (R231). -/
abbrev RunDue (s : State) (n : Nat) : Prop :=
  (linkTrack s n).doneAcc = true ∧ 16 ≤ (linkTrack s n).sent ∧ getF s (linkMsgA n) 0 8 = 0x70 + linkStep s n ∧ linkPhase s n = 6

/-- A link pair's registers and track as it enters RUN. -/
def runMarked (n : Nat) (s : State) : State :=
  let u := putLink n { linkTrack s n with since := s.mono, fails0 := 0 } (putF (linkStA n) 0 3 7 s)
  if n = 72 then putB Reg.pairStatus 3 (decide (linkStep s n = 3)) u else u

theorem runEntry_due {n : Nat} {s : State} (h : RunDue s n) : runEntry n s
    = if linkStep s n < linkReq (runMarked n s) n then flagEvent (linkSrc n) noInst (linkStA n) 12 (runMarked n s) else runMarked n s := by
  have hc : (linkTrack s n).doneAcc = true ∧ 16 ≤ (linkTrack s n).sent ∧ getF s (linkMsgA n) 0 8 = 0x70 + linkStep s n ∧ linkPhase s n = 6 := h
  simp only [runEntry, if_pos hc, runMarked]

theorem runEntry_idle {n : Nat} {s : State} (h : ¬ RunDue s n) : runEntry n s = s := if_neg h

theorem runMarked_spec (n : Nat) (s : State) : let t := runMarked n s
    LinkWorks n (ladderRegs n) s t ∧ t.evq = s.evq ∧ linkPhase t n = 7 ∧ linkStep t n = linkStep s n ∧ getB t (linkStA n) 12 = getB s (linkStA n) 12
      ∧ (n = 72 → getB t Reg.pairStatus 3 = decide (linkStep s n = 3)) := by
  obtain ⟨hga, -, hgc⟩ := trkGrpStatus_apart n
  obtain ⟨-, -, -, hac, -⟩ := ladderRegs_apart n
  obtain ⟨u, hu⟩ : ∃ u, putLink n { linkTrack s n with since := s.mono, fails0 := 0 } (putF (linkStA n) 0 3 7 s) = u := ⟨_, rfl⟩
  have hworks : LinkWorks n (ladderRegs n) s u := by
    rw [← hu]
    exact ((LinkWorks.refl n _ s).putF (by simp) hga 0 3 7).putLink _
  have hevq : u.evq = s.evq := by rw [← hu, putLink_evq, putF_evq]
  have hphase : linkPhase u n = 7 := by simp [← hu, linkPhase, getF_putF_same]
  have hstep : linkStep u n = linkStep s n := by simp [← hu, linkStep, getF_putF_fld]
  have hreq : getB u (linkStA n) 12 = getB s (linkStA n) 12 := by simp [← hu, getB_putF_fld]
  simp only [runMarked, hu]
  by_cases hn : n = 72
  · subst hn
    simp only [linkNoteA, if_true] at hgc hac ⊢
    refine ⟨hworks.putB (by simp) hgc 3 _, hevq, ?_, ?_, ?_, fun _ => getB_putB_same _ _ _ (by decide)⟩
    · rw [← hphase, linkPhase, getF_putB_ne hac, linkPhase]
    · rw [← hstep, linkStep, getF_putB_ne hac, linkStep]
    · rw [← hreq, getB_putB_ne hac]
  · simp only [if_neg hn]
    exact ⟨hworks, hevq, hphase, hstep, hreq, fun h => absurd h hn⟩

/-- A link pair has entered RUN, with BELOW_REQ where its step is below the one required. -/
structure RunEntered (n : Nat) (s t : State) : Prop where
  phase : linkPhase t n = 7
  step : linkStep t n = linkStep s n
  below : linkStep s n < linkReq s n → getB t (linkStA n) 12 = true
  enough : linkReq s n ≤ linkStep s n → getB t (linkStA n) 12 = getB s (linkStA n) 12 ∧ t.evq = s.evq
  mirror : n = 72 → getB t Reg.pairStatus 3 = decide (linkStep s n = 3)
  works : LinkWorks n (ladderRegs n) s t

theorem runEntered {n : Nat} {s : State} (h : RunDue s n) : RunEntered n s (runEntry n s) := by
  obtain ⟨hworks, hevq, hphase, hstep, hkept, hmirror⟩ := runMarked_spec n s
  obtain ⟨-, -, -, hac, -⟩ := ladderRegs_apart n
  have hctrl : rd (runMarked n s) (Reg.trkLinkCtrl n) = rd s (Reg.trkLinkCtrl n) := hworks.moves.regs _ (by simp [trkLinkCtrl_apart n])
  have hreq : linkReq (runMarked n s) n = linkReq s n := by simp only [linkReq, getF, hctrl]
  rw [runEntry_due h, hreq]
  generalize runMarked n s = u at *
  by_cases hb : linkStep s n < linkReq s n
  · rw [if_pos hb]
    have hfields : ∀ lo k, lo + k ≤ 12 → getF (flagEvent (linkSrc n) noInst (linkStA n) 12 u) (linkStA n) lo k = getF u (linkStA n) lo k := fun lo k hk => by
      rw [flagEvent, raiseFlag, getF_raise, getF_putB_fld _ _ _ (by decide) (.inl hk)]
    refine ⟨(hfields 0 3 (by decide)).trans hphase, (hfields 4 2 (by decide)).trans hstep, fun _ => ?_, fun hr => absurd hb (by omega), fun hn => ?_,
      hworks.flagEvent (by simp) (trkGrpStatus_apart n).1 _ _ 12⟩
    · rw [flagEvent, raiseFlag, getB_raise, getB_putB_same _ _ _ (by decide)]
    · subst hn
      rw [flagEvent, raiseFlag, getB_raise, getB_putB_ne (by decide), hmirror rfl]
  · rw [if_neg hb]
    exact ⟨hphase, hstep, fun h => absurd h hb, fun _ => ⟨hkept, hevq⟩, hmirror, hworks⟩

/-! ## Time-outs and the retry of FAILED (R221, R229, R232, R233) -/

/-- 100 ms have passed with two followers (R221). -/
abbrev BothFollow (s : State) (n : Nat) : Prop := linkFollower s n = true ∧ ((linkTrack s n).bothReady.any fun t0 => decide (t0 + 100 * tickMs ≤ s.mono)) = true

theorem followerTimeout_due {n : Nat} {s : State} (h : BothFollow s n) :
    followerTimeout n s = flagEvent (linkSrc n) noInst (linkStA n) 11 (putLink n { linkTrack s n with bothReady := none } s) := by
  obtain ⟨hf, ht⟩ := h
  rcases h0 : (linkTrack s n).bothReady with _ | t0
  · rw [h0] at ht
    cases ht
  · rw [h0, Option.any_some] at ht
    simp only [followerTimeout, h0]
    rw [if_pos]
    exact ⟨hf, of_decide_eq_true ht⟩

theorem followerTimeout_idle {n : Nat} {s : State} (h : ¬ BothFollow s n) : followerTimeout n s = s := by
  rcases h0 : (linkTrack s n).bothReady with _ | t0
  · simp only [followerTimeout, h0]
  · simp only [followerTimeout, h0]
    rw [if_neg]
    rintro ⟨hf, ht⟩
    refine h ⟨hf, ?_⟩
    rw [h0, Option.any_some]
    exact decide_eq_true ht

end Sys2Proof.Machine
end


section
/-! A lane loses alignment in RUN, or its search fails (05_trunk_lanes.md R235 to R239). -/

namespace Sys2Proof.Machine

theorem conflictSet {n : Nat} {s : State} (h : BothFollow s n) : let t := followerTimeout n s
    getB t (linkStA n) 11 = true ∧ linkPhase t n = linkPhase s n ∧ linkTrack t n = { linkTrack s n with bothReady := none } ∧ LinkWorks n [linkStA n] s t := by
  rw [followerTimeout_due h]
  refine ⟨?_, ?_, ?_, ((LinkWorks.refl n _ s).putLink _).flagEvent (by simp) (trkGrpStatus_apart n).1 _ _ 11⟩
  · simp [flagEvent, raiseFlag, getB_putB_same]
  · simp [linkPhase, flagEvent, raiseFlag, getF_putB_fld]
  · simp [flagEvent, raiseFlag]

/-! ## A lane loses alignment in RUN (R235 to R237) -/

/-- What a lane's track forgets when its alignment is lost or its search fails. -/
def laneReset (t : LaneTrack) : LaneTrack :=
  { t with lossDue := false, badHdr := 0, errAt := [], passed := 0, okRun := 0, slips := 0, slipWait := 0, swept := false }

/-- The failures of a lane's search within the last 10 s, with one now (R237). -/
def searchFails (t : LaneTrack) (now : Nat) : List Nat := (t.failTimes.filter fun x => decide (now < x + 10 * tickSec)) ++ [now]

/-- The registers of a trunk's lane that its loss of alignment moves. -/
def laneLossRegs (m : Nat) : List Nat := if m / 8 = 72 then [] else [Reg.trkLaneStatus m, Reg.trkLinkCnt (m / 8)]

/-- A lane of a link pair searches again from now on, and the registers of a trunk show it. -/
def laneSearches (m : Nat) (s : State) : State :=
  let s := putLane m { laneReset (laneTrack s m) with searching := true } (groupAbsent (m / 8) (putB (linkStA (m / 8)) (16 + m % 8) false s))
  if m / 8 = 72 then s else putB (Reg.trkLaneStatus m) 0 false (putB (Reg.trkLaneStatus m) 2 true (bump (Reg.trkLinkCnt (m / 8)) 16 16 1 s))

/-- The search of a lane has failed once more, at times `fs`. -/
def searchFailed (m : Nat) (fs : List Nat) (s : State) : State := putLane m { laneReset (laneTrack s m) with failTimes := fs } s

/-- The third failure within 10 s marks the lane failed (R237). -/
def laneFails (m : Nat) (fs : List Nat) (s : State) : State :=
  raiseFlag (linkSrc (m / 8)) (m % 8) (linkStA (m / 8)) (24 + m % 8) (putB (linkStA (m / 8)) (24 + m % 8) true
    (putLane m { laneReset (laneTrack s m) with failTimes := fs, searching := false } (searchFailed m fs s)))

/-- A lane leaves the aligned lanes, with its record; the search waits for the firmware where it is away (R239). -/
def laneDrops (m : Nat) (s : State) : State :=
  let u := laneSearches m s
  raiseFlag (linkSrc (m / 8)) (m % 8) (linkStA (m / 8)) (16 + m % 8) (putLink (m / 8) { linkTrack u (m / 8) with waitFw := decide (server u ≠ 1) } u)

theorem laneLost_eq (m : Nat) (s : State) : laneLost m s =
    if linkRun s (m / 8) = false ∨ getB s (linkStA (m / 8)) (24 + m % 8) = true then s
    else if (laneTrack s m).searching = true then
      if 3 ≤ (searchFails (laneTrack s m) s.mono).length then laneFails m (searchFails (laneTrack s m) s.mono) s
      else searchFailed m (searchFails (laneTrack s m) s.mono) s
    else if getB s (linkStA (m / 8)) (16 + m % 8) = true then laneDrops m s
    else s := rfl

theorem laneRegs_apart (m : Nat) : Reg.trkLaneStatus m ≠ Reg.trkGrpStatus (m / 8) ∧ Reg.trkLinkCnt (m / 8) ≠ Reg.trkLaneStatus m
    ∧ (m / 8 ≠ 72 → linkStA (m / 8) ≠ Reg.trkLaneStatus m ∧ linkStA (m / 8) ≠ Reg.trkLinkCnt (m / 8)) := by
  have hq : m / 8 / 18 = m / 144 := Nat.div_div_eq_div_mul ..
  refine ⟨?_, ?_, fun hn => ?_⟩
  · simp only [Reg.trkLaneStatus, Reg.trkGrpStatus]
    omega
  · simp only [Reg.trkLinkCnt, Reg.trkLaneStatus]
    omega
  · simp only [linkStA, if_neg hn, Reg.trkLinkStatus, Reg.trkLaneStatus, Reg.trkLinkCnt]
    omega

/-- The bits of `LINK_STATUS` but for that of one lane's alignment and that of its failure read as before. -/
def LaneBitsBut (m : Nat) (s t : State) : Prop := (∀ lo k, lo + k ≤ 16 → getF t (linkStA (m / 8)) lo k = getF s (linkStA (m / 8)) lo k)
  ∧ ∀ b, b < 32 → b ≠ 16 + m % 8 → b ≠ 24 + m % 8 → getB t (linkStA (m / 8)) b = getB s (linkStA (m / 8)) b

theorem LaneBitsBut.of_putB {m b : Nat} {s t : State} (v : Bool) (hb : b = 16 + m % 8 ∨ b = 24 + m % 8)
    (h : rd t (linkStA (m / 8)) = rd (putB (linkStA (m / 8)) b v s) (linkStA (m / 8))) : LaneBitsBut m s t := by
  have hlt : b < 32 := by omega
  refine ⟨fun lo k hk => ?_, fun c _ h1 h2 => ?_⟩
  · rw [getF, h, ← getF, getF_putB_fld _ _ _ hlt (.inl (by omega))]
  · rw [getB, h, ← getB, getB_putB_bit _ _ _ hlt (by omega)]

/-- The registers of a trunk show that a lane has left the aligned lanes. -/
def laneShownLost (m : Nat) (s : State) : State :=
  if m / 8 = 72 then s else putB (Reg.trkLaneStatus m) 0 false (putB (Reg.trkLaneStatus m) 2 true (bump (Reg.trkLinkCnt (m / 8)) 16 16 1 s))

theorem laneSearches_eq (m : Nat) (s : State) : laneSearches m s
    = laneShownLost m (putLane m { laneReset (laneTrack s m) with searching := true } (groupAbsent (m / 8) (putB (linkStA (m / 8)) (16 + m % 8) false s))) := rfl

theorem laneShownLost_spec (m : Nat) (s : State) : let t := laneShownLost m s
    LinkWorks (m / 8) (laneLossRegs m) s t ∧ t.trk = s.trk ∧ rd t (linkStA (m / 8)) = rd s (linkStA (m / 8))
      ∧ (m / 8 ≠ 72 → getF t (Reg.trkLinkCnt (m / 8)) 16 16 = min (2 ^ 16 - 1) (getF s (Reg.trkLinkCnt (m / 8)) 16 16 + 1)) := by
  obtain ⟨hg, hc, ha⟩ := laneRegs_apart m
  have hgc := (trkGrpStatus_apart (m / 8)).2.2
  by_cases hn : m / 8 = 72
  · simp only [laneShownLost, if_pos hn]
    exact ⟨.refl _ _ s, trivial, trivial, fun h => absurd hn h⟩
  · simp only [linkNoteA, if_neg hn] at hgc
    obtain ⟨ha1, ha2⟩ := ha hn
    simp only [laneShownLost, laneLossRegs, if_neg hn]
    refine ⟨(((LinkWorks.refl _ _ s).bump (by simp) hgc 16 16 1).putB (by simp) hg.symm 2 true).putB (by simp) hg.symm 0 false,
      by rw [putB_trk, putB_trk, bump_trk], ?_, fun _ => ?_⟩
    · rw [rd_putB_ne ha1, rd_putB_ne ha1, rd_bump_ne ha2]
    · rw [getF_putB_ne hc, getF_putB_ne hc, getF_bump_same _ _ _ (by decide)]

theorem laneSearches_spec (m : Nat) (s : State) : let t := laneSearches m s
    LinkWorks (m / 8) (linkStA (m / 8) :: laneLossRegs m) s t ∧ rd t (linkStA (m / 8)) = rd (putB (linkStA (m / 8)) (16 + m % 8) false s) (linkStA (m / 8))
      ∧ (m / 8 ≠ 72 → getF t (Reg.trkLinkCnt (m / 8)) 16 16 = min (2 ^ 16 - 1) (getF s (Reg.trkLinkCnt (m / 8)) 16 16 + 1))
      ∧ laneTrack t m = { laneReset (laneTrack s m) with searching := true } ∧ (∀ k, k ≠ m → laneTrack t k = laneTrack s k)
      ∧ linkTrack t (m / 8) = { linkTrack s (m / 8) with grp := (linkTrack t (m / 8)).grp, released := (linkTrack t (m / 8)).released } := by
  obtain ⟨u, hu⟩ : ∃ u, putB (linkStA (m / 8)) (16 + m % 8) false s = u := ⟨_, rfl⟩
  have hdrop := timerDropped_groupAbsent (m / 8) u
  obtain ⟨v, hv⟩ : ∃ v, groupAbsent (m / 8) u = v := ⟨_, rfl⟩
  rw [laneSearches_eq, hu, hv]
  rw [hv] at hdrop
  obtain ⟨hworks, htrk, hrd, hcount⟩ := laneShownLost_spec m (putLane m { laneReset (laneTrack s m) with searching := true } v)
  have hvr : v.regs = u.regs := by rw [hdrop.frame]
  have hlane : ∀ k, laneTrack v k = laneTrack s k := fun k => by
    rw [laneTrack, hdrop.frame, ← hu, laneTrack]
    rfl
  have hpre : LinkWorks (m / 8) (linkStA (m / 8) :: laneLossRegs m) s v := by
    have hput := (LinkWorks.refl (m / 8) (linkStA (m / 8) :: laneLossRegs m) s).putB (by simp) (trkGrpStatus_apart (m / 8)).1 (16 + m % 8) false
    rw [hu] at hput
    exact hput.trans hdrop.works
  refine ⟨(hpre.putLane rfl _).trans (hworks.mono (by simp)), ?_, fun hn => ?_, ?_, fun k hk => ?_, ?_⟩
  · rw [hrd, rd_putLane, rd_congr hvr]
  · rw [hcount hn, getF_putLane, getF_congr hvr, ← hu, getF_putB_ne ((laneRegs_apart m).2.2 hn).2.symm]
  · rw [laneTrack_congr htrk, laneTrack_putLane_same]
  · rw [laneTrack_congr htrk, laneTrack_putLane_ne hk, hlane]
  · rw [linkTrack_congr htrk, linkTrack_putLane]
    have hkept : linkTrack u (m / 8) = linkTrack s (m / 8) := by rw [← hu, linkTrack_putB]
    rcases hdrop.links (m / 8) with h | ⟨-, h⟩ <;> rw [h, hkept]

/-- A lane has met R235, or its search has failed: what its link pair shows of it, and what stays as it was. -/
structure LaneLost (m : Nat) (s t : State) : Prop where
  works : LinkWorks (m / 8) (linkStA (m / 8) :: laneLossRegs m) s t
  bits : LaneBitsBut m s t
  track : ∃ w g r, linkTrack t (m / 8) = { linkTrack s (m / 8) with waitFw := w, grp := g, released := r }
  lanes : ∀ k, k ≠ m → laneTrack t k = laneTrack s k
  stays : getB s (linkStA (m / 8)) (16 + m % 8) = false → getB t (linkStA (m / 8)) (16 + m % 8) = false
  drops : linkRun s (m / 8) = true → getB s (linkStA (m / 8)) (24 + m % 8) = false → (laneTrack s m).searching = false
    → getB t (linkStA (m / 8)) (16 + m % 8) = false

theorem LaneBitsBut.refl (m : Nat) (s : State) : LaneBitsBut m s s := ⟨fun _ _ _ => rfl, fun _ _ _ _ => rfl⟩

/-- Where nothing but the lane's own track and the bit of its failure has moved, it has not left the aligned lanes. -/
theorem laneLost_of_search {m : Nat} {s t : State} (works : LinkWorks (m / 8) (linkStA (m / 8) :: laneLossRegs m) s t) (bits : LaneBitsBut m s t)
    (hl : linkTrack t (m / 8) = linkTrack s (m / 8)) (lanes : ∀ k, k ≠ m → laneTrack t k = laneTrack s k)
    (ha : getB t (linkStA (m / 8)) (16 + m % 8) = getB s (linkStA (m / 8)) (16 + m % 8))
    (hs : ¬ (linkRun s (m / 8) = true ∧ getB s (linkStA (m / 8)) (24 + m % 8) = false ∧ (laneTrack s m).searching = false
      ∧ getB s (linkStA (m / 8)) (16 + m % 8) = true)) : LaneLost m s t := by
  refine ⟨works, bits, ⟨_, _, _, hl⟩, lanes, fun h => ha.trans h, fun h1 h2 h3 => ?_⟩
  rw [ha]
  by_contra hb
  exact hs ⟨h1, h2, h3, by simpa using hb⟩

theorem laneLost_spec (m : Nat) (s : State) : LaneLost m s (laneLost m s) := by
  obtain ⟨hworks, hrd, -, -, hlanes, htrack⟩ := laneSearches_spec m s
  have hgrp := (trkGrpStatus_apart (m / 8)).1
  have hl := Nat.mod_lt m (show 0 < 8 by decide)
  rw [laneLost_eq]
  split
  · rename_i hidle
    refine laneLost_of_search (.refl ..) (.refl m s) rfl (fun _ _ => rfl) rfl ?_
    rintro ⟨h1, h2, -, -⟩
    simp [h1, h2] at hidle
  split
  · rename_i hsearch
    have hn : ¬ (linkRun s (m / 8) = true ∧ getB s (linkStA (m / 8)) (24 + m % 8) = false ∧ (laneTrack s m).searching = false
      ∧ getB s (linkStA (m / 8)) (16 + m % 8) = true) := by simp [hsearch]
    split
    · refine laneLost_of_search ((((LinkWorks.refl _ _ s).putLane rfl _).putLane rfl _).putB (by simp) hgrp (24 + m % 8) true |>.raise ..)
        (.of_putB true (.inr rfl) (by simp [laneFails, raiseFlag, searchFailed])) (by simp [laneFails, raiseFlag, searchFailed])
        (fun k hk => by simp [laneFails, raiseFlag, searchFailed, laneTrack_putLane_ne hk]) ?_ hn
      simp only [laneFails, raiseFlag, getB_raise]
      rw [getB_putB_bit _ _ _ (by omega) (by omega)]
      rfl
    · exact laneLost_of_search ((LinkWorks.refl _ _ s).putLane rfl _) (.refl m s) rfl (fun k hk => laneTrack_putLane_ne hk _ s) rfl hn
  split
  · have hbit : getB (laneDrops m s) (linkStA (m / 8)) (16 + m % 8) = false := by
      simp only [laneDrops, raiseFlag, getB_raise, getB_putLink]
      rw [getB, hrd, ← getB, getB_putB_same _ _ _ (by omega)]
    refine ⟨(hworks.putLink _).raise .., .of_putB false (.inl rfl) (by simp [laneDrops, raiseFlag, hrd]), ?_, fun k hk => ?_, fun _ => hbit, fun _ _ _ => hbit⟩
    · simp only [laneDrops, raiseFlag, linkTrack_raise, linkTrack_putLink_same]
      rw [htrack]
      exact ⟨_, _, _, rfl⟩
    · simp [laneDrops, raiseFlag, hlanes k hk]
  · rename_i hns hna
    exact laneLost_of_search (.refl ..) (.refl m s) rfl (fun _ _ => rfl) rfl (by simp [hna])

end Sys2Proof.Machine
end


section
/-! The CK monitor of a link pair (05_trunk_lanes.md R207, R209, R238): its lanes, its island, its window. -/

namespace Sys2Proof.Machine

/-! ## Lanes of a link pair lose alignment together (R207, R238) -/

/-- The registers of a trunk's lanes that a loss of alignment moves. -/
abbrev lanesLossRegs (n : Nat) : List Nat := if n = 72 then [] else Reg.trkLinkCnt n :: (List.range 8).map fun l => Reg.trkLaneStatus (8 * n + l)

theorem laneLossRegs_subset {n l : Nat} (hl : l < 8) : laneLossRegs (8 * n + l) ⊆ lanesLossRegs n := by
  have hn : (8 * n + l) / 8 = n := laneOf_link hl
  unfold laneLossRegs lanesLossRegs
  rw [hn]
  split
  · exact List.Subset.refl _
  · intro a ha
    simp only [List.mem_cons, List.not_mem_nil, or_false] at ha
    rcases ha with rfl | rfl
    · exact List.mem_cons_of_mem _ (List.mem_map.2 ⟨l, by simpa using hl, rfl⟩)
    · exact List.mem_cons_self

/-- The lanes of `ls`, one after the other. -/
def lanesLost (n : Nat) (ls : List Nat) (s : State) : State := ls.foldl (fun s l => laneLost (8 * n + l) s) s

/-- Lanes `ls` of a link pair have lost alignment: those aligned that do not search have left the aligned lanes. -/
structure LanesLost (n : Nat) (ls : List Nat) (s t : State) : Prop where
  works : LinkWorks n (linkStA n :: lanesLossRegs n) s t
  fields : ∀ lo k, lo + k ≤ 16 → getF t (linkStA n) lo k = getF s (linkStA n) lo k
  track : ∃ w g r, linkTrack t n = { linkTrack s n with waitFw := w, grp := g, released := r }
  stays : ∀ l, l < 8 → getB s (linkStA n) (16 + l) = false → getB t (linkStA n) (16 + l) = false
  drops : linkRun s n = true → ∀ l, l ∈ ls → getB s (linkStA n) (24 + l) = false → (laneTrack s (8 * n + l)).searching = false → getB t (linkStA n) (16 + l) = false

/-- One lane's loss among those of its link pair. -/
theorem laneLost_in (n : Nat) {l : Nat} (hl : l < 8) (s : State) : let t := laneLost (8 * n + l) s
    LanesLost n [l] s t ∧ (∀ j, j < 8 → j ≠ l → getB t (linkStA n) (24 + j) = getB s (linkStA n) (24 + j)) ∧ ∀ k, k ≠ 8 * n + l → laneTrack t k = laneTrack s k := by
  have hn : (8 * n + l) / 8 = n := laneOf_link hl
  have hm : (8 * n + l) % 8 = l := by omega
  obtain ⟨hworks, ⟨hfields, hbits⟩, htrack, hlanes, hstays, hdrops⟩ := laneLost_spec (8 * n + l) s
  rw [hn] at hworks hfields hbits htrack hstays hdrops
  rw [hm] at hbits hstays hdrops
  refine ⟨⟨hworks.mono (List.cons_subset_cons _ (laneLossRegs_subset hl)), hfields, htrack, fun j hj h => ?_, fun hr j hj h24 hs => ?_⟩, fun j hj hjl => ?_, hlanes⟩
  · by_cases hjl : j = l
    · subst hjl
      exact hstays h
    · rw [hbits _ (by omega) (by omega) (by omega), h]
  · obtain rfl := List.mem_singleton.1 hj
    exact hdrops hr h24 hs
  · exact hbits _ (by omega) (by omega) (by omega)

theorem lanesLost_spec {n : Nat} {ls : List Nat} (hls : ∀ l ∈ ls, l < 8) (s : State) : LanesLost n ls s (lanesLost n ls s) := by
  induction ls generalizing s with
  | nil => exact ⟨.refl .., fun _ _ _ => rfl, ⟨_, _, _, rfl⟩, fun _ _ h => h, fun _ _ h => absurd h List.not_mem_nil⟩
  | cons x xs ih =>
    have hx : x < 8 := hls x List.mem_cons_self
    obtain ⟨hone, h24, hlanes⟩ := laneLost_in n hx s
    have hrest := ih (fun l hl => hls l (List.mem_cons_of_mem _ hl)) (laneLost (8 * n + x) s)
    have heq : lanesLost n (x :: xs) s = lanesLost n xs (laneLost (8 * n + x) s) := rfl
    rw [heq]
    refine ⟨hone.works.trans hrest.works, fun lo k h => (hrest.fields lo k h).trans (hone.fields lo k h), ?_, fun l hl h => hrest.stays l hl (hone.stays l hl h),
      fun hr l hl h hs => ?_⟩
    · obtain ⟨w, g, r, h⟩ := hone.track
      obtain ⟨w', g', r', h'⟩ := hrest.track
      exact ⟨w', g', r', by rw [h', h]⟩
    · by_cases hlx : l = x
      · subst hlx
        exact hrest.stays l hx (hone.drops hr l List.mem_cons_self h hs)
      · have hl8 : l < 8 := hls l hl
        refine hrest.drops ?_ l ((List.mem_cons.1 hl).resolve_left hlx) ((h24 l hl8 hlx).trans h) ?_
        · rw [← hr, linkRun, linkPhase, hone.fields 0 3 (by decide), linkRun, linkPhase]
        · rw [hlanes _ (by omega), hs]

/-- Lanes of a link pair outside RUN lose nothing. -/
theorem lanesLost_idle {n : Nat} {ls : List Nat} (hls : ∀ l ∈ ls, l < 8) {s : State} (hr : linkRun s n = false) : lanesLost n ls s = s := by
  refine foldl_keeps (P := fun t => t = s) rfl fun u l hl hu => ?_
  rw [hu, laneLost_eq, laneOf_link (hls l hl)]
  exact if_pos (.inl hr)

/-! ## The island of a receiver (13_plls_and_clock_islands.md R513 to R518) -/

theorem rxIsland_lt {n : Nat} (h : n < 73) : rxIsland n / 32 < 3 := by
  unfold rxIsland
  split <;> omega

theorem islRegs_apart (n : Nat) {k : Nat} (hk : k < 3) : Reg.trkGrpStatus n ≠ Reg.islKeepalive k ∧ Reg.trkGrpStatus n ≠ Reg.islSeen k
    ∧ Reg.trkLinkCtrl n ≠ Reg.islKeepalive k ∧ linkStA n ≠ Reg.islKeepalive k ∧ linkStA n ≠ Reg.islSeen k ∧ Reg.islSeen k ≠ Reg.islKeepalive k
    ∧ Reg.trkLinkCtrl n ≠ Reg.islSeen k ∧ Reg.cmdStatus ≠ Reg.islKeepalive k ∧ Reg.cmdStatus ≠ Reg.islSeen k := by
  simp only [Reg.trkGrpStatus, Reg.islKeepalive, Reg.islSeen, Reg.trkLinkCtrl, linkStA, Reg.mirLinkStatus, Reg.trkLinkStatus, Reg.cmdStatus]
  split <;> omega

/-- The island of a link pair's receiver runs on its keep-alive clock. -/
theorem islandKeep_spec {n x : Nat} (hx : x / 32 < 3) (s : State) : let t := islandKeep x s
    LinkWorks n [Reg.islKeepalive (x / 32), Reg.islSeen (x / 32)] s t ∧ keepAlive t x = true ∧ getB t (Reg.islSeen (x / 32)) (x % 32) = true := by
  obtain ⟨hgk, hgs, -, -, -, hsk, -⟩ := islRegs_apart n hx
  have hb : x % 32 < 32 := Nat.mod_lt _ (by decide)
  have hseen := (LinkWorks.refl n [Reg.islKeepalive (x / 32), Reg.islSeen (x / 32)] s).putB (by simp) hgs (x % 32) true
  have hsb : getB (putB (Reg.islSeen (x / 32)) (x % 32) true s) (Reg.islSeen (x / 32)) (x % 32) = true := getB_putB_same _ _ _ hb
  simp only [islandKeep, keepAlive]
  generalize putB (Reg.islSeen (x / 32)) (x % 32) true s = u at *
  split
  · rename_i hk
    exact ⟨hseen, hk, hsb⟩
  · have hkept := hseen.putB (a := Reg.islKeepalive (x / 32)) (by simp) hgk (x % 32) true
    have hkb : getB (putB (Reg.islKeepalive (x / 32)) (x % 32) true u) (Reg.islKeepalive (x / 32)) (x % 32) = true := getB_putB_same _ _ _ hb
    have hks : getB (putB (Reg.islKeepalive (x / 32)) (x % 32) true u) (Reg.islSeen (x / 32)) (x % 32) = true := (getB_putB_ne hsk ..).trans hsb
    split
    · exact ⟨hkept.raise .., by rw [raiseFlag, getB_raise, hkb], by rw [raiseFlag, getB_raise, hks]⟩
    · exact ⟨hkept, hkb, hks⟩

theorem islandBack_spec {n x : Nat} (hx : x / 32 < 3) (s : State) : let t := islandBack x s
    LinkWorks n [Reg.islKeepalive (x / 32)] s t ∧ keepAlive t x = false := by
  obtain ⟨hgk, -⟩ := islRegs_apart n hx
  exact ⟨(LinkWorks.refl ..).putB (by simp) hgk _ false, getB_putB_same _ _ _ (Nat.mod_lt _ (by decide))⟩

/-! ## The phase of CK (R207) -/

/-- A lane without its far-end loop has no elastic buffer. -/
theorem loopDrifts_idle {n : Nat} {d : Int} {s : State} (h : n = 72 ∨ getB s (Reg.trkLinkCtrl n) 6 = false) :
    (if n < 72 then (upto (8 * n) 8).foldl (loopDrift d) s else s) = s := by
  split
  · rename_i hn
    refine foldl_keeps (P := fun t => t = s) rfl fun u m hm hu => ?_
    have hm8 : m / 8 = n := by
      have := upto_mem.1 hm
      omega
    have hloop : laneLoop s m ≠ 3 := by
      rw [laneLoop, hm8, if_neg]
      · decide
      · rintro ⟨-, h6⟩
        rw [h.resolve_left (by omega)] at h6
        cases h6
    rw [hu, loopDrift, if_pos hloop]
  · rfl

theorem ckWander_within {n : Nat} {d : Int} {s : State} (h : n = 72 ∨ getB s (Reg.trkLinkCtrl n) 6 = false) (hw : ((linkTrack s n).wander + d).natAbs ≤ wanderMax) :
    ckWander n d s = putLink n { linkTrack s n with wander := (linkTrack s n).wander + d } s := by
  simp only [ckWander, loopDrifts_idle h, if_pos hw]

theorem ckWander_beyond {n : Nat} {d : Int} {s : State} (h : n = 72 ∨ getB s (Reg.trkLinkCtrl n) 6 = false) (hw : ¬ ((linkTrack s n).wander + d).natAbs ≤ wanderMax) :
    ckWander n d s = lanesLost n (upto 0 (lanesOf n)) (putLink n { linkTrack s n with wander := 0 } s) := by
  simp only [ckWander, loopDrifts_idle h, if_neg hw, lanesLost]

/-! ## A CK measurement window closes (R209, R238) -/

/-- A frequency lies within 1,000 ppm of that of a step (R209). -/
abbrev CkNear (freq k : Nat) : Prop := ((freq : Int) - 830078125 * 2 ^ k).natAbs * 1000 ≤ 830078125 * 2 ^ k

theorem ckHz_cast (k : Nat) : (ckHz k : Int) = 830078125 * 2 ^ k := by
  rw [ckHz]
  push_cast
  rfl

theorem ckIs_iff {k freq : Nat} : ckIs k freq = true ↔ CkNear freq k := by
  rw [ckIs, decide_eq_true_iff, ckHz_cast, ckHz]

/-- No frequency is that of two steps: the higher is at least twice the lower. -/
theorem ckNear_unique {freq j k : Nat} (h1 : CkNear freq j) (h2 : CkNear freq k) : j = k := by
  have key : ∀ i l : Nat, i < l → CkNear freq i → ¬ CkNear freq l := by
    intro i l hil h h'
    have hpow : 2 * 2 ^ i ≤ 2 ^ l := by
      rw [← pow_succ']
      exact Nat.pow_le_pow_right (by decide) hil
    have hcast : ∀ m : Nat, (2 : Int) ^ m = ((2 ^ m : Nat) : Int) := fun m => by push_cast; rfl
    have hpos : 0 < 2 ^ i := Nat.two_pow_pos i
    rw [CkNear, hcast] at h h'
    generalize 2 ^ i = x at *
    generalize 2 ^ l = y at *
    omega
  rcases Nat.lt_trichotomy j k with h | h | h
  · exact absurd h2 (key j k h h1)
  · exact h
  · exact absurd h1 (key k j h h2)

/-- A window whose frequency is that of the expected step: CK_OK, and the island on its own clock. -/
def ckFound (n : Nat) (s : State) : State := islandBack (rxIsland n) (putB (linkStA n) 8 true s)

/-- A window whose frequency is not that of the expected step: no CK_OK, and the island on keep-alive. -/
def ckMissed (n : Nat) (s : State) : State := islandKeep (rxIsland n) (putB (linkStA n) 8 false s)

/-- The lanes of a link pair in RUN lose alignment with their clock (R238). -/
def ckDropped (n : Nat) (was : Bool) (s : State) : State :=
  if was then lanesLost n (upto 0 (lanesOf n)) (putLink n { linkTrack s n with ckLost := some s.mono } s) else s

section
variable {n freq : Nat} {s : State}

theorem ckWindow_near (h : CkNear freq (getF s (linkStA n) 6 2)) (hl : (linkTrack (ckWander n ((freq : Int) - ckHz (getF s (linkStA n) 6 2)) (ckFound n s)) n).ckLost = none) :
    ckWindow n freq s = ckWander n ((freq : Int) - ckHz (getF s (linkStA n) 6 2)) (ckFound n s) := by
  simp only [ckFound] at hl
  simp only [ckWindow, ckIs_iff.2 h, if_true, ckFound, hl]

theorem ckIs_false {k : Nat} (h : ¬ CkNear freq k) : ckIs k freq = false := by
  rw [← Bool.not_eq_true, ckIs_iff]
  exact h

variable (h : ¬ CkNear freq (getF s (linkStA n) 6 2))
include h

theorem ckWindow_missed (hr : linkRun (ckMissed n s) n = false) (h0 : ¬ (CkNear freq 0 ∧ 0 < linkStep (ckMissed n s) n ∧ ladderRuns (ckMissed n s) n = true
    ∧ 1 ≤ linkPhase (ckMissed n s) n)) : ckWindow n freq s = ckMissed n s := by
  rw [← ckIs_iff (k := 0)] at h0
  simp only [ckMissed] at hr h0
  simp only [ckWindow, ckIs_false h, ckMissed, hr, if_neg h0]
  rfl

theorem ckWindow_base (hr : linkRun (ckMissed n s) n = false) (h0 : CkNear freq 0 ∧ 0 < linkStep (ckMissed n s) n ∧ ladderRuns (ckMissed n s) n = true
    ∧ 1 ≤ linkPhase (ckMissed n s) n) : ckWindow n freq s = ladderRestart n 0x60 (ckMissed n s) := by
  rw [← ckIs_iff (k := 0)] at h0
  simp only [ckMissed] at hr h0
  simp only [ckWindow, ckIs_false h, ckMissed, hr, if_pos h0]
  rfl

theorem ckWindow_otherStep {k : Nat} (hr : linkRun (ckMissed n s) n = true) (hk : k < 4) (hn : CkNear freq k) :
    ckWindow n freq s = ladderRestart n 0x60 (ckDropped n (getB s (linkStA n) 8) (ckMissed n s)) := by
  have hgood : ((upto 0 4).any fun k => ckIs k freq) = true := List.any_eq_true.2 ⟨k, upto_mem.2 (by omega), ckIs_iff.2 hn⟩
  simp only [ckMissed] at hr
  simp only [ckWindow, ckIs_false h, ckMissed, hr, hgood, ckDropped, lanesLost]
  rfl

end

end Sys2Proof.Machine
end


section
/-! The ladder's events of one link pair (05_trunk_lanes.md R207, R221, R229 to R234). -/

namespace Sys2Proof.Machine

/-! ## What a window moves before the lanes lose alignment -/

/-- `CK_OK` of a link pair reads `v`, and what the ladder and the lanes show is otherwise as before. -/
structure ClockMarked (n : Nat) (v : Bool) (s t : State) : Prop where
  trk : t.trk = s.trk
  status : rd t (linkStA n) = rd (putB (linkStA n) 8 v s) (linkStA n)
  ctrl : rd t (Reg.trkLinkCtrl n) = rd s (Reg.trkLinkCtrl n)
  served : rd t Reg.cmdStatus = rd s Reg.cmdStatus

namespace ClockMarked

variable {n : Nat} {v : Bool} {s t : State}

theorem clock (h : ClockMarked n v s t) : getB t (linkStA n) 8 = v := by
  rw [getB, h.status, ← getB, getB_putB_same _ _ _ (by decide)]

theorem fields (h : ClockMarked n v s t) {lo k : Nat} (hk : lo + k ≤ 8 ∨ 9 ≤ lo) : getF t (linkStA n) lo k = getF s (linkStA n) lo k := by
  rw [getF, h.status, ← getF, getF_putB_fld _ _ _ (by decide) hk]

theorem bits (h : ClockMarked n v s t) {b : Nat} (hb : 9 ≤ b) (hb' : b < 32) : getB t (linkStA n) b = getB s (linkStA n) b := by
  rw [getB, h.status, ← getB, getB_putB_bit _ _ _ (by decide) (by omega)]

theorem run (h : ClockMarked n v s t) : linkRun t n = linkRun s n := by
  rw [linkRun, linkPhase, h.fields (.inl (by decide)), linkRun, linkPhase]

theorem runs (h : ClockMarked n v s t) : ladderRuns t n = ladderRuns s n := by
  simp only [ladderRuns, server, getF, getB, h.ctrl, h.served]
  rfl

end ClockMarked

theorem linkCmd_apart (n : Nat) : Reg.cmdStatus ≠ linkStA n := by
  simp only [linkStA, Reg.mirLinkStatus, Reg.trkLinkStatus, Reg.cmdStatus]
  split <;> omega

theorem clockMarked_of_regs {n x : Nat} (hx : x / 32 < 3) {v : Bool} {s t : State} (htrk : t.trk = s.trk)
    (h : RegsBut [Reg.islKeepalive (x / 32), Reg.islSeen (x / 32)] (putB (linkStA n) 8 v s) t) : ClockMarked n v s t := by
  obtain ⟨-, -, hck, hak, has, -, hcs, hmk, hms⟩ := islRegs_apart n hx
  refine ⟨htrk, h _ (by simp [hak, has]), ?_, ?_⟩
  · rw [h _ (by simp [hck, hcs]), rd_putB_ne (trkLinkCtrl_apart n).1]
  · rw [h _ (by simp [hmk, hms]), rd_putB_ne (linkCmd_apart n)]

theorem islandKeep_trk (x : Nat) (s : State) : (islandKeep x s).trk = s.trk := by
  simp only [islandKeep]
  split
  · exact putB_trk ..
  split
  · rw [raiseFlag, raise_trk, putB_trk, putB_trk]
  · rw [putB_trk, putB_trk]

section
variable {n : Nat} (hn : n < 73) (s : State)
include hn

theorem ckFound_spec : let t := ckFound n s
    ClockMarked n true s t ∧ LinkWorks n [linkStA n, Reg.islKeepalive (rxIsland n / 32)] s t ∧ keepAlive t (rxIsland n) = false := by
  have hx := rxIsland_lt hn
  have hput := (LinkWorks.refl n [linkStA n, Reg.islKeepalive (rxIsland n / 32)] s).putB (by simp) (trkGrpStatus_apart n).1 8 true
  obtain ⟨hworks, hkeep⟩ := islandBack_spec (n := n) hx (putB (linkStA n) 8 true s)
  refine ⟨clockMarked_of_regs hx ?_ (hworks.moves.regs.mono (by simp)), hput.trans (hworks.mono (by simp)), hkeep⟩
  rw [ckFound, islandBack, putB_trk, putB_trk]

theorem ckMissed_spec : let t := ckMissed n s
    ClockMarked n false s t ∧ LinkWorks n [linkStA n, Reg.islKeepalive (rxIsland n / 32), Reg.islSeen (rxIsland n / 32)] s t
      ∧ keepAlive t (rxIsland n) = true ∧ getB t (Reg.islSeen (rxIsland n / 32)) (rxIsland n % 32) = true := by
  have hx := rxIsland_lt hn
  have hput := (LinkWorks.refl n [linkStA n, Reg.islKeepalive (rxIsland n / 32), Reg.islSeen (rxIsland n / 32)] s).putB (by simp) (trkGrpStatus_apart n).1 8 false
  obtain ⟨hworks, hkeep, hseen⟩ := islandKeep_spec (n := n) hx (putB (linkStA n) 8 false s)
  refine ⟨clockMarked_of_regs hx ?_ hworks.moves.regs, hput.trans (hworks.mono (by simp)), hkeep, hseen⟩
  rw [ckMissed, islandKeep_trk, putB_trk]

end

theorem ckDropped_clock {n : Nat} {was : Bool} {s : State} : getB (ckDropped n was s) (linkStA n) 8 = getB s (linkStA n) 8 := by
  unfold ckDropped
  split
  · rw [getB_eq_getF, (lanesLost_spec (fun _ h => upto_lanes h) _).fields 8 1 (by decide), getF_putLink, getB_eq_getF]
  · rfl

/-- RESTART sent, from step 0 (R209, R238). -/
theorem ladderRestarted_ck {n : Nat} {s : State} (h : getB s (linkStA n) 8 = false) : let t := ladderRestart n 0x60 s
    linkPhase t n = 1 ∧ linkStep t n = 0 ∧ getF t (linkMsgA n) 0 8 = 0x60 ∧ getB t (linkStA n) 8 = false := by
  have hr := ladderRestarted n 0x60 s (by decide)
  exact ⟨hr.phase, hr.step, hr.sent, hr.clock.trans h⟩

/-! ## A window of the expected step -/

section
variable {n freq : Nat} {s : State} (hn : n < 73) (hnear : CkNear freq (getF s (linkStA n) 6 2)) (hlost : (linkTrack s n).ckLost = none)
  (hloop : n = 72 ∨ getB s (Reg.trkLinkCtrl n) 6 = false)
include hn hnear hlost hloop

theorem ckWindow_within (hw : ((linkTrack s n).wander + ((freq : Int) - ckHz (getF s (linkStA n) 6 2))).natAbs ≤ wanderMax) : let t := ckWindow n freq s
    getB t (linkStA n) 8 = true ∧ keepAlive t (rxIsland n) = false
      ∧ linkTrack t n = { linkTrack s n with wander := (linkTrack s n).wander + ((freq : Int) - ckHz (getF s (linkStA n) 6 2)) }
      ∧ LinkWorks n [linkStA n, Reg.islKeepalive (rxIsland n / 32)] s t := by
  obtain ⟨hm, hworks, hkeep⟩ := ckFound_spec hn s
  have htrack := linkTrack_congr hm.trk n
  have hd := ckWander_within (n := n) (d := (freq : Int) - ckHz (getF s (linkStA n) 6 2)) (s := ckFound n s) (by rwa [getB, hm.ctrl]) (by rwa [htrack])
  have he := ckWindow_near hnear (by rw [hd, linkTrack_putLink_same, htrack, hlost])
  simp only [he, hd, htrack]
  exact ⟨hm.clock, hkeep, linkTrack_putLink_same .., hworks.putLink _⟩

theorem ckWindow_beyond (hw : ¬ ((linkTrack s n).wander + ((freq : Int) - ckHz (getF s (linkStA n) 6 2))).natAbs ≤ wanderMax) : let t := ckWindow n freq s
    getB t (linkStA n) 8 = true ∧ (linkTrack t n).wander = 0
      ∧ (linkRun s n = true → ∀ l, l < lanesOf n → getB s (linkStA n) (24 + l) = false → (laneTrack s (8 * n + l)).searching = false → getB t (linkStA n) (16 + l) = false)
      ∧ (linkRun s n = false → getF t (linkStA n) 16 16 = getF s (linkStA n) 16 16)
      ∧ LinkWorks n ([linkStA n, Reg.islKeepalive (rxIsland n / 32)] ++ lanesLossRegs n) s t := by
  obtain ⟨hm, hworks, -⟩ := ckFound_spec hn s
  have htrack := linkTrack_congr hm.trk n
  have hd := ckWander_beyond (n := n) (d := (freq : Int) - ckHz (getF s (linkStA n) 6 2)) (s := ckFound n s) (by rwa [getB, hm.ctrl]) (by rwa [htrack])
  obtain ⟨u, hu⟩ : ∃ u, putLink n { linkTrack (ckFound n s) n with wander := 0 } (ckFound n s) = u := ⟨_, rfl⟩
  have hut : linkTrack u n = { linkTrack s n with wander := 0 } := by rw [← hu, linkTrack_putLink_same, htrack]
  have hur : ∀ a, rd u a = rd (ckFound n s) a := fun a => by rw [← hu, rd_putLink]
  have hul : ∀ m, laneTrack u m = laneTrack s m := fun m => by rw [← hu, laneTrack_putLink, laneTrack_congr hm.trk]
  have huw : LinkWorks n [linkStA n, Reg.islKeepalive (rxIsland n / 32)] s u := by
    rw [← hu]
    exact hworks.putLink _
  have hrun : linkRun u n = linkRun s n := by rw [← hm.run, linkRun, linkPhase, getF, hur, linkRun, linkPhase, getF]
  rw [hu] at hd
  obtain hl := lanesLost_spec (n := n) (ls := upto 0 (lanesOf n)) (fun _ h => upto_lanes h) u
  obtain ⟨w, g, r, hlt⟩ := hl.track
  rw [hut] at hlt
  have he := ckWindow_near hnear (by rw [hd, hlt]; exact hlost)
  simp only [he, hd]
  refine ⟨?_, by rw [hlt], fun hr l hll h24 hsr => ?_, fun hr => ?_, (huw.mono (List.subset_append_left ..)).trans (hl.works.mono (by simp))⟩
  · rw [getB_eq_getF, hl.fields 8 1 (by decide), getF, hur, ← getF, ← getB_eq_getF, hm.clock]
  · have hl8 : l < 8 := Nat.lt_of_lt_of_le hll (lanesOf_le n)
    refine hl.drops (hrun.trans hr) l (upto_mem.2 (by omega)) ?_ (by rw [hul, hsr])
    rw [getB, hur, ← getB, hm.bits (by omega) (by omega), h24]
  · rw [lanesLost_idle (fun _ h => upto_lanes h) (hrun.trans hr), getF, hur, ← getF, hm.fields (.inr (by decide))]

end

/-! ## A window of another step, or of none -/

section
variable {n freq : Nat} {s : State} (hn : n < 73) (hnear : ¬ CkNear freq (getF s (linkStA n) 6 2))
include hn hnear

theorem ckWindow_lost (hr : linkRun s n = false) (h0 : ¬ CkNear freq 0 ∨ linkStep s n = 0) : let t := ckWindow n freq s
    getB t (linkStA n) 8 = false ∧ keepAlive t (rxIsland n) = true ∧ getB t (Reg.islSeen (rxIsland n / 32)) (rxIsland n % 32) = true
      ∧ LinkWorks n [linkStA n, Reg.islKeepalive (rxIsland n / 32), Reg.islSeen (rxIsland n / 32)] s t := by
  obtain ⟨hm, hworks, hkeep, hseen⟩ := ckMissed_spec hn s
  have hstep : linkStep (ckMissed n s) n = linkStep s n := hm.fields (.inl (by decide))
  rw [ckWindow_missed hnear (hm.run.trans hr) (fun hx => h0.elim (fun h => h hx.1) fun h => absurd hx.2.1 (by omega))]
  exact ⟨hm.clock, hkeep, hseen, hworks⟩

theorem ckWindow_stepSeen {k : Nat} (hk : k < 4) (hkn : CkNear freq k) (hr : linkRun s n = true) : let t := ckWindow n freq s
    linkPhase t n = 1 ∧ linkStep t n = 0 ∧ getF t (linkMsgA n) 0 8 = 0x60 ∧ getB t (linkStA n) 8 = false := by
  obtain ⟨hm, -⟩ := ckMissed_spec hn s
  rw [ckWindow_otherStep hnear (hm.run.trans hr) hk hkn]
  exact ladderRestarted_ck (ckDropped_clock.trans hm.clock)

theorem ckWindow_baseSeen (h0 : CkNear freq 0) (hr : linkRun s n = false) (hs : 0 < linkStep s n) (hl : ladderRuns s n = true) (hp : 1 ≤ linkPhase s n) :
    let t := ckWindow n freq s
    linkPhase t n = 1 ∧ linkStep t n = 0 ∧ getF t (linkMsgA n) 0 8 = 0x60 ∧ getB t (linkStA n) 8 = false := by
  obtain ⟨hm, -⟩ := ckMissed_spec hn s
  have hstep : linkStep (ckMissed n s) n = linkStep s n := hm.fields (.inl (by decide))
  have hphase : linkPhase (ckMissed n s) n = linkPhase s n := hm.fields (.inl (by decide))
  rw [ckWindow_base hnear (hm.run.trans hr) ⟨h0, by rwa [hstep], hm.runs.trans hl, by rwa [hphase]⟩]
  exact ladderRestarted_ck hm.clock

end

/-! ## The statement -/

/-- Settles O21: each event under its condition is the operation of the ladder whose result was stated above, and outside it the state as time left it. -/
theorem ladderEventsMoveOneLinkPair : Obligations.LadderEventsMoveOneLinkPair := by
  unfold Obligations.LadderEventsMoveOneLinkPair
  intro regs restarted fellBack dt s hp n hn q
  have hb : decide (n < 73) = true := decide_eq_true hn
  have hrestarted : ∀ byte, byte < 256 → restarted byte n dt s (ladderRestart n byte (tick dt s)) := fun byte hbyte => by
    have hr := ladderRestarted n byte (tick dt s) hbyte
    refine ⟨hr.phase, hr.step, hr.lanes, hr.aligned, hr.sent, hr.cap, hr.since, hr.txq, ?_, hr.works.linkOnly⟩
    split
    · exact hr.mirror ‹_›
    · exact hr.counted ‹_›
  refine ⟨fun k hk hk4 hf => ?_, fun h => ?_, ?_, ?_, ?_, ?_, ?_, fun freq => ⟨fun h hl hloop hw => ?_, fun h hl hloop hw => ?_, fun h hr h0 => ?_, fun k hk hne h hr => ?_,
    fun hne h hr hs hl hph => ?_⟩⟩
  · have ht := txStepped (s := tick dt s) hk4 hk hf
    exact completes_only rfl hb hp ⟨ht.step, ht.txStep, ht.phase, ht.clock, ht.aligned, ht.lanes, ht.sent, ht.txTo, ht.since, (ht.works.mono (by simp [regs])).linkOnly⟩
  · exact completes_only rfl hb hp (txStep_idle (s := tick dt s) h)
  · intro req
    split
    · rename_i hdue
      have ht := runEntered (s := tick dt s) hdue
      exact completes_only rfl hb hp ⟨ht.phase, ht.step, ht.below, ht.enough, ht.mirror, ht.works.linkOnly⟩
    · rename_i hdue
      exact completes_only rfl hb hp (runEntry_idle (s := tick dt s) hdue)
  · split
    · rename_i hdue
      obtain ⟨hbit, hphase, htrack, hworks⟩ := conflictSet (s := tick dt s) hdue
      exact completes_only rfl hb hp ⟨hbit, hphase, htrack, hworks.linkOnly⟩
    · rename_i hdue
      exact completes_only rfl hb hp (followerTimeout_idle (s := tick dt s) hdue)
  · split
    · rename_i hdue
      have ht := ladderFellBack n (tick dt s)
      refine completes_only rfl hb hp ?_
      rw [stepTimeout, if_pos (by exact hdue)]
      exact ⟨ht.step, ht.txStep, ht.phase, ht.short, ht.sent, ht.since, (ht.works.mono (by simp [regs])).linkOnly⟩
    · rename_i hdue
      exact completes_only rfl hb hp (if_neg hdue)
  · split
    · rename_i hdue
      refine completes_only rfl hb hp ?_
      rw [restartTimeout, if_pos (by exact hdue)]
      exact hrestarted 0x60 (by decide)
    · rename_i hdue
      exact completes_only rfl hb hp (if_neg hdue)
  · split
    · rename_i hdue
      refine completes_only rfl hb hp ?_
      rw [failedRetry, if_pos (by exact hdue)]
      exact ⟨(ladderRestarted n 0 (tick dt s) (by decide)).failed, hrestarted 0 (by decide)⟩
    · rename_i hdue
      exact completes_only rfl hb hp (if_neg hdue)
  · have hhz := ckHz_cast (getF s (linkStA n) 6 2)
    have hspec := ckWindow_within (s := tick dt s) hn h hl hloop (by rw [getF_tick, hhz]; exact hw)
    obtain ⟨hbit, hkeep, htrack, hworks⟩ := hspec
    rw [getF_tick, hhz] at htrack
    exact completes_only rfl hb hp ⟨hbit, hkeep, htrack, hworks.linkOnly⟩
  · have hhz := ckHz_cast (getF s (linkStA n) 6 2)
    obtain ⟨hbit, hwander, hdrops, hkept, hworks⟩ := ckWindow_beyond (s := tick dt s) hn h hl hloop (by rw [getF_tick, hhz]; exact Nat.not_le.2 hw)
    exact completes_only rfl hb hp ⟨hbit, hwander, hdrops, hkept, hworks.linkOnly⟩
  · obtain ⟨hbit, hkeep, hseen, hworks⟩ := ckWindow_lost (s := tick dt s) hn h hr h0
    exact completes_only rfl hb hp ⟨hbit, hkeep, hseen, hworks.linkOnly⟩
  · exact completes_only rfl hb hp (ckWindow_stepSeen (s := tick dt s) hn (fun hstep => hne (ckNear_unique h hstep)) hk h hr)
  · exact completes_only rfl hb hp (ckWindow_baseSeen (s := tick dt s) hn (fun hstep => hne (ckNear_unique hstep h)) h hr hs hl hph)

end Sys2Proof.Machine
end


section
/-! The commands of a trunk, its mailbox, and the trunk registers whose writes act (05_trunk_lanes.md R219, R223, R226, R245, R246, R252; 06_trunk_framing.md R296, R297; 16_command_packets.md R628). -/

namespace Sys2Proof.Machine

/-! ## Accesses to registers -/

theorem target?_tick (dt : Nat) (s : State) (b : Nat) : target? (tick dt s) b = target? s b := rfl

/-- An address of BAR0 is that of a register or unmapped. -/
theorem target?_reg {s : State} {b : Nat} {t : Target} (h1 : 0x10000000 ≤ b) (h2 : b < 0x11000000) (h : target? s b = some t) : t = .regs := by
  unfold target? at h
  rw [if_neg (by omega), if_neg (by omega), if_neg (by omega), if_neg (by omega), if_pos ⟨h1, h2⟩] at h
  split at h
  · exact (Option.some.inj h).symm
  · cases h

/-- The cause for which an access to a register is refused does not rest on the time. -/
theorem refusalCause_reg_tick (dt : Nat) (s : State) {b : Nat} (size : Nat) (w : Bool) (h1 : 0x10000000 ≤ b) (h2 : b < 0x11000000) :
    refusalCause (tick dt s) .pcie b size w = refusalCause s .pcie b size w := by
  unfold refusalCause
  rw [target?_tick]
  rcases ht : target? s b with _ | t
  · rfl
  · obtain rfl := target?_reg h1 h2 ht
    have hawake : ∀ q, awake (tick dt s) q = awake s q := fun _ => rfl
    have hperm : permitted (tick dt s) .pcie .regs b w = permitted s .pcie .regs b w := rfl
    have hmem : decide (Target.regs = .hbm) = false := rfl
    simp only [hawake, hperm, hmem, Bool.false_and]

section
variable {a dt : Nat} {s : State}

theorem hostWrite_served (ha : a < 0x1000000) (f : State → State) (h : refusalCause s .pcie (a + 0x10000000) 4 true = none) :
    hostWrite a f (tick dt s) = f (tick dt s) :=
  hostWrite_of_cause f ((refusalCause_reg_tick dt s 4 true (Nat.le_add_left ..) (Nat.add_lt_add_right ha 0x10000000)).trans h)

theorem hostFetch_served (ha : a < 0x1000000) (f : State → State) (h : refusalCause s .pcie (a + 0x10000000) 4 false = none) :
    hostFetch a f (tick dt s) = f (tick dt s) :=
  hostFetch_of_cause f ((refusalCause_reg_tick dt s 4 false (Nat.le_add_left ..) (Nat.add_lt_add_right ha 0x10000000)).trans h)

/-- A write of a register whose write acts, once it is served. -/
theorem completes_write {i : Instr} {b : Bool} {f : State → State} {P : State → Prop} (he : exec i s = .next (only b (hostWrite a f) (tick dt s))) (hb : b = true)
    (hp : powered s = true) (ha : a < 0x1000000) (h : refusalCause s .pcie (a + 0x10000000) 4 true = none) (hP : P (f (tick dt s))) : Completes i s P :=
  completes_only he hb hp (by rwa [hostWrite_served ha f h])

theorem regsOnly_putB (a b : Nat) (v : Bool) : RegsOnly [a] dt s (putB a b v (tick dt s)) := ⟨putB_eq .., regsBut_wr a _ (tick dt s)⟩

end

theorem linkRegs_lt {n : Nat} (h : n < 72) : Reg.trkMbxData n < 0x400000 ∧ Reg.trkLinkCtrl n < 0x400000 := by
  simp only [Reg.trkMbxData, Reg.trkLinkCtrl]
  omega

theorem laneRegs_lt {m : Nat} (h : m < 576) : Reg.trkLaneCtrl m < 0x400000 ∧ Reg.trkTxCtrl m < 0x400000 := by
  simp only [Reg.trkLaneCtrl, Reg.trkTxCtrl]
  omega

/-! ## The trunks a mode uses -/

theorem linkUsed_congr {s t : State} (h : t.plan = s.plan) (n : Nat) : linkUsed t n = linkUsed s n := by
  simp only [linkUsed, trunkEntry?, h]

theorem trunkOk_congr {s t : State} (h : t.plan = s.plan) (n : Nat) : trunkOk t n = trunkOk s n := by
  simp only [trunkOk, linkUsed_congr h, h]

theorem trunkOk_iff {s : State} {n : Nat} : trunkOk s n = true ↔ n < 72 ∧ (s.plan.committed = none ∨ linkUsed s n = true) := by
  simp [trunkOk]

theorem trunkOk_accepted (dt : Nat) (h : Hdr) (s : State) (n : Nat) : trunkOk (taken h (tick dt s)) n = trunkOk s n := trunkOk_congr (taken_plan ..) n

/-! ## The link pair's own registers, apart from those of the rings -/

theorem trunkRegs_lt {n : Nat} (h : n < 72) : ∀ a ∈ [Reg.trkLinkCtrl n, linkStA n, linkMsgA n, Reg.trkLinkCnt n, Reg.trkRxHdr n, Reg.trkGrpStatus n, Reg.trkTxHdr n, Reg.trkMbxStatus n],
    a < 0x400000 := by
  have hn : n ≠ 72 := by omega
  simp only [List.mem_cons, List.not_mem_nil, or_false, linkStA, linkMsgA, if_neg hn, Reg.trkLinkCtrl, Reg.trkLinkStatus, Reg.trkLinkMsg, Reg.trkLinkCnt, Reg.trkRxHdr,
    Reg.trkGrpStatus, Reg.trkTxHdr, Reg.trkMbxStatus]
  omega

theorem rd_accepted_line {a : Nat} (dt : Nat) (h : Hdr) (s : State) (ha : a < 0x400000) : rd (taken h (tick dt s)) a = rd s a := by
  refine rd_accepted dt h s ?_
  simp only [ringRegs, List.mem_cons, List.not_mem_nil, or_false, Reg.cmdTail, Reg.cmdHead, Reg.cmdAccepted, Reg.cmdStatus]
  omega

end Sys2Proof.Machine
end


section
/-! What the trunk commands and the writes of trunk registers do, and the statement about them (O24). -/

namespace Sys2Proof.Machine

/-! ## The mailbox (06_trunk_framing.md R296, R297) -/

theorem mbxStatus_apart (n : Nat) : Reg.trkGrpStatus n ≠ Reg.trkMbxStatus n := by
  simp only [Reg.trkGrpStatus, Reg.trkMbxStatus]
  omega

theorem mbxStatus_frame (n : Nat) (s : State) : mbxStatus n s = { s with regs := (mbxStatus n s).regs } := by
  simp only [mbxStatus, putF]
  exact regs_trans (wr_eq ..) (wr_eq ..)

theorem mbxStatus_works (n : Nat) (s : State) : LinkWorks n [Reg.trkMbxStatus n] s (mbxStatus n s) :=
  ((LinkWorks.refl ..).putF (by simp) (mbxStatus_apart n) 0 9 _).putF (by simp) (mbxStatus_apart n) 16 9 _

theorem putLink_eq (n : Nat) (x : LinkTrack) (s : State) : putLink n x s = { s with regs := (putLink n x s).regs, trk := (putLink n x s).trk } := rfl

/-- A mailbox queue of a link pair has changed, and its status shows it. -/
theorem mbxChanged (n : Nat) (x : LinkTrack) (s : State) : let t := mbxStatus n (putLink n x s)
    linkTrack t n = x ∧ LinkWorks n [Reg.trkMbxStatus n] s t := by
  refine ⟨?_, ((LinkWorks.refl ..).putLink x).trans (mbxStatus_works ..)⟩
  rw [linkTrack_congr (s := putLink n x s) (by rw [mbxStatus_frame]), linkTrack_putLink_same]

theorem mbxWrite_room {n : Nat} {s : State} (v : Word) (h : (linkTrack s n).txq.length < 256) : mbxWrite n v s
    = mbxStatus n (putLink n { linkTrack s n with txq := (linkTrack s n).txq ++ [(fld v 0 8, bit v 8)] } s) := if_pos h

theorem mbxWrite_full {n : Nat} {s : State} (v : Word) (h : ¬ (linkTrack s n).txq.length < 256) : mbxWrite n v s = putB (Reg.trkMbxStatus n) 10 true s := if_neg h

theorem mbxRead_empty {n : Nat} {s : State} (h : (linkTrack s n).rxq = []) : mbxRead n s = { s with readData := 0 } := by
  simp only [mbxRead, h]

theorem mbxRead_byte {n : Nat} {s : State} {b : Nat × Bool} {rest : List (Nat × Bool)} (h : (linkTrack s n).rxq = b :: rest) : mbxRead n s
    = { mbxStatus n (putLink n { linkTrack s n with rxq := rest } s) with readData := BitVec.ofNat 32 (b.1 + b2n b.2 * 256 + 512) } := by
  simp only [mbxRead, h]

theorem mbxStatus_readData (n : Nat) (s : State) : (mbxStatus n s).readData = s.readData := by rw [mbxStatus_frame]

theorem mbxRead_taken {n : Nat} {s : State} {b : Nat × Bool} {rest : List (Nat × Bool)} (h : (linkTrack s n).rxq = b :: rest) : let t := mbxRead n s
    t.readData = BitVec.ofNat 32 (b.1 + (if b.2 = true then 256 else 0) + 512) ∧ linkTrack t n = { linkTrack s n with rxq := rest }
      ∧ LinkWorks n [Reg.trkMbxStatus n] s { t with readData := s.readData } := by
  obtain ⟨x, hx⟩ : ∃ x : LinkTrack, { linkTrack s n with rxq := rest } = x := ⟨_, rfl⟩
  have hend : b2n b.2 * 256 = if b.2 = true then 256 else 0 := by cases b.2 <;> rfl
  obtain ⟨htrack, hworks⟩ := mbxChanged n x s
  have hread : (mbxStatus n (putLink n x s)).readData = s.readData := mbxStatus_readData ..
  have he := mbxRead_byte h
  rw [hx, hend] at he
  generalize mbxStatus n (putLink n x s) = u at *
  generalize BitVec.ofNat 32 (b.1 + (if b.2 = true then 256 else 0) + 512) = d at *
  simp only [he, hx]
  exact ⟨trivial, htrack, (congrArg (fun r => LinkWorks n [Reg.trkMbxStatus n] s { u with readData := r }) hread).mp hworks⟩

/-- END stands on the last byte of a message. -/
theorem withEnd_eq {bytes : List Nat} {last : Nat} (hlast : bytes.getLast? = some last) (hb : ∀ b ∈ bytes, b < 256) :
    withEnd bytes = bytes.dropLast.map (fun b => (b, false)) ++ [(last, true)] := by
  induction bytes with
  | nil => cases hlast
  | cons x xs ih =>
    have hx : x % 256 = x := Nat.mod_eq_of_lt (hb x List.mem_cons_self)
    cases xs with
    | nil =>
      obtain rfl : x = last := by simpa using hlast
      simp [withEnd, hx]
    | cons y ys =>
      rw [withEnd, ih (by simpa using hlast) fun b h => hb b (List.mem_cons_of_mem _ h), hx]
      · simp
      · simp

/-! ## ENABLE, RESTART and ROLE (R219, R246) -/

theorem LinkWorks.linkCtrl {n : Nat} {as : List Nat} {s t : State} (h : LinkWorks n as s t) (ha : Reg.trkLinkCtrl n ∈ as) (b : Nat) (v : Bool) :
    LinkWorks n as s (Machine.putB (Reg.trkLinkCtrl n) b v t) := by
  refine h.putB ha ?_ b v
  simp only [Reg.trkGrpStatus, Reg.trkLinkCtrl]
  omega

/-- The registers that a write of `TRK_LINK_CTRL` may move. -/
abbrev trunkLinkRegs (n : Nat) : List Nat := [Reg.trkLinkCtrl n, linkStA n, linkMsgA n, Reg.trkLinkCnt n]

theorem ladderRegs_trunk {n : Nat} (h : n < 72) : ladderRegs n = [linkStA n, linkMsgA n, Reg.trkLinkCnt n] := by
  have hn : n ≠ 72 := by omega
  simp only [ladderRegs, linkNoteA, if_neg hn]

/-- The ladder of a trunk has started again from step 0, sending `byte` first. -/
abbrev RestartedWith (byte n : Nat) (t : State) : Prop := linkPhase t n = 1 ∧ linkStep t n = 0 ∧ getF t (linkMsgA n) 0 8 = byte ∧ getF t (linkStA n) 16 16 = 0

theorem LadderRestarted.restartedWith {n byte : Nat} {s t : State} (h : LadderRestarted n byte s t) : RestartedWith byte n t := ⟨h.phase, h.step, h.sent, h.lanes⟩

theorem LadderRestarted.trunkWorks {n byte : Nat} {s t : State} (h : LadderRestarted n byte s t) (hn : n < 72) : LinkWorks n (trunkLinkRegs n) s t := by
  refine h.works.mono ?_
  rw [ladderRegs_trunk hn]
  exact List.subset_cons_self ..

theorem LadderRestarted.ctrl {n byte : Nat} {s t : State} (h : LadderRestarted n byte s t) : rd t (Reg.trkLinkCtrl n) = rd s (Reg.trkLinkCtrl n) :=
  h.works.moves.regs _ (by simp [trkLinkCtrl_apart n])

theorem linkOff_spec (n : Nat) (s : State) : let t := linkOff n s
    linkPhase t n = 0 ∧ getF t (linkStA n) 16 16 = 0 ∧ LinkWorks n [linkStA n] s t := by
  have hg := (trkGrpStatus_apart n).1
  refine ⟨?_, ?_, ((((LinkWorks.refl n _ s).putF (by simp) hg 16 16 0).putF (by simp) hg 12 1 0).putF (by simp) hg 0 10 0 |>.putLink _).clearLanes⟩
  · simp [linkOff, linkPhase, getF_putF_within]
  · simp [linkOff, getF_putF_fld, getF_putF_same]

section
variable {n : Nat} (hn : n < 72) (s : State)
include hn

theorem linkEnable_on (h : getB s (Reg.trkLinkCtrl n) 0 = false) : let t := linkEnable n true s
    getB t (Reg.trkLinkCtrl n) 0 = true ∧ RestartedWith 0 n t ∧ LinkWorks n (trunkLinkRegs n) s t := by
  have hr := ladderRestarted n 0 (putB (Reg.trkLinkCtrl n) 0 true s) (by decide)
  simp only [linkEnable, h, if_true]
  refine ⟨?_, hr.restartedWith, ((LinkWorks.refl ..).linkCtrl (by simp) 0 true).trans (hr.trunkWorks hn)⟩
  rw [if_neg (by decide), getB, hr.ctrl, ← getB, getB_putB_same _ _ _ (by decide)]

omit hn in
theorem linkEnable_again (h : getB s (Reg.trkLinkCtrl n) 0 = true) : linkEnable n true s = putB (Reg.trkLinkCtrl n) 0 true s := by
  simp only [linkEnable, h, if_true]

omit hn in
theorem linkEnable_off : let t := linkEnable n false s
    getB t (Reg.trkLinkCtrl n) 0 = false ∧ linkPhase t n = 0 ∧ getF t (linkStA n) 16 16 = 0 ∧ LinkWorks n (trunkLinkRegs n) s t := by
  obtain ⟨hphase, hlanes, hworks⟩ := linkOff_spec n (putB (Reg.trkLinkCtrl n) 0 false s)
  have he : linkEnable n false s = linkOff n (putB (Reg.trkLinkCtrl n) 0 false s) := rfl
  simp only [he]
  refine ⟨?_, hphase, hlanes, ((LinkWorks.refl ..).linkCtrl (by simp) 0 false).trans (hworks.mono (by simp))⟩
  rw [getB, hworks.moves.regs _ (by simp [trkLinkCtrl_apart n]), ← getB, getB_putB_same _ _ _ (by decide)]

omit hn in
theorem linkRestart_on {s : State} (h : getB s (Reg.trkLinkCtrl n) 0 = true) : linkRestart n s = ladderRestart n 0x60 s := if_pos h

omit hn in
theorem linkRestart_off {s : State} (h : getB s (Reg.trkLinkCtrl n) 0 = false) : linkRestart n s = s := if_neg (by rw [h]; decide)

omit hn in
theorem linkFollower_role (hn : n < 72) (f : Bool) {t : State} (h : rd t (Reg.trkLinkCtrl n) = rd (putB (Reg.trkLinkCtrl n) 1 f s) (Reg.trkLinkCtrl n)) :
    linkFollower t n = f := by
  rw [linkFollower, if_neg (by omega), getB, h, ← getB, getB_putB_same _ _ _ (by decide)]

theorem linkRole_spec (f : Bool) : let t := linkRole n f s
    linkFollower t n = f ∧ (getB s (Reg.trkLinkCtrl n) 0 = true → RestartedWith 0x60 n t)
      ∧ (getB s (Reg.trkLinkCtrl n) 0 = false → t = putB (Reg.trkLinkCtrl n) 1 f s) ∧ LinkWorks n (trunkLinkRegs n) s t := by
  have hkept : getB (putB (Reg.trkLinkCtrl n) 1 f s) (Reg.trkLinkCtrl n) 0 = getB s (Reg.trkLinkCtrl n) 0 := getB_putB_bit _ _ _ (by decide) (by decide)
  have hput := (LinkWorks.refl n (trunkLinkRegs n) s).linkCtrl (by simp) 1 f
  cases h : getB s (Reg.trkLinkCtrl n) 0 with
  | true =>
    have he : linkRole n f s = ladderRestart n 0x60 (putB (Reg.trkLinkCtrl n) 1 f s) := linkRestart_on (hkept.trans h)
    have hr := ladderRestarted n 0x60 (putB (Reg.trkLinkCtrl n) 1 f s) (by decide)
    simp only [he]
    exact ⟨linkFollower_role s hn f hr.ctrl, fun _ => hr.restartedWith, nofun, hput.trans (hr.trunkWorks hn)⟩
  | false =>
    have he : linkRole n f s = putB (Reg.trkLinkCtrl n) 1 f s := linkRestart_off (hkept.trans h)
    simp only [he]
    exact ⟨linkFollower_role s hn f rfl, nofun, fun _ => trivial, hput⟩

end

/-! ## The commands of a trunk (16_command_packets.md R628) -/

/-- A command's acceptance, its work on registers and trunks, and its answer. -/
theorem regsCmdTrk_trans {s u v t : State} (h1 : u = { s with regs := u.regs, cmd := u.cmd }) (h2 : v = { u with regs := v.regs, trk := v.trk })
    (h3 : t = { v with regs := t.regs, cmd := t.cmd }) : t = { s with regs := t.regs, cmd := t.cmd, trk := t.trk } := by
  have htrk : t.trk = v.trk := by rw [h3]
  rw [h1] at h2
  rw [h2] at h3
  rw [htrk]
  exact h3

/-- Work on a trunk's link pair after the acceptance of a command leaves the rings alone. -/
theorem linkWorks_accepted {n dt : Nat} {h : Hdr} {as : List Nat} {s u : State} (hw : LinkWorks n as (taken h (tick dt s)) u) (hn : n < 72) :
    RegsBut (ringRegs ++ as) s u ∧ (∀ m, m ≠ n → m ≠ groupHead s n → linkTrack u m = linkTrack s m) ∧ (∀ m, m / 8 ≠ n → laneTrack u m = laneTrack s m)
      ∧ u.trk.streams = s.trk.streams := by
  have htrk : (taken h (tick dt s)).trk = s.trk := by rw [taken_eq]; rfl
  have hhead : groupHead (taken h (tick dt s)) n = groupHead s n := groupHead_congr (rd_accepted_line dt h s (trunkRegs_lt hn _ (by simp)))
  refine ⟨fun a ha => ?_, fun m hm hh => ?_, fun m hm => ?_, by rw [hw.streams, htrk]⟩
  · rw [List.mem_append, not_or] at ha
    rw [hw.moves.regs a ha.2, rd_accepted dt h s ha.1]
  · rw [hw.moves.links m hm (by rwa [hhead]), linkTrack_congr htrk]
  · rw [hw.moves.lanes m hm, laneTrack_congr htrk]

section
variable {dt n : Nat} {h : Hdr} {s : State}

theorem trkQuery_answers (hr : Ready h (.trkQuery n) s) (hok : trunkOk s n = true) : Completes (.trkQuery dt h n) s (AnswersWith dt h (.trkQuery n) 0
    ([linkStA n, linkMsgA n, Reg.trkRxHdr n, Reg.trkGrpStatus n, Reg.trkTxHdr n].map fun a => (4, (rd s a).toNat)) s) := by
  refine completes_fw rfl hr rfl ?_ (answersWith_of 0 _)
  have hlt := trunkRegs_lt (trunkOk_iff.1 hok).1
  have hrd : ∀ a ∈ [linkStA n, linkMsgA n, Reg.trkRxHdr n, Reg.trkGrpStatus n, Reg.trkTxHdr n], (4, (rd (taken h (tick dt s)) a).toNat) = (4, (rd s a).toNat) := fun a ha => by
    rw [rd_accepted_line dt h s (hlt a (by simp only [List.mem_cons, List.not_mem_nil, or_false] at ha ⊢; tauto))]
  have he : fwExecute (hostCmd h (.trkQuery n)) (taken h (tick dt s)) = fxTrkQuery (hostCmd h (.trkQuery n)) n (taken h (tick dt s)) := rfl
  rw [he, fxTrkQuery, if_pos ((trunkOk_accepted ..).trans hok), List.map_congr_left hrd]

theorem trkQuery_refused (hr : Ready h (.trkQuery n) s) (hok : ¬ trunkOk s n = true) : Completes (.trkQuery dt h n) s (AnswersWith dt h (.trkQuery n) 0x0501 [] s) :=
  completes_refused rfl hr rfl (if_neg (by rwa [trunkOk_accepted]))

theorem getB_ctrl_accepted (hn : n < 72) : getB (taken h (tick dt s)) (Reg.trkLinkCtrl n) 0 = getB s (Reg.trkLinkCtrl n) 0 := by
  rw [getB, rd_accepted_line dt h s (linkRegs_lt hn).2, ← getB]

theorem trkRestart_off (hr : Ready h (.trkRestart n) s) (hok : trunkOk s n = true) (h0 : getB s (Reg.trkLinkCtrl n) 0 = false) :
    Completes (.trkRestart dt h n) s (AnswersWith dt h (.trkRestart n) 0 [] s) := by
  refine completes_fw rfl hr rfl ?_ (answersWith_of 0 _)
  have he : fwExecute (hostCmd h (.trkRestart n)) (taken h (tick dt s)) = fxTrkRestart (hostCmd h (.trkRestart n)) n (taken h (tick dt s)) := rfl
  rw [he, fxTrkRestart, if_pos ((trunkOk_accepted ..).trans hok), getB_ctrl_accepted (trunkOk_iff.1 hok).1, h0]
  rfl

theorem trkRestart_refused (hr : Ready h (.trkRestart n) s) (hok : ¬ trunkOk s n = true) : Completes (.trkRestart dt h n) s (AnswersWith dt h (.trkRestart n) 0x0501 [] s) :=
  completes_refused rfl hr rfl (if_neg (by rwa [trunkOk_accepted]))

theorem trkRestart_on (hr : Ready h (.trkRestart n) s) (hok : trunkOk s n = true) (h0 : getB s (Reg.trkLinkCtrl n) 0 = true) :
    Completes (.trkRestart dt h n) s fun t => Replied dt h (.trkRestart n) 0 s t ∧ RestartedWith 0x60 n t ∧ t = { tick dt s with regs := t.regs, cmd := t.cmd, trk := t.trk }
      ∧ RegsBut (ringRegs ++ trunkLinkRegs n) s t ∧ (∀ m, m ≠ n → m ≠ groupHead s n → linkTrack t m = linkTrack s m) ∧ (∀ m, m / 8 ≠ n → laneTrack t m = laneTrack s m)
      ∧ t.trk.streams = s.trk.streams := by
  have hn := (trunkOk_iff.1 hok).1
  have hrest := ladderRestarted n 0x60 (taken h (tick dt s)) (by decide)
  refine completes_fw (u := complete (hostCmd h (.trkRestart n)) 0 0 [] (ladderRestart n 0x60 (taken h (tick dt s)))) rfl hr rfl ?_ ?_
  · have he : fwExecute (hostCmd h (.trkRestart n)) (taken h (tick dt s)) = fxTrkRestart (hostCmd h (.trkRestart n)) n (taken h (tick dt s)) := rfl
    rw [he, fxTrkRestart, if_pos ((trunkOk_accepted ..).trans hok), getB_ctrl_accepted hn, h0]
    rfl
  obtain ⟨u, hu⟩ : ∃ u, ladderRestart n 0x60 (taken h (tick dt s)) = u := ⟨_, rfl⟩
  rw [hu] at hrest ⊢
  have hacc : taken h (tick dt s) = { tick dt s with regs := (taken h (tick dt s)).regs, cmd := (taken h (tick dt s)).cmd } := taken_eq h (tick dt s)
  have hcmd : u.cmd = (taken h (tick dt s)).cmd := by rw [hrest.frame]
  have hnow : u.now = s.now + dt := by rw [hrest.frame, hacc]; rfl
  have hlt := trunkRegs_lt hn
  have hrate : rd u Reg.planHouseRate = rd s Reg.planHouseRate := by
    rw [hrest.trunkWorks hn |>.moves.regs _ fun hmem => ?_, rd_accepted dt h s (by decide)]
    have := hlt _ (List.mem_append_left [Reg.trkRxHdr n, Reg.trkGrpStatus n, Reg.trkTxHdr n, Reg.trkMbxStatus n] hmem)
    exact absurd this (by decide)
  have hans := answered_complete (dt := dt) (h := h) (b := .trkRestart n) (s := s) (u := u) 0 0 [] hcmd hrate hnow
  obtain ⟨hframe, -, hrd, -⟩ := completeAt_host (hostCmd h (.trkRestart n)) 0 0 (houseFrame u) [] u rfl
  obtain ⟨hregs, hlinks, hlanes, hstreams⟩ := linkWorks_accepted (hrest.trunkWorks hn) hn
  rw [complete] at hans ⊢
  generalize completeAt (hostCmd h (.trkRestart n)) 0 0 (houseFrame u) [] u = t at *
  have htrk : t.trk = u.trk := by rw [hframe]
  have hline : ∀ a, a < 0x400000 → rd t a = rd u a := fun a ha => hrd a (by simp only [Reg.cmdStatus]; omega)
  have hmsg : rd t (linkMsgA n) = rd u (linkMsgA n) := hline _ (hlt _ (by simp))
  have hsta : rd t (linkStA n) = rd u (linkStA n) := hline _ (hlt _ (by simp))
  refine ⟨hans, ?_, ?_, fun a ha => ?_, fun m hm hh => (linkTrack_congr htrk m).trans (hlinks m hm hh), fun m hm => (laneTrack_congr htrk m).trans (hlanes m hm),
    by rw [htrk, hstreams]⟩
  · simpa only [RestartedWith, linkPhase, linkStep, getF, hmsg, hsta] using hrest.restartedWith
  · exact regsCmdTrk_trans hacc hrest.frame hframe
  · rw [hrd a fun hc => ha (by simp [hc, ringRegs]), hregs a ha]

theorem linkRun_accepted (hn : n < 72) : linkRun (taken h (tick dt s)) n = linkRun s n := by
  rw [linkRun, linkPhase, getF, rd_accepted_line dt h s (trunkRegs_lt hn _ (by simp)), ← getF, ← linkPhase, linkRun]

theorem linkTrack_accepted (m : Nat) : linkTrack (taken h (tick dt s)) m = linkTrack s m := linkTrack_congr (by rw [taken_eq]; rfl) m

section
variable {len : Nat} {bytes : List Nat} (hr : Ready h (.trkMbxSend n len bytes) s)
include hr

theorem trkMbxSend_range (hok : ¬ trunkOk s n = true) : Completes (.trkMbxSend dt h n len bytes) s (AnswersWith dt h (.trkMbxSend n len bytes) 0x0501 [] s) :=
  completes_refused rfl hr rfl (if_pos (by rw [trunkOk_accepted]; simpa using hok))

variable (hok : trunkOk s n = true)
include hok

omit hr in
theorem fxTrkMbxSend_run (c : Cmd) : fxTrkMbxSend c n bytes (taken h (tick dt s)) = if linkRun s n = false then refuse c St.trkNotRun (taken h (tick dt s))
    else if 256 < (linkTrack s n).txq.length + bytes.length then refuse c St.trkMbxFull (taken h (tick dt s))
    else mbxStatus n (putLink n { linkTrack s n with txq := (linkTrack s n).txq ++ withEnd bytes, sends := (linkTrack s n).sends ++ [(c, (linkTrack s n).txq.length + bytes.length)] }
      (taken h (tick dt s))) := by
  simp only [fxTrkMbxSend, trunkOk_accepted, hok, Bool.true_eq_false, if_false, linkRun_accepted (trunkOk_iff.1 hok).1, linkTrack_accepted]

theorem trkMbxSend_notRun (hrun : linkRun s n = false) : Completes (.trkMbxSend dt h n len bytes) s (AnswersWith dt h (.trkMbxSend n len bytes) 0x0502 [] s) :=
  completes_refused rfl hr rfl ((fxTrkMbxSend_run hok _).trans (if_pos hrun))

variable (hrun : linkRun s n = true)
include hrun

theorem trkMbxSend_full (hfull : 256 < (linkTrack s n).txq.length + bytes.length) :
    Completes (.trkMbxSend dt h n len bytes) s (AnswersWith dt h (.trkMbxSend n len bytes) 0x0503 [] s) :=
  completes_refused rfl hr rfl ((fxTrkMbxSend_run hok _).trans ((if_neg (by rw [hrun]; decide)).trans (if_pos hfull)))

theorem trkMbxSend_room {last : Nat} (hlast : bytes.getLast? = some last) (hb : ∀ b ∈ bytes, b < 256) (hroom : (linkTrack s n).txq.length + bytes.length ≤ 256) :
    Completes (.trkMbxSend dt h n len bytes) s fun t => Waits h s t
      ∧ (linkTrack t n).txq = (linkTrack s n).txq ++ bytes.dropLast.map (fun b => (b, false)) ++ [(last, true)]
      ∧ t = { tick dt s with regs := t.regs, cmd := t.cmd, trk := t.trk } ∧ RegsBut (Reg.trkMbxStatus n :: ringRegs) s t ∧ ∀ m, m ≠ n → linkTrack t m = linkTrack s m := by
  refine completes_fw rfl hr rfl ((fxTrkMbxSend_run hok _).trans ((if_neg (by rw [hrun]; decide)).trans (if_neg (Nat.not_lt.2 hroom)))) ?_
  obtain ⟨x, hx⟩ : ∃ x : LinkTrack, { linkTrack s n with
      txq := (linkTrack s n).txq ++ withEnd bytes
      sends := (linkTrack s n).sends ++ [(hostCmd h (.trkMbxSend n len bytes), (linkTrack s n).txq.length + bytes.length)] } = x := ⟨_, rfl⟩
  rw [hx]
  obtain ⟨htrack, hworks⟩ := mbxChanged n x (taken h (tick dt s))
  have hframe := mbxStatus_frame n (putLink n x (taken h (tick dt s)))
  generalize mbxStatus n (putLink n x (taken h (tick dt s))) = t at *
  refine ⟨waits_of_cmd hr (by rw [hframe, putLink_cmd]), ?_, ?_, fun a ha => ?_, fun m hm => ?_⟩
  · rw [htrack, ← hx, withEnd_eq hlast hb, List.append_assoc]
  · exact regsCmdTrk_trans (v := t) (taken_eq h (tick dt s)) (regsTrk_trans (putLink_eq n x _) (by rw [hframe])) rfl
  · rw [List.mem_cons, not_or] at ha
    rw [hworks.moves.regs a (by simpa using ha.1), rd_accepted dt h s ha.2]
  · rw [linkTrack_congr (s := putLink n x (taken h (tick dt s))) (by rw [hframe]), linkTrack_putLink_ne hm, linkTrack_accepted]

end

end

/-! ## Lanes (R223, R226, R245, R252) -/

theorem manualOr_set {m : Nat} {s : State} (f : State → State) (h : getB s (Reg.trkLinkCtrl (m / 8)) 6 = true) : manualOr m f s = f s := if_pos h

theorem manualOr_clear {m : Nat} {s : State} (f : State → State) (h : getB s (Reg.trkLinkCtrl (m / 8)) 6 = false) :
    manualOr m f s = putB (linkStA (m / 8)) 14 true s := if_neg (by rw [h]; decide)

theorem laneSlip_manual {m : Nat} {s : State} (h : getB s (Reg.trkLinkCtrl (m / 8)) 6 = true) : let t := laneSlip m s
    laneTrack t m = { laneTrack s m with slips := (laneTrack s m).slips + 1, slipWait := 0, okRun := 0 } ∧ getB t (Reg.trkLaneStatus m) 0 = false
      ∧ LinkWorks (m / 8) [Reg.trkLaneStatus m] s t := by
  rw [laneSlip, manualOr_set _ h]
  refine ⟨?_, getB_putB_same _ _ _ (by decide), ((LinkWorks.refl ..).putLane rfl _).putB (by simp) (laneRegs_apart m).1.symm 0 false⟩
  rw [laneTrack_putB, laneTrack_putLane_same]

theorem laneInject_manual {m : Nat} {s : State} (h : getB s (Reg.trkLinkCtrl (m / 8)) 6 = true) : let t := laneInject m s
    laneTrack t m = { laneTrack s m with injected := (laneTrack s m).injected + (if getB s (Reg.trkTxCtrl m) 0 = true then 1 else 0) } ∧ LinkWorks (m / 8) [] s t := by
  rw [laneInject, manualOr_set _ h]
  split
  · exact ⟨laneTrack_putLane_same .., (LinkWorks.refl ..).putLane rfl _⟩
  · exact ⟨rfl, .refl ..⟩

/-! ## The statement -/

/-- Settles O24: a command answers from the registers or works on the link pair its acceptance left, and a write that is served has the effect stated above. -/
theorem trunkCommandsAndRegisterWrites : Obligations.TrunkCommandsAndRegisterWrites := by
  unfold Obligations.TrunkCommandsAndRegisterWrites
  intro served ok restarted linkRegs
  have hok : ∀ s n, ok s n ↔ trunkOk s n = true := fun s n => trunkOk_iff.symm
  refine ⟨fun dt h n s hr => ⟨fun h1 => trkQuery_answers hr ((hok s n).1 h1), fun h1 => trkQuery_refused hr fun h2 => h1 ((hok s n).2 h2)⟩,
    fun dt h n s hr => ⟨fun h1 h0 => trkRestart_on hr ((hok s n).1 h1) h0, fun h1 h0 => trkRestart_off hr ((hok s n).1 h1) h0,
      fun h1 => trkRestart_refused hr fun h2 => h1 ((hok s n).2 h2)⟩,
    fun dt h n len bytes s hr => ⟨fun h1 _ => trkMbxSend_range hr fun h2 => h1 ((hok s n).2 h2), fun h1 => trkMbxSend_notRun hr ((hok s n).1 h1),
      fun h1 => trkMbxSend_full hr ((hok s n).1 h1), fun h1 hrun last hlast hb hroom => trkMbxSend_room hr ((hok s n).1 h1) hrun hlast hb hroom⟩,
    ?_, ?_⟩
  · intro dt s hp n hn q
    have hb : decide (n < 72) = true := decide_eq_true hn
    obtain ⟨hdata, hctrl⟩ := linkRegs_lt hn
    have hdata : Reg.trkMbxData n < 0x1000000 := by omega
    have hctrl : Reg.trkLinkCtrl n < 0x1000000 := by omega
    refine ⟨fun hs value => ?_, fun hs => ⟨fun hq => ?_, fun b rest hq _ => ?_⟩, fun hs => ⟨fun h0 => ?_, fun h0 => ?_, ?_, fun h0 => ?_, fun h0 => ?_, fun follower => ?_,
      fun manual => ?_⟩⟩
    · have hbyte : (fld value 0 8, bit value 8) = (value.toNat % 256, decide (value.toNat / 256 % 2 = 1)) := by
        simp only [fld, bit, pow_zero, Nat.div_one]
        rfl
      split
      · rename_i hroom
        refine completes_write rfl hb hp hdata hs ?_
        rw [mbxWrite_room (s := tick dt s) value hroom]
        obtain ⟨htrack, hworks⟩ := mbxChanged n { q with txq := q.txq ++ [(fld value 0 8, bit value 8)] } (tick dt s)
        exact ⟨htrack.trans (by rw [hbyte]), hworks.linkOnly⟩
      · rename_i hroom
        refine completes_write rfl hb hp hdata hs ?_
        rw [mbxWrite_full (s := tick dt s) value hroom]
        exact ⟨getB_putB_same _ _ _ (by decide), regsOnly_putB ..⟩
    · exact completes_only rfl hb hp (by rw [hostFetch_served hdata _ hs, mbxRead_empty (s := tick dt s) hq])
    · refine completes_only rfl hb hp ?_
      rw [hostFetch_served hdata _ hs]
      obtain ⟨hdata, htrack, hworks⟩ := mbxRead_taken (s := tick dt s) hq
      exact ⟨hdata, htrack, hworks.linkOnly⟩
    · obtain ⟨hbit, hrest, hworks⟩ := linkEnable_on hn (tick dt s) h0
      exact completes_write rfl hb hp hctrl hs ⟨hbit, hrest, hworks.linkOnly⟩
    · refine completes_write rfl hb hp hctrl hs ?_
      rw [linkEnable_again (tick dt s) h0]
      exact ⟨getB_putB_same _ _ _ (by decide), regsOnly_putB ..⟩
    · obtain ⟨hbit, hphase, hlanes, hworks⟩ := linkEnable_off (n := n) (tick dt s)
      exact completes_write rfl hb hp hctrl hs ⟨hbit, hphase, hlanes, hworks.linkOnly⟩
    · have hrest := ladderRestarted n 0x60 (tick dt s) (by decide)
      refine completes_write rfl hb hp hctrl hs ?_
      rw [linkRestart_on (s := tick dt s) h0]
      exact ⟨hrest.restartedWith, (hrest.trunkWorks hn).linkOnly⟩
    · exact completes_write rfl hb hp hctrl hs (linkRestart_off (s := tick dt s) h0)
    · obtain ⟨hrole, hon, hoff, hworks⟩ := linkRole_spec hn (tick dt s) follower
      refine completes_write rfl hb hp hctrl hs ⟨hrole, hon, fun h0 => ?_, hworks.linkOnly⟩
      rw [hoff h0]
      exact regsOnly_putB ..
    · split
      · rename_i hc
        refine completes_write rfl hb hp hctrl hs ?_
        rw [linkSetManual, if_pos (by exact hc)]
        exact ⟨getB_putB_same _ _ _ (by decide), regsOnly_putB ..⟩
      · rename_i hc
        refine completes_write rfl hb hp hctrl hs ?_
        rw [linkSetManual, if_neg (by exact hc)]
        exact ⟨getB_putB_same _ _ _ (by decide), regsOnly_putB ..⟩
  · intro dt s hp lane hlane n q
    have hb : decide (lane < 576) = true := decide_eq_true hlane
    obtain ⟨hctrl, htx⟩ := laneRegs_lt hlane
    have hctrl : Reg.trkLaneCtrl lane < 0x1000000 := by omega
    have htx : Reg.trkTxCtrl lane < 0x1000000 := by omega
    refine ⟨fun hs => ⟨?_, fun h6 => ?_, fun h6 => ?_⟩, fun hs => ⟨fun h6 => ?_, fun h6 => ?_⟩⟩
    · exact completes_write rfl hb hp hctrl hs ⟨getB_putB_same _ _ _ (by decide), regsOnly_putB ..⟩
    · obtain ⟨htrack, hbit, hworks⟩ := laneSlip_manual (s := tick dt s) h6
      exact completes_write rfl hb hp hctrl hs ⟨htrack, hbit, hworks.linkOnly⟩
    · refine completes_write rfl hb hp hctrl hs ?_
      rw [laneSlip, manualOr_clear (s := tick dt s) _ h6]
      exact ⟨getB_putB_same _ _ _ (by decide), regsOnly_putB ..⟩
    · obtain ⟨htrack, hworks⟩ := laneInject_manual (s := tick dt s) h6
      exact completes_write rfl hb hp htx hs ⟨htrack, hworks.linkOnly⟩
    · refine completes_write rfl hb hp htx hs ?_
      rw [laneInject, manualOr_clear (s := tick dt s) _ h6]
      exact ⟨getB_putB_same _ _ _ (by decide), regsOnly_putB ..⟩

end Sys2Proof.Machine
end


section
/-! The eye of a lane: the sweep takes the longest run of good positions (05_trunk_lanes.md R224). -/

namespace Sys2Proof.Machine

/-- The best element of a list, the first of equal ones, is at least as good as each. -/
theorem foldl_best {α : Type} (m : α → Nat) (l : List α) (b : α) : let r := l.foldl (fun b c => if m b < m c then c else b) b
    m b ≤ m r ∧ (∀ c ∈ l, m c ≤ m r) ∧ (r = b ∨ r ∈ l) := by
  induction l generalizing b with
  | nil => exact ⟨Nat.le_refl _, nofun, .inl rfl⟩
  | cons x xs ih =>
    obtain ⟨hb, hxs, hr⟩ := ih (if m b < m x then x else b)
    refine ⟨?_, fun c hc => ?_, ?_⟩
    · refine Nat.le_trans ?_ hb
      split <;> omega
    · rcases List.mem_cons.1 hc with rfl | hc
      · refine Nat.le_trans ?_ hb
        split <;> omega
      · exact hxs c hc
    · rcases hr with hr | hr
      · rw [List.foldl_cons, hr]
        split
        · exact .inr List.mem_cons_self
        · exact .inl rfl
      · exact .inr (List.mem_cons_of_mem _ hr)

theorem nth?_eq {α : Type} (l : List α) (i : Nat) : nth? l i = l[i]? := by
  induction l generalizing i with
  | nil => rfl
  | cons x xs ih =>
    cases i with
    | zero => rfl
    | succ i => exact ih i

/-- Position `i` of the circle of 64 is good: its count is at most the limit. -/
abbrev EyeGood (cnt : List Nat) (limit i : Nat) : Prop := (nth? cnt (i % 64)).getD (limit + 1) ≤ limit

theorem runFrom_good {cnt : List Nat} {limit : Nat} (k p : Nat) : ∀ i, i < runFrom cnt limit p k → EyeGood cnt limit (p + i) := by
  induction k generalizing p with
  | zero =>
    intro i hi
    exact absurd hi (Nat.not_lt_zero i)
  | succ k ih =>
    intro i hi
    rw [runFrom] at hi
    split at hi
    · rename_i hg
      cases i with
      | zero => exact hg
      | succ i =>
        have := ih (p + 1) i (by omega)
        rwa [Nat.add_right_comm, Nat.add_assoc] at this
    · exact absurd hi (Nat.not_lt_zero i)

theorem runFrom_longest {cnt : List Nat} {limit : Nat} (k p len : Nat) (hk : len ≤ k) (h : ∀ i, i < len → EyeGood cnt limit (p + i)) : len ≤ runFrom cnt limit p k := by
  induction k generalizing p len with
  | zero => omega
  | succ k ih =>
    cases len with
    | zero => exact Nat.zero_le _
    | succ len =>
      rw [runFrom, if_pos (by exact h 0 (Nat.succ_pos _))]
      have := ih (p + 1) len (by omega) fun i hi => by
        have := h (i + 1) (by omega)
        rwa [Nat.add_right_comm, Nat.add_assoc]
      omega

theorem eyeRun_best (cnt : List Nat) (limit : Nat) : let r := eyeRun cnt limit
    (∀ i, i < r.2 → EyeGood cnt limit (r.1 + i)) ∧ ∀ p, p < 64 → runFrom cnt limit p 64 ≤ r.2 := by
  have hmap : eyeRun cnt limit = ((upto 0 64).map fun p => (p, runFrom cnt limit p 64)).foldl (fun b c => if b.2 < c.2 then c else b) (0, 0) := by
    rw [List.foldl_map, eyeRun]
  obtain ⟨-, hall, hr⟩ := foldl_best Prod.snd ((upto 0 64).map fun p => (p, runFrom cnt limit p 64)) (0, 0)
  rw [← hmap] at hall hr
  refine ⟨?_, fun p hp => hall (p, runFrom cnt limit p 64) (List.mem_map.2 ⟨p, upto_mem.2 (by omega), rfl⟩)⟩
  rcases hr with hr | hr
  · intro i hi
    rw [hr] at hi
    exact absurd hi (Nat.not_lt_zero i)
  · obtain ⟨p, -, he⟩ := List.mem_map.1 hr
    rw [← he]
    exact runFrom_good 64 p

/-- Position `i` of setting `c` of a sweep is good. -/
abbrev SweepGood (sweep : List Nat) (limit c i : Nat) : Prop := ∃ x, nth? sweep (64 * c + i % 64) = some x ∧ x ≤ limit

theorem eyeGood_counts (sweep : List Nat) (limit c i : Nat) : EyeGood (eyeCounts sweep c) limit i ↔ SweepGood sweep limit c i := by
  have hi : i % 64 < 64 := Nat.mod_lt _ (by decide)
  have hn : nth? (eyeCounts sweep c) (i % 64) = nth? sweep (64 * c + i % 64) := by
    rw [eyeCounts, nth?_eq, nth?_eq, List.getElem?_take_of_lt hi, List.getElem?_drop]
  rw [EyeGood, hn, SweepGood]
  cases nth? sweep (64 * c + i % 64) with
  | none => simp
  | some x => simp

/-- The setting of a sweep is the middle of its longest run of good positions (R224). -/
theorem eyeSweep_longest {sweep : List Nat} {limit wMin p c : Nat} (h : eyeSweep sweep limit wMin = some (p, c)) :
    c < 8 ∧ ∃ start len, wMin ≤ len ∧ p = (start + len / 2) % 64 ∧ (∀ i, i < len → SweepGood sweep limit c (start + i))
      ∧ ∀ c' start' len', c' < 8 → len' ≤ 64 → (∀ i, i < len' → SweepGood sweep limit c' (start' + i)) → len' ≤ len := by
  obtain ⟨-, hall, hr⟩ := foldl_best (fun c => (eyeRun (eyeCounts sweep c) limit).2) (upto 0 8) 0
  simp only [eyeSweep] at h
  generalize (upto 0 8).foldl (fun b c => if (eyeRun (eyeCounts sweep b) limit).2 < (eyeRun (eyeCounts sweep c) limit).2 then c else b) 0 = best at *
  split at h
  · cases h
  · rename_i hw
    obtain ⟨rfl, rfl⟩ := Prod.mk.inj (Option.some.inj h)
    refine ⟨?_, (eyeRun (eyeCounts sweep best) limit).1, (eyeRun (eyeCounts sweep best) limit).2, by omega, rfl, fun i hi => ?_, fun c' start' len' hc' hlen hg => ?_⟩
    · rcases hr with hr | hr
      · omega
      · have := upto_mem.1 hr
        omega
    · exact (eyeGood_counts ..).1 ((eyeRun_best _ _).1 i hi)
    · calc len' ≤ runFrom (eyeCounts sweep c') limit (start' % 64) 64 := runFrom_longest 64 _ len' hlen fun i hi => by
            have := (eyeGood_counts ..).2 (hg i hi)
            rwa [EyeGood, Nat.mod_add_mod]
        _ ≤ (eyeRun (eyeCounts sweep c') limit).2 := (eyeRun_best _ _).2 _ (Nat.mod_lt _ (by decide))
        _ ≤ (eyeRun (eyeCounts sweep best) limit).2 := hall c' (upto_mem.2 (by omega))

end Sys2Proof.Machine
end


section
/-! Receive bring-up of a trunk (05_trunk_lanes.md R222 to R229): what a failed step does, and each phase's work on the lanes. -/

namespace Sys2Proof.Machine

/-! ## Work on one lane after the other -/

/-- Where each step works on its own part, leaves those of the others, and keeps what all steps read, every part is worked on once. -/
theorem foldl_eachOf {α β : Type} {f : State → α → State} {proj : α → State → β} {g : α → β → β} {ms : List α} (Inv : State → Prop) (hnd : ms.Nodup)
    (hinv : ∀ u, ∀ m ∈ ms, Inv u → Inv (f u m)) (hown : ∀ u, ∀ m ∈ ms, Inv u → proj m (f u m) = g m (proj m u))
    (hother : ∀ u, ∀ m ∈ ms, ∀ k ∈ ms, k ≠ m → Inv u → proj k (f u m) = proj k u) {s : State} (hs : Inv s) :
    ∀ m ∈ ms, proj m (ms.foldl f s) = g m (proj m s) := by
  induction ms generalizing s with
  | nil => exact nofun
  | cons x xs ih =>
    obtain ⟨hx, hxs⟩ := List.nodup_cons.1 hnd
    have hfx := hinv s x List.mem_cons_self hs
    intro m hm
    have hrest := ih hxs (fun u m hm => hinv u m (List.mem_cons_of_mem _ hm)) (fun u m hm => hown u m (List.mem_cons_of_mem _ hm))
      (fun u m hm k hk => hother u m (List.mem_cons_of_mem _ hm) k (List.mem_cons_of_mem _ hk)) hfx
    rw [List.foldl_cons]
    by_cases hmx : m ∈ xs
    · rw [hrest m hmx, hother s x List.mem_cons_self m hm (fun h => hx (h ▸ hmx)) hs]
    · obtain rfl := (List.mem_cons.1 hm).resolve_right hmx
      rw [← hown s m List.mem_cons_self hs]
      refine (foldl_keeps (P := fun t => Inv t ∧ proj m t = proj m (f s m)) ⟨hfx, rfl⟩ fun u k hk ⟨hu, he⟩ => ⟨hinv u k (List.mem_cons_of_mem _ hk) hu, ?_⟩).2
      exact (hother u k (List.mem_cons_of_mem _ hk) m List.mem_cons_self (fun h => hx (h ▸ hk)) hu).trans he

/-- Where each step works on its own part and leaves those of the others, every part is worked on once. -/
theorem foldl_each {α β : Type} {f : State → α → State} {proj : α → State → β} {g : α → β → β} {ms : List α} (hnd : ms.Nodup)
    (hown : ∀ u, ∀ m ∈ ms, proj m (f u m) = g m (proj m u)) (hother : ∀ u, ∀ m ∈ ms, ∀ k ∈ ms, k ≠ m → proj k (f u m) = proj k u) (s : State) :
    ∀ m ∈ ms, proj m (ms.foldl f s) = g m (proj m s) :=
  foldl_eachOf (fun _ => True) hnd (fun _ _ _ _ => trivial) (fun u m hm _ => hown u m hm) (fun u m hm k hk hne _ => hother u m hm k hk hne) trivial

/-- The lanes of a link pair. -/
def lanesList (n : Nat) : List Nat := (upto 0 (lanesOf n)).map fun l => 8 * n + l

theorem mem_lanesList {n m : Nat} (hn : n < 72) : m ∈ lanesList n ↔ ∃ l, l < 8 ∧ m = 8 * n + l := by
  have h8 : lanesOf n = 8 := if_neg (by omega)
  rw [lanesList, h8, List.mem_map]
  constructor
  · rintro ⟨l, hl, rfl⟩
    exact ⟨l, by have := upto_mem.1 hl; omega, rfl⟩
  · rintro ⟨l, hl, rfl⟩
    exact ⟨l, upto_mem.2 (by omega), rfl⟩

theorem upto_nodup (a k : Nat) : (upto a k).Nodup := by
  induction k generalizing a with
  | zero => exact List.nodup_nil
  | succ k ih =>
    refine List.nodup_cons.2 ⟨fun h => ?_, ih _⟩
    have := (upto_mem.1 h).1
    omega

theorem lanesList_nodup (n : Nat) : (lanesList n).Nodup := (upto_nodup ..).map fun a b h => by simpa using h

theorem lanesList_link {n m : Nat} (h : m ∈ lanesList n) : m / 8 = n := by
  obtain ⟨l, hl, rfl⟩ := List.mem_map.1 h
  exact laneOf_link (upto_lanes hl)

/-! ## The registers of a trunk's lanes -/

/-- The registers of a trunk's lanes that a bring-up moves. -/
abbrev bringRegs (n : Nat) : List Nat := ((List.range 8).map fun l => 8 * n + l).flatMap fun m => [Reg.trkLaneCtrl m, Reg.trkLaneSkew m, Reg.trkLaneStatus m]

theorem bringRegs_mem {n m : Nat} (hn : n < 72) (h : m ∈ lanesList n) : Reg.trkLaneCtrl m ∈ bringRegs n ∧ Reg.trkLaneSkew m ∈ bringRegs n ∧ Reg.trkLaneStatus m ∈ bringRegs n := by
  obtain ⟨l, hl, rfl⟩ := (mem_lanesList hn).1 h
  have hm : ∀ a ∈ [Reg.trkLaneCtrl (8 * n + l), Reg.trkLaneSkew (8 * n + l), Reg.trkLaneStatus (8 * n + l)], a ∈ bringRegs n := fun a ha =>
    List.mem_flatMap.2 ⟨8 * n + l, List.mem_map.2 ⟨l, List.mem_range.2 hl, rfl⟩, ha⟩
  exact ⟨hm _ (by simp), hm _ (by simp), hm _ (by simp)⟩

theorem laneSetRegs_apart (m : Nat) : Reg.trkGrpStatus (m / 8) ≠ Reg.trkLaneCtrl m ∧ Reg.trkGrpStatus (m / 8) ≠ Reg.trkLaneSkew m
    ∧ linkStA (m / 8) ≠ Reg.trkLaneCtrl m ∧ linkStA (m / 8) ≠ Reg.trkLaneSkew m ∧ Reg.trkLinkLimits (m / 8) ≠ Reg.trkLaneCtrl m := by
  have hq : m / 8 / 18 = m / 144 := Nat.div_div_eq_div_mul ..
  simp only [linkStA, Reg.trkGrpStatus, Reg.trkLaneCtrl, Reg.trkLaneSkew, Reg.trkLinkStatus, Reg.mirLinkStatus, Reg.trkLinkLimits]
  refine ⟨?_, ?_, ?_, ?_, ?_⟩
  · omega
  · omega
  · split <;> omega
  · split <;> omega
  · omega

theorem trkLaneCtrl_ne {m k : Nat} (h : k ≠ m) : Reg.trkLaneCtrl k ≠ Reg.trkLaneCtrl m := by
  simp only [Reg.trkLaneCtrl]
  omega

theorem trkLaneSkew_ne {m k : Nat} (h : k ≠ m) : Reg.trkLaneSkew k ≠ Reg.trkLaneSkew m := by
  simp only [Reg.trkLaneSkew]
  omega

/-! ## A step fails (R229) -/

theorem LinkWorks.raiseState {n : Nat} {as : List Nat} {s t : State} (h : LinkWorks n as s t) (src inst a : Nat) (before : Word) :
    LinkWorks n as s (Machine.raiseState src inst a before t) := h.raise ..

section
variable {n : Nat} {s : State} (h0 : linkStep s n = 0)
include h0

theorem stepFail_retry (hf : (linkTrack s n).fails0 < 2) :
    stepFail n s = putLink n { linkTrack s n with fails0 := (linkTrack s n).fails0 + 1, since := s.mono } (putF (linkStA n) 0 3 1 s) := by
  rw [stepFail, if_pos h0]
  exact if_neg (by omega)

theorem stepFail_failed (hf : ¬ (linkTrack s n).fails0 < 2) :
    stepFail n s = raiseState (linkSrc n) noInst (linkStA n) (rd s (linkStA n))
      (putB (linkStA n) 3 true (putF (linkStA n) 0 3 0 (putLink n { linkTrack s n with fails0 := 0, failedAt := s.mono } s))) := by
  rw [stepFail, if_pos h0]
  exact if_pos (by omega)

/-- The first and the second failure at step 0 start the step again. -/
theorem stepRetried (hf : (linkTrack s n).fails0 < 2) : let t := stepFail n s
    linkPhase t n = 1 ∧ (linkTrack t n).fails0 = (linkTrack s n).fails0 + 1 ∧ t.evq = s.evq ∧ getB t (linkStA n) 13 = getB s (linkStA n) 13 ∧ LinkWorks n [linkStA n] s t := by
  rw [stepFail_retry h0 hf]
  refine ⟨?_, ?_, ?_, ?_, ((LinkWorks.refl ..).putF (by simp) (trkGrpStatus_apart n).1 0 3 1).putLink _⟩
  · simp [linkPhase, getF_putF_same]
  · simp
  · rw [putLink_evq, putF_evq]
  · simp [getB_putF_fld]

/-- The third failure in a row at step 0 is FAILED. -/
theorem stepFailed (hf : ¬ (linkTrack s n).fails0 < 2) : let t := stepFail n s
    linkPhase t n = 0 ∧ getB t (linkStA n) 3 = true ∧ (linkTrack t n).failedAt = s.mono ∧ getB t (linkStA n) 13 = getB s (linkStA n) 13 ∧ LinkWorks n [linkStA n] s t := by
  rw [stepFail_failed h0 hf]
  have hg := (trkGrpStatus_apart n).1
  refine ⟨?_, ?_, ?_, ?_, ((((LinkWorks.refl ..).putLink _).putF (by simp) hg 0 3 0).putB (by simp) hg 3 true).raiseState ..⟩
  · simp [linkPhase, Machine.raiseState, getF_putB_fld, getF_putF_same]
  · simp [Machine.raiseState, getB_putB_same]
  · simp [Machine.raiseState]
  · simp [Machine.raiseState, getB_putB_bit, getB_putF_fld]

end

theorem stepFail_back {n : Nat} {s : State} (h0 : 0 < linkStep s n) : stepFail n s = ladderFallback n s := if_neg (by omega)

/-- A failed step ends in a phase before SWEEP, and moves only the link pair's own registers. -/
theorem stepFail_spec (n : Nat) (s : State) : let t := stepFail n s
    linkPhase t n < 2 ∧ getB t (linkStA n) 13 = getB s (linkStA n) 13 ∧ LinkWorks n [linkStA n, linkMsgA n] s t
      ∧ (0 < linkStep s n → getB t (linkStA n) 10 = true ∧ getF t (linkMsgA n) 0 8 = 0x50 + linkStep s n) := by
  rcases Nat.eq_zero_or_pos (linkStep s n) with h0 | h0
  · by_cases hf : (linkTrack s n).fails0 < 2
    · obtain ⟨hphase, -, -, hskew, hworks⟩ := stepRetried h0 hf
      exact ⟨by omega, hskew, hworks.mono (by simp), fun h => absurd h (by omega)⟩
    · obtain ⟨hphase, -, -, hskew, hworks⟩ := stepFailed h0 hf
      exact ⟨by omega, hskew, hworks.mono (by simp), fun h => absurd h (by omega)⟩
  · have hback := ladderFellBack n s
    rw [stepFail_back h0]
    exact ⟨by rw [hback.phase]; decide, hback.skew, hback.works, fun _ => ⟨hback.short, hback.sent⟩⟩

end Sys2Proof.Machine
end


section
/-! SWEEP: every lane takes a position and a setting, and the cache keeps them (05_trunk_lanes.md R222 to R225). -/

namespace Sys2Proof.Machine

/-- Work on a link pair beside which the equalisation cache may move (R225). -/
abbrev CacheWorks (n : Nat) (as : List Nat) (s t : State) : Prop := LinkWorks n as s { t with flash := s.flash }

theorem LinkWorks.flash {n : Nat} {as : List Nat} {s t : State} (h : LinkWorks n as s t) (F : FlashState) : LinkWorks n as { s with flash := F } { t with flash := F } :=
  ⟨⟨by rw [h.moves.frame], h.moves.regs, h.moves.head, h.moves.timers, h.moves.links, h.moves.lanes⟩, h.streams⟩

theorem LinkWorks.cache {n : Nat} {as : List Nat} {s t : State} (h : LinkWorks n as s t) : CacheWorks n as s t := h.flash s.flash

theorem CacheWorks.trans {n : Nat} {as : List Nat} {s u t : State} (h1 : CacheWorks n as s u) (h2 : CacheWorks n as u t) : CacheWorks n as s t :=
  LinkWorks.trans h1 (h2.flash s.flash)

theorem CacheWorks.mono {n : Nat} {as bs : List Nat} {s t : State} (h : CacheWorks n as s t) (hs : as ⊆ bs) : CacheWorks n bs s t := LinkWorks.mono h hs

/-- The registers of a lane with a position and a setting. -/
def laneEyePut (m : Nat) (x : Nat × Nat) (s : State) : State := putF (Reg.trkLaneCtrl m) 8 3 x.2 (putF (Reg.trkLaneCtrl m) 0 6 x.1 s)

theorem laneEyeSet_eq {m : Nat} (hm : m < 576) (x : Nat × Nat) (s : State) : laneEyeSet m x s
    = { laneEyePut m x s with flash := { (laneEyePut m x s).flash with eq := tabPut (eqKey m (linkStep (laneEyePut m x s) (m / 8))) x (laneEyePut m x s).flash.eq } } := by
  simp only [laneEyeSet, if_pos hm, laneEyePut]

/-- What a sweep reads of a lane: its step, its limits, and its cached entry. -/
theorem laneEye_congr {s t : State} {m : Nat} (hs : linkStep t (m / 8) = linkStep s (m / 8)) (hl : rd t (Reg.trkLinkLimits (m / 8)) = rd s (Reg.trkLinkLimits (m / 8)))
    (he : tabFind (eqKey m (linkStep s (m / 8))) t.flash.eq = tabFind (eqKey m (linkStep s (m / 8))) s.flash.eq) (x : List Nat) : laneEye t m x = laneEye s m x := by
  simp only [laneEye, hs, he, eyeLimit, eyeMin, getF, hl]

/-- A lane takes a position and a setting. -/
structure EyeSet (m : Nat) (x : Nat × Nat) (s t : State) : Prop where
  works : CacheWorks (m / 8) [Reg.trkLaneCtrl m] s t
  trk : t.trk = s.trk
  status : rd t (linkStA (m / 8)) = rd s (linkStA (m / 8))
  limits : rd t (Reg.trkLinkLimits (m / 8)) = rd s (Reg.trkLinkLimits (m / 8))
  position : getF t (Reg.trkLaneCtrl m) 0 6 = x.1 % 64
  ctle : getF t (Reg.trkLaneCtrl m) 8 3 = x.2 % 8
  kept : tabFind (eqKey m (linkStep s (m / 8))) t.flash.eq = some x
  others : ∀ k, k ≠ eqKey m (linkStep s (m / 8)) → tabFind k t.flash.eq = tabFind k s.flash.eq

theorem eyeSet {m : Nat} (hm : m < 576) (x : Nat × Nat) (s : State) : EyeSet m x s (laneEyeSet m x s) := by
  obtain ⟨hg, -, ha, -, hl⟩ := laneSetRegs_apart m
  have hworks : LinkWorks (m / 8) [Reg.trkLaneCtrl m] s (laneEyePut m x s) := ((LinkWorks.refl ..).putF (by simp) hg 0 6 x.1).putF (by simp) hg 8 3 x.2
  have hposition : getF (laneEyePut m x s) (Reg.trkLaneCtrl m) 0 6 = x.1 % 64 := by simp [laneEyePut, getF_putF_fld, getF_putF_same]
  have hctle : getF (laneEyePut m x s) (Reg.trkLaneCtrl m) 8 3 = x.2 % 8 := by simp [laneEyePut, getF_putF_same]
  have htrk : (laneEyePut m x s).trk = s.trk := by rw [laneEyePut, putF_trk, putF_trk]
  have hflash : (laneEyePut m x s).flash = s.flash := by rw [hworks.moves.frame]
  have hstatus : rd (laneEyePut m x s) (linkStA (m / 8)) = rd s (linkStA (m / 8)) := hworks.moves.regs _ (by simpa using ha)
  have hlimits : rd (laneEyePut m x s) (Reg.trkLinkLimits (m / 8)) = rd s (Reg.trkLinkLimits (m / 8)) := hworks.moves.regs _ (by simpa using hl)
  have hstep : linkStep (laneEyePut m x s) (m / 8) = linkStep s (m / 8) := by rw [linkStep, getF, hstatus, ← getF, linkStep]
  rw [laneEyeSet_eq hm, hstep, hflash]
  generalize laneEyePut m x s = u at *
  exact ⟨hworks.cache, htrk, hstatus, hlimits, hposition, hctle, tabFind_put_same .., fun k hk => tabFind_put_ne hk ..⟩

theorem EyeSet.step {m : Nat} {x : Nat × Nat} {s t : State} (h : EyeSet m x s t) : linkStep t (m / 8) = linkStep s (m / 8) := by
  rw [linkStep, getF, h.status, ← getF, linkStep]

theorem EyeSet.eye {m k : Nat} {x : Nat × Nat} {s t : State} (h : EyeSet m x s t) (hk : k / 8 = m / 8) (hne : k ≠ m) (y : List Nat) : laneEye t k y = laneEye s k y := by
  refine laneEye_congr (hk ▸ h.step) (hk ▸ h.limits) ?_ y
  rw [hk]
  exact h.others _ (by simp only [eqKey]; omega)

/-! ## The lanes in turn -/

/-- Counts of the lanes of link pair `n`, each lane's once. -/
structure SweepOf (n : Nat) (ms : List (Nat × List Nat)) : Prop where
  lanes : ∀ p ∈ ms, p.1 / 8 = n ∧ p.1 < 576
  once : (ms.map Prod.fst).Nodup

theorem SweepOf.tail {n : Nat} {p : Nat × List Nat} {ps : List (Nat × List Nat)} (h : SweepOf n (p :: ps)) : SweepOf n ps :=
  ⟨fun q hq => h.lanes q (List.mem_cons_of_mem _ hq), (List.nodup_cons.1 h.once).2⟩

theorem SweepOf.ne {n : Nat} {p q : Nat × List Nat} {ps : List (Nat × List Nat)} (h : SweepOf n (p :: ps)) (hq : q ∈ ps) : q.1 ≠ p.1 := fun he =>
  (List.nodup_cons.1 h.once).1 (he ▸ List.mem_map.2 ⟨q, hq, rfl⟩)

/-- One lane of a sweep. -/
def sweepLane (r : State × Bool) (x : Nat × List Nat) : State × Bool :=
  match laneEye r.1 x.1 x.2 with
  | some e => (laneEyeSet x.1 e r.1, r.2)
  | none => (r.1, false)

theorem sweepLanes_eq (ms : List (Nat × List Nat)) (s : State) : sweepLanes ms s = ms.foldl sweepLane (s, true) := rfl

theorem sweepLane_some {r : State × Bool} {x : Nat × List Nat} {e : Nat × Nat} (h : laneEye r.1 x.1 x.2 = some e) : sweepLane r x = (laneEyeSet x.1 e r.1, r.2) := by
  rw [sweepLane, h]

theorem sweepLane_none {r : State × Bool} {x : Nat × List Nat} (h : laneEye r.1 x.1 x.2 = none) : sweepLane r x = (r.1, false) := by
  rw [sweepLane, h]

/-- What a sweep leaves: the lanes' settings and the cache have moved, and nothing of the ladder has. -/
structure Swept (n : Nat) (as : List Nat) (s t : State) : Prop where
  works : CacheWorks n as s t
  trk : t.trk = s.trk
  status : rd t (linkStA n) = rd s (linkStA n)

theorem Swept.refl (n : Nat) (as : List Nat) (s : State) : Swept n as s s := ⟨(LinkWorks.refl n as s).cache, rfl, rfl⟩

theorem Swept.trans {n : Nat} {as : List Nat} {s u t : State} (h1 : Swept n as s u) (h2 : Swept n as u t) : Swept n as s t :=
  ⟨h1.works.trans h2.works, h2.trk.trans h1.trk, h2.status.trans h1.status⟩

theorem EyeSet.swept {m n : Nat} {x : Nat × Nat} {as : List Nat} {s t : State} (h : EyeSet m x s t) (hn : m / 8 = n) (ha : Reg.trkLaneCtrl m ∈ as) : Swept n as s t := by
  subst hn
  exact ⟨h.works.mono (by simpa using ha), h.trk, h.status⟩

/-- A sweep of the lanes of `ms`: once a lane has no eye, the sweep has failed. -/
theorem sweep_spec {n : Nat} {as : List Nat} {ms : List (Nat × List Nat)} (hms : SweepOf n ms) (has : ∀ p ∈ ms, Reg.trkLaneCtrl p.1 ∈ as) (r : State × Bool) :
    let t := ms.foldl sweepLane r
    Swept n as r.1 t.1 ∧ (r.2 = false → t.2 = false) ∧ ((∃ p ∈ ms, laneEye r.1 p.1 p.2 = none) → t.2 = false) := by
  induction ms generalizing r with
  | nil => exact ⟨.refl .., id, fun ⟨_, hp, _⟩ => absurd hp List.not_mem_nil⟩
  | cons p ps ih =>
    obtain ⟨hp8, hp576⟩ := hms.lanes p List.mem_cons_self
    have hrest := ih hms.tail fun q hq => has q (List.mem_cons_of_mem _ hq)
    rw [List.foldl_cons]
    rcases he : laneEye r.1 p.1 p.2 with _ | e
    · rw [sweepLane_none he]
      obtain ⟨hswept, hfalse, -⟩ := hrest (r.1, false)
      exact ⟨hswept, fun _ => hfalse rfl, fun _ => hfalse rfl⟩
    · rw [sweepLane_some he]
      have hset := eyeSet hp576 e r.1
      obtain ⟨hswept, hfalse, hnone⟩ := hrest (laneEyeSet p.1 e r.1, r.2)
      refine ⟨(hset.swept hp8 (has p List.mem_cons_self)).trans hswept, hfalse, ?_⟩
      rintro ⟨q, hq, hqn⟩
      rcases List.mem_cons.1 hq with rfl | hq
      · rw [he] at hqn
        cases hqn
      · refine hnone ⟨q, hq, ?_⟩
        rw [hset.eye (by rw [hp8, (hms.lanes q (List.mem_cons_of_mem _ hq)).1]) (hms.ne hq), hqn]

/-- Position, setting and cached entry of a lane. -/
abbrev HasEye (n : Nat) (m : Nat) (e : Nat × Nat) (s t : State) : Prop :=
  getF t (Reg.trkLaneCtrl m) 0 6 = e.1 % 64 ∧ getF t (Reg.trkLaneCtrl m) 8 3 = e.2 % 8 ∧ tabFind (eqKey m (linkStep s n)) t.flash.eq = some e

/-- Where every lane has an eye, the sweep succeeds and gives it to each. -/
theorem sweep_found {n : Nat} {ms : List (Nat × List Nat)} {e : Nat → Nat × Nat} (hms : SweepOf n ms) (r : State × Bool)
    (heye : ∀ p ∈ ms, laneEye r.1 p.1 p.2 = some (e p.1)) : let t := ms.foldl sweepLane r
    t.2 = r.2 ∧ (∀ p ∈ ms, HasEye n p.1 (e p.1) r.1 t.1)
      ∧ ∀ m, m / 8 = n → (∀ p ∈ ms, m ≠ p.1) → rd t.1 (Reg.trkLaneCtrl m) = rd r.1 (Reg.trkLaneCtrl m)
        ∧ tabFind (eqKey m (linkStep r.1 n)) t.1.flash.eq = tabFind (eqKey m (linkStep r.1 n)) r.1.flash.eq := by
  induction ms generalizing r with
  | nil => exact ⟨rfl, nofun, fun _ _ _ => ⟨rfl, rfl⟩⟩
  | cons p ps ih =>
    obtain ⟨hp8, hp576⟩ := hms.lanes p List.mem_cons_self
    rw [List.foldl_cons, sweepLane_some (heye p List.mem_cons_self)]
    have hset := eyeSet hp576 (e p.1) r.1
    obtain ⟨hok, hall, hother⟩ := ih hms.tail (laneEyeSet p.1 (e p.1) r.1, r.2) fun q hq => by
      rw [hset.eye (by rw [hp8, (hms.lanes q (List.mem_cons_of_mem _ hq)).1]) (hms.ne hq), heye q (List.mem_cons_of_mem _ hq)]
    have hstep : linkStep (laneEyeSet p.1 (e p.1) r.1) n = linkStep r.1 n := hp8 ▸ hset.step
    have hctrl : ∀ k, k ≠ p.1 → rd (laneEyeSet p.1 (e p.1) r.1) (Reg.trkLaneCtrl k) = rd r.1 (Reg.trkLaneCtrl k) := fun k hk =>
      hset.works.moves.regs _ (by simpa using trkLaneCtrl_ne hk)
    have hkey : ∀ k, k ≠ p.1 → tabFind (eqKey k (linkStep r.1 n)) (laneEyeSet p.1 (e p.1) r.1).flash.eq = tabFind (eqKey k (linkStep r.1 n)) r.1.flash.eq := fun k hk =>
      hset.others _ (by rw [hp8]; simp only [eqKey]; omega)
    simp only [HasEye, hstep] at hall hother ⊢
    refine ⟨hok, fun q hq => ?_, fun m hm hne => ?_⟩
    · rcases List.mem_cons.1 hq with rfl | hq
      · obtain ⟨hrd, hfind⟩ := hother q.1 hp8 fun k hk => (hms.ne hk).symm
        rw [getF, getF, hrd, hfind]
        exact ⟨hset.position, hset.ctle, hp8 ▸ hset.kept⟩
      · exact hall q hq
    · obtain ⟨hrd, hfind⟩ := hother m hm fun k hk => hne k (List.mem_cons_of_mem _ hk)
      have hmp := hne p List.mem_cons_self
      exact ⟨hrd.trans (hctrl m hmp), hfind.trans (hkey m hmp)⟩

end Sys2Proof.Machine
end


section
/-! DESKEW (05_trunk_lanes.md R227): the latest arrival, WSLIP of every lane, and the frames that then leave together. -/

namespace Sys2Proof.Machine

/-! ## The latest arrival -/

theorem le_foldl_max {x : Nat} (l : List Nat) (b : Nat) (h : x ≤ b ∨ x ∈ l) : x ≤ l.foldl max b := by
  induction l generalizing b with
  | nil => exact h.resolve_right List.not_mem_nil
  | cons y ys ih =>
    refine ih (max b y) ?_
    rcases h with h | h
    · exact .inl (by omega)
    · rcases List.mem_cons.1 h with rfl | h
      · exact .inl (by omega)
      · exact .inr h

/-- WSLIP of an arrival is at most the arc. -/
theorem slip_le_arc {as : List Nat} (x : Nat) {y : Nat} (h : y ∈ as) : (x + 1024 - y % 1024) % 1024 ≤ arcTo as x :=
  le_foldl_max _ 0 (.inr (List.mem_map.2 ⟨y, h, rfl⟩))

/-- The arrival whose arc is the only shortest is the latest. -/
theorem latestArrival_eq {as : List Nat} {late : Nat} (hmem : late ∈ as) (hmin : ∀ x ∈ as, arcTo as late < arcTo as x ∨ x = late) : latestArrival as = late := by
  have key : ∀ (l : List Nat) (b : Nat), (∀ x ∈ l, x ∈ as) → b ∈ as → (b = late ∨ late ∈ l) →
      l.foldl (fun best x => if arcTo as x < arcTo as best then x else best) b = late := by
    intro l
    induction l with
    | nil => exact fun b _ _ h => h.resolve_right List.not_mem_nil
    | cons y ys ih =>
      intro b hl hb h
      have hy := hl y List.mem_cons_self
      refine ih _ (fun x hx => hl x (List.mem_cons_of_mem _ hx)) ?_ ?_
      · beta_reduce
        split
        · exact hy
        · exact hb
      beta_reduce
      rcases h with rfl | h
      · left
        rw [if_neg]
        rcases hmin y hy with hlt | rfl <;> omega
      · rcases List.mem_cons.1 h with rfl | h
        · left
          rcases hmin b hb with hlt | rfl
          · exact if_pos hlt
          · exact ite_self _
        · exact .inr h
  cases as with
  | nil => cases hmem
  | cons y ys => exact key _ y (fun _ h => h) List.mem_cons_self (.inr hmem)

/-! ## WSLIP of every lane -/

theorem laneArrival_lt (t : LaneTrack) : laneArrival t < 1024 := Nat.mod_lt _ (by decide)

/-- WSLIP of a lane whose latest companion arrives at `late`. -/
abbrev slipOf (late : Nat) (t : LaneTrack) : Nat := (late + 1024 - laneArrival t) % 1024

/-- The lanes of a link pair with their slips. -/
def slipsSet (n late : Nat) (s : State) : State := (lanesList n).foldl (laneSlipSet late) s

theorem laneSlipSet_eq {m : Nat} (hm : m < 576) (late : Nat) (s : State) : laneSlipSet late s m
    = putLane m { laneTrack s m with wslip := slipOf late (laneTrack s m) }
      (putF (Reg.trkLaneSkew m) 16 6 (slipOf late (laneTrack s m)) (putF (Reg.trkLaneSkew m) 0 10 (laneArrival (laneTrack s m)) s)) := by
  simp only [laneSlipSet, if_pos hm]

section
variable {n : Nat} (hn : n < 72)
include hn

theorem lanesList_lt {m : Nat} (h : m ∈ lanesList n) : m < 576 := by
  obtain ⟨l, hl, rfl⟩ := (mem_lanesList hn).1 h
  omega

theorem slipsSet_lane (late : Nat) (s : State) {m : Nat} (h : m ∈ lanesList n) : let t := slipsSet n late s
    laneTrack t m = { laneTrack s m with wslip := slipOf late (laneTrack s m) } ∧ getF t (Reg.trkLaneSkew m) 0 10 = laneArrival (laneTrack s m) % 2 ^ 10
      ∧ getF t (Reg.trkLaneSkew m) 16 6 = slipOf late (laneTrack s m) % 2 ^ 6 := by
  have hproj := foldl_each (f := laneSlipSet late) (proj := fun m t => (laneTrack t m, getF t (Reg.trkLaneSkew m) 0 10, getF t (Reg.trkLaneSkew m) 16 6))
    (g := fun _ x => ({ x.1 with wslip := slipOf late x.1 }, laneArrival x.1 % 2 ^ 10, slipOf late x.1 % 2 ^ 6)) (lanesList_nodup n) (fun u m hm => ?_)
    (fun u m hm k _ hk => ?_) s m h
  · simp only [Prod.mk.injEq] at hproj
    exact hproj
  · rw [laneSlipSet_eq (lanesList_lt hn hm)]
    simp [getF_putF_fld, getF_putF_same]
  · rw [laneSlipSet_eq (lanesList_lt hn hm), laneTrack_putLane_ne hk, laneTrack_putF, laneTrack_putF, getF_putLane, getF_putLane,
      getF_putF_ne (trkLaneSkew_ne hk), getF_putF_ne (trkLaneSkew_ne hk), getF_putF_ne (trkLaneSkew_ne hk), getF_putF_ne (trkLaneSkew_ne hk)]

theorem slipsSet_works (late : Nat) (s : State) : let t := slipsSet n late s
    LinkWorks n (bringRegs n) s t ∧ rd t (linkStA n) = rd s (linkStA n) := by
  refine foldl_keeps (P := fun t => LinkWorks n (bringRegs n) s t ∧ rd t (linkStA n) = rd s (linkStA n)) ⟨.refl .., rfl⟩ ?_
  rintro u m hm ⟨hworks, hsta⟩
  obtain ⟨-, hg, -, ha, -⟩ := laneSetRegs_apart m
  have hin := (bringRegs_mem hn hm).2.1
  rw [laneSlipSet_eq (lanesList_lt hn hm)]
  rw [lanesList_link hm] at hg ha
  exact ⟨((hworks.putF hin hg 0 10 _).putF hin hg 16 6 _).putLane (lanesList_link hm) _, by rw [rd_putLane, rd_putF_ne ha, rd_putF_ne ha, hsta]⟩

end

/-! ## The lanes start to qualify -/

/-- The lanes of a link pair with `f` of their tracks. -/
def lanesMapped (n : Nat) (f : LaneTrack → LaneTrack) (s : State) : State := (lanesList n).foldl (fun s m => putLane m (f (laneTrack s m)) s) s

theorem lanesMapped_lane (n : Nat) (f : LaneTrack → LaneTrack) (s : State) {m : Nat} (h : m ∈ lanesList n) : laneTrack (lanesMapped n f s) m = f (laneTrack s m) :=
  foldl_each (f := fun s m => putLane m (f (laneTrack s m)) s) (proj := fun m t => laneTrack t m) (g := fun _ => f) (lanesList_nodup n) (fun _ _ _ => laneTrack_putLane_same ..)
    (fun _ _ _ _ _ hk => laneTrack_putLane_ne hk ..) s m h

theorem lanesMapped_works (n : Nat) (f : LaneTrack → LaneTrack) (s : State) : let t := lanesMapped n f s
    LinkWorks n [] s t ∧ t.regs = s.regs ∧ t.flash = s.flash :=
  foldl_keeps (P := fun t => LinkWorks n [] s t ∧ t.regs = s.regs ∧ t.flash = s.flash) ⟨.refl .., rfl, rfl⟩
    fun _ _ hm h => ⟨h.1.putLane (lanesList_link hm) _, h.2.1, h.2.2⟩

/-! ## DESKEW -/

/-- Arrivals of a link pair's lanes. -/
abbrev arrivals (n : Nat) (s : State) : List Nat := (lanesList n).map fun m => laneArrival (laneTrack s m)

/-- The frames of a link pair's lanes leave together. -/
abbrev LeaveTogether (n : Nat) (s : State) : Prop := ∀ m ∈ lanesList n, laneLeaves (laneTrack s m) = laneLeaves (laneTrack s (8 * n))

/-- The lanes of a link pair are aligned. -/
def lanesAligned (n : Nat) (s : State) : State :=
  putF (linkStA n) 0 3 5 (putF (linkStA n) 16 8 (2 ^ lanesOf n - 1) (putB (linkStA n) 9 true (lanesMapped n (fun t => { t with passed := 0, restarts := 0 }) s)))

theorem lanesList_head (n : Nat) : (lanesList n).head? = some (8 * n) := by
  unfold lanesList lanesOf
  split <;> rfl

/-- All lanes' values are that of the first lane. -/
theorem lanesList_all {n : Nat} (f : Nat → Int) : (((lanesList n).map f).all fun x => decide (x = ((lanesList n).map f).headD 0)) = true
    ↔ ∀ m ∈ lanesList n, f m = f (8 * n) := by
  have hhead : ((lanesList n).map f).headD 0 = f (8 * n) := by rw [List.headD_eq_head?_getD, List.head?_map, lanesList_head]; rfl
  rw [hhead]
  simp

section
variable {n late : Nat} {s : State} (hlate : latestArrival (arrivals n s) = late)
include hlate

theorem deskew_wide (h : 63 < arcTo (arrivals n s) late) : deskew n (lanesList n) s = stepFail n (putB (linkStA n) 13 true s) := by
  simp only [deskew, hlate, if_pos h]

theorem deskew_narrow (h : ¬ 63 < arcTo (arrivals n s) late) : deskew n (lanesList n) s
    = if LeaveTogether n (slipsSet n late s) then lanesAligned n (slipsSet n late s) else stepFail n (putB (linkStA n) 13 true (slipsSet n late s)) := by
  have hall := lanesList_all (n := n) fun m => laneLeaves (laneTrack (slipsSet n late s) m)
  simp only [deskew, hlate, if_neg h]
  by_cases hl : LeaveTogether n (slipsSet n late s)
  · rw [if_pos hl]
    exact if_pos (hall.2 hl)
  · rw [if_neg hl]
    exact if_neg (hall.not.2 hl)

end

/-- The lanes are aligned and qualify from now on. -/
theorem lanesAligned_spec {n : Nat} (hn : n < 72) (s : State) : let t := lanesAligned n s
    linkPhase t n = 5 ∧ getF t (linkStA n) 16 8 = 255 ∧ getB t (linkStA n) 9 = true ∧ (∀ m ∈ lanesList n, laneTrack t m = { laneTrack s m with passed := 0, restarts := 0 })
      ∧ (∀ a, a ≠ linkStA n → rd t a = rd s a) ∧ LinkWorks n [linkStA n] s t := by
  obtain ⟨hworks, hregs, -⟩ := lanesMapped_works n (fun t => { t with passed := 0, restarts := 0 }) s
  have hlane := fun m hm => lanesMapped_lane n (fun t => { t with passed := 0, restarts := 0 }) s (m := m) hm
  have h8 : lanesOf n = 8 := if_neg (by omega)
  have hg := (trkGrpStatus_apart n).1
  simp only [lanesAligned, h8]
  generalize lanesMapped n (fun t => { t with passed := 0, restarts := 0 }) s = u at *
  refine ⟨?_, ?_, ?_, fun m hm => ?_, fun a ha => ?_, (((hworks.mono (List.nil_subset _)).putB (by simp) hg 9 true).putF (by simp) hg 16 8 _).putF (by simp) hg 0 3 5⟩
  · simp [linkPhase, getF_putF_same]
  · simp [getF_putF_fld, getF_putF_same]
  · simp [getB_putF_fld, getB_putB_same]
  · rw [laneTrack_putF, laneTrack_putF, laneTrack_putB, hlane m hm]
  · rw [rd_putF_ne ha, rd_putF_ne ha, rd_putB_ne ha, rd_congr hregs]

end Sys2Proof.Machine
end


section
/-! The phases of a receive bring-up, and the statement about them (O22; 05_trunk_lanes.md R222 to R232). -/

namespace Sys2Proof.Machine

theorem arrivals_eq {n : Nat} (hn : n < 72) (s : State) : arrivals n s = (List.range 8).map fun l => laneArrival (laneTrack s (8 * n + l)) := by
  have h8 : lanesOf n = 8 := if_neg (by omega)
  rw [arrivals, lanesList, h8, List.map_map]
  rfl

theorem linkStep_congr {n : Nat} {s t : State} (h : rd t (linkStA n) = rd s (linkStA n)) : linkStep t n = linkStep s n := by
  rw [linkStep, getF, h, ← getF, linkStep]

/-! ## DESKEW as a whole -/

section
variable {n late : Nat} {s : State} (hn : n < 72) (hmem : late ∈ arrivals n s) (hmin : ∀ x ∈ arrivals n s, arcTo (arrivals n s) late < arcTo (arrivals n s) x ∨ x = late)
include hn hmem hmin

theorem deskew_ok (hw : arcTo (arrivals n s) late ≤ 63) (hl : LeaveTogether n (slipsSet n late s)) : let t := deskew n (lanesList n) s
    linkPhase t n = 5 ∧ getF t (linkStA n) 16 8 = 255 ∧ getB t (linkStA n) 9 = true
      ∧ (∀ m ∈ lanesList n, getF t (Reg.trkLaneSkew m) 0 10 = laneArrival (laneTrack s m) ∧ getF t (Reg.trkLaneSkew m) 16 6 = slipOf late (laneTrack s m)
        ∧ (laneTrack t m).wslip = slipOf late (laneTrack s m) ∧ (laneTrack t m).passed = 0)
      ∧ LinkWorks n (linkStA n :: bringRegs n) s t := by
  have hslips : ∀ m ∈ lanesList n, _ := fun m hm => slipsSet_lane hn late s hm
  obtain ⟨hworks, -⟩ := slipsSet_works hn late s
  rw [deskew_narrow (latestArrival_eq hmem hmin) (by omega), if_pos hl]
  generalize slipsSet n late s = u at *
  obtain ⟨hphase, haligned, hall, hlanes, hregs, hfinal⟩ := lanesAligned_spec hn u
  refine ⟨hphase, haligned, hall, fun m hm => ?_, (hworks.mono (List.subset_cons_self ..)).trans (hfinal.mono (by simp))⟩
  obtain ⟨htrack, harrival, hslip⟩ := hslips m hm
  have hne : Reg.trkLaneSkew m ≠ linkStA n := by
    have := (laneSetRegs_apart m).2.2.2.1
    rw [lanesList_link hm] at this
    exact this.symm
  have hsmall : slipOf late (laneTrack s m) ≤ 63 := by
    have := slip_le_arc late (List.mem_map.2 ⟨m, hm, rfl⟩ : laneArrival (laneTrack s m) ∈ arrivals n s)
    rw [Nat.mod_eq_of_lt (laneArrival_lt _)] at this
    exact Nat.le_trans this hw
  refine ⟨?_, ?_, ?_, ?_⟩
  · rw [getF, hregs _ hne, ← getF, harrival]
    exact Nat.mod_eq_of_lt (laneArrival_lt _)
  · rw [getF, hregs _ hne, ← getF, hslip]
    exact Nat.mod_eq_of_lt (by omega)
  · rw [hlanes m hm, htrack]
  · rw [hlanes m hm]

theorem deskew_fails (h : ¬ (arcTo (arrivals n s) late ≤ 63 ∧ LeaveTogether n (slipsSet n late s))) : let t := deskew n (lanesList n) s
    getB t (linkStA n) 13 = true ∧ linkPhase t n ≠ 5 ∧ LinkWorks n (linkStA n :: linkMsgA n :: bringRegs n) s t := by
  have key : ∀ u, LinkWorks n (bringRegs n) s u → let t := stepFail n (putB (linkStA n) 13 true u)
      getB t (linkStA n) 13 = true ∧ linkPhase t n ≠ 5 ∧ LinkWorks n (linkStA n :: linkMsgA n :: bringRegs n) s t := by
    intro u hu
    obtain ⟨hphase, hskew, hworks, -⟩ := stepFail_spec n (putB (linkStA n) 13 true u)
    refine ⟨hskew.trans (getB_putB_same _ _ _ (by decide)), by omega, ?_⟩
    exact ((hu.mono (by simp)).putB (by simp) (trkGrpStatus_apart n).1 13 true).trans (hworks.mono (by simp))
  by_cases hw : arcTo (arrivals n s) late ≤ 63
  · rw [deskew_narrow (latestArrival_eq hmem hmin) (by omega), if_neg fun hl => h ⟨hw, hl⟩]
    exact key _ (slipsSet_works hn late s).1
  · rw [deskew_wide (latestArrival_eq hmem hmin) (by omega)]
    exact key s (.refl ..)

end

/-! ## READY (R222, R229) -/

theorem bringupReady_sent {n : Nat} {s : State} (h : getF s (linkMsgA n) 8 8 ≠ 0x20 + linkStep s n) : let t := bringupReady n s
    linkPhase t n = 6 ∧ getF t (linkMsgA n) 0 8 = 0x20 + linkStep s n ∧ (linkTrack t n).fails0 = 0 ∧ LinkWorks n [linkStA n, linkMsgA n] s t := by
  obtain ⟨hma, ham, -⟩ := ladderRegs_apart n
  obtain ⟨hga, hgm, -⟩ := trkGrpStatus_apart n
  have hk := linkStep_lt s n
  obtain ⟨u, hu⟩ : ∃ u, putLink n { linkTrack s n with fails0 := 0 } (putF (linkStA n) 0 3 6 s) = u := ⟨_, rfl⟩
  have hworks : LinkWorks n [linkStA n, linkMsgA n] s u := by
    rw [← hu]
    exact ((LinkWorks.refl ..).putF (by simp) hga 0 3 6).putLink _
  have hphase : linkPhase u n = 6 := by simp [← hu, linkPhase, getF_putF_same]
  have hmsg : getF u (linkMsgA n) 8 8 = getF s (linkMsgA n) 8 8 := by simp [← hu, getF_putF_ne hma]
  have hfails : (linkTrack u n).fails0 = 0 := by simp [← hu]
  have he : bringupReady n s = sendByte n (0x20 + linkStep s n) u := by
    simp only [bringupReady, hu]
    refine if_neg ?_
    simpa [sendByte, getF_putF_fld, hmsg] using h
  rw [he]
  refine ⟨?_, ?_, ?_, (hworks.putF (by simp) hgm 0 8 _).putLink _⟩
  · simpa [sendByte, linkPhase, getF_putF_ne ham] using hphase
  · simp [sendByte, getF_putF_same]
    omega
  · simpa [sendByte] using hfails

/-! ## The phases -/

section
variable {n : Nat} {edges : List (List Nat)} {s : State}

theorem bringupPhase_idle (h : ladderRuns s n = false ∨ linkPhase s n = 0 ∨ linkPhase s n = 6) : bringupPhase n edges s = s := by
  simp only [bringupPhase]
  split
  · rfl
  · rename_i hr
    rcases h with h | h | h
    · exact absurd h hr
    · simp only [h]
    · simp only [h]

variable (hr : ladderRuns s n = true)
include hr

theorem bringup_ckWait (hp : linkPhase s n = 1) : bringupPhase n edges s = if getB s (linkStA n) 8 = true then putF (linkStA n) 0 3 2 s else s := by
  simp only [bringupPhase, hr, hp, Bool.true_eq_false, if_false]

theorem bringup_sweep (hp : linkPhase s n = 2) : bringupPhase n edges s
    = if (sweepLanes ((lanesList n).zip edges) s).2 = true then
        putF (linkStA n) 0 3 3 (lanesMapped n (fun t => { t with slips := 0, slipWait := 0, okRun := 0 }) (sweepLanes ((lanesList n).zip edges) s).1)
      else stepFail n (sweepLanes ((lanesList n).zip edges) s).1 := by
  simp only [bringupPhase, hr, hp, Bool.true_eq_false, if_false]
  rfl

theorem bringup_slip (hp : linkPhase s n = 3) : bringupPhase n edges s
    = if ((lanesList n).all fun m => decide (4 ≤ (laneTrack s m).okRun)) = true then putF (linkStA n) 0 3 4 s
      else if ((lanesList n).any fun m => decide ((laneTrack s m).okRun < 4) && decide (65 ≤ (laneTrack s m).slips) && decide (4 ≤ (laneTrack s m).slipWait)) = true then
        stepFail n s
      else s := by
  simp only [bringupPhase, hr, hp, Bool.true_eq_false, if_false]
  rfl

theorem bringup_deskew (hp : linkPhase s n = 4) : bringupPhase n edges s
    = if ((lanesList n).all fun m => (laneTrack s m).pend.elim false RxHdr.valid) = true then deskew n (lanesList n) s else s := by
  simp only [bringupPhase, hr, hp, Bool.true_eq_false, if_false]
  rfl

theorem bringup_qualify (hp : linkPhase s n = 5) : bringupPhase n edges s
    = if ((lanesList n).all fun m => decide (4096 ≤ (laneTrack s m).passed)) = true then bringupReady n s
      else if ((lanesList n).any fun m => decide (3 ≤ (laneTrack s m).restarts)) = true then stepFail n s
      else s := by
  simp only [bringupPhase, hr, hp, Bool.true_eq_false, if_false]
  rfl

/-- In RUN a sweep is repeated only on a lane that searches and has slipped 65 times (R236). -/
theorem bringup_run (hp : linkPhase s n = 7) (h : ∀ m ∈ lanesList n, (laneTrack s m).searching = false ∨ (laneTrack s m).slips < 65) : bringupPhase n edges s = s := by
  simp only [bringupPhase, hr, hp, Bool.true_eq_false, if_false]
  refine foldl_keeps (P := fun t => t = s) rfl fun u x hx hu => ?_
  have hm := h x.1 (List.of_mem_zip hx).1
  rw [hu, if_neg]
  rintro ⟨hs, -, h65, -⟩
  rcases hm with hm | hm
  · rw [hm] at hs
    cases hs
  · omega

end

theorem lanesList_forall {n : Nat} (hn : n < 72) {p : Nat → Prop} : (∀ m ∈ lanesList n, p m) ↔ ∀ l, l < 8 → p (8 * n + l) :=
  ⟨fun h l hl => h _ ((mem_lanesList hn).2 ⟨l, hl, rfl⟩), fun h m hm => by
    obtain ⟨l, hl, rfl⟩ := (mem_lanesList hn).1 hm
    exact h l hl⟩

theorem lanesList_exists {n : Nat} (hn : n < 72) {p : Nat → Prop} : (∃ m ∈ lanesList n, p m) ↔ ∃ l, l < 8 ∧ p (8 * n + l) :=
  ⟨fun ⟨m, hm, h⟩ => by
    obtain ⟨l, hl, rfl⟩ := (mem_lanesList hn).1 hm
    exact ⟨l, hl, h⟩, fun ⟨l, hl, h⟩ => ⟨_, (mem_lanesList hn).2 ⟨l, hl, rfl⟩, h⟩⟩

/-! ## Steps that fail, and phases that go on (R226, R229) -/

/-- A lane that has slipped 65 times fails SLIP, and one that has restarted three times fails QUALIFY. -/
abbrev BringupFails (n : Nat) (s : State) : Prop :=
  (linkPhase s n = 3 ∧ ∃ l, l < 8 ∧ (laneTrack s (8 * n + l)).okRun < 4 ∧ 65 ≤ (laneTrack s (8 * n + l)).slips ∧ 4 ≤ (laneTrack s (8 * n + l)).slipWait)
    ∨ (linkPhase s n = 5 ∧ (∃ l, l < 8 ∧ (laneTrack s (8 * n + l)).passed < 4096) ∧ ∃ l, l < 8 ∧ 3 ≤ (laneTrack s (8 * n + l)).restarts)

section
variable {n : Nat} {edges : List (List Nat)} {s : State} (hn : n < 72)
include hn

theorem lanesList_notAll {f : LaneTrack → Nat} {k l : Nat} (hl : l < 8) (h : f (laneTrack s (8 * n + l)) < k) :
    ¬ ((lanesList n).all fun m => decide (k ≤ f (laneTrack s m))) = true := by
  simp only [List.all_eq_true, decide_eq_true_eq]
  rw [lanesList_forall hn]
  exact fun hall => absurd (hall l hl) (Nat.not_le.2 h)

theorem lanesList_any {p : Nat → Bool} : (lanesList n).any p = true ↔ ∃ l, l < 8 ∧ p (8 * n + l) = true := by
  rw [List.any_eq_true, lanesList_exists hn]

theorem bringup_fails (hr : ladderRuns s n = true) (h : BringupFails n s) : bringupPhase n edges s = stepFail n s := by
  rcases h with ⟨hp, l, hl, hok, hslips, hwait⟩ | ⟨hp, ⟨l, hl, hpassed⟩, k, hk, hrestarts⟩
  · rw [bringup_slip hr hp, if_neg (lanesList_notAll hn hl hok), if_pos]
    refine (lanesList_any hn).2 ⟨l, hl, ?_⟩
    simp only [Bool.and_eq_true, decide_eq_true_eq]
    exact ⟨⟨hok, hslips⟩, hwait⟩
  · rw [bringup_qualify hr hp, if_neg (lanesList_notAll hn hl hpassed), if_pos]
    exact (lanesList_any hn).2 ⟨k, hk, decide_eq_true hrestarts⟩

theorem bringup_waits (hr : ladderRuns s n = true) (hnf : ¬ BringupFails n s)
    (h : (linkPhase s n = 3 ∧ ∃ l, l < 8 ∧ (laneTrack s (8 * n + l)).okRun < 4)
      ∨ (linkPhase s n = 4 ∧ ∃ l, l < 8 ∧ ∀ x, (laneTrack s (8 * n + l)).pend = some x → x.valid = false)
      ∨ (linkPhase s n = 5 ∧ ∃ l, l < 8 ∧ (laneTrack s (8 * n + l)).passed < 4096)
      ∨ (linkPhase s n = 7 ∧ ∀ l, l < 8 → (laneTrack s (8 * n + l)).searching = false ∨ (laneTrack s (8 * n + l)).slips < 65)) : bringupPhase n edges s = s := by
  rcases h with ⟨hp, l, hl, hok⟩ | ⟨hp, l, hl, hpend⟩ | ⟨hp, l, hl, hpassed⟩ | ⟨hp, hrun⟩
  · rw [bringup_slip hr hp, if_neg (lanesList_notAll hn hl hok), if_neg]
    rw [lanesList_any hn]
    rintro ⟨k, hk, h⟩
    simp only [Bool.and_eq_true, decide_eq_true_eq] at h
    exact hnf (.inl ⟨hp, k, hk, h.1.1, h.1.2, h.2⟩)
  · rw [bringup_deskew hr hp, if_neg]
    rw [List.all_eq_true, lanesList_forall hn]
    intro h
    have hvalid := h l hl
    rcases hx : (laneTrack s (8 * n + l)).pend with _ | x
    · rw [hx] at hvalid
      cases hvalid
    · rw [hx, Option.elim_some, hpend x hx] at hvalid
      cases hvalid
  · rw [bringup_qualify hr hp, if_neg (lanesList_notAll hn hl hpassed), if_neg]
    rw [lanesList_any hn]
    rintro ⟨k, hk, h⟩
    exact hnf (.inr ⟨hp, ⟨l, hl, hpassed⟩, k, hk, of_decide_eq_true h⟩)
  · exact bringup_run hr hp ((lanesList_forall hn).2 hrun)

end

/-! ## SWEEP as a whole -/

section
variable {n : Nat} (hn : n < 72) {edges : List (List Nat)} (hlen : edges.length = 8) (s : State)
include hn hlen

theorem lanesList_length : (lanesList n).length = edges.length := by
  have h8 : lanesOf n = 8 := if_neg (by omega)
  rw [lanesList, List.length_map, upto_length, h8, hlen]

theorem sweepOf_lanes : SweepOf n ((lanesList n).zip edges) := by
  refine ⟨fun p hp => ⟨lanesList_link (List.of_mem_zip hp).1, lanesList_lt hn (List.of_mem_zip hp).1⟩, ?_⟩
  rw [List.map_fst_zip (Nat.le_of_eq (lanesList_length hn hlen))]
  exact lanesList_nodup n

/-- The counts of a sweep, lane by lane. -/
theorem mem_zip_lanes {p : Nat × List Nat} : p ∈ (lanesList n).zip edges ↔ ∃ l, p.1 = 8 * n + l ∧ nth? edges l = some p.2 := by
  have h8 : lanesOf n = 8 := if_neg (by omega)
  have hget : ∀ i, i < 8 → (lanesList n)[i]? = some (8 * n + i) := by
    intro i hi
    rw [lanesList, h8, List.getElem?_map]
    interval_cases i <;> rfl
  rw [List.mem_iff_getElem?]
  constructor
  · rintro ⟨i, hi⟩
    obtain ⟨h1, h2⟩ := List.getElem?_zip_eq_some.1 hi
    have hi8 : i < 8 := by
      have := (List.getElem?_eq_some_iff.1 h2).1
      omega
    rw [hget i hi8] at h1
    exact ⟨i, (Option.some.inj h1).symm, by rw [nth?_eq, h2]⟩
  · rintro ⟨l, hl, hx⟩
    rw [nth?_eq] at hx
    have hl8 : l < 8 := by
      have := (List.getElem?_eq_some_iff.1 hx).1
      omega
    exact ⟨l, List.getElem?_zip_eq_some.2 ⟨by rw [hget l hl8, hl], hx⟩⟩

end

/-- Every lane of a trunk has an eye: the sweep ends in SLIP, and the cache keeps what each lane has taken. -/
theorem bringup_swept {n : Nat} (hn : n < 72) {edges : List (List Nat)} (hlen : edges.length = 8) {s : State} (hr : ladderRuns s n = true) (hp : linkPhase s n = 2)
    {e : Nat → Nat × Nat} (he : ∀ l x, nth? edges l = some x → laneEye s (8 * n + l) x = some (e l)) : let t := bringupPhase n edges s
    linkPhase t n = 3 ∧ (∀ l, l < 8 → HasEye n (8 * n + l) (e l) s t ∧ (laneTrack t (8 * n + l)).slips = 0) ∧ CacheWorks n (linkStA n :: bringRegs n) s t := by
  have hsweep := sweepOf_lanes hn hlen
  have hzip := fun p => mem_zip_lanes hn hlen (p := p)
  have hctrl : ∀ p ∈ (lanesList n).zip edges, Reg.trkLaneCtrl p.1 ∈ linkStA n :: bringRegs n := fun p hp =>
    List.mem_cons_of_mem _ (bringRegs_mem hn (List.of_mem_zip hp).1).1
  obtain ⟨hswept, -, -⟩ := sweep_spec hsweep hctrl (s, true)
  obtain ⟨hok, heyes, -⟩ := sweep_found (e := fun m => e (m - 8 * n)) hsweep (s, true) fun p hpz => by
    obtain ⟨l, hl, hx⟩ := (hzip p).1 hpz
    rw [hl, he l p.2 hx, Nat.add_sub_cancel_left]
  rw [← sweepLanes_eq] at hswept hok heyes
  rw [bringup_sweep hr hp, if_pos (by rw [hok])]
  generalize (sweepLanes ((lanesList n).zip edges) s).1 = u at *
  obtain ⟨hmapped, hregs, hflash⟩ := lanesMapped_works n (fun t => { t with slips := 0, slipWait := 0, okRun := 0 }) u
  have hlane := fun m hm => lanesMapped_lane n (fun t => { t with slips := 0, slipWait := 0, okRun := 0 }) u (m := m) hm
  generalize lanesMapped n (fun t => { t with slips := 0, slipWait := 0, okRun := 0 }) u = v at *
  have hput := ((LinkWorks.refl n (linkStA n :: bringRegs n) v).putF (by simp) (trkGrpStatus_apart n).1 0 3 3)
  refine ⟨?_, fun l hl => ⟨?_, ?_⟩, (hswept.works.trans (hmapped.mono (List.nil_subset _)).cache).trans hput.cache⟩
  · simp [linkPhase, getF_putF_same]
  · have hx : l < edges.length := by omega
    have hm : (8 * n + l, edges[l]) ∈ (lanesList n).zip edges := (hzip _).2 ⟨l, rfl, by rw [nth?_eq, List.getElem?_eq_getElem hx]⟩
    have hne : Reg.trkLaneCtrl (8 * n + l) ≠ linkStA n := by
      have := (laneSetRegs_apart (8 * n + l)).2.2.1
      rw [laneOf_link hl] at this
      exact this.symm
    obtain ⟨hposition, hctle, hcached⟩ := heyes _ hm
    have hflash' : (putF (linkStA n) 0 3 3 v).flash = u.flash := by rw [hput.moves.frame, hflash]
    rw [Nat.add_sub_cancel_left] at hposition hctle hcached
    refine ⟨?_, ?_, ?_⟩
    · rw [getF_putF_ne hne, getF_congr hregs, hposition]
    · rw [getF_putF_ne hne, getF_congr hregs, hctle]
    · rw [hflash', hcached]
  · rw [laneTrack_putF, hlane _ ((mem_lanesList hn).2 ⟨l, hl, rfl⟩)]

/-- A lane of a trunk has no eye: the step fails. -/
theorem bringup_unswept {n : Nat} (hn : n < 72) {edges : List (List Nat)} (hlen : edges.length = 8) {s : State} (hr : ladderRuns s n = true) (hp : linkPhase s n = 2)
    (he : ∃ l x, nth? edges l = some x ∧ laneEye s (8 * n + l) x = none) : let t := bringupPhase n edges s
    linkPhase t n ≠ 3 ∧ (0 < linkStep s n → getB t (linkStA n) 10 = true ∧ getF t (linkMsgA n) 0 8 = 0x50 + linkStep s n)
      ∧ CacheWorks n (linkStA n :: linkMsgA n :: bringRegs n) s t := by
  have hctrl : ∀ p ∈ (lanesList n).zip edges, Reg.trkLaneCtrl p.1 ∈ linkStA n :: linkMsgA n :: bringRegs n := fun p hp =>
    List.mem_cons_of_mem _ (List.mem_cons_of_mem _ (bringRegs_mem hn (List.of_mem_zip hp).1).1)
  obtain ⟨hswept, -, hnone⟩ := sweep_spec (sweepOf_lanes hn hlen) hctrl (s, true)
  obtain ⟨l, x, hx, hnx⟩ := he
  have hfail := hnone ⟨(8 * n + l, x), (mem_zip_lanes hn hlen).2 ⟨l, rfl, hx⟩, hnx⟩
  rw [← sweepLanes_eq] at hswept hfail
  rw [bringup_sweep hr hp, if_neg (by rw [hfail]; decide)]
  generalize (sweepLanes ((lanesList n).zip edges) s).1 = u at *
  obtain ⟨hphase, -, hworks, hback⟩ := stepFail_spec n u
  rw [linkStep_congr hswept.status] at hback
  exact ⟨by omega, hback, hswept.works.trans (hworks.mono (by simp)).cache⟩

/-! ## The statement -/

/-- Settles O22: phase by phase; a step fails as in `stepFail`, whose three outcomes were stated above. -/
theorem bringUpGoesFromPhaseToPhase : Obligations.BringUpGoesFromPhaseToPhase := by
  unfold Obligations.BringUpGoesFromPhaseToPhase
  intro arc lanes laneRegs noCache
  refine ⟨fun sweep limit wMin p c h => eyeSweep_longest h, fun dt s hpw n hn edges => ?_⟩
  have hb : decide (n < 73) = true := decide_eq_true (by omega)
  refine ⟨?_, fun h => completes_only rfl hb hpw (bringupPhase_idle (s := tick dt s) h)⟩
  intro hr a q fails
  have hrt : ladderRuns (tick dt s) n = true := hr
  have hfailed : fails → bringupPhase n edges (tick dt s) = stepFail n (tick dt s) := bringup_fails hn hrt
  refine ⟨fun hp hck => ?_, fun hp hck => ?_, fun hp hlen f hf => ?_, fun hp hlen hf => ?_, fun hp hall => ?_, ?_,
    fun hp hall hmsg => ?_, fun hfl => ⟨fun h0 hf => ?_, fun h0 hf => ?_, fun h0 => ?_⟩, fun hnf hcase => ?_⟩
  · refine completes_only rfl hb hpw ?_
    rw [bringup_ckWait hrt hp, getB_tick, if_pos (by exact hck)]
    exact ⟨by simp [linkPhase, getF_putF_same], ((LinkWorks.refl ..).putF (by simp [a]) (trkGrpStatus_apart n).1 0 3 2).linkOnly⟩
  · refine completes_only rfl hb hpw ?_
    rw [bringup_ckWait hrt hp, getB_tick, if_neg (by exact Bool.eq_false_iff.1 hck)]
  · obtain ⟨hphase, heyes, hworks⟩ := bringup_swept (s := tick dt s) hn hlen hrt hp hf
    refine completes_only rfl hb hpw ⟨hphase, fun l hl => ?_, hworks.linkOnly⟩
    obtain ⟨⟨hposition, hctle, hcached⟩, hslips⟩ := heyes l hl
    refine ⟨hposition, hctle, ?_, hslips⟩
    rw [Nat.add_assoc]
    exact hcached
  · obtain ⟨hphase, hback, hworks⟩ := bringup_unswept (s := tick dt s) hn hlen hrt hp hf
    exact completes_only rfl hb hpw ⟨hphase, hback, hworks.linkOnly⟩
  · refine completes_only rfl hb hpw ?_
    rw [bringup_slip hrt hp, if_pos]
    · exact ⟨by simp [linkPhase, getF_putF_same], ((LinkWorks.refl ..).putF (by simp [a]) (trkGrpStatus_apart n).1 0 3 4).linkOnly⟩
    · rw [List.all_eq_true]
      exact (lanesList_forall hn).2 fun l hl => decide_eq_true (hall l hl)
  · intro hp hall as late hmem hmin slip leaves ok
    have harrive : arrivals n (tick dt s) = as := arrivals_eq hn (tick dt s)
    have hleave : ok ↔ arcTo (arrivals n (tick dt s)) late ≤ 63 ∧ LeaveTogether n (slipsSet n late (tick dt s)) := by
      have heach : ∀ l, l < 8 → laneLeaves (laneTrack (slipsSet n late (tick dt s)) (8 * n + l)) = leaves l := fun l hl => by
        rw [(slipsSet_lane hn late (tick dt s) ((mem_lanesList hn).2 ⟨l, hl, rfl⟩)).1]
        rfl
      rw [harrive, LeaveTogether, lanesList_forall hn]
      refine and_congr Iff.rfl (forall₂_congr fun l hl => ?_)
      rw [heach l hl, ← heach 0 (by decide), Nat.add_zero]
    refine completes_only rfl hb hpw ?_
    rw [bringup_deskew hrt hp, if_pos]
    · rw [← harrive] at hmem hmin
      refine ⟨fun hok => ?_, fun hok => ?_⟩
      · obtain ⟨hphase, haligned, hbit, hlanes, hworks⟩ := deskew_ok hn hmem hmin (hleave.1 hok).1 (hleave.1 hok).2
        exact ⟨hphase, haligned, hbit, fun l hl => hlanes _ ((mem_lanesList hn).2 ⟨l, hl, rfl⟩), hworks.linkOnly⟩
      · obtain ⟨hbit, hphase, hworks⟩ := deskew_fails hn hmem hmin (hleave.not.1 hok)
        exact ⟨hbit, hphase, hworks.linkOnly⟩
    · rw [List.all_eq_true]
      refine (lanesList_forall hn).2 fun l hl => ?_
      obtain ⟨h, hpend, hvalid⟩ := hall l hl
      have hpend' : (laneTrack (tick dt s) (8 * n + l)).pend = some h := hpend
      rw [hpend']
      exact hvalid
  · obtain ⟨hphase, hsent, hfails, hworks⟩ := bringupReady_sent (s := tick dt s) hmsg
    refine completes_only rfl hb hpw ?_
    rw [bringup_qualify hrt hp, if_pos]
    · exact ⟨hphase, hsent, hfails, hworks.linkOnly⟩
    · rw [List.all_eq_true]
      exact (lanesList_forall hn).2 fun l hl => decide_eq_true (hall l hl)
  · obtain ⟨hphase, hfails, hevq, -, hworks⟩ := stepRetried (s := tick dt s) h0 hf
    refine completes_only rfl hb hpw ?_
    rw [hfailed hfl]
    exact ⟨hphase, hfails, hevq, hworks.linkOnly⟩
  · obtain ⟨hphase, hbit, hat, -, hworks⟩ := stepFailed (s := tick dt s) h0 (by rw [linkTrack_tick, hf]; decide)
    refine completes_only rfl hb hpw ?_
    rw [hfailed hfl]
    exact ⟨hphase, hbit, hat, hworks.linkOnly⟩
  · have hback := ladderFellBack n (tick dt s)
    refine completes_only rfl hb hpw ?_
    rw [hfailed hfl, stepFail_back (s := tick dt s) h0]
    exact ⟨hback.phase, hback.step, hback.short, hback.sent, hback.works.linkOnly⟩
  · exact completes_only rfl hb hpw (bringup_waits (s := tick dt s) hn hrt hnf hcase)

end Sys2Proof.Machine
end


section
/-! Reference selection from a trunk's quality level: what it leaves alone (06_trunk_framing.md R291; 11_reference_and_genlock.md R474 to R492). -/

namespace Sys2Proof.Machine

/-- Reference selection has worked: the wall time, registers of the hub, events, its own state and the open values have moved, and nothing else has. -/
structure RefWorks (s t : State) : Prop where
  frame : t = { s with now := t.now, regs := t.regs, evq := t.evq, ref := t.ref, free := t.free }
  regs : ∀ a, a < 0x400000 → rd t a = rd s a

namespace RefWorks

variable {s t u : State}

theorem refl (s : State) : RefWorks s s := ⟨rfl, fun _ _ => rfl⟩

theorem trans (h1 : RefWorks s u) (h2 : RefWorks u t) : RefWorks s t := by
  refine ⟨?_, fun a ha => (h2.regs a ha).trans (h1.regs a ha)⟩
  have h := h2.frame
  rw [h1.frame] at h
  exact h

theorem wr {a : Nat} (h : RefWorks s t) (ha : 0x400000 ≤ a) (v : Word) : RefWorks s (wr a v t) :=
  h.trans ⟨rfl, fun b hb => rd_wr_ne (by omega) ..⟩

theorem putF {a : Nat} (h : RefWorks s t) (ha : 0x400000 ≤ a) (lo k v : Nat) : RefWorks s (putF a lo k v t) := h.wr ha _

theorem putB {a : Nat} (h : RefWorks s t) (ha : 0x400000 ≤ a) (b : Nat) (v : Bool) : RefWorks s (putB a b v t) := h.wr ha _

theorem raise (h : RefWorks s t) (src inst type : Nat) (d0 d1 d2 : Word) : RefWorks s (raise src inst type d0 d1 d2 t) := by
  obtain ⟨u, hu⟩ : ∃ u, Machine.raise src inst type d0 d1 d2 t = u := ⟨_, rfl⟩
  rw [hu]
  exact h.trans ⟨by rw [raise_frame hu.symm], fun a _ => by rw [← hu, rd_raise]⟩

theorem ref (h : RefWorks s t) (r : RefState) : RefWorks s { t with ref := r } := h.trans ⟨rfl, fun _ _ => rfl⟩

theorem ite {c : Prop} [Decidable c] (h1 : RefWorks s t) (h2 : RefWorks s u) : RefWorks s (if c then t else u) := by
  split
  · exact h1
  · exact h2

theorem free (h : RefWorks s t) : RefWorks s (useFree t) := h.trans ⟨rfl, fun _ _ => rfl⟩

theorem now (h : RefWorks s t) (x : Nat) : RefWorks s { t with now := x } := h.trans ⟨rfl, fun _ _ => rfl⟩

theorem count {a : Nat} (h : RefWorks s t) (ha : 0x400000 ≤ a) : RefWorks s (count a t) := h.wr ha _

theorem flagEvent {a : Nat} (h : RefWorks s t) (ha : 0x400000 ≤ a) (src inst b : Nat) : RefWorks s (flagEvent src inst a b t) := (h.putB ha b true).raise ..

theorem stateEvent {a : Nat} (h : RefWorks s t) (ha : 0x400000 ≤ a) (src inst lo k v : Nat) : RefWorks s (stateEvent src inst a lo k v t) := by
  unfold Machine.stateEvent
  exact h.ite ((h.putF ha lo k v).raise ..)

theorem foldl {α : Type} {f : State → α → State} {l : List α} (h : RefWorks s t) (hf : ∀ u x, x ∈ l → RefWorks s u → RefWorks s (f u x)) : RefWorks s (l.foldl f t) :=
  foldl_keeps (P := RefWorks s) h hf

end RefWorks

theorem candA_hub (k : Nat) : 0x400000 ≤ candA k := by
  simp only [candA, Reg.refCandStatus]
  omega

theorem refRegs_hub : 0x400000 ≤ Reg.refStatus ∧ 0x400000 ≤ Reg.refBw ∧ 0x400000 ≤ Reg.refSwitches ∧ 0x400000 ≤ Reg.refHoFreq ∧ 0x400000 ≤ Reg.tmbStatus := by decide

namespace RefWorks

variable {s t : State}

theorem refRefresh (h : RefWorks s t) : RefWorks s (refRefresh t) := by
  obtain ⟨hst, -⟩ := refRegs_hub
  simp only [Machine.refRefresh]
  exact ((h.foldl fun u k _ hu => ((hu.putF (candA_hub k) 12 3 _).putF (candA_hub k) 4 4 _).putB (candA_hub k) 3 _).putF hst 4 3 _).putF hst 8 4 _

theorem refEnter (h : RefWorks s t) (v : Nat) : RefWorks s (refEnter v t) := h.stateEvent refRegs_hub.1 ..

theorem setOfs (h : RefWorks s t) (o : Int) : RefWorks s (setOfs o t) := (h.ref _).putB refRegs_hub.1 ..

theorem refTake (h : RefWorks s t) (k : Nat) : RefWorks s (refTake k t) := by
  obtain ⟨hst, hbw, hsw, -⟩ := refRegs_hub
  simp only [Machine.refTake, loopStart]
  exact ((((h.ref _).ref _).wr hbw _).putF hst 12 2 0).count hsw

theorem refSelect (h : RefWorks s t) (k : Nat) (ns : Int) : RefWorks s (refSelect k ns t) := by
  obtain ⟨hst, -, -, -, htm⟩ := refRegs_hub
  simp only [Machine.refSelect]
  have hentered := fun v => (h.refTake k).refEnter v
  refine ((RefWorks.ite (RefWorks.setOfs ?_ 0) ((hentered _).setOfs _)).flagEvent hst ..).refRefresh
  exact (((hentered _).now _).putB htm 0 true).ite ((hentered _).now _)

theorem refHold (h : RefWorks s t) : RefWorks s (refHold t) := by
  obtain ⟨hst, -, -, hho, -⟩ := refRegs_hub
  simp only [Machine.refHold]
  have hheld := fun r => ((h.setOfs 0).putB hst 14 false).ref r
  exact (((hheld _).refEnter 0).ite (((hheld _).wr hho _).refEnter 2)).refRefresh

theorem reselect (h : RefWorks s t) (d : Nat → Int) : RefWorks s (reselect d t) := by
  unfold Machine.reselect
  split
  · exact h.refHold.ite h.refRefresh
  · exact h.refRefresh.ite (h.refSelect ..)

theorem candQl (h : RefWorks s t) (k ql : Nat) : RefWorks s (candQl k ql t) := by
  have hput := h.putF (candA_hub k) 8 4 ql
  unfold Machine.candQl reselectFree
  exact h.ite ((hput.free.ite hput).reselect _)

end RefWorks

theorem refWorks_trunkQl (n : Nat) (s : State) : RefWorks s (trunkQl n s) :=
  (RefWorks.refl s).foldl fun _ _ _ hu => (hu.candQl ..).ite hu

/-- A trunk that is no candidate moves no reference. -/
theorem trunkQl_other {n : Nat} {s : State} (h : ∀ k ∈ [4, 5], refTrunk s k ≠ some n) : trunkQl n s = s :=
  foldl_keeps (P := fun t => t = s) rfl fun u k hk hu => by rw [hu, if_neg (h k hk)]

theorem refTrunk_congr {s t : State} (h : t.plan = s.plan) (k : Nat) : refTrunk t k = refTrunk s k := by
  rw [refTrunk, h, refTrunk]

end Sys2Proof.Machine
end


section
/-! A ladder byte is accepted (05_trunk_lanes.md R218, R220, R230 to R233). -/

namespace Sys2Proof.Machine

/-- What the answers to a ladder byte keep: the byte accepted, a link pair outside RUN, and every lane. -/
structure LadderKeeps (n : Nat) (s t : State) : Prop where
  works : LinkWorks n [linkStA n, linkMsgA n] s t
  lanes : ∀ m, laneTrack t m = laneTrack s m
  accepted : getF t (linkMsgA n) 8 8 = getF s (linkMsgA n) 8 8
  idle : linkRun s n = false → linkRun t n = false

namespace LadderKeeps

variable {n : Nat} {s t u : State}

theorem refl (n : Nat) (s : State) : LadderKeeps n s s := ⟨.refl .., fun _ => rfl, rfl, id⟩

theorem trans (h1 : LadderKeeps n s u) (h2 : LadderKeeps n u t) : LadderKeeps n s t :=
  ⟨h1.works.trans h2.works, fun m => (h2.lanes m).trans (h1.lanes m), h2.accepted.trans h1.accepted, fun h => h2.idle (h1.idle h)⟩

theorem putLink (h : LadderKeeps n s t) (x : LinkTrack) : LadderKeeps n s (putLink n x t) := h.trans ⟨(LinkWorks.refl ..).putLink x, fun _ => rfl, rfl, id⟩

theorem sendByte (h : LadderKeeps n s t) (b : Nat) : LadderKeeps n s (sendByte n b t) := by
  obtain ⟨-, ham, -⟩ := ladderRegs_apart n
  have hput : LadderKeeps n t (putF (linkMsgA n) 0 8 b t) := by
    refine ⟨(LinkWorks.refl ..).putF (by simp) (trkGrpStatus_apart n).2.1 0 8 b, fun m => laneTrack_putF .., getF_putF_fld _ _ _ (by decide) (.inr (by decide)), fun h => ?_⟩
    rwa [linkRun, linkPhase, getF_putF_ne ham]
  exact (h.trans hput).putLink _

theorem flagEvent (h : LadderKeeps n s t) (src inst : Nat) {b : Nat} (hb : 3 ≤ b ∧ b < 32) : LadderKeeps n s (flagEvent src inst (linkStA n) b t) := by
  obtain ⟨hma, -⟩ := ladderRegs_apart n
  refine h.trans ⟨(LinkWorks.refl ..).flagEvent (by simp) (trkGrpStatus_apart n).1 src inst b, fun m => ?_, ?_, fun h => ?_⟩
  · rw [Machine.flagEvent, raiseFlag, laneTrack_raise, laneTrack_putB]
  · rw [Machine.flagEvent, raiseFlag, getF_raise, getF_putB_ne hma]
  · rwa [linkRun, linkPhase, Machine.flagEvent, raiseFlag, getF_raise, getF_putB_fld _ _ _ hb.2 (.inl hb.1)]

theorem fallback (h : LadderKeeps n s t) : LadderKeeps n s (ladderFallback n t) := by
  have hback := ladderFellBack n t
  exact h.trans ⟨hback.works, hback.lanes, hback.accepted, fun _ => by rw [linkRun, hback.phase]; rfl⟩

theorem ite {c : Prop} [Decidable c] (h1 : LadderKeeps n s t) (h2 : LadderKeeps n s u) : LadderKeeps n s (if c then t else u) := by
  split
  · exact h1
  · exact h2

theorem ladderReady (h : LadderKeeps n s t) : LadderKeeps n s (ladderReady n t) := (h.putLink _).ite ((h.sendByte _).ite (h.sendByte _))

end LadderKeeps

/-- The registers of a link pair with the byte accepted. -/
def byteAccepted (n b : Nat) (s : State) : State := putF (linkMsgA n) 8 8 b s

theorem byteAccepted_spec (n b : Nat) (s : State) : let t := byteAccepted n b s
    LinkWorks n [linkStA n, linkMsgA n] s t ∧ (∀ m, laneTrack t m = laneTrack s m) ∧ getF t (linkMsgA n) 8 8 = b % 256 ∧ linkRun t n = linkRun s n := by
  refine ⟨(LinkWorks.refl ..).putF (by simp) (trkGrpStatus_apart n).2.1 8 8 b, fun m => laneTrack_putF .., getF_putF_same _ _ _ (by decide), ?_⟩
  rw [linkRun, linkPhase, byteAccepted, getF_putF_ne (ladderRegs_apart n).2.1, linkRun, linkPhase]

/-- What an accepted byte other than RESTART brings about. -/
theorem ladderAccept_keeps {n b : Nat} (s : State) (hb : b / 16 ≠ 6) : LadderKeeps n (byteAccepted n b s) (ladderAccept n b s) := by
  have he : ∀ u, byteAccepted n b s = u → LadderKeeps n u (ladderAccept n b s) := by
    intro u hu
    have h0 := LadderKeeps.refl n u
    simp only [byteAccepted] at hu
    simp only [ladderAccept, hu]
    split
    · exact h0
    split
    · exact h0.ladderReady.ite h0
    · exact ((((h0.putLink _).sendByte _).putLink _).ite ((h0.putLink _).sendByte _)).ite ((h0.sendByte _).flagEvent _ _ (by decide))
    · exact h0.ite (h0.putLink _)
    · exact (h0.putLink _).fallback.ite (((h0.putLink _).sendByte _).ite (h0.putLink _))
    · exact absurd ‹_› hb
    · exact (h0.putLink _).ite (((h0.putLink _).sendByte _).putLink _)
    · exact h0
  exact he _ rfl

theorem ladderAccept_restart {n b : Nat} (s : State) (hb : b / 16 = 6) :
    ladderAccept n b s = if ladderRuns (byteAccepted n b s) n = false then byteAccepted n b s else ladderRestart n 0x00 (byteAccepted n b s) := by
  simp only [ladderAccept, hb, byteAccepted]
  rfl

/-- An accepted byte moves the link pair only, and the lanes only where the ladder starts again. -/
theorem ladderAccept_works (n b : Nat) (s : State) : let t := ladderAccept n b s
    LinkWorks n (ladderRegs n) s t ∧ ∀ m, laneTrack t m = laneTrack s m ∨ (laneTrack t m).okRun = 0 := by
  obtain ⟨hworks, hlanes, -, -⟩ := byteAccepted_spec n b s
  have hsub : [linkStA n, linkMsgA n] ⊆ ladderRegs n := by simp
  by_cases hb : b / 16 = 6
  · rw [ladderAccept_restart s hb]
    split
    · exact ⟨hworks.mono hsub, fun m => .inl (hlanes m)⟩
    · have hr := ladderRestarted n 0 (byteAccepted n b s) (by decide)
      exact ⟨(hworks.mono hsub).trans hr.works, fun m => (hr.okRun m).imp_left fun h => h.trans (hlanes m)⟩
  · have hk := ladderAccept_keeps (n := n) s hb
    exact ⟨(hworks.trans hk.works).mono hsub, fun m => .inl ((hk.lanes m).trans (hlanes m))⟩

/-- A byte other than RESTART is shown as the one accepted, outside RUN. -/
theorem ladderAccept_shown {n b : Nat} {s : State} (h8 : b < 256) (hb : b / 16 ≠ 6) (hr : linkRun s n = false) : let t := ladderAccept n b s
    getF t (linkMsgA n) 8 8 = b ∧ linkRun t n = false := by
  obtain ⟨-, -, hshown, hrun⟩ := byteAccepted_spec n b s
  have hk := ladderAccept_keeps (n := n) s hb
  exact ⟨by rw [hk.accepted, hshown, Nat.mod_eq_of_lt h8], hk.idle (hrun.trans hr)⟩

end Sys2Proof.Machine
end


section
/-! A trunk frame is received on a lane (05_trunk_lanes.md R218, R226 to R228, R235; 06_trunk_framing.md R259 to R270, R281, R291). -/

namespace Sys2Proof.Machine

/-! ## The steps of a reception -/

/-- Counters, track and registers of the lane. -/
def frameNoted (m : Nat) (f : List Blk) (x : LaneFound) (s : State) : State :=
  let u := laneCounts m (laneTrack s m).pend.isNone x s
  laneShow m (putLane m (laneTook u m f x) u)

/-- STATE TRAIN in four headers in a row starts the ladder again. -/
def frameTrain (n : Nat) (low : Bool) (x : LaneFound) (s : State) : State :=
  if low ∧ x.valid ∧ linkRun s n then
    let k := if nfld x.b1.toNat 34 3 = 1 then (linkTrack s n).trainRun + 1 else 0
    if 4 ≤ k then ladderRestart n 0x60 s else putLink n { linkTrack s n with trainRun := k } s
  else s

/-- QL of a trunk marked REF. -/
def frameQl (n : Nat) (low : Bool) (x : LaneFound) (s : State) : State :=
  if low ∧ x.valid ∧ ((trunkEntry? s n 0).map fun e => nbit e.w6 1).getD false then rxQl n (nfld x.b1.toNat 24 4) s else s

/-- Mailbox bytes on lanes D2 and D6. -/
def frameMail (m : Nat) (x : LaneFound) (byte : Nat) (s : State) : State :=
  if linkRun s (m / 8) ∧ m / 8 ≠ 72 then
    if m % 8 = 2 then putLink (m / 8) { linkTrack s (m / 8) with d2 := if x.valid then some byte else none } s
    else if m % 8 = 6 then mbxReceive (m / 8) x.valid (nfld x.b1.toNat 40 8) s
    else s
  else s

/-- What a header does to the link pair, once the lane has been noted. -/
def frameRead (m : Nat) (x : LaneFound) (s : State) : State :=
  let t := laneTrack s m
  let low := decide (m % 8 = lowestLane s (m / 8))
  let s := if low then rxHeader (m / 8) x.valid x.b0.toNat x.b1.toNat s else s
  let s := if x.valid ∧ 4 ≤ t.run then laneByte m t.byte s else s
  frameMail m x t.byte (groupStart m (frameQl (m / 8) low x (frameTrain (m / 8) low x s)))

theorem laneFrame_eq (m : Nat) (f : LaneFrame) (s : State) : laneFrame m f s
    = if linkPhase s (m / 8) = 0 then s
      else frameRead m (laneFind s m (laneInput s m f)) (frameNoted m (laneInput s m f) (laneFind s m (laneInput s m f)) s) := rfl

/-! ## What the steps move -/

/-- Work on a link pair that leaves the lanes alone, but for a ladder that starts again. -/
structure FrameWorks (n : Nat) (as : List Nat) (s t : State) : Prop where
  works : LinkWorks n as s t
  lanes : ∀ m, laneTrack t m = laneTrack s m ∨ (laneTrack t m).okRun = 0

namespace FrameWorks

variable {n : Nat} {as : List Nat} {s t u : State}

theorem refl (n : Nat) (as : List Nat) (s : State) : FrameWorks n as s s := ⟨.refl .., fun _ => .inl rfl⟩

theorem trans (h1 : FrameWorks n as s u) (h2 : FrameWorks n as u t) : FrameWorks n as s t :=
  ⟨h1.works.trans h2.works, fun m => (h2.lanes m).elim (fun h => (h1.lanes m).imp h.trans fun h0 => by rw [h, h0]) .inr⟩

theorem mono {bs : List Nat} (h : FrameWorks n as s t) (hs : as ⊆ bs) : FrameWorks n bs s t := ⟨h.works.mono hs, h.lanes⟩

theorem ite {c : Prop} [Decidable c] (h1 : FrameWorks n as s t) (h2 : FrameWorks n as s u) : FrameWorks n as s (if c then t else u) := by
  split
  · exact h1
  · exact h2

theorem putLink (h : FrameWorks n as s t) (x : LinkTrack) : FrameWorks n as s (putLink n x t) := ⟨h.works.putLink x, h.lanes⟩

theorem putF {a : Nat} (h : FrameWorks n as s t) (ha : a ∈ as) (hg : Reg.trkGrpStatus n ≠ a) (lo k v : Nat) : FrameWorks n as s (putF a lo k v t) :=
  ⟨h.works.putF ha hg lo k v, h.lanes⟩

theorem putB {a : Nat} (h : FrameWorks n as s t) (ha : a ∈ as) (hg : Reg.trkGrpStatus n ≠ a) (b : Nat) (v : Bool) : FrameWorks n as s (putB a b v t) :=
  ⟨h.works.putB ha hg b v, h.lanes⟩

theorem wr {a : Nat} (h : FrameWorks n as s t) (ha : a ∈ as) (hg : Reg.trkGrpStatus n ≠ a) (v : Word) : FrameWorks n as s (wr a v t) :=
  ⟨h.works.wr ha hg v, h.lanes⟩

theorem raiseFlag (h : FrameWorks n as s t) (src inst a b : Nat) : FrameWorks n as s (raiseFlag src inst a b t) :=
  ⟨h.works.raise .., fun m => by rw [Machine.raiseFlag, laneTrack_raise]; exact h.lanes m⟩

end FrameWorks

/-- The registers of a link pair that a header may move, with `g` the head of its group. -/
abbrev headRegs (n g : Nat) : List Nat :=
  [linkStA n, linkMsgA n, Reg.trkRxHdr n, Reg.trkRxFcntLo n, Reg.trkRxFcntHi n, Reg.trkMbxStatus n, Reg.trkLinkCnt n, Reg.trkGrpStatus g]

theorem grpStatus_apart (n : Nat) : Reg.trkGrpStatus n ≠ Reg.trkRxHdr n ∧ Reg.trkGrpStatus n ≠ Reg.trkRxFcntLo n ∧ Reg.trkGrpStatus n ≠ Reg.trkRxFcntHi n
    ∧ Reg.trkGrpStatus n ≠ Reg.trkMbxStatus n := by
  simp only [Reg.trkGrpStatus, Reg.trkRxHdr, Reg.trkRxFcntLo, Reg.trkRxFcntHi, Reg.trkMbxStatus]
  omega

section
variable {n g : Nat} (hn : n < 72) (s : State)
include hn

theorem rxHeader_works (valid : Bool) (b0 b1 : Nat) : FrameWorks n (headRegs n g) s (rxHeader n valid b0 b1 s) := by
  obtain ⟨hh, hlo, hhi, -⟩ := grpStatus_apart n
  have h0 := FrameWorks.refl n (headRegs n g) s
  simp only [rxHeader, if_neg (show ¬ n = 72 by omega)]
  exact (((h0.wr (by simp) hh _).wr (by simp) hlo _).putF (by simp) hhi 0 16 _).ite (h0.putB (by simp) hh 25 false)

theorem ladderRegs_head : ladderRegs n ⊆ headRegs n g := by
  rw [ladderRegs_trunk hn]
  intro a ha
  simp only [List.mem_cons, List.not_mem_nil, or_false] at ha ⊢
  tauto

theorem laneByte_works {m : Nat} (hm : m / 8 = n) (b : Nat) : FrameWorks n (headRegs n g) s (laneByte m b s) := by
  have hg := (trkGrpStatus_apart n).2.1
  have h0 := FrameWorks.refl n (headRegs n g) s
  have hcap : FrameWorks n (headRegs n g) s (putF (linkMsgA n) 24 8 b s) := h0.putF (by simp) hg 24 8 b
  obtain ⟨hworks, hlanes⟩ := ladderAccept_works n b s
  simp only [laneByte, hm, if_neg (show ¬ (linkRun s n = true ∧ n = 72) by omega)]
  exact (hcap.ite ((h0.putF (by simp) (grpStatus_apart n).2.2.1 16 8 b).ite h0)).ite (hcap.ite (h0.ite ⟨hworks.mono (ladderRegs_head hn), hlanes⟩))

theorem frameTrain_works (low : Bool) (x : LaneFound) : FrameWorks n (headRegs n g) s (frameTrain n low x s) := by
  have h0 := FrameWorks.refl n (headRegs n g) s
  have hr := ladderRestarted n 0x60 s (by decide)
  simp only [frameTrain]
  exact (FrameWorks.ite ⟨hr.works.mono (ladderRegs_head hn), hr.okRun⟩ (h0.putLink _)).ite h0

omit hn in
theorem rxQl_works (ql : Nat) : FrameWorks n (headRegs n g) s (rxQl n ql s) := by
  have h0 := (FrameWorks.refl n (headRegs n g) s)
  simp only [rxQl]
  exact ((h0.putLink _).raiseFlag ..).ite (h0.putLink _)

omit hn in
theorem frameQl_works (low : Bool) (x : LaneFound) : FrameWorks n (headRegs n g) s (frameQl n low x s) := (rxQl_works s _).ite (.refl ..)

omit hn in
theorem mbxReceive_works (valid : Bool) (ctl : Nat) : FrameWorks n (headRegs n g) s (mbxReceive n valid ctl s) := by
  have h0 := FrameWorks.refl n (headRegs n g) s
  have hput : ∀ x, FrameWorks n (headRegs n g) s (mbxStatus n (putLink n x s)) := fun x =>
    ⟨((LinkWorks.refl ..).putLink x).trans ((mbxStatus_works n _).mono (by simp)), fun m => .inl (laneTrack_congr (t := mbxStatus n (putLink n x s)) (s := putLink n x s)
      (by rw [mbxStatus_frame]) m)⟩
  have hlost : ∀ x, FrameWorks n (headRegs n g) s (putB (Reg.trkMbxStatus n) 9 true (putLink n x s)) := fun x => (h0.putLink x).putB (by simp) (grpStatus_apart n).2.2.2 9 true
  simp only [mbxReceive]
  split
  · split
    · exact (h0.putLink _).ite ((hput _).ite (h0.putLink _))
    · exact hlost _
  · exact h0.putLink _

omit hn in
theorem frameMail_works {m : Nat} (hm : m / 8 = n) (x : LaneFound) (byte : Nat) : FrameWorks n (headRegs n g) s (frameMail m x byte s) := by
  have h0 := FrameWorks.refl n (headRegs n g) s
  simp only [frameMail, hm]
  exact ((h0.putLink _).ite ((mbxReceive_works s _ _).ite h0)).ite h0

end

/-! ## The frame timer of a group starts (R281, R284) -/

theorem groupHead_putF {n a lo k v : Nat} {s : State} (hlo : 8 ≤ lo) (hk : lo + k ≤ 32) : groupHead (putF a lo k v s) n = groupHead s n := by
  by_cases ha : Reg.trkGrpStatus n = a
  · subst ha
    simp only [groupHead, getB_putF_fld _ _ _ hk (.inl (by omega : 5 + 1 ≤ lo)), getB_putF_fld _ _ _ hk (.inl (by omega : 6 + 1 ≤ lo)), getF_putF_fld _ _ _ hk (.inl (by omega : 0 + 5 ≤ lo))]
  · exact groupHead_congr (rd_putF_ne ha ..)

/-- The frame timer and its marks at the head of a group. -/
theorem FrameWorks.groupTimer {n g : Nat} (s : State) (hg : groupHead s n = g) (x : Option (Nat × Nat)) :
    FrameWorks n (headRegs n g) s (Machine.putF (Reg.trkGrpStatus g) 8 8 0 (Machine.putLink g { linkTrack s g with grp := x, released := none } s)) := by
  refine ⟨⟨⟨rfl, (regsBut_wr (Reg.trkGrpStatus g) _ _).mono (by simp), ?_, fun m _ => ?_, fun m _ hm => ?_, fun _ _ => rfl⟩, rfl⟩, fun _ => .inl rfl⟩
  · rw [groupHead_putF (by decide) (by decide)]
    rfl
  · rw [linkTrack_putF]
    by_cases h : m = g
    · rw [h, linkTrack_putLink_same]
    · rw [linkTrack_putLink_ne h]
  · rw [linkTrack_putF, linkTrack_putLink_ne (by rwa [hg] at hm)]

theorem groupStart_works {n g m : Nat} (hm : m / 8 = n) (s : State) (hg : groupHead s n = g) : FrameWorks n (headRegs n g) s (groupStart m s) := by
  have h0 := FrameWorks.refl n (headRegs n g) s
  simp only [groupStart, hm, hg]
  split
  · exact (FrameWorks.groupTimer s hg _).ite h0
  · exact h0

end Sys2Proof.Machine
end


section
/-! A trunk frame received, as a whole: the counters, the lane's record, the byte accepted, and what stays as it was (05_trunk_lanes.md R218, R235, R244; 06_trunk_framing.md R262). -/

namespace Sys2Proof.Machine

/-! ## Counters, record and registers of the lane -/

theorem laneFrmA_lane {m : Nat} (hm : m < 576) : laneFrmA m = Reg.trkLaneFrm m := if_neg (by omega)

/-- The registers of a lane that a frame moves. -/
abbrev laneFrameRegs (m : Nat) : List Nat := [Reg.trkLaneFrm m, Reg.trkLaneSherr m, Reg.trkLaneStatus m, Reg.trkLaneSkew m]

theorem laneFrameRegs_apart {m : Nat} (hm : m < 576) : (∀ a ∈ laneFrameRegs m, Reg.trkGrpStatus (m / 8) ≠ a ∧ linkStA (m / 8) ≠ a ∧ linkMsgA (m / 8) ≠ a ∧ Reg.trkLinkCtrl (m / 8) ≠ a
      ∧ Reg.cmdStatus ≠ a)
    ∧ Reg.trkLaneFrm m ≠ Reg.trkLaneSherr m ∧ Reg.trkLaneFrm m ≠ Reg.trkLaneStatus m ∧ Reg.trkLaneFrm m ≠ Reg.trkLaneSkew m := by
  have hq : m / 8 / 18 = m / 144 := Nat.div_div_eq_div_mul ..
  have hn : m / 8 ≠ 72 := by omega
  simp only [List.mem_cons, List.not_mem_nil, or_false, linkStA, linkMsgA, if_neg hn, Reg.trkLaneFrm, Reg.trkLaneSherr, Reg.trkLaneStatus, Reg.trkLaneSkew, Reg.trkGrpStatus,
    Reg.trkLinkStatus, Reg.trkLinkMsg, Reg.trkLinkCtrl, Reg.cmdStatus]
  refine ⟨?_, by omega, by omega, by omega⟩
  rintro a (rfl | rfl | rfl | rfl) <;> omega

section
variable {m : Nat} (hm : m < 576) (x : LaneFound) (s : State)
include hm

theorem laneCounts_spec (first : Bool) : let t := laneCounts m first x s
    LinkWorks (m / 8) (laneFrameRegs m) s t ∧ t.trk = s.trk
      ∧ getF t (Reg.trkLaneFrm m) 16 16 = (if x.valid = true then getF s (Reg.trkLaneFrm m) 16 16 else min (2 ^ 16 - 1) (getF s (Reg.trkLaneFrm m) 16 16 + 1))
      ∧ getF t (Reg.trkLaneFrm m) 0 16
        = (if x.match_ = true ∨ first = true then getF s (Reg.trkLaneFrm m) 0 16 else min (2 ^ 16 - 1) (getF s (Reg.trkLaneFrm m) 0 16 + 1)) := by
  obtain ⟨hapart, hfs, -, -⟩ := laneFrameRegs_apart hm
  have hg := fun a ha => (hapart a ha).1
  have h0 := LinkWorks.refl (m / 8) (laneFrameRegs m) s
  simp only [laneCounts, laneFrmA_lane hm, if_pos hm]
  obtain ⟨u, hu⟩ : ∃ u, (if x.valid = true then s else bump (Reg.trkLaneFrm m) 16 16 1 s) = u := ⟨_, rfl⟩
  have hworks : LinkWorks (m / 8) (laneFrameRegs m) s u := hu ▸ h0.ite (h0.bump (by simp) (hg _ (by simp)) 16 16 1)
  have hutrk : u.trk = s.trk := by
    rw [← hu]
    split
    · rfl
    · exact bump_trk ..
  have hhigh : getF u (Reg.trkLaneFrm m) 16 16 = if x.valid = true then getF s (Reg.trkLaneFrm m) 16 16 else min (2 ^ 16 - 1) (getF s (Reg.trkLaneFrm m) 16 16 + 1) := by
    rw [← hu]
    split
    · rfl
    · exact getF_bump_same _ _ _ (by decide)
  have hlow : getF u (Reg.trkLaneFrm m) 0 16 = getF s (Reg.trkLaneFrm m) 0 16 := by
    rw [← hu]
    split
    · rfl
    · exact getF_bump_fld _ _ _ (by decide) (.inl (by decide))
  rw [hu]
  refine ⟨(hworks.ite (hworks.bump (by simp) (hg _ (by simp)) 0 16 1)).bump (by simp) (hg _ (by simp)) 0 32 x.errs, ?_, ?_, ?_⟩
  · rw [bump_trk]
    split
    · exact hutrk
    · rw [bump_trk, hutrk]
  · rw [getF_bump_ne hfs, ← hhigh]
    split
    · rfl
    · exact getF_bump_fld _ _ _ (by decide) (.inr (by decide))
  · rw [getF_bump_ne hfs, ← hlow]
    split
    · rfl
    · exact getF_bump_same _ _ _ (by decide)

theorem laneShow_spec : let t := laneShow m s
    LinkWorks (m / 8) (laneFrameRegs m) s t ∧ t.trk = s.trk ∧ rd t (Reg.trkLaneFrm m) = rd s (Reg.trkLaneFrm m) := by
  obtain ⟨hapart, -, hfst, hfsk⟩ := laneFrameRegs_apart hm
  have hg := fun a ha => (hapart a ha).1
  simp only [laneShow, if_pos hm]
  refine ⟨(((LinkWorks.refl ..).putF (by simp) (hg _ (by simp)) 4 2 _).putB (by simp) (hg _ (by simp)) 0 _).putF (by simp) (hg _ (by simp)) 0 10 _, ?_, ?_⟩
  · rw [putF_trk, putB_trk, putF_trk]
  · rw [rd_putF_ne hfsk, rd_putB_ne hfst, rd_putF_ne hfst]

/-- The lane's record of a frame, with the registers that show it. -/
structure FrameNoted (m : Nat) (f : List Blk) (x : LaneFound) (s t : State) : Prop where
  works : LinkWorks (m / 8) (laneFrameRegs m) s t
  high : getF t (Reg.trkLaneFrm m) 16 16 = if x.valid = true then getF s (Reg.trkLaneFrm m) 16 16 else min (2 ^ 16 - 1) (getF s (Reg.trkLaneFrm m) 16 16 + 1)
  low : getF t (Reg.trkLaneFrm m) 0 16
    = if x.match_ = true ∨ (laneTrack s m).pend = none then getF s (Reg.trkLaneFrm m) 0 16 else min (2 ^ 16 - 1) (getF s (Reg.trkLaneFrm m) 0 16 + 1)
  okRun : (laneTrack t m).okRun ≤ 4
  byte : x.valid = true → (laneTrack t m).byte = nfld x.b1.toNat 40 8
  run : x.valid = true → (laneTrack s m).byte = nfld x.b1.toNat 40 8 → 3 ≤ (laneTrack s m).run → (laneTrack t m).run = 4

omit hm in
theorem laneTook_okRun (f : List Blk) : (laneTook s m f x).okRun ≤ 4 := by
  simp only [laneTook]
  split_ifs <;> omega

omit hm in
theorem laneTook_byte (f : List Blk) (h : x.valid = true) : (laneTook s m f x).byte = nfld x.b1.toNat 40 8 := by
  simp only [laneTook, if_pos h]

omit hm in
theorem laneTook_run (f : List Blk) (h : x.valid = true) (hb : (laneTrack s m).byte = nfld x.b1.toNat 40 8) (hr : 3 ≤ (laneTrack s m).run) :
    (laneTook s m f x).run = 4 := by
  have hc : x.valid = true ∧ nfld x.b1.toNat 40 8 = (laneTrack s m).byte := ⟨h, hb.symm⟩
  simp only [laneTook, if_pos hc]
  omega

theorem frameNoted_spec (f : List Blk) : FrameNoted m f x s (frameNoted m f x s) := by
  obtain ⟨hworks, htrk, hhigh, hlow⟩ := laneCounts_spec hm x s (laneTrack s m).pend.isNone
  simp only [frameNoted]
  generalize laneCounts m (laneTrack s m).pend.isNone x s = u at *
  have htrack := laneTrack_congr htrk m
  obtain ⟨hworks2, htrk2, hrd⟩ := laneShow_spec hm (putLane m (laneTook u m f x) u)
  generalize laneShow m (putLane m (laneTook u m f x) u) = t at *
  have htook : laneTrack t m = laneTook u m f x := by rw [laneTrack_congr htrk2, laneTrack_putLane_same]
  refine ⟨(hworks.putLane rfl _).trans hworks2, ?_, ?_, ?_, fun h => ?_, fun h hb hr => ?_⟩
  · rw [getF, hrd, rd_putLane, ← getF, hhigh]
  · rw [getF, hrd, rd_putLane, ← getF, hlow]
    simp only [Option.isNone_iff_eq_none]
  · rw [htook]
    exact laneTook_okRun x u f
  · rw [htook]
    exact laneTook_byte x u f h
  · rw [htook]
    exact laneTook_run x u f h (by rw [htrack, hb]) (by rwa [htrack])

end

/-! ## The header -/

theorem frameRead_works {m n : Nat} (hm : m / 8 = n) (hn : n < 72) (x : LaneFound) (s : State) : FrameWorks n (headRegs n (groupHead s n)) s (frameRead m x s) := by
  subst hm
  have h0 := FrameWorks.refl (m / 8) (headRegs (m / 8) (groupHead s (m / 8))) s
  simp only [frameRead]
  have h1 := (rxHeader_works (g := groupHead s (m / 8)) hn s x.valid x.b0.toNat x.b1.toNat).ite (c := decide (m % 8 = lowestLane s (m / 8)) = true) h0
  have h2 := (h1.trans (laneByte_works hn _ rfl (laneTrack s m).byte)).ite (c := x.valid = true ∧ 4 ≤ (laneTrack s m).run) h1
  have h3 := h2.trans (frameTrain_works hn _ (decide (m % 8 = lowestLane s (m / 8))) x)
  have h4 := h3.trans (frameQl_works _ (decide (m % 8 = lowestLane s (m / 8))) x)
  have h5 := h4.trans (groupStart_works rfl _ h4.works.moves.head)
  exact h5.trans (frameMail_works _ rfl x _)

end Sys2Proof.Machine
end


section
/-! What a received trunk frame comes to: the clauses of O23 about TRUNK_FRAME_RECEIVED. -/

namespace Sys2Proof.Machine

/-! ## A ladder byte is accepted with the fourth header that carries it (R218) -/

theorem rd_rxQl (n ql : Nat) (s : State) (a : Nat) : rd (rxQl n ql s) a = rd s a := by
  simp only [rxQl]
  refine (apply_ite (fun u => rd u a) _ _ _).trans ?_
  rw [raiseFlag, rd_raise, ite_self, rd_putLink]

theorem rd_frameQl (n : Nat) (low : Bool) (x : LaneFound) (s : State) (a : Nat) : rd (frameQl n low x s) a = rd s a := by
  unfold frameQl
  split
  · exact rd_rxQl ..
  · rfl

theorem linkRun_congr {n : Nat} {s t : State} (h : rd t (linkStA n) = rd s (linkStA n)) : linkRun t n = linkRun s n := by
  rw [linkRun, linkPhase, getF, h, ← getF, ← linkPhase, linkRun]

section
variable {m : Nat} {s : State} (hn : m / 8 < 72) (hr : linkRun s (m / 8) = false)

include hr in
theorem frameTrain_idle (low : Bool) (x : LaneFound) : frameTrain (m / 8) low x s = s := if_neg (by simp [hr])

include hr in
theorem groupStart_idle : groupStart m s = s := by
  simp only [groupStart]
  split
  · exact if_neg (by simp [hr])
  · rfl

include hr in
theorem frameMail_idle (x : LaneFound) (byte : Nat) : frameMail m x byte s = s := if_neg (by simp [hr])

include hn in
theorem rxHeader_msg (valid : Bool) (b0 b1 : Nat) : let t := rxHeader (m / 8) valid b0 b1 s
    rd t (linkStA (m / 8)) = rd s (linkStA (m / 8)) ∧ rd t (linkMsgA (m / 8)) = rd s (linkMsgA (m / 8)) := by
  have hne : m / 8 ≠ 72 := by omega
  have ha : ∀ a, a = linkStA (m / 8) ∨ a = linkMsgA (m / 8) → a ≠ Reg.trkRxHdr (m / 8) ∧ a ≠ Reg.trkRxFcntLo (m / 8) ∧ a ≠ Reg.trkRxFcntHi (m / 8) := by
    simp only [linkStA, linkMsgA, if_neg hne, Reg.trkLinkStatus, Reg.trkLinkMsg, Reg.trkRxHdr, Reg.trkRxFcntLo, Reg.trkRxFcntHi]
    omega
  have key : ∀ a, a = linkStA (m / 8) ∨ a = linkMsgA (m / 8) → rd (rxHeader (m / 8) valid b0 b1 s) a = rd s a := fun a h => by
    obtain ⟨hh, hlo, hhi⟩ := ha a h
    simp only [rxHeader, if_neg hne]
    split
    · rw [rd_putF_ne hhi, rd_wr_ne hlo, rd_wr_ne hh]
    · rw [rd_putB_ne hh]
  exact ⟨key _ (.inl rfl), key _ (.inr rfl)⟩

include hr in
theorem laneByte_shown {b : Nat} (heven : m % 2 = 0) (h8 : b < 256) (hb : b / 16 ≠ 6) : let t := laneByte m b s
    getF t (linkMsgA (m / 8)) 8 8 = b ∧ linkRun t (m / 8) = false := by
  have hne : ¬ m % 8 % 2 = 1 := by omega
  simp only [laneByte, hr, Bool.false_eq_true, false_and, if_false, if_neg hne]
  split
  · exact ⟨‹_›, hr⟩
  · exact ladderAccept_shown h8 hb hr

include hn hr in
theorem frameRead_shown {x : LaneFound} (heven : m % 2 = 0) (hv : x.valid = true) (hrun : (laneTrack s m).run = 4) (h8 : (laneTrack s m).byte < 256)
    (hb : (laneTrack s m).byte / 16 ≠ 6) : getF (frameRead m x s) (linkMsgA (m / 8)) 8 8 = (laneTrack s m).byte := by
  have hc : x.valid = true ∧ 4 ≤ (laneTrack s m).run := ⟨hv, by omega⟩
  simp only [frameRead, if_pos hc]
  obtain ⟨u, hu⟩ : ∃ u, (if decide (m % 8 = lowestLane s (m / 8)) = true then rxHeader (m / 8) x.valid x.b0.toNat x.b1.toNat s else s) = u := ⟨_, rfl⟩
  have hur : linkRun u (m / 8) = false := by
    rw [← hu]
    split
    · rw [linkRun_congr (rxHeader_msg hn ..).1, hr]
    · exact hr
  rw [hu]
  obtain ⟨hshown, hidle⟩ := laneByte_shown hur heven h8 hb
  generalize laneByte m (laneTrack s m).byte u = v at *
  rw [frameTrain_idle hidle]
  have hw := rd_frameQl (m / 8) (decide (m % 8 = lowestLane s (m / 8))) x v
  generalize frameQl (m / 8) (decide (m % 8 = lowestLane s (m / 8))) x v = w at *
  have hwr : linkRun w (m / 8) = false := by rw [linkRun_congr (hw _), hidle]
  rw [groupStart_idle hwr, frameMail_idle hwr, getF, hw, ← getF, hshown]

end

/-! ## What the blocks say (R262) -/

/-- The header found in a lane's blocks is valid. -/
abbrev HeadValid (s : State) (m : Nat) (g : List Blk) (b0 b1 : BitVec 64) : Prop :=
  ((g.drop 254).all fun b => decide (b.sync = 1)) = true ∧ b0.toNat % 256 = 0xB8 ∧ b1.toNat % 256 = 0x47 ∧ b0.toNat / 2 ^ 56 = hcrc b0 b1
    ∧ b1.toNat / 2 ^ 28 % 8 = m % 8 ∧ b1.toNat / 2 ^ 32 % 4 = getF s (linkStA (m / 8)) 6 2

theorem laneFind_valid (s : State) (m : Nat) (g : List Blk) : (laneFind s m g).valid = true ↔ HeadValid s m g (laneFind s m g).b0 (laneFind s m g).b1 := by
  have h0 := (laneFind s m g).b0.isLt
  have htop : nfld (laneFind s m g).b0.toNat 56 8 = (laneFind s m g).b0.toNat / 2 ^ 56 := by
    rw [nfld]
    exact Nat.mod_eq_of_lt (by omega)
  have he : (laneFind s m g).valid = headOk (m % 8) (getF s (linkStA (m / 8)) 6 2) ((g.drop 254).all fun b => decide (b.sync = 1)) (laneFind s m g).b0 (laneFind s m g).b1 := rfl
  rw [he, headOk, htop]
  simp only [Bool.and_eq_true, decide_eq_true_eq, and_assoc, HeadValid]
  simp only [nfld, Nat.pow_zero, Nat.div_one]
  exact Iff.rfl

theorem laneFind_match (s : State) (m : Nat) (g : List Blk) : (laneFind s m g).match_ = true ↔ (laneFind s m g).b1.toNat / 2 ^ 48 = dcrc (laneFind s m g).data := by
  have h1 := (laneFind s m g).b1.isLt
  have htop : nfld (laneFind s m g).b1.toNat 48 16 = (laneFind s m g).b1.toNat / 2 ^ 48 := by
    rw [nfld]
    exact Nat.mod_eq_of_lt (by omega)
  have he : (laneFind s m g).match_ = decide (nfld (laneFind s m g).b1.toNat 48 16 = dcrc (laneFind s m g).data) := rfl
  rw [he, decide_eq_true_iff, htop]

/-! ## The frame as a whole -/

/-- The registers that a frame received on a lane may move. -/
abbrev receiveRegs (m g : Nat) : List Nat :=
  [linkStA (m / 8), linkMsgA (m / 8), laneFrmA m, Reg.trkLaneSherr m, Reg.trkLaneStatus m, Reg.trkLaneSkew m, Reg.trkRxHdr (m / 8), Reg.trkRxFcntLo (m / 8),
    Reg.trkRxFcntHi (m / 8), Reg.trkMbxStatus (m / 8), Reg.trkLinkCnt (m / 8), Reg.trkGrpStatus g]

theorem laneFrm_apart (m : Nat) {n : Nat} (hn : n < 72) (g : Nat) : Reg.trkLaneFrm m ∉ headRegs n g := by
  have hne : n ≠ 72 := by omega
  simp only [headRegs, List.mem_cons, List.not_mem_nil, or_false, linkStA, linkMsgA, if_neg hne, Reg.trkLaneFrm, Reg.trkRxHdr, Reg.trkRxFcntLo, Reg.trkRxFcntHi, Reg.trkMbxStatus,
    Reg.trkLinkCnt, Reg.trkGrpStatus, Reg.trkLinkStatus, Reg.trkLinkMsg]
  omega

theorem laneFrame_idle {m : Nat} (f : LaneFrame) {s : State} (h : linkPhase s (m / 8) = 0) : laneFrame m f s = s := by rw [laneFrame_eq, if_pos h]

/-- A frame is received on a lane of a link pair that is not idle. -/
structure TrunkFrameTaken (m : Nat) (x : LaneFound) (s t : State) : Prop where
  works : LinkWorks (m / 8) (receiveRegs m (groupHead s (m / 8))) s t
  high : getF t (laneFrmA m) 16 16 = if x.valid = true then getF s (laneFrmA m) 16 16 else min (2 ^ 16 - 1) (getF s (laneFrmA m) 16 16 + 1)
  low : getF t (laneFrmA m) 0 16
    = if x.match_ = true ∨ (laneTrack s m).pend = none then getF s (laneFrmA m) 0 16 else min (2 ^ 16 - 1) (getF s (laneFrmA m) 0 16 + 1)
  okRun : (laneTrack t m).okRun ≤ 4
  shown : linkRun s (m / 8) = false → m % 2 = 0 → x.valid = true → 3 ≤ (laneTrack s m).run → (laneTrack s m).byte = nfld x.b1.toNat 40 8
    → nfld x.b1.toNat 40 8 / 16 ≠ 6 → getF t (linkMsgA (m / 8)) 8 8 = nfld x.b1.toNat 40 8

theorem trunkFrameTaken {m : Nat} (hm : m < 576) (f : LaneFrame) {s : State} (hp : linkPhase s (m / 8) ≠ 0) :
    TrunkFrameTaken m (laneFind s m (laneInput s m f)) s (laneFrame m f s) := by
  have hn : m / 8 < 72 := by omega
  rw [laneFrame_eq, if_neg hp]
  generalize laneFind s m (laneInput s m f) = x
  have hnoted := frameNoted_spec hm x s (laneInput s m f)
  generalize frameNoted m (laneInput s m f) x s = u at *
  have hread := frameRead_works rfl hn x u
  rw [hnoted.works.moves.head] at hread
  have hfrm := hread.works.moves.regs _ (laneFrm_apart m hn _)
  have hsta : rd u (linkStA (m / 8)) = rd s (linkStA (m / 8)) := hnoted.works.moves.regs _ fun h => ((laneFrameRegs_apart hm).1 _ h).2.1 rfl
  refine ⟨(hnoted.works.mono ?_).trans (hread.works.mono ?_), ?_, ?_, ?_, fun hr heven hv h3 hb h6 => ?_⟩
  · rw [receiveRegs, laneFrmA_lane hm]
    intro a ha
    simp only [List.mem_cons, List.not_mem_nil, or_false] at ha ⊢
    tauto
  · intro a ha
    simp only [List.mem_cons, List.not_mem_nil, or_false] at ha ⊢
    tauto
  · rw [laneFrmA_lane hm, getF, hfrm, ← getF, hnoted.high]
  · rw [laneFrmA_lane hm, getF, hfrm, ← getF, hnoted.low]
  · rcases hread.lanes m with h | h
    · rw [h]
      exact hnoted.okRun
    · omega
  · have hbyte := hnoted.byte hv
    have hrun := hnoted.run hv hb h3
    have hlt : nfld x.b1.toNat 40 8 < 256 := Nat.mod_lt _ (by decide)
    rw [frameRead_shown hn (by rw [linkRun_congr hsta, hr]) heven hv hrun (by rw [hbyte]; exact hlt) (by rw [hbyte]; exact h6), hbyte]

end Sys2Proof.Machine
end


section
/-! Lanes in service: alignment lost and regained, the edge window, and the pattern checker (05_trunk_lanes.md R223, R235 to R237, R244). -/

namespace Sys2Proof.Machine

/-! ## Alignment lost (R235 to R237) -/

theorem laneDue_iff (t : LaneTrack) : laneDue t = true ↔ t.lossDue = true ∨ (t.searching = true ∧ t.swept = true ∧ 65 ≤ t.slips) := by
  simp [laneDue, and_assoc]

section
variable {m : Nat} (hm : m < 576) {s : State} (hr : linkRun s (m / 8) = true) (hf : getB s (linkStA (m / 8)) (24 + m % 8) = false)
include hm hr hf

/-- An aligned lane of a link pair in RUN leaves the aligned lanes, and LANE_LOST counts it. -/
theorem laneLost_aligned (hs : (laneTrack s m).searching = false) (ha : getB s (linkStA (m / 8)) (16 + m % 8) = true) : let t := laneLost m s
    getB t (linkStA (m / 8)) (16 + m % 8) = false ∧ (∀ l, l < 8 → l ≠ m % 8 → getB t (linkStA (m / 8)) (16 + l) = getB s (linkStA (m / 8)) (16 + l))
      ∧ (laneTrack t m).searching = true ∧ getF t (Reg.trkLinkCnt (m / 8)) 16 16 = min (2 ^ 16 - 1) (getF s (Reg.trkLinkCnt (m / 8)) 16 16 + 1)
      ∧ linkPhase t (m / 8) = 7 ∧ LinkWorks (m / 8) [linkStA (m / 8), Reg.trkLaneStatus m, Reg.trkLinkCnt (m / 8)] s t := by
  have hn : m / 8 ≠ 72 := by omega
  have hlost := laneLost_spec m s
  have hphase : linkPhase s (m / 8) = 7 := of_decide_eq_true hr
  have he : laneLost m s = laneDrops m s := by
    rw [laneLost_eq, if_neg (by simp [hr, hf]), if_neg (by simp [hs]), if_pos ha]
  obtain ⟨-, -, hcount, htrack, -, -⟩ := laneSearches_spec m s
  refine ⟨hlost.drops hr hf hs, fun l hl hne => hlost.bits.2 _ (by omega) (by omega) (by omega), ?_, ?_, (hlost.bits.1 0 3 (by decide)).trans hphase, ?_⟩
  · simp [he, laneDrops, raiseFlag, htrack]
  · simp only [he, laneDrops, raiseFlag, getF_raise, getF_putLink]
    exact hcount hn
  · have hworks := hlost.works
    rwa [laneLossRegs, if_neg hn] at hworks

omit hm in
/-- A search that fails for the third time within 10 s marks the lane failed. -/
theorem laneLost_searching (hs : (laneTrack s m).searching = true) : let t := laneLost m s
    let within := ((laneTrack s m).failTimes.filter fun x => decide (s.mono < x + 10 * tickSec)).length
    getB t (linkStA (m / 8)) (24 + m % 8) = decide (2 ≤ within) ∧ (laneTrack t m).searching = decide (within < 2) ∧ (within < 2 → t.evq = s.evq)
      ∧ LinkWorks (m / 8) [linkStA (m / 8)] s t := by
  intro t within
  have hlen : (searchFails (laneTrack s m) s.mono).length = within + 1 := by rw [searchFails, List.length_append, List.length_singleton]
  have hb : 24 + m % 8 < 32 := by omega
  have ht : t = if 3 ≤ within + 1 then laneFails m (searchFails (laneTrack s m) s.mono) s else searchFailed m (searchFails (laneTrack s m) s.mono) s := by
    rw [← hlen]
    exact (laneLost_eq m s).trans ((if_neg (by simp [hr, hf])).trans (if_pos hs))
  have hput := (LinkWorks.refl (m / 8) [linkStA (m / 8)] s).putLane rfl { laneReset (laneTrack s m) with failTimes := searchFails (laneTrack s m) s.mono }
  by_cases h2 : 2 ≤ within
  · rw [ht, if_pos (by omega)]
    refine ⟨?_, ?_, fun h => absurd h2 (by omega), ((hput.putLane rfl _).putB (by simp) (trkGrpStatus_apart (m / 8)).1 (24 + m % 8) true).raise ..⟩
    · rw [laneFails, raiseFlag, getB_raise, getB_putB_same _ _ _ hb, decide_eq_true h2]
    · rw [laneFails, raiseFlag, laneTrack_raise, laneTrack_putB, laneTrack_putLane_same, decide_eq_false (by omega)]
  · rw [ht, if_neg (by omega)]
    refine ⟨?_, ?_, fun _ => putLane_evq .., hput⟩
    · rw [searchFailed, getB_putLane, hf, decide_eq_false h2]
    · rw [searchFailed, laneTrack_putLane_same, decide_eq_true (by omega)]
      exact hs

end

/-! ## Alignment regained (R236) -/

/-- A lane may rejoin: it has passed 16 frames, and the firmware serves. -/
abbrev JoinDue (s : State) (m : Nat) : Prop := (laneTrack s m).searching = true ∧ 16 ≤ (laneTrack s m).passed ∧ server s = 1 ∧ linkRun s (m / 8) = true

theorem laneJoin_due {m : Nat} (hm : m < 576) {s : State} (h : JoinDue s m) : let t := laneJoin m s
    getB t (linkStA (m / 8)) (16 + m % 8) = true ∧ getB t (Reg.trkLaneStatus m) 0 = true ∧ (laneTrack t m).searching = false ∧ t.evq = s.evq
      ∧ LinkWorks (m / 8) [linkStA (m / 8), Reg.trkLaneStatus m] s t := by
  have hn : m / 8 ≠ 72 := by omega
  obtain ⟨hgs, -, hsa⟩ := laneRegs_apart m
  have he : laneJoin m s = putB (linkStA (m / 8)) (16 + m % 8) true (putB (Reg.trkLaneStatus m) 0 true (putLane m { laneTrack s m with searching := false } s)) := by
    have hc : (laneTrack s m).searching = true ∧ 16 ≤ (laneTrack s m).passed ∧ server s = 1 ∧ linkRun s (m / 8) = true := h
    simp only [laneJoin, if_pos hc, if_neg hn]
  rw [he]
  refine ⟨getB_putB_same _ _ _ (by omega), ?_, ?_, ?_,
    (((LinkWorks.refl ..).putLane rfl _).putB (by simp) hgs.symm 0 true).putB (by simp) (trkGrpStatus_apart (m / 8)).1 (16 + m % 8) true⟩
  · rw [getB_putB_ne (hsa hn).1.symm, getB_putB_same _ _ _ (by decide)]
  · rw [laneTrack_putB, laneTrack_putB, laneTrack_putLane_same]
  · rw [putB_evq, putB_evq, putLane_evq]

theorem laneJoin_idle {m : Nat} {s : State} (h : ¬ JoinDue s m) : laneJoin m s = s := if_neg h

/-! ## The edge window (R223) -/

theorem edgeShown {m : Nat} (dt cnt : Nat) (s : State) : let t := putB (Reg.trkLaneStatus m) 1 true (putF (Reg.trkLaneEdge m) 0 17 (min 65536 cnt) (tick dt s))
    getB t (Reg.trkLaneStatus m) 1 = true ∧ getF t (Reg.trkLaneEdge m) 0 17 = min 65536 cnt ∧ RegsOnly [Reg.trkLaneStatus m, Reg.trkLaneEdge m] dt s t := by
  have hne : Reg.trkLaneEdge m ≠ Reg.trkLaneStatus m := by
    simp only [Reg.trkLaneEdge, Reg.trkLaneStatus]
    omega
  refine ⟨getB_putB_same _ _ _ (by decide), ?_, regs_trans (wr_eq ..) (putB_eq ..), ?_⟩
  · rw [getF_putB_ne hne, getF_putF_same _ _ _ (by decide)]
    exact Nat.mod_eq_of_lt (by omega)
  · exact RegsBut.trans (u := putF (Reg.trkLaneEdge m) 0 17 (min 65536 cnt) (tick dt s)) ((regsBut_wr (Reg.trkLaneEdge m) _ (tick dt s)).mono (by simp))
      ((regsBut_wr (Reg.trkLaneStatus m) _ _).mono (by simp))

/-! ## The pattern checker (R244) -/

theorem prbsCheck_locked {pattern : Nat} {x : PrbsRx} (c e : Nat) (hl : x.locked = true) (he : x.errAt = []) :
    prbsCheck pattern (x, c, e) (prbsNext pattern x.hist) = ({ x with hist := prbsPush pattern x.hist (prbsNext pattern x.hist), pos := x.pos + 1, errAt := [] }, c + 1, e) := by
  simp [prbsCheck, hl, he, b2n]

/-- A locked checker counts every bit of its own pattern, and no error. -/
theorem prbsCheck_own (pattern k : Nat) (x : PrbsRx) (c e : Nat) (hl : x.locked = true) (he : x.errAt = []) :
    let r := (prbsBits pattern x.hist k).1.foldl (prbsCheck pattern) (x, c, e)
    r.1.locked = true ∧ r.2.1 = c + k ∧ r.2.2 = e := by
  induction k generalizing x c with
  | zero => exact ⟨hl, rfl, rfl⟩
  | succ k ih =>
    simp only [prbsBits, List.foldl_cons]
    rw [prbsCheck_locked c e hl he]
    obtain ⟨hlocked, hbits, herrs⟩ := ih { x with hist := prbsPush pattern x.hist (prbsNext pattern x.hist), pos := x.pos + 1, errAt := [] } (c + 1) hl rfl
    exact ⟨hlocked, hbits.trans (by omega), herrs⟩

/-- The registers of a lane's pattern checker. -/
abbrev prbsRegs (m : Nat) : List Nat := [Reg.trkPrbsRx m, Reg.trkPrbsErrLo m, Reg.trkPrbsErrLo m + 4, Reg.trkPrbsBitsLo m, Reg.trkPrbsBitsLo m + 4]

theorem prbsRegs_apart (m : Nat) : (∀ a ∈ prbsRegs m, Reg.trkGrpStatus (m / 8) ≠ a)
    ∧ (∀ a ∈ [Reg.trkPrbsErrLo m, Reg.trkPrbsErrLo m + 4], ∀ b ∈ [Reg.trkPrbsBitsLo m, Reg.trkPrbsBitsLo m + 4], a ≠ b ∧ a ≠ Reg.trkPrbsRx m ∧ b ≠ Reg.trkPrbsRx m) := by
  have hq : m / 8 / 18 = m / 144 := Nat.div_div_eq_div_mul ..
  simp only [prbsRegs, List.mem_cons, List.not_mem_nil, or_false, Reg.trkGrpStatus, Reg.trkPrbsRx, Reg.trkPrbsErrLo, Reg.trkPrbsBitsLo]
  constructor
  · omega
  · omega

theorem LinkWorks.bump48 {n a : Nat} {as : List Nat} {s t : State} (h : LinkWorks n as s t) (ha : a ∈ as ∧ a + 4 ∈ as)
    (hg : Reg.trkGrpStatus n ≠ a ∧ Reg.trkGrpStatus n ≠ a + 4) (k : Nat) : LinkWorks n as s (bump48 a k t) := (h.wr ha.1 hg.1 _).wr ha.2 hg.2 _

theorem get64_bump48 (a k : Nat) (s : State) : get64 (bump48 a k s) a = min (2 ^ 48 - 1) (get64 s a + k) := by
  rw [bump48, get64_put64, satAdd]
  exact Nat.mod_eq_of_lt (by omega)

theorem rd_bump48_ne {a b : Nat} (h : b ≠ a) (h4 : b ≠ a + 4) (k : Nat) (s : State) : rd (bump48 a k s) b = rd s b := rd_put64_ne h h4 ..

/-- The checker has taken its bits. -/
def prbsTaken (m : Nat) (r : PrbsRx × Nat × Nat) (s : State) : State :=
  putB (Reg.trkPrbsRx m) 8 r.1.locked (bump48 (Reg.trkPrbsBitsLo m) r.2.1 (bump48 (Reg.trkPrbsErrLo m) r.2.2 (putLane m { laneTrack s m with prbs := r.1 } s)))

theorem prbsReceive_on {m : Nat} (bits : List Bool) {s : State} (hc : getB s (Reg.trkPrbsRx m) 0 = true ∧ getB s (Reg.trkLinkCtrl (m / 8)) 6 = true)
    (h1 : laneLoop s m ≠ 1) (h2 : laneLoop s m ≠ 2) :
    prbsReceive m bits s = prbsTaken m (bits.foldl (prbsCheck (getF s (Reg.trkPrbsRx m) 1 2)) ((laneTrack s m).prbs, 0, 0)) s := by
  have hloop : ¬ ((laneLoop s m = 1 ∨ laneLoop s m = 2) ∧ getB s (Reg.trkTxCtrl m) 0 = true) := fun h => h.1.elim h1 h2
  simp only [prbsReceive, if_pos hc, if_neg hloop, prbsTaken]

theorem prbsTaken_spec (m : Nat) (r : PrbsRx × Nat × Nat) (s : State) : let t := prbsTaken m r s
    getB t (Reg.trkPrbsRx m) 8 = r.1.locked ∧ laneTrack t m = { laneTrack s m with prbs := r.1 }
      ∧ get64 t (Reg.trkPrbsErrLo m) = min (2 ^ 48 - 1) (get64 s (Reg.trkPrbsErrLo m) + r.2.2)
      ∧ get64 t (Reg.trkPrbsBitsLo m) = min (2 ^ 48 - 1) (get64 s (Reg.trkPrbsBitsLo m) + r.2.1) ∧ LinkWorks (m / 8) (prbsRegs m) s t := by
  obtain ⟨hg, hne⟩ := prbsRegs_apart m
  have hee := hne (Reg.trkPrbsErrLo m) (by simp) (Reg.trkPrbsBitsLo m) (by simp)
  have heb := hne (Reg.trkPrbsErrLo m) (by simp) (Reg.trkPrbsBitsLo m + 4) (by simp)
  have hbe := hne (Reg.trkPrbsErrLo m + 4) (by simp) (Reg.trkPrbsBitsLo m) (by simp)
  have hbb := hne (Reg.trkPrbsErrLo m + 4) (by simp) (Reg.trkPrbsBitsLo m + 4) (by simp)
  have hworks := ((((LinkWorks.refl (m / 8) (prbsRegs m) s).putLane rfl { laneTrack s m with prbs := r.1 }).bump48 (a := Reg.trkPrbsErrLo m) (by simp)
    ⟨hg _ (by simp), hg _ (by simp)⟩ r.2.2).bump48 (a := Reg.trkPrbsBitsLo m) (by simp) ⟨hg _ (by simp), hg _ (by simp)⟩ r.2.1).putB (a := Reg.trkPrbsRx m) (by simp) (hg _ (by simp)) 8 r.1.locked
  refine ⟨getB_putB_same _ _ _ (by decide), ?_, ?_, ?_, hworks⟩
  · rw [prbsTaken, laneTrack_putB, laneTrack_congr (s := putLane m { laneTrack s m with prbs := r.1 } s), laneTrack_putLane_same]
    rw [bump48, put64_trk, bump48, put64_trk]
  · rw [prbsTaken, get64_congr (rd_putB_ne hee.2.1 ..) (rd_putB_ne hbe.2.1 ..), get64_congr (rd_bump48_ne hee.1 heb.1 ..) (rd_bump48_ne hbe.1 hbb.1 ..), get64_bump48,
      get64_congr (rd_putLane ..) (rd_putLane ..)]
  · rw [prbsTaken, get64_congr (rd_putB_ne hee.2.2 ..) (rd_putB_ne heb.2.2 ..), get64_bump48,
      get64_congr (rd_bump48_ne hee.1.symm hbe.1.symm ..) (rd_bump48_ne heb.1.symm hbb.1.symm ..), get64_congr (rd_putLane ..) (rd_putLane ..)]

end Sys2Proof.Machine
end


section
/-! Claims sampled and frames sent (06_trunk_framing.md R258 to R267). -/

namespace Sys2Proof.Machine

/-! ## Claims (R265) -/

theorem claimOf_tick (dt : Nat) (s : State) : claimOf (tick dt s) = claimOf s := rfl

theorem claimSample_mirror (s : State) : let t := claimSample .mirror s
    getF t Reg.pairClaim 0 16 = claimOf s % 2 ^ 16 ∧ t.pair = { s.pair with claim := claimOf s } ∧ t = { s with regs := t.regs, pair := t.pair } ∧ RegsBut [Reg.pairClaim] s t := by
  exact ⟨getF_putF_same _ _ _ (by decide), rfl, rfl, fun a ha => rd_putF_ne (by simpa using ha) ..⟩

/-! ## The blocks of a frame (R255 to R261) -/

theorem scrambleAll_length (h : BitVec 58) (l : List (BitVec 64)) : (scrambleAll h l).1.length = l.length := by
  induction l generalizing h with
  | nil => rfl
  | cons v r ih => simp [scrambleAll, ih]

theorem carryData_length (units : List (List Nat)) (words : List (List (BitVec 40))) : (carryData units words).length = 254 := by
  simp [carryData, List.length_flatMap]

theorem txData_length (s : State) (n l : Nat) (words : List (Nat × List (BitVec 40))) : (txData s n l words).length = 254 := by
  simp only [txData]
  split
  · exact List.length_replicate ..
  · exact carryData_length ..

/-- Blocks with their sync headers. -/
theorem zipBlk_spec {syncs : List Nat} {ps : List (BitVec 64)} (h : syncs.length = ps.length) : let bs := (syncs.zip ps).map fun x => Blk.mk x.1 x.2
    bs.map Blk.sync = syncs ∧ bs.map Blk.payload = ps := by
  refine ⟨?_, ?_⟩
  · rw [List.map_map]
    exact List.map_fst_zip (Nat.le_of_eq h)
  · rw [List.map_map]
    exact List.map_snd_zip (Nat.le_of_eq h.symm)

/-! ## A lane's frame (R255 to R263) -/

/-- What a lane sends with a frame. -/
def laneSent (n hdr cnt : Nat) (words : List (Nat × List (BitVec 40))) (s : State) (l : Nat) (t : LaneTrack) : LaneTrack :=
  let data := txData s n l words
  let h := headBlocks cnt (nfld hdr 0 16) (nfld hdr 16 4) l (getF s (linkStA n) 4 2) (nfld hdr 22 3) (txMsg s n l) (t.txCrc.getD 0)
  let r := scrambleAll (t.scr.getD (Config.scramblerStart (8 * n + l))) (h.1 :: h.2 :: data)
  let sync := headSync :: headSync :: List.replicate 254 dataSync
  { t with scr := some r.2, txCrc := some (dcrc data), txPrev := t.tx.drop 2, tx := (sync.zip r.1).map fun x => Blk.mk x.1 x.2 }

section
variable {n hdr cnt l : Nat} {words : List (Nat × List (BitVec 40))} {s : State}

theorem laneSend_on (h : laneLoop s (8 * n + l) ≠ 3) (h6 : getB s (Reg.trkLinkCtrl n) 6 = false) :
    laneSend n hdr cnt words s l = putLane (8 * n + l) (laneSent n hdr cnt words s l (laneTrack s (8 * n + l))) s := by
  simp only [laneSend, laneSent]
  exact if_neg (by simp [h, h6])

theorem laneSend_cases (n hdr cnt l : Nat) (words : List (Nat × List (BitVec 40))) (s : State) :
    laneSend n hdr cnt words s l = s ∨ ∃ x, laneSend n hdr cnt words s l = putLane (8 * n + l) x s := by
  simp only [laneSend]
  split
  · exact .inl rfl
  · exact .inr ⟨_, rfl⟩

theorem laneSent_spec (t : LaneTrack) : let x := laneSent n hdr cnt words s l t
    let h := headBlocks cnt (nfld hdr 0 16) (nfld hdr 16 4) l (getF s (linkStA n) 4 2) (nfld hdr 22 3) (txMsg s n l) (t.txCrc.getD 0)
    x.tx.map Blk.sync = 1 :: 1 :: List.replicate 254 2
      ∧ x.tx.map Blk.payload = (scrambleAll (t.scr.getD (Config.scramblerStart (8 * n + l))) (h.1 :: h.2 :: txData s n l words)).1
      ∧ x.txCrc = some (dcrc (txData s n l words)) := by
  intro x h
  have hlen : (headSync :: headSync :: List.replicate 254 dataSync).length
      = (scrambleAll (t.scr.getD (Config.scramblerStart (8 * n + l))) (h.1 :: h.2 :: txData s n l words)).1.length := by
    rw [scrambleAll_length]
    simp only [List.length_cons, List.length_replicate, txData_length]
  obtain ⟨hsync, hpayload⟩ := zipBlk_spec hlen
  exact ⟨hsync, hpayload, rfl⟩

end

/-- The lanes of a link pair send. -/
def lanesSend (n hdr cnt : Nat) (words : List (Nat × List (BitVec 40))) (s : State) : State := (upto 0 8).foldl (laneSend n hdr cnt words) s

/-- Only the tracks of lanes have moved. -/
abbrev LanesOnly (s t : State) : Prop := ∃ L, t = { s with trk := { s.trk with lanes := L } }

theorem LanesOnly.putLane {s t : State} (h : LanesOnly s t) (m : Nat) (x : LaneTrack) : LanesOnly s (putLane m x t) := by
  obtain ⟨L, rfl⟩ := h
  exact ⟨_, rfl⟩

theorem LanesOnly.laneSend {s t : State} (h : LanesOnly s t) (n hdr cnt l : Nat) (words : List (Nat × List (BitVec 40))) : LanesOnly s (laneSend n hdr cnt words t l) := by
  rcases laneSend_cases n hdr cnt l words t with he | ⟨x, he⟩
  · rwa [he]
  · rw [he]
    exact h.putLane ..

theorem lanesSend_works (n hdr cnt : Nat) (words : List (Nat × List (BitVec 40))) (s : State) : let t := lanesSend n hdr cnt words s
    LanesOnly s t ∧ LinkWorks n [] s t := by
  refine foldl_keeps (P := fun t => LanesOnly s t ∧ LinkWorks n [] s t) ⟨⟨_, rfl⟩, .refl ..⟩ fun u l hl ⟨h1, h2⟩ => ⟨h1.laneSend .., ?_⟩
  rcases laneSend_cases n hdr cnt l words u with he | ⟨x, he⟩
  · rwa [he]
  · rw [he]
    refine h2.putLane ?_ x
    have := upto_mem.1 hl
    omega

theorem laneSent_congr {n hdr cnt l : Nat} {words : List (Nat × List (BitVec 40))} {s t : State} (h : LanesOnly s t) :
    laneSent n hdr cnt words t l = laneSent n hdr cnt words s l := by
  obtain ⟨L, rfl⟩ := h
  rfl

theorem lanesSend_lane {n : Nat} (hdr cnt : Nat) (words : List (Nat × List (BitVec 40))) {s : State} {l : Nat} (hl : l < 8) (h6 : getB s (Reg.trkLinkCtrl n) 6 = false) :
    laneTrack (lanesSend n hdr cnt words s) (8 * n + l) = laneSent n hdr cnt words s l (laneTrack s (8 * n + l)) := by
  have hctrl : ∀ u, LanesOnly s u → getB u (Reg.trkLinkCtrl n) 6 = false := by
    rintro u ⟨L, rfl⟩
    exact h6
  have hloop : ∀ u, LanesOnly s u → ∀ k, k ∈ upto 0 8 → laneLoop u (8 * n + k) ≠ 3 := fun u hu k hk => by
    have hk8 : k < 8 := by
      have := upto_mem.1 hk
      omega
    rw [laneLoop, laneOf_link hk8, hctrl u hu]
    simp
  have hsend : ∀ u, ∀ k ∈ upto 0 8, LanesOnly s u → laneSend n hdr cnt words u k = putLane (8 * n + k) (laneSent n hdr cnt words s k (laneTrack u (8 * n + k))) u :=
    fun u k hk hu => by rw [laneSend_on (hloop u hu k hk) (hctrl u hu), laneSent_congr hu]
  refine foldl_eachOf (f := laneSend n hdr cnt words) (proj := fun k u => laneTrack u (8 * n + k)) (g := fun k t => laneSent n hdr cnt words s k t) (LanesOnly s)
    (upto_nodup 0 8) (fun u k _ hu => hu.laneSend ..) (fun u k hk hu => ?_) (fun u k hk j _ hj hu => ?_) ⟨_, rfl⟩ l (upto_mem.2 (by omega))
  · rw [hsend u k hk hu, laneTrack_putLane_same]
  · rw [hsend u k hk hu, laneTrack_putLane_ne (by omega)]

end Sys2Proof.Machine
end


section
/-! A frame of an output trunk starts (06_trunk_framing.md R263 to R267). -/

namespace Sys2Proof.Machine

/-- A frame of a trunk is not due: the link pair is idle, its output island runs on keep-alive, or no frame starts now. -/
abbrev FrameWaits (s : State) (n : Nat) : Prop :=
  (linkPhase s n = 0 ∧ modeNow s ≠ 6) ∨ keepAlive s (23 * (n / 18) + 18) = true ∨ frameStarts (getF s (linkStA n) 4 2) s.now = false

/-- The header fields of a trunk's frame, as its register shows them. -/
def frameHdr (s : State) (n : Nat) : Nat :=
  (if txState s n = 2 then (linkTrack s n).claim else 0) + getF s Reg.refStatus 8 4 * 65536 + txState s n * 2 ^ 22
    + b2n (((trunkEntry? s n 1).map fun e => nbit e.w6 0).getD false) * 2 ^ 25

/-- The number of the frame that starts now. -/
def frameCnt (s : State) (n : Nat) : Nat := frameAt (getF s (linkStA n) 4 2) s.now % 2 ^ 48

/-- The link pair's track once its frame has started. -/
def sentTrack (s : State) (n : Nat) : LinkTrack := { linkTrack s n with sent := min 16 ((linkTrack s n).sent + 1), txCnt := some (frameCnt s n) }

/-- Header and lanes of a frame that starts. -/
def frameSent (n : Nat) (words : List (Nat × List (BitVec 40))) (s : State) : State :=
  putLink n (sentTrack s n) (lanesSend n (frameHdr s n) (frameCnt s n) words (wr (Reg.trkTxHdr n) (BitVec.ofNat 32 (frameHdr s n)) s))

theorem frameSend_waits {n : Nat} (words : List (Nat × List (BitVec 40))) {s : State} (h : FrameWaits s n) : frameSend n words s = s := if_pos h

theorem mbxTransmit_empty {n : Nat} {s : State} (h : (linkTrack s n).txq = []) : mbxTransmit n s = s := by simp only [mbxTransmit, h]

theorem frameSend_starts {n : Nat} (words : List (Nat × List (BitVec 40))) {s : State} (h : ¬ FrameWaits s n) (hq : (linkTrack s n).txq = []) :
    frameSend n words s = frameSent n words s := by
  have he : frameSend n words s = if linkRun (frameSent n words s) n = true then mbxTransmit n (frameSent n words s) else frameSent n words s := if_neg h
  rw [he, mbxTransmit_empty, ite_self]
  rw [frameSent, linkTrack_putLink_same, sentTrack, hq]

theorem txState_lt (s : State) (n : Nat) : txState s n < 3 := by
  simp only [txState]
  split_ifs <;> decide

/-- The fields of the header. -/
theorem frameHdr_fields {s : State} {n : Nat} (hc : (linkTrack s n).claim < 2 ^ 16) : let cl := if txState s n = 2 then (linkTrack s n).claim else 0
    let ql := getF s Reg.refStatus 8 4
    (frameHdr s n < 2 ^ 32 ∧ nfld (frameHdr s n) 0 16 = cl) ∧ nfld (frameHdr s n) 16 4 = ql ∧ nfld (frameHdr s n) 22 3 = txState s n := by
  intro cl ql
  have hcl : cl < 2 ^ 16 := by
    simp only [cl]
    split
    · exact hc
    · decide
  have hql : ql < 2 ^ 4 := fld_lt ..
  have hst := txState_lt s n
  have htie : b2n (((trunkEntry? s n 1).map fun e => nbit e.w6 0).getD false) ≤ 1 := by
    unfold b2n
    split <;> decide
  have he : frameHdr s n = cl + ql * 65536 + txState s n * 2 ^ 22 + b2n (((trunkEntry? s n 1).map fun e => nbit e.w6 0).getD false) * 2 ^ 25 := rfl
  rw [he]
  generalize b2n (((trunkEntry? s n 1).map fun e => nbit e.w6 0).getD false) = tie at *
  generalize txState s n = st at *
  simp only [nfld]
  omega

/-- A frame has started: the header shows the sampled claim, QL and the trunk state, and each lane has sent its blocks. -/
structure FrameStarted (n : Nat) (words : List (Nat × List (BitVec 40))) (s t : State) : Prop where
  claim : getF t (Reg.trkTxHdr n) 0 16 = if txState s n = 2 then (linkTrack s n).claim else 0
  ql : getF t (Reg.trkTxHdr n) 16 4 = getF s Reg.refStatus 8 4
  state : getF t (Reg.trkTxHdr n) 22 3 = txState s n
  sent : (linkTrack t n).sent = min 16 ((linkTrack s n).sent + 1)
  txCnt : (linkTrack t n).txCnt = some (frameCnt s n)
  lanes : getB s (Reg.trkLinkCtrl n) 6 = false → ∀ l, l < 8 → laneTrack t (8 * n + l) = laneSent n (frameHdr s n) (frameCnt s n) words s l (laneTrack s (8 * n + l))
  works : LinkWorks n [Reg.trkTxHdr n] s t

theorem trkTxHdr_apart {n : Nat} (hn : n < 72) : Reg.trkGrpStatus n ≠ Reg.trkTxHdr n ∧ linkStA n ≠ Reg.trkTxHdr n ∧ linkMsgA n ≠ Reg.trkTxHdr n ∧ Reg.trkLinkCtrl n ≠ Reg.trkTxHdr n
    ∧ Reg.planState ≠ Reg.trkTxHdr n := by
  have hne : n ≠ 72 := by omega
  simp only [linkStA, linkMsgA, if_neg hne, Reg.trkGrpStatus, Reg.trkTxHdr, Reg.trkLinkStatus, Reg.trkLinkMsg, Reg.trkLinkCtrl, Reg.planState]
  omega

/-- What a lane sends does not rest on the header register. -/
theorem laneSent_wr {n : Nat} (hn : n < 72) (hdr cnt : Nat) (words : List (Nat × List (BitVec 40))) (v : Word) (s : State) (l : Nat) :
    laneSent n hdr cnt words (wr (Reg.trkTxHdr n) v s) l = laneSent n hdr cnt words s l := by
  obtain ⟨-, ha, hm, hc, hp⟩ := trkTxHdr_apart hn
  have hmode : modeNow (wr (Reg.trkTxHdr n) v s) = modeNow s := modeNow_congr (rd_wr_ne hp ..)
  have hrun : linkRun (wr (Reg.trkTxHdr n) v s) n = linkRun s n := linkRun_congr (rd_wr_ne ha ..)
  have hphase : linkPhase (wr (Reg.trkTxHdr n) v s) n = linkPhase s n := getF_wr_ne ha ..
  have hcarries : carries (wr (Reg.trkTxHdr n) v s) n = carries s n := by rw [carries, hrun, getB_wr_ne ha, carries]
  have hstate : txState (wr (Reg.trkTxHdr n) v s) n = txState s n := by simp only [txState, hmode, hphase]
  have hstreams : laneStreams (wr (Reg.trkTxHdr n) v s) n 1 l = laneStreams s n 1 l := rfl
  have hport : ∀ e, streamPort (wr (Reg.trkTxHdr n) v s) n e = streamPort s n e := fun e => by simp only [streamPort, hmode]
  have hdata : txData (wr (Reg.trkTxHdr n) v s) n l words = txData s n l words := by simp only [txData, hstate, hcarries, hstreams, hport]
  have hmsg : txMsg (wr (Reg.trkTxHdr n) v s) n l = txMsg s n l := by
    simp only [txMsg, linkMaxStep_congr (rd_wr_ne hc v s), hmode, hrun, getF_wr_ne hm, getF_wr_ne ha, linkTrack_wr]
  funext t
  simp only [laneSent, hdata, hmsg, getF_wr_ne ha]

theorem frameStarted {n : Nat} (hn : n < 72) (words : List (Nat × List (BitVec 40))) {s : State} (h : ¬ FrameWaits s n) (hq : (linkTrack s n).txq = [])
    (hc : (linkTrack s n).claim < 2 ^ 16) : FrameStarted n words s (frameSend n words s) := by
  obtain ⟨⟨hlt, hcl⟩, hql, hst⟩ := frameHdr_fields hc
  obtain ⟨hg, -, -, hctrl, -⟩ := trkTxHdr_apart hn
  rw [frameSend_starts words h hq, frameSent]
  obtain ⟨u, hu⟩ : ∃ u, wr (Reg.trkTxHdr n) (BitVec.ofNat 32 (frameHdr s n)) s = u := ⟨_, rfl⟩
  have hworks : LinkWorks n [Reg.trkTxHdr n] s u := by
    rw [← hu]
    exact (LinkWorks.refl ..).wr (by simp) hg _
  have hrd : rd u (Reg.trkTxHdr n) = BitVec.ofNat 32 (frameHdr s n) := by rw [← hu, rd_wr_same]
  have hfield : ∀ lo k, getF u (Reg.trkTxHdr n) lo k = nfld (frameHdr s n) lo k := fun lo k => by
    rw [getF, hrd, fld, BitVec.toNat_ofNat, Nat.mod_eq_of_lt hlt, nfld]
  have hsent : ∀ l, laneSent n (frameHdr s n) (frameCnt s n) words u l = laneSent n (frameHdr s n) (frameCnt s n) words s l := fun l => by
    rw [← hu, laneSent_wr hn]
  have hlane : ∀ m, laneTrack u m = laneTrack s m := fun m => by rw [← hu, laneTrack_wr]
  have h6u : getB u (Reg.trkLinkCtrl n) 6 = getB s (Reg.trkLinkCtrl n) 6 := by rw [← hu, getB_wr_ne hctrl]
  obtain ⟨⟨L, hL⟩, hlanes⟩ := lanesSend_works n (frameHdr s n) (frameCnt s n) words u
  have hregs : (lanesSend n (frameHdr s n) (frameCnt s n) words u).regs = u.regs := by rw [hL]
  rw [hu]
  refine ⟨?_, ?_, ?_, ?_, ?_, fun h6 l hl => ?_, (hworks.trans (hlanes.mono (List.nil_subset _))).putLink _⟩
  · rw [getF_putLink, getF_congr hregs, hfield, hcl]
  · rw [getF_putLink, getF_congr hregs, hfield, hql]
  · rw [getF_putLink, getF_congr hregs, hfield, hst]
  · rw [linkTrack_putLink_same, sentTrack]
  · rw [linkTrack_putLink_same, sentTrack]
  · rw [laneTrack_putLink, lanesSend_lane _ _ _ hl (h6u.trans h6), hsent, hlane]

end Sys2Proof.Machine
end


section
/-! A protection group works at the release of a frame (06_trunk_framing.md R280 to R286): what its steps move. -/

namespace Sys2Proof.Machine

/-! ## Work of a group -/

/-- Work on a group at its member A: the link pair's own marks, registers, events and receive buffers move; every lane's track and the frame released stay. -/
structure GroupWorks (n : Nat) (as : List Nat) (s t : State) : Prop where
  moves : LinkMoves n as s t
  lanes : ∀ m, laneTrack t m = laneTrack s m
  released : (linkTrack t n).released = (linkTrack s n).released

/-- The time that the release takes to come passes before its work, and the receive buffers are told apart. -/
theorem LinkMoves.linkOnly {n dt : Nat} {as : List Nat} {s t : State} (h : LinkMoves n as (tick dt s) t) :
    LinkOnly n as dt s { t with trk := { t.trk with streams := s.trk.streams } } :=
  ⟨by rw [h.frame], h.regs, rfl, h.timers, h.links, h.lanes⟩

namespace GroupWorks

variable {n : Nat} {as : List Nat} {s t u : State}

theorem refl (n : Nat) (as : List Nat) (s : State) : GroupWorks n as s s := ⟨.refl .., fun _ => rfl, rfl⟩

theorem trans (h1 : GroupWorks n as s u) (h2 : GroupWorks n as u t) : GroupWorks n as s t :=
  ⟨h1.moves.trans h2.moves, fun m => (h2.lanes m).trans (h1.lanes m), h2.released.trans h1.released⟩

theorem mono {bs : List Nat} (h : GroupWorks n as s t) (hs : as ⊆ bs) : GroupWorks n bs s t := ⟨h.moves.mono hs, h.lanes, h.released⟩

theorem plan (h : GroupWorks n as s t) : t.plan = s.plan := h.moves.plan_eq

theorem ite {c : Prop} [Decidable c] (h1 : GroupWorks n as s t) (h2 : GroupWorks n as s u) : GroupWorks n as s (if c then t else u) := by
  split
  · exact h1
  · exact h2

theorem of_works (h : LinkWorks n as s t) (ht : t.trk = s.trk) : GroupWorks n as s t := ⟨h.moves, laneTrack_congr ht, by rw [linkTrack_congr ht]⟩

theorem bump {a : Nat} (h : GroupWorks n as s t) (ha : a ∈ as) (hg : Reg.trkGrpStatus n ≠ a) (lo k j : Nat) : GroupWorks n as s (bump a lo k j t) :=
  h.trans (.of_works ((LinkWorks.refl ..).bump ha hg lo k j) (bump_trk ..))

/-- Fields of `TRK_GRP_STATUS` above those that name a group's members. -/
theorem putF {a lo k : Nat} (h : GroupWorks n as s t) (ha : a ∈ as) (hlo : 8 ≤ lo) (hk : lo + k ≤ 32) (v : Nat) : GroupWorks n as s (putF a lo k v t) :=
  h.trans ⟨⟨rfl, (regsBut_wr a _ t).mono (by simpa using ha), groupHead_putF hlo hk, fun _ _ => rfl, fun _ _ _ => rfl, fun _ _ => rfl⟩, fun _ => rfl, rfl⟩

theorem putB {a b : Nat} (h : GroupWorks n as s t) (ha : a ∈ as) (hb : 8 ≤ b ∧ b < 32) (v : Bool) : GroupWorks n as s (putB a b v t) := by
  refine h.trans ⟨⟨rfl, (regsBut_wr a _ t).mono (by simpa using ha), ?_, fun _ _ => rfl, fun _ _ _ => rfl, fun _ _ => rfl⟩, fun _ => rfl, rfl⟩
  by_cases he : Reg.trkGrpStatus n = a
  · subst he
    simp only [groupHead, getB_putB_bit _ _ _ hb.2 (show 5 ≠ b by omega), getB_putB_bit _ _ _ hb.2 (show 6 ≠ b by omega), getF_putB_fld _ _ _ hb.2 (.inl (show 0 + 5 ≤ b by omega))]
  · exact groupHead_congr (rd_putB_ne he ..)

theorem groupEvent (h : GroupWorks n as s t) (kind b : Nat) : GroupWorks n as s (groupEvent n kind b t) := by
  refine h.trans ?_
  simp only [Machine.groupEvent]
  refine (GroupWorks.refl ..).ite ⟨(((LinkWorks.refl n as t).putLink _).raise ..).moves, fun m => ?_, ?_⟩
  · rw [raiseFlag, laneTrack_raise, laneTrack_putLink]
  · rw [raiseFlag, linkTrack_raise, linkTrack_putLink_same]

theorem streams (h : GroupWorks n as s t) (x : Tab StreamBuf) : GroupWorks n as s { t with trk := { t.trk with streams := x } } :=
  h.trans ⟨⟨rfl, fun _ _ => rfl, rfl, fun _ _ => rfl, fun _ _ _ => rfl, fun _ _ => rfl⟩, fun _ => rfl, rfl⟩

end GroupWorks

theorem rd_groupEvent (n kind b : Nat) (s : State) (a : Nat) : rd (groupEvent n kind b s) a = rd s a := by
  simp only [groupEvent]
  split
  · rfl
  · rw [raiseFlag, rd_raise, rd_putLink]

/-! ## The registers of a group -/

/-- The registers that a release moves: those of the group at A, with B's mark of a late frame, and the counts of both members' lanes. -/
abbrev groupRegs (n p : Nat) : List Nat := [Reg.trkGrpStatus n, Reg.trkGrpStatus p, Reg.trkGrpCnt n]
  ++ (List.range 8).flatMap fun l => [Reg.trkLaneMaperr (8 * n + l), Reg.trkLaneMaperr (8 * p + l)]

theorem maperr_mem {n p l : Nat} (hl : l < 8) : Reg.trkLaneMaperr (8 * n + l) ∈ groupRegs n p ∧ Reg.trkLaneMaperr (8 * p + l) ∈ groupRegs n p := by
  have key : ∀ a ∈ [Reg.trkLaneMaperr (8 * n + l), Reg.trkLaneMaperr (8 * p + l)], a ∈ groupRegs n p := fun a ha =>
    List.mem_append_right _ (List.mem_flatMap.2 ⟨l, List.mem_range.2 hl, ha⟩)
  exact ⟨key _ (by simp), key _ (by simp)⟩

theorem maperr_apart (m x : Nat) : Reg.trkGrpStatus x ≠ Reg.trkLaneMaperr m ∧ Reg.trkGrpCnt x ≠ Reg.trkLaneMaperr m := by
  simp only [Reg.trkGrpStatus, Reg.trkGrpCnt, Reg.trkLaneMaperr]
  omega

theorem grpCnt_apart (x y : Nat) : Reg.trkGrpStatus x ≠ Reg.trkGrpCnt y := by
  simp only [Reg.trkGrpStatus, Reg.trkGrpCnt]
  omega

theorem grpStatus_ne {x y : Nat} (h : x ≠ y) : Reg.trkGrpStatus x ≠ Reg.trkGrpStatus y := by
  simp only [Reg.trkGrpStatus]
  omega

/-- A register of the link pairs' status, or of the plan, is none of the group's. -/
theorem groupRegs_apart {n p x : Nat} : linkStA x ∉ groupRegs n p ∧ Reg.planState ∉ groupRegs n p := by
  have hsta : ∀ m y, linkStA x ≠ Reg.trkLaneMaperr m ∧ linkStA x ≠ Reg.trkGrpStatus y ∧ linkStA x ≠ Reg.trkGrpCnt y := by
    intro m y
    simp only [linkStA, Reg.mirLinkStatus, Reg.trkLinkStatus, Reg.trkLaneMaperr, Reg.trkGrpStatus, Reg.trkGrpCnt]
    split
    · omega
    · omega
  have hplan : ∀ m y, Reg.planState ≠ Reg.trkLaneMaperr m ∧ Reg.planState ≠ Reg.trkGrpStatus y ∧ Reg.planState ≠ Reg.trkGrpCnt y := by
    intro m y
    simp only [Reg.planState, Reg.trkLaneMaperr, Reg.trkGrpStatus, Reg.trkGrpCnt]
    omega
  constructor
  · simp only [groupRegs, List.mem_append, List.mem_cons, List.not_mem_nil, or_false, List.mem_flatMap, not_or, not_exists]
    exact ⟨⟨(hsta 0 n).2.1, (hsta 0 p).2.1, (hsta 0 n).2.2⟩, fun l => by
      rintro ⟨-, h | h⟩
      · exact (hsta _ 0).1 h
      · exact (hsta _ 0).1 h⟩
  · simp only [groupRegs, List.mem_append, List.mem_cons, List.not_mem_nil, or_false, List.mem_flatMap, not_or, not_exists]
    exact ⟨⟨(hplan 0 n).2.1, (hplan 0 p).2.1, (hplan 0 n).2.2⟩, fun l => by
      rintro ⟨-, h | h⟩
      · exact (hplan _ 0).1 h
      · exact (hplan _ 0).1 h⟩

/-! ## Counts and marks of a lane (R282, R283, R286) -/

section
variable {n p l : Nat} (hl : l < 8) {s t : State}

/-- Work that leaves the choice between the members, and its counts, alone. -/
structure GroupMarks (n p : Nat) (s t : State) : Prop where
  works : GroupWorks n (groupRegs n p) s t
  current : ∀ j, j < 8 → getB t (Reg.trkGrpStatus n) (8 + j) = getB s (Reg.trkGrpStatus n) (8 + j)
  count : rd t (Reg.trkGrpCnt n) = rd s (Reg.trkGrpCnt n)
  streams : t.trk.streams = s.trk.streams

theorem GroupMarks.refl (n p : Nat) (s : State) : GroupMarks n p s s := ⟨.refl .., fun _ _ => rfl, rfl, rfl⟩

theorem GroupMarks.trans {u : State} (h1 : GroupMarks n p s u) (h2 : GroupMarks n p u t) : GroupMarks n p s t :=
  ⟨h1.works.trans h2.works, fun j hj => (h2.current j hj).trans (h1.current j hj), h2.count.trans h1.count, h2.streams.trans h1.streams⟩

theorem GroupMarks.ite {c : Prop} [Decidable c] {u : State} (h1 : GroupMarks n p s t) (h2 : GroupMarks n p s u) : GroupMarks n p s (if c then t else u) := by
  split
  · exact h1
  · exact h2

theorem GroupMarks.bumpMap {m : Nat} (h : GroupMarks n p s t) (hm : Reg.trkLaneMaperr m ∈ groupRegs n p) (lo : Nat) :
    GroupMarks n p s (bump (Reg.trkLaneMaperr m) lo 16 1 t) := by
  obtain ⟨hst, hcnt⟩ := maperr_apart m n
  exact h.trans ⟨(GroupWorks.refl ..).bump hm hst lo 16 1, fun j _ => getB_bump_ne hst .., rd_bump_ne hcnt .., by rw [bump_trk]⟩

theorem streams_raise (src inst type : Nat) (d0 d1 d2 : Word) (s : State) : (raise src inst type d0 d1 d2 s).trk.streams = s.trk.streams := by rw [raise_trk]

theorem GroupMarks.event (h : GroupMarks n p s t) (kind b : Nat) : GroupMarks n p s (groupEvent n kind b t) := by
  refine h.trans ⟨(GroupWorks.refl ..).groupEvent kind b, fun j _ => by rw [getB, rd_groupEvent, ← getB], rd_groupEvent .., ?_⟩
  simp only [groupEvent]
  split
  · rfl
  · rw [raiseFlag, raise_trk, putLink]

theorem GroupMarks.mark {x b : Nat} (h : GroupMarks n p s t) (hx : x = n ∨ x = p) (hb : 24 ≤ b ∧ b < 32) : GroupMarks n p s (putB (Reg.trkGrpStatus x) b true t) := by
  refine h.trans ⟨(GroupWorks.refl ..).putB ?_ (by omega) true, fun j hj => ?_, rd_putB_ne (grpCnt_apart x n).symm .., by rw [putB_trk]⟩
  · rcases hx with rfl | rfl <;> simp
  · by_cases he : n = x
    · subst he
      exact getB_putB_bit _ _ _ hb.2 (by omega)
    · exact getB_putB_ne (grpStatus_ne he) ..

theorem GroupMarks.late {x : Nat} (h : GroupMarks n p s t) (hx : x = n ∨ x = p) (f : Option RxFrame) : GroupMarks n p s (laneLate n x f t) :=
  h.ite ((h.mark hx (by decide)).event ..)

theorem GroupMarks.mapCount {m : Nat} (h : GroupMarks n p s t) (hm : Reg.trkLaneMaperr m ∈ groupRegs n p) (units : List (List Nat)) (f : Option RxFrame) :
    GroupMarks n p s (laneMapCount m units f t) := by
  unfold laneMapCount
  cases f with
  | none => exact h
  | some f =>
    have hunit := h.ite (c := dataAt f.data 250 = unitMap units) (h.bumpMap hm 0)
    exact (hunit.ite (hunit.bumpMap hm 16)).ite h

end

end Sys2Proof.Machine
end


section
/-! The streams of a lane leave their receive buffers at a release (06_trunk_framing.md R276, R284). -/

namespace Sys2Proof.Machine

/-! ## One step of many -/

/-- What one step of many brings about, where the steps before it keep what it needs and the steps after it keep what it did. -/
theorem foldl_once {α : Type} {f : State → α → State} {ms : List α} {m : α} (Inv Needs P : State → Prop) (hnd : ms.Nodup)
    (hinv : ∀ u, ∀ k ∈ ms, Inv u → Inv (f u k)) (hneeds : ∀ u, ∀ k ∈ ms, k ≠ m → Inv u → Needs u → Needs (f u k))
    (hset : ∀ u, Inv u → Needs u → P (f u m)) (hkeep : ∀ u, ∀ k ∈ ms, k ≠ m → Inv u → P u → P (f u k))
    (hm : m ∈ ms) {s : State} (hs : Inv s) (hn : Needs s) : P (ms.foldl f s) := by
  obtain ⟨xs, ys, rfl⟩ := List.append_of_mem hm
  have hx : ∀ k ∈ xs, k ≠ m := fun k hk e => (List.nodup_append.1 hnd).2.2 k hk m List.mem_cons_self e
  have hy : ∀ k ∈ ys, k ≠ m := fun k hk e => (List.nodup_cons.1 (List.nodup_append.1 hnd).2.1).1 (e ▸ hk)
  have hbefore : Inv (xs.foldl f s) ∧ Needs (xs.foldl f s) := foldl_keeps (P := fun u => Inv u ∧ Needs u) ⟨hs, hn⟩ fun u k hk h =>
    ⟨hinv u k (by simp [hk]) h.1, hneeds u k (by simp [hk]) (hx k hk) h.1 h.2⟩
  rw [List.foldl_append, List.foldl_cons]
  exact (foldl_keeps (P := fun u => Inv u ∧ P u) ⟨hinv _ m (by simp) hbefore.1, hset _ hbefore.1 hbefore.2⟩ fun u k hk h =>
    ⟨hinv u k (by simp [hk]) h.1, hkeep u k (by simp [hk]) (hy k hk) h.1 h.2⟩).2

/-- A saturating count of the steps that meet a condition. -/
theorem foldl_count {α : Type} {f : State → α → State} {cnt : State → Nat} {c : α → Bool} {M : Nat} {ms : List α} (Inv : State → Prop) (Needs : α → State → Prop)
    (hinv : ∀ u, ∀ k ∈ ms, Inv u → Inv (f u k)) (hneeds : ∀ u, ∀ k ∈ ms, ∀ j ∈ ms, j ≠ k → Inv u → Needs j u → Needs j (f u k))
    (hcnt : ∀ u, ∀ k ∈ ms, Inv u → Needs k u → cnt (f u k) = min M (cnt u + b2n (c k))) (hnd : ms.Nodup) {s : State}
    (hs : Inv s) (hn : ∀ k ∈ ms, Needs k s) (hM : cnt s ≤ M) : cnt (ms.foldl f s) = min M (cnt s + (ms.filter c).length) := by
  induction ms generalizing s with
  | nil => exact (Nat.min_eq_right hM).symm
  | cons x xs ih =>
    obtain ⟨hx, hxs⟩ := List.nodup_cons.1 hnd
    have hin : ∀ k ∈ xs, k ∈ x :: xs := fun k => List.mem_cons_of_mem _
    have hstep := hcnt s x List.mem_cons_self hs (hn x List.mem_cons_self)
    have hrest := ih (fun u k hk => hinv u k (hin k hk)) (fun u k hk j hj => hneeds u k (hin k hk) j (hin j hj)) (fun u k hk => hcnt u k (hin k hk)) hxs
      (hinv s x List.mem_cons_self hs) (fun k hk => hneeds s x List.mem_cons_self k (hin k hk) (fun e => hx (e ▸ hk)) hs (hn k (hin k hk))) (by omega)
    rw [List.foldl_cons, hrest, hstep, List.filter_cons]
    cases hc : c x with
    | true =>
      simp only [if_true, List.length_cons, b2n]
      omega
    | false =>
      simp only [Bool.false_eq_true, if_false, b2n]
      omega

/-! ## What the release reads of the plan -/

/-- The committed plan and the mode stay. -/
structure PlanStays (s u : State) : Prop where
  plan : u.plan = s.plan
  mode : rd u Reg.planState = rd s Reg.planState

theorem PlanStays.refl (s : State) : PlanStays s s := ⟨rfl, rfl⟩

theorem PlanStays.trans {s u t : State} (h1 : PlanStays s u) (h2 : PlanStays u t) : PlanStays s t := ⟨h2.plan.trans h1.plan, h2.mode.trans h1.mode⟩

variable {s u t : State} {n : Nat}

theorem PlanStays.laneStreams (h : PlanStays s u) (dir l : Nat) : laneStreams u n dir l = laneStreams s n dir l := by
  simp only [Machine.laneStreams, h.plan]

theorem PlanStays.streamPort (h : PlanStays s u) (e : TrunkEntry) : streamPort u n e = streamPort s n e := by
  simp only [Machine.streamPort, modeNow_congr h.mode]

theorem PlanStays.inCfg (h : PlanStays s u) (x : Nat) : inCfg? u x = inCfg? s x := inCfg?_congr h.plan x

/-! ## The receive buffers -/

/-- The receive buffers move, and nothing else. -/
abbrev StreamsOnly (s t : State) : Prop := ∃ x, t = { s with trk := { s.trk with streams := x } }

theorem StreamsOnly.planStays (h : StreamsOnly s t) : PlanStays s t := by
  obtain ⟨x, rfl⟩ := h
  exact ⟨rfl, rfl⟩

theorem StreamsOnly.groupWorks {as : List Nat} (h : StreamsOnly s t) : GroupWorks n as s t := by
  obtain ⟨x, rfl⟩ := h
  exact (GroupWorks.refl n as s).streams x

/-- The port's receive buffer holds these words, or is marked invalid. -/
def Holds (port : Nat) (words : Option (List (BitVec 40))) (t : State) : Prop :=
  ∃ b, tabFind port t.trk.streams = some b ∧ b.valid = words.isSome ∧ b.words = words.getD []

theorem streamRelease_holds (step k : Nat) (words : Option (List (BitVec 40))) (s : State) (e : Nat × PortFmt) : Holds e.1 words (streamRelease step k words s e) :=
  ⟨_, tabFind_put_same .., rfl, rfl⟩

theorem streamRelease_other {port : Nat} {e : Nat × PortFmt} (h : port ≠ e.1) (step k : Nat) (words : Option (List (BitVec 40))) (s : State) :
    tabFind port (streamRelease step k words s e).trk.streams = tabFind port s.trk.streams := tabFind_put_ne h ..

/-- The streams of a lane with their indices. -/
def laneEntries (s : State) (n l : Nat) : List (Nat × TrunkEntry) := (upto 0 (laneStreams s n 0 l).length).zip (laneStreams s n 0 l)

theorem laneEntries_nodup (s : State) (n l : Nat) : (laneEntries s n l).Nodup :=
  List.Nodup.of_map Prod.fst (by
    rw [laneEntries, List.map_fst_zip (by simp)]
    exact upto_nodup ..)

theorem upto_getElem? (a k i : Nat) : (upto a k)[i]? = if i < k then some (a + i) else none := by
  induction k generalizing a i with
  | zero => rfl
  | succ k ih =>
    cases i with
    | zero => simp [upto]
    | succ i =>
      rw [upto, List.getElem?_cons_succ, ih]
      simp only [Nat.add_lt_add_iff_right, Nat.add_assoc, Nat.add_comm 1 i]

theorem mem_laneEntries {l : Nat} {x : Nat × TrunkEntry} : x ∈ laneEntries s n l ↔ nth? (laneStreams s n 0 l) x.1 = some x.2 := by
  obtain ⟨i, e⟩ := x
  simp only [laneEntries, List.mem_iff_getElem?, List.getElem?_zip_eq_some, upto_getElem?, Nat.zero_add, nth?_eq]
  constructor
  · rintro ⟨j, hj, he⟩
    split at hj
    · cases hj
      exact he
    · cases hj
  · intro he
    obtain ⟨hi, -⟩ := List.getElem?_eq_some_iff.1 he
    exact ⟨i, if_pos hi, he⟩

/-- One stream of a lane leaves its receive buffer. -/
def entryRelease (n step k : Nat) (units : List (List Nat)) (f : Option RxFrame) (s : State) (x : Nat × TrunkEntry) : State :=
  match inCfg? s (streamPort s n x.2) with
  | some c => streamRelease step k (f.map fun f => streamWords f.data units x.1) s (streamPort s n x.2, c.fmt)
  | none => s

theorem laneRelease_eq (n l step k : Nat) (f : Option RxFrame) (s : State) :
    laneRelease n l step k f s = (laneEntries s n l).foldl (entryRelease n step k ((laneStreams s n 0 l).map fun e => unitBits e.w6) f) s := rfl

section
variable (step k : Nat) (units : List (List Nat)) (f : Option RxFrame) (x : Nat × TrunkEntry)

theorem entryRelease_only : StreamsOnly u (entryRelease n step k units f u x) := by
  unfold entryRelease
  split
  · exact ⟨_, rfl⟩
  · exact ⟨_, rfl⟩

theorem entryRelease_other {port : Nat} (h : streamPort u n x.2 ≠ port) : tabFind port (entryRelease n step k units f u x).trk.streams = tabFind port u.trk.streams := by
  unfold entryRelease
  split
  · exact streamRelease_other h.symm ..
  · rfl

theorem entryRelease_holds {c : InCfg} (h : inCfg? u (streamPort u n x.2) = some c) :
    Holds (streamPort u n x.2) (f.map fun f => streamWords f.data units x.1) (entryRelease n step k units f u x) := by
  unfold entryRelease
  rw [h]
  exact streamRelease_holds step k _ u (streamPort u n x.2, c.fmt)

end

theorem StreamsOnly.trans (h1 : StreamsOnly s u) (h2 : StreamsOnly u t) : StreamsOnly s t := by
  obtain ⟨x, rfl⟩ := h1
  obtain ⟨y, rfl⟩ := h2
  exact ⟨y, rfl⟩

theorem laneRelease_only (n l step k : Nat) (f : Option RxFrame) (s : State) : StreamsOnly s (laneRelease n l step k f s) := by
  rw [laneRelease_eq]
  exact foldl_keeps (P := StreamsOnly s) ⟨_, rfl⟩ fun u x _ h => h.trans (entryRelease_only ..)

/-- A port of no stream of the lane keeps its receive buffer. -/
theorem laneRelease_other {l port : Nat} (h : ∀ i e, nth? (laneStreams s n 0 l) i = some e → streamPort s n e ≠ port) (step k : Nat) (f : Option RxFrame) :
    tabFind port (laneRelease n l step k f s).trk.streams = tabFind port s.trk.streams := by
  rw [laneRelease_eq]
  refine (foldl_keeps (P := fun u => PlanStays s u ∧ tabFind port u.trk.streams = tabFind port s.trk.streams) ⟨.refl s, rfl⟩ fun u x hx hu => ?_).2
  obtain ⟨hplan, hfind⟩ := hu
  exact ⟨hplan.trans (entryRelease_only ..).planStays,
    (entryRelease_other _ _ _ _ _ (by rw [hplan.streamPort]; exact h x.1 x.2 (mem_laneEntries.1 hx))).trans hfind⟩

/-- A stream that alone has its port holds the words of the frame released. -/
theorem laneRelease_holds {l i : Nat} {e : TrunkEntry} {c : InCfg} (he : nth? (laneStreams s n 0 l) i = some e) (hc : inCfg? s (streamPort s n e) = some c)
    (hone : ∀ i' e', nth? (laneStreams s n 0 l) i' = some e' → streamPort s n e' = streamPort s n e → i' = i) (step k : Nat) (f : Option RxFrame) :
    Holds (streamPort s n e) (f.map fun f => streamWords f.data ((laneStreams s n 0 l).map fun e => unitBits e.w6) i) (laneRelease n l step k f s) := by
  rw [laneRelease_eq]
  refine foldl_once (m := (i, e)) (PlanStays s) (fun _ => True) _ (laneEntries_nodup s n l) (fun u x _ hu => hu.trans (entryRelease_only ..).planStays)
    (fun _ _ _ _ _ _ => trivial) (fun u hu _ => ?_) (fun u x hx hne hu hold => ?_) (mem_laneEntries.2 he) (.refl s) trivial
  · rw [← hu.streamPort]
    exact entryRelease_holds _ _ _ _ (i, e) (by rw [hu.streamPort, hu.inCfg]; exact hc)
  · have hx' := mem_laneEntries.1 hx
    have hport : streamPort u n x.2 ≠ streamPort s n e := by
      rw [hu.streamPort]
      intro hp
      have hi := hone x.1 x.2 hx' hp
      rw [hi, he] at hx'
      exact hne (Prod.ext hi (Option.some.inj hx').symm)
    obtain ⟨b, hb, hv⟩ := hold
    exact ⟨b, (entryRelease_other _ _ _ _ _ hport).trans hb, hv⟩

end Sys2Proof.Machine
end


section
/-! A lane of a protection group at the release of a frame: the member taken, its marks and its counts (06_trunk_framing.md R282 to R286). -/

namespace Sys2Proof.Machine

/-! ## The members' frames and the choice (R283, R284) -/

/-- The frame of member `x` on a lane. -/
def memberFrame (s : State) (k x l : Nat) : Option RxFrame := laneFrameOf (laneTrack s (8 * x + l)) k

/-- The units of the lane's streams. -/
def memberUnits (s : State) (n l : Nat) : List (List Nat) := (laneStreams s n 0 l).map fun e => unitBits e.w6

/-- The frame of member `x` is good. -/
def memberGood (s : State) (n k x l : Nat) : Bool := match memberFrame s k x l with
  | none => false
  | some f => linkRun s x && !getB s (linkStA x) 12 && getB s (linkStA x) (16 + l) && f.hdr.valid && f.next && decide (f.hdr.state = 2) && decide (f.hdr.claim ≠ 0)
      && f.hdr.clean && f.clean && f.dcrc && decide (dataAt f.data 250 = unitMap (memberUnits s n l))
      && (List.range 16).all fun i => decide (countOf f.data i ≤ 25 * ((nth? (memberUnits s n l) i).getD []).length)

/-- The claim of member `x`, below every claim where its header is not valid. -/
def memberClaim (s : State) (k x l : Nat) : Int := match memberFrame s k x l with
  | some f => if f.hdr.valid = true then (f.hdr.claim : Int) else -1
  | none => -1

/-- The member preferred: true stands for B. -/
def memberPref (s : State) (n p k : Nat) (paired : Bool) (l : Nat) : Bool :=
  if paired = false then false else if memberClaim s k n l > memberClaim s k p l then false
  else if memberClaim s k p l > memberClaim s k n l then true else getB s (Reg.trkGrpStatus n) (8 + l)

def memberOk (s : State) (n p k : Nat) (paired : Bool) (l : Nat) (b : Bool) : Bool := if b = true then paired && memberGood s n k p l else memberGood s n k n l

/-- The member taken, where one is. -/
def memberTaken (s : State) (n p k : Nat) (paired : Bool) (l : Nat) : Option Bool :=
  if memberOk s n p k paired l (memberPref s n p k paired l) = true then some (memberPref s n p k paired l)
  else if memberOk s n p k paired l (!memberPref s n p k paired l) = true then some (!memberPref s n p k paired l) else none

/-- The frame taken. -/
def takenFrame (s : State) (n p k : Nat) (paired : Bool) (l : Nat) : Option RxFrame :=
  (memberTaken s n p k paired l).bind fun who => memberFrame s k (if who = true then p else n) l

/-- The lane turns to the member not preferred. -/
def turnsAway (s : State) (n p k : Nat) (l : Nat) : Bool :=
  !memberOk s n p k true l (memberPref s n p k true l) && memberOk s n p k true l (!memberPref s n p k true l)

/-- The lane takes neither member. -/
def takesNone (s : State) (n p k : Nat) (l : Nat) : Bool :=
  !memberOk s n p k true l (memberPref s n p k true l) && !memberOk s n p k true l (!memberPref s n p k true l)

variable {s u t : State} {n p k l : Nat}

/-- A good frame is there. -/
theorem memberFrame_of_good {x : Nat} (h : memberGood s n k x l = true) : ∃ f, memberFrame s k x l = some f := by
  unfold memberGood at h
  split at h
  · cases h
  · exact ⟨_, by assumption⟩

theorem memberOk_of_taken {paired who : Bool} (h : memberTaken s n p k paired l = some who) : memberOk s n p k paired l who = true := by
  unfold memberTaken at h
  split at h
  · cases h
    assumption
  · split at h
    · cases h
      assumption
    · cases h

theorem takenFrame_some {paired who : Bool} (h : memberTaken s n p k paired l = some who) :
    ∃ f, memberFrame s k (if who = true then p else n) l = some f ∧ takenFrame s n p k paired l = some f := by
  have hgood : memberGood s n k (if who = true then p else n) l = true := by
    have hok := memberOk_of_taken h
    unfold memberOk at hok
    cases who with
    | true => exact (Bool.and_eq_true_iff.1 hok).2
    | false => exact hok
  obtain ⟨f, hf⟩ := memberFrame_of_good hgood
  exact ⟨f, hf, by rw [takenFrame, h, Option.bind_some, hf]⟩

/-- The goodness of the model's lane. -/
theorem memberGood_elim (x : Nat) :
    (laneFrameOf (laneTrack s (8 * x + l)) k).elim false (laneGood (carries s x && getB s (linkStA x) (16 + l)) (memberUnits s n l)) = memberGood s n k x l := by
  unfold memberGood memberFrame
  cases laneFrameOf (laneTrack s (8 * x + l)) k with
  | none => rfl
  | some f => rfl

/-- The claim that the model's choice works with. -/
def claimOfFrame (f : Option RxFrame) : Option Nat := f.bind fun f => if f.hdr.valid then some f.hdr.claim else none

/-- A claim as a number, below every claim where there is none. -/
def claimNum (c : Option Nat) : Int := c.elim (-1) fun c => (c : Int)

theorem memberClaim_eq (x : Nat) : claimNum (claimOfFrame (memberFrame s k x l)) = memberClaim s k x l := by
  unfold memberClaim claimOfFrame claimNum
  cases memberFrame s k x l with
  | none => rfl
  | some f =>
    simp only [Option.bind_some]
    split
    · rfl
    · rfl

theorem groupTake_eq (ca cb : Option Nat) (goodA goodB cur : Bool) : groupTake ca cb goodA goodB cur =
    let pref := if claimNum ca > claimNum cb then false else if claimNum cb > claimNum ca then true else cur
    if (if pref then goodB else goodA) = true then (some pref, true) else if (if !pref then goodB else goodA) = true then (some (!pref), false) else (none, false) := by
  cases ca with
  | none => cases cb with
    | none => rfl
    | some b => rfl
  | some a => cases cb with
    | none => rfl
    | some b => rfl

/-- The choice of R284 for the members of a pair. -/
def memberChoice (s : State) (n p k l : Nat) : Option Bool × Bool :=
  groupTake (claimOfFrame (memberFrame s k n l)) (claimOfFrame (memberFrame s k p l)) (memberGood s n k n l) (memberGood s n k p l) (getB s (Reg.trkGrpStatus n) (8 + l))

theorem memberChoice_eq : memberChoice s n p k l = (memberTaken s n p k true l, memberOk s n p k true l (memberPref s n p k true l)) := by
  have hpref : memberPref s n p k true l = if memberClaim s k n l > memberClaim s k p l then false
      else if memberClaim s k p l > memberClaim s k n l then true else getB s (Reg.trkGrpStatus n) (8 + l) := if_neg Bool.noConfusion
  have hok : ∀ b, memberOk s n p k true l b = if b then memberGood s n k p l else memberGood s n k n l := fun b => by rw [memberOk, Bool.true_and]
  rw [memberChoice, groupTake_eq]
  simp only [memberClaim_eq, ← hpref, ← hok, memberTaken]
  by_cases h1 : memberOk s n p k true l (memberPref s n p k true l) = true
  · simp only [h1, if_true]
  · by_cases h2 : memberOk s n p k true l (!memberPref s n p k true l) = true
    · simp only [h1, h2, if_true, if_false, Bool.false_eq_true]
    · simp only [h1, h2, if_false, Bool.false_eq_true]

/-! ## What the choice reads -/

/-- What a lane's choice reads of the state stays, but for the lane's current member. -/
structure MemberSees (s u : State) : Prop where
  plan : PlanStays s u
  lanes : ∀ m, laneTrack u m = laneTrack s m
  links : ∀ x, rd u (linkStA x) = rd s (linkStA x)

theorem GroupWorks.sees (h : GroupWorks n (groupRegs n p) s u) : MemberSees s u :=
  ⟨⟨h.plan, h.moves.regs _ (groupRegs_apart (x := 0)).2⟩, h.lanes, fun x => h.moves.regs _ (groupRegs_apart (x := x)).1⟩

namespace MemberSees

variable (h : MemberSees s u)
include h

theorem frame (x : Nat) : memberFrame u k x l = memberFrame s k x l := by rw [memberFrame, h.lanes, memberFrame]

theorem units : memberUnits u n l = memberUnits s n l := by rw [memberUnits, h.plan.laneStreams, memberUnits]

theorem good (x : Nat) : memberGood u n k x l = memberGood s n k x l := by
  simp only [memberGood, h.frame, h.units, linkRun_congr (h.links x), getB, h.links x]

theorem claim (x : Nat) : memberClaim u k x l = memberClaim s k x l := by rw [← memberClaim_eq, h.frame, memberClaim_eq]

theorem pref {paired : Bool} (hcur : getB u (Reg.trkGrpStatus n) (8 + l) = getB s (Reg.trkGrpStatus n) (8 + l)) :
    memberPref u n p k paired l = memberPref s n p k paired l := by
  simp only [memberPref, h.claim, hcur]

theorem ok {paired : Bool} (b : Bool) : memberOk u n p k paired l b = memberOk s n p k paired l b := by simp only [memberOk, h.good]

theorem taken {paired : Bool} (hcur : getB u (Reg.trkGrpStatus n) (8 + l) = getB s (Reg.trkGrpStatus n) (8 + l)) :
    memberTaken u n p k paired l = memberTaken s n p k paired l := by simp only [memberTaken, h.pref hcur, h.ok]

theorem takenFrame {paired : Bool} (hcur : getB u (Reg.trkGrpStatus n) (8 + l) = getB s (Reg.trkGrpStatus n) (8 + l)) :
    takenFrame u n p k paired l = takenFrame s n p k paired l := by simp only [Machine.takenFrame, h.taken hcur, h.frame]

end MemberSees

/-! ## A lane without a second member -/

/-- An ungrouped trunk's lane at a release: its counts of frames that are not good, and its streams. -/
theorem groupLane_alone (step : Nat) (s : State) (l : Nat) : groupLane n none step k s l =
    laneRelease n l step k (takenFrame s n p k false l) (laneMapCount (8 * n + l) (memberUnits s n l) (memberFrame s k n l) s) := by
  have htaken : takenFrame s n p k false l = if memberGood s n k n l = true then memberFrame s k n l else none := by
    have hpref : memberPref s n p k false l = false := if_pos rfl
    have hn : memberOk s n p k false l false = memberGood s n k n l := rfl
    have hp : memberOk s n p k false l true = false := Bool.false_and (memberGood s n k p l)
    simp only [takenFrame, memberTaken, hpref, Bool.not_false, hn, hp]
    split
    · rfl
    · rfl
  rw [htaken, ← memberGood_elim]
  rfl

/-! ## A lane of a pair -/

/-- The marks of a lane of a pair: frames that are not good, late, or good and different. -/
def pairMarked (n p k : Nat) (s : State) (l : Nat) : State :=
  let fa := memberFrame s k n l
  let fb := memberFrame s k p l
  let s1 := laneMapCount (8 * p + l) (memberUnits s n l) fb (laneMapCount (8 * n + l) (memberUnits s n l) fa s)
  let s2 := laneLate n p fb (laneLate n n fa s1)
  if memberGood s n k n l = true ∧ memberGood s n k p l = true ∧ fa.map (fun f => f.data.drop 250) ≠ fb.map (fun f => f.data.drop 250) then
    groupEvent n 2 25 (putB (Reg.trkGrpStatus n) 25 true s2) else s2

/-- The lane turns to the member chosen, or counts that there is none. -/
def pairTurned (n l : Nat) (r : Option Bool × Bool) (cur : Bool) (s : State) : State :=
  match r.1 with
  | none => bump (Reg.trkGrpCnt n) 16 16 1 s
  | some who =>
    let s := if r.2 then s else bump (Reg.trkGrpCnt n) 0 16 1 s
    if who = cur then s else groupEvent n 0 (8 + l) (putB (Reg.trkGrpStatus n) (8 + l) who s)

theorem groupLane_pair (step : Nat) (s : State) (l : Nat) : groupLane n (some p) step k s l =
    laneRelease n l step k (takenFrame s n p k true l)
      (pairTurned n l (memberTaken s n p k true l, memberOk s n p k true l (memberPref s n p k true l)) (getB s (Reg.trkGrpStatus n) (8 + l)) (pairMarked n p k s l)) := by
  have hrun : groupLane n (some p) step k s l = match (memberChoice s n p k l).1 with
      | none => laneRelease n l step k none (bump (Reg.trkGrpCnt n) 16 16 1 (pairMarked n p k s l))
      | some who =>
        let s' := if (memberChoice s n p k l).2 then pairMarked n p k s l else bump (Reg.trkGrpCnt n) 0 16 1 (pairMarked n p k s l)
        let s' := if who = getB s (Reg.trkGrpStatus n) (8 + l) then s' else groupEvent n 0 (8 + l) (putB (Reg.trkGrpStatus n) (8 + l) who s')
        laneRelease n l step k (if who then memberFrame s k p l else memberFrame s k n l) s' := by
    simp only [memberChoice, pairMarked, ← memberGood_elim]
    rfl
  rw [hrun, memberChoice_eq]
  simp only [takenFrame, pairTurned]
  cases memberTaken s n p k true l with
  | none => rfl
  | some who =>
    cases who with
    | true => rfl
    | false => rfl

theorem pairMarked_marks (hl : l < 8) (s : State) : GroupMarks n p s (pairMarked n p k s l) := by
  obtain ⟨hn, hp⟩ := maperr_mem (n := n) (p := p) hl
  have h := ((((GroupMarks.refl n p s).mapCount hn (memberUnits s n l) (memberFrame s k n l)).mapCount hp (memberUnits s n l) (memberFrame s k p l)).late (.inl rfl)
    (memberFrame s k n l)).late (.inr rfl) (memberFrame s k p l)
  exact ((h.mark (.inl rfl) (by decide)).event 2 25).ite h

/-- What a lane's turn moves: its current member, and the group's counts. -/
structure PairTurned (n p l : Nat) (r : Option Bool × Bool) (cur : Bool) (s t : State) : Prop where
  works : GroupWorks n (groupRegs n p) s t
  streams : t.trk.streams = s.trk.streams
  own : getB s (Reg.trkGrpStatus n) (8 + l) = cur → getB t (Reg.trkGrpStatus n) (8 + l) = r.1.getD cur
  other : ∀ j, j < 8 → j ≠ l → getB t (Reg.trkGrpStatus n) (8 + j) = getB s (Reg.trkGrpStatus n) (8 + j)
  away : getF t (Reg.trkGrpCnt n) 0 16 = min (2 ^ 16 - 1) (getF s (Reg.trkGrpCnt n) 0 16 + b2n (r.1.isSome && !r.2))
  none : getF t (Reg.trkGrpCnt n) 16 16 = min (2 ^ 16 - 1) (getF s (Reg.trkGrpCnt n) 16 16 + b2n r.1.isNone)

theorem getF16_min (s : State) (a lo : Nat) : getF s a lo 16 = min (2 ^ 16 - 1) (getF s a lo 16) := by
  have : getF s a lo 16 < 2 ^ 16 := fld_lt ..
  omega

theorem streams_groupEvent (kind b : Nat) (s : State) : (groupEvent n kind b s).trk.streams = s.trk.streams := by
  simp only [groupEvent]
  split
  · rfl
  · rw [raiseFlag, raise_trk, putLink]

/-- Where one of the members is taken, the other count stays. -/
theorem turnCount_spec (ok : Bool) (s : State) : let t := if ok then s else bump (Reg.trkGrpCnt n) 0 16 1 s
    GroupWorks n (groupRegs n p) s t ∧ t.trk = s.trk ∧ rd t (Reg.trkGrpStatus n) = rd s (Reg.trkGrpStatus n)
      ∧ getF t (Reg.trkGrpCnt n) 0 16 = min (2 ^ 16 - 1) (getF s (Reg.trkGrpCnt n) 0 16 + b2n !ok) ∧ getF t (Reg.trkGrpCnt n) 16 16 = getF s (Reg.trkGrpCnt n) 16 16 := by
  intro t
  cases ok with
  | true => exact ⟨.refl .., rfl, rfl, getF16_min .., rfl⟩
  | false => exact ⟨(GroupWorks.refl ..).bump (by simp) (grpCnt_apart n n) .., bump_trk .., rd_bump_ne (grpCnt_apart n n) .., getF_bump_same _ _ _ (by decide),
      getF_bump_fld _ _ _ (by decide) (by decide)⟩

/-- The current member of a lane is set. -/
theorem turnTo_spec (hl : l < 8) (who : Bool) (s : State) : let t := groupEvent n 0 (8 + l) (putB (Reg.trkGrpStatus n) (8 + l) who s)
    GroupWorks n (groupRegs n p) s t ∧ t.trk.streams = s.trk.streams ∧ rd t (Reg.trkGrpCnt n) = rd s (Reg.trkGrpCnt n)
      ∧ getB t (Reg.trkGrpStatus n) (8 + l) = who ∧ ∀ j, j < 8 → j ≠ l → getB t (Reg.trkGrpStatus n) (8 + j) = getB s (Reg.trkGrpStatus n) (8 + j) := by
  intro t
  have hrd : ∀ a, rd t a = rd (putB (Reg.trkGrpStatus n) (8 + l) who s) a := rd_groupEvent n 0 (8 + l) _
  refine ⟨((GroupWorks.refl ..).putB (by simp) ⟨by omega, by omega⟩ who).groupEvent .., ?_, ?_, ?_, fun j hj hne => ?_⟩
  · rw [streams_groupEvent, putB_trk]
  · rw [hrd, rd_putB_ne (grpCnt_apart n n).symm]
  · rw [getB, hrd, ← getB, getB_putB_same _ _ _ (by omega)]
  · rw [getB, hrd, ← getB]
    exact getB_putB_bit _ _ _ (by omega) (by omega)

theorem pairTurned_spec (hl : l < 8) (r : Option Bool × Bool) (cur : Bool) (s : State) : PairTurned n p l r cur s (pairTurned n l r cur s) := by
  obtain ⟨who, ok⟩ := r
  cases who with
  | none =>
    have hsta := grpCnt_apart n n
    exact ⟨(GroupWorks.refl ..).bump (by simp) hsta .., by rw [pairTurned, bump_trk], fun h => (getB_bump_ne hsta ..).trans h, fun j _ _ => getB_bump_ne hsta ..,
      (getF_bump_fld _ _ _ (by decide) (by decide)).trans (getF16_min ..), getF_bump_same _ _ _ (by decide)⟩
  | some who =>
    obtain ⟨hworks, htrk, hsta, haway, hnone⟩ := turnCount_spec (n := n) (p := p) ok s
    simp only [pairTurned]
    generalize (if ok = true then s else bump (Reg.trkGrpCnt n) 0 16 1 s) = u at *
    have hbit : ∀ b, getB u (Reg.trkGrpStatus n) b = getB s (Reg.trkGrpStatus n) b := fun b => by rw [getB, hsta, ← getB]
    have hnone' := hnone.trans (getF16_min ..)
    split
    · next hcur =>
      subst hcur
      exact ⟨hworks, by rw [htrk], fun h => (hbit _).trans h, fun j _ _ => hbit _, haway, hnone'⟩
    · obtain ⟨hw, hs, hc, hown, hother⟩ := turnTo_spec (n := n) (p := p) hl who u
      exact ⟨hworks.trans hw, by rw [hs, htrk], fun _ => hown, fun j hj hne => (hother j hj hne).trans (hbit _), by rw [getF, hc, ← getF, haway]; rfl,
        by rw [getF, hc, ← getF]; exact hnone'⟩

end Sys2Proof.Machine
end


section
/-! The release of a frame of a protection group, or of an ungrouped trunk (06_trunk_framing.md R281 to R286). -/

namespace Sys2Proof.Machine

variable {s u t : State} {n p k l : Nat} {paired : Bool}

/-! ## One lane of the release -/

/-- The second member of a group, where there is one. -/
abbrev partner (p : Nat) (paired : Bool) : Option Nat := if paired = true then some p else none

/-- A lane's work at the release: its marks and counts, and then its streams with the frame taken. -/
structure LaneGiven (n p k : Nat) (paired : Bool) (step l : Nat) (s t : State) : Prop where
  marked : ∃ v, t = laneRelease n l step k (takenFrame s n p k paired l) v ∧ GroupWorks n (groupRegs n p) s v ∧ v.trk.streams = s.trk.streams
  others : ∀ j, j < 8 → j ≠ l → getB t (Reg.trkGrpStatus n) (8 + j) = getB s (Reg.trkGrpStatus n) (8 + j)

theorem rd_laneRelease (n l step k : Nat) (f : Option RxFrame) (s : State) (a : Nat) : rd (laneRelease n l step k f s) a = rd s a := by
  obtain ⟨x, h⟩ := laneRelease_only n l step k f s
  rw [h]
  rfl

theorem LaneGiven.works {step : Nat} (h : LaneGiven n p k paired step l s t) : GroupWorks n (groupRegs n p) s t := by
  obtain ⟨v, rfl, hv, -⟩ := h.marked
  exact hv.trans (laneRelease_only ..).groupWorks

/-- What a lane of a pair shows after the release. -/
structure PairGiven (n p k l : Nat) (s t : State) : Prop where
  current : getB t (Reg.trkGrpStatus n) (8 + l) = (memberTaken s n p k true l).getD (getB s (Reg.trkGrpStatus n) (8 + l))
  away : getF t (Reg.trkGrpCnt n) 0 16 = min (2 ^ 16 - 1) (getF s (Reg.trkGrpCnt n) 0 16 + b2n (turnsAway s n p k l))
  none : getF t (Reg.trkGrpCnt n) 16 16 = min (2 ^ 16 - 1) (getF s (Reg.trkGrpCnt n) 16 16 + b2n (takesNone s n p k l))

/-- A lane takes a member exactly where one of the two is good. -/
theorem memberTaken_cases (s : State) (n p k l : Nat) :
    turnsAway s n p k l = ((memberTaken s n p k true l).isSome && !memberOk s n p k true l (memberPref s n p k true l))
      ∧ takesNone s n p k l = (memberTaken s n p k true l).isNone := by
  unfold turnsAway takesNone memberTaken
  cases memberOk s n p k true l (memberPref s n p k true l) with
  | true => exact ⟨rfl, rfl⟩
  | false =>
    cases memberOk s n p k true l (!memberPref s n p k true l) with
    | true => exact ⟨rfl, rfl⟩
    | false => exact ⟨rfl, rfl⟩

theorem groupLane_given_pair (hl : l < 8) (step : Nat) (s : State) :
    LaneGiven n p k true step l s (groupLane n (some p) step k s l) ∧ PairGiven n p k l s (groupLane n (some p) step k s l) := by
  have hm := pairMarked_marks (n := n) (p := p) (k := k) hl s
  have ht := pairTurned_spec (n := n) (p := p) hl (memberTaken s n p k true l, memberOk s n p k true l (memberPref s n p k true l)) (getB s (Reg.trkGrpStatus n) (8 + l))
    (pairMarked n p k s l)
  obtain ⟨hturns, hnone⟩ := memberTaken_cases s n p k l
  have hcnt : ∀ lo, getF (pairMarked n p k s l) (Reg.trkGrpCnt n) lo 16 = getF s (Reg.trkGrpCnt n) lo 16 := fun lo => by rw [getF, hm.count, getF]
  rw [groupLane_pair]
  refine ⟨⟨⟨_, rfl, hm.works.trans ht.works, ht.streams.trans hm.streams⟩, fun j hj hne => ?_⟩, ?_, ?_, ?_⟩
  · rw [getB, rd_laneRelease, ← getB, ht.other j hj hne, hm.current j hj]
  · rw [getB, rd_laneRelease, ← getB]
    exact ht.own (hm.current l hl)
  · rw [getF, rd_laneRelease, ← getF, hturns, ← hcnt]
    exact ht.away
  · rw [getF, rd_laneRelease, ← getF, hnone, ← hcnt]
    exact ht.none

/-- The registers of every group stay at an ungrouped trunk's release. -/
abbrev GroupsShown (s t : State) : Prop := ∀ x, rd t (Reg.trkGrpStatus x) = rd s (Reg.trkGrpStatus x) ∧ rd t (Reg.trkGrpCnt x) = rd s (Reg.trkGrpCnt x)

theorem rd_laneMapCount {m a : Nat} (h : a ≠ Reg.trkLaneMaperr m) (units : List (List Nat)) (f : Option RxFrame) (s : State) : rd (laneMapCount m units f s) a = rd s a := by
  unfold laneMapCount
  cases f with
  | none => rfl
  | some f =>
    dsimp only
    split
    · have hunit : rd (if dataAt f.data 250 = unitMap units then s else bump (Reg.trkLaneMaperr m) 0 16 1 s) a = rd s a := by
        split
        · rfl
        · exact rd_bump_ne h ..
      split
      · exact hunit
      · exact (rd_bump_ne h ..).trans hunit
    · rfl

theorem groupLane_given_alone (hl : l < 8) (step : Nat) (s : State) :
    LaneGiven n p k false step l s (groupLane n none step k s l) ∧ GroupsShown s (groupLane n none step k s l) := by
  have hm := (GroupMarks.refl n p s).mapCount (maperr_mem (n := n) (p := p) hl).1 (memberUnits s n l) (memberFrame s k n l)
  rw [groupLane_alone]
  refine ⟨⟨⟨_, rfl, hm.works, hm.streams⟩, fun j hj _ => ?_⟩, fun x => ⟨?_, ?_⟩⟩
  · rw [getB, rd_laneRelease, ← getB, hm.current j hj]
  · rw [rd_laneRelease, rd_laneMapCount (maperr_apart _ x).1]
  · rw [rd_laneRelease, rd_laneMapCount (maperr_apart _ x).2]

theorem groupLane_given (hl : l < 8) (step : Nat) (s : State) : LaneGiven n p k paired step l s (groupLane n (partner p paired) step k s l) := by
  cases paired with
  | true => exact (groupLane_given_pair hl step s).1
  | false => exact (groupLane_given_alone hl step s).1

/-! ## The lanes of the release -/

/-- All lanes of a release. -/
def groupLanes (n : Nat) (p : Option Nat) (step k : Nat) (s : State) : State := (upto 0 8).foldl (groupLane n p step k) s

theorem upto8 {l : Nat} : l ∈ upto 0 8 ↔ l < 8 := by rw [upto_mem]; omega

theorem groupLanes_works (step : Nat) (s : State) : GroupWorks n (groupRegs n p) s (groupLanes n (partner p paired) step k s) :=
  foldl_keeps (.refl ..) fun u _ hl h => h.trans (groupLane_given (upto8.1 hl) step u).works

/-- What one lane's step brings about, of the choice that the lane met at the start. -/
theorem groupLanes_once {step : Nat} (P : State → Prop) (hl : l < 8)
    (hset : ∀ u, MemberSees s u → getB u (Reg.trkGrpStatus n) (8 + l) = getB s (Reg.trkGrpStatus n) (8 + l) → P (groupLane n (partner p paired) step k u l))
    (hkeep : ∀ u j, j < 8 → j ≠ l → MemberSees s u → P u → P (groupLane n (partner p paired) step k u j)) : P (groupLanes n (partner p paired) step k s) :=
  foldl_once (m := l) (GroupWorks n (groupRegs n p) s) (fun u => getB u (Reg.trkGrpStatus n) (8 + l) = getB s (Reg.trkGrpStatus n) (8 + l)) P (upto_nodup ..)
    (fun u _ hj h => h.trans (groupLane_given (upto8.1 hj) step u).works)
    (fun u _ hj hne _ h => ((groupLane_given (upto8.1 hj) step u).others l hl hne.symm).trans h)
    (fun u h hcur => hset u h.sees hcur) (fun u j hj hne h hP => hkeep u j (upto8.1 hj) hne h.sees hP) (upto8.2 hl) (.refl ..) rfl

/-- A stream that alone has its port holds the words of the frame that its lane takes. -/
theorem groupLanes_holds {i : Nat} {e : TrunkEntry} {c : InCfg} (hl : l < 8) (he : nth? (laneStreams s n 0 l) i = some e) (hc : inCfg? s (streamPort s n e) = some c)
    (hone : ∀ l', l' < 8 → ∀ i' e', nth? (laneStreams s n 0 l') i' = some e' → streamPort s n e' = streamPort s n e → l' = l ∧ i' = i) (step : Nat) :
    Holds (streamPort s n e) ((takenFrame s n p k paired l).map fun f => streamWords f.data (memberUnits s n l) i) (groupLanes n (partner p paired) step k s) := by
  refine groupLanes_once _ hl (fun u hu hcur => ?_) fun u j hj hne hu hold => ?_
  · obtain ⟨⟨v, hv, hworks, -⟩, -⟩ := groupLane_given (n := n) (p := p) (k := k) (paired := paired) hl step u
    have hp : PlanStays s v := hu.plan.trans hworks.sees.plan
    have hnow := laneRelease_holds (s := v) (n := n) (l := l) (i := i) (e := e) (c := c) (by rw [hp.laneStreams]; exact he) (by rw [hp.streamPort, hp.inCfg]; exact hc)
      (fun i' e' he' hport => (hone l hl i' e' (by rwa [hp.laneStreams] at he') (by rwa [hp.streamPort, hp.streamPort] at hport)).2) step k (takenFrame u n p k paired l)
    rw [hv]
    rw [hp.streamPort, hp.laneStreams, hu.takenFrame hcur] at hnow
    rw [hu.takenFrame hcur]
    exact hnow
  · obtain ⟨⟨v, hv, hworks, hstreams⟩, -⟩ := groupLane_given (n := n) (p := p) (k := k) (paired := paired) hj step u
    have hp : PlanStays s v := hu.plan.trans hworks.sees.plan
    obtain ⟨b, hb, hwords⟩ := hold
    refine ⟨b, ?_, hwords⟩
    rw [hv, laneRelease_other (fun i' e' he' hport => hne (hone j hj i' e' (by rwa [hp.laneStreams] at he') (by rwa [hp.streamPort] at hport)).1), hstreams, hb]

/-- Each lane of a pair takes its member. -/
theorem groupLanes_current (hl : l < 8) (step : Nat) (s : State) :
    getB (groupLanes n (some p) step k s) (Reg.trkGrpStatus n) (8 + l) = (memberTaken s n p k true l).getD (getB s (Reg.trkGrpStatus n) (8 + l)) :=
  groupLanes_once (paired := true) (fun u => getB u (Reg.trkGrpStatus n) (8 + l) = (memberTaken s n p k true l).getD (getB s (Reg.trkGrpStatus n) (8 + l))) hl
    (fun u hu hcur => by rw [← hu.taken hcur, ← hcur]; exact (groupLane_given_pair hl step u).2.current)
    fun u j hj hne _ h => ((groupLane_given (paired := true) hj step u).others l hl hne.symm).trans h

/-- A count of a pair's lanes that meet a condition of the choice. -/
theorem groupLanes_count {step lo : Nat} {c : State → Nat → Bool}
    (hc : ∀ u l, l < 8 → getF (groupLane n (some p) step k u l) (Reg.trkGrpCnt n) lo 16 = min (2 ^ 16 - 1) (getF u (Reg.trkGrpCnt n) lo 16 + b2n (c u l)))
    (hsees : ∀ u l, MemberSees s u → getB u (Reg.trkGrpStatus n) (8 + l) = getB s (Reg.trkGrpStatus n) (8 + l) → c u l = c s l) :
    getF (groupLanes n (some p) step k s) (Reg.trkGrpCnt n) lo 16 = min (2 ^ 16 - 1) (getF s (Reg.trkGrpCnt n) lo 16 + ((List.range 8).filter (c s)).length) := by
  have hle : getF s (Reg.trkGrpCnt n) lo 16 ≤ 2 ^ 16 - 1 := Nat.le_sub_one_of_lt (fld_lt ..)
  refine foldl_count (ms := upto 0 8) (cnt := fun u => getF u (Reg.trkGrpCnt n) lo 16) (GroupWorks n (groupRegs n p) s)
    (fun l u => getB u (Reg.trkGrpStatus n) (8 + l) = getB s (Reg.trkGrpStatus n) (8 + l)) ?_ ?_ ?_ (upto_nodup ..) (.refl ..) (fun _ _ => rfl) hle
  · intro u l hl h
    exact h.trans (groupLane_given (paired := true) (upto8.1 hl) step u).works
  · intro u l hl j hj hne h hcur
    exact ((groupLane_given (paired := true) (upto8.1 hl) step u).others j (upto8.1 hj) hne).trans hcur
  · intro u l hl h hcur
    rw [← hsees u l h.sees hcur]
    exact hc u l (upto8.1 hl)

theorem groupLanes_away (step : Nat) (s : State) : getF (groupLanes n (some p) step k s) (Reg.trkGrpCnt n) 0 16
    = min (2 ^ 16 - 1) (getF s (Reg.trkGrpCnt n) 0 16 + ((List.range 8).filter (turnsAway s n p k)).length) :=
  groupLanes_count (fun u _ hl => (groupLane_given_pair hl step u).2.away) fun u l hu hcur => by simp only [turnsAway, hu.pref hcur, hu.ok]

theorem groupLanes_none (step : Nat) (s : State) : getF (groupLanes n (some p) step k s) (Reg.trkGrpCnt n) 16 16
    = min (2 ^ 16 - 1) (getF s (Reg.trkGrpCnt n) 16 16 + ((List.range 8).filter (takesNone s n p k)).length) :=
  groupLanes_count (fun u _ hl => (groupLane_given_pair hl step u).2.none) fun u l hu hcur => by simp only [takesNone, hu.pref hcur, hu.ok]

theorem groupLanes_alone (step : Nat) (s : State) : GroupsShown s (groupLanes n none step k s) :=
  foldl_keeps (P := GroupsShown s) (fun _ => ⟨rfl, rfl⟩) fun u l hl h x => by
    obtain ⟨hsta, hcnt⟩ := (groupLane_given_alone (n := n) (p := n) (k := k) (upto8.1 hl) step u).2 x
    exact ⟨hsta.trans (h x).1, hcnt.trans (h x).2⟩

/-! ## The release -/

/-- The frame whose release has come. -/
abbrev releaseDue (s : State) (n : Nat) : Option Nat := (linkTrack s n).grp.bind (groupDue (getF s (linkStA n) 6 2) (getF s (Reg.trkGrpStatus n) 16 4) s.mono)

/-- Member B of the group at A. -/
abbrev groupB (s : State) (n : Nat) : Nat := n / 18 * 18 + getF s (Reg.trkGrpStatus n) 0 5

/-- The release begins: the frame is noted, and a pair's skew. -/
def releaseBegun (n k : Nat) (s : State) : State :=
  let t := putLink n { linkTrack s n with released := some k } s
  (partner (groupB s n) (getB s (Reg.trkGrpStatus n) 5)).elim t fun p => putF (Reg.trkGrpStatus n) 20 4 (groupSkew t n p (getF s (linkStA n) 6 2)) t

theorem groupHead_self (h : getB s (Reg.trkGrpStatus n) 5 = false ∨ getB s (Reg.trkGrpStatus n) 6 = false) : groupHead s n = n := by
  refine if_neg ?_
  rintro ⟨-, h5, h6⟩
  rcases h with h | h
  · exact Bool.noConfusion (h.symm.trans h5)
  · exact Bool.noConfusion (h.symm.trans h6)

theorem groupRelease_waits (h : releaseDue s n = none ∨ (linkTrack s n).released = releaseDue s n) : groupRelease n s = s := by
  simp only [groupRelease]
  split
  · rfl
  · split
    · rfl
    · next k hk =>
      refine if_pos ?_
      rcases h with h | h
      · exact nomatch h.symm.trans hk
      · exact h.trans hk

theorem groupRelease_due (hh : groupHead s n = n) (hk : releaseDue s n = some k) (hr : (linkTrack s n).released ≠ some k) :
    groupRelease n s = groupLanes n (partner (groupB s n) (getB s (Reg.trkGrpStatus n) 5)) (getF s (linkStA n) 6 2) k (releaseBegun n k s) := by
  have hne : ¬ groupHead s n ≠ n := not_not_intro hh
  simp only [groupRelease, if_neg hne, hk, if_neg hr]
  rfl

/-- At the start of a release the frame's number is noted, and everything that the lanes' choices read stays. -/
structure ReleaseBegun (n p k : Nat) (s t : State) : Prop where
  moves : LinkMoves n (groupRegs n p) s t
  sees : MemberSees s t
  released : (linkTrack t n).released = some k
  current : ∀ j, j < 8 → getB t (Reg.trkGrpStatus n) (8 + j) = getB s (Reg.trkGrpStatus n) (8 + j)
  count : rd t (Reg.trkGrpCnt n) = rd s (Reg.trkGrpCnt n)
  alone : getB s (Reg.trkGrpStatus n) 5 = false → GroupsShown s t

theorem releaseBegun_spec (n k : Nat) (s : State) : ReleaseBegun n (groupB s n) k s (releaseBegun n k s) := by
  have hnoted : ReleaseBegun n (groupB s n) k s (putLink n { linkTrack s n with released := some k } s) := by
    have hw := (LinkWorks.refl n (groupRegs n (groupB s n)) s).putLink { linkTrack s n with released := some k }
    exact ⟨hw.moves, ⟨⟨rfl, rfl⟩, fun m => laneTrack_putLink .., fun _ => rfl⟩, by rw [linkTrack_putLink_same], fun _ _ => rfl, rfl, fun _ _ => ⟨rfl, rfl⟩⟩
  unfold releaseBegun
  cases h5 : getB s (Reg.trkGrpStatus n) 5 with
  | false => exact hnoted
  | true =>
    generalize putLink n { linkTrack s n with released := some k } s = u at *
    have hskew := (GroupWorks.refl n (groupRegs n (groupB s n)) u).putF (a := Reg.trkGrpStatus n) (lo := 20) (k := 4) (by simp) (by decide) (by decide)
      (groupSkew u n (groupB s n) (getF s (linkStA n) 6 2))
    have hsees := hskew.sees
    refine ⟨hnoted.moves.trans hskew.moves, ⟨hnoted.sees.plan.trans hsees.plan, fun m => (hsees.lanes m).trans (hnoted.sees.lanes m),
      fun x => (hsees.links x).trans (hnoted.sees.links x)⟩, hskew.released.trans hnoted.released, fun j hj => ?_, ?_, fun h => Bool.noConfusion (h5.symm.trans h)⟩
    · exact (getB_putF_fld _ _ _ (by decide) (by omega)).trans (hnoted.current j hj)
    · exact (rd_putF_ne (grpCnt_apart n n).symm ..).trans hnoted.count

/-- A release that is due. -/
structure Released (n p k : Nat) (paired : Bool) (s t : State) : Prop where
  moves : LinkMoves n (groupRegs n p) s t
  released : (linkTrack t n).released = some k
  pair : paired = true → (∀ l, l < 8 → getB t (Reg.trkGrpStatus n) (8 + l) = (memberTaken s n p k paired l).getD (getB s (Reg.trkGrpStatus n) (8 + l)))
    ∧ getF t (Reg.trkGrpCnt n) 0 16 = min (2 ^ 16 - 1) (getF s (Reg.trkGrpCnt n) 0 16 + ((List.range 8).filter fun l =>
        !memberOk s n p k paired l (memberPref s n p k paired l) && memberOk s n p k paired l (!memberPref s n p k paired l)).length)
    ∧ getF t (Reg.trkGrpCnt n) 16 16 = min (2 ^ 16 - 1) (getF s (Reg.trkGrpCnt n) 16 16 + ((List.range 8).filter fun l =>
        !memberOk s n p k paired l (memberPref s n p k paired l) && !memberOk s n p k paired l (!memberPref s n p k paired l)).length)
  alone : paired = false → GroupsShown s t
  streams : ∀ l, l < 8 → ∀ i e, nth? (laneStreams s n 0 l) i = some e → ∀ c, inCfg? s (streamPort s n e) = some c →
    (∀ l', l' < 8 → ∀ i' e', nth? (laneStreams s n 0 l') i' = some e' → streamPort s n e' = streamPort s n e → l' = l ∧ i' = i) →
    ∃ b, tabFind (streamPort s n e) t.trk.streams = some b
      ∧ (∀ who, memberTaken s n p k paired l = some who →
          b.valid = true ∧ (memberFrame s k (if who = true then p else n) l).map (fun f => streamWords f.data (memberUnits s n l) i) = some b.words)
      ∧ (memberTaken s n p k paired l = none → b.valid = false ∧ b.words = [])

/-- What a stream's buffer holds, of the member taken. -/
theorem Holds.of_taken {port i : Nat} (h : Holds port ((takenFrame s n p k paired l).map fun f => streamWords f.data (memberUnits s n l) i) t) :
    ∃ b, tabFind port t.trk.streams = some b
      ∧ (∀ who, memberTaken s n p k paired l = some who →
          b.valid = true ∧ (memberFrame s k (if who = true then p else n) l).map (fun f => streamWords f.data (memberUnits s n l) i) = some b.words)
      ∧ (memberTaken s n p k paired l = none → b.valid = false ∧ b.words = []) := by
  obtain ⟨b, hb, hvalid, hwords⟩ := h
  refine ⟨b, hb, fun who hw => ?_, fun hnone => ?_⟩
  · obtain ⟨f, hf, htaken⟩ := takenFrame_some hw
    rw [htaken, Option.map_some] at hvalid hwords
    rw [hf, Option.map_some, hwords, Option.getD_some]
    exact ⟨hvalid, rfl⟩
  · rw [takenFrame, hnone, Option.bind_none, Option.map_none] at hvalid hwords
    exact ⟨hvalid, hwords⟩

theorem groupReleased (hh : groupHead s n = n) (hk : releaseDue s n = some k) (hr : (linkTrack s n).released ≠ some k) :
    Released n (groupB s n) k (getB s (Reg.trkGrpStatus n) 5) s (groupRelease n s) := by
  have h0 := releaseBegun_spec n k s
  rw [groupRelease_due hh hk hr]
  generalize releaseBegun n k s = u at *
  generalize getF s (linkStA n) 6 2 = step
  generalize groupB s n = p at *
  have hworks := groupLanes_works (n := n) (p := p) (paired := getB s (Reg.trkGrpStatus n) 5) (k := k) step u
  have hcount : ∀ lo, getF u (Reg.trkGrpCnt n) lo 16 = getF s (Reg.trkGrpCnt n) lo 16 := fun lo => by rw [getF, h0.count, getF]
  refine ⟨h0.moves.trans hworks.moves, hworks.released.trans h0.released, fun h5 => ?_, fun h5 => ?_, fun l hl i e he c hc hone => ?_⟩
  · rw [h5]
    have hcond : ∀ g : Bool → Bool, ((List.range 8).filter fun l => !memberOk u n p k true l (memberPref u n p k true l) && g (memberOk u n p k true l (!memberPref u n p k true l)))
        = (List.range 8).filter fun l => !memberOk s n p k true l (memberPref s n p k true l) && g (memberOk s n p k true l (!memberPref s n p k true l)) := fun g =>
      List.filter_congr fun l hl => by rw [h0.sees.pref (h0.current l (List.mem_range.1 hl)), h0.sees.ok, h0.sees.ok]
    refine ⟨fun l hl => ?_, ?_, ?_⟩
    · rw [← h0.sees.taken (h0.current l hl), ← h0.current l hl]
      exact groupLanes_current hl step u
    · rw [← hcount, ← hcond fun b => b]
      exact groupLanes_away step u
    · rw [← hcount, ← hcond fun b => !b]
      exact groupLanes_none step u
  · intro x
    obtain ⟨hsta, hcnt⟩ := groupLanes_alone (n := n) (k := k) step u x
    obtain ⟨hsta', hcnt'⟩ := h0.alone h5 x
    rw [h5]
    exact ⟨hsta.trans hsta', hcnt.trans hcnt'⟩
  · have hp := h0.sees.plan
    have hhold := groupLanes_holds (s := u) (n := n) (p := p) (k := k) (paired := getB s (Reg.trkGrpStatus n) 5) (i := i) (e := e) (c := c) hl
      (by rw [hp.laneStreams]; exact he) (by rw [hp.streamPort, hp.inCfg]; exact hc)
      (fun l' hl' i' e' he' hport => hone l' hl' i' e' (by rwa [hp.laneStreams] at he') (by rwa [hp.streamPort, hp.streamPort] at hport)) step
    rw [hp.streamPort, h0.sees.takenFrame (h0.current l hl), h0.sees.units] at hhold
    exact hhold.of_taken

end Sys2Proof.Machine
end


section
/-! Lanes, frames and groups in service, as the instructions show them. -/

namespace Sys2Proof.Machine

/-! ## A frame received (R235, R262) -/

/-- Reference selection leaves the lanes and the link pairs, and their registers, alone. -/
theorem RefWorks.apart {n m : Nat} (hn : n < 72) (hm : m < 576) {s t : State} (h : RefWorks s t) :
    rd t (laneFrmA m) = rd s (laneFrmA m) ∧ rd t (linkMsgA n) = rd s (linkMsgA n) ∧ t.trk = s.trk
      ∧ t.cmd = s.cmd ∧ t.plan = s.plan ∧ t.port = s.port ∧ t.pins = s.pins := by
  have hf := h.frame
  have hmsg : linkMsgA n = Reg.trkLinkMsg n := if_neg (by omega)
  rw [laneFrmA_lane hm, hmsg]
  refine ⟨h.regs _ ?_, h.regs _ ?_, by rw [hf], by rw [hf], by rw [hf], by rw [hf], by rw [hf]⟩
  · simp only [Reg.trkLaneFrm]
    omega
  · simp only [Reg.trkLinkMsg]
    omega

/-- A frame received, with the reference selection that its quality level brings about. -/
def frameGiven (lane : Nat) (f : LaneFrame) (s : State) : State := trunkQl (lane / 8) (laneFrame lane f s)

section
variable {lane : Nat} (hl : lane < 576) (f : LaneFrame) {s : State}

section
variable (hp : linkPhase s (lane / 8) ≠ 0)
include hl hp

/-- The counts of a lane's frames, and what a frame received leaves alone. -/
theorem frameGiven_counts : let x := laneFind s lane (laneInput s lane f); let t := frameGiven lane f s
    getF t (laneFrmA lane) 16 16 = (if x.valid = true then getF s (laneFrmA lane) 16 16 else min (2 ^ 16 - 1) (getF s (laneFrmA lane) 16 16 + 1))
      ∧ getF t (laneFrmA lane) 0 16 = (if x.match_ = true ∨ (laneTrack s lane).pend = none then getF s (laneFrmA lane) 0 16
          else min (2 ^ 16 - 1) (getF s (laneFrmA lane) 0 16 + 1))
      ∧ (laneTrack t lane).okRun ≤ 4
      ∧ t.cmd = s.cmd ∧ t.plan = s.plan ∧ t.port = s.port ∧ t.pins = s.pins ∧ t.trk.streams = s.trk.streams ∧ (∀ m, m / 8 ≠ lane / 8 → laneTrack t m = laneTrack s m) := by
  intro x t
  have h := trunkFrameTaken hl f hp
  have ht : RefWorks (laneFrame lane f s) t := refWorks_trunkQl ..
  generalize laneFrame lane f s = u at *
  obtain ⟨hfrm, -, htrk, hcmd, hplan, hport, hpins⟩ := ht.apart (n := lane / 8) (by omega) hl
  have hu := h.works.moves.frame
  refine ⟨?_, ?_, ?_, ?_, ?_, ?_, ?_, ?_, fun m hm => ?_⟩
  · rw [getF, hfrm, ← getF, h.high]
  · rw [getF, hfrm, ← getF, h.low]
  · rw [laneTrack_congr htrk]
    exact h.okRun
  · rw [hcmd, hu]
  · rw [hplan, hu]
  · rw [hport, hu]
  · rw [hpins, hu]
  · rw [htrk, h.works.streams]
  · rw [laneTrack_congr htrk, h.works.moves.lanes m hm]

/-- The fourth header in a row that carries a ladder byte shows it. -/
theorem frameGiven_byte {b : Nat} (hrun : linkRun s (lane / 8) = false) (heven : lane % 2 = 0) (hv : (laneFind s lane (laneInput s lane f)).valid = true)
    (h3 : 3 ≤ (laneTrack s lane).run) (hb : (laneFind s lane (laneInput s lane f)).b1.toNat / 2 ^ 40 % 256 = b) (hq : (laneTrack s lane).byte = b) (h6 : b / 16 ≠ 6) :
    getF (frameGiven lane f s) (linkMsgA (lane / 8)) 8 8 = b := by
  subst hb
  obtain ⟨-, hmsg, -⟩ := (refWorks_trunkQl (lane / 8) (laneFrame lane f s)).apart (n := lane / 8) (by omega) hl
  rw [frameGiven, getF, hmsg, ← getF]
  exact (trunkFrameTaken hl f hp).shown hrun heven hv h3 hq h6

end

section
variable (hc : ∀ k ∈ [4, 5], refTrunk s k ≠ some (lane / 8))
include hl hc

/-- A frame of a trunk that is no candidate for reference moves its lane and link pair only. -/
theorem frameGiven_works (hp : linkPhase s (lane / 8) ≠ 0) : LinkWorks (lane / 8) (receiveRegs lane (groupHead s (lane / 8))) s (frameGiven lane f s) := by
  have h := (trunkFrameTaken hl f hp).works
  rw [frameGiven, trunkQl_other fun k hk => by rw [refTrunk_congr h.moves.plan_eq]; exact hc k hk]
  exact h

omit hl in
/-- A frame of an idle link pair moves nothing. -/
theorem frameGiven_idle (hp : linkPhase s (lane / 8) = 0) : frameGiven lane f s = s := by
  rw [frameGiven, laneFrame_idle f hp, trunkQl_other hc]

end

end

/-! ## The clauses about a lane -/

section
variable {dt lane : Nat} {s : State} (hp : powered s = true) (hl : lane < 576)
include hp hl

theorem frame_received (f : LaneFrame) {P : State → Prop} (h : P (frameGiven lane f (tick dt s))) : Completes (.trunkFrameReceived dt lane f) s P :=
  completes_only rfl (decide_eq_true (by omega)) hp h

theorem frame_shown (f : LaneFrame) (h0 : linkPhase s (lane / 8) ≠ 0) :
    let n := lane / 8; let a := linkStA n; let q := laneTrack s lane
    let g := laneInput s lane f; let d := (descrambleAll q.descr (g.map Blk.payload)).1
    let b0 := (nth? d 254).getD 0; let b1 := (nth? d 255).getD 0
    let valid := ((g.drop 254).all fun b => decide (b.sync = 1)) = true ∧ b0.toNat % 256 = 0xB8 ∧ b1.toNat % 256 = 0x47 ∧ b0.toNat / 2 ^ 56 = hcrc b0 b1
      ∧ b1.toNat / 2 ^ 28 % 8 = lane % 8 ∧ b1.toNat / 2 ^ 32 % 4 = getF s a 6 2
    let sound := b1.toNat / 2 ^ 48 = dcrc (d.take 254) ∨ q.pend = none
    (Completes (.trunkFrameReceived dt lane f) s fun t =>
      getF t (laneFrmA lane) 16 16 = (if valid then getF s (laneFrmA lane) 16 16 else min (2 ^ 16 - 1) (getF s (laneFrmA lane) 16 16 + 1))
        ∧ getF t (laneFrmA lane) 0 16 = (if sound then getF s (laneFrmA lane) 0 16 else min (2 ^ 16 - 1) (getF s (laneFrmA lane) 0 16 + 1))
        ∧ (laneTrack t lane).okRun ≤ 4
        ∧ t.cmd = s.cmd ∧ t.plan = s.plan ∧ t.port = s.port ∧ t.pins = s.pins ∧ t.trk.streams = s.trk.streams ∧ (∀ m, m / 8 ≠ n → laneTrack t m = laneTrack s m))
    ∧ (linkRun s n = false → lane % 2 = 0 → valid → 3 ≤ q.run → q.byte = b1.toNat / 2 ^ 40 % 256 → b1.toNat / 2 ^ 44 % 16 ≠ 6 →
      Completes (.trunkFrameReceived dt lane f) s fun t => getF t (linkMsgA n) 8 8 = b1.toNat / 2 ^ 40 % 256) := by
  intro n a q g d b0 b1 valid sound
  have hvalid : (laneFind (tick dt s) lane (laneInput (tick dt s) lane f)).valid = true ↔ valid := laneFind_valid ..
  have hsound : ((laneFind (tick dt s) lane (laneInput (tick dt s) lane f)).match_ = true ∨ (laneTrack (tick dt s) lane).pend = none) ↔ sound :=
    or_congr (laneFind_match ..) Iff.rfl
  refine ⟨frame_received hp hl f ?_, fun hr heven hv h3 hq h6 => frame_received hp hl f ?_⟩
  · obtain ⟨hhigh, hlow, hrest⟩ := frameGiven_counts hl f (s := tick dt s) h0
    exact ⟨hhigh.trans (if_congr hvalid rfl rfl), hlow.trans (if_congr hsound rfl rfl), hrest⟩
  · exact frameGiven_byte hl f (s := tick dt s) h0 hr heven (hvalid.2 hv) h3 rfl hq (by omega)

theorem lane_loses (hr : linkRun s (lane / 8) = true) (hf : getB s (linkStA (lane / 8)) (24 + lane % 8) = false) (hs : (laneTrack s lane).searching = false)
    (hd : (laneTrack s lane).lossDue = true) (ha : getB s (linkStA (lane / 8)) (16 + lane % 8) = true) : Completes (.laneAlignmentLoss dt lane) s fun t =>
      getB t (linkStA (lane / 8)) (16 + lane % 8) = false ∧ (∀ l, l < 8 → l ≠ lane % 8 → getB t (linkStA (lane / 8)) (16 + l) = getB s (linkStA (lane / 8)) (16 + l))
        ∧ (laneTrack t lane).searching = true ∧ getF t (Reg.trkLinkCnt (lane / 8)) 16 16 = min (2 ^ 16 - 1) (getF s (Reg.trkLinkCnt (lane / 8)) 16 16 + 1)
        ∧ linkPhase t (lane / 8) = 7 ∧ LinkOnly (lane / 8) [linkStA (lane / 8), Reg.trkLaneStatus lane, Reg.trkLinkCnt (lane / 8)] dt s t := by
  have hdue : laneDue (laneTrack (tick dt s) lane) = true := (laneDue_iff _).2 (.inl hd)
  obtain ⟨hown, hothers, hsearch, hcount, hphase, hworks⟩ := laneLost_aligned (s := tick dt s) hl hr hf hs ha
  refine completes_only rfl (decide_eq_true (by omega)) hp ?_
  rw [if_pos hdue]
  exact ⟨hown, hothers, hsearch, hcount, hphase, hworks.linkOnly⟩

theorem lane_search_fails (hr : linkRun s (lane / 8) = true) (hf : getB s (linkStA (lane / 8)) (24 + lane % 8) = false) (hs : (laneTrack s lane).searching = true)
    (hd : (laneTrack s lane).lossDue = true ∨ (laneTrack s lane).swept = true ∧ 65 ≤ (laneTrack s lane).slips) : Completes (.laneAlignmentLoss dt lane) s fun t =>
      let within := ((laneTrack s lane).failTimes.filter fun x => decide (s.mono + dt < x + 10 * tickSec)).length
      getB t (linkStA (lane / 8)) (24 + lane % 8) = decide (2 ≤ within) ∧ (laneTrack t lane).searching = decide (within < 2) ∧ (within < 2 → t.evq = s.evq)
        ∧ LinkOnly (lane / 8) [linkStA (lane / 8)] dt s t := by
  have hdue : laneDue (laneTrack (tick dt s) lane) = true := (laneDue_iff _).2 (hd.imp id fun h => ⟨hs, h⟩)
  obtain ⟨hfailed, hsearch, hevents, hworks⟩ := laneLost_searching (m := lane) (s := tick dt s) hr hf hs
  refine completes_only rfl (decide_eq_true (by omega)) hp ?_
  rw [if_pos hdue]
  exact ⟨hfailed, hsearch, hevents, hworks.linkOnly⟩

theorem lane_keeps (hd : (laneTrack s lane).lossDue = false) (hs : (laneTrack s lane).searching = false) :
    Completes (.laneAlignmentLoss dt lane) s fun t => t = tick dt s := by
  have hdue : ¬ laneDue (laneTrack (tick dt s) lane) = true := fun h => by
    rcases (laneDue_iff _).1 h with h | ⟨h, -⟩
    · exact Bool.noConfusion (hd.symm.trans h)
    · exact Bool.noConfusion (hs.symm.trans h)
  exact completes_only rfl (decide_eq_true (by omega)) hp (if_neg hdue)

theorem lane_rejoins : if JoinDue s lane then
      Completes (.laneRejoin dt lane) s fun t => getB t (linkStA (lane / 8)) (16 + lane % 8) = true ∧ getB t (Reg.trkLaneStatus lane) 0 = true
        ∧ (laneTrack t lane).searching = false ∧ t.evq = s.evq ∧ LinkOnly (lane / 8) [linkStA (lane / 8), Reg.trkLaneStatus lane] dt s t
    else Completes (.laneRejoin dt lane) s fun t => t = tick dt s := by
  split
  · next h =>
    obtain ⟨haligned, hshown, hsearch, hevents, hworks⟩ := laneJoin_due hl (s := tick dt s) h
    exact completes_only rfl (decide_eq_true (by omega)) hp ⟨haligned, hshown, hsearch, hevents, hworks.linkOnly⟩
  · next h => exact completes_only rfl (decide_eq_true (by omega)) hp (laneJoin_idle (s := tick dt s) h)

theorem lane_checks (bits : List Bool) : if getB s (Reg.trkPrbsRx lane) 0 = true ∧ getB s (Reg.trkLinkCtrl (lane / 8)) 6 = true then
      (laneLoop s lane ≠ 1 → laneLoop s lane ≠ 2 → Completes (.prbsCheckerLock dt lane bits) s fun t =>
        let r := bits.foldl (prbsCheck (getF s (Reg.trkPrbsRx lane) 1 2)) ((laneTrack s lane).prbs, 0, 0)
        getB t (Reg.trkPrbsRx lane) 8 = r.1.locked ∧ laneTrack t lane = { laneTrack s lane with prbs := r.1 }
          ∧ get64 t (Reg.trkPrbsErrLo lane) = min (2 ^ 48 - 1) (get64 s (Reg.trkPrbsErrLo lane) + r.2.2)
          ∧ get64 t (Reg.trkPrbsBitsLo lane) = min (2 ^ 48 - 1) (get64 s (Reg.trkPrbsBitsLo lane) + r.2.1)
          ∧ LinkOnly (lane / 8) (prbsRegs lane) dt s t)
    else Completes (.prbsCheckerLock dt lane bits) s fun t => t = tick dt s := by
  split
  · next h =>
    intro h1 h2
    refine completes_only rfl (decide_eq_true hl) hp ?_
    rw [prbsReceive_on (s := tick dt s) bits h h1 h2]
    obtain ⟨hlock, htrack, herrs, hbits, hworks⟩ := prbsTaken_spec lane (bits.foldl (prbsCheck (getF s (Reg.trkPrbsRx lane) 1 2)) ((laneTrack s lane).prbs, 0, 0)) (tick dt s)
    exact ⟨hlock, htrack, herrs, hbits, hworks.linkOnly⟩
  · next h => exact completes_only rfl (decide_eq_true hl) hp (if_neg h)

end

end Sys2Proof.Machine
end


section
/-! The obligation of the lanes, frames and groups in service. -/

namespace Sys2Proof.Machine

/-! ## The clauses about a trunk -/

/-- The data of a lane, as the trunk state and the streams carried give them. -/
theorem txData_carried (s : State) (n l : Nat) (words : List (Nat × List (BitVec 40))) : txData s n l words =
    let es := if linkRun s n = true ∧ getB s (linkStA n) 12 = false then laneStreams s n 1 l else []
    if txState s n ≠ 2 then List.replicate 254 0
    else carryData (es.map fun e => unitBits e.w6) (es.map fun e => ((words.find? fun w => decide (w.1 = streamPort s n e)).map Prod.snd).getD []) := by
  have hc : (carries s n = true) = (linkRun s n = true ∧ getB s (linkStA n) 12 = false) := by simp only [carries, Bool.and_eq_true, Bool.not_eq_true']
  simp only [txData, hc]
  rfl

section
variable {dt n : Nat} {s : State} (hp : powered s = true) (hn : n < 72)
include hp hn

theorem claim_sampled : Completes (.claimSample dt (.trunk n)) s fun t =>
    linkTrack t n = { linkTrack s n with claim := if linkRun s n = true then claimOf s else 0 } ∧ LinkOnly n [] dt s t :=
  completes_only rfl (decide_eq_true hn) hp ⟨linkTrack_putLink_same .., ((LinkWorks.refl ..).putLink _).linkOnly⟩

theorem frame_sent {words : List (Nat × List (BitVec 40))} {P : State → Prop} (h : P (frameSend n words (tick dt s))) : Completes (.trunkFrameStart dt n words) s P := by
  refine completes_only rfl (decide_eq_true (by omega)) hp ?_
  have hne : n ≠ 72 := by omega
  rw [if_neg hne]
  exact h

theorem frame_waits (words : List (Nat × List (BitVec 40)))
    (h : (linkPhase s n = 0 ∧ modeNow s ≠ 6) ∨ keepAlive s (23 * (n / 18) + 18) = true ∨ frameStarts (getF s (linkStA n) 4 2) (s.now + dt) = false) :
    Completes (.trunkFrameStart dt n words) s fun t => t = tick dt s := frame_sent hp hn (frameSend_waits words (s := tick dt s) h)

theorem frame_starts (words : List (Nat × List (BitVec 40))) (hs : linkPhase s n ≠ 0 ∨ modeNow s = 6) (hk : keepAlive s (23 * (n / 18) + 18) = false)
    (hq : (linkTrack s n).txq = []) (hc : (linkTrack s n).claim < 2 ^ 16) :
    let q := linkTrack s n
    let step := getF s (linkStA n) 4 2; let st := if linkPhase s n ≠ 7 ∧ modeNow s ≠ 6 then 1 else if modeNow s = 0 ∨ modeNow s = 6 then 0 else 2
    let cl := if st = 2 then q.claim else 0; let cnt := (s.now + dt) * (425 * 2 ^ step) / 642318336 % 2 ^ 48
    frameStarts step (s.now + dt) = true → Completes (.trunkFrameStart dt n words) s fun t =>
      getF t (Reg.trkTxHdr n) 0 16 = cl ∧ getF t (Reg.trkTxHdr n) 16 4 = getF s Reg.refStatus 8 4
        ∧ getF t (Reg.trkTxHdr n) 22 3 = st ∧ (linkTrack t n).sent = min 16 (q.sent + 1) ∧ (linkTrack t n).txCnt = some cnt
        ∧ (∀ l, l < 8 → let m := 8 * n + l; laneLoop s m ≠ 3 → getB s (Reg.trkLinkCtrl n) 6 = false →
            let es := if linkRun s n = true ∧ getB s (linkStA n) 12 = false then laneStreams s n 1 l else []
            let data := if st ≠ 2 then List.replicate 254 0
              else carryData (es.map fun e => unitBits e.w6) (es.map fun e => ((words.find? fun w => decide (w.1 = streamPort s n e)).map Prod.snd).getD [])
            let h := headBlocks cnt cl (getF s Reg.refStatus 8 4) l step st (txMsg s n l) ((laneTrack s m).txCrc.getD 0)
            (laneTrack t m).tx.map Blk.sync = 1 :: 1 :: List.replicate 254 2
              ∧ (laneTrack t m).tx.map Blk.payload = (scrambleAll ((laneTrack s m).scr.getD (Config.scramblerStart m)) (h.1 :: h.2 :: data)).1
              ∧ (laneTrack t m).txCrc = some (dcrc data))
        ∧ LinkOnly n [Reg.trkTxHdr n] dt s t := by
  intro q step st cl cnt hstarts
  have hwait : ¬ FrameWaits (tick dt s) n := by
    rintro (⟨h0, h6⟩ | h | h)
    · exact hs.elim (fun h => h h0) fun h => h6 h
    · exact Bool.noConfusion (hk.symm.trans h)
    · exact Bool.noConfusion (hstarts.symm.trans h)
  have h := frameStarted hn words hwait hq hc
  refine frame_sent hp hn ⟨h.claim, h.ql, h.state, h.sent, h.txCnt, fun l hl => ?_, h.works.linkOnly⟩
  intro m _ h6 es data hd
  obtain ⟨⟨-, hcl⟩, hql, hst⟩ := frameHdr_fields (s := tick dt s) (n := n) hc
  obtain ⟨hsync, hpayload, hcrc⟩ := laneSent_spec (n := n) (hdr := frameHdr (tick dt s) n) (cnt := frameCnt (tick dt s) n) (l := l) (words := words) (s := tick dt s)
    (laneTrack (tick dt s) (8 * n + l))
  rw [hcl, hql, hst, txData_carried] at hpayload
  rw [txData_carried] at hcrc
  rw [h.lanes h6 l hl]
  exact ⟨hsync, hpayload, hcrc⟩

theorem group_waits (h : releaseDue (tick dt s) n = none ∨ (linkTrack s n).released = releaseDue (tick dt s) n) :
    Completes (.groupFrameRelease dt n) s fun t => t = tick dt s := completes_only rfl (decide_eq_true hn) hp (groupRelease_waits (s := tick dt s) h)

theorem group_releases {k : Nat} (hg : getB s (Reg.trkGrpStatus n) 5 = false ∨ getB s (Reg.trkGrpStatus n) 6 = false)
    (hk : releaseDue (tick dt s) n = some k) (hr : (linkTrack s n).released ≠ some k) :
    Completes (.groupFrameRelease dt n) s (Released n (groupB s n) k (getB s (Reg.trkGrpStatus n) 5) (tick dt s)) :=
  completes_only rfl (decide_eq_true hn) hp (groupReleased (s := tick dt s) (groupHead_self (s := tick dt s) hg) hk hr)

end

/-! ## The obligation -/

/-- Settles O23: a received frame is counted and shown by its parts (`frameGiven_counts`), a lane's loss and return by the cases of its search, a frame sent by its header and lanes (`frameStarted`), and a group's release by folding the lane's choice over the eight lanes (`groupReleased`). -/
theorem lanesFramesAndGroupsInService : Obligations.LanesFramesAndGroupsInService := by
  unfold Obligations.LanesFramesAndGroupsInService
  refine ⟨fun dt s hp lane hl => ?_, fun pattern k x hlock herr => ?_, fun dt s hp => ?_, fun dt s hp n hn => ?_⟩
  · intro n a q
    refine ⟨fun f h0 => frame_shown hp hl f h0, fun hc f => ⟨fun h0 => ?_, fun h0 => ?_⟩, lane_keeps hp hl,
      fun hr hf hs hd ha => lane_loses hp hl hr hf hs hd ha, fun hr hf hs hd => lane_search_fails hp hl hr hf hs hd, lane_rejoins hp hl, fun cnt => ?_, lane_checks hp hl⟩
    · exact frame_received hp hl f (frameGiven_idle f (s := tick dt s) hc h0)
    · exact frame_received hp hl f (frameGiven_works hl f (s := tick dt s) hc h0).linkOnly
    · exact completes_only rfl (decide_eq_true hl) hp (edgeShown dt cnt s)
  · obtain ⟨hlocked, hbits, herrs⟩ := prbsCheck_own pattern k x 0 0 hlock herr
    exact ⟨hlocked, hbits.trans (Nat.zero_add k), herrs⟩
  · exact completes_only rfl rfl hp (claimSample_mirror (tick dt s))
  · intro q
    refine ⟨claim_sampled hp hn, fun words h => frame_waits hp hn words h, fun words hs hk hq hc => frame_starts hp hn words hs hk hq hc, fun hg => ?_⟩
    intro paired p step due
    refine ⟨fun h => group_waits hp hn h, fun k hk hr _ => ?_⟩
    intro units frame good claim pref ok taken lanesWith
    obtain ⟨t, he, h⟩ := group_releases hp hn hg hk hr
    exact ⟨t, he, h.released, h.pair, h.alone, h.streams, h.moves.linkOnly⟩

end Sys2Proof.Machine
end
